-- ==== Sys2Proof/Word.lean ====
section
/-! DEFINITION. The words of the machine: 32-bit register words and bytes, and their little-endian reading. -/

namespace Sys2Proof

/-- A register is a 32-bit word (spec/20_register_map.md R368). -/
abbrev Word := BitVec 32

/-- One byte of a descriptor, a record or a buffer. -/
abbrev Byte := BitVec 8

end Sys2Proof
end

