-- ==== Sys2Proof/Operand.lean ====
section
/-! DEFINITION. The operand types of the commands: what the outside world supplies with an event, a register
write, a datagram or a descriptor. A verdict the spec bases on cryptography the model does not compute
(a signature, an authentication tag) is an operand: the command says which way it fell. -/

namespace Sys2Proof

/-- The two time domains (R147). -/
inductive Dom where
  | A | B
  deriving DecidableEq, Repr, Inhabited

/-- The variants of R2. -/
inductive Variant where
  | t512 | s512 | c512 | t256
  deriving DecidableEq, Repr, Inhabited

/-- Who writes a field of a time domain (R155). -/
inductive Writer where
  | host | gwynique
  deriving DecidableEq, Repr, Inhabited

/-- Where a SESSION_OPEN was posted: in an open window (0 = PF0, n = VFn) or in session q's command ring (R235). -/
inductive OpenSrc where
  | window (view : Nat)
  | ring (q : Nat)
  deriving DecidableEq, Repr, Inhabited

/-- The host memory an open reads: the setup block (none = the DMA read failed) and the credential buffer (R211, R258). -/
structure OpenMem where
  setup : Option (List Byte)
  cred : Option (List Byte)
  deriving DecidableEq, Repr, Inhabited

/-- What a fetch from a command ring delivers (R214, R215, R220). -/
inductive Fetch where
  /-- the 64-byte descriptor, its buffer (none = the DMA read of the buffer failed) and whether what vouches for the buffer verifies:
  the certificate chain of PAIR_ENROL, the signature of a calibration image -/
  | entry (desc : List Byte) (buf : Option (List Byte)) (sigOk : Bool)
  /-- the DMA read of the command ring failed -/
  | failed
  deriving DecidableEq, Repr, Inhabited

/-- The light at a sense input as it is sampled (R51, R58): the photodiode's current in femtoamperes, and the voltages in
microvolts of the REF_EXT pin and of VDD_ANA / 2. -/
structure Photo where
  current : Nat
  refExt : Nat
  halfAna : Nat
  deriving DecidableEq, Repr, Inhabited

/-- What a scan of the housekeeping ADC samples (R61, R62): the 32 channels' input voltages, and those of REF_HK and VDD_ANA / 2, in
microvolts. -/
structure HkIn where
  volts : List Nat
  refHk : Nat
  halfAna : Nat
  deriving DecidableEq, Repr, Inhabited

/-- The powers of PILOT_A and PILOT_B over the span a comparator judges, in 0.1 dB steps referred to dBm (R37): the highest
for a loss, the lowest for a return. -/
structure Pilots where
  a : Int
  b : Int
  deriving DecidableEq, Repr, Inhabited

/-- Steps of the comb engine of comb `comb`: up to `steps` of the routine a command names (R129, R137). -/
structure EngineTurn where
  comb : Nat
  steps : Nat
  deriving DecidableEq, Repr, Inhabited

/-- COMB_RESTART as session q's command, and whether the words read back from the comb's stores match the image (R246). -/
structure RestartIn where
  q : Nat
  readbackOk : Bool
  deriving DecidableEq, Repr, Inhabited

/-- What the pins CSP_OP and CSP_ADDR show at an edge of CSP_CLK (R250). -/
structure CspPins where
  op : Nat
  addr : Nat
  deriving DecidableEq, Repr, Inhabited

/-- A function's Bus Master Enable, and whether the writes the device issues for it succeed from here on (R210, R220). -/
structure BusMaster where
  enable : Bool
  wrOk : Bool
  deriving DecidableEq, Repr, Inhabited

/-- A page of doorbells: PF0 BAR2 page q (view 0), or VFn BAR2 page j (R212). -/
structure Doorbell where
  view : Nat
  page : Nat
  deriving DecidableEq, Repr, Inhabited

/-- The header of a datagram of the session transport (R223). -/
structure DgHead where
  magic : Nat
  version : Nat
  ty : Nat
  count : Nat
  q : Nat
  channel : Nat
  dir : Nat
  epoch : Nat
  dgramSeq : Nat
  index : Nat
  deriving DecidableEq, Repr, Inhabited

/-- A HELLO of the session transport (R222): the port (0 = ETH0, 1 = ETH1), the UDP port it was sent to, its header, the host's
public key and nonce, the requested role, the ring sizes, the credential with the holder proof after it,
and the address and UDP port it came from. -/
structure Hello where
  port : Nat
  dstPort : Nat
  head : DgHead
  hostKey : List Byte
  nonce : List Byte
  role : Nat
  cmdLog2 : Nat
  cplLog2 : Nat
  evtLog2 : Nat
  cred : List Byte
  proof : List Byte
  srcAddr : List Byte
  srcPort : Nat
  deriving DecidableEq, Repr, Inhabited

/-- A datagram from a host on a management port (R223): the port (0 = ETH0, 1 = ETH1), its header, and what follows: the
encrypted body with its tag after it. -/
structure Datagram where
  port : Nat
  head : DgHead
  payload : List Byte
  deriving DecidableEq, Repr, Inhabited

/-- The session a datagram names. -/
abbrev Datagram.q (d : Datagram) : Nat := d.head.q

/-- What an Announce carries (R160, R243): the grandmaster's priority 1, clock class, accuracy, variance, priority 2 and
identity, the steps removed, the parent port identity, UTC offset and leap flags. -/
structure Announce where
  prio1 : Nat
  cls : Nat
  accuracy : Nat
  variance : Nat
  prio2 : Nat
  grandmaster : List Byte
  steps : Nat
  parent : List Byte
  utc : Int
  leap : Nat
  deriving DecidableEq, Repr, Inhabited

/-- A PTP message or announce timeout at ETH0 or ETH1 (R160): the port (1 or 2), transport and domainNumber, the master's
address and clockIdentity, its kind (0 one-step Sync, 1 Follow_Up, 2 the Delay_Req that the client sends that master, 3
Delay_Resp, 4 Announce, 5 announce timeout of that master, 6 two-step Sync), the master's time that it carries in 1/256 ns with its
correction applied (t1 of a one-step Sync or Follow_Up, t4 of a Delay_Resp), the error of the port's stamp in 1/256 ns, within
±2 ns, and what an Announce carries. -/
structure PtpMsg where
  port : Nat
  transport : Nat
  domainNumber : Nat
  addr : List Byte
  clockId : List Byte
  kind : Nat
  time : Int
  err : Int
  ann : Announce
  deriving DecidableEq, Repr, Inhabited

/-- How a frame ended (R167). -/
inductive FrameEnd where
  | terminate (fcsOk : Bool) | errored | tooLong
  deriving DecidableEq, Repr, Inhabited

/-- What a segment of a sense ADC self-calibration converts (R92): the unclamped results of ADC A and of ADC B, in order,
of the blanked input up to the 512th of a run and of the internal calibration current after it. -/
structure SadcIn where
  /-- steps the engine makes -/
  steps : Nat
  resA : List Int
  resB : List Int
  deriving DecidableEq, Repr, Inhabited

/-- One flash bank as the security core finds it at boot stage 3 (R145, R356, R357): the image it holds, header and encrypted
payload. -/
structure BankIn where
  image : List Byte
  deriving DecidableEq, Repr, Inhabited

/-- What a start reads from straps, flash and factory record (R350, R351, R87, R357). -/
structure BootIn where
  bootMode : Nat
  pairPosB : Bool
  cspEn : Bool
  ownerClrHeld : Bool
  gwqBank0 : BankIn
  gwqBank1 : BankIn
  mcBank0 : BankIn
  mcBank1 : BankIn
  sealSlot0Ok : Bool
  sealSlot1Ok : Bool
  frPresent : Bool
  frSigOk : Bool
  frIdOk : Bool
  loadFails : List Nat
  deriving DecidableEq, Repr, Inhabited

/-- One thermal conversion: a reading in 0.125 °C steps and whether the sensor's self-check passes, per sensor. -/
abbrev Temps := List (Int × Bool)

/-- The contact inputs of the laser-safety block as one sample reads them (true = high), or as one test pulse finds them (true =
passed); SRST_N is none where it read low before the pulse (R325). -/
structure Contacts where
  estop : Bool
  guards : List Bool
  kfb : List Bool
  srst : Option Bool
  deriving DecidableEq, Repr, Inhabited

/-- What a frame of the Haldod link brings beside its body, which the command spells out (R288): its FSEQ and its 16-byte tag. -/
structure FrameIn where
  fseq : Nat
  tag : List Byte
  deriving DecidableEq, Repr, Inhabited

/-- A MIRROR frame (R297): the fields of its body's header, and the content bytes of this part. -/
structure Mirrored where
  frame : FrameIn
  tseq : Nat
  ty : Nat
  flags : Nat
  part : Nat
  length : Nat
  data : List Byte
  deriving DecidableEq, Repr, Inhabited

/-- A WAGGLE frame and its 32-byte body (R292). -/
structure WaggleIn where
  frame : FrameIn
  body : List Byte
  deriving DecidableEq, Repr, Inhabited

/-- A CONTROL frame about a transaction (R298, R299): the TSEQ it names. -/
structure TseqIn where
  frame : FrameIn
  tseq : Nat
  deriving DecidableEq, Repr, Inhabited

/-- A digest sample (R293). -/
structure Sample where
  port : Nat
  len : Nat
  ns32 : Nat
  frac8 : Nat
  digest : Nat
  deriving DecidableEq, Repr, Inhabited

/-- A DIGEST frame (R293). -/
structure DigestIn where
  frame : FrameIn
  samples : List Sample
  deriving DecidableEq, Repr, Inhabited

/-- One entry of a POSITIONS mark (R303): the active's queue, the QPOS last sent, and the resume mark if any. -/
structure Position where
  q : Nat
  qpos : Nat
  mark : Option Sample
  deriving DecidableEq, Repr, Inhabited

/-- A POSITIONS stream: its frames in order, and its marks (R303). -/
structure PositionsIn where
  frames : List FrameIn
  marks : List Position
  deriving DecidableEq, Repr, Inhabited

/-- HEALTH_REQ: its frames in order, the active's GENERATION, the plan hash of every COMPILED slot and of the plan in force, its
element-state hash, and the outputs that pass light (R306). -/
structure HealthReqIn where
  frames : List FrameIn
  gen : Nat
  slots : List (Nat × Nat)
  plan : Nat
  elements : Nat
  passing : List Nat
  deriving DecidableEq, Repr, Inhabited

/-- A HEALTH frame, and the first 8 bytes of its report (R307). -/
structure HealthIn where
  frame : FrameIn
  bytes : List Byte
  deriving DecidableEq, Repr, Inhabited

/-- What takes the Haldod link down (R287): the cause as DOWN_CAUSE codes it; for LANE the lane, how many of its last 64 sync headers were
invalid, and that its alignment markers are lost; for DESKEW the lane and its lag in blocks. -/
structure LinkDownIn where
  cause : Nat
  lane : Nat := 0
  blkErr : Nat := 0
  amLost : Bool := false
  skew : Nat := 0
  deriving DecidableEq, Repr, Inhabited

/-- Bits that a PRBS checker receives on its lane, in order (R289). -/
structure CheckIn where
  lane : Nat
  bits : List Bool
  deriving DecidableEq, Repr, Inhabited

/-- What a write access carries (R368): its 32-bit words in ascending offset, and that every byte enable is set. -/
structure WrIn where
  words : List Word
  full : Bool := true
  deriving DecidableEq, Repr

/-- A write of one word. -/
def WrIn.one (v : Word) : WrIn := ⟨[v], true⟩

/-- What a read access asks for (R368): its first byte and how many bytes. -/
structure RdIn where
  addr : Nat
  len : Nat
  deriving DecidableEq, Repr

/-- A read of one word. -/
def RdIn.word (a : Nat) : RdIn := ⟨a, 4⟩

end Sys2Proof
end

