-- ==== Sys2Proof/Syntax.lean ====
section
/-! DEFINITION. The commands of the block: one constructor per row of spec/opcode_table.json, with the operands the
row's rule gives it. The table gives no bits and no fields, so the operands are those the cited rule names. -/

namespace Sys2Proof

/-- The commands, in the order of the table's families. -/
inductive Instr where
  /-- SESSION_OPEN (R235). Opens a session through an open window, granting role, mask and grant within the bounds of R207 and the credential. -/
  | sessionOpen (src : OpenSrc)
  /-- SESSION_CLOSE (R235). Puts the issuing session or a named session into CLOSING. -/
  | sessionClose (q : Nat)
  /-- SESSION_INFO (R234). Returns the session's number, role, carrier, mask, ports granted and key epoch. -/
  | sessionInfo (q : Nat)
  /-- REKEY (R235). Derives a new transport key for an Ethernet session and advances KEY_EPOCH. -/
  | rekey (q : Nat)
  /-- SESSION_GRANT (R260). Sets the capability mask and port grant of a session. -/
  | sessionGrant (q : Nat)
  /-- VF_GRANT (R260). Sets a VF's role ceiling and ports and narrows the grants of its open sessions. -/
  | vfGrant (q : Nat)
  /-- NET_CFG (R235). Configures addresses, gateway, VLAN and transport UDP port of a management Ethernet port. -/
  | netCfg (q : Nat)
  /-- PLAN_COMPILE (R237). Compiles a port list into a plan slot and writes the compile report. -/
  | planCompile (q : Nat)
  /-- PLAN_FREE (R237). Frees a plan slot unless it is busy. -/
  | planFree (q : Nat)
  /-- PLAN_COMMIT (R122). Accepts or refuses a commit of a compiled slot with a make instant and arms it at the plan gate. -/
  | planCommit (q : Nat)
  /-- PLAN_ARM (R124). Arms a compiled slot for a CSP_GO strike, or disarms it. -/
  | planArm (q : Nat)
  /-- PLAN_PARK (R121). Accepts a park or unpark of an output as a plan-gate item and reserves its ledger entry. -/
  | planPark (q : Nat)
  /-- PLAN_READ (R237). Copies a compiled slot's 20 KiB into the host buffer. -/
  | planRead (q : Nat)
  /-- OUT_READ (R237). Writes one status word per output, formed for the session's view. -/
  | outRead (q : Nat)
  /-- SCHED_LOAD (R126). Loads a circuit schedule list, computing its start and any late start. -/
  | schedLoad (q : Nat)
  /-- SCHED_STOP (R128). Halts the running schedule list after its armed steps. -/
  | schedStop (q : Nat)
  /-- SCHED_READ (R239). Returns the loaded schedule list and its state. -/
  | schedRead (q : Nat)
  /-- LOOP_PERIOD (R239). Writes PERIOD into LOOP_CFG of every named comb in one step. -/
  | loopPeriod (q : Nat)
  /-- CAL_RUN (R90). Starts calibration procedures on named combs or lanes, taking eligible lanes. -/
  | calRun (q : Nat)
  /-- CAL_APPLY (R99). Issues a CAL_APPLY through the plan gate at instant T_a. -/
  | calApply (q : Nat)
  /-- CAL_SAVE (R102). Returns the active calibration values in a signed calibration image. -/
  | calSave (q : Nat)
  /-- CAL_RESTORE (R103). Checks a calibration image and writes its values to the staged sets, optionally followed by CAL_APPLY. -/
  | calRestore (q : Nat)
  /-- DIGEST_KEY (R241). Sets or removes a port's digest key and advances KEYSEQ. -/
  | digestKey (q : Nat)
  /-- QUEUE_STAT (R242). Returns depth, delay, drops and QPOS of a record queue. -/
  | queueStat (q : Nat)
  /-- EXPORT_FLUSH (R242). Sends the waiting records of an Ethernet queue at once. -/
  | exportFlush (q : Nat)
  /-- PTP_CFG (R243). Configures one domain's PTP client and restarts it. -/
  | ptpCfg (q : Nat)
  /-- PTP_STATS (R243). Returns the PTP client's state, offset, delay and message counts. -/
  | ptpStats (q : Nat)
  /-- LEDGER_READ (R244). Returns ledger entries from a sequence number and optionally releases them. -/
  | ledgerRead (q : Nat)
  /-- LEDGER_CHECKPOINT (R276). Returns the held signed checkpoint covering a sequence number. -/
  | ledgerCheckpoint (q : Nat)
  /-- ATTEST (R267). Returns signed attestation evidence over a nonce. -/
  | attest (q : Nat)
  /-- IDENTITY (R265). Returns the identity certificate chain. -/
  | identity (q : Nat)
  /-- OWNER_ENROL (R268). Judges an enrolment block and enrols a new owner key. -/
  | ownerEnrol (q : Nat)
  /-- PAIR_ENROL (R294). Agrees the pair key with the certified partner over the Haldod link. -/
  | pairEnrol (q : Nat)
  /-- PAIR_STATUS (R245). Returns pair role, link state, solo and partner health. -/
  | pairStatus (q : Nat)
  /-- PAIR_HEALTH (R307). Returns the latest health report. -/
  | pairHealth (q : Nat)
  /-- PAIR_SOLO (R245). Puts the active into solo operation or ends it, starting a rejoin. -/
  | pairSolo (q : Nat)
  /-- COMB_RESTART (R246). Recovers a comb in MCHECK, including one given up on. -/
  | combRestart (x : RestartIn)
  /-- WARM_RESET (R362). Writes its completion and ledger entry and resets the management plane. -/
  | warmReset (q : Nat)
  /-- IMAGE_WRITE (R246). Checks a Casnak image and writes it to the bank not running. -/
  | imageWrite (q : Nat)
  /-- IMAGE_INFO (R246). Returns flash level, running level and anti-rollback count of an image class. -/
  | imageInfo (q : Nat)
  /-- COMMAND_FETCH (R214). Gwynique takes the next pending command of a session in turn when a completion entry is free. -/
  | commandFetch (q : Nat) (f : Fetch)
  /-- SESSION_CLOSED (R210). A CLOSING session becomes CLOSED once its last taken command finishes. -/
  | sessionClosed (q : Nat)
  /-- GO (R211). OPEN_CTL.GO submits the descriptor in the open window as a SESSION_OPEN. -/
  | go (view : Nat) (mem : OpenMem)
  /-- CMD_TAIL (R212). A doorbell write reporting new commands in the command ring. -/
  | cmdTail (d : Doorbell) (v : Word)
  /-- CPL_HEAD (R212). A doorbell write freeing completion ring entries. -/
  | cplHead (d : Doorbell) (v : Word)
  /-- EVT_HEAD (R212). A doorbell write freeing event ring entries. -/
  | evtHead (d : Doorbell) (v : Word)
  /-- REC_HEAD (R212). A doorbell write freeing record ring entries. -/
  | recHead (d : Doorbell) (v : Word)
  /-- MSIX_MODERATION_END (R221). At the end of a moderation interval a delayed MSI-X message is raised. -/
  | msixModerationEnd (q : Nat) (ring : Nat)
  /-- FUNCTION_LEVEL_RESET (R210). A function-level reset puts the function's sessions into CLOSING. -/
  | functionLevelReset (fn : Nat)
  /-- VF_REMOVAL (R210). Clearing VF Enable or reducing NumVFs closes the removed VFs' sessions. -/
  | vfRemoval (numVfs : Nat)
  /-- HELLO (R222). An Ethernet HELLO is judged and answered with ACCEPT or REJECT, deriving the transport key. -/
  | hello (h : Hello)
  /-- CMD (R224). An Ethernet CMD datagram is authenticated and its new descriptors taken in ring order. -/
  | cmd (d : Datagram)
  /-- BULK_W (R225). An Ethernet BULK_W datagram writes bytes into the bulk window. -/
  | bulkW (d : Datagram)
  /-- BULK_R (R225). An Ethernet BULK_R datagram requests bulk window bytes returned in BULK_D. -/
  | bulkR (d : Datagram)
  /-- KEEPALIVE (R223). An Ethernet KEEPALIVE datagram acknowledges completions and events. -/
  | keepalive (d : Datagram)
  /-- CLOSE (R223). A CLOSE datagram closes an Ethernet session. -/
  | closeDatagram (d : Datagram)
  /-- IDLE_TIMEOUT (R224). An Ethernet session without a valid datagram for 10 s enters CLOSING. -/
  | idleTimeout (q : Nat)
  /-- BREAK (R117). At T_break the affected gates step to blocking and GENERATION advances. -/
  | breakStrobe
  /-- MOVE_START (R117). At T_break + 40 ns the lanes of the move enter MOVING at profile strobe 0. -/
  | moveStart
  /-- PROFILE_STEP (R114). At each move strobe the comb profile units form each moving lane's set-point and code. -/
  | profileStep
  /-- MOVE_END (R117). At the move's end the moving lanes leave MOVING and issue urgent requests. -/
  | moveEnd
  /-- MAKE (R117). At T_make the affected gates with circuits step open and the outputs become LIT. -/
  | make
  /-- GO_OK_REENABLE (R124). GO_OK may set again 1 µs after a make. -/
  | goOkReenable
  /-- OUTPUT_PARK (R121). A park moves the output's gate lane to its park code at its instant. -/
  | outputPark
  /-- OUTPUT_UNPARK (R121). An unpark steps the gate lane to its open code at its instant if the conditions hold. -/
  | outputUnpark
  /-- SCHED_STEP_ARM (R127). Gwynique arms a schedule step PLAN_LEAD before its make, or skips it. -/
  | schedStepArm
  /-- SCHED_DONE (R126). A one-pass list ends after its last entry's HOLD and enters DONE. -/
  | schedDone
  /-- CSP_GO (R253). A strike on CSP_GO is accepted as a commit of the armed plan or refused. -/
  | cspGo
  /-- GO_ABANDONED (R124). A paired strike without standby acknowledgement within 3 µs is abandoned. -/
  | goAbandoned
  /-- READ_OUT (R250). The CSP answers an output word for the sampled address. -/
  | readOut (addr : Nat)
  /-- READ_DEV (R250). The CSP answers a device word for the sampled address. -/
  | readDev (p : CspPins)
  /-- CSP_PUBLICATION (R252). The executor writes the unused copy and flips the select bit to publish a changed entry. -/
  | cspPublication
  /-- PERIOD_BOUNDARY (R80). At a comb's loop period boundary skips are counted and pending items, holds and state changes are taken. -/
  | periodBoundary (c : Nat)
  /-- PROLOGUE (R137). The engine runs the period prologue after a boundary, carrying out R80 and R85. -/
  | prologue (t : EngineTurn)
  /-- ITER (R70). The engine computes one lane iteration of the control law and commits it. -/
  | iter (t : EngineTurn)
  /-- POST_MOVE (R78). The engine serves a moved lane once its readings are ready. -/
  | postMove (t : EngineTurn)
  /-- CMD_ROUTINE (R137). The engine takes a commanded procedure item or calibration command. -/
  | cmdRoutine (t : EngineTurn)
  /-- CAL_ACC (R91). The engine accumulates the readings of calibrating lanes in a period. -/
  | calAcc (t : EngineTurn)
  /-- CAL_FIT (R92). The engine runs an outstanding fit segment of a lane procedure. -/
  | calFit (c : Nat) (l : Nat) (n : Nat)
  /-- SADC (R92). The engine runs a segment of the sense ADC self-calibration. -/
  | sadc (c : Nat) (m : SadcIn)
  /-- FULL_GROUP_SETTLE (R98). After the 8 s thermal settle, the next comb group of a FULL calibration starts its sweeps. -/
  | fullGroupSettle
  /-- MC_RECOVERY (R143). Gwynique reloads a comb in MCHECK and restarts it through the plan gate, or gives up. -/
  | mcRecovery (c : Nat) (readbackOk : Bool)
  /-- SENSE_CONVERSION (R52). A sense ADC conversion completes and rewrites its result register. -/
  | senseConversion (c : Nat) (adcB : Bool) (p : Photo)
  /-- HOUSEKEEPING_SCAN (R61). The housekeeping ADC completes a scan of its 32 channels. -/
  | housekeepingScan (vals : HkIn)
  /-- HOLD_LIMIT (R83). A lane in HOLD_NO_PILOT for HOLD_LIMIT sets DEGRADED. -/
  | holdLimit (c : Nat) (l : Nat)
  /-- REF_SETTLED (R58). REF_SETTLED sets once the new reference's settling time has passed. -/
  | refSettled (c : Nat)
  /-- REF_SEL (R58). A write of SENSE_CFG.REF_SEL changes the reference at the next slot and sets REF_CHANGED. -/
  | refSel (c : Nat) (v : Word)
  /-- PILOT_LOST (R37). A pilot below reference minus 3 dB for 1 µs is lost, giving a switch or NO_PILOT. -/
  | pilotLost (p : Pilots)
  /-- SWITCH_WINDOW_END (R38). A 20 µs pilot switch window closes. -/
  | switchWindowEnd
  /-- PILOT_OK (R37). A pilot at or above reference minus 2 dB for 1 ms is OK again. -/
  | pilotOk (p : Pilots)
  /-- SWITCH (R37). PILOT_CTL.SWITCH selects the other pilot if allowed, else sets SEL_REFUSED. -/
  | pilotSwitch
  /-- RECAPTURE (R39). PILOT_CTL.RECAPTURE requests a new reference capture of each OK pilot. -/
  | recapture
  /-- PILOT_REF_CAPTURE (R39). Each OK pilot's reference is captured from its next 1 ms average. -/
  | pilotRefCapture (pwrA : Nat) (pwrB : Nat)
  /-- MODE (R37). A write of PILOT_CTL.MODE takes effect at once. -/
  | pilotMode (v : Word)
  /-- POWER_MONITOR_WINDOW (R35). The input power monitor publishes each 1 ms window's result in IN_PWR. -/
  | powerMonitorWindow (p : Nat) (code : Nat)
  /-- EN (R50). A write of DRV_CTL.EN starts the enable ramp or returns every lane to zero drive. -/
  | driveEn (v : Word)
  /-- ENABLE_RAMP_END (R50). At the end of the 10 µs ramp EN_DONE sets and lanes leave OFF. -/
  | enableRampEnd
  /-- DRV_PG_LOSS (R50). VDD_DRV leaves its range and every lane goes to zero drive. -/
  | drvPgLoss
  /-- DRV_PG_RETURN (R50). After 1 ms in range DRV_PG sets and the ramp runs again if EN = 1. -/
  | drvPgReturn
  /-- DRV_CLR_N_ASSERT (R47). DRV_CLR_N low parks every lane at its park code and suspends loops. -/
  | drvClrNAssert
  /-- DRV_CLR_N_RELEASE (R48). DRV_CLR_N high lets cell lanes leave park while gates stay parked. -/
  | drvClrNRelease
  /-- INC_HI (R148). A write of INC_HI brings the staged INC into force at the next tick, clamped. -/
  | incHi (d : Dom) (w : Writer) (v : Word)
  /-- ADJ_TICKS (R149). A write of ADJ_TICKS starts a phase adjustment spread over N ticks. -/
  | adjTicks (d : Dom) (w : Writer) (v : Word)
  /-- SET_GO (R150). SET_GO places the staged time in a domain at the next tick, or is refused. -/
  | setGo (d : Dom) (w : Writer) (v : Word)
  /-- STATE (R155). A write of a domain's TQ STATE by the discipliner sets time quality. -/
  | tqState (d : Dom) (w : Writer) (v : Word)
  /-- SNAP (R151). TIME_CTL.SNAP captures TICK and both domains at the next tick. -/
  | snap
  /-- TIME_RD_READ (R151). A read of TIME_RD word 0 returns NS32 and latches FRAC8, DOM and TQ for the view. -/
  | timeRdRead (view : Nat)
  /-- SW_REQ (R154). A switch of the stamping domain is requested. -/
  | swReq
  /-- DOMAIN_SWITCH (R154). At t_sw the stamping domain switches and the offset is captured. -/
  | domainSwitch
  /-- TQ_WD_EXPIRY (R155). A LOCKED domain without servo writes for TQ_WD goes to HOLDOVER. -/
  | tqWdExpiry (d : Dom)
  /-- HOLD_MAX_EXPIRY (R155). A domain in HOLDOVER for HOLD_MAX goes to FREE. -/
  | holdMaxExpiry (d : Dom)
  /-- TIME_MINUTE (R155). Each minute Gwynique writes one ledger entry per domain. -/
  | timeMinute
  /-- ANCHOR (R152). Gwynique places an anchor in every export queue and event ring. -/
  | anchor
  /-- PTP_MESSAGE (R160). The PTP client receives a PTP message and updates its servo and time quality. -/
  | ptpMessage (d : Dom) (m : PtpMsg)
  /-- PPS_EDGE (R157). A PPS rising edge is timed by its capture unit and used or counted. -/
  | ppsEdge (inB : Bool) (sub : Nat)
  /-- TOD_LINE (R159). A TOD line is received and used or counted in BAD or SEQ. -/
  | todLine (inB : Bool) (line : List Byte)
  /-- TS_IN_CAPTURE (R164). An edge on TS_IN enters its capture FIFO or is lost. -/
  | tsInCapture (n : Nat) (rising : Bool) (sub : Nat)
  /-- CAPTURE_POP (R164). A read of capture word +0x14 removes the head entry. -/
  | capturePop (n : Nat)
  /-- CMP_EN (R162). Writing EN = 1 arms a compare unit. -/
  | cmpEn (n : Nat) (v : Word)
  /-- CMP_FIRED (R162). A compare unit fires at its target, driving TS_OUT and posting an event. -/
  | cmpFired (n : Nat)
  /-- TS_OUT_PULSE_END (R163). A TS_OUT pulse ends after WIDTH ticks. -/
  | tsOutPulseEnd (n : Nat)
  /-- REFCLK_LOSS (R17). Loss of REFCLK holds the PLL and asserts the time fault source. -/
  | refclkLoss
  /-- REFCLK_RELOCK (R17). The PLL locks again after REFCLK returns and stays in range for 1 ms. -/
  | refclkRelock
  /-- BLOCK_LOCK_GAINED (R167). A stamp receiver gains block lock and forms a LINK record. -/
  | blockLockGained (p : Nat) (delta : Nat)
  /-- BLOCK_LOCK_LOST (R167). A stamp receiver loses block lock and forms a LINK record. -/
  | blockLockLost (p : Nat) (delta : Nat) (bytes : List Byte) (len : Nat)
  /-- AUTO_RATE_TRY (R166). With RATE = AUTO the receiver tries the other rate after 4 ms without lock. -/
  | autoRateTry (p : Nat)
  /-- FRAME_START (R168). A start block opens a frame, stamps it and assigns SEQ32. -/
  | frameStart (p : Nat) (lane4 : Bool) (delta : Nat) (bytes : List Byte) (len : Nat)
  /-- FRAME_END (R171). At frame end the rules are judged, the digest completed and a STAMP record passed to the tile FIFO. -/
  | frameEnd (p : Nat) (bytes : List Byte) (len : Nat) (how : FrameEnd) (delta : Nat)
  /-- SRX_EN (R182). A write of SRX_CFG.EN starts acquisition or disables the receiver after the open frame. -/
  | srxEn (p : Nat) (v : Word)
  /-- SRX_RATE (R166). A write of SRX_CFG.RATE takes effect at once. -/
  | srxRate (p : Nat) (v : Word) (bytes : List Byte) (len : Nat)
  /-- SRX_APPLY (R172). SRX_CFG.APPLY brings staged rules and digest range into force. -/
  | srxApply (p : Nat)
  /-- TILE_LINK_TRANSFER (R21). The tile bridge carries a record across its link into the aggregator intake, or drops it. -/
  | tileLinkTransfer (t : Nat)
  /-- RECORD_HANDOFF (R187). The aggregators hand a record to the export engine, which polices it and queues it at its destinations. -/
  | recordHandoff (t : Nat)
  /-- RECORD_AGE_DROP (R183). A record unqueued 1 s after its stamp is dropped. -/
  | recordAgeDrop (t : Nat)
  /-- LOSS_RECORD (R184). A dropping point forms a LOSS record 100 µs after the first drop it counts. -/
  | lossRecord (point : Nat) (p : Nat)
  /-- QUEUE_LOSS_RECORD (R193). A queue's point-0x2 LOSS record enters 100 µs after its first drop. -/
  | queueLossRecord (q : Nat)
  /-- SUMMARY (R191). A window's SUMMARY record is formed 1 s after the window ends. -/
  | summary (p : Nat)
  /-- POL_APPLY (R188). POL.APPLY brings the staged policer set into force and marks it FIRST. -/
  | polApply (p : Nat)
  /-- CHANNEL_SEND (R194). An export channel sends the next eligible record by WFQ. -/
  | channelSend (ch : Nat)
  /-- SHAPER_REFILL (R196). Each 1 µs every enabled shaper bucket is refilled. -/
  | shaperRefill
  /-- FC_SLOT (R197). At a fixed-cadence slot instant a queue releases up to FC_BURST records. -/
  | fcSlot (ch : Nat)
  /-- DATAGRAM_FLUSH (R200). A queue's datagram is sent when its oldest record has waited FLUSH µs. -/
  | datagramFlush (q : Nat)
  /-- Q_DEPTH_SAMPLE (R198). On the DX256-T queue depth and head age are sampled every 1 ms. -/
  | qDepthSample
  /-- CHECKPOINT (R276). A signed checkpoint is formed after 1,024 entries or 1 s and sealed. -/
  | checkpoint
  /-- POR_N_ASSERT (R360). POR_N low resets the device. -/
  | porNAssert
  /-- POR_N_RELEASE (R351). Release of POR_N starts the boot stages. -/
  | porNRelease (b : BootIn)
  /-- DRIVE_ENABLE_AT_BOOT (R351). At boot stage 7 Gwynique sets DRV_CTL.EN once DRV_PG is set. -/
  | driveEnableAtBoot
  /-- READY (R352). The module becomes READY once lanes are primed, a pilot is OK and the factory record is valid. -/
  | ready
  /-- SYS_RST_N_ASSERT (R360). SYS_RST_N low removes switched domains and releases OWN_OUT and SEL_OUT. -/
  | sysRstNAssert
  /-- SYS_RST_N_RELEASE (R360). Release of SYS_RST_N starts boot stage 1. -/
  | sysRstNRelease (b : BootIn)
  /-- PERST_N (R361). PERST_N resets the PCIe endpoint and closes PCIe sessions. -/
  | perstN
  /-- SUPPLY_FAULT (R313). A rail out of range for 2 µs asserts its FATAL supply source and opens every switched domain. -/
  | supplyFault (rail : Nat)
  /-- VDD_AON_ABSENT (R349). Below 2.7 V VDD_AON is absent and all switches open. -/
  | vddAonAbsent
  /-- FAULT_REPEAT (R317). Gwynique repeats the FAULT event and entry at most once per second while a source asserts. -/
  | faultRepeat (n : Nat)
  /-- GWQ_WD (R313). Gwynique's watchdog unserviced for 100 ms triggers a warm reset. -/
  | gwqWd
  /-- JTAG_TEST (R272). Selecting EXTEST, CLAMP or HIGHZ asserts a FATAL fault source. -/
  | jtagTest
  /-- FLT_REL_LANE (R315). FLT_REL with WHOLE = 0 releases a lane's fault park at the next boundary. -/
  | fltRelLane (c : Nat) (l : Nat)
  /-- FLT_REL_COMB (R315). FLT_REL with WHOLE = 1 releases a comb's KIND 0x4 hold at the next boundary. -/
  | fltRelComb (c : Nat)
  /-- FLT_INJ_ARM (R318). FLT_INJ.ARM sets a checker's INJ bit for the next write. -/
  | fltInjArm (v : Word)
  /-- THERMAL_CONVERSION (R321). Each 100 µs the sensors are converted and the thresholds judged. -/
  | thermalConversion (temps : Temps)
  /-- COOLED_RESTART (R323). After 1 s with every photonic-die sensor below 100 °C a cold restart begins. -/
  | cooledRestart (b : BootIn)
  /-- ESTOP_N_DEMAND (R327). A recognised ESTOP_N demand parks every gate, turns SO off and trips. -/
  | estopNDemand
  /-- ESTOP_N_RELEASE (R327). ESTOP_N returning high writes a release entry and the block stays TRIPPED. -/
  | estopNRelease
  /-- GUARD_N_DEMAND (R327). A recognised guard demand parks its panel and trips where enabled. -/
  | guardNDemand (n : Nat)
  /-- GUARD_N_RELEASE (R328). A guard returning high withdraws its panel park or writes a release entry. -/
  | guardNRelease (n : Nat)
  /-- TEST_PULSE (R325). Each SAFE_TP test pulse judges the contact inputs and locks out stuck ones. -/
  | testPulse (passed : Contacts)
  /-- KFB_TIMEOUT (R329). Feedback not matching within 50 ms of an SO change causes LOCKOUT. -/
  | kfbTimeout
  /-- KFB_UNEXPECTED (R329). A feedback change while SO is steady causes LOCKOUT. -/
  | kfbUnexpected (n : Nat) (high : Bool)
  /-- SO_READBACK (R329). A drain readback mismatch for 1 ms causes LOCKOUT. -/
  | soReadback
  /-- INTERNAL (R330). A failed periodic self-check causes LOCKOUT. -/
  | internalFault
  /-- DELIBERATE_RESET (R331). A rising edge after SRST_N low is judged as a reset of the laser-safety block. -/
  | deliberateReset (lowMs : Nat) (inputs : Contacts) (readbackOk : Bool) (selfOk : Bool)
  /-- ALIVE_IN_SILENT (R282). ALIVE_IN without an edge for 20 µs is judged silent. -/
  | aliveInSilent
  /-- ALIVE_IN_EDGE (R282). An ALIVE_IN edge marks the partner alive. -/
  | aliveInEdge
  /-- OWN_IN_CHANGE (R301). A change of OWN_IN is judged by the takeover decision. -/
  | ownInChange (level : Bool)
  /-- SWARM (R301). An eligible standby takes over when the partner is silent and not owning. -/
  | swarm
  /-- TIE_RELEASE (R285). A B module seeing OWN_IN for 2 µs while owning becomes standby. -/
  | tieRelease
  /-- POS_CONFLICT (R285). An A module still seeing OWN_IN 10 µs after asserting becomes unpaired. -/
  | posConflict
  /-- START_ALONE (R285). A B module that waited 10 s without OWN_IN asserts and becomes active. -/
  | startAlone
  /-- LINK_UP (R287). The Haldod link comes up and a rejoin begins. -/
  | linkUp
  /-- LINK_DOWN (R287). The Haldod link goes down for its first cause and PAIR_LINK_DOWN is posted. -/
  | linkDown (d : LinkDownIn)
  /-- WAGGLE_TIMEOUT (R287). No valid WAGGLE for 8 µs takes the link down. -/
  | waggleTimeout
  /-- WAGGLE_SEND (R292). Each module sends a WAGGLE every 2 µs. -/
  | waggleSend
  /-- WAGGLE (R292). A received WAGGLE refreshes the partner's status. -/
  | waggle (w : WaggleIn)
  /-- HALDOD_HELLO (R288). A HELLO at link-up is checked and the link key derived. -/
  | haldodHello (nonce : List Byte) (tag : List Byte) (id : List Byte)
  /-- MIRROR (R298). The standby judges a complete MIRROR transaction and stages it with ACK or sends NAK. -/
  | mirror (m : Mirrored)
  /-- ACK (R298). On an ACK within the timer the active executes the transaction. -/
  | ack (x : TseqIn) (tAck : Nat) (tMake : Nat)
  /-- NAK (R298). On a NAK the active completes the command with PAIR_NO_ACK. -/
  | nak (x : TseqIn) (cause : Nat)
  /-- PAIR_NO_ACK (R298). A transaction without ACK within 3 µs completes with PAIR_NO_ACK and is voided. -/
  | pairNoAck
  /-- VOID (R299). A VOID removes a staged transaction or sets DIVERGED on the standby. -/
  | voidTxn (x : TseqIn)
  /-- STAGED_EFFECT (R299). SESSION, KEY, SLOT and RESYNC transactions take effect 10 µs after the ACK. -/
  | stagedEffect
  /-- DIGEST_SEND (R293). The active sends waiting digest samples at least every 10 µs. -/
  | digestSend
  /-- DIGEST (R293). The standby matches received digest samples against its records. -/
  | digestIn (d : DigestIn)
  /-- DIGEST_MISS (R293). A sample without a match within 1 ms counts as a miss. -/
  | digestMiss
  /-- POSITIONS (R303). A POSITIONS mark trims the standby's shadow queues. -/
  | positions (p : PositionsIn)
  /-- PERIODIC_MIRROR_SEND (R297). Every 100 µs the active sends POSITIONS, TIME and LEDGER_HEAD. -/
  | periodicMirrorSend
  /-- HEALTH_REQ (R306). At each 100 ms interval the standby checks itself and returns a HEALTH report. -/
  | healthReq (h : HealthReqIn)
  /-- HEALTH (R306). The active receives the standby's verdict and raises a pair fault on FAIL. -/
  | health (h : HealthIn) (rest : List Byte)
  /-- ENROL_OFFER (R294). A received offer forms and seals the pair key. -/
  | enrolOffer (key : List Byte) (sig : List Byte) (variantOk : Bool)
  /-- ENROL_TIMEOUT (R294). PAIR_ENROL without a valid offer in 10 s completes with LINK_DOWN. -/
  | enrolTimeout
  /-- STALE (R301). A standby whose link has been down for 1 ms becomes STALE. -/
  | stale
  /-- RESUME_WIN_EXPIRY (R305). Shadows still unbound when RESUME_WIN ends are closed. -/
  | resumeWinExpiry
  /-- TX_PAT (R289). Enabling a PRBS generator takes the Haldod link down. -/
  | txPat (n : Nat) (v : Word)
  /-- CLR (R343). A CLR write sets a performance counter to 0 and clears SAT. -/
  | clr (addr : Nat)
  /-- COUNTER_LOW_READ (R346). A read of a counter's low word latches its upper word for the view. -/
  | counterLowRead (view : Nat) (addr : Nat)
  /-- REGISTER_WRITE (R367). A write to a register with no row of its own stores its value per its access code. -/
  | registerWrite (addr : Nat) (v : WrIn)
  /-- SPINE_TICK (R149). At every spine tick each time domain advances by INC plus its adjustment share, and on strobes every DAC converts the code of its highest-ranked source. -/
  | spineTick
  /-- COMPILE_COMPLETION (R237). A running compile ends, writes its slot in one step or completes with SLOT_BUSY, and writes its report. -/
  | compileCompletion
  /-- WARM_RESET_COMPLETE (R362). The security core restarts Gwynique after a warm reset, which writes the close entries and then accepts sessions. -/
  | warmResetComplete
  /-- SOURCE_LOST (R155). Loss of a domain's time source moves a LOCKED domain to HOLDOVER. -/
  | sourceLost (d : Dom)
  /-- BUS_MASTER_ENABLE (R210). A change of a function's Bus Master Enable stops or resumes all fetches and writes for its sessions. -/
  | busMasterEnable (fn : Nat) (on : BusMaster)
  /-- VF_ENABLE (R372). Setting VF Enable or raising NumVFs makes VF views exist and VF grants apply again. -/
  | vfEnable (numVfs : Nat)
  /-- PERST_N_RELEASE (R354). Release of PERST_N starts PCIe link training, with retry status until Gwynique runs. -/
  | perstNRelease
  /-- CHECKER_LOCK (R289). A Haldod PRBS checker locks after 64 error-free bits and then counts bit errors. -/
  | checkerLock (c : CheckIn)
  /-- RC_READ (R367). A read of an RC field returns its value and sets it to 0 for the reading view. -/
  | rcRead (view : Nat) (addr : RdIn)
  deriving DecidableEq, Repr

end Sys2Proof
end

