-- ==== Sys2Proof/Config.lean ====
section
/-! DEFINITION. What an implementation fixes and what the spec leaves open: opaque constants with no body. A claim
about the model holds whatever they are. -/

namespace Sys2Proof.Config

/-- A fresh open value for each count of `State.free`: the random session number of R207, the crossing choice of R24,
nonces, and every value the spec leaves open after an event that goes on. -/
opaque free : Nat → Nat

/-- Byte `n` of the 16-byte module serial number in OTP (R376, MOD_SERIALn). -/
opaque serialByte : Nat → Byte

/-- The keys that a module is made with (R265): byte `n` of the device identity public key in its 97-byte form, the identity private
key, byte `n` of the Karioten verification key in boot ROM, of the image key in OTP, and of the OTP secret from which the sealing key is
derived at each start. -/
opaque idKeyByte : Nat → Byte
opaque idPrivate : Nat
opaque kariotenByte : Nat → Byte
opaque imageKeyByte : Nat → Byte
opaque otpSecretByte : Nat → Byte

/-- Length and bytes of the identity certificate chain (R265). -/
opaque chainLen : Nat
opaque chainByte : Nat → Byte

/-- Byte `i` of the ECDSA P-384 signature numbered `n` under a private key (R222, R267, R276, R102): its value depends on the text and
on a random number of its own, which the spec does not give. -/
opaque sigByte : Nat → Nat → Nat → Byte

/-- Byte `i` of the ECDH shared secret of key agreement number `n` (R222, R294). -/
opaque ecdhByte : Nat → Nat → Byte

/-- Byte `i` of the device's ephemeral public key or nonce number `n` (R222, R288, R294). -/
opaque nonceByte : Nat → Nat → Byte

/-- Byte `i` of the SHA-384 measurement of the boot ROM (R267, L0). -/
opaque romDigestByte : Nat → Byte

/-- The anti-rollback count burnt in OTP for image class `c` as the module is made (R357). -/
opaque otpRollback : Nat → Nat

/-- Karioten's PCI vendor ID and subsystem vendor ID, which the spec names and does not give (R203). -/
opaque vendorId : BitVec 16
opaque subsystemVendorId : BitVec 16

/-- Link Status of the PCI Express capability: the speed and width that training found, which the link partner decides (R202). -/
opaque pcieLink : BitVec 16

/-- Where the ledger ring lies in package DRAM (R273, R336). -/
opaque ledgerBase : Nat

/-- Byte `i` of the factory record (R86), which Karioten signs and which never changes. Its layout is read in
Machine/Fabric.lean; L3 measures it (R267). -/
opaque frByte : Nat → Byte

/-- Baseline microcode in boot ROM (R145): word `a` of the microword store and of the nanoword store, and its version. -/
opaque baselineMicro : Nat → BitVec 128
opaque baselineNano : Nat → BitVec 128

/-- The power in 0.1 dB steps referred to dBm, as PILOT_PWR codes it, that an average voltage of a pilot monitor in microvolts
stands for: the spec gives the monitors no conversion (R39, R61, R62). -/
opaque pilotDb : Nat → Nat

/-- A result the spec does not state for given operands, numbered by the place that asks for it. -/
opaque unstated : Nat → Int → Int

end Sys2Proof.Config
end

