-- ==== Sys2Proof/Machine/Bytes.lean ====
section
/-! DEFINITION. Byte strings: little-endian reads and writes, and the cryptographic functions the spec computes and
names by their public standards: SHA-384, HMAC and HKDF over it, SipHash-2-4 (R173) and CRC-32C (R175). -/

namespace Sys2Proof.Machine

/-- The low byte of a number. -/
def byteOf (n : Nat) : Byte := BitVec.ofNat 8 n

/-- The `k` little-endian bytes of `n`. -/
def le : Nat → Nat → List Byte
  | 0, _ => []
  | k + 1, n => byteOf n :: le k (n / 256)

/-- The number a little-endian byte string spells. -/
def ofLE : List Byte → Nat
  | [] => 0
  | b :: bs => b.toNat + 256 * ofLE bs

/-- The number a big-endian byte string spells. -/
def ofBE (bs : List Byte) : Nat := ofLE bs.reverse

/-- The `k` big-endian bytes of `n`. -/
def be (k n : Nat) : List Byte := (le k n).reverse

/-- The little-endian field of `k` bytes at offset `o`; bytes past the end read as 0. -/
def rdLE (bs : List Byte) (o k : Nat) : Nat := ofLE ((bs.drop o).take k)

/-- `bs` cut or padded with zeros to `k` bytes. -/
def fit (k : Nat) (bs : List Byte) : List Byte := (bs ++ List.replicate (k - bs.length) 0).take k

/-- The signed value of the low `w` bits of `n`. -/
def signed (w n : Nat) : Int := if n % 2 ^ w < 2 ^ (w - 1) then (n % 2 ^ w : Nat) else (n % 2 ^ w : Nat) - (2 ^ w : Nat)

/-- The low `w` bits of an integer, two's complement. -/
def wrap (w : Nat) (z : Int) : Nat := (z % (2 ^ w : Nat)).toNat

/-- `z` held within `lo` to `hi`. -/
def clampInt (lo hi z : Int) : Int := max lo (min hi z)

/-- Nearest integer to `a / b` for b > 0, halves away from zero (R106). -/
def roundDiv (a : Int) (b : Nat) : Int :=
  if 0 ≤ a then (2 * a + b) / (2 * b : Nat) else -((2 * (-a) + b) / (2 * b : Nat))

def b2i (b : Bool) : Nat := if b then 1 else 0

/-- `n` held at or below `hi`: a saturating count. -/
def satTo (hi n : Nat) : Nat := min hi n

/-- The bytes of a table of bytes indexed by position. -/
def tableBytes (n : Nat) (f : Nat → Byte) : List Byte := (List.range n).map f

abbrev W64 := BitVec 64

def rotl64 (n : Nat) (x : W64) : W64 := x.rotateLeft n

/-- The round constants of SHA-384, four of 64 bits in each number, the first in its highest bits. -/
def shaTable0 : List Nat := [
  0x428a2f98d728ae227137449123ef65cdb5c0fbcfec4d3b2fe9b5dba58189dbbc,
  0x3956c25bf348b53859f111f1b605d019923f82a4af194f9bab1c5ed5da6d8118,
  0xd807aa98a303024212835b0145706fbe243185be4ee4b28c550c7dc3d5ffb4e2,
  0x72be5d74f27b896f80deb1fe3b1696b19bdc06a725c71235c19bf174cf692694,
  0xe49b69c19ef14ad2efbe4786384f25e30fc19dc68b8cd5b5240ca1cc77ac9c65,
  0x2de92c6f592b02754a7484aa6ea6e4835cb0a9dcbd41fbd476f988da831153b5,
  0x983e5152ee66dfaba831c66d2db43210b00327c898fb213fbf597fc7beef0ee4,
  0xc6e00bf33da88fc2d5a79147930aa72506ca6351e003826f142929670a0e6e70,
  0x27b70a8546d22ffc2e1b21385c26c9264d2c6dfc5ac42aed53380d139d95b3df,
  0x650a73548baf63de766a0abb3c77b2a881c2c92e47edaee692722c851482353b]
def shaTable1 : List Nat := [
  0xa2bfe8a14cf10364a81a664bbc423001c24b8b70d0f89791c76c51a30654be30,
  0xd192e819d6ef5218d69906245565a910f40e35855771202a106aa07032bbd1b8,
  0x19a4c116b8d2d0c81e376c085141ab532748774cdf8eeb9934b0bcb5e19b48a8,
  0x391c0cb3c5c95a634ed8aa4ae3418acb5b9cca4f7763e373682e6ff3d6b2b8a3,
  0x748f82ee5defb2fc78a5636f43172f6084c87814a1f0ab728cc702081a6439ec,
  0x90befffa23631e28a4506cebde82bde9bef9a3f7b2c67915c67178f2e372532b,
  0xca273eceea26619cd186b8c721c0c207eada7dd6cde0eb1ef57d4f7fee6ed178,
  0x06f067aa72176fba0a637dc5a2c898a6113f9804bef90dae1b710b35131c471b,
  0x28db77f523047d8432caab7b40c724933c9ebe0a15c9bebc431d67c49c100d4c,
  0x4cc5d4becb3e42b6597f299cfc657e2a5fcb6fab3ad6faec6c44198c4a475817]

/-- The initial hash value of SHA-384, in the same form. -/
def shaInit : List Nat := [
  0xcbbb9d5dc1059ed8629a292a367cd5079159015a3070dd17152fecd8f70e5939,
  0x67332667ffc00b318eb44a8768581511db0c2e0d64f98fa747b5481dbefa4fa4]

/-- The 64-bit words of a table, in order. -/
def unpack64 (t : List Nat) : List W64 := t.flatMap fun n => [192, 128, 64, 0].map fun k => BitVec.ofNat 64 (n / 2 ^ k)

/-- The exclusive or of a word turned right by each of three counts; for the last, shifted where `cut`. -/
def shaMix (p q r : Nat) (cut : Bool) (x : W64) : W64 :=
  x.rotateRight p ^^^ x.rotateRight q ^^^ (if cut then x >>> r else x.rotateRight r)

/-- The message schedule, newest word first, grown by `n` words. -/
def shaGrow : Nat → List W64 → List W64
  | 0, l => l
  | n + 1, l => shaGrow n ((l.getD 15 0 + l.getD 6 0 + shaMix 1 8 7 true (l.getD 14 0) + shaMix 19 61 6 true (l.getD 1 0)) :: l)

/-- A round with schedule word plus constant `z` on the eight working words. -/
def shaTurn (z : W64) : List W64 → List W64
  | [p, q, r, s, t, u, v, w] =>
    let x := w + z + (v ^^^ (t &&& (u ^^^ v))) + shaMix 14 18 41 false t
    [x + shaMix 28 34 39 false p + ((p &&& q) ||| (r &&& (p ||| q))), p, q, r, s + x, t, u, v]
  | l => l

/-- The hash value `h` after one 128-byte block. -/
def shaStep (h : List W64) (blk : List Byte) : List W64 :=
  let first := (List.range 16).map fun i => BitVec.ofNat 64 (ofBE ((blk.drop (8 * i)).take 8))
  let zs := List.zipWith (· + ·) (unpack64 (shaTable0 ++ shaTable1)) (shaGrow 64 first.reverse).reverse
  List.zipWith (· + ·) h (zs.foldl (fun l z => shaTurn z l) h)

/-- The blocks of a padded message. -/
def shaBlocks (m : List Byte) : List (List Byte) :=
  let pad := m ++ (0x80 : Byte) :: (List.replicate ((239 - m.length % 128) % 128) 0 ++ be 16 (8 * m.length))
  (List.range (pad.length / 128)).map fun i => (pad.drop (128 * i)).take 128

/-- SHA-384: 48 bytes. -/
def sha384 (m : List Byte) : List Byte :=
  let h := (shaBlocks m).foldl shaStep (unpack64 shaInit)
  ((List.range 6).map fun i => be 8 (h.getD i 0).toNat).flatten

/-- HMAC-SHA-384. -/
def hmac384 (key m : List Byte) : List Byte :=
  let k := fit 128 (if 128 < key.length then sha384 key else key)
  sha384 (k.map (· ^^^ 0x5c) ++ sha384 (k.map (· ^^^ 0x36) ++ m))

/-- HKDF-SHA-384 to 32 bytes (R222, R235, R288, R294). -/
def hkdf32 (ikm salt info : List Byte) : List Byte :=
  (hmac384 (hmac384 (if salt.isEmpty then List.replicate 48 0 else salt) ikm) (info ++ [1])).take 32

/-- The bytes of an ASCII name. -/
def ascii (s : String) : List Byte := s.toList.map fun c => byteOf c.toNat

/-- The four working words of SipHash. -/
structure Sip where
  v0 : W64
  v1 : W64
  v2 : W64
  v3 : W64
  deriving DecidableEq, Repr

/-- One SipRound. -/
def sipRound (s : Sip) : Sip :=
  let v0 := s.v0 + s.v1
  let v1 := rotl64 13 s.v1 ^^^ v0
  let v0 := rotl64 32 v0
  let v2 := s.v2 + s.v3
  let v3 := rotl64 16 s.v3 ^^^ v2
  let v0 := v0 + v3
  let v3 := rotl64 21 v3 ^^^ v0
  let v2 := v2 + v1
  let v1 := rotl64 17 v1 ^^^ v2
  let v2 := rotl64 32 v2
  ⟨v0, v1, v2, v3⟩

/-- One message word, two rounds. -/
def sipWord (s : Sip) (m : W64) : Sip :=
  let s := sipRound (sipRound { s with v3 := s.v3 ^^^ m })
  { s with v0 := s.v0 ^^^ m }

/-- SipHash-2-4 of a byte string under a 16-byte key (R173). -/
def sipHash24 (key m : List Byte) : W64 :=
  let k0 := BitVec.ofNat 64 (rdLE key 0 8)
  let k1 := BitVec.ofNat 64 (rdLE key 8 8)
  let s : Sip := ⟨k0 ^^^ 0x736f6d6570736575, k1 ^^^ 0x646f72616e646f6d, k0 ^^^ 0x6c7967656e657261, k1 ^^^ 0x7465646279746573⟩
  let n := m.length
  let s := (List.range (n / 8)).foldl (fun s i => sipWord s (BitVec.ofNat 64 (rdLE m (8 * i) 8))) s
  let s := sipWord s (BitVec.ofNat 64 (rdLE m (8 * (n / 8)) 8 + (n % 256) * 2 ^ 56))
  let s := { s with v2 := s.v2 ^^^ 0xff }
  let s := sipRound (sipRound (sipRound (sipRound s)))
  s.v0 ^^^ s.v1 ^^^ s.v2 ^^^ s.v3

/-- One bit of the reflected CRC-32C. -/
def crcBit (c : Word) : Word := if c.getLsbD 0 then (c >>> 1) ^^^ 0x82f63b78 else c >>> 1

/-- One byte of the reflected CRC-32C. -/
def crcByte (c : Word) (b : Byte) : Word :=
  let c := c ^^^ b.zeroExtend 32
  crcBit (crcBit (crcBit (crcBit (crcBit (crcBit (crcBit (crcBit c)))))))

/-- CRC-32C (Castagnoli): reflected, initial value and final inversion all ones. -/
def crc32c (m : List Byte) : Word := ~~~(m.foldl crcByte 0xffffffff)

end Sys2Proof.Machine
end

