-- ==== Sys2Proof/Machine/SMap.lean ====
section
/-! DEFINITION. Sparse tables in one canonical form: keys strictly rising, and no entry equal to what an
unlisted key reads as. Register words, lanes, combs, ports, sessions and queues are held this way, so that
equal contents are equal data. -/

namespace Sys2Proof.Machine

/-- A sparse table keyed by a number. -/
abbrev SMap (α : Type) := List (Nat × α)

/-- The entry of key `k`, or `d`, what an unlisted key reads as. -/
def SMap.find {α : Type} (d : α) : SMap α → Nat → α
  | [], _ => d
  | (a, x) :: m, k => if k = a then x else if k < a then d else SMap.find d m k

/-- The table without the entry of key `k`. -/
def SMap.erase {α : Type} : SMap α → Nat → SMap α
  | [], _ => []
  | (a, x) :: m, k => if k = a then m else if k < a then (a, x) :: m else (a, x) :: SMap.erase m k

/-- The table with key `k` holding `v`, whatever `v` is. -/
def SMap.insert {α : Type} : SMap α → Nat → α → SMap α
  | [], k, v => [(k, v)]
  | (a, x) :: m, k, v =>
    if k = a then (k, v) :: m else if k < a then (k, v) :: (a, x) :: m else (a, x) :: SMap.insert m k v

/-- A write that keeps the canonical form: writing what an unlisted key reads as removes the entry. -/
def SMap.put {α : Type} [DecidableEq α] (d : α) (m : SMap α) (k : Nat) (v : α) : SMap α :=
  if v = d then SMap.erase m k else SMap.insert m k v

/-- The keys of `m` rise strictly from above `lo`, and no entry of key `k` equals `d k`. -/
def SMap.wfFrom {α : Type} [DecidableEq α] (d : Nat → α) : Option Nat → SMap α → Bool
  | _, [] => true
  | lo, (a, x) :: m =>
    (match lo with | none => true | some b => decide (b < a)) && decide (x ≠ d a) && SMap.wfFrom d (some a) m

/-- The canonical form, for a table whose unlisted key `k` reads as `d k`. -/
def SMap.wf {α : Type} [DecidableEq α] (d : Nat → α) (m : SMap α) : Bool := SMap.wfFrom d none m

/-- The table with every entry whose key satisfies `p` removed: those keys read as unlisted again. -/
def SMap.drop {α : Type} (p : Nat → Bool) (m : SMap α) : SMap α := m.filter fun e => !p e.1

/-- An entry put before the entries of higher keys, unless it equals what an unlisted key reads as. -/
def SMap.cons {α : Type} [DecidableEq α] (d : α) (k : Nat) (v : α) (m : SMap α) : SMap α := if v = d then m else (k, v) :: m

/-- The table with `f` applied to the entries of the `n` keys from `a` on, unlisted ones included. -/
def SMap.mapFrom {α : Type} [DecidableEq α] (d : α) (f : Nat → α → α) : Nat → Nat → SMap α → SMap α
  | 0, _, m => m
  | n + 1, a, [] => SMap.cons d a (f a d) (SMap.mapFrom d f n (a + 1) [])
  | n + 1, a, (b, x) :: m =>
    if b = a then SMap.cons d a (f a x) (SMap.mapFrom d f n (a + 1) m)
    else SMap.cons d a (f a d) (SMap.mapFrom d f n (a + 1) ((b, x) :: m))

/-- The table with `f` applied to the entries of the `n` keys from `a` on, those below `a` kept. -/
def SMap.mapRange {α : Type} [DecidableEq α] (d : α) (f : Nat → α → α) (n a : Nat) : SMap α → SMap α
  | [] => SMap.mapFrom d f n a []
  | (b, x) :: m => if b < a then (b, x) :: SMap.mapRange d f n a m else SMap.mapFrom d f n a ((b, x) :: m)

/-- The table of `g k (m k)` for the `n` keys from `a` on, in canonical form. -/
def SMap.image {α β : Type} [DecidableEq β] (d : α) (d' : β) (g : Nat → α → β) : Nat → Nat → SMap α → SMap β
  | 0, _, _ => []
  | n + 1, a, [] => SMap.cons d' a (g a d) (SMap.image d d' g n (a + 1) [])
  | n + 1, a, (b, x) :: m =>
    if b = a then SMap.cons d' a (g a x) (SMap.image d d' g n (a + 1) m)
    else SMap.cons d' a (g a d) (SMap.image d d' g n (a + 1) ((b, x) :: m))

end Sys2Proof.Machine
end

