-- ==== Sys2Proof/Machine/RegAccess.lean ====
section
/-! DEFINITION. Fields, access codes and block descriptors of the register map (spec/20_register_map.md R367, R368). -/

namespace Sys2Proof.Machine

/-- A field of a register: the byte offset of its word within the register, its lowest bit, its width. -/
structure Field where
  off : Nat
  lo : Nat
  width : Nat
  deriving DecidableEq, Repr

/-- The access codes of R367. RSV fields are those that no descriptor lists. -/
inductive Access where
  | ro | rw | w1c | w1s | wo | rc
  deriving DecidableEq, Repr

/-- One field of a register word: lowest bit, width, access code, reset value. -/
structure FieldDesc where
  lo : Nat
  width : Nat
  access : Access
  reset : Nat
  deriving DecidableEq, Repr

/-- The five optional units of R3. -/
inductive OptUnit where
  | stampU | exportU | dramU | pairU | mgmtU
  deriving DecidableEq, Repr

/-- Where the power of a register block comes from (R373, R374). -/
inductive DomKind where
  /-- the always-on domain -/
  | alwaysOn
  /-- switched domain `n` -/
  | fixed (n : Nat)
  /-- the comb group of the comb named by the block's first index -/
  | comb
  /-- the stamp receiver bank of the port named by the block's first index -/
  | srx
  /-- the common domain of the tile of the port named by the block's first index -/
  | tileCommon
  deriving DecidableEq, Repr

/-- A block of registers: base, two nested repetitions, unit, power, and its words by offset. -/
structure Block where
  base : Nat
  n1 : Nat
  s1 : Nat
  n2 : Nat
  s2 : Nat
  unit : Option OptUnit
  dom : DomKind
  words : List (Nat × List FieldDesc)
  deriving DecidableEq, Repr

/-- The word of a block at address `a`: first index, second index, fields. -/
def Block.wordAt (b : Block) (a : Nat) : Option (Nat × Nat × List FieldDesc) :=
  if a < b.base then none
  else
    let r := a - b.base
    let i := r / b.s1
    let r' := r % b.s1
    let j := r' / b.s2
    if b.n1 ≤ i ∨ b.n2 ≤ j then none
    else (b.words.find? (fun w => w.1 == r' % b.s2)).map (fun w => (i, j, w.2))

/-- `w` with the `width` bits from `lo` replaced by `v`. -/
def setBits (w : Word) (lo width : Nat) (v : Nat) : Word :=
  (w &&& ~~~(BitVec.ofNat 32 ((2 ^ width - 1) * 2 ^ lo))) ||| BitVec.ofNat 32 ((v % 2 ^ width) * 2 ^ lo)

/-- The `width` bits of `w` from `lo`. -/
def getBits (w : Word) (lo width : Nat) : Nat := (w.toNat / 2 ^ lo) % 2 ^ width

/-- A word whose fields stand at their reset values. -/
def resetOf (fs : List FieldDesc) : Word :=
  fs.foldl (fun w f => setBits w f.lo f.width f.reset) 0

/-- The effect of a register-bridge write of `v` on one field (R367). -/
def writeField (v : Word) (w : Word) (f : FieldDesc) : Word :=
  match f.access with
  | .rw | .wo => setBits w f.lo f.width (getBits v f.lo f.width)
  | .w1c => setBits w f.lo f.width (getBits (w &&& ~~~v) f.lo f.width)
  | .ro | .w1s | .rc => w

/-- The effect of a read on the RC fields of a word (R367). -/
def clearRC (w : Word) (f : FieldDesc) : Word :=
  match f.access with
  | .rc => setBits w f.lo f.width 0
  | _ => w

end Sys2Proof.Machine
end

