-- ==== Sys2Proof/Machine/RegMap.lean ====
section
/-! DEFINITION. The register map of PF0 BAR0 (spec/20_register_map.md R364 to R366, R375, R376), transcribed from
the field tables of every chapter: the address of each register (namespace `Adr`), the place of each field in its
register (namespace `Fl`), and the descriptor of each block (base, repetition, access codes, reset values, unit, domain). -/

namespace Sys2Proof.Machine

namespace Adr

/-- IN_PWR (02_switch_fabric.md). -/
def IN_PWR (i : Nat) : Nat := 0x2000a0 + 0x200 * i
/-- PILOT_CTL (02_switch_fabric.md). -/
def PILOT_CTL : Nat := 0x60000
/-- PILOT_STAT (02_switch_fabric.md). -/
def PILOT_STAT : Nat := 0x60004
/-- PILOT_PWR (02_switch_fabric.md). -/
def PILOT_PWR : Nat := 0x60008
/-- PILOT_REF (02_switch_fabric.md). -/
def PILOT_REF : Nat := 0x6000c
/-- DRV_CTL (03_drive_and_sense.md). -/
def DRV_CTL : Nat := 0x60100
/-- DRV_STAT (03_drive_and_sense.md). -/
def DRV_STAT : Nat := 0x60104
/-- DRV_CFG (03_drive_and_sense.md). -/
def DRV_CFG (i : Nat) : Nat := 0x400040 + 0x4000 * i
/-- DAC_OUT (03_drive_and_sense.md). -/
def DAC_OUT (i j : Nat) : Nat := 0x401000 + 0x4000 * i + 0x80 * j
/-- PARK_CODE (03_drive_and_sense.md). -/
def PARK_CODE (i j : Nat) : Nat := 0x401004 + 0x4000 * i + 0x80 * j
/-- SENSE_CFG (03_drive_and_sense.md). -/
def SENSE_CFG (i : Nat) : Nat := 0x400044 + 0x4000 * i
/-- SENSE_STAT (03_drive_and_sense.md). -/
def SENSE_STAT (i : Nat) : Nat := 0x400048 + 0x4000 * i
/-- SENSE_CNT (03_drive_and_sense.md). -/
def SENSE_CNT (i : Nat) : Nat := 0x40004c + 0x4000 * i
/-- SENSE_SEQ_A (03_drive_and_sense.md). -/
def SENSE_SEQ_A (i j : Nat) : Nat := 0x403000 + 0x4000 * i + 0x4 * j
/-- SENSE_SEQ_B (03_drive_and_sense.md). -/
def SENSE_SEQ_B (i j : Nat) : Nat := 0x403200 + 0x4000 * i + 0x4 * j
/-- SENSE_RES_A (03_drive_and_sense.md). -/
def SENSE_RES_A (i j : Nat) : Nat := 0x403400 + 0x4000 * i + 0x4 * j
/-- SENSE_RES_B (03_drive_and_sense.md). -/
def SENSE_RES_B (i j : Nat) : Nat := 0x403600 + 0x4000 * i + 0x4 * j
/-- HK_CTL (03_drive_and_sense.md). -/
def HK_CTL : Nat := 0x60200
/-- HK_STAT (03_drive_and_sense.md). -/
def HK_STAT : Nat := 0x60204
/-- HK_RES (03_drive_and_sense.md). -/
def HK_RES (i : Nat) : Nat := 0x60280 + 0x4 * i
/-- LOOP_CFG (04_holding_loops.md). -/
def LOOP_CFG (i : Nat) : Nat := 0x400080 + 0x4000 * i
/-- LOOP_STAT (04_holding_loops.md). -/
def LOOP_STAT (i : Nat) : Nat := 0x400084 + 0x4000 * i
/-- LOOP_OVR (04_holding_loops.md). -/
def LOOP_OVR (i : Nat) : Nat := 0x400088 + 0x4000 * i
/-- CS (04_holding_loops.md). -/
def CS (i j : Nat) : Nat := 0x400100 + 0x4000 * i + 0x20 * j
/-- LANE_CFG (04_holding_loops.md). -/
def LANE_CFG (i j : Nat) : Nat := 0x401008 + 0x4000 * i + 0x80 * j
/-- LANE_LIM (04_holding_loops.md). -/
def LANE_LIM (i j : Nat) : Nat := 0x40100c + 0x4000 * i + 0x80 * j
/-- LANE_SP (04_holding_loops.md). -/
def LANE_SP (i j : Nat) : Nat := 0x401010 + 0x4000 * i + 0x80 * j
/-- LANE_EST (04_holding_loops.md). -/
def LANE_EST (i j : Nat) : Nat := 0x401014 + 0x4000 * i + 0x80 * j
/-- LANE_INT (04_holding_loops.md). -/
def LANE_INT (i j : Nat) : Nat := 0x401018 + 0x4000 * i + 0x80 * j
/-- LANE_DF (04_holding_loops.md). -/
def LANE_DF (i j : Nat) : Nat := 0x40101c + 0x4000 * i + 0x80 * j
/-- LANE_STAT (04_holding_loops.md). -/
def LANE_STAT (i j : Nat) : Nat := 0x401020 + 0x4000 * i + 0x80 * j
/-- LANE_CNT (04_holding_loops.md). -/
def LANE_CNT (i j : Nat) : Nat := 0x401024 + 0x4000 * i + 0x80 * j
/-- LOOP_GCFG (04_holding_loops.md). -/
def LOOP_GCFG : Nat := 0x60300
/-- LOOP_GSTAT (04_holding_loops.md). -/
def LOOP_GSTAT : Nat := 0x60304
/-- CAL_OFS_BC (05_calibration.md). -/
def CAL_OFS_BC (i j : Nat) : Nat := 0x401028 + 0x4000 * i + 0x80 * j
/-- CAL_OFS_BC_ACT (05_calibration.md). -/
def CAL_OFS_BC_ACT (i j : Nat) : Nat := 0x401048 + 0x4000 * i + 0x80 * j
/-- CAL_OFS_Q (05_calibration.md). -/
def CAL_OFS_Q (i j : Nat) : Nat := 0x40102c + 0x4000 * i + 0x80 * j
/-- CAL_OFS_Q_ACT (05_calibration.md). -/
def CAL_OFS_Q_ACT (i j : Nat) : Nat := 0x40104c + 0x4000 * i + 0x80 * j
/-- CAL_TG_BC (05_calibration.md). -/
def CAL_TG_BC (i j : Nat) : Nat := 0x401030 + 0x4000 * i + 0x80 * j
/-- CAL_TG_BC_ACT (05_calibration.md). -/
def CAL_TG_BC_ACT (i j : Nat) : Nat := 0x401050 + 0x4000 * i + 0x80 * j
/-- CAL_TG_Q (05_calibration.md). -/
def CAL_TG_Q (i j : Nat) : Nat := 0x401034 + 0x4000 * i + 0x80 * j
/-- CAL_TG_Q_ACT (05_calibration.md). -/
def CAL_TG_Q_ACT (i j : Nat) : Nat := 0x401054 + 0x4000 * i + 0x80 * j
/-- CAL_BIAS (05_calibration.md). -/
def CAL_BIAS (i j : Nat) : Nat := 0x401038 + 0x4000 * i + 0x80 * j
/-- CAL_BIAS_ACT (05_calibration.md). -/
def CAL_BIAS_ACT (i j : Nat) : Nat := 0x401058 + 0x4000 * i + 0x80 * j
/-- CAL_FF (05_calibration.md). -/
def CAL_FF (i j : Nat) : Nat := 0x40103c + 0x4000 * i + 0x80 * j
/-- CAL_FF_ACT (05_calibration.md). -/
def CAL_FF_ACT (i j : Nat) : Nat := 0x40105c + 0x4000 * i + 0x80 * j
/-- CAL_RES (05_calibration.md). -/
def CAL_RES (i j : Nat) : Nat := 0x401040 + 0x4000 * i + 0x80 * j
/-- ADC_CAL (05_calibration.md). -/
def ADC_CAL (i j : Nat) : Nat := 0x4000c0 + 0x4000 * i + 0x4 * j
/-- ADC_CAL_ACT (05_calibration.md). -/
def ADC_CAL_ACT (i j : Nat) : Nat := 0x4000c8 + 0x4000 * i + 0x4 * j
/-- CAL_CSTAT (05_calibration.md). -/
def CAL_CSTAT (i : Nat) : Nat := 0x4000d0 + 0x4000 * i
/-- CAL_GSTAT (05_calibration.md). -/
def CAL_GSTAT : Nat := 0x60400
/-- FR_STAT (05_calibration.md). -/
def FR_STAT : Nat := 0x60404
/-- PLAN_CFG (06_reconfiguration.md). -/
def PLAN_CFG : Nat := 0x60500
/-- PLAN_STAT (06_reconfiguration.md). -/
def PLAN_STAT : Nat := 0x60504
/-- MOVE_LIM (06_reconfiguration.md). -/
def MOVE_LIM : Nat := 0x60508
/-- PLAN_LAST (06_reconfiguration.md). -/
def PLAN_LAST : Nat := 0x6050c
/-- SCHED_STAT (06_reconfiguration.md). -/
def SCHED_STAT : Nat := 0x60510
/-- SCHED_PASS (06_reconfiguration.md). -/
def SCHED_PASS : Nat := 0x60514
/-- OUT_STAT (06_reconfiguration.md). -/
def OUT_STAT (i : Nat) : Nat := 0x61000 + 0x4 * i
/-- MC_VERSION (07_comb_engine_microcode.md). -/
def MC_VERSION (i : Nat) : Nat := 0x400180 + 0x4000 * i
/-- MC_STAT (07_comb_engine_microcode.md). -/
def MC_STAT (i : Nat) : Nat := 0x400184 + 0x4000 * i
/-- MC_CHECK (07_comb_engine_microcode.md). -/
def MC_CHECK (i : Nat) : Nat := 0x400188 + 0x4000 * i
/-- MC_CHECK_T (07_comb_engine_microcode.md). -/
def MC_CHECK_T (i : Nat) : Nat := 0x40018c + 0x4000 * i
/-- MC_CNT (07_comb_engine_microcode.md). -/
def MC_CNT (i : Nat) : Nat := 0x400190 + 0x4000 * i
/-- MC_GSTAT (07_comb_engine_microcode.md). -/
def MC_GSTAT : Nat := 0x60600
/-- TIME_CTL (08_time_unit.md). -/
def TIME_CTL : Nat := 0x70000
/-- TIME_RD (08_time_unit.md). -/
def TIME_RD : Nat := 0x70008
/-- TIME_SNAP_TICK (08_time_unit.md). -/
def TIME_SNAP_TICK : Nat := 0x70010
/-- TIME_DSW (08_time_unit.md). -/
def TIME_DSW : Nat := 0x70020
/-- TD (08_time_unit.md). -/
def TD (i : Nat) : Nat := 0x70100 + 0x40 * i
/-- TOD (08_time_unit.md). -/
def TOD (i : Nat) : Nat := 0x70200 + 0x10 * i
/-- CMP (08_time_unit.md). -/
def CMP (i : Nat) : Nat := 0x71000 + 0x20 * i
/-- CAP (08_time_unit.md). -/
def CAP (i : Nat) : Nat := 0x72000 + 0x20 * i
/-- SRX_CFG (09_arrival_stamping.md). -/
def SRX_CFG (i : Nat) : Nat := 0x200000 + 0x200 * i
/-- SRX_STAT (09_arrival_stamping.md). -/
def SRX_STAT (i : Nat) : Nat := 0x200004 + 0x200 * i
/-- SRX_SEQ (09_arrival_stamping.md). -/
def SRX_SEQ (i : Nat) : Nat := 0x200008 + 0x200 * i
/-- SRX_EPOCH (09_arrival_stamping.md). -/
def SRX_EPOCH (i : Nat) : Nat := 0x20000c + 0x200 * i
/-- SRX_UNM (09_arrival_stamping.md). -/
def SRX_UNM (i : Nat) : Nat := 0x200010 + 0x200 * i
/-- SRX_DROP (09_arrival_stamping.md). -/
def SRX_DROP (i : Nat) : Nat := 0x200014 + 0x200 * i
/-- SRX_ERR (09_arrival_stamping.md). -/
def SRX_ERR (i : Nat) : Nat := 0x200018 + 0x200 * i
/-- SRX_PDLY (09_arrival_stamping.md). -/
def SRX_PDLY (i : Nat) : Nat := 0x20001c + 0x200 * i
/-- SRX_PTC (09_arrival_stamping.md). -/
def SRX_PTC (i : Nat) : Nat := 0x200020 + 0x200 * i
/-- SRX_RULE (09_arrival_stamping.md). -/
def SRX_RULE (i j : Nat) : Nat := 0x200100 + 0x200 * i + 0x10 * j
/-- AGG_DROP (09_arrival_stamping.md). -/
def AGG_DROP : Nat := 0x80000
/-- BR_DROP (09_arrival_stamping.md). -/
def BR_DROP (i : Nat) : Nat := 0x80010 + 0x4 * i
/-- POL (10_record_policing_and_export.md). -/
def POL (i : Nat) : Nat := 0x200040 + 0x200 * i
/-- EXP (10_record_policing_and_export.md). -/
def EXP : Nat := 0x80100
/-- QW (10_record_policing_and_export.md). -/
def QW (i : Nat) : Nat := 0x90000 + 0x40 * i
/-- GWQ_VER (11_host_sessions_mailboxes.md). -/
def GWQ_VER : Nat := 0xe0004
/-- SESS_GSTAT (11_host_sessions_mailboxes.md). -/
def SESS_GSTAT : Nat := 0xe0000
/-- SESS (11_host_sessions_mailboxes.md). -/
def SESS (i : Nat) : Nat := 0xd0000 + 0x10 * i
/-- OPEN_CTL (11_host_sessions_mailboxes.md). -/
def OPEN_CTL : Nat := 0xe0140
/-- CSP_STAT (13_circuit_status_port.md). -/
def CSP_STAT : Nat := 0x60700
/-- SEC_STAT (14_secrecy_and_ledger.md). -/
def SEC_STAT : Nat := 0x60800
/-- ID_DIGEST (14_secrecy_and_ledger.md). -/
def ID_DIGEST (i : Nat) : Nat := 0x60810 + 0x4 * i
/-- LEDGER_STAT (14_secrecy_and_ledger.md). -/
def LEDGER_STAT : Nat := 0x60840
/-- PAIR_CFG (15_redundant_pair.md). -/
def PAIR_CFG : Nat := 0xf0000
/-- PAIR_STAT (15_redundant_pair.md). -/
def PAIR_STAT : Nat := 0xf0004
/-- PAIR_WIRE (15_redundant_pair.md). -/
def PAIR_WIRE : Nat := 0xf0008
/-- PAIR_TXN (15_redundant_pair.md). -/
def PAIR_TXN : Nat := 0xf0010
/-- HLD_LANE (15_redundant_pair.md). -/
def HLD_LANE (i : Nat) : Nat := 0xf0100 + 0x20 * i
/-- FLT_GSTAT (16_faults_and_thermal.md). -/
def FLT_GSTAT : Nat := 0x100000
/-- FLT_REL (16_faults_and_thermal.md). -/
def FLT_REL : Nat := 0x100004
/-- FLT_INJ (16_faults_and_thermal.md). -/
def FLT_INJ : Nat := 0x100008
/-- FLT_SRC (16_faults_and_thermal.md). -/
def FLT_SRC (i : Nat) : Nat := 0x101000 + 0x20 * i
/-- THERM_CFG (16_faults_and_thermal.md). -/
def THERM_CFG : Nat := 0x110000
/-- THERM_STAT (16_faults_and_thermal.md). -/
def THERM_STAT : Nat := 0x110004
/-- THERM_MAX (16_faults_and_thermal.md). -/
def THERM_MAX : Nat := 0x110008
/-- THERM_CNT (16_faults_and_thermal.md). -/
def THERM_CNT : Nat := 0x11000c
/-- THERM_T (16_faults_and_thermal.md). -/
def THERM_T (i : Nat) : Nat := 0x110100 + 0x4 * i
/-- SAFE_CFG (17_laser_safety.md). -/
def SAFE_CFG : Nat := 0x60900
/-- SAFE_STAT (17_laser_safety.md). -/
def SAFE_STAT : Nat := 0x60904
/-- SAFE_CNT (17_laser_safety.md). -/
def SAFE_CNT : Nat := 0x60908
/-- BUS_REMAP (18_interconnect_and_counters.md). -/
def BUS_REMAP : Nat := 0x120000
/-- BUS_QOS (18_interconnect_and_counters.md). -/
def BUS_QOS : Nat := 0x120004
/-- BUS_AGE (18_interconnect_and_counters.md). -/
def BUS_AGE : Nat := 0x120008
/-- BUS_ERR (18_interconnect_and_counters.md). -/
def BUS_ERR : Nat := 0x120010
/-- PERF_TICK (18_interconnect_and_counters.md). -/
def PERF_TICK : Nat := 0x121000
/-- PERF_CTL (18_interconnect_and_counters.md). -/
def PERF_CTL : Nat := 0x121008
/-- PERF_HC (18_interconnect_and_counters.md). -/
def PERF_HC (i : Nat) : Nat := 0x121100 + 0x10 * i
/-- STEP (18_interconnect_and_counters.md). -/
def STEP (i : Nat) : Nat := 0x4001a0 + 0x4000 * i
/-- PC (18_interconnect_and_counters.md). -/
def PC (i j : Nat) : Nat := 0x4001b0 + 0x4000 * i + 0x8 * j
/-- BOOT_STAT (19_power_boot_reset.md). -/
def BOOT_STAT : Nat := 0x60a00
/-- PWR_STAT (19_power_boot_reset.md). -/
def PWR_STAT : Nat := 0x60a04
/-- BOOT_TIME (19_power_boot_reset.md). -/
def BOOT_TIME : Nat := 0x60a08
/-- IMG_STAT (19_power_boot_reset.md). -/
def IMG_STAT (i : Nat) : Nat := 0x60a10 + 0x8 * i
/-- DEV_ID (20_register_map.md). -/
def DEV_ID : Nat := 0x0
/-- CAP_UNITS (20_register_map.md). -/
def CAP_UNITS : Nat := 0x4
/-- CAP_SIZE (20_register_map.md). -/
def CAP_SIZE : Nat := 0x8
/-- CAP_MEM (20_register_map.md). -/
def CAP_MEM : Nat := 0xc
/-- CAP_DOMAINS (20_register_map.md). -/
def CAP_DOMAINS : Nat := 0x10
/-- MOD_SERIAL (20_register_map.md). -/
def MOD_SERIAL (i : Nat) : Nat := 0x20 + 0x4 * i
/-- SCRATCH (20_register_map.md). -/
def SCRATCH : Nat := 0x30
/-- OPEN_DESC (11_host_sessions_mailboxes.md). -/
def OPEN_DESC (i : Nat) : Nat := 0xe0100 + 0x4 * i
/-- OPEN_CPL (11_host_sessions_mailboxes.md). -/
def OPEN_CPL (i : Nat) : Nat := 0xe0160 + 0x4 * i

end Adr

namespace Fl

def IN_PWR_PWR : Field := ⟨0x0, 0, 8⟩
def IN_PWR_OVER : Field := ⟨0x0, 8, 1⟩
def IN_PWR_WIN : Field := ⟨0x0, 16, 16⟩
def PILOT_CTL_MODE : Field := ⟨0x0, 0, 2⟩
def PILOT_CTL_SWITCH : Field := ⟨0x0, 2, 1⟩
def PILOT_CTL_RECAPTURE : Field := ⟨0x0, 3, 1⟩
def PILOT_STAT_SEL : Field := ⟨0x0, 0, 1⟩
def PILOT_STAT_A_OK : Field := ⟨0x0, 1, 1⟩
def PILOT_STAT_B_OK : Field := ⟨0x0, 2, 1⟩
def PILOT_STAT_SWITCHING : Field := ⟨0x0, 3, 1⟩
def PILOT_STAT_NO_PILOT : Field := ⟨0x0, 4, 1⟩
def PILOT_STAT_FALLBACK : Field := ⟨0x0, 8, 1⟩
def PILOT_STAT_SEL_REFUSED : Field := ⟨0x0, 9, 1⟩
def PILOT_STAT_SW_COUNT : Field := ⟨0x0, 16, 16⟩
def PILOT_PWR_PWR_A : Field := ⟨0x0, 0, 16⟩
def PILOT_PWR_PWR_B : Field := ⟨0x0, 16, 16⟩
def PILOT_REF_REF_A : Field := ⟨0x0, 0, 16⟩
def PILOT_REF_REF_B : Field := ⟨0x0, 16, 16⟩
def DRV_CTL_EN : Field := ⟨0x0, 0, 1⟩
def DRV_STAT_EN_DONE : Field := ⟨0x0, 0, 1⟩
def DRV_STAT_DRV_PG : Field := ⟨0x0, 1, 1⟩
def DRV_STAT_CLR_LOW : Field := ⟨0x0, 2, 1⟩
def DRV_STAT_CLR_SEEN : Field := ⟨0x0, 3, 1⟩
def DRV_STAT_CLR_COUNT : Field := ⟨0x0, 16, 16⟩
def DRV_CFG_GAIN : Field := ⟨0x0, 0, 1⟩
def DRV_CFG_GAIN_ACT : Field := ⟨0x0, 1, 1⟩
def DAC_OUT_CODE : Field := ⟨0x0, 0, 14⟩
def DAC_OUT_SRC : Field := ⟨0x0, 16, 3⟩
def PARK_CODE_STAGED : Field := ⟨0x0, 0, 14⟩
def PARK_CODE_ACTIVE : Field := ⟨0x0, 16, 14⟩
def SENSE_CFG_REF_SEL : Field := ⟨0x0, 0, 2⟩
def SENSE_CFG_SEQ_LEN_A : Field := ⟨0x0, 8, 7⟩
def SENSE_CFG_SEQ_LEN_B : Field := ⟨0x0, 16, 7⟩
def SENSE_STAT_REF_SETTLED : Field := ⟨0x0, 0, 1⟩
def SENSE_STAT_URG_BUSY_A : Field := ⟨0x0, 1, 1⟩
def SENSE_STAT_URG_BUSY_B : Field := ⟨0x0, 2, 1⟩
def SENSE_STAT_PSEQ : Field := ⟨0x0, 8, 8⟩
def SENSE_CNT_SEQ_TRUNC_A : Field := ⟨0x0, 0, 8⟩
def SENSE_CNT_SEQ_TRUNC_B : Field := ⟨0x0, 8, 8⟩
def SENSE_CNT_URG_DROP_A : Field := ⟨0x0, 16, 8⟩
def SENSE_CNT_URG_DROP_B : Field := ⟨0x0, 24, 8⟩
def SENSE_SEQ_INPUT : Field := ⟨0x0, 0, 7⟩
def SENSE_SEQ_GAIN : Field := ⟨0x0, 8, 2⟩
def SENSE_RES_RESULT : Field := ⟨0x0, 0, 14⟩
def SENSE_RES_VALID : Field := ⟨0x0, 14, 1⟩
def SENSE_RES_URGENT : Field := ⟨0x0, 15, 1⟩
def SENSE_RES_REF_UNSET : Field := ⟨0x0, 16, 1⟩
def SENSE_RES_CLIP : Field := ⟨0x0, 17, 1⟩
def SENSE_RES_GAIN : Field := ⟨0x0, 18, 2⟩
def SENSE_RES_PSEQ : Field := ⟨0x0, 24, 8⟩
def HK_CTL_LP : Field := ⟨0x0, 0, 1⟩
def HK_CTL_REF_SEL : Field := ⟨0x0, 1, 2⟩
def HK_STAT_REF_SETTLED : Field := ⟨0x0, 0, 1⟩
def HK_STAT_LP_ACT : Field := ⟨0x0, 1, 1⟩
def HK_STAT_SCAN : Field := ⟨0x0, 16, 16⟩
def HK_RES_VALUE : Field := ⟨0x0, 0, 12⟩
def HK_RES_VALID : Field := ⟨0x0, 12, 1⟩
def HK_RES_REF_UNSET : Field := ⟨0x0, 13, 1⟩
def HK_RES_SCAN : Field := ⟨0x0, 16, 16⟩
def LOOP_CFG_PERIOD : Field := ⟨0x0, 0, 9⟩
def LOOP_CFG_OVR_LIMIT : Field := ⟨0x0, 16, 8⟩
def LOOP_STAT_START : Field := ⟨0x0, 0, 6⟩
def LOOP_STAT_LAST_COUNT : Field := ⟨0x0, 8, 7⟩
def LOOP_STAT_ALIGNING : Field := ⟨0x0, 15, 1⟩
def LOOP_STAT_PERIOD_ACT : Field := ⟨0x0, 16, 9⟩
def LOOP_OVR_OVERRUN : Field := ⟨0x0, 0, 16⟩
def CS_KP : Field := ⟨0x0, 0, 32⟩
def CS_KI : Field := ⟨0x4, 0, 32⟩
def CS_KD : Field := ⟨0x8, 0, 32⟩
def CS_ALPHA : Field := ⟨0xc, 0, 16⟩
def CS_I_MIN : Field := ⟨0x10, 0, 32⟩
def CS_I_MAX : Field := ⟨0x14, 0, 32⟩
def CS_FE_LIM : Field := ⟨0x18, 0, 16⟩
def CS_FE_TIME : Field := ⟨0x1c, 0, 16⟩
def LANE_CFG_CSET : Field := ⟨0x0, 0, 2⟩
def LANE_LIM_CODE_MIN : Field := ⟨0x0, 0, 14⟩
def LANE_LIM_CODE_MAX : Field := ⟨0x0, 16, 14⟩
def LANE_SP_SP : Field := ⟨0x0, 0, 16⟩
def LANE_EST_PHI_EST : Field := ⟨0x0, 0, 16⟩
def LANE_EST_ERR : Field := ⟨0x0, 16, 16⟩
def LANE_INT_I : Field := ⟨0x0, 0, 32⟩
def LANE_DF_DF : Field := ⟨0x0, 0, 32⟩
def LANE_STAT_STATE : Field := ⟨0x0, 0, 4⟩
def LANE_STAT_PARK_CAUSE : Field := ⟨0x0, 4, 3⟩
def LANE_STAT_PRIMED : Field := ⟨0x0, 7, 1⟩
def LANE_STAT_DEGRADED : Field := ⟨0x0, 8, 1⟩
def LANE_STAT_SAT_HI : Field := ⟨0x0, 9, 1⟩
def LANE_STAT_SAT_LO : Field := ⟨0x0, 10, 1⟩
def LANE_STAT_HV : Field := ⟨0x0, 11, 1⟩
def LANE_STAT_FE_TRIP : Field := ⟨0x0, 12, 1⟩
def LANE_STAT_OVR_TRIP : Field := ⟨0x0, 13, 1⟩
def LANE_STAT_LOWSIG : Field := ⟨0x0, 14, 1⟩
def LANE_STAT_STALE : Field := ⟨0x0, 15, 1⟩
def LANE_STAT_FE_TIMER : Field := ⟨0x0, 16, 16⟩
def LANE_CNT_SKIP : Field := ⟨0x0, 0, 16⟩
def LANE_CNT_CONSEC : Field := ⟨0x0, 16, 8⟩
def LANE_CNT_FROZEN : Field := ⟨0x0, 24, 8⟩
def LOOP_GCFG_HOLD_LIMIT : Field := ⟨0x0, 0, 16⟩
def LOOP_GSTAT_NO_PILOT_HOLD : Field := ⟨0x0, 0, 1⟩
def LOOP_GSTAT_DEGRADED_ANY : Field := ⟨0x0, 1, 1⟩
def LOOP_GSTAT_DEGRADED_COUNT : Field := ⟨0x0, 16, 16⟩
def CAL_OFS_BC_OFS_B : Field := ⟨0x0, 0, 16⟩
def CAL_OFS_BC_OFS_C : Field := ⟨0x0, 16, 16⟩
def CAL_OFS_Q_OFS_Q : Field := ⟨0x0, 0, 16⟩
def CAL_OFS_Q_SKEW : Field := ⟨0x0, 16, 16⟩
def CAL_TG_BC_TG_B : Field := ⟨0x0, 0, 16⟩
def CAL_TG_BC_TG_C : Field := ⟨0x0, 16, 16⟩
def CAL_TG_Q_TG_Q : Field := ⟨0x0, 0, 16⟩
def CAL_TG_Q_KQ : Field := ⟨0x0, 16, 16⟩
def CAL_BIAS_BIAS : Field := ⟨0x0, 0, 14⟩
def CAL_BIAS_VALID : Field := ⟨0x0, 15, 1⟩
def CAL_BIAS_VPI : Field := ⟨0x0, 16, 14⟩
def CAL_FF_FF_SLOPE : Field := ⟨0x0, 0, 32⟩
def CAL_RES_PROC : Field := ⟨0x0, 0, 3⟩
def CAL_RES_OUTCOME : Field := ⟨0x0, 3, 3⟩
def CAL_RES_ONE_SIDED : Field := ⟨0x0, 6, 1⟩
def CAL_RES_REJECTED : Field := ⟨0x0, 7, 1⟩
def CAL_RES_LIMIT : Field := ⟨0x0, 8, 4⟩
def ADC_CAL_OFS : Field := ⟨0x0, 0, 12⟩
def ADC_CAL_GAIN : Field := ⟨0x0, 16, 16⟩
def CAL_CSTAT_RUNNING : Field := ⟨0x0, 0, 3⟩
def CAL_CSTAT_REF_CHANGED : Field := ⟨0x0, 3, 1⟩
def CAL_CSTAT_SADC_OUT : Field := ⟨0x0, 4, 2⟩
def CAL_CSTAT_POINTS : Field := ⟨0x0, 16, 16⟩
def CAL_GSTAT_APPLY_PEND : Field := ⟨0x0, 0, 1⟩
def CAL_GSTAT_PROC_ANY : Field := ⟨0x0, 1, 1⟩
def CAL_GSTAT_APPLY_COUNT : Field := ⟨0x0, 16, 16⟩
def FR_STAT_PRESENT : Field := ⟨0x0, 0, 1⟩
def FR_STAT_VALID : Field := ⟨0x0, 1, 1⟩
def FR_STAT_SIG_FAIL : Field := ⟨0x0, 2, 1⟩
def FR_STAT_ID_MISMATCH : Field := ⟨0x0, 3, 1⟩
def FR_STAT_FORMAT : Field := ⟨0x0, 16, 16⟩
def PLAN_CFG_LEAD : Field := ⟨0x0, 0, 16⟩
def PLAN_CFG_NO_COLLATERAL : Field := ⟨0x0, 16, 1⟩
def PLAN_CFG_CSP_GO_EN : Field := ⟨0x0, 17, 1⟩
def PLAN_STAT_GENERATION : Field := ⟨0x0, 0, 16⟩
def PLAN_STAT_PENDING : Field := ⟨0x0, 16, 5⟩
def PLAN_STAT_ARMED : Field := ⟨0x0, 21, 1⟩
def PLAN_STAT_GO_OK : Field := ⟨0x0, 22, 1⟩
def PLAN_STAT_ARMED_ID : Field := ⟨0x0, 24, 8⟩
def MOVE_LIM_V_MAX : Field := ⟨0x0, 0, 8⟩
def MOVE_LIM_A_MAX : Field := ⟨0x0, 8, 8⟩
def MOVE_LIM_J_MAX : Field := ⟨0x0, 16, 16⟩
def PLAN_LAST_DMAX : Field := ⟨0x0, 0, 16⟩
def PLAN_LAST_DUR : Field := ⟨0x0, 16, 16⟩
def SCHED_STAT_STATE : Field := ⟨0x0, 0, 2⟩
def SCHED_STAT_LATE : Field := ⟨0x0, 2, 1⟩
def SCHED_STAT_ENTRY : Field := ⟨0x0, 4, 10⟩
def SCHED_STAT_SKIPS : Field := ⟨0x0, 16, 16⟩
def SCHED_PASS_PASS : Field := ⟨0x0, 0, 32⟩
def OUT_STAT_INPUT : Field := ⟨0x0, 0, 9⟩
def OUT_STAT_STATE : Field := ⟨0x0, 9, 3⟩
def OUT_STAT_GEN : Field := ⟨0x0, 16, 16⟩
def MC_VERSION_PATCH : Field := ⟨0x0, 0, 8⟩
def MC_VERSION_BASE : Field := ⟨0x0, 16, 16⟩
def MC_STAT_STATE : Field := ⟨0x0, 0, 3⟩
def MC_STAT_THR1 : Field := ⟨0x0, 3, 1⟩
def MC_STAT_THR2 : Field := ⟨0x0, 4, 1⟩
def MC_STAT_RESTARTS : Field := ⟨0x0, 8, 8⟩
def MC_STAT_UPC : Field := ⟨0x0, 16, 12⟩
def MC_CHECK_UPC : Field := ⟨0x0, 0, 12⟩
def MC_CHECK_NANO : Field := ⟨0x0, 12, 9⟩
def MC_CHECK_KIND : Field := ⟨0x0, 21, 3⟩
def MC_CHECK_BYTE : Field := ⟨0x0, 24, 4⟩
def MC_CHECK_MULTI : Field := ⟨0x0, 28, 1⟩
def MC_CHECK_DOMAIN : Field := ⟨0x0, 29, 1⟩
def MC_CHECK_VALID : Field := ⟨0x0, 31, 1⟩
def MC_CHECK_T_NS32 : Field := ⟨0x0, 0, 32⟩
def MC_CNT_ABANDONS : Field := ⟨0x0, 0, 16⟩
def MC_CNT_DROPS : Field := ⟨0x0, 16, 16⟩
def MC_GSTAT_PATCH_FAIL : Field := ⟨0x0, 0, 1⟩
def MC_GSTAT_CAUSE : Field := ⟨0x0, 1, 3⟩
def MC_GSTAT_PATCH_ABSENT : Field := ⟨0x0, 4, 1⟩
def MC_GSTAT_LOAD_FAILS : Field := ⟨0x0, 16, 8⟩
def TIME_CTL_STAMP_DOM : Field := ⟨0x0, 0, 1⟩
def TIME_CTL_SW_REQ : Field := ⟨0x0, 1, 1⟩
def TIME_CTL_SW_PEND : Field := ⟨0x0, 2, 1⟩
def TIME_CTL_AUTO_SW : Field := ⟨0x0, 3, 1⟩
def TIME_CTL_SNAP : Field := ⟨0x0, 4, 1⟩
def TIME_CTL_SNAP_DONE : Field := ⟨0x0, 5, 1⟩
def TIME_CTL_SW_COUNT : Field := ⟨0x0, 16, 16⟩
def TIME_RD_NS32 : Field := ⟨0x0, 0, 32⟩
def TIME_RD_FRAC8 : Field := ⟨0x4, 0, 8⟩
def TIME_RD_DOM : Field := ⟨0x4, 8, 1⟩
def TIME_RD_TQ : Field := ⟨0x4, 9, 1⟩
def TIME_SNAP_TICK_TICK_LO : Field := ⟨0x0, 0, 32⟩
def TIME_SNAP_TICK_TICK_HI : Field := ⟨0x4, 0, 32⟩
def TIME_DSW_TICK_LO : Field := ⟨0x0, 0, 32⟩
def TIME_DSW_TICK_HI : Field := ⟨0x4, 0, 32⟩
def TIME_DSW_OFS : Field := ⟨0x8, 0, 32⟩
def TIME_DSW_TO : Field := ⟨0xc, 0, 1⟩
def TD_SNAP_NS : Field := ⟨0x0, 0, 30⟩
def TD_SNAP_SEC_LO : Field := ⟨0x4, 0, 32⟩
def TD_SNAP_SEC_HI : Field := ⟨0x8, 0, 16⟩
def TD_SNAP_FRAC16 : Field := ⟨0x8, 16, 16⟩
def TD_INC_LO : Field := ⟨0xc, 0, 32⟩
def TD_INC_HI : Field := ⟨0x10, 0, 8⟩
def TD_INC_CLAMP : Field := ⟨0x10, 8, 1⟩
def TD_ADJ_LO : Field := ⟨0x14, 0, 32⟩
def TD_ADJ_HI : Field := ⟨0x18, 0, 16⟩
def TD_ADJ_TICKS : Field := ⟨0x1c, 0, 32⟩
def TD_ADJ_LEFT : Field := ⟨0x20, 0, 32⟩
def TD_SET_NS : Field := ⟨0x24, 0, 30⟩
def TD_SET_SEC_LO : Field := ⟨0x28, 0, 32⟩
def TD_SET_SEC_HI : Field := ⟨0x2c, 0, 16⟩
def TD_SET_GO : Field := ⟨0x2c, 16, 1⟩
def TD_SET_REFUSED : Field := ⟨0x2c, 17, 1⟩
def TD_STATE : Field := ⟨0x30, 0, 2⟩
def TD_WD_EXP : Field := ⟨0x30, 2, 1⟩
def TD_HOLD_EXP : Field := ⟨0x30, 3, 1⟩
def TD_SET_COUNT : Field := ⟨0x30, 8, 8⟩
def TD_SRC : Field := ⟨0x30, 16, 3⟩
def TD_TQ_WD : Field := ⟨0x34, 0, 16⟩
def TD_HOLD_MAX : Field := ⟨0x34, 16, 16⟩
def TD_OFFSET : Field := ⟨0x38, 0, 32⟩
def TOD_BAD : Field := ⟨0x0, 0, 8⟩
def TOD_SEQ : Field := ⟨0x0, 8, 8⟩
def TOD_EXTRA : Field := ⟨0x0, 16, 8⟩
def TOD_LINE_OK : Field := ⟨0x0, 24, 1⟩
def TOD_DLY : Field := ⟨0x4, 0, 32⟩
def TOD_SEC_LO : Field := ⟨0x8, 0, 32⟩
def TOD_SEC_HI : Field := ⟨0xc, 0, 16⟩
def TOD_UTC : Field := ⟨0xc, 16, 8⟩
def TOD_LEAP : Field := ⟨0xc, 24, 2⟩
def CMP_EN : Field := ⟨0x0, 0, 1⟩
def CMP_MODE : Field := ⟨0x0, 1, 2⟩
def CMP_PERIODIC : Field := ⟨0x0, 3, 1⟩
def CMP_OUT : Field := ⟨0x0, 4, 2⟩
def CMP_EVENT : Field := ⟨0x0, 6, 1⟩
def CMP_LATE : Field := ⟨0x0, 7, 1⟩
def CMP_FIRED : Field := ⟨0x0, 8, 1⟩
def CMP_WIDTH : Field := ⟨0x0, 16, 16⟩
def CMP_TGT_NS : Field := ⟨0x4, 0, 30⟩
def CMP_TGT_LO : Field := ⟨0x8, 0, 32⟩
def CMP_TGT_HI : Field := ⟨0xc, 0, 32⟩
def CMP_PERIOD : Field := ⟨0x10, 0, 32⟩
def CAP_EDGE : Field := ⟨0x0, 0, 2⟩
def CAP_LEVEL : Field := ⟨0x0, 2, 3⟩
def CAP_OVF : Field := ⟨0x0, 8, 8⟩
def CAP_TICK_LO : Field := ⟨0x4, 0, 32⟩
def CAP_TICK_HI : Field := ⟨0x8, 0, 32⟩
def CAP_NS32_A : Field := ⟨0xc, 0, 32⟩
def CAP_NS32_B : Field := ⟨0x10, 0, 32⟩
def CAP_FRAC8_A : Field := ⟨0x14, 0, 8⟩
def CAP_FRAC8_B : Field := ⟨0x14, 8, 8⟩
def CAP_VALID : Field := ⟨0x14, 16, 1⟩
def SRX_CFG_EN : Field := ⟨0x0, 0, 1⟩
def SRX_CFG_RATE : Field := ⟨0x0, 1, 2⟩
def SRX_CFG_DIG_OFF : Field := ⟨0x0, 8, 8⟩
def SRX_CFG_DIG_LEN : Field := ⟨0x0, 16, 7⟩
def SRX_CFG_APPLY : Field := ⟨0x0, 31, 1⟩
def SRX_STAT_LOCK : Field := ⟨0x0, 0, 1⟩
def SRX_STAT_RATE_ACT : Field := ⟨0x0, 1, 1⟩
def SRX_STAT_ACQ : Field := ⟨0x0, 2, 1⟩
def SRX_STAT_APPLY_PEND : Field := ⟨0x0, 3, 1⟩
def SRX_STAT_KEY_SET : Field := ⟨0x0, 4, 1⟩
def SRX_STAT_FR_DEFAULT : Field := ⟨0x0, 5, 1⟩
def SRX_STAT_KEYSEQ : Field := ⟨0x0, 8, 8⟩
def SRX_STAT_LOCKSEQ : Field := ⟨0x0, 16, 16⟩
def SRX_SEQ_NEXT : Field := ⟨0x0, 0, 32⟩
def SRX_EPOCH_EPOCH : Field := ⟨0x0, 0, 32⟩
def SRX_UNM_UNMATCHED : Field := ⟨0x0, 0, 32⟩
def SRX_DROP_DROPPED : Field := ⟨0x0, 0, 32⟩
def SRX_ERR_BLK_ERR : Field := ⟨0x0, 0, 16⟩
def SRX_ERR_LOCK_LOSS : Field := ⟨0x0, 16, 16⟩
def SRX_PDLY_DELAY : Field := ⟨0x0, 0, 32⟩
def SRX_PTC_TC : Field := ⟨0x0, 0, 16⟩
def SRX_RULE_EN : Field := ⟨0x0, 0, 1⟩
def SRX_RULE_COLOUR : Field := ⟨0x0, 1, 1⟩
def SRX_RULE_OFF : Field := ⟨0x0, 8, 6⟩
def SRX_RULE_VALUE : Field := ⟨0x4, 0, 32⟩
def SRX_RULE_MASK : Field := ⟨0x8, 0, 32⟩
def SRX_RULE_LEN_MIN : Field := ⟨0xc, 0, 16⟩
def SRX_RULE_LEN_MAX : Field := ⟨0xc, 16, 16⟩
def AGG_DROP_COUNT : Field := ⟨0x0, 0, 32⟩
def BR_DROP_COUNT : Field := ⟨0x0, 0, 32⟩
def POL_METER : Field := ⟨0x0, 0, 2⟩
def POL_AWARE : Field := ⟨0x0, 2, 1⟩
def POL_APPLY_PEND : Field := ⟨0x0, 3, 1⟩
def POL_APPLY : Field := ⟨0x0, 31, 1⟩
def POL_CIR : Field := ⟨0x4, 0, 32⟩
def POL_PIR : Field := ⟨0x8, 0, 32⟩
def POL_CBS : Field := ⟨0xc, 0, 24⟩
def POL_EBS_PBS : Field := ⟨0x10, 0, 24⟩
def POL_SESSION : Field := ⟨0x14, 0, 12⟩
def POL_TEN_EN : Field := ⟨0x14, 12, 1⟩
def POL_OWNER : Field := ⟨0x14, 13, 1⟩
def EXP_OWNER_Q : Field := ⟨0x0, 0, 12⟩
def EXP_OWNER_Q_EN : Field := ⟨0x0, 12, 1⟩
def EXP_POOL_FREE : Field := ⟨0x4, 0, 16⟩
def EXP_OPEN_Q : Field := ⟨0x4, 16, 16⟩
def EXP_NODEST : Field := ⟨0x8, 0, 32⟩
def EXP_MAX_REC : Field := ⟨0xc, 0, 9⟩
def EXP_FLUSH : Field := ⟨0xc, 16, 16⟩
def QW_WEIGHT : Field := ⟨0x0, 0, 8⟩
def QW_SHARE : Field := ⟨0x0, 8, 14⟩
def QW_SH_EN : Field := ⟨0x0, 22, 1⟩
def QW_FC_EN : Field := ⟨0x0, 23, 1⟩
def QW_CHANNEL : Field := ⟨0x0, 24, 2⟩
def QW_OPEN : Field := ⟨0x0, 26, 1⟩
def QW_SH_RATE : Field := ⟨0x4, 0, 32⟩
def QW_SH_SIZE : Field := ⟨0x8, 0, 24⟩
def QW_FC_PERIOD : Field := ⟨0xc, 0, 16⟩
def QW_FC_BURST : Field := ⟨0xc, 16, 4⟩
def QW_FC_LATE : Field := ⟨0xc, 24, 8⟩
def QW_Q_DEPTH : Field := ⟨0x10, 0, 32⟩
def QW_Q_DELAY : Field := ⟨0x14, 0, 32⟩
def QW_Q_DROP : Field := ⟨0x18, 0, 32⟩
def QW_QPOS_LO : Field := ⟨0x20, 0, 32⟩
def QW_QPOS_HI : Field := ⟨0x24, 0, 32⟩
def GWQ_VER_MINOR : Field := ⟨0x0, 0, 16⟩
def GWQ_VER_MAJOR : Field := ⟨0x0, 16, 16⟩
def SESS_GSTAT_OPEN : Field := ⟨0x0, 0, 13⟩
def SESS_GSTAT_ETH_OPEN : Field := ⟨0x0, 16, 7⟩
def SESS_STATE : Field := ⟨0x0, 0, 3⟩
def SESS_ROLE : Field := ⟨0x0, 3, 2⟩
def SESS_CARRIER : Field := ⟨0x0, 5, 3⟩
def SESS_VF : Field := ⟨0x0, 8, 6⟩
def SESS_SLOT : Field := ⟨0x0, 14, 6⟩
def SESS_DB_ERR : Field := ⟨0x0, 20, 1⟩
def SESS_DMA_ERR : Field := ⟨0x0, 21, 1⟩
def SESS_CMD_HEAD : Field := ⟨0x4, 0, 32⟩
def SESS_EV_LOST : Field := ⟨0x8, 0, 32⟩
def SESS_OPEN_NS32 : Field := ⟨0xc, 0, 32⟩
def OPEN_CTL_GO : Field := ⟨0x0, 0, 1⟩
def OPEN_CTL_BUSY : Field := ⟨0x0, 1, 1⟩
def OPEN_CTL_DONE : Field := ⟨0x0, 2, 1⟩
def OPEN_CTL_GO_IGNORED : Field := ⟨0x0, 3, 1⟩
def VF_INFO_VF : Field := ⟨0x0, 0, 6⟩
def VF_INFO_ROLE_CEIL : Field := ⟨0x0, 6, 2⟩
def VF_INFO_SESSIONS : Field := ⟨0x0, 8, 7⟩
def SESS_VSTAT_STATE : Field := ⟨0x0, 0, 3⟩
def SESS_VSTAT_ROLE : Field := ⟨0x0, 3, 2⟩
def SESS_VSTAT_DB_ERR : Field := ⟨0x0, 5, 1⟩
def SESS_VSTAT_DMA_ERR : Field := ⟨0x0, 6, 1⟩
def SESS_VSTAT_EV_LOST : Field := ⟨0x4, 0, 32⟩
def OUT_VSTAT_INPUT : Field := ⟨0x0, 0, 9⟩
def OUT_VSTAT_STATE : Field := ⟨0x0, 9, 3⟩
def OUT_VSTAT_FOREIGN : Field := ⟨0x0, 12, 1⟩
def OUT_VSTAT_CHG : Field := ⟨0x0, 16, 16⟩
def CSP_STAT_EN : Field := ⟨0x0, 0, 1⟩
def CSP_STAT_CLK_SEEN : Field := ⟨0x0, 1, 1⟩
def CSP_STAT_GO_REFUSED : Field := ⟨0x0, 2, 1⟩
def CSP_STAT_STRIKES : Field := ⟨0x0, 16, 16⟩
def SEC_STAT_OWNER : Field := ⟨0x0, 0, 1⟩
def SEC_STAT_PAIR_KEY : Field := ⟨0x0, 1, 1⟩
def SEC_STAT_DEBUG_OFF : Field := ⟨0x0, 2, 1⟩
def SEC_STAT_CLR_DONE : Field := ⟨0x0, 3, 1⟩
def SEC_STAT_ENROL_COUNT : Field := ⟨0x0, 8, 7⟩
def SEC_STAT_KEYS : Field := ⟨0x0, 16, 10⟩
def ID_DIGEST_BYTES : Field := ⟨0x0, 0, 32⟩
def LEDGER_STAT_HEAD_LO : Field := ⟨0x0, 0, 32⟩
def LEDGER_STAT_HEAD_HI : Field := ⟨0x4, 0, 32⟩
def LEDGER_STAT_BACKLOG : Field := ⟨0x8, 0, 32⟩
def LEDGER_STAT_RES_FREE : Field := ⟨0xc, 0, 13⟩
def LEDGER_STAT_FULL : Field := ⟨0xc, 13, 1⟩
def LEDGER_STAT_REFUSED : Field := ⟨0xc, 16, 16⟩
def LEDGER_STAT_OVERFLOW : Field := ⟨0x10, 0, 32⟩
def LEDGER_STAT_CP_LO : Field := ⟨0x14, 0, 32⟩
def LEDGER_STAT_CP_HI : Field := ⟨0x18, 0, 32⟩
def LEDGER_STAT_SEAL_NS32 : Field := ⟨0x1c, 0, 32⟩
def PAIR_CFG_MATCH_WIN : Field := ⟨0x0, 0, 16⟩
def PAIR_CFG_RESUME_WIN : Field := ⟨0x0, 16, 8⟩
def PAIR_CFG_STALE_OK : Field := ⟨0x0, 24, 1⟩
def PAIR_STAT_ROLE : Field := ⟨0x0, 0, 2⟩
def PAIR_STAT_POS : Field := ⟨0x0, 2, 1⟩
def PAIR_STAT_LINK_UP : Field := ⟨0x0, 3, 1⟩
def PAIR_STAT_SOLO : Field := ⟨0x0, 4, 1⟩
def PAIR_STAT_KEY : Field := ⟨0x0, 5, 1⟩
def PAIR_STAT_HEALTH : Field := ⟨0x0, 6, 2⟩
def PAIR_STAT_P_HEALTH : Field := ⟨0x0, 8, 2⟩
def PAIR_STAT_SILENT_OWNING : Field := ⟨0x0, 10, 1⟩
def PAIR_STAT_POS_CONFLICT : Field := ⟨0x0, 11, 1⟩
def PAIR_STAT_OWN_LOST : Field := ⟨0x0, 12, 1⟩
def PAIR_STAT_DIVERGED : Field := ⟨0x0, 13, 1⟩
def PAIR_STAT_DOWN_CAUSE : Field := ⟨0x0, 16, 4⟩
def PAIR_STAT_TAKEOVERS : Field := ⟨0x0, 24, 8⟩
def PAIR_WIRE_ALIVE_IN : Field := ⟨0x0, 0, 1⟩
def PAIR_WIRE_ALIVE_OK : Field := ⟨0x0, 1, 1⟩
def PAIR_WIRE_OWN_IN : Field := ⟨0x0, 2, 1⟩
def PAIR_WIRE_OWN_OUT : Field := ⟨0x0, 3, 1⟩
def PAIR_WIRE_SEL_OUT : Field := ⟨0x0, 4, 1⟩
def PAIR_WIRE_ALIVE_RUN : Field := ⟨0x0, 5, 1⟩
def PAIR_WIRE_EDGE_AGE : Field := ⟨0x0, 16, 16⟩
def PAIR_TXN_TSEQ_LO : Field := ⟨0x0, 0, 32⟩
def PAIR_TXN_TSEQ_HI : Field := ⟨0x4, 0, 32⟩
def PAIR_TXN_NO_ACK : Field := ⟨0x8, 0, 16⟩
def PAIR_TXN_VOID : Field := ⟨0x8, 16, 16⟩
def PAIR_TXN_NAK : Field := ⟨0xc, 0, 16⟩
def PAIR_TXN_DISCARDED : Field := ⟨0xc, 16, 16⟩
def HLD_LANE_BLOCK_LOCK : Field := ⟨0x0, 0, 1⟩
def HLD_LANE_AM_LOCK : Field := ⟨0x0, 1, 1⟩
def HLD_LANE_SKEW : Field := ⟨0x0, 8, 8⟩
def HLD_LANE_BLK_ERR : Field := ⟨0x0, 16, 16⟩
def HLD_LANE_TX_PAT : Field := ⟨0x4, 0, 2⟩
def HLD_LANE_RX_PAT : Field := ⟨0x4, 2, 2⟩
def HLD_LANE_RX_LOCK : Field := ⟨0x4, 4, 1⟩
def HLD_LANE_PRBS_ERR : Field := ⟨0x8, 0, 32⟩
def HLD_LANE_PRE : Field := ⟨0xc, 0, 4⟩
def HLD_LANE_POST : Field := ⟨0xc, 8, 5⟩
def HLD_LANE_MAIN : Field := ⟨0xc, 16, 7⟩
def HLD_LANE_AUTH_ERR : Field := ⟨0x10, 0, 16⟩
def FLT_GSTAT_FATAL : Field := ⟨0x0, 0, 1⟩
def FLT_GSTAT_FIRST_VALID : Field := ⟨0x0, 1, 1⟩
def FLT_GSTAT_ALIVE_STOP : Field := ⟨0x0, 2, 1⟩
def FLT_GSTAT_FIRST : Field := ⟨0x0, 8, 8⟩
def FLT_GSTAT_CAPTURED : Field := ⟨0x0, 16, 9⟩
def FLT_REL_COMB : Field := ⟨0x0, 0, 8⟩
def FLT_REL_LANE : Field := ⟨0x0, 8, 6⟩
def FLT_REL_WHOLE : Field := ⟨0x0, 14, 1⟩
def FLT_REL_REL : Field := ⟨0x0, 15, 1⟩
def FLT_INJ_SOURCE : Field := ⟨0x0, 0, 8⟩
def FLT_INJ_SUB : Field := ⟨0x0, 8, 4⟩
def FLT_INJ_HOST_ONLY : Field := ⟨0x0, 12, 1⟩
def FLT_INJ_ARM : Field := ⟨0x0, 13, 1⟩
def FLT_INJ_ARMED : Field := ⟨0x0, 14, 1⟩
def FLT_SRC_VALID : Field := ⟨0x0, 0, 1⟩
def FLT_SRC_ACTIVE : Field := ⟨0x0, 1, 1⟩
def FLT_SRC_CLASS : Field := ⟨0x0, 2, 2⟩
def FLT_SRC_CLASS_SEL : Field := ⟨0x0, 4, 2⟩
def FLT_SRC_KIND : Field := ⟨0x0, 8, 4⟩
def FLT_SRC_ACCESS : Field := ⟨0x0, 12, 2⟩
def FLT_SRC_DOMAIN : Field := ⟨0x0, 15, 1⟩
def FLT_SRC_MASTER : Field := ⟨0x0, 16, 5⟩
def FLT_SRC_ADDR_LO : Field := ⟨0x4, 0, 32⟩
def FLT_SRC_ADDR_HI : Field := ⟨0x8, 0, 16⟩
def FLT_SRC_DETAIL : Field := ⟨0x8, 16, 16⟩
def FLT_SRC_NS32 : Field := ⟨0xc, 0, 32⟩
def FLT_SRC_FRAC8 : Field := ⟨0x10, 0, 8⟩
def FLT_SRC_COUNT : Field := ⟨0x14, 0, 32⟩
def THERM_CFG_WARN : Field := ⟨0x0, 0, 8⟩
def THERM_CFG_WARN_HYS : Field := ⟨0x0, 8, 4⟩
def THERM_CFG_THR : Field := ⟨0x0, 16, 8⟩
def THERM_CFG_THR_HYS : Field := ⟨0x0, 24, 4⟩
def THERM_CFG_THR2_OFS : Field := ⟨0x0, 28, 4⟩
def THERM_STAT_WARN : Field := ⟨0x0, 0, 1⟩
def THERM_STAT_LVL_T0 : Field := ⟨0x0, 1, 2⟩
def THERM_STAT_LVL_T1 : Field := ⟨0x0, 3, 2⟩
def THERM_STAT_LVL_T2 : Field := ⟨0x0, 5, 2⟩
def THERM_STAT_LVL_T3 : Field := ⟨0x0, 7, 2⟩
def THERM_STAT_SHUT_SEEN : Field := ⟨0x0, 9, 1⟩
def THERM_STAT_HOT : Field := ⟨0x0, 16, 7⟩
def THERM_MAX_TEMP : Field := ⟨0x0, 0, 16⟩
def THERM_CNT_ENTRIES : Field := ⟨0x0, 0, 16⟩
def THERM_CNT_SHUTDOWNS : Field := ⟨0x0, 16, 16⟩
def THERM_T_TEMP : Field := ⟨0x0, 0, 16⟩
def THERM_T_VALID : Field := ⟨0x0, 16, 1⟩
def SAFE_CFG_GUARD_EN : Field := ⟨0x0, 0, 4⟩
def SAFE_CFG_GUARD_SO_EN : Field := ⟨0x0, 4, 4⟩
def SAFE_CFG_SO_USE : Field := ⟨0x0, 8, 2⟩
def SAFE_STAT_STATE : Field := ⟨0x0, 0, 2⟩
def SAFE_STAT_CAUSE : Field := ⟨0x0, 2, 3⟩
def SAFE_STAT_ESTOP : Field := ⟨0x0, 5, 1⟩
def SAFE_STAT_GUARD : Field := ⟨0x0, 6, 4⟩
def SAFE_STAT_KFB : Field := ⟨0x0, 10, 2⟩
def SAFE_STAT_SO : Field := ⟨0x0, 12, 2⟩
def SAFE_STAT_PANEL_PARK : Field := ⟨0x0, 14, 4⟩
def SAFE_STAT_GUARD_EN_ACT : Field := ⟨0x0, 18, 4⟩
def SAFE_STAT_GUARD_SO_ACT : Field := ⟨0x0, 22, 4⟩
def SAFE_STAT_SO_USE_ACT : Field := ⟨0x0, 26, 2⟩
def SAFE_CNT_TRIPS : Field := ⟨0x0, 0, 8⟩
def SAFE_CNT_LOCKOUTS : Field := ⟨0x0, 8, 8⟩
def SAFE_CNT_RST_BAD : Field := ⟨0x0, 16, 8⟩
def SAFE_CNT_RST_OK : Field := ⟨0x0, 24, 8⟩
def BUS_REMAP_REMAP_BOOT : Field := ⟨0x0, 0, 1⟩
def BUS_QOS_CORES : Field := ⟨0x0, 0, 4⟩
def BUS_QOS_PCIE_DMA : Field := ⟨0x0, 4, 4⟩
def BUS_QOS_ETH : Field := ⟨0x0, 8, 4⟩
def BUS_QOS_HALDOD : Field := ⟨0x0, 12, 4⟩
def BUS_QOS_EXPORT : Field := ⟨0x0, 16, 4⟩
def BUS_QOS_TILES : Field := ⟨0x0, 20, 4⟩
def BUS_AGE_AGE_LIMIT : Field := ⟨0x0, 0, 8⟩
def BUS_ERR_MASTER : Field := ⟨0x0, 0, 5⟩
def BUS_ERR_WRITE : Field := ⟨0x0, 5, 1⟩
def BUS_ERR_VALID : Field := ⟨0x0, 6, 1⟩
def BUS_ERR_COUNT : Field := ⟨0x0, 16, 16⟩
def BUS_ERR_ADDR_LO : Field := ⟨0x4, 0, 32⟩
def BUS_ERR_ADDR_HI : Field := ⟨0x8, 0, 8⟩
def PERF_TICK_LO : Field := ⟨0x0, 0, 32⟩
def PERF_TICK_HI : Field := ⟨0x4, 0, 32⟩
def PERF_CTL_TICK_USER_EN : Field := ⟨0x0, 0, 1⟩
def PERF_HC_EVENT : Field := ⟨0x0, 0, 8⟩
def PERF_HC_EN : Field := ⟨0x0, 8, 1⟩
def PERF_HC_USER_EN : Field := ⟨0x0, 9, 1⟩
def PERF_HC_SAT : Field := ⟨0x0, 10, 1⟩
def PERF_HC_CLR : Field := ⟨0x0, 11, 1⟩
def PERF_HC_CLASS : Field := ⟨0x0, 12, 1⟩
def PERF_HC_VAL_LO : Field := ⟨0x4, 0, 32⟩
def PERF_HC_VAL_HI : Field := ⟨0x8, 0, 16⟩
def STEP_LO : Field := ⟨0x0, 0, 32⟩
def STEP_HI : Field := ⟨0x4, 0, 16⟩
def STEP_SAT : Field := ⟨0x4, 16, 1⟩
def STEP_CLR : Field := ⟨0x4, 17, 1⟩
def PC_EVENT : Field := ⟨0x0, 0, 5⟩
def PC_EN : Field := ⟨0x0, 5, 1⟩
def PC_USER_EN : Field := ⟨0x0, 6, 1⟩
def PC_SAT : Field := ⟨0x0, 7, 1⟩
def PC_CLR : Field := ⟨0x0, 8, 1⟩
def PC_CLASS : Field := ⟨0x0, 9, 1⟩
def PC_VAL : Field := ⟨0x4, 0, 32⟩
def BOOT_STAT_STAGE : Field := ⟨0x0, 0, 4⟩
def BOOT_STAT_MODE : Field := ⟨0x0, 4, 2⟩
def BOOT_STAT_READY : Field := ⟨0x0, 6, 1⟩
def BOOT_STAT_WAIT : Field := ⟨0x0, 8, 4⟩
def BOOT_STAT_CAUSE : Field := ⟨0x0, 12, 4⟩
def BOOT_STAT_G_BANK : Field := ⟨0x0, 16, 1⟩
def BOOT_STAT_M_BANK : Field := ⟨0x0, 17, 1⟩
def BOOT_STAT_OWNER_CLR : Field := ⟨0x0, 18, 1⟩
def PWR_STAT_PG : Field := ⟨0x0, 0, 32⟩
def BOOT_TIME_READY_MS : Field := ⟨0x0, 0, 16⟩
def BOOT_TIME_WARM : Field := ⟨0x0, 16, 16⟩
def IMG_STAT_LEVEL : Field := ⟨0x0, 0, 32⟩
def IMG_STAT_RB_COUNT : Field := ⟨0x4, 0, 7⟩
def IMG_STAT_BANK0_OK : Field := ⟨0x4, 7, 1⟩
def IMG_STAT_BANK1_OK : Field := ⟨0x4, 8, 1⟩
def DEV_ID_DEVICE : Field := ⟨0x0, 0, 16⟩
def DEV_ID_STEPPING : Field := ⟨0x0, 16, 8⟩
def DEV_ID_VARIANT : Field := ⟨0x0, 24, 4⟩
def CAP_UNITS_STAMP : Field := ⟨0x0, 0, 1⟩
def CAP_UNITS_EXPORT : Field := ⟨0x0, 1, 1⟩
def CAP_UNITS_DRAM : Field := ⟨0x0, 2, 1⟩
def CAP_UNITS_PAIR : Field := ⟨0x0, 3, 1⟩
def CAP_UNITS_MGMT : Field := ⟨0x0, 4, 1⟩
def CAP_SIZE_PORTS : Field := ⟨0x0, 0, 10⟩
def CAP_SIZE_COMBS : Field := ⟨0x0, 16, 8⟩
def CAP_SIZE_TILES : Field := ⟨0x0, 24, 3⟩
def CAP_MEM_SLOTS : Field := ⟨0x0, 0, 9⟩
def CAP_MEM_DRAM_GIB : Field := ⟨0x0, 16, 8⟩
def CAP_DOMAINS_DOMAINS : Field := ⟨0x0, 0, 32⟩
def MOD_SERIAL_BYTES : Field := ⟨0x0, 0, 32⟩
def SCRATCH_VALUE : Field := ⟨0x0, 0, 32⟩

end Fl

/-- Blocks of the hub space, part 1. -/
def hubBlocks1 : List Block := [
  -- PILOT_CTL
  ⟨0x60000, 1, 0x800000, 1, 0x800000, none, (.fixed 24), [(0x0, [⟨0, 2, .rw, 0x0⟩, ⟨2, 1, .w1s, 0x0⟩, ⟨3, 1, .w1s, 0x0⟩])]⟩,
  -- PILOT_STAT
  ⟨0x60004, 1, 0x800000, 1, 0x800000, none, (.fixed 24), [(0x0, [⟨0, 1, .ro, 0x0⟩, ⟨1, 1, .ro, 0x0⟩, ⟨2, 1, .ro, 0x0⟩, ⟨3, 1, .ro, 0x0⟩, ⟨4, 1, .ro, 0x1⟩, ⟨8, 1, .w1c, 0x0⟩, ⟨9, 1, .w1c, 0x0⟩, ⟨16, 16, .ro, 0x0⟩])]⟩,
  -- PILOT_PWR
  ⟨0x60008, 1, 0x800000, 1, 0x800000, none, (.fixed 24), [(0x0, [⟨0, 16, .ro, 0x8000⟩, ⟨16, 16, .ro, 0x8000⟩])]⟩,
  -- PILOT_REF
  ⟨0x6000c, 1, 0x800000, 1, 0x800000, none, (.fixed 24), [(0x0, [⟨0, 16, .rw, 0x82⟩, ⟨16, 16, .rw, 0x82⟩])]⟩,
  -- DRV_CTL
  ⟨0x60100, 1, 0x800000, 1, 0x800000, none, (.fixed 24), [(0x0, [⟨0, 1, .rw, 0x0⟩])]⟩,
  -- DRV_STAT
  ⟨0x60104, 1, 0x800000, 1, 0x800000, none, (.fixed 24), [(0x0, [⟨0, 1, .ro, 0x0⟩, ⟨1, 1, .ro, 0x0⟩, ⟨2, 1, .ro, 0x0⟩, ⟨3, 1, .w1c, 0x0⟩, ⟨16, 16, .ro, 0x0⟩])]⟩,
  -- HK_CTL
  ⟨0x60200, 1, 0x800000, 1, 0x800000, none, (.fixed 24), [(0x0, [⟨0, 1, .rw, 0x0⟩, ⟨1, 2, .rw, 0x0⟩])]⟩,
  -- HK_STAT
  ⟨0x60204, 1, 0x800000, 1, 0x800000, none, (.fixed 24), [(0x0, [⟨0, 1, .ro, 0x0⟩, ⟨1, 1, .ro, 0x0⟩, ⟨16, 16, .ro, 0x0⟩])]⟩,
  -- HK_RES
  ⟨0x60280, 32, 0x4, 1, 0x4, none, (.fixed 24), [(0x0, [⟨0, 12, .ro, 0x0⟩, ⟨12, 1, .ro, 0x0⟩, ⟨13, 1, .ro, 0x0⟩, ⟨16, 16, .ro, 0x0⟩])]⟩,
  -- LOOP_GCFG
  ⟨0x60300, 1, 0x800000, 1, 0x800000, none, (.fixed 24), [(0x0, [⟨0, 16, .rw, 0xbb8⟩])]⟩,
  -- LOOP_GSTAT
  ⟨0x60304, 1, 0x800000, 1, 0x800000, none, (.fixed 24), [(0x0, [⟨0, 1, .ro, 0x0⟩, ⟨1, 1, .ro, 0x0⟩, ⟨16, 16, .ro, 0x0⟩])]⟩,
  -- CAL_GSTAT
  ⟨0x60400, 1, 0x800000, 1, 0x800000, none, (.fixed 24), [(0x0, [⟨0, 1, .ro, 0x0⟩, ⟨1, 1, .ro, 0x0⟩, ⟨16, 16, .ro, 0x0⟩])]⟩,
  -- FR_STAT
  ⟨0x60404, 1, 0x800000, 1, 0x800000, none, (.fixed 24), [(0x0, [⟨0, 1, .ro, 0x0⟩, ⟨1, 1, .ro, 0x0⟩, ⟨2, 1, .ro, 0x0⟩, ⟨3, 1, .ro, 0x0⟩, ⟨16, 16, .ro, 0x0⟩])]⟩,
  -- PLAN_CFG
  ⟨0x60500, 1, 0x800000, 1, 0x800000, none, (.fixed 24), [(0x0, [⟨0, 16, .rw, 0xfa⟩, ⟨16, 1, .rw, 0x0⟩, ⟨17, 1, .rw, 0x0⟩])]⟩,
  -- PLAN_STAT
  ⟨0x60504, 1, 0x800000, 1, 0x800000, none, (.fixed 24), [(0x0, [⟨0, 16, .ro, 0x0⟩, ⟨16, 5, .ro, 0x0⟩, ⟨21, 1, .ro, 0x0⟩, ⟨22, 1, .ro, 0x0⟩, ⟨24, 8, .ro, 0x0⟩])]⟩,
  -- MOVE_LIM
  ⟨0x60508, 1, 0x800000, 1, 0x800000, none, (.fixed 24), [(0x0, [⟨0, 8, .rw, 0x8⟩, ⟨8, 8, .rw, 0x3c⟩, ⟨16, 16, .rw, 0x384⟩])]⟩,
  -- PLAN_LAST
  ⟨0x6050c, 1, 0x800000, 1, 0x800000, none, (.fixed 24), [(0x0, [⟨0, 16, .ro, 0x0⟩, ⟨16, 16, .ro, 0x0⟩])]⟩,
  -- SCHED_STAT
  ⟨0x60510, 1, 0x800000, 1, 0x800000, none, (.fixed 24), [(0x0, [⟨0, 2, .ro, 0x0⟩, ⟨2, 1, .w1c, 0x0⟩, ⟨4, 10, .ro, 0x0⟩, ⟨16, 16, .rc, 0x0⟩])]⟩,
  -- SCHED_PASS
  ⟨0x60514, 1, 0x800000, 1, 0x800000, none, (.fixed 24), [(0x0, [⟨0, 32, .ro, 0x0⟩])]⟩,
  -- OUT_STAT
  ⟨0x61000, 512, 0x4, 1, 0x4, none, (.fixed 24), [(0x0, [⟨0, 9, .ro, 0x0⟩, ⟨9, 3, .ro, 0x0⟩, ⟨16, 16, .ro, 0x0⟩])]⟩,
  -- MC_GSTAT
  ⟨0x60600, 1, 0x800000, 1, 0x800000, none, (.fixed 24), [(0x0, [⟨0, 1, .ro, 0x0⟩, ⟨1, 3, .ro, 0x0⟩, ⟨4, 1, .ro, 0x0⟩, ⟨16, 8, .ro, 0x0⟩])]⟩,
  -- TIME_CTL
  ⟨0x70000, 1, 0x800000, 1, 0x800000, none, .alwaysOn, [(0x0, [⟨0, 1, .ro, 0x0⟩, ⟨1, 1, .w1s, 0x0⟩, ⟨2, 1, .ro, 0x0⟩, ⟨3, 1, .rw, 0x0⟩, ⟨4, 1, .w1s, 0x0⟩, ⟨5, 1, .ro, 0x0⟩, ⟨16, 16, .ro, 0x0⟩])]⟩]

/-- Blocks of the hub space, part 2. -/
def hubBlocks2 : List Block := [
  -- TIME_RD
  ⟨0x70008, 1, 0x800000, 1, 0x800000, none, .alwaysOn, [(0x0, [⟨0, 32, .ro, 0x0⟩]), (0x4, [⟨0, 8, .ro, 0x0⟩, ⟨8, 1, .ro, 0x0⟩, ⟨9, 1, .ro, 0x0⟩])]⟩,
  -- TIME_SNAP_TICK
  ⟨0x70010, 1, 0x800000, 1, 0x800000, none, .alwaysOn, [(0x0, [⟨0, 32, .ro, 0x0⟩]), (0x4, [⟨0, 32, .ro, 0x0⟩])]⟩,
  -- TIME_DSW
  ⟨0x70020, 1, 0x800000, 1, 0x800000, none, .alwaysOn, [(0x0, [⟨0, 32, .ro, 0x0⟩]), (0x4, [⟨0, 32, .ro, 0x0⟩]), (0x8, [⟨0, 32, .ro, 0x0⟩]), (0xc, [⟨0, 1, .ro, 0x0⟩])]⟩,
  -- TD
  ⟨0x70100, 2, 0x40, 1, 0x40, none, .alwaysOn, [(0x0, [⟨0, 30, .ro, 0x0⟩]), (0x4, [⟨0, 32, .ro, 0x0⟩]), (0x8, [⟨0, 16, .ro, 0x0⟩, ⟨16, 16, .ro, 0x0⟩]), (0xc, [⟨0, 32, .rw, 0x9999999a⟩]), (0x10, [⟨0, 8, .rw, 0x1⟩, ⟨8, 1, .w1c, 0x0⟩]), (0x14, [⟨0, 32, .rw, 0x0⟩]), (0x18, [⟨0, 16, .rw, 0x0⟩]), (0x1c, [⟨0, 32, .rw, 0x0⟩]), (0x20, [⟨0, 32, .ro, 0x0⟩]), (0x24, [⟨0, 30, .rw, 0x0⟩]), (0x28, [⟨0, 32, .rw, 0x0⟩]), (0x2c, [⟨0, 16, .rw, 0x0⟩, ⟨16, 1, .w1s, 0x0⟩, ⟨17, 1, .w1c, 0x0⟩]), (0x30, [⟨0, 2, .rw, 0x0⟩, ⟨2, 1, .w1c, 0x0⟩, ⟨3, 1, .w1c, 0x0⟩, ⟨8, 8, .ro, 0x0⟩, ⟨16, 3, .rw, 0x0⟩]), (0x34, [⟨0, 16, .rw, 0xc8⟩, ⟨16, 16, .rw, 0x3c⟩]), (0x38, [⟨0, 32, .rw, 0x0⟩])]⟩,
  -- TOD
  ⟨0x70200, 2, 0x10, 1, 0x10, none, .alwaysOn, [(0x0, [⟨0, 8, .rc, 0x0⟩, ⟨8, 8, .rc, 0x0⟩, ⟨16, 8, .rc, 0x0⟩, ⟨24, 1, .ro, 0x0⟩]), (0x4, [⟨0, 32, .rw, 0x0⟩]), (0x8, [⟨0, 32, .ro, 0x0⟩]), (0xc, [⟨0, 16, .ro, 0x0⟩, ⟨16, 8, .ro, 0x0⟩, ⟨24, 2, .ro, 0x0⟩])]⟩,
  -- CMP
  ⟨0x71000, 32, 0x20, 1, 0x20, none, .alwaysOn, [(0x0, [⟨0, 1, .rw, 0x0⟩, ⟨1, 2, .rw, 0x0⟩, ⟨3, 1, .rw, 0x0⟩, ⟨4, 2, .rw, 0x0⟩, ⟨6, 1, .rw, 0x0⟩, ⟨7, 1, .w1c, 0x0⟩, ⟨8, 1, .w1c, 0x0⟩, ⟨16, 16, .rw, 0x0⟩]), (0x4, [⟨0, 30, .rw, 0x0⟩]), (0x8, [⟨0, 32, .rw, 0x0⟩]), (0xc, [⟨0, 32, .rw, 0x0⟩]), (0x10, [⟨0, 32, .rw, 0x0⟩])]⟩,
  -- CAP
  ⟨0x72000, 9, 0x20, 1, 0x20, none, .alwaysOn, [(0x0, [⟨0, 2, .rw, 0x0⟩, ⟨2, 3, .ro, 0x0⟩, ⟨8, 8, .rc, 0x0⟩]), (0x4, [⟨0, 32, .ro, 0x0⟩]), (0x8, [⟨0, 32, .ro, 0x0⟩]), (0xc, [⟨0, 32, .ro, 0x0⟩]), (0x10, [⟨0, 32, .ro, 0x0⟩]), (0x14, [⟨0, 8, .ro, 0x0⟩, ⟨8, 8, .ro, 0x0⟩, ⟨16, 1, .ro, 0x0⟩])]⟩,
  -- AGG_DROP
  ⟨0x80000, 1, 0x800000, 1, 0x800000, (some .stampU), (.fixed 30), [(0x0, [⟨0, 32, .rc, 0x0⟩])]⟩,
  -- BR_DROP
  ⟨0x80010, 4, 0x4, 1, 0x4, (some .stampU), (.fixed 30), [(0x0, [⟨0, 32, .rc, 0x0⟩])]⟩,
  -- EXP
  ⟨0x80100, 1, 0x800000, 1, 0x800000, (some .exportU), (.fixed 30), [(0x0, [⟨0, 12, .rw, 0x0⟩, ⟨12, 1, .rw, 0x0⟩]), (0x4, [⟨0, 16, .ro, 0x3000⟩, ⟨16, 16, .ro, 0x0⟩]), (0x8, [⟨0, 32, .rc, 0x0⟩]), (0xc, [⟨0, 9, .rw, 0x2b⟩, ⟨16, 16, .rw, 0x32⟩])]⟩,
  -- QW
  ⟨0x90000, 4096, 0x40, 1, 0x40, (some .exportU), (.fixed 30), [(0x0, [⟨0, 8, .rw, 0x1⟩, ⟨8, 14, .rw, 0x1⟩, ⟨22, 1, .rw, 0x0⟩, ⟨23, 1, .rw, 0x0⟩, ⟨24, 2, .ro, 0x0⟩, ⟨26, 1, .ro, 0x0⟩]), (0x4, [⟨0, 32, .rw, 0x0⟩]), (0x8, [⟨0, 24, .rw, 0x400⟩]), (0xc, [⟨0, 16, .rw, 0x0⟩, ⟨16, 4, .rw, 0x0⟩, ⟨24, 8, .rc, 0x0⟩]), (0x10, [⟨0, 32, .rc, 0x0⟩]), (0x14, [⟨0, 32, .rc, 0x0⟩]), (0x18, [⟨0, 32, .rc, 0x0⟩]), (0x20, [⟨0, 32, .ro, 0x0⟩]), (0x24, [⟨0, 32, .ro, 0x0⟩])]⟩,
  -- GWQ_VER
  ⟨0xe0004, 1, 0x800000, 1, 0x800000, none, (.fixed 24), [(0x0, [⟨0, 16, .ro, 0x2⟩, ⟨16, 16, .ro, 0x3⟩])]⟩,
  -- SESS_GSTAT
  ⟨0xe0000, 1, 0x800000, 1, 0x800000, none, (.fixed 24), [(0x0, [⟨0, 13, .ro, 0x0⟩, ⟨16, 7, .ro, 0x0⟩])]⟩,
  -- SESS
  ⟨0xd0000, 4096, 0x10, 1, 0x10, none, (.fixed 24), [(0x0, [⟨0, 3, .ro, 0x0⟩, ⟨3, 2, .ro, 0x0⟩, ⟨5, 3, .ro, 0x0⟩, ⟨8, 6, .ro, 0x0⟩, ⟨14, 6, .ro, 0x0⟩, ⟨20, 1, .w1c, 0x0⟩, ⟨21, 1, .ro, 0x0⟩]), (0x4, [⟨0, 32, .ro, 0x0⟩]), (0x8, [⟨0, 32, .rc, 0x0⟩]), (0xc, [⟨0, 32, .ro, 0x0⟩])]⟩,
  -- OPEN_CTL
  ⟨0xe0140, 1, 0x800000, 1, 0x800000, none, (.fixed 24), [(0x0, [⟨0, 1, .w1s, 0x0⟩, ⟨1, 1, .ro, 0x0⟩, ⟨2, 1, .w1c, 0x0⟩, ⟨3, 1, .w1c, 0x0⟩])]⟩,
  -- CSP_STAT
  ⟨0x60700, 1, 0x800000, 1, 0x800000, none, (.fixed 24), [(0x0, [⟨0, 1, .ro, 0x0⟩, ⟨1, 1, .ro, 0x0⟩, ⟨2, 1, .w1c, 0x0⟩, ⟨16, 16, .ro, 0x0⟩])]⟩,
  -- SEC_STAT
  ⟨0x60800, 1, 0x800000, 1, 0x800000, none, .alwaysOn, [(0x0, [⟨0, 1, .ro, 0x0⟩, ⟨1, 1, .ro, 0x0⟩, ⟨2, 1, .ro, 0x1⟩, ⟨3, 1, .w1c, 0x0⟩, ⟨8, 7, .ro, 0x0⟩, ⟨16, 10, .ro, 0x0⟩])]⟩,
  -- ID_DIGEST
  ⟨0x60810, 8, 0x4, 1, 0x4, none, .alwaysOn, [(0x0, [⟨0, 32, .ro, 0x0⟩])]⟩,
  -- LEDGER_STAT
  ⟨0x60840, 1, 0x800000, 1, 0x800000, none, (.fixed 24), [(0x0, [⟨0, 32, .ro, 0x0⟩]), (0x4, [⟨0, 32, .ro, 0x0⟩]), (0x8, [⟨0, 32, .ro, 0x0⟩]), (0xc, [⟨0, 13, .ro, 0x1000⟩, ⟨13, 1, .ro, 0x0⟩, ⟨16, 16, .rc, 0x0⟩]), (0x10, [⟨0, 32, .ro, 0x0⟩]), (0x14, [⟨0, 32, .ro, 0x0⟩]), (0x18, [⟨0, 32, .ro, 0x0⟩]), (0x1c, [⟨0, 32, .ro, 0x0⟩])]⟩,
  -- PAIR_CFG
  ⟨0xf0000, 1, 0x800000, 1, 0x800000, (some .pairU), (.fixed 28), [(0x0, [⟨0, 16, .rw, 0x3e8⟩, ⟨16, 8, .rw, 0xa⟩, ⟨24, 1, .rw, 0x0⟩])]⟩,
  -- PAIR_STAT
  ⟨0xf0004, 1, 0x800000, 1, 0x800000, (some .pairU), (.fixed 28), [(0x0, [⟨0, 2, .ro, 0x0⟩, ⟨2, 1, .ro, 0x0⟩, ⟨3, 1, .ro, 0x0⟩, ⟨4, 1, .ro, 0x0⟩, ⟨5, 1, .ro, 0x0⟩, ⟨6, 2, .ro, 0x0⟩, ⟨8, 2, .ro, 0x0⟩, ⟨10, 1, .ro, 0x0⟩, ⟨11, 1, .ro, 0x0⟩, ⟨12, 1, .w1c, 0x0⟩, ⟨13, 1, .ro, 0x0⟩, ⟨16, 4, .ro, 0x0⟩, ⟨24, 8, .ro, 0x0⟩])]⟩,
  -- PAIR_WIRE
  ⟨0xf0008, 1, 0x800000, 1, 0x800000, (some .pairU), (.fixed 28), [(0x0, [⟨0, 1, .ro, 0x0⟩, ⟨1, 1, .ro, 0x0⟩, ⟨2, 1, .ro, 0x0⟩, ⟨3, 1, .ro, 0x0⟩, ⟨4, 1, .ro, 0x0⟩, ⟨5, 1, .ro, 0x0⟩, ⟨16, 16, .ro, 0xffff⟩])]⟩]

/-- Blocks of the hub space, part 3. -/
def hubBlocks3 : List Block := [
  -- PAIR_TXN
  ⟨0xf0010, 1, 0x800000, 1, 0x800000, (some .pairU), (.fixed 28), [(0x0, [⟨0, 32, .ro, 0x0⟩]), (0x4, [⟨0, 32, .ro, 0x0⟩]), (0x8, [⟨0, 16, .rc, 0x0⟩, ⟨16, 16, .rc, 0x0⟩]), (0xc, [⟨0, 16, .rc, 0x0⟩, ⟨16, 16, .rc, 0x0⟩])]⟩,
  -- HLD_LANE
  ⟨0xf0100, 4, 0x20, 1, 0x20, (some .pairU), (.fixed 28), [(0x0, [⟨0, 1, .ro, 0x0⟩, ⟨1, 1, .ro, 0x0⟩, ⟨8, 8, .ro, 0x0⟩, ⟨16, 16, .rc, 0x0⟩]), (0x4, [⟨0, 2, .rw, 0x0⟩, ⟨2, 2, .rw, 0x0⟩, ⟨4, 1, .ro, 0x0⟩]), (0x8, [⟨0, 32, .rc, 0x0⟩]), (0xc, [⟨0, 4, .rw, 0x4⟩, ⟨8, 5, .rw, 0xc⟩, ⟨16, 7, .ro, 0x30⟩]), (0x10, [⟨0, 16, .rc, 0x0⟩])]⟩,
  -- FLT_GSTAT
  ⟨0x100000, 1, 0x800000, 1, 0x800000, none, .alwaysOn, [(0x0, [⟨0, 1, .ro, 0x0⟩, ⟨1, 1, .w1c, 0x0⟩, ⟨2, 1, .ro, 0x1⟩, ⟨8, 8, .ro, 0x0⟩, ⟨16, 9, .ro, 0x0⟩])]⟩,
  -- FLT_REL
  ⟨0x100004, 1, 0x800000, 1, 0x800000, none, .alwaysOn, [(0x0, [⟨0, 8, .rw, 0x0⟩, ⟨8, 6, .rw, 0x0⟩, ⟨14, 1, .rw, 0x0⟩, ⟨15, 1, .w1s, 0x0⟩])]⟩,
  -- FLT_INJ
  ⟨0x100008, 1, 0x800000, 1, 0x800000, none, .alwaysOn, [(0x0, [⟨0, 8, .rw, 0x0⟩, ⟨8, 4, .rw, 0x0⟩, ⟨12, 1, .rw, 0x0⟩, ⟨13, 1, .w1s, 0x0⟩, ⟨14, 1, .ro, 0x0⟩])]⟩,
  -- FLT_SRC
  ⟨0x101000, 256, 0x20, 1, 0x20, none, .alwaysOn, [(0x0, [⟨0, 1, .w1c, 0x0⟩, ⟨1, 1, .ro, 0x0⟩, ⟨2, 2, .ro, 0x0⟩, ⟨4, 2, .rw, 0x0⟩, ⟨8, 4, .ro, 0x0⟩, ⟨12, 2, .ro, 0x0⟩, ⟨15, 1, .ro, 0x0⟩, ⟨16, 5, .ro, 0x0⟩]), (0x4, [⟨0, 32, .ro, 0x0⟩]), (0x8, [⟨0, 16, .ro, 0x0⟩, ⟨16, 16, .ro, 0x0⟩]), (0xc, [⟨0, 32, .ro, 0x0⟩]), (0x10, [⟨0, 8, .ro, 0x0⟩]), (0x14, [⟨0, 32, .rc, 0x0⟩])]⟩,
  -- THERM_CFG
  ⟨0x110000, 1, 0x800000, 1, 0x800000, none, .alwaysOn, [(0x0, [⟨0, 8, .rw, 0x5f⟩, ⟨8, 4, .rw, 0x5⟩, ⟨16, 8, .rw, 0x69⟩, ⟨24, 4, .rw, 0x5⟩, ⟨28, 4, .rw, 0x7⟩])]⟩,
  -- THERM_STAT
  ⟨0x110004, 1, 0x800000, 1, 0x800000, none, .alwaysOn, [(0x0, [⟨0, 1, .ro, 0x0⟩, ⟨1, 2, .ro, 0x0⟩, ⟨3, 2, .ro, 0x0⟩, ⟨5, 2, .ro, 0x0⟩, ⟨7, 2, .ro, 0x0⟩, ⟨9, 1, .w1c, 0x0⟩, ⟨16, 7, .ro, 0x0⟩])]⟩,
  -- THERM_MAX
  ⟨0x110008, 1, 0x800000, 1, 0x800000, none, .alwaysOn, [(0x0, [⟨0, 16, .ro, 0x0⟩])]⟩,
  -- THERM_CNT
  ⟨0x11000c, 1, 0x800000, 1, 0x800000, none, .alwaysOn, [(0x0, [⟨0, 16, .rc, 0x0⟩, ⟨16, 16, .ro, 0x0⟩])]⟩,
  -- THERM_T
  ⟨0x110100, 80, 0x4, 1, 0x4, none, .alwaysOn, [(0x0, [⟨0, 16, .ro, 0x0⟩, ⟨16, 1, .ro, 0x0⟩])]⟩,
  -- SAFE_CFG
  ⟨0x60900, 1, 0x800000, 1, 0x800000, none, .alwaysOn, [(0x0, [⟨0, 4, .rw, 0xf⟩, ⟨4, 4, .rw, 0xf⟩, ⟨8, 2, .rw, 0x3⟩])]⟩,
  -- SAFE_STAT
  ⟨0x60904, 1, 0x800000, 1, 0x800000, none, .alwaysOn, [(0x0, [⟨0, 2, .ro, 0x2⟩, ⟨2, 3, .ro, 0x1⟩, ⟨5, 1, .ro, 0x0⟩, ⟨6, 4, .ro, 0x0⟩, ⟨10, 2, .ro, 0x0⟩, ⟨12, 2, .ro, 0x0⟩, ⟨14, 4, .ro, 0xf⟩, ⟨18, 4, .ro, 0x0⟩, ⟨22, 4, .ro, 0x0⟩, ⟨26, 2, .ro, 0x3⟩])]⟩,
  -- SAFE_CNT
  ⟨0x60908, 1, 0x800000, 1, 0x800000, none, .alwaysOn, [(0x0, [⟨0, 8, .rc, 0x0⟩, ⟨8, 8, .rc, 0x0⟩, ⟨16, 8, .rc, 0x0⟩, ⟨24, 8, .rc, 0x0⟩])]⟩,
  -- BUS_REMAP
  ⟨0x120000, 1, 0x800000, 1, 0x800000, none, (.fixed 24), [(0x0, [⟨0, 1, .ro, 0x1⟩])]⟩,
  -- BUS_QOS
  ⟨0x120004, 1, 0x800000, 1, 0x800000, none, (.fixed 24), [(0x0, [⟨0, 4, .rw, 0x9⟩, ⟨4, 4, .rw, 0x6⟩, ⟨8, 4, .rw, 0x6⟩, ⟨12, 4, .rw, 0xc⟩, ⟨16, 4, .rw, 0x8⟩, ⟨20, 4, .rw, 0xa⟩])]⟩,
  -- BUS_AGE
  ⟨0x120008, 1, 0x800000, 1, 0x800000, none, (.fixed 24), [(0x0, [⟨0, 8, .rw, 0x10⟩])]⟩,
  -- BUS_ERR
  ⟨0x120010, 1, 0x800000, 1, 0x800000, none, (.fixed 24), [(0x0, [⟨0, 5, .ro, 0x0⟩, ⟨5, 1, .ro, 0x0⟩, ⟨6, 1, .w1c, 0x0⟩, ⟨16, 16, .rc, 0x0⟩]), (0x4, [⟨0, 32, .ro, 0x0⟩]), (0x8, [⟨0, 8, .ro, 0x0⟩])]⟩,
  -- PERF_TICK
  ⟨0x121000, 1, 0x800000, 1, 0x800000, none, .alwaysOn, [(0x0, [⟨0, 32, .ro, 0x0⟩]), (0x4, [⟨0, 32, .ro, 0x0⟩])]⟩,
  -- PERF_CTL
  ⟨0x121008, 1, 0x800000, 1, 0x800000, none, (.fixed 24), [(0x0, [⟨0, 1, .rw, 0x0⟩])]⟩,
  -- PERF_HC
  ⟨0x121100, 8, 0x10, 1, 0x10, none, (.fixed 24), [(0x0, [⟨0, 8, .rw, 0x0⟩, ⟨8, 1, .rw, 0x0⟩, ⟨9, 1, .rw, 0x0⟩, ⟨10, 1, .ro, 0x0⟩, ⟨11, 1, .w1s, 0x0⟩, ⟨12, 1, .ro, 0x0⟩]), (0x4, [⟨0, 32, .ro, 0x0⟩]), (0x8, [⟨0, 16, .ro, 0x0⟩])]⟩,
  -- BOOT_STAT
  ⟨0x60a00, 1, 0x800000, 1, 0x800000, none, .alwaysOn, [(0x0, [⟨0, 4, .ro, 0x1⟩, ⟨4, 2, .ro, 0x0⟩, ⟨6, 1, .ro, 0x0⟩, ⟨8, 4, .ro, 0x0⟩, ⟨12, 4, .ro, 0x1⟩, ⟨16, 1, .ro, 0x0⟩, ⟨17, 1, .ro, 0x0⟩, ⟨18, 1, .ro, 0x0⟩])]⟩]

/-- Blocks of the hub space, part 4. -/
def hubBlocks4 : List Block := [
  -- PWR_STAT
  ⟨0x60a04, 1, 0x800000, 1, 0x800000, none, .alwaysOn, [(0x0, [⟨0, 32, .ro, 0x0⟩])]⟩,
  -- BOOT_TIME
  ⟨0x60a08, 1, 0x800000, 1, 0x800000, none, .alwaysOn, [(0x0, [⟨0, 16, .ro, 0x0⟩, ⟨16, 16, .ro, 0x0⟩])]⟩,
  -- IMG_STAT
  ⟨0x60a10, 2, 0x8, 1, 0x8, none, .alwaysOn, [(0x0, [⟨0, 32, .ro, 0x0⟩]), (0x4, [⟨0, 7, .ro, 0x0⟩, ⟨7, 1, .ro, 0x0⟩, ⟨8, 1, .ro, 0x0⟩])]⟩,
  -- DEV_ID
  ⟨0x0, 1, 0x800000, 1, 0x800000, none, (.fixed 24), [(0x0, [⟨0, 16, .ro, 0x0⟩, ⟨16, 8, .ro, 0xb0⟩, ⟨24, 4, .ro, 0x0⟩])]⟩,
  -- CAP_UNITS
  ⟨0x4, 1, 0x800000, 1, 0x800000, none, (.fixed 24), [(0x0, [⟨0, 1, .ro, 0x0⟩, ⟨1, 1, .ro, 0x0⟩, ⟨2, 1, .ro, 0x0⟩, ⟨3, 1, .ro, 0x0⟩, ⟨4, 1, .ro, 0x0⟩])]⟩,
  -- CAP_SIZE
  ⟨0x8, 1, 0x800000, 1, 0x800000, none, (.fixed 24), [(0x0, [⟨0, 10, .ro, 0x0⟩, ⟨16, 8, .ro, 0x0⟩, ⟨24, 3, .ro, 0x0⟩])]⟩,
  -- CAP_MEM
  ⟨0xc, 1, 0x800000, 1, 0x800000, none, (.fixed 24), [(0x0, [⟨0, 9, .ro, 0x0⟩, ⟨16, 8, .ro, 0x0⟩])]⟩,
  -- CAP_DOMAINS
  ⟨0x10, 1, 0x800000, 1, 0x800000, none, (.fixed 24), [(0x0, [⟨0, 32, .ro, 0x0⟩])]⟩,
  -- MOD_SERIAL
  ⟨0x20, 4, 0x4, 1, 0x4, none, (.fixed 24), [(0x0, [⟨0, 32, .ro, 0x0⟩])]⟩,
  -- SCRATCH
  ⟨0x30, 1, 0x800000, 1, 0x800000, none, (.fixed 24), [(0x0, [⟨0, 32, .rw, 0x0⟩])]⟩,
  -- OPEN_DESC
  ⟨0xe0100, 16, 0x4, 1, 0x4, none, (.fixed 24), [(0x0, [⟨0, 32, .wo, 0x0⟩])]⟩,
  -- OPEN_CPL
  ⟨0xe0160, 8, 0x4, 1, 0x4, none, (.fixed 24), [(0x0, [⟨0, 32, .ro, 0x0⟩])]⟩]

/-- Every block of the hub space. -/
def hubBlocks : List Block := hubBlocks1 ++ hubBlocks2 ++ hubBlocks3 ++ hubBlocks4

/-- Blocks of the comb space, part 1. -/
def combBlocks1 : List Block := [
  -- DRV_CFG
  ⟨0x400040, 144, 0x4000, 1, 0x4000, none, .comb, [(0x0, [⟨0, 1, .rw, 0x1⟩, ⟨1, 1, .ro, 0x1⟩])]⟩,
  -- SENSE_CFG
  ⟨0x400044, 144, 0x4000, 1, 0x4000, none, .comb, [(0x0, [⟨0, 2, .rw, 0x0⟩, ⟨8, 7, .rw, 0x60⟩, ⟨16, 7, .rw, 0x60⟩])]⟩,
  -- SENSE_STAT
  ⟨0x400048, 144, 0x4000, 1, 0x4000, none, .comb, [(0x0, [⟨0, 1, .ro, 0x0⟩, ⟨1, 1, .ro, 0x0⟩, ⟨2, 1, .ro, 0x0⟩, ⟨8, 8, .ro, 0x0⟩])]⟩,
  -- SENSE_CNT
  ⟨0x40004c, 144, 0x4000, 1, 0x4000, none, .comb, [(0x0, [⟨0, 8, .rc, 0x0⟩, ⟨8, 8, .rc, 0x0⟩, ⟨16, 8, .rc, 0x0⟩, ⟨24, 8, .rc, 0x0⟩])]⟩,
  -- SENSE_SEQ_A
  ⟨0x403000, 144, 0x4000, 96, 0x4, none, .comb, [(0x0, [⟨0, 7, .rw, 0x0⟩, ⟨8, 2, .rw, 0x1⟩])]⟩,
  -- SENSE_SEQ_B
  ⟨0x403200, 144, 0x4000, 96, 0x4, none, .comb, [(0x0, [⟨0, 7, .rw, 0x0⟩, ⟨8, 2, .rw, 0x1⟩])]⟩,
  -- SENSE_RES_A
  ⟨0x403400, 144, 0x4000, 96, 0x4, none, .comb, [(0x0, [⟨0, 14, .ro, 0x0⟩, ⟨14, 1, .ro, 0x0⟩, ⟨15, 1, .ro, 0x0⟩, ⟨16, 1, .ro, 0x0⟩, ⟨17, 1, .ro, 0x0⟩, ⟨18, 2, .ro, 0x0⟩, ⟨24, 8, .ro, 0x0⟩])]⟩,
  -- SENSE_RES_B
  ⟨0x403600, 144, 0x4000, 96, 0x4, none, .comb, [(0x0, [⟨0, 14, .ro, 0x0⟩, ⟨14, 1, .ro, 0x0⟩, ⟨15, 1, .ro, 0x0⟩, ⟨16, 1, .ro, 0x0⟩, ⟨17, 1, .ro, 0x0⟩, ⟨18, 2, .ro, 0x0⟩, ⟨24, 8, .ro, 0x0⟩])]⟩,
  -- LOOP_CFG
  ⟨0x400080, 144, 0x4000, 1, 0x4000, none, .comb, [(0x0, [⟨0, 9, .rw, 0x0⟩, ⟨16, 8, .rw, 0x8⟩])]⟩,
  -- LOOP_STAT
  ⟨0x400084, 144, 0x4000, 1, 0x4000, none, .comb, [(0x0, [⟨0, 6, .ro, 0x0⟩, ⟨8, 7, .ro, 0x0⟩, ⟨15, 1, .ro, 0x0⟩, ⟨16, 9, .ro, 0x0⟩])]⟩,
  -- LOOP_OVR
  ⟨0x400088, 144, 0x4000, 1, 0x4000, none, .comb, [(0x0, [⟨0, 16, .rc, 0x0⟩])]⟩,
  -- CS
  ⟨0x400100, 144, 0x4000, 4, 0x20, none, .comb, [(0x0, [⟨0, 32, .rw, 0x1000⟩]), (0x4, [⟨0, 32, .rw, 0x800⟩]), (0x8, [⟨0, 32, .rw, 0x0⟩]), (0xc, [⟨0, 16, .rw, 0x8000⟩]), (0x10, [⟨0, 32, .rw, 0xf8000000⟩]), (0x14, [⟨0, 32, .rw, 0x8000000⟩]), (0x18, [⟨0, 16, .rw, 0x200⟩]), (0x1c, [⟨0, 16, .rw, 0x32⟩])]⟩,
  -- ADC_CAL
  ⟨0x4000c0, 144, 0x4000, 2, 0x4, none, .comb, [(0x0, [⟨0, 12, .rw, 0x0⟩, ⟨16, 16, .rw, 0x8000⟩])]⟩,
  -- ADC_CAL_ACT
  ⟨0x4000c8, 144, 0x4000, 2, 0x4, none, .comb, [(0x0, [⟨0, 12, .ro, 0x0⟩, ⟨16, 16, .ro, 0x8000⟩])]⟩,
  -- CAL_CSTAT
  ⟨0x4000d0, 144, 0x4000, 1, 0x4000, none, .comb, [(0x0, [⟨0, 3, .ro, 0x0⟩, ⟨3, 1, .ro, 0x0⟩, ⟨4, 2, .ro, 0x0⟩, ⟨16, 16, .ro, 0x0⟩])]⟩,
  -- MC_VERSION
  ⟨0x400180, 144, 0x4000, 1, 0x4000, none, .comb, [(0x0, [⟨0, 8, .ro, 0x0⟩, ⟨16, 16, .ro, 0x0⟩])]⟩,
  -- MC_STAT
  ⟨0x400184, 144, 0x4000, 1, 0x4000, none, .comb, [(0x0, [⟨0, 3, .ro, 0x0⟩, ⟨3, 1, .ro, 0x0⟩, ⟨4, 1, .ro, 0x0⟩, ⟨8, 8, .ro, 0x0⟩, ⟨16, 12, .ro, 0x0⟩])]⟩,
  -- MC_CHECK
  ⟨0x400188, 144, 0x4000, 1, 0x4000, none, .comb, [(0x0, [⟨0, 12, .ro, 0x0⟩, ⟨12, 9, .ro, 0x0⟩, ⟨21, 3, .ro, 0x0⟩, ⟨24, 4, .ro, 0x0⟩, ⟨28, 1, .ro, 0x0⟩, ⟨29, 1, .ro, 0x0⟩, ⟨31, 1, .w1c, 0x0⟩])]⟩,
  -- MC_CHECK_T
  ⟨0x40018c, 144, 0x4000, 1, 0x4000, none, .comb, [(0x0, [⟨0, 32, .ro, 0x0⟩])]⟩,
  -- MC_CNT
  ⟨0x400190, 144, 0x4000, 1, 0x4000, none, .comb, [(0x0, [⟨0, 16, .rc, 0x0⟩, ⟨16, 16, .rc, 0x0⟩])]⟩,
  -- STEP
  ⟨0x4001a0, 144, 0x4000, 1, 0x4000, none, .comb, [(0x0, [⟨0, 32, .ro, 0x0⟩]), (0x4, [⟨0, 16, .ro, 0x0⟩, ⟨16, 1, .ro, 0x0⟩, ⟨17, 1, .w1s, 0x0⟩])]⟩,
  -- PC
  ⟨0x4001b0, 144, 0x4000, 4, 0x8, none, .comb, [(0x0, [⟨0, 5, .rw, 0x0⟩, ⟨5, 1, .rw, 0x0⟩, ⟨6, 1, .rw, 0x0⟩, ⟨7, 1, .ro, 0x0⟩, ⟨8, 1, .w1s, 0x0⟩, ⟨9, 1, .ro, 0x0⟩]), (0x4, [⟨0, 32, .ro, 0x0⟩])]⟩]

/-- Every block of the comb space. -/
def combBlocks : List Block := combBlocks1

/-- Blocks of the lane space, part 1. -/
def laneBlocks1 : List Block := [
  -- DAC_OUT
  ⟨0x401000, 144, 0x4000, 64, 0x80, none, .comb, [(0x0, [⟨0, 14, .ro, 0x0⟩, ⟨16, 3, .ro, 0x0⟩])]⟩,
  -- PARK_CODE
  ⟨0x401004, 144, 0x4000, 64, 0x80, none, .comb, [(0x0, [⟨0, 14, .rw, 0x2000⟩, ⟨16, 14, .ro, 0x2000⟩])]⟩,
  -- LANE_CFG
  ⟨0x401008, 144, 0x4000, 64, 0x80, none, .comb, [(0x0, [⟨0, 2, .rw, 0x0⟩])]⟩,
  -- LANE_LIM
  ⟨0x40100c, 144, 0x4000, 64, 0x80, none, .comb, [(0x0, [⟨0, 14, .rw, 0x0⟩, ⟨16, 14, .rw, 0x3fff⟩])]⟩,
  -- LANE_SP
  ⟨0x401010, 144, 0x4000, 64, 0x80, none, .comb, [(0x0, [⟨0, 16, .ro, 0x0⟩])]⟩,
  -- LANE_EST
  ⟨0x401014, 144, 0x4000, 64, 0x80, none, .comb, [(0x0, [⟨0, 16, .ro, 0x0⟩, ⟨16, 16, .ro, 0x0⟩])]⟩,
  -- LANE_INT
  ⟨0x401018, 144, 0x4000, 64, 0x80, none, .comb, [(0x0, [⟨0, 32, .ro, 0x0⟩])]⟩,
  -- LANE_DF
  ⟨0x40101c, 144, 0x4000, 64, 0x80, none, .comb, [(0x0, [⟨0, 32, .ro, 0x0⟩])]⟩,
  -- LANE_STAT
  ⟨0x401020, 144, 0x4000, 64, 0x80, none, .comb, [(0x0, [⟨0, 4, .ro, 0x0⟩, ⟨4, 3, .ro, 0x0⟩, ⟨7, 1, .ro, 0x0⟩, ⟨8, 1, .ro, 0x0⟩, ⟨9, 1, .ro, 0x0⟩, ⟨10, 1, .ro, 0x0⟩, ⟨11, 1, .ro, 0x0⟩, ⟨12, 1, .w1c, 0x0⟩, ⟨13, 1, .w1c, 0x0⟩, ⟨14, 1, .w1c, 0x0⟩, ⟨15, 1, .w1c, 0x0⟩, ⟨16, 16, .ro, 0x0⟩])]⟩,
  -- LANE_CNT
  ⟨0x401024, 144, 0x4000, 64, 0x80, none, .comb, [(0x0, [⟨0, 16, .rc, 0x0⟩, ⟨16, 8, .ro, 0x0⟩, ⟨24, 8, .rc, 0x0⟩])]⟩,
  -- CAL_OFS_BC
  ⟨0x401028, 144, 0x4000, 64, 0x80, none, .comb, [(0x0, [⟨0, 16, .rw, 0x0⟩, ⟨16, 16, .rw, 0x0⟩])]⟩,
  -- CAL_OFS_BC_ACT
  ⟨0x401048, 144, 0x4000, 64, 0x80, none, .comb, [(0x0, [⟨0, 16, .ro, 0x0⟩, ⟨16, 16, .ro, 0x0⟩])]⟩,
  -- CAL_OFS_Q
  ⟨0x40102c, 144, 0x4000, 64, 0x80, none, .comb, [(0x0, [⟨0, 16, .rw, 0x0⟩, ⟨16, 16, .rw, 0x0⟩])]⟩,
  -- CAL_OFS_Q_ACT
  ⟨0x40104c, 144, 0x4000, 64, 0x80, none, .comb, [(0x0, [⟨0, 16, .ro, 0x0⟩, ⟨16, 16, .ro, 0x0⟩])]⟩,
  -- CAL_TG_BC
  ⟨0x401030, 144, 0x4000, 64, 0x80, none, .comb, [(0x0, [⟨0, 16, .rw, 0x4000⟩, ⟨16, 16, .rw, 0x4000⟩])]⟩,
  -- CAL_TG_BC_ACT
  ⟨0x401050, 144, 0x4000, 64, 0x80, none, .comb, [(0x0, [⟨0, 16, .ro, 0x4000⟩, ⟨16, 16, .ro, 0x4000⟩])]⟩,
  -- CAL_TG_Q
  ⟨0x401034, 144, 0x4000, 64, 0x80, none, .comb, [(0x0, [⟨0, 16, .rw, 0x4000⟩, ⟨16, 16, .rw, 0x4000⟩])]⟩,
  -- CAL_TG_Q_ACT
  ⟨0x401054, 144, 0x4000, 64, 0x80, none, .comb, [(0x0, [⟨0, 16, .ro, 0x4000⟩, ⟨16, 16, .ro, 0x4000⟩])]⟩,
  -- CAL_BIAS
  ⟨0x401038, 144, 0x4000, 64, 0x80, none, .comb, [(0x0, [⟨0, 14, .rw, 0x2000⟩, ⟨15, 1, .rw, 0x0⟩, ⟨16, 14, .rw, 0xd00⟩])]⟩,
  -- CAL_BIAS_ACT
  ⟨0x401058, 144, 0x4000, 64, 0x80, none, .comb, [(0x0, [⟨0, 14, .ro, 0x2000⟩, ⟨15, 1, .ro, 0x0⟩, ⟨16, 14, .ro, 0xd00⟩])]⟩,
  -- CAL_FF
  ⟨0x40103c, 144, 0x4000, 64, 0x80, none, .comb, [(0x0, [⟨0, 32, .rw, 0x1a00⟩])]⟩,
  -- CAL_FF_ACT
  ⟨0x40105c, 144, 0x4000, 64, 0x80, none, .comb, [(0x0, [⟨0, 32, .ro, 0x1a00⟩])]⟩]

/-- Blocks of the lane space, part 2. -/
def laneBlocks2 : List Block := [
  -- CAL_RES
  ⟨0x401040, 144, 0x4000, 64, 0x80, none, .comb, [(0x0, [⟨0, 3, .ro, 0x0⟩, ⟨3, 3, .ro, 0x0⟩, ⟨6, 1, .ro, 0x0⟩, ⟨7, 1, .w1c, 0x0⟩, ⟨8, 4, .ro, 0x0⟩])]⟩]

/-- Every block of the lane space. -/
def laneBlocks : List Block := laneBlocks1 ++ laneBlocks2

/-- Blocks of the port space, part 1. -/
def portBlocks1 : List Block := [
  -- IN_PWR
  ⟨0x2000a0, 512, 0x200, 1, 0x200, none, .tileCommon, [(0x0, [⟨0, 8, .ro, 0x0⟩, ⟨8, 1, .w1c, 0x0⟩, ⟨16, 16, .ro, 0x0⟩])]⟩,
  -- SRX_CFG
  ⟨0x200000, 512, 0x200, 1, 0x200, (some .stampU), .srx, [(0x0, [⟨0, 1, .rw, 0x0⟩, ⟨1, 2, .rw, 0x2⟩, ⟨8, 8, .rw, 0x0⟩, ⟨16, 7, .rw, 0x40⟩, ⟨31, 1, .w1s, 0x0⟩])]⟩,
  -- SRX_STAT
  ⟨0x200004, 512, 0x200, 1, 0x200, (some .stampU), .srx, [(0x0, [⟨0, 1, .ro, 0x0⟩, ⟨1, 1, .ro, 0x0⟩, ⟨2, 1, .ro, 0x0⟩, ⟨3, 1, .ro, 0x0⟩, ⟨4, 1, .ro, 0x0⟩, ⟨5, 1, .ro, 0x0⟩, ⟨8, 8, .ro, 0x0⟩, ⟨16, 16, .ro, 0x0⟩])]⟩,
  -- SRX_SEQ
  ⟨0x200008, 512, 0x200, 1, 0x200, (some .stampU), .srx, [(0x0, [⟨0, 32, .ro, 0x0⟩])]⟩,
  -- SRX_EPOCH
  ⟨0x20000c, 512, 0x200, 1, 0x200, (some .stampU), .srx, [(0x0, [⟨0, 32, .ro, 0x0⟩])]⟩,
  -- SRX_UNM
  ⟨0x200010, 512, 0x200, 1, 0x200, (some .stampU), .srx, [(0x0, [⟨0, 32, .rc, 0x0⟩])]⟩,
  -- SRX_DROP
  ⟨0x200014, 512, 0x200, 1, 0x200, (some .stampU), .srx, [(0x0, [⟨0, 32, .rc, 0x0⟩])]⟩,
  -- SRX_ERR
  ⟨0x200018, 512, 0x200, 1, 0x200, (some .stampU), .srx, [(0x0, [⟨0, 16, .rc, 0x0⟩, ⟨16, 16, .rc, 0x0⟩])]⟩,
  -- SRX_PDLY
  ⟨0x20001c, 512, 0x200, 1, 0x200, (some .stampU), .srx, [(0x0, [⟨0, 32, .ro, 0x500⟩])]⟩,
  -- SRX_PTC
  ⟨0x200020, 512, 0x200, 1, 0x200, (some .stampU), .srx, [(0x0, [⟨0, 16, .ro, 0x0⟩])]⟩,
  -- SRX_RULE
  ⟨0x200100, 512, 0x200, 8, 0x10, (some .stampU), .srx, [(0x0, [⟨0, 1, .rw, 0x0⟩, ⟨1, 1, .rw, 0x0⟩, ⟨8, 6, .rw, 0x0⟩]), (0x4, [⟨0, 32, .rw, 0x0⟩]), (0x8, [⟨0, 32, .rw, 0x0⟩]), (0xc, [⟨0, 16, .rw, 0x0⟩, ⟨16, 16, .rw, 0xffff⟩])]⟩,
  -- POL
  ⟨0x200040, 512, 0x200, 1, 0x200, (some .exportU), (.fixed 30), [(0x0, [⟨0, 2, .rw, 0x0⟩, ⟨2, 1, .rw, 0x0⟩, ⟨3, 1, .ro, 0x0⟩, ⟨31, 1, .w1s, 0x0⟩]), (0x4, [⟨0, 32, .rw, 0x0⟩]), (0x8, [⟨0, 32, .rw, 0x0⟩]), (0xc, [⟨0, 24, .rw, 0x0⟩]), (0x10, [⟨0, 24, .rw, 0x0⟩]), (0x14, [⟨0, 12, .rw, 0x0⟩, ⟨12, 1, .rw, 0x0⟩, ⟨13, 1, .rw, 0x0⟩])]⟩]

/-- Every block of the port space. -/
def portBlocks : List Block := portBlocks1

end Sys2Proof.Machine
end

