-- ==== Sys2Proof/Machine/State.lean ====
section
/-! DEFINITION. The state of the block, as plain data: its registers, the state its rules give it beside them, and
the queue of commands that wait. Structures follow the chapters of spec/. A default in a structure is the value
State.reset gives that field. -/

namespace Sys2Proof.Machine

/-- One time domain (R147 to R150), beside its registers TDx: the counters, the increment in force, the phase
adjustment in progress, and the writes that wait for the next tick. -/
structure Domain where
  sec : Nat := 0
  ns : Nat := 0
  frac : Nat := 0
  inc : Nat := 0x19999999A
  adjTotal : Int := 0
  adjDone : Int := 0
  adjN : Nat := 0
  adjK : Nat := 0
  /-- a SET that waits for the next tick: second, nanosecond -/
  setPend : Option (Nat × Nat) := none
  /-- an INC that waits for the next tick -/
  incPend : Option Nat := none
  /-- an ADJ that waits for the next tick: step, ticks -/
  adjPend : Option (Int × Nat) := none
  /-- a SET since the previous anchor (SETF, R180) -/
  setf : Bool := false
  /-- TICK of the last SET -/
  lastSet : Option Nat := none
  /-- TICK at which the domain stopped being the stamping domain -/
  stampEnd : Option Nat := none
  /-- TICK of the last write of INC_HI, ADJ_TICKS or STATE (R155) -/
  servoTick : Nat := 0
  /-- TICK at which HOLDOVER was entered -/
  holdTick : Nat := 0
  /-- this minute: states held (bit per code), SETs, largest |OFFSET| (R274, TIME_MINUTE) -/
  held : Nat := 1
  sets : Nat := 0
  maxOfs : Nat := 0
  deriving DecidableEq, Repr, Inhabited

/-- One entry of a capture FIFO (R164). -/
structure CapEntry where
  tick : Nat
  ns32A : Nat
  ns32B : Nat
  frac8A : Nat
  frac8B : Nat
  deriving DecidableEq, Repr, Inhabited

/-- One PPS and TOD input (R157 to R159). -/
structure PpsIn where
  /-- TICK of the last used edge -/
  lastEdge : Option Nat := none
  /-- edges used since the line last used named its edge -/
  edges : Nat := 0
  /-- the line last used: its second -/
  lastSec : Option Nat := none
  /-- the good lines that wait for the edge each names, oldest first: second, TICK of its LF, utc, leap -/
  lines : List (Nat × Nat × Int × Nat) := []
  /-- consecutive lines that agree with each other but break the sequence: the last second, their count, `edges` at the edge it
  named -/
  resync : Option (Nat × Nat × Nat) := none
  deriving DecidableEq, Repr, Inhabited

/-- Gwynique's PTP client of one domain (R160, R243): its configuration; what it has measured: the differences t2 − t1 from the
master and t4 − t3 to it in 1/256 ns, the last offset and mean path delay; the masters it hears, with the announcement of
each; what the best of them announces. -/
structure PtpClient where
  port : Nat := 0
  domainNumber : Nat := 0
  transport : Nat := 0
  unicast : Bool := false
  logDelay : Int := 0
  asym : Int := 0
  lockThr : Nat := 40
  masters : List (List Byte) := []
  /-- consecutive good and consecutive bad offsets (R155) -/
  good : Nat := 0
  bad : Nat := 0
  heard : Nat := 0
  offset : Int := 0
  delay : Int := 0
  fromMaster : Option Int := none
  toMaster : Option Int := none
  /-- stamps of the domain, in 1/256 ns, of a two-step Sync that waits for its Follow_Up and of the Delay_Req that waits for its
  Delay_Resp; when the last Delay_Req was sent, and to which address (empty: multicast) -/
  syncAt : Option Int := none
  reqAt : Option Int := none
  reqTick : Option Nat := none
  reqTo : List Byte := []
  foreign : List (List Byte × Announce) := []
  utc : Int := 0
  leap : Nat := 0
  /-- as the last Announce carried them: grandmaster identity, parent port identity, clock class -/
  grandmaster : List Byte := []
  parent : List Byte := []
  clockClass : Nat := 0
  valid : Bool := false
  /-- counts of Sync, Follow_Up, Delay_Req, Delay_Resp, Announce messages and announce timeouts -/
  counts : List Nat := [0, 0, 0, 0, 0, 0]
  deriving DecidableEq, Repr, Inhabited

/-- The time unit beside its registers (spec/08_time_unit.md). -/
structure TimeUnit where
  a : Domain := {}
  b : Domain := {}
  /-- a SNAP waits for the next tick (R151) -/
  snapPend : Bool := false
  /-- TICK of a pending domain switch (R154) -/
  switchAt : Option Nat := none
  /-- capture FIFOs by unit, oldest first (R164) -/
  caps : SMap (List CapEntry) := []
  /-- compare units armed and not yet fired, and those whose next firing is late (R162) -/
  armed : List Nat := []
  late : List Nat := []
  /-- TS_OUT pulses in progress: unit, pins, TICK at which it ends (R163) -/
  pulses : List (Nat × Nat × Nat) := []
  ppsA : PpsIn := {}
  ppsB : PpsIn := {}
  ptpA : PtpClient := {}
  ptpB : PtpClient := {}
  /-- REFCLK is present, and the PLL is locked to it (R17) -/
  refOk : Bool := true
  /-- anchor number (ANUM, R180), and the instant in domain time of the last anchor in ns -/
  anum : Nat := 0
  lastAnchor : Nat := 0
  /-- an anchor is owed in every stream for a SET or a switch, since this TICK (R152) -/
  anchorOwed : Option Nat := none
  /-- TICK of the last TIME_MINUTE entries -/
  minuteTick : Nat := 0
  deriving DecidableEq, Repr, Inhabited

/-- The session setup block (R211); for an Ethernet session the ring sizes of its HELLO. -/
structure Rings where
  cmdBase : Nat := 0
  cplBase : Nat := 0
  evtBase : Nat := 0
  recBase : Nat := 0
  statBase : Nat := 0
  cmdLog2 : Nat := 6
  cplLog2 : Nat := 6
  evtLog2 : Nat := 6
  recLog2 : Nat := 6
  cplVec : Nat := 0xffff
  evtVec : Nat := 0xffff
  recVec : Nat := 0xffff
  mod : Nat := 0
  deriving DecidableEq, Repr, Inhabited

/-- What a taken command waits for. -/
inductive Phase where
  /-- taken, not yet executed -/
  | ready
  /-- waits for the standby's acknowledgement of its transaction (R231, R298) -/
  | acking
  /-- executed; its completion follows a later command row (an instant, a compile, an offer) -/
  | waiting
  deriving DecidableEq, Repr, Inhabited

/-- A command Gwynique has taken and not completed (R214, R215): descriptor fields, ring index, buffer as read,
verdict on the signature the buffer carries, and the role, mask and grant in force when it was taken (R247). -/
structure Taken where
  op : Nat
  flags : Nat
  tag : Nat
  bufAddr : Nat
  bufLen : Nat
  params : List Byte
  index : Nat
  buf : List Byte
  bufOk : Bool
  sigOk : Bool
  role : Nat
  mask : Nat
  grant : Nat
  phase : Phase
  deriving DecidableEq, Repr, Inhabited

/-- The Ethernet half of a session (R222 to R225). -/
structure EthSide where
  port : Nat
  hostAddr : List Byte
  hostUdp : Nat
  key : List Byte
  oldKey : List Byte
  epoch : Nat
  /-- TICK of the last rekey -/
  rekeyTick : Option Nat
  /-- the highest DGRAM_SEQ accepted (none = none yet); the next one sent -/
  rxSeq : Option Nat
  txSeq : Nat
  /-- TICK of the last valid datagram -/
  lastRx : Nat
  /-- the bulk window: bytes by offset, unlisted bytes zero -/
  bulk : SMap Byte
  /-- TICK of the last repetition of completions and events -/
  lastRepeat : Nat
  /-- descriptors received and not yet taken, from CMD_HEAD on -/
  cmds : List (List Byte)
  deriving DecidableEq, Repr, Inhabited

/-- The status block as last written (R213). -/
structure StatBlock where
  cmdHead : Nat := 0
  cplTail : Nat := 0
  evtTail : Nat := 0
  recTail : Nat := 0
  state : Nat := 0
  errs : Nat := 0
  ns32 : Nat := 0
  deriving DecidableEq, Repr, Inhabited

/-- The moderation state of one ring (R221): TICK of its last message, and a delayed message waits. -/
structure Moder where
  last : Option Nat := none
  pend : Bool := false
  /-- messages raised -/
  raised : Nat := 0
  deriving DecidableEq, Repr, Inhabited

/-- A session that is not CLOSED, beside its registers SESSq (R207, R208). Ring entries are held from the moment the
device writes them until the host's head passes them. -/
structure Sess where
  rings : Rings := {}
  /-- capability mask (R255) and port grant (R256) -/
  mask : Nat := 0
  grant : Nat := 0
  credSerial : Nat := 0
  /-- mirrored (opened on the active) or local (R295) -/
  mirrored : Bool := false
  cmdTail : Nat := 0
  cplHead : Nat := 0
  cplTail : Nat := 0
  evtHead : Nat := 0
  evtTail : Nat := 0
  recHead : Nat := 0
  recTail : Nat := 0
  eseq : Nat := 0
  cpl : List (List Byte) := []
  evt : List (List Byte) := []
  recs : List (List Byte) := []
  /-- events lost and not yet reported by an EV_LOST event (R219) -/
  lostPend : Nat := 0
  /-- the anchor pair held back for the ring (R219) -/
  anchorHeld : List (List Byte) := []
  /-- a completion held while Bus Master Enable is clear (R210) -/
  cplHeld : List (List Byte) := []
  taken : Option Taken := none
  /-- commands taken in this turn (R214) -/
  turn : Nat := 0
  closeCause : Nat := 0
  closeTick : Nat := 0
  stat : StatBlock := {}
  /-- the host memory writes of the last update of a ring or of the status block, in order: bus address and bytes (R212, R213) -/
  posted : List (Nat × List Byte) := []
  /-- bus address of the last command entry read (R212) -/
  fetchAt : Nat := 0
  modCpl : Moder := {}
  modEvt : Moder := {}
  modRec : Moder := {}
  eth : Option EthSide := none
  /-- the device's last write to this session's command buffer: bus address, bytes -/
  hostBuf : Nat × List Byte := (0, [])
  /-- the report of a compile, written at REPORT_ADDR (R237) -/
  report : Nat × List Byte := (0, [])
  deriving DecidableEq, Repr, Inhabited

/-- The grant of a virtual function (R206, R260). -/
structure VfGrant where
  ceil : Nat := 0
  ports : Nat := 0
  deriving DecidableEq, Repr, Inhabited

/-- An open submitted through an open window: the descriptor as it stood at GO, and the memory it points to (R211);
`acking` while the open waits for the standby. -/
structure Submitted where
  desc : List Byte
  mem : OpenMem
  acking : Bool
  deriving DecidableEq, Repr, Inhabited

/-- A datagram the device sent on a management port (R222, R223): the address and UDP port it goes to, its header fields, its
body in clear, and the UDP payload: header, then the body, from TYPE 0x04 on encrypted with its tag after it. -/
structure Sent where
  port : Nat
  addr : List Byte
  udp : Nat
  ty : Nat
  count : Nat
  q : Nat
  epoch : Nat
  seq : Nat
  index : Nat
  body : List Byte
  payload : List Byte
  deriving DecidableEq, Repr, Inhabited

/-- The management configuration of a port (R235, NET_CFG): the 64-byte block. -/
abbrev NetCfg := List Byte

/-- One vector of an MSI-X table, with its pending bit (R201). -/
structure MsiVec where
  addr : Nat := 0
  data : Nat := 0
  masked : Bool := true
  pend : Bool := false
  deriving DecidableEq, Repr, Inhabited

/-- What accesses of this instant see beside events of it (R370): the registers before the instant, and by lane FE_TRIP, OVR_TRIP, LOWSIG,
STALE, SKIP and FROZEN. -/
structure Before where
  regs : SMap Word
  lanes : SMap (List Bool × Nat × Nat)
  deriving DecidableEq, Repr, Inhabited

/-- The host interface beside the registers of the sessions (spec/11_host_sessions_mailboxes.md). -/
structure HostIf where
  /-- sessions that are not CLOSED, by number -/
  sess : SMap Sess := []
  vfs : SMap VfGrant := []
  /-- NumVFs while VF Enable is set; 0 while it is clear (R372) -/
  numVfs : Nat := 0
  /-- functions whose Bus Master Enable is set -/
  busMaster : List Nat := []
  /-- opens in progress, by view, and the HELLOs whose opens wait for the standby, by TSEQ -/
  opens : SMap Submitted := []
  hellos : SMap Hello := []
  net0 : NetCfg := []
  net1 : NetCfg := []
  /-- the last datagram sent, per port -/
  out0 : Option Sent := none
  out1 : Option Sent := none
  /-- the last answer to a HELLO, per port -/
  reply0 : Option Sent := none
  reply1 : Option Sent := none
  /-- the PCIe link is up (R354) -/
  pcieUp : Bool := false
  /-- the words of configuration space that writes have changed: word at offset o of function fn at 4,096 × fn + o (R202); and whether
  the last configuration request was answered with Configuration Request Retry Status (R354) -/
  cfg : SMap Nat := []
  cfgRetry : Bool := false
  /-- the registers as they stood before this instant, where events can have coincided with accesses -/
  before : Option Before := none
  /-- functions for which the device issues no DMA until their sessions have closed (R210) -/
  noDma : List Nat := []
  /-- functions whose DMA writes fail (R220) -/
  wrBad : List Nat := []
  /-- sessions in OPENING that wait for the standby (R208) -/
  opening : List Nat := []
  /-- the session Gwynique serves in its turn (R214) -/
  turnOf : Option Nat := none
  /-- the MSI-X tables: vector v of function fn at 2,048 × fn + v (R201); and the last message sent: address, data -/
  msix : SMap MsiVec := []
  msi : Option (Nat × Nat) := none
  deriving DecidableEq, Repr, Inhabited

/-- One record of R175: its words 0 to 6 (CHK is formed as it enters a queue), the port, the spine tick of its stamp. -/
structure Rec where
  w : List Nat
  port : Nat
  tick : Nat
  /-- written with inverted check bits where it is now held (R318) -/
  bad : Bool := false
  deriving DecidableEq, Repr, Inhabited

/-- A record in a queue (R192): contents, TICK of entry, slot (0 = the buffer, 1 = LOSS, 2 = ANCHOR, 3 = SEAM), QPOS. -/
structure QItem where
  r : Rec
  enter : Nat
  slot : Nat
  qpos : Nat
  deriving DecidableEq, Repr, Inhabited

/-- The marks of one reader of a queue (R198, R242): largest depth, largest delay in µs, and drops counted for it. -/
structure Marks where
  depth : Nat := 0
  delay : Nat := 0
  drops : Nat := 0
  deriving DecidableEq, Repr, Inhabited

/-- A record queue beside its registers QWq (R192 to R198); `shadow` for a mirrored session on the standby (R303). -/
structure Queue where
  items : List QItem := []
  /-- F of the head, when formed; F of the previous head (R194) -/
  f : Option Nat := none
  fPrev : Nat := 0
  /-- shaper bucket in 2⁻¹⁶ record, and SH_EN was set since the last refill (R196) -/
  bucket : Int := 0
  fill : Bool := false
  /-- drops not yet in a LOSS record: count, CTL_LOST, TICK of the first (R193) -/
  lost : Nat := 0
  ctlLost : Bool := false
  lostTick : Nat := 0
  /-- a record was accepted since while the LOSS slot was taken: the next LOSS record is formed as the slot frees (R193) -/
  lossDue : Bool := false
  /-- DGRAM_SEQ of the record transport (R199) -/
  dseq : Nat := 0
  /-- records below this QPOS are to be sent without waiting for others (EXPORT_FLUSH, R242) -/
  flushPos : Nat := 0
  /-- drops since the queue opened -/
  dropAll : Nat := 0
  /-- marks since the queue opened, and those of each reader that has read: view v ≥ 1 as v, session q as 1000 + q -/
  all : Marks := {}
  marks : SMap Marks := []
  /-- the last stamp sent: PORT, LEN, NS32, DIGEST64 (R303) -/
  lastSent : Option Sample := none
  lastQpos : Nat := 0
  shadow : Bool := false
  /-- for a shadow: the last mark: found, NS32, QPOS of the former active -/
  mark : Option (Bool × Nat × Nat) := none
  markQpos : Nat := 0
  deriving DecidableEq, Repr, Inhabited

/-- A record transport datagram as sent (R199): channel, queue, flags, sequence, QPOS of the first record, records. -/
structure RecDgram where
  q : Nat
  flags : Nat
  seq : Nat
  qpos : Nat
  recs : List (List Byte)
  /-- CHANNEL, KEY_EPOCH, the address and UDP port it goes to, and the UDP payload: header, encrypted records, tag -/
  ch : Nat := 1
  epoch : Nat := 0
  addr : List Byte := []
  udp : Nat := 0
  payload : List Byte := []
  deriving DecidableEq, Repr, Inhabited

/-- A set of policer parameters (R188). -/
structure PolSet where
  meter : Nat := 0
  aware : Bool := false
  cir : Nat := 0
  pir : Nat := 0
  cbs : Nat := 0
  ebs : Nat := 0
  deriving DecidableEq, Repr, Inhabited

/-- A policer window (R191): window number, outcomes, APPLIED, and, once it has ended, SEQ32, METER, domain, TQ, NS32 and
FRAC8 at its end. -/
structure PolWin where
  wnum : Nat
  green : Nat := 0
  yellow : Nat := 0
  red : Nat := 0
  applied : Bool := false
  ended : Bool := false
  seq : Nat := 0
  meter : Nat := 0
  dom : Nat := 0
  tq : Nat := 0
  ns32 : Nat := 0
  frac8 : Nat := 0
  deriving DecidableEq, Repr, Inhabited

/-- The policer of a port (R188 to R191). -/
structure Policer where
  set : PolSet := {}
  first : Bool := true
  tc : Nat := 0
  te : Nat := 0
  k0 : Nat := 0
  accC : Nat := 0
  accP : Nat := 0
  wins : List PolWin := []
  /-- the window in which the set in force was applied (R191) -/
  applyWin : Option Nat := none
  deriving DecidableEq, Repr, Inhabited

/-- A match rule in force (R171). -/
structure Rule where
  en : Bool := false
  yellow : Bool := false
  off : Nat := 0
  value : Nat := 0
  mask : Nat := 0
  lenMin : Nat := 0
  lenMax : Nat := 0xffff
  deriving DecidableEq, Repr, Inhabited

/-- A frame that is open (R167, R168): what its start fixed. -/
structure Frame where
  seq : Nat
  tick : Nat
  ns32 : Nat
  frac8 : Nat
  dom : Nat
  tq : Nat
  l4 : Bool
  rate : Nat
  lockseq : Nat
  keyseq : Nat
  key : Option (List Byte)
  frDefault : Bool
  tempDefault : Bool
  rules : List Rule
  digOff : Nat
  digLen : Nat
  deriving DecidableEq, Repr, Inhabited

/-- STAMP records dropped at a point and not yet reported (R179, R184). -/
structure DropAcc where
  first : Nat := 0
  last : Nat := 0
  count : Nat := 0
  tick : Nat := 0
  deriving DecidableEq, Repr, Inhabited

/-- A stamp receiver beside its registers (R165 to R184). -/
structure Srx where
  /-- the rate being tried and TICK of the try; the rate of the last lock since POR_N -/
  tryRate : Nat := 1
  tryTick : Nat := 0
  lastRate : Option Nat := none
  rules : List Rule := []
  digOff : Nat := 0
  digLen : Nat := 0x40
  key : Option (List Byte) := none
  /-- TICK at which a written APPLY has crossed into the receiver's island (R172), and the keys on their way there, oldest
  first, each with the TICK of its arrival (R174) -/
  applyAt : Option Nat := none
  keyAt : List (Nat × Option (List Byte)) := []
  frame : Option Frame := none
  /-- EN = 0 was written while a frame was open (R182) -/
  disablePend : Bool := false
  /-- SEQ32 has passed from 0xFFFF_FFFF to 0 and no frame has taken SEQ 0 since (R177) -/
  wrapPend : Bool := false
  drop0 : DropAcc := {}
  drop1 : DropAcc := {}
  pol : Policer := {}
  deriving DecidableEq, Repr, Inhabited

/-- The record path of one tile (R183): the tile's FIFO and the aggregator's intake, oldest first. -/
structure TilePath where
  fifo : List Rec := []
  intake : List Rec := []
  deriving DecidableEq, Repr, Inhabited

/-- The export engine beside its registers (spec/10_record_policing_and_export.md). -/
structure ExportEng where
  queues : SMap Queue := []
  srx : SMap Srx := []
  tiles : SMap TilePath := []
  /-- virtual time of each channel in 2⁻¹⁶ byte (R194) -/
  v0 : Nat := 0
  v1 : Nat := 0
  v2 : Nat := 0
  /-- per channel, the tick until which reserved time runs (R197) -/
  busy : SMap Nat := []
  /-- the last record transport datagram sent on each management port -/
  dg0 : Option RecDgram := none
  dg1 : Option RecDgram := none
  /-- STAMP records handed off with NO_KEY = 0, modulo 16 (R293) -/
  sampleCtr : Nat := 0
  /-- the tile the aggregators took a record from last (R183) -/
  turn : Nat := 3
  /-- TICK of the last refill of the shapers (R196), per channel TICK of the slot instants last served, and the reservations
  whose start lies ahead: TICK of the start and queue (R197) -/
  refillAt : Option Nat := none
  slotAt : SMap Nat := []
  fcWait : List (Nat × Nat) := []
  /-- path temperature per group of 128 inputs: mean in 0.125 °C steps summed over valid sensors and their count (R169) -/
  tpd : SMap (Int × Nat) := []
  deriving DecidableEq, Repr, Inhabited

/-- A ledger entry (R273). `body` is its 52 bytes, `prev` its 48. -/
structure LEntry where
  seq : Nat := 0
  ty : Nat := 0
  flags : Nat := 0
  tqb : Nat := 0
  sec48 : Nat := 0
  ns30 : Nat := 0
  q : Nat := 0xffff
  role : Nat := 0
  body : List Byte := []
  prev : List Byte := []
  deriving DecidableEq, Repr, Inhabited

/-- A checkpoint (R276): the range it covers and its 224 bytes. -/
structure Checkpoint where
  first : Nat
  last : Nat
  bytes : List Byte
  deriving DecidableEq, Repr, Inhabited

/-- The ledger beside LEDGER_STAT (R273 to R278). -/
structure Ledger where
  /-- entries not yet released, oldest first -/
  entries : List LEntry := []
  last : Option LEntry := none
  /-- accepted parks and unparks not yet at their instants (R237) -/
  parkRes : Nat := 0
  /-- involuntary events unrecorded, by kind: SAFETY, TAKEOVER, FAULT, TIME_MINUTE, DOMAIN_SWITCH, COMB_RESTART -/
  ov : List Nat := [0, 0, 0, 0, 0, 0]
  ovFirst : Nat := 0
  ovLast : Nat := 0
  cps : List Checkpoint := []
  cpNum : Nat := 0
  /-- entries no checkpoint covers: first SEQ, count, TICK of the first -/
  uncovFirst : Nat := 0
  uncov : Nat := 0
  uncovTick : Nat := 0
  /-- TICK at which Gwynique last sealed a checkpoint (R275) -/
  sealTick : Option Nat := none
  deriving DecidableEq, Repr, Inhabited

/-- The keys that the module is made with, in OTP and boot ROM (R265): the Karioten verification key, the image key, the two halves of the
device identity key, and the secret from which each start derives the sealing key. -/
structure Keys where
  karioten : List Byte := tableBytes 97 Config.kariotenByte
  image : List Byte := tableBytes 32 Config.imageKeyByte
  idPub : List Byte := tableBytes 97 Config.idKeyByte
  idPriv : Nat := Config.idPrivate
  secret : List Byte := tableBytes 32 Config.otpSecretByte
  deriving DecidableEq, Repr, Inhabited

/-- The contents of a sealed slot (R266, R275, R359): ledger head, the latest checkpoint, owner record and the enrolment count it carries,
and the secret whose sealing key sealed it. -/
structure Sealed where
  head : Option (Nat × List Byte)
  owner : Option (List Byte)
  pairKey : Option (List Byte)
  partner : List Byte
  digestKeys : SMap (List Byte)
  enrolAt : Nat
  checkpoint : Option (List Byte)
  secret : List Byte
  deriving DecidableEq, Repr, Inhabited

/-- What the external flash and OTP hold (R266, R275, R359): it survives every reset. -/
structure Flash where
  keys : Keys := {}
  /-- sealed ledger head: SEQ, SHA-384, entries beyond the seal existed -/
  head : Option (Nat × List Byte) := none
  unsealed : Bool := false
  starts : Nat := 0
  /-- sealed owner record: owner key, pair key, partner identity digest, digest keys by port -/
  owner : Option (List Byte) := none
  pairKey : Option (List Byte) := none
  partner : List Byte := []
  digestKeys : SMap (List Byte) := []
  /-- OTP enrolment bits burnt beyond those at manufacture (R266), and the count the current record carries -/
  enrolCount : Nat := 0
  enrolAt : Nat := 0
  /-- the current slot, the seals written, and what the other slot holds (R359) -/
  slot : Nat := 0
  seals : Nat := 0
  /-- the latest checkpoint, as sealed (R275) -/
  checkpoint : Option (List Byte) := none
  older : Option Sealed := none
  /-- images: level in each bank by class and bank (2 × class + bank), and anti-rollback bits burnt by class -/
  levels : SMap Nat := []
  rollback : SMap Nat := []
  /-- the image each bank holds, by class and bank (R355, R356): as read at a start or as IMAGE_WRITE wrote it -/
  banks : SMap (List Byte) := []
  deriving DecidableEq, Repr, Inhabited

/-- A transaction the active has sent and not seen answered (R298). -/
structure SentTxn where
  tseq : Nat
  ty : Nat
  data : List Nat
  /-- who waits: 0 = session `q`'s taken command, 1 = the open of view `q`, 2 = a CSP strike, 3 = nobody, 4 = a HELLO -/
  who : Nat
  q : Nat
  tick : Nat
  deriving DecidableEq, Repr, Inhabited

/-- A frame of the Haldod link as the module sends it (R288): KIND, FSEQ, its body in clear, and its 66-bit blocks before scrambling, each
a sync header and 64 payload bits. -/
structure HFrame where
  kind : Nat
  fseq : Nat
  body : List Byte
  blocks : List (Nat × Nat)
  deriving DecidableEq, Repr, Inhabited

/-- What has arrived of a transaction whose END has not (R298, R300): the part due next, none where one is missing, and the content. -/
structure Partial where
  next : Option Nat
  bytes : List Byte
  deriving DecidableEq, Repr, Inhabited

/-- A PRBS checker (R289): the bits before the one it predicts, the latest in bit 0; how many it holds; error-free bits in a row. -/
structure Prbs where
  reg : Nat := 0
  fill : Nat := 0
  run : Nat := 0
  deriving DecidableEq, Repr, Inhabited

/-- A transaction the standby has staged (R298, R299), acknowledged at `tick`. `item` refers to what it armed, for a
VOID: SEQ of a commit's entry, instant of a park, 1 + the plan armed before (0 = none); of an open, the shadow's number here (R296). -/
structure StagedTxn where
  tseq : Nat
  ty : Nat
  data : List Nat
  tick : Nat
  item : Nat
  deriving DecidableEq, Repr, Inhabited

/-- A shadow of a mirrored session on the standby (R295, R296). -/
structure Shadow where
  activeQ : Nat
  role : Nat
  mask : Nat
  grant : Nat
  credSerial : Nat
  carrier : Nat
  vf : Nat
  slot : Nat
  deriving DecidableEq, Repr, Inhabited

/-- The pair beside its registers (spec/15_redundant_pair.md). -/
structure PairUnit where
  /-- TICK of the last ALIVE_IN edge, and the judgement of ALIVE_IN (R282) -/
  lastEdge : Option Nat := none
  /-- TICK of the last change of OWN_IN -/
  ownInTick : Nat := 0
  /-- TICK at which READY was reached with the B module waiting (R285) -/
  waitTick : Option Nat := none
  /-- TICK at which the module asserted OWN_OUT -/
  ownTick : Nat := 0
  /-- lanes locked and HELLO exchanged: the link waits for its first WAGGLE -/
  helloOk : Bool := false
  helloSent : Bool := false
  nonceMine : List Byte := []
  linkKey : List Byte := []
  lastWaggle : Nat := 0
  downTick : Nat := 0
  fseqRx : Nat := 0
  badRun : Nat := 0
  /-- the bodies of the last WAGGLE sent and received (R292) -/
  wagSent : Option (List Byte) := none
  wagGot : Option (List Byte) := none
  /-- the frames sent at TICK `frameAt`, the latest so far (R288) -/
  frames : List HFrame := []
  frameAt : Nat := 0
  sent : List SentTxn := []
  staged : List StagedTxn := []
  /-- incomplete transactions on the standby (R300) -/
  partials : SMap Partial := []
  /-- the first TSEQ since link-up, or of the last RESYNC sequence (R299) -/
  base : Nat := 1
  shadows : SMap Shadow := []
  /-- TICK of the swarm, while shadows wait to be bound (R305) -/
  resumeFrom : Option Nat := none
  /-- digest samples the active has not sent (R293), and the standby's own digests with their TICK -/
  samples : List Sample := []
  myDigests : List (Nat × Sample) := []
  waitSamples : List (Nat × Sample) := []
  sampRx : Nat := 0
  sampMatch : Nat := 0
  misses : Nat := 0
  /-- TICK of the last HEALTH_REQ sent, and one received that waits for the end of a move (R306) -/
  reqTick : Option Nat := none
  reqHeld : Option HealthReqIn := none
  /-- health of the interval: report number, checks, latest report -/
  reportNum : Nat := 0
  ledgerNak : Bool := false
  stale : Bool := false
  syncing : Bool := false
  report : List Byte := []
  reportNs32 : Nat := 0
  silentPosted : Bool := false
  /-- SEQ of the active's last LEDGER_HEAD (R297) -/
  ledgerHead : Nat := 0
  /-- an ENROL_OFFER was sent for session q at TICK (R294) -/
  enrol : Option (Nat × Nat) := none
  /-- the PAIR_ENROL certificate names this identity public key and digest -/
  enrolKey : List Byte := []
  enrolId : List Byte := []
  /-- the last control frame sent: subtype, TSEQ, words -/
  ctlOut : Option (Nat × Nat × List Nat) := none
  /-- overrun periods counted since the last report -/
  overruns : Nat := 0
  /-- FSEQ of the next frame sent -/
  fseqTx : Nat := 0
  /-- main taps written and not yet in force: lane, TICK of its next alignment marker, MAIN (R290) -/
  taps : List (Nat × Nat × Nat) := []
  /-- the PRBS checkers, by lane (R289) -/
  prbs : SMap Prbs := []
  /-- the rejoin of this link-up has begun -/
  rejoined : Bool := false
  /-- levels of the pins ALIVE_IN and OWN_IN -/
  aliveIn : Bool := false
  ownIn : Bool := false
  /-- a role decision held before READY, and a position conflict until POR_N -/
  conflict : Bool := false
  deriving DecidableEq, Repr, Inhabited

/-- A lane, by element index (spec/03_drive_and_sense.md, spec/04_holding_loops.md): the fields of LANE_SP, LANE_EST,
LANE_INT, LANE_DF, LANE_STAT and LANE_CNT, which have their home here, and what the rules hold beside them. -/
structure Lane where
  /-- LANE_STAT: STATE, PARK_CAUSE and its flags; FE_TIMER -/
  st : Nat := 0
  cause : Nat := 0
  degraded : Bool := false
  satHi : Bool := false
  satLo : Bool := false
  hv : Bool := false
  feTrip : Bool := false
  ovrTrip : Bool := false
  lowsig : Bool := false
  stale : Bool := false
  feTimer : Nat := 0
  /-- LANE_CNT -/
  skip : Nat := 0
  consec : Nat := 0
  frozen : Nat := 0
  /-- LANE_SP, LANE_EST, LANE_INT, LANE_DF -/
  sp : Nat := 0
  phiEst : Nat := 0
  err : Int := 0
  integ : Int := 0
  df : Int := 0
  /-- R70: prime count (PRIMED is 2) and phi_prev -/
  primeCnt : Nat := 0
  phiPrev : Nat := 0
  /-- last committed code, the code before it, and TICK of the commit (R24, R45 rank 6) -/
  committed : Nat := 0x2000
  before : Nat := 0x2000
  commitTick : Nat := 0
  /-- no valid calibration has been brought into force since the lane left OFF or its VALID was lost (R77, R84) -/
  uncal : Bool := true
  /-- a CAL_APPLY brought valid calibration into force while the lane stood in UNCAL (R77) -/
  validated : Bool := false
  /-- park by a plan-gate item, and that a tenant session made it (R121, R264) -/
  planPark : Bool := false
  byTenant : Bool := false
  /-- a cell lane still parked by DRV_CLR_N after its rise: leaves at the first boundary from this TICK (R48) -/
  clearUntil : Option Nat := none
  /-- fault park of this lane (R72, R80, R314) -/
  faultPark : Bool := false
  /-- a release written in FLT_REL waits for the next boundary (R315) -/
  release : Bool := false
  /-- cell lanes on whose behalf this gate is fault-parked (R119), and a fault park issued at a break under a hold (R120) -/
  forced : List Nat := []
  holdPark : Bool := false
  /-- a gate lane kept parked after its park was withdrawn: the cause it keeps (R77); 0 = none -/
  kept : Nat := 0
  /-- the park code latched when the lane came under rank 2 (R46) -/
  latched : Option Nat := none
  /-- the code held under rank 3, and the state the lane had: 1 UNCAL, 2 PARKED, 0 other (R84) -/
  held : Option Nat := none
  heldFrom : Nat := 0
  /-- in a move: signed start and Δφ (R114); a gate of an affected output steps -/
  phi0 : Int := 0
  dphi : Int := 0
  stepped : Bool := false
  /-- code formed by the profile unit at the last move strobe -/
  moveCode : Nat := 0
  /-- waits for its post-move iteration since this TICK (R78), and the count PSEQ of the period in which the move ended -/
  postMove : Option Nat := none
  postSeq : Nat := 0
  /-- HOLD_NO_PILOT since this TICK (R83) -/
  holdSince : Nat := 0
  /-- served in this period (R80) -/
  served : Bool := false
  /-- state to which a calibration returns, coded as STATE (R96) -/
  calFrom : Nat := 0
  /-- its readings of this period have been accumulated (R91) -/
  accDone : Bool := false
  /-- the procedure was abandoned for this lane (R96) -/
  abandoned : Bool := false
  /-- a faulted cell lane holds its code until 64 ns after the gates of its circuits are parked (R119) -/
  waits : Bool := false
  /-- released by a make while NO_PILOT was set: the gate leaves PARKED once it is clear (R77, R83) -/
  remake : Bool := false
  /-- a gate lane that a safety park or DRV_CLR_N has parked: only an unpark releases it (R48, R77, R328) -/
  needsUnpark : Bool := false
  /-- calibration in progress (R92, R93): OFS_B, OFS_C, OFS_Q as measured; sums of tap values over the current point; sums of
  the completed points; the fine minimum of EXT, which VPI uses -/
  calOfs : List Int := []
  acc : List Int := []
  points : List (List Int) := []
  calMin : Option Int := none
  deriving DecidableEq, Repr, Inhabited

/-- What a lane's DAC converted at the last strobe: DAC_OUT.CODE and SRC (R45). -/
structure Dac where
  code : Nat := 0
  src : Nat := 0
  deriving DecidableEq, Repr, Inhabited

/-- One procedure of a comb (R90 to R98): 1 EXT, 2 VPI, 3 QUAD, 4 SADC; the lanes it was asked for. -/
structure Proc where
  kind : Nat
  lanes : List Nat
  deriving DecidableEq, Repr, Inhabited

/-- A conversion in progress (R52 to R57): the entry it serves, as configured, what it converts, whether it is urgent, the
period count and REF_UNSET of its start; the half-tick at which its slot ends (a slot is 125 half-ticks), and the reference
and the ADC's offset and gain in force when it started (R58, R101). -/
structure Conv where
  entry : Nat
  input : Nat
  gain : Nat
  urgent : Bool
  pseq : Nat
  unset : Bool
  ends : Nat := 0
  ref : Nat := 0
  ofs : Int := 0
  scale : Nat := 0x8000
  deriving DecidableEq, Repr, Inhabited

/-- A machine check (R142): kind, µPC, nanoword address, lowest failing byte lane, several byte lanes. -/
structure MCheck where
  kind : Nat
  upc : Nat
  nano : Nat
  byte : Nat
  multi : Bool
  deriving DecidableEq, Repr, Inhabited

/-- A comb engine within a routine (R131, R132, R138 to R141): scratch S0 to S15, ACC, loop counter, read data, CZ, snapshot,
flags, the usability of the last three sense reads, return stack, commit buffer (lane or 64 for comb words, word, data),
restart address; the steps executed, their effective classes and the EV pulses they gave; what the routine has come to: a COMMIT
just executed with the writes it applies, a COMMIT reached, the last one reached, steps left of its epilogue, waiting for a strobe,
a machine check, ended. -/
structure Engine where
  upc : Nat
  lane : Nat
  regs : List Int := List.replicate 16 0
  acc : Int := 0
  lc : Nat := 0
  lmd : Int := 0
  srd : Int := 0
  gain : Nat := 0
  cz : Int := 0
  snap : List Int := List.replicate 10 0
  zero : Bool := false
  neg : Bool := false
  sat : Bool := false
  user : Bool := false
  usable : List Bool := []
  holdsrc : Bool := false
  stack : List Nat := []
  buf : List (Nat × Nat × Int) := []
  restart : Option Nat := none
  steps : Nat := 0
  classes : List Nat := []
  events : List Nat := []
  last : Nat := 0
  hit : Bool := false
  out : List (Nat × Nat × Int) := []
  committed : Bool := false
  final : Bool := false
  epi : Nat := 0
  waits : Bool := false
  check : Option MCheck := none
  done : Bool := false
  deriving DecidableEq, Repr, Inhabited

/-- A coefficient set with the output limits, as an iteration snapshots them (R73). -/
structure Coeffs where
  kp : Int
  ki : Int
  kd : Int
  alpha : Int
  iMin : Int
  iMax : Int
  feLim : Int
  feTime : Nat
  codeMin : Int
  codeMax : Int
  deriving DecidableEq, Repr, Inhabited

/-- What an iteration takes as it starts (R66, R73): per tap the word of its result register and whether the reading is fresh, and the
coefficients. -/
structure IterIn where
  taps : List (Option (Word × Bool))
  coeffs : Coeffs
  deriving DecidableEq, Repr, Inhabited

/-- A routine in progress: its vector, its lane, the engine, the tick of the strobe it waits for (WAIT 0x1), and that an event
waits for its epilogue to end (R137, R139, R141); what it took as it was dispatched; the actions then in force on the comb; and, while
an event waits, the states LANE_STAT still shows, by lane. -/
structure Run where
  vec : Nat
  lane : Nat
  eng : Engine
  inp : IterIn
  wake : Nat := 0
  cut : Bool := false
  scopes : List Bool := []
  shown : List (Nat × Nat) := []
  deriving DecidableEq, Repr, Inhabited

/-- A comb beside its registers (spec/03_drive_and_sense.md, spec/04_holding_loops.md, spec/05_calibration.md,
spec/07_comb_engine_microcode.md). -/
structure Comb where
  /-- TICK of the next boundary; 0 while none is due -/
  boundary : Nat := 0
  /-- PERIOD was written since the last boundary (R79) -/
  periodSet : Bool := false
  /-- a boundary has passed since the last PROLOGUE (R137) -/
  prologue : Bool := false
  /-- comb hold for KIND 0x1 (R143) and for KIND 0x4 (R314), and a release of the latter that waits for the boundary -/
  holdMc : Bool := false
  holdPar : Bool := false
  release : Bool := false
  /-- the hold of R83 is in force for this comb -/
  npHold : Bool := false
  /-- a pilot switch window or NO_PILOT span has overlapped this period (R38) -/
  overlap : Bool := false
  /-- TICKs of the machine checks of the last 60 s (R143), and Gwynique gave up -/
  checks : List Nat := []
  gaveUp : Bool := false
  /-- a restart item waits for the next boundary (R143) -/
  restart : Bool := false
  /-- the stored words (with their parity bits, R129) that differ from the composed image with fresh check bits, by
  4096 × store + address: the stores are written from that image alone, and an armed injection inverts check bits (R318) -/
  stored : SMap Nat := []
  /-- the routine in progress; restart addresses by routine, for CAL_FIT by its lane too (R140); TICK to which the dispatcher
  pauses (R135) -/
  run : Option Run := none
  resume : SMap Nat := []
  pause : Nat := 0
  /-- a commanded item or calibration command has arrived and has not been taken (R137) -/
  cmd : Bool := false
  /-- vectors of the comb routines abandoned for a bad word in this period: not dispatched again in it (R314) -/
  barred : List Nat := []
  /-- the copied sequences: input and gain of each entry, ADC A and ADC B (R53) -/
  seqA : List (Nat × Nat) := []
  seqB : List (Nat × Nat) := []
  lenA : Nat := 0
  lenB : Nat := 0
  /-- conversions in progress -/
  curA : Option Conv := none
  curB : Option Conv := none
  /-- the next entry of the copied sequence to be converted in this period -/
  posA : Nat := 0
  posB : Nat := 0
  /-- pending urgent requests, by input (R56) -/
  urgA : List Nat := []
  urgB : List Nat := []
  /-- the sense reference in force, and TICK at which it settles -/
  refSel : Nat := 0
  refAt : Nat := 0
  /-- the procedures not yet ended, the running one first; its AVG; periods of the
  current point done -/
  procs : List Proc := []
  avg : Nat := 64
  accums : Nat := 0
  /-- the blanked periods of an extremum sweep are done (R92) -/
  blanked : Bool := false
  /-- the self-calibration of the sense ADCs has run its segment of this period -/
  segDone : Bool := false
  /-- what CAL_ACC did in this period: 0 nothing, 1 accumulated, 2 completed a point, 3 completed the blanked periods (R91) -/
  accHow : Nat := 0
  /-- conversions started in this period, per ADC -/
  startedA : Nat := 0
  startedB : Nat := 0
  /-- its sums: blanked and calibration-current results of ADC A, then of ADC B (R93) -/
  sadcSums : List Int := []
  /-- taken lanes that enter CALIBRATING at the next boundary (R90) -/
  taking : List Nat := []
  /-- lanes whose fit segment of the running procedure is done -/
  fitted : List Nat := []
  /-- a CAL_APPLY was copied while the engine did not run: its state changes wait for PROLOGUE (R100) -/
  applied : Bool := false
  deriving DecidableEq, Repr, Inhabited

/-- An output's OUT_STAT entry (R118), OUT_VSTAT.CHG, and the cause for which its circuit is withheld (R120): 0 none,
1 safety, 2 fault. -/
structure Out where
  input : Nat := 0
  st : Nat := 0
  gen : Nat := 0
  chg : Nat := 0
  withheld : Nat := 0
  deriving DecidableEq, Repr, Inhabited

/-- A plan slot that is COMPILED (R110): one output word per output, and the GENERATION of the last commit carried out
with it since it was written. The set-points follow from the factory record (R106). -/
structure Slot where
  words : List Nat
  carried : Option Nat
  deriving DecidableEq, Repr, Inhabited

/-- An accepted commit that has not yet made (R115 to R123). -/
structure Commit where
  id : Nat
  words : List Nat
  /-- 0 mailbox, 1 schedule, 2 CSP -/
  path : Nat
  tBreak : Nat
  tMake : Nat
  /-- T_make in domain time: whole ns and FRAC8, as formed at acceptance -/
  makeNs : Nat
  makeFrac : Nat
  /-- D_s in ns, the largest |Δφ| in pu, T in 2⁻³² ns, and MOVE_LIM as read at acceptance -/
  ds : Nat
  dmax : Nat
  lim : Word
  collateral : Nat
  /-- compare unit that times its break (R161) -/
  unit : Nat
  /-- SEQ of its COMMIT entry -/
  seq : Nat
  /-- a paired strike that waits for the standby until this TICK (R124) -/
  ackBy : Option Nat := none
  /-- 0 accepted, 1 broken, 2 moving, 3 moved -/
  phase : Nat := 0
  /-- fixed at the break: affected outputs, withheld lanes, attenuation-only outputs, outputs whose circuit is not made -/
  affected : List Nat := []
  withheld : List Nat := []
  attOnly : List Nat := []
  notMade : List Nat := []
  /-- next profile strobe -/
  strobe : Nat := 0
  /-- a resynchronisation's forced GENERATION (R308) -/
  setGen : Option Nat := none
  deriving DecidableEq, Repr, Inhabited

/-- A park or unpark accepted and not yet at its instant (R121, R237): `q` = 0xffff for one the standby carries out. -/
structure ParkItem where
  output : Nat
  unpark : Bool
  tenant : Bool
  tick : Nat
  q : Nat
  role : Nat
  deriving DecidableEq, Repr, Inhabited

/-- A loaded schedule list (R126 to R128). -/
structure Sched where
  entries : List (Nat × Nat)
  baseSec : Nat
  baseNs : Nat
  /-- in 8 ns units -/
  cycle : Nat
  /-- whole ns of the stamping domain from which the entry times of the next pass count, and its number -/
  passNs : Nat
  pass : Nat
  /-- next entry to be armed, and the sum of the HOLDs before it in 8 ns units -/
  next : Nat
  offset : Nat
  /-- the part of `passNs` below a nanosecond, in 2⁻³² ns: a late one-pass list counts from a strobe -/
  passFrac : Nat
  deriving DecidableEq, Repr, Inhabited

/-- The base a compile takes when it starts (R107, R111, R237): its output words, whether BASE named a slot, NOT_CARRIED,
GENERATION. -/
structure Base where
  words : List Nat
  named : Bool
  notCarried : Bool
  gen : Nat
  deriving DecidableEq, Repr, Inhabited

/-- A compile taken and not yet ended (R237): the session, the slot, the port list, NO_COLLATERAL as it stood when the
compile was taken, the base once it has started, and where its report goes. -/
structure Compile where
  q : Nat
  id : Nat
  list : List Byte
  noColl : Bool
  base : Option Base
  repAddr : Nat
  repLen : Nat
  deriving DecidableEq, Repr, Inhabited

/-- The plan executor and Gwynique's plan state beside the registers (spec/06_reconfiguration.md). -/
structure PlanUnit where
  slots : SMap Slot := []
  /-- the plan in force: its output words (none = every output dark, no filler), and the slot it came from -/
  inForce : List Nat := []
  forceId : Nat := 0
  commits : List Commit := []
  parks : List ParkItem := []
  compiles : List Compile := []
  sched : Option Sched := none
  /-- a running list that a load replaces, and the instant in 2⁻³² ns at which the new list starts (R128) -/
  oldSched : Option (Sched × Nat) := none
  /-- GO_OK stays clear until this TICK (R124), and is held clear by a warm reset (R254) -/
  goHold : Nat := 0
  goStop : Bool := false
  /-- T_make of the last make: NS32, FRAC8 (R251) -/
  lastMake : Nat := 0
  lastFrac : Nat := 0
  /-- fault parks due at a TICK: cell lanes that wait 64 ns after their gates (R119) -/
  parkDue : List (Nat × Nat) := []
  deriving DecidableEq, Repr, Inhabited

/-- The circuit status port (spec/13_circuit_status_port.md): each output word and the set of device words as the copy that reads use
has them, and the other copy where it has been published and not yet taken, with the edges of CSP_CLK since (R252); the island's copy of
GO_OK; CSP_GO and CSP_ACK. -/
structure Csp where
  outs : SMap Nat := []
  dev : List Nat := [0, 0, 0, 0, 0, 0, 0]
  outsNext : SMap (Nat × Nat) := []
  devNext : Option (List Nat × Nat) := none
  goOk : Bool := false
  /-- the hub's GO_OK, TICK at which it last changed, edges of CSP_CLK since (R254), and the plan that was armed when it last stood set -/
  goHub : Bool := false
  goTick : Nat := 0
  goEdges : Nat := 0
  goPlan : Option Nat := none
  /-- TICK of the last CSP_CLK edge; CSP_GO as sampled at it and at the edge before; CSP_ACK (R253) -/
  clk : Option Nat := none
  goNow : Bool := false
  goPrev : Bool := false
  ack : Bool := false
  deriving DecidableEq, Repr, Inhabited

/-- A CAL_APPLY accepted and not yet complete (R99, R100): the session whose command waits (0xffff = none), T_a as a tick
and as NS32 and FRAC8, the combs that have not applied, and how many have. -/
structure ApplyItem where
  q : Nat
  tick : Nat
  ns32 : Nat
  frac8 : Nat
  combs : List Nat
  done : Nat
  deriving DecidableEq, Repr, Inhabited

/-- A CAL_RUN whose procedures have not all ended (R90, R98): the combs still at work, FULL with its group and the TICK at
which that group's sweeps begin, APPLY, the owner session that issued it, AVG. -/
structure RunItem where
  combs : List Nat
  full : Bool
  group : Nat
  settle : Nat
  apply : Bool
  q : Nat
  avg : Nat
  deriving DecidableEq, Repr, Inhabited

/-- Calibration beside the registers (spec/05_calibration.md). -/
structure CalUnit where
  applies : List ApplyItem := []
  runs : List RunItem := []
  deriving DecidableEq, Repr, Inhabited

/-- What Gwynique reported last of a source (R317): TICK and COUNT at the last entry; a report it still owes. -/
structure Reported where
  tick : Nat := 0
  count : Nat := 0
  owed : Bool := false
  deriving DecidableEq, Repr, Inhabited

/-- The fault and thermal units beside their registers (spec/16_faults_and_thermal.md). -/
structure FltUnit where
  reports : SMap Reported := []
  /-- assertions counted of a source since its capture that no read of COUNT takes away -/
  totals : SMap Nat := []
  /-- armed injections: source, sub, HOST_ONLY -/
  inj : List (Nat × Nat × Bool) := []
  /-- parameter SRAM words held with inverted check bits, by register address (R318) -/
  badWords : List Nat := []
  /-- other words held with inverted check bits: source, and the ledger SEQ, plan slot, output, session or commit they belong to (R318) -/
  badItems : List (Nat × Nat) := []
  /-- TICK of the capture that FLT_GSTAT.FIRST names (R316) -/
  firstAt : Option Nat := none
  /-- some valid sensor read 120.0 °C or more at the last conversion -/
  hot : Bool := false
  /-- thermal shutdown in force, and the TICK since which every photonic-die sensor has read below 100.0 °C -/
  shutdown : Bool := false
  coolSince : Option Nat := none
  deriving DecidableEq, Repr, Inhabited

/-- The laser-safety block beside its registers (spec/17_laser_safety.md): which inputs passed the latest test pulse, and
which failed it. -/
structure SafeUnit where
  passed : Contacts := ⟨false, [false, false, false, false], [false, false], none⟩
  /-- inputs that the latest pulse judged and failed -/
  failed : Contacts := ⟨false, [false, false, false, false], [false, false], none⟩
  /-- feedback inputs whose level has been read since POR_N -/
  kfbSeen : List Bool := [false, false]
  /-- demands in force: ESTOP_N, and the guards -/
  estop : Bool := false
  guards : List Bool := [false, false, false, false]
  /-- the all-gates park of an emergency stop or of LOCKOUT, and the panels parked by guards (bit per panel) -/
  allGates : Bool := true
  panels : Nat := 0
  /-- TICK of the last change of SO, while the feedback has not followed (R329) -/
  soChange : Option Nat := none
  /-- TICK of the last demand recognised (R334) -/
  demandTick : Option Nat := none
  /-- configuration words on their way into the block, and status words on their way out: TICK of the change, TICK from which
  the other side has the word, the word (R23); the first entry is what the other side has now -/
  cfgWay : List (Nat × Nat × Word) := []
  statWay : List (Nat × Nat × Word) := []
  /-- SAFETY entries Gwynique has not yet written: second, ns, body (R333) -/
  owed : List (Nat × Nat × List Byte) := []
  deriving DecidableEq, Repr, Inhabited

/-- Start, reset and pin state beside the registers (spec/19_power_boot_reset.md, spec/21_electrical_and_package.md). -/
structure BootUnit where
  /-- POR_N, SYS_RST_N and PERST_N low -/
  porLow : Bool := true
  sysLow : Bool := false
  perstLow : Bool := false
  /-- TICK of t0 -/
  t0 : Nat := 0
  /-- a start is over: Gwynique runs (stage 4 ended) -/
  gwq : Bool := false
  recovery : Bool := false
  selfCal : Bool := false
  /-- Gwynique has to issue the CAL_RUN of SELF_CAL again once PROC_ANY is clear (R362) -/
  calOwed : Bool := false
  /-- PAIR_POS and CSP_EN as sampled at POR_N -/
  posB : Bool := false
  cspEn : Bool := false
  /-- a warm reset waits for the commands taken (R247, R362); it runs since this TICK -/
  warmDue : Bool := false
  warm : Option Nat := none
  /-- POR_N was released with SYS_RST_N low: it governs the start that follows (R363) -/
  porPend : Bool := false
  /-- a CAL_APPLY of this start has completed (R351) -/
  applied : Bool := false
  /-- ALIVE_OUT: level, TICK of its next change -/
  alive : Bool := false
  aliveAt : Option Nat := none
  /-- a FATAL supply source opened every switch (R347) -/
  cut : Bool := false
  /-- DRV_CLR_N, the enable ramp: TICK at which it ends -/
  rampEnd : Option Nat := none
  /-- VDD_AON is absent -/
  dead : Bool := false
  /-- composed microcode: 0 = baseline, else 1 + bank; the words the bank's records overwrote in the retained image (R145) -/
  mcImage : Nat := 0
  mcLevel : Nat := 0
  mcPatch : Nat := 0
  mcMicro : SMap Nat := []
  mcNano : SMap Nat := []
  /-- ports whose sealed digest key has been in force since POR_N (R174) -/
  keyed : List Nat := []
  /-- a warm reset stopped a schedule list: the body of its SCHED_STOP entry, not yet written (R362) -/
  warmStop : Option (List Byte) := none
  /-- measurements of the start: L1 level and digest, L2 (R267) -/
  gwqLevel : Nat := 0
  gwqDigest : List Byte := []
  mcDigest : List Byte := []
  deriving DecidableEq, Repr, Inhabited

/-- Pilot selector beside its registers (R37 to R39). -/
structure PilotUnit where
  /-- TICK at which the open switch window closes -/
  windowEnd : Option Nat := none
  /-- a capture of the references was requested -/
  recapture : Bool := false
  /-- a SWITCH waits for the end of its tick (R37) -/
  switch : Bool := false
  deriving DecidableEq, Repr, Inhabited

/-- The housekeeping ADC beside its registers (R61): the reference in force, the TICK at which it settles, the TICK at which the
scan in progress ends, and, since the last 1 ms average of PILOT_A and PILOT_B, the sum of the scans' voltages of channels 26 and 27 in
microvolts with their number (R62). -/
structure HkUnit where
  ref : Nat := 0
  settleAt : Nat := 0
  scanEnd : Nat := 0
  sumA : Nat := 0
  sumB : Nat := 0
  scans : Nat := 0
  deriving DecidableEq, Repr, Inhabited

/-- A comb engine beside its registers: MC_STAT.UPC, and the STEP counter with its SAT (R343). -/
structure Eng where
  upc : Nat := 0
  steps : Nat := 0
  sat : Bool := false
  deriving DecidableEq, Repr, Inhabited

/-- The upper words latched by a read of a low word, per view and address (R151, R346). -/
abbrev Latches := SMap Nat

/-- The control plane and the always-on units beside their registers. -/
structure Ctl where
  lanes : SMap Lane := []
  dacs : SMap Dac := []
  combs : SMap Comb := []
  outs : SMap Out := []
  plan : PlanUnit := {}
  csp : Csp := {}
  cal : CalUnit := {}
  flt : FltUnit := {}
  safe : SafeUnit := {}
  boot : BootUnit := {}
  pilot : PilotUnit := {}
  hk : HkUnit := {}
  eng : SMap Eng := []
  latches : Latches := []
  deriving DecidableEq, Repr, Inhabited

/-- A transaction on the hub bus matrix (R335, R339): MASTER code, an inbound BAR access of the PCIe master, write or read,
address, bytes, a comb's notice, and a write of the ledger ring, wherever that lies. -/
structure BusReq where
  master : Nat
  bar : Bool
  write : Bool
  addr : Nat
  len : Nat
  notice : Bool := false
  ring : Bool := false
  deriving DecidableEq, Repr, Inhabited

/-- A transaction that waits at a target: the QoS it was issued with, TICK at which it reached the target as a head, arbitrations
lost, and that these reached AGE_LIMIT: its effective QoS is 15 until it is granted (R340). -/
structure BusHead where
  req : BusReq
  target : Nat
  qos : Nat
  arrive : Nat
  losses : Nat
  raised : Bool := false
  deriving DecidableEq, Repr, Inhabited

/-- The hub bus matrix beside its registers (R339 to R342): heads at the targets, transactions behind them, oldest first, per
target the TICK until which it serves a grant, pending executor reads by tile, notices pending by comb, and per tile the comb
served last. -/
structure Bus where
  heads : List BusHead := []
  behind : List BusHead := []
  busy : SMap Nat := []
  execs : List (Nat × BusReq) := []
  notices : SMap Nat := []
  turn : SMap Nat := []
  deriving DecidableEq, Repr, Inhabited

/-- The module. Registers of PF0 BAR0 stand in `regs` by byte offset, those of the window VFn keeps of its own at
0x1000000 × n + its offset; an unlisted register reads its reset value. -/
structure State where
  variant : Variant
  /-- how many open values have been drawn (the model's own; see Config.free) -/
  free : Nat
  /-- the 64-bit TICK counter (R16) -/
  tick : Nat
  regs : SMap Word
  time : TimeUnit
  host : HostIf
  exp : ExportEng
  led : Ledger
  flash : Flash
  pair : PairUnit
  ctl : Ctl
  bus : Bus
  /-- what the last read command returned -/
  readData : Nat
  pending : List Instr
  deriving DecidableEq, Repr

/-- Why the block stops. No command of this hardware ends in a fault: the type is empty of causes the spec gives. -/
inductive Fault where
  deriving DecidableEq, Repr

/-- Why a command is refused. -/
inductive Refusal where
  /-- raised by exec's arm of a command that has no meaning yet; safe -/
  | notModelled (mnemonic : String)
  deriving DecidableEq, Repr

/-- The block as POR_N holds it low. -/
def State.reset : State where
  variant := .t512
  free := 0
  tick := 0
  regs := []
  time := {}
  host := {}
  exp := {}
  led := {}
  flash := {}
  pair := {}
  ctl := {}
  bus := {}
  readData := 0
  pending := []

end Sys2Proof.Machine
end

