-- ==== Sys2Proof/Machine/Ops.lean ====
section
/-! DEFINITION. The named operations every meaning is written with: what a variant has, registers and their fields,
the bridge access of R367 to R369, free values, time of a domain, sessions. -/

namespace Sys2Proof.Machine

/-- Shorthand for a next state. -/
def nxt (s : State) : Host.Outcome State Fault Refusal := .next s

/-! ## Variants (R2, R3, R19, R347, R376) -/

def Variant.isSmall : Variant → Bool
  | .t256 => true
  | _ => false

def numPorts (v : Variant) : Nat := if Variant.isSmall v then 256 else 512
def numCombs (v : Variant) : Nat := if Variant.isSmall v then 64 else 144
def numTiles (v : Variant) : Nat := if Variant.isSmall v then 2 else 4
def numElems (v : Variant) : Nat := if Variant.isSmall v then 4096 else 9216
def combsPerTile (v : Variant) : Nat := if Variant.isSmall v then 32 else 36
def combsPerGroup (v : Variant) : Nat := if Variant.isSmall v then 8 else 9
def numSlots : Variant → Nat
  | .t512 | .s512 | .t256 => 256
  | .c512 => 48
def variantCode : Variant → Nat
  | .t512 => 0
  | .s512 => 1
  | .c512 => 2
  | .t256 => 3

/-- Whether an optional unit is present (R3). -/
def hasUnit : Variant → OptUnit → Bool
  | .t512, _ => true
  | .t256, _ => true
  | .s512, u => u ≠ .pairU
  | .c512, u => u = .pairU || u = .mgmtU

def capUnits (v : Variant) : Nat :=
  (if hasUnit v .stampU then 1 else 0) + (if hasUnit v .exportU then 2 else 0) + (if hasUnit v .dramU then 4 else 0)
    + (if hasUnit v .pairU then 8 else 0) + (if hasUnit v .mgmtU then 16 else 0)

/-- CAP_DOMAINS with CSP_EN high (R376). -/
def capDomains : Variant → Nat
  | .t512 => 0xFFFFFFFF
  | .s512 => 0xEFFFFFFF
  | .c512 => 0x9FBEFBEF
  | .t256 => 0xFF000FFF

/-- Tile and comb group of a comb (R19). -/
def tileOf (v : Variant) (c : Nat) : Nat := c / combsPerTile v
def groupOf (v : Variant) (c : Nat) : Nat := (c % combsPerTile v) / combsPerGroup v

/-- The switched domain that powers a comb: 6t + k (R347, R373). -/
def combDomain (v : Variant) (c : Nat) : Nat := 6 * tileOf v c + groupOf v c

/-! ## Registers -/

/-- Default class of a fault source (R313): 0 = CORRECTED, 1 = CONTAINED, 2 = FATAL; none = not listed. -/
def faultDefault (n : Nat) : Option Nat :=
  if n < 0x90 then some 1
  else if n < 0x94 then some 0
  else if n < 0x98 then some 2
  else if n < 0x9C then some 1
  else if n < 0xA0 then some 2
  else if n = 0xA0 ∨ n = 0xA4 ∨ n = 0xA5 ∨ n = 0xA7 ∨ n = 0xA9 then some 1
  else if n = 0xA1 ∨ n = 0xA2 ∨ n = 0xA3 ∨ n = 0xA6 then some 2
  else if n = 0xA8 ∨ n = 0xAA ∨ n = 0xAB then some 0
  else if n = 0xB0 ∨ n = 0xB1 ∨ n = 0xB2 ∨ n = 0xB9 then some 1
  else if n = 0xB8 then some 0
  else if 0xC0 ≤ n ∧ n ≤ 0xC5 then some 2
  else if n = 0xD0 ∨ n = 0xD1 ∨ n = 0xD3 then some 0
  else if n = 0xD2 then some 2
  else if n = 0xD8 ∨ n = 0xD9 then some 1
  else if 0xE0 ≤ n ∧ n ≤ 0xE3 then some 1
  else if n = 0xF0 then some 2
  else if n = 0xF1 then some 1
  else none

/-- Reset values a source names and no number gives (R367), and those that differ by variant. -/
def resetSpecial (v : Variant) (a : Nat) (w : Word) : Word :=
  if a = Adr.DEV_ID then
    BitVec.ofNat 32 ((if Variant.isSmall v then 0xD256 else 0xD512) + 0xB0 * 2 ^ 16 + variantCode v * 2 ^ 24)
  else if a = Adr.CAP_UNITS then BitVec.ofNat 32 (capUnits v)
  else if a = Adr.CAP_SIZE then BitVec.ofNat 32 (numPorts v + numCombs v * 2 ^ 16 + numTiles v * 2 ^ 24)
  else if a = Adr.CAP_MEM then
    BitVec.ofNat 32 (numSlots v + (if Variant.isSmall v then 8 else if v = .c512 then 0 else 16) * 2 ^ 16)
  else if a = Adr.CAP_DOMAINS then BitVec.ofNat 32 (capDomains v)
  else if 0x20 ≤ a ∧ a < 0x30 then
    BitVec.ofNat 32 (ofLE ((List.range 4).map fun k => Config.serialByte (a - 0x20 + k)))
  else if a = Adr.EXP + 4 then (if Variant.isSmall v then 0x1800 else w)
  else if a = Adr.LEDGER_STAT + 0xC then (if hasUnit v .dramU then w else 0x200)
  else if a = Adr.SAFE_CFG then (if Variant.isSmall v then 0x333 else w)
  else if a = Adr.SAFE_STAT then
    if Variant.isSmall v then setBits (setBits w 18 4 3) 22 4 3 else setBits (setBits w 18 4 15) 22 4 15
  else if 0x101000 ≤ a ∧ a < 0x103000 ∧ a % 0x20 = 0 then
    BitVec.ofNat 32 (4 * (faultDefault ((a - 0x101000) / 0x20)).getD 0)
  else if 0x400000 ≤ a ∧ a < 0x640000 ∧ 0x3000 ≤ a % 0x4000 ∧ a % 0x4000 < 0x3400 then
    setBits w 0 7 ((a % 0x4000 - 0x3000) % 0x200 / 4)
  else w

/-- The block that holds address `a`, with the two indices and the field list of the word. -/
def lookupWord (a : Nat) : Option (Block × Nat × Nat × List FieldDesc) :=
  (if a < 0x200000 then hubBlocks else if a < 0x400000 then portBlocks
   else if a % 0x4000 < 0x1000 ∨ 0x3000 ≤ a % 0x4000 then combBlocks else laneBlocks).findSome? fun b =>
    (b.wordAt a).map fun r => (b, r)

/-- The word that a register holds at reset. -/
def resetWord (v : Variant) (a : Nat) : Word :=
  match lookupWord a with
  | none => 0
  | some (_, _, _, fs) => resetSpecial v a (resetOf fs)

/-- The word of register `a`. -/
def State.rd (s : State) (a : Nat) : Word := SMap.find (resetWord s.variant a) s.regs a

/-- The word of register `a` before the events of this instant (R370). -/
def State.rdBefore (s : State) (a : Nat) : Word :=
  match s.host.before with
  | some b => SMap.find (resetWord s.variant a) b.regs a
  | none => s.rd a

/-- The state with word `w` in register `a`. -/
def State.wr (s : State) (a : Nat) (w : Word) : State :=
  { s with regs := SMap.put (resetWord s.variant a) s.regs a w }

/-- A field of the register block at `b`. -/
def State.get (s : State) (b : Nat) (f : Field) : Nat := getBits (s.rd (b + f.off)) f.lo f.width

/-- A one-bit field, as a truth value. -/
def State.flag (s : State) (b : Nat) (f : Field) : Bool := s.get b f != 0

/-- The state with `n` in a field of the register block at `b`. -/
def State.put (s : State) (b : Nat) (f : Field) (n : Nat) : State :=
  s.wr (b + f.off) (setBits (s.rd (b + f.off)) f.lo f.width n)

/-- The state with a one-bit field set or clear. -/
def State.putFlag (s : State) (b : Nat) (f : Field) (x : Bool) : State := s.put b f (if x then 1 else 0)

/-- A count that stops at the largest value its field holds. -/
def State.count (s : State) (b : Nat) (f : Field) (n : Nat) : State :=
  s.put b f (min (2 ^ f.width - 1) (s.get b f + n))

/-- A count that wraps. -/
def State.countWrap (s : State) (b : Nat) (f : Field) (n : Nat) : State := s.put b f (s.get b f + n)

/-- A 64-bit value in two words. -/
def State.putPair (s : State) (b : Nat) (lo hi : Field) (n : Nat) : State :=
  (s.put b lo n).put b hi (n / 2 ^ 32)

def State.getPair (s : State) (b : Nat) (lo hi : Field) : Nat := s.get b lo + 2 ^ 32 * s.get b hi

/-- The registers whose addresses satisfy `p` take their reset values. -/
def State.resetRegs (s : State) (p : Nat → Bool) : State := { s with regs := SMap.drop p s.regs }

/-! ## Power of a register's domain (R4, R373, R374) -/

/-- Whether switched domain `n` is powered: PWR_STAT.PG (R347). -/
def State.powered (s : State) (n : Nat) : Bool := (s.get Adr.PWR_STAT Fl.PWR_STAT_PG).testBit n

/-- Whether the domain of a block's instance with first index `i` is powered. -/
def State.domOn (s : State) (d : DomKind) (i : Nat) : Bool :=
  match d with
  | .alwaysOn => true
  | .fixed n => s.powered n
  | .comb => s.powered (combDomain s.variant i)
  | .srx => s.powered (6 * (i / 128) + 4)
  | .tileCommon => s.powered (6 * (i / 128) + 5)

/-- Whether the instance with first index `i` of a block exists on the variant (R19, R365, R366). -/
def instanceOk (v : Variant) (d : DomKind) (i : Nat) : Bool :=
  match d with
  | .alwaysOn | .fixed _ => true
  | .comb => decide (i < numCombs v)
  | .srx | .tileCommon => decide (i < numPorts v)

/-- Instance `i` of a block lies in the window of a port the variant has, where it lies in a port window (R165, R366). -/
def portWindowOk (v : Variant) (b : Block) (i : Nat) : Bool :=
  decide (b.base < 0x200000 ∨ 0x240000 ≤ b.base ∨ i < numPorts v)

/-- Whether a register answers: its unit is present, its instance exists, its domain is powered; FLT_SRCn stands only for the sources
that R313 lists. -/
def State.live (s : State) (b : Block) (i : Nat) : Bool :=
  (match b.unit with | none => true | some u => hasUnit s.variant u) && instanceOk s.variant b.dom i && portWindowOk s.variant b i
    && s.domOn b.dom i && (b.base != 0x101000 || (faultDefault i).isSome)

/-! ## Free values -/

/-- The next open value, and the state in which it has been drawn. -/
def State.draw (s : State) : Nat × State := (Config.free s.free, { s with free := s.free + 1 })

/-- The identity digest: the first 32 bytes of the SHA-384 digest of the identity public key (R265). -/
def State.idDigest (s : State) : List Byte := (sha384 s.flash.keys.idPub).take 32

/-- A signature of the security core under the identity key: 96 bytes nobody can predict (R265). -/
def State.sign (s : State) : List Byte × State :=
  (tableBytes 96 (Config.sigByte s.flash.keys.idPriv s.free), { s with free := s.free + 1 })

/-! ## Time -/

def ticksPerUs : Nat := 625

/-- Spine ticks in `n` µs and in `n` ms. -/
def usTicks (n : Nat) : Nat := 625 * n
def msTicks (n : Nat) : Nat := 625000 * n

def TimeUnit.dom (t : TimeUnit) : Dom → Domain
  | .A => t.a
  | .B => t.b

def TimeUnit.setDom (t : TimeUnit) (d : Dom) (x : Domain) : TimeUnit :=
  match d with
  | .A => { t with a := x }
  | .B => { t with b := x }

def domIx : Dom → Nat
  | .A => 0
  | .B => 1

def ixDom (n : Nat) : Dom := if n = 0 then .A else .B
def otherDom : Dom → Dom
  | .A => .B
  | .B => .A

def Domain.ns32 (d : Domain) : Nat := (d.sec * 1000000000 + d.ns) % 2 ^ 32
def Domain.frac8 (d : Domain) : Nat := d.frac / 2 ^ 24
def Domain.frac16 (d : Domain) : Nat := d.frac / 2 ^ 16
/-- Whole nanoseconds since the domain's origin. -/
def Domain.total (d : Domain) : Nat := d.sec * 1000000000 + d.ns

/-- The base of a domain's registers. -/
def tdAdr (d : Dom) : Nat := Adr.TD (domIx d)

/-- The stamping domain (R154). -/
def State.sdom (s : State) : Dom := ixDom (s.get Adr.TIME_CTL Fl.TIME_CTL_STAMP_DOM)
def State.now (s : State) : Domain := s.time.dom s.sdom
def State.ns32 (s : State) : Nat := s.now.ns32
def State.frac8 (s : State) : Nat := s.now.frac8

/-- The TQ state of a domain (R155): 0 FREE, 1 ACQUIRING, 2 LOCKED, 3 HOLDOVER. -/
def State.tqOf (s : State) (d : Dom) : Nat := s.get (tdAdr d) Fl.TD_STATE
/-- The TQ bit of a stamp at this tick. -/
def State.tq (s : State) : Nat := if s.tqOf s.sdom = 2 then 1 else 0

/-- Domain time, in (seconds, ns), of the instant `n` ticks after now, at the domain's increment (2⁻³² ns exact, cut to
whole ns and FRAC32). -/
def Domain.after (d : Domain) (n : Nat) : Domain :=
  let t := d.frac + d.inc * n
  let whole := d.ns + t / 2 ^ 32
  { d with sec := (d.sec + whole / 1000000000) % 2 ^ 48, ns := whole % 1000000000, frac := t % 2 ^ 32 }

/-- Domain time since its origin, in 2⁻³² ns. -/
def Domain.exact (d : Domain) : Nat := d.total * 2 ^ 32 + d.frac

/-- Ticks from now until the domain's time reaches `t` (in 2⁻³² ns), at its increment; 0 when already reached. -/
def Domain.ticksTo (d : Domain) (t : Nat) : Nat := (t - d.exact + d.inc - 1) / d.inc

/-- Ticks from now until the domain's time reaches `ns` whole nanoseconds since its origin. -/
def Domain.ticksUntil (d : Domain) (ns : Nat) : Nat := d.ticksTo (ns * 2 ^ 32)

/-- The first strobe at or after tick `t` (R16). -/
def strobeAt (t : Nat) : Nat := (t + 4) / 5 * 5

/-! ## Views -/

/-- The address under which the model holds word `off` of the windows a VF view keeps of its own. -/
def vfAdr (v off : Nat) : Nat := 0x1000000 * v + off

/-- The base of the open window of a view (R211): its descriptor at +0x00, OPEN_CTL at +0x40, completion at +0x60. -/
def winBase (view : Nat) : Nat := if view = 0 then Adr.OPEN_DESC 0 else vfAdr view 0x80

/-! ## Sessions -/

def State.sess? (s : State) (q : Nat) : Option Sess := (s.host.sess.find? (fun e => e.1 == q)).map Prod.snd

def State.setSess (s : State) (q : Nat) (x : Sess) : State :=
  { s with host := { s.host with sess := SMap.insert s.host.sess q x } }

def State.dropSess (s : State) (q : Nat) : State :=
  { s with host := { s.host with sess := SMap.erase s.host.sess q } }

/-- The state with session `q` changed by `f`, where it exists. -/
def State.onSess (s : State) (q : Nat) (f : Sess → Sess) : State :=
  match s.sess? q with
  | some x => s.setSess q (f x)
  | none => s

def State.sessState (s : State) (q : Nat) : Nat := s.get (Adr.SESS q) Fl.SESS_STATE
def State.sessRole (s : State) (q : Nat) : Nat := s.get (Adr.SESS q) Fl.SESS_ROLE
def State.sessCarrier (s : State) (q : Nat) : Nat := s.get (Adr.SESS q) Fl.SESS_CARRIER

/-- The function a PCIe session runs over: 0 = PF0, n = VFn (R207). -/
def State.sessFn (s : State) (q : Nat) : Nat :=
  if s.sessCarrier q = 1 then s.get (Adr.SESS q) Fl.SESS_VF else 0

/-- The numbers of the sessions that are not CLOSED. -/
def State.sessIds (s : State) : List Nat := s.host.sess.map Prod.fst

/-- The port count as a grant of every port (R256). -/
def allPorts (v : Variant) : Nat := 2 ^ numPorts v - 1

/-- The ports a bitmap names, those above the variant's count taken as 0 (R227). -/
def portBits (v : Variant) (bs : List Byte) : Nat := ofLE (bs.take 64) % 2 ^ numPorts v

/-- How many bits of `n` below `w` are set. -/
def popCount (w n : Nat) : Nat := ((List.range w).filter fun i => n.testBit i).length

/-- Roles (R208): 1 owner, 2 tenant, 3 auditor. -/
def roleMask : Nat → Nat
  | 1 => 0x3F
  | 2 => 0x2F
  | 3 => 0x38
  | _ => 0

/-- A mask as a session of the role holds it (R255). -/
def maskFor (role m : Nat) : Nat := if role = 1 then 0x3F else m &&& roleMask role

/-- The pair role (R279): 0 unpaired, 1 active, 2 standby. -/
def State.role (s : State) : Nat := s.get Adr.PAIR_STAT Fl.PAIR_STAT_ROLE

/-- Gwynique runs: boot stage 6 has begun and no warm reset is in progress (R351, R362). -/
def State.has (s : State) (u : OptUnit) : Bool := hasUnit s.variant u

/-! ## Check bits (R318) -/

def State.setFlt (s : State) (x : FltUnit) : State := { s with ctl := { s.ctl with flt := x } }

/-- An injection armed for a checker that a write consumes; `host` for a write of the register bridge. -/
def FltUnit.armed (f : FltUnit) (source sub : Nat) (host : Bool) : Bool :=
  f.inj.any fun i => i.1 == source && i.2.1 == sub && (host || !i.2.2)

/-- The armed injection of a checker is consumed. -/
def FltUnit.consume (f : FltUnit) (source sub : Nat) : FltUnit :=
  { f with inj := f.inj.filter fun i => !(i.1 == source && i.2.1 == sub) }

/-- Item `key` behind the checker of source `n` written by the module itself: its check bits are good, or inverted where
the injection is armed. -/
def State.checkWrite (s : State) (n key : Nat) : State :=
  let f := s.ctl.flt
  if f.inj.isEmpty && f.badItems.isEmpty then s
  else
    let rest := f.badItems.filter fun i => !(i.1 == n && i.2 == key)
    if f.armed n 0 false then s.setFlt { f.consume n 0 with badItems := rest ++ [(n, key)] }
    else s.setFlt { f with badItems := rest }

/-- Item `key` of source `n` is held with inverted check bits. -/
def State.checkBad (s : State) (n key : Nat) : Bool := s.ctl.flt.badItems.contains (n, key)

/-- The item is rewritten or gone, with its bad check bits. -/
def State.checkClear (s : State) (n key : Nat) : State :=
  if s.checkBad n key then s.setFlt { s.ctl.flt with badItems := s.ctl.flt.badItems.erase (n, key) } else s

/-- What passes through the checker of source `n` at once, written and read: whether an armed injection inverted it. -/
def State.checkPass (s : State) (n : Nat) : Bool × State :=
  if s.ctl.flt.armed n 0 false then (true, s.setFlt (s.ctl.flt.consume n 0)) else (false, s)

/-- A record written through the checker of source `n`. -/
def State.checkRec (s : State) (n : Nat) (r : Rec) : Rec × State :=
  if s.ctl.flt.armed n 0 false then ({ r with bad := true }, s.setFlt (s.ctl.flt.consume n 0)) else ({ r with bad := false }, s)

end Sys2Proof.Machine
end

