-- ==== Sys2Proof/Machine/Counters.lean ====
section
/-! DEFINITION. Performance counters (spec/18_interconnect_and_counters.md R343, R344). -/

namespace Sys2Proof.Machine

/-- A count of `w` bits raised by `n`: it stops at all ones, and then SAT is set. -/
def satCount (w old n : Nat) : Nat × Bool := (min (2 ^ w - 1) (old + n), decide (2 ^ w - 1 ≤ old + n))

/-- Whether hub event `e` is TENANT_BEARING, and whether comb event `e` is. -/
def hubTenant (e : Nat) : Bool := decide (4 ≤ e ∧ e ≤ 15)
def combTenant (e : Nat) : Bool := (decide (1 ≤ e ∧ e ≤ 15)) || (decide (0x11 ≤ e ∧ e ≤ 0x14))

/-- Hub event `ev` happens `n` times: every enabled counter that selects it counts. -/
def State.hubEvent (s : State) (ev n : Nat) : State :=
  if n = 0 ∨ (s.regs.any fun e => decide (Adr.PERF_HC 0 ≤ e.1 ∧ e.1 < Adr.PERF_HC 8)) = false then s
  else
    (List.range 8).foldl (fun s i =>
      let b := Adr.PERF_HC i
      if s.flag b Fl.PERF_HC_EN && s.get b Fl.PERF_HC_EVENT == ev then
        let r := satCount 48 (s.getPair b Fl.PERF_HC_VAL_LO Fl.PERF_HC_VAL_HI) n
        let s := s.putPair b Fl.PERF_HC_VAL_LO Fl.PERF_HC_VAL_HI r.1
        if r.2 then s.putFlag b Fl.PERF_HC_SAT true else s
      else s) s

/-- A comb has a 64-byte notice to write to the notice ring (R335). -/
def State.notice (s : State) (c : Nat) : State :=
  { s with bus := { s.bus with notices := SMap.put 0 s.bus.notices c (SMap.find 0 s.bus.notices c + 1) } }

/-- Comb event `ev` happens `n` times in comb `c`; a counter that saturates gives a notice. -/
def State.combEvent (s : State) (c ev n : Nat) : State :=
  if n = 0 ∨ (s.regs.any fun e => decide (Adr.PC c 0 ≤ e.1 ∧ e.1 < Adr.PC c 4)) = false then s
  else
    (List.range 4).foldl (fun s k =>
      let b := Adr.PC c k
      if s.flag b Fl.PC_EN && s.get b Fl.PC_EVENT == ev then
        let r := satCount 32 (s.get b Fl.PC_VAL) n
        let s := s.put b Fl.PC_VAL r.1
        if r.2 && !s.flag b Fl.PC_SAT then (s.putFlag b Fl.PC_SAT true).notice c else s
      else s) s

/-- The same event in every comb of `cs`. -/
def State.combsEvent (s : State) (cs : List Nat) (ev n : Nat) : State :=
  cs.foldl (fun s c => s.combEvent c ev n) s

def State.engOf (s : State) (c : Nat) : Eng := SMap.find {} s.ctl.eng c
def State.setEng (s : State) (c : Nat) (x : Eng) : State := { s with ctl := { s.ctl with eng := SMap.insert s.ctl.eng c x } }

end Sys2Proof.Machine
end

