-- ==== Sys2Proof/Machine/Aead.lean ====
section
/-! DEFINITION. AES-256-GCM, by which the datagrams of an Ethernet session are encrypted and tagged
(spec/10_record_policing_and_export.md R199, spec/11_host_sessions_mailboxes.md R223). -/

namespace Sys2Proof.Machine

/-! ## The field of 2⁸ elements -/

/-- A byte times the polynomial x, reduced. -/
def byteTwice (a : Byte) : Byte := (a <<< 1) ^^^ (if a.getLsbD 7 then 0x1b else 0)

/-- The product of two bytes in the field. -/
def byteTimes (a b : Byte) : Byte :=
  (List.range 8).foldr (fun i r => byteTwice r ^^^ (if b.getLsbD i then a else 0)) 0

/-- The 254th power of a byte: its inverse, 0 for 0. -/
def byteInverse (a : Byte) : Byte :=
  let p := (List.range 6).foldl (fun p _ => byteTimes (byteTimes p p) a) a
  byteTimes p p

/-- The byte substitution of the cipher. -/
def aesSub (a : Byte) : Byte :=
  let v := byteInverse a
  ([1, 2, 3, 4].map v.rotateLeft).foldl (· ^^^ ·) (v ^^^ 0x63)

/-! ## The block cipher -/

def xorBytes (a b : List Byte) : List Byte := List.zipWith (· ^^^ ·) a b

/-- The round constant of the `i`-th group of eight key words. -/
def aesConst (i : Nat) : List Byte := [(List.range i).foldl (fun c _ => byteTwice c) 1, 0, 0, 0]

/-- The key words after the first eight, newest first: `n` more, the next of them numbered `i`. -/
def aesGrow : Nat → Nat → List (List Byte) → List (List Byte)
  | 0, _, l => l
  | n + 1, i, l =>
    let t := l.headD []
    let t := if i % 8 = 0 then xorBytes ((t.rotateLeft 1).map aesSub) (aesConst (i / 8 - 1))
      else if i % 8 = 4 then t.map aesSub else t
    aesGrow n (i + 1) (xorBytes (l.getD 7 []) t :: l)

/-- The fifteen round keys of a 32-byte key. -/
def aesKeys (key : List Byte) : List (List Byte) :=
  let w := (aesGrow 52 8 ((List.range 8).map fun i => fit 4 (key.drop (4 * i))).reverse).reverse
  (List.range 15).map fun r => ((w.drop (4 * r)).take 4).flatten

/-- Each byte of a block substituted and moved along its row by the row's number. -/
def aesMove (b : List Byte) : List Byte := (List.range 16).map fun i => aesSub (b.getD ((5 * i) % 16) 0)

/-- A column mixed. -/
def aesColumn (c : List Byte) : List Byte :=
  let all := c.foldl (· ^^^ ·) 0
  (List.range 4).map fun i => c.getD i 0 ^^^ all ^^^ byteTwice (c.getD i 0 ^^^ c.getD ((i + 1) % 4) 0)

def aesMix (b : List Byte) : List Byte := (List.range 4).flatMap fun i => aesColumn ((b.drop (4 * i)).take 4)

/-- One block of 16 bytes encrypted. -/
def aesBlock (keys : List (List Byte)) (b : List Byte) : List Byte :=
  let b := ((keys.drop 1).take 13).foldl (fun b k => xorBytes (aesMix (aesMove b)) k) (xorBytes b (keys.headD []))
  xorBytes (aesMove b) (keys.getD 14 [])

/-! ## Galois counter mode -/

abbrev W128 := BitVec 128

def block128 (b : List Byte) : W128 := BitVec.ofNat 128 (ofBE (fit 16 b))

/-- The product of two blocks in the field of 2¹²⁸ elements: bit 127 of a block is its lowest coefficient. -/
def hashTimes (x y : W128) : W128 :=
  ((List.range 128).foldl (fun (z, v) i =>
    (if x.getMsbD i then z ^^^ v else z, (v >>> 1) ^^^ (if v.getLsbD 0 then (0xe1 : W128) <<< 120 else 0))) (0, y)).1

/-- The 16-byte blocks of a string, the last padded with zeros. -/
def blocks16 (m : List Byte) : List (List Byte) := (List.range ((m.length + 15) / 16)).map fun i => fit 16 (m.drop (16 * i))

/-- The authentication hash of the associated data and the ciphertext. -/
def gcmHash (h : W128) (aad c : List Byte) : W128 :=
  (blocks16 aad ++ blocks16 c ++ [be 8 (8 * aad.length) ++ be 8 (8 * c.length)]).foldl
    (fun y b => hashTimes (y ^^^ block128 b) h) 0

/-- `m` under the key stream of a 12-byte nonce, whose counter starts at 2. -/
def gcmStream (keys : List (List Byte)) (nonce m : List Byte) : List Byte :=
  (((List.range ((m.length + 15) / 16)).flatMap fun i => xorBytes ((m.drop (16 * i)).take 16) (aesBlock keys (nonce ++ be 4 (i + 2)))))

/-- The 16-byte tag of a ciphertext. -/
def gcmTag (keys : List (List Byte)) (nonce aad c : List Byte) : List Byte :=
  let h := block128 (aesBlock keys (List.replicate 16 0))
  xorBytes (be 16 (gcmHash h aad c).toNat) (aesBlock keys (nonce ++ be 4 1))

/-- AES-256-GCM: the ciphertext of `m`, and its tag after it. -/
def gcmSeal (key nonce aad m : List Byte) : List Byte :=
  let keys := aesKeys key
  let c := gcmStream keys nonce m
  c ++ gcmTag keys nonce aad c

/-- The text of a ciphertext with its tag after it; none where the tag fails. -/
def gcmOpen (key nonce aad m : List Byte) : Option (List Byte) :=
  let keys := aesKeys key
  let c := m.take (m.length - 16)
  if 16 ≤ m.length ∧ m.drop (m.length - 16) = gcmTag keys nonce aad c then some (gcmStream keys nonce c) else none

end Sys2Proof.Machine
end

