-- ==== Sys2Proof/Machine/Ecc.lean ====
section
/-! DEFINITION. ECDSA over the NIST curve P-384 with SHA-384 (spec/14_secrecy_and_ledger.md R258, R265, R268,
spec/19_power_boot_reset.md R356), which the spec names by its public standard: points in Jacobian coordinates, and the verification of a
signature. -/

namespace Sys2Proof.Machine

/-- The field of the curve, its order, and the constant of its equation. -/
def ecP : Nat := 2 ^ 384 - 2 ^ 128 - 2 ^ 96 + 2 ^ 32 - 1
def ecN : Nat := 0xffffffffffffffffffffffffffffffffffffffffffffffffc7634d81f4372ddf581a0db248b0a77aecec196accc52973
def ecB : Nat := 0xb3312fa7e23ee7e4988e056be3f82d19181d9c6efe8141120314088f5013875ac656398d8a2ed19d2a85c8edd3ec2aef

/-- A point: x / z² and y / z³; z = 0 is the point at infinity. -/
structure EcPoint where
  x : Nat
  y : Nat
  z : Nat
  deriving DecidableEq, Repr

/-- The base point. -/
def ecBase : EcPoint := ⟨0xaa87ca22be8b05378eb1c71ef320ad746e1d3b628ba79b9859f741e082542a385502f25dbf55296c3a545e3872760ab7,
  0x3617de4a96262c6f5d9e98bf9292dc29f8f41dbd289a147ce9da3113b5f0b8c00a60b1ce1d7e819d7a431d7c90ea0e5f, 1⟩

/-- Product and difference in the field. -/
def ecMul (a b : Nat) : Nat := a * b % ecP
def ecSub (a b : Nat) : Nat := (a + ecP - b) % ecP

/-- Twice a point. -/
def EcPoint.double (p : EcPoint) : EcPoint :=
  if p.z = 0 then p
  else
    let zz := ecMul p.z p.z
    let yy := ecMul p.y p.y
    let b := 4 * ecMul p.x yy % ecP
    let a := 3 * ecMul (ecSub p.x zz) (p.x + zz) % ecP
    let x := ecSub (ecMul a a) (2 * b % ecP)
    ⟨x, ecSub (ecMul a (ecSub b x)) (8 * ecMul yy yy % ecP), 2 * ecMul p.y p.z % ecP⟩

/-- The sum of two points. -/
def EcPoint.add (p q : EcPoint) : EcPoint :=
  if p.z = 0 then q
  else if q.z = 0 then p
  else
    let pz := ecMul p.z p.z
    let qz := ecMul q.z q.z
    let u := ecMul p.x qz
    let h := ecSub (ecMul q.x pz) u
    let t := ecMul p.y (ecMul q.z qz)
    let r := ecSub (ecMul q.y (ecMul p.z pz)) t
    if h = 0 then (if r = 0 then p.double else ⟨1, 1, 0⟩)
    else
      let hh := ecMul h h
      let hhh := ecMul h hh
      let v := ecMul u hh
      let x := ecSub (ecSub (ecMul r r) hhh) (2 * v % ecP)
      ⟨x, ecSub (ecMul r (ecSub v x)) (ecMul t hhh), ecMul h (ecMul p.z q.z)⟩

/-- `u` times one point plus `v` times another, by the bits below `n`. -/
def ecSum (u v : Nat) (p q pq : EcPoint) : Nat → EcPoint → EcPoint
  | 0, acc => acc
  | n + 1, acc =>
    let d := acc.double
    ecSum u v p q pq n (match u.testBit n, v.testBit n with
      | false, false => d
      | true, false => d.add p
      | false, true => d.add q
      | true, true => d.add pq)

/-- A power modulo `m`, by the bits of the exponent below `n`. -/
def powMod (m a e : Nat) : Nat → Nat → Nat
  | 0, r => r
  | n + 1, r => powMod m a e n (let s := r * r % m; if e.testBit n then s * a % m else s)

/-- The x coordinate of a point that is not at infinity. -/
def EcPoint.affineX (p : EcPoint) : Nat := ecMul p.x (powMod ecP (ecMul p.z p.z) (ecP - 2) 384 1)

/-- A public key in its 97-byte form, where it names a point of the curve (R265). -/
def ecKey (k : List Byte) : Option EcPoint :=
  let x := ofBE ((k.drop 1).take 48)
  let y := ofBE ((k.drop 49).take 48)
  if k.length = 97 ∧ k.head? = some 4 ∧ x < ecP ∧ y < ecP ∧ ecMul y y = (ecMul x (ecMul x x) + 3 * (ecP - x) + ecB) % ecP then
    some ⟨x, y, 1⟩
  else none

/-- Whether `sig`, r then s, is a signature of `m` under a public key. -/
def ecdsaVerify (key m sig : List Byte) : Bool :=
  match ecKey key with
  | none => false
  | some q =>
    let r := ofBE (sig.take 48)
    let s := ofBE ((sig.drop 48).take 48)
    let w := powMod ecN s (ecN - 2) 384 1
    let e := ofBE (sha384 m)
    let p := ecSum (e * w % ecN) (r * w % ecN) ecBase q (ecBase.add q) 384 ⟨1, 1, 0⟩
    sig.length == 96 && decide (0 < r ∧ r < ecN ∧ 0 < s ∧ s < ecN) && p.z != 0 && p.affineX % ecN == r
end Sys2Proof.Machine
end

