-- ==== Sys2Proof/Machine/Images.lean ====
section
/-! DEFINITION. Casnak images and the microcode patch (spec/19_power_boot_reset.md R355 to R357,
spec/07_comb_engine_microcode.md R129, R144, R145): a bank's header and checks, the patch payload and its records, the
parity bits of stored words. -/

namespace Sys2Proof.Machine

/-! ## Parity (R129) -/

/-- The parity bit of byte lane `b` of `w`: it makes the number of ones odd. -/
def oddBit (w b : Nat) : Nat := ((List.range 8).foldl (fun n i => n + w / 2 ^ (8 * b + i) % 2) 1) % 2

/-- A word of `n` bytes as its load port stores it, with the check bits that the port forms. -/
def withChecks (n w : Nat) : Nat :=
  w % 2 ^ (8 * n) + 2 ^ (8 * n) * (List.range n).foldl (fun a b => a + 2 ^ b * oddBit w b) 0

/-- The byte lanes of a stored word whose parity fails. -/
def badLanes (n raw : Nat) : List Nat := (List.range n).filter fun b => raw / 2 ^ (8 * n + b) % 2 != oddBit raw b

/-- A stored word with every check bit inverted (R318). -/
def invertChecks (n raw : Nat) : Nat := raw ^^^ (2 ^ (8 * n) * (2 ^ n - 1))

/-! ## The patch payload (R144) -/

/-- A record: the store it goes to, its first address, its words. -/
structure PatchRec where
  nano : Bool
  start : Nat
  words : List Nat
  deriving DecidableEq, Repr

/-- The next `n` records; none where one names no store, reaches past its store or its bytes, or has a top byte that is not 0. -/
def patchRecs : Nat → List Byte → Option (List PatchRec)
  | 0, _ => some []
  | n + 1, bs =>
    let store := rdLE bs 0 1
    let start := rdLE bs 2 2
    let count := rdLE bs 4 2
    let size := if store = 0 then 4 else 16
    let words := (List.range count).map fun i => rdLE bs (6 + size * i) size
    if 1 < store ∨ (if store = 0 then 4096 else 512) < start + count ∨ bs.length < 6 + size * count
        ∨ (store = 0 ∧ words.any (fun w => decide (2 ^ 24 ≤ w))) then none
    else (patchRecs n (bs.drop (6 + size * count))).map fun rs => ⟨store == 1, start, words⟩ :: rs

/-- The words that the records of one store overwrite; later records overwrite earlier ones. -/
def patchWords (nano : Bool) (rs : List PatchRec) : SMap Nat :=
  rs.foldl (fun m r =>
    if r.nano = nano then (r.words.zipIdx r.start).foldl (fun m w => SMap.insert m w.2 w.1) m else m) []

end Sys2Proof.Machine

namespace Sys2Proof

open Sys2Proof.Machine

/-! ## The Casnak header (R356) -/

def BankIn.magic (b : BankIn) : Nat := rdLE b.image 0 4
def BankIn.cls (b : BankIn) : Nat := rdLE b.image 5 1
def BankIn.mask (b : BankIn) : Nat := rdLE b.image 6 2
def BankIn.level (b : BankIn) : Nat := rdLE b.image 8 4
def BankIn.rb (b : BankIn) : Nat := rdLE b.image 12 1

/-- A bank whose magic is wrong is empty (R357). -/
def BankIn.empty (b : BankIn) : Bool := b.magic != 0x4B434E4B

/-- The digest of the image as verified (R267). -/
def BankIn.digest (b : BankIn) : List Byte := sha384 b.image

/-- The encrypted payload, as long as the header says. -/
def BankIn.cipher (b : BankIn) : List Byte := (b.image.drop 256).take (rdLE b.image 16 4)

/-- Karioten has signed the header, and its SHA-384 is that of a payload as long as it says. -/
def BankIn.signed (b : BankIn) (k : Keys) : Bool :=
  b.cipher.length == rdLE b.image 16 4 && decide ((b.image.drop 48).take 48 = sha384 b.cipher)
    && ecdsaVerify k.karioten (b.image.take 128) ((b.image.drop 128).take 96)

/-- The payload decrypted under the image key with the header's nonce; none where the header's tag does not verify. -/
def BankIn.plain (b : BankIn) (k : Keys) : Option (List Byte) :=
  gcmOpen k.image ((b.image.drop 20).take 12) [] (b.cipher ++ (b.image.drop 32).take 16)
def BankIn.payload (b : BankIn) (k : Keys) : List Byte := (b.plain k).getD []
def BankIn.patch (b : BankIn) (k : Keys) : Nat := rdLE (b.payload k) 6 1

/-- The records of a microcode payload. -/
def BankIn.records (b : BankIn) (k : Keys) : Option (List PatchRec) :=
  if rdLE (b.payload k) 0 4 = 0x4B4D4350 then patchRecs (rdLE (b.payload k) 8 2) ((b.payload k).drop 32) else none

end Sys2Proof

namespace Sys2Proof.Machine

/-! ## Judging banks (R145, R357) -/

/-- The baseline level of B0 parts (R145). -/
def baseLevel : Nat := 0x0102

/-- Bit of the variant masks. -/
def maskBit (v : Variant) : Nat := if Variant.isSmall v then 1 else 0

/-- A bank of class `c` judged by the checks of R145 in order: 0 = passes, 1 to 6 = the first failed check; none = empty. The digest and
length of the payload are the signature's; the format version is FORMAT's. FORMAT, BASE_MISMATCH and VARIANT of a GWYNIQUE image, whose
payload has no stated layout, are judged on its header (log 94). -/
def judgeBank (k : Keys) (v : Variant) (c : Nat) (b : BankIn) (count : Nat) : Option Nat :=
  if b.empty then none
  else if b.signed k = false then some 1
  else if (b.plain k).isNone then some 2
  else if b.rb < count then some 3
  else if rdLE b.image 4 1 ≠ 1 ∨ b.cls ≠ c ∨ (c = 1 ∧ (b.records k).isNone) then some 4
  else if c = 1 ∧ rdLE (b.payload k) 4 2 ≠ baseLevel then some 5
  else if b.mask.testBit (maskBit v) = false ∨ (c = 1 ∧ (rdLE (b.payload k) 7 1).testBit (maskBit v) = false) then some 6
  else some 0

/-- The bank that runs: the higher LEVEL of those that pass, bank 0 on a tie. -/
def chooseBank (k : Keys) (v : Variant) (c : Nat) (b0 b1 : BankIn) (count : Nat) : Option Nat :=
  match judgeBank k v c b0 count, judgeBank k v c b1 count with
  | some 0, some 0 => some (if b0.level < b1.level then 1 else 0)
  | some 0, _ => some 0
  | _, some 0 => some 1
  | _, _ => none

/-- The CAUSE of the lower-numbered bank that is not empty; 0 where both are. -/
def failCause (k : Keys) (v : Variant) (c : Nat) (b0 b1 : BankIn) (count : Nat) : Nat :=
  match judgeBank k v c b0 count, judgeBank k v c b1 count with
  | some n, _ => n
  | none, some n => n
  | none, none => 0

def pickBank (b0 b1 : BankIn) (n : Nat) : BankIn := if n = 0 then b0 else b1

/-! ## Banks in the flash (R355, R359) -/

/-- Bank `k` (2 × class + bank) as a start finds it: the image that the flash holds, or, where this module has neither read
nor written the bank, the one the start brings. -/
def Flash.bank (x : Flash) (k : Nat) (b : BankIn) : BankIn :=
  match x.banks.find? fun e => e.1 == k with
  | some e => { b with image := e.2 }
  | none => b

/-- A start's banks as the flash has them. -/
def Flash.banksOf (x : Flash) (b : BootIn) : BootIn :=
  { b with
    gwqBank0 := x.bank 0 b.gwqBank0, gwqBank1 := x.bank 1 b.gwqBank1
    mcBank0 := x.bank 2 b.mcBank0, mcBank1 := x.bank 3 b.mcBank1 }

/-- A bank read or written: its image, and its LEVEL, an empty bank not listed. -/
def Flash.setBank (x : Flash) (k : Nat) (b : BankIn) : Flash :=
  { x with
    banks := SMap.insert x.banks k b.image
    levels := if b.empty then SMap.erase x.levels k else SMap.insert x.levels k b.level }

end Sys2Proof.Machine
end

