-- ==== Sys2Proof/Machine/Bus.lean ====
section
/-! DEFINITION. The hub bus matrix (spec/18_interconnect_and_counters.md R335 to R342): the address map, error responses,
the heads that wait at each target and how a target chooses among them, and the heads of the tile bridges. -/

namespace Sys2Proof.Machine

/-! ## The address map (R336 to R338) -/

/-- Targets: working SRAM, boot ROM, the register bridge, tile bridges T0 to T3, the DRAM controller. -/
def tgSram : Nat := 0
def tgRom : Nat := 1
def tgRegs : Nat := 2
def tgTile (t : Nat) : Nat := 3 + t
def tgDram : Nat := 7

def dramBase : Nat := 0x1000000000
def dramSize (v : Variant) : Nat := if Variant.isSmall v then 0x200000000 else 0x400000000

/-- `n` bytes from `a` lie within a region. -/
def inRegion (a n base size : Nat) : Bool := decide (base ≤ a ∧ a + n ≤ base + size)

/-- The hub cores and the security core; PCIe BAR accesses with `bar`. -/
def isCore (m : Nat) : Bool := decide (m < 4)
def isSec (m : Nat) : Bool := m == 4
def isBar (r : BusReq) : Bool := r.master == 5 && r.bar

/-- The ledger ring in DRAM, all of it that the security core reaches there: 2,097,152 entries of 128 bytes (R273). -/
def inLedgerRing (r : BusReq) : Bool := inRegion r.addr r.len Config.ledgerBase 0x10000000

/-- Where a transaction goes on the map of R336; none where it gets an error response: an address that is unmapped on the
variant, a region its master may not reach, a write to boot ROM (R337). -/
def mapTarget (v : Variant) (r : BusReq) : Option Nat :=
  if inRegion r.addr r.len 0 0x1000000 then
    if decide (r.addr + r.len ≤ 0xF00000) || isCore r.master || isSec r.master then some tgSram else none
  else if inRegion r.addr r.len 0x1000000 0x80000 then (if isSec r.master && !r.write then some tgRom else none)
  else if inRegion r.addr r.len 0x2000000 0x800000 then
    (if isCore r.master || isSec r.master || isBar r then some tgRegs else none)
  else if inRegion r.addr r.len dramBase (dramSize v) then
    (if hasUnit v .dramU && (!isSec r.master || inLedgerRing r) then some tgDram else none)
  else
    match (List.range (numTiles v)).find? fun t => inRegion r.addr r.len (0x4000000 + t * 0x1000000) 0x1000000 with
    | some t => if isCore r.master || isSec r.master then some (tgTile t) else none
    | none => none

/-- The map as the master sees it: while REMAP_BOOT is 1 the security core finds boot ROM, aliased, in the lowest 16 MiB, and
working SRAM in the next (R338). -/
def State.busTarget (s : State) (r : BusReq) : Option Nat :=
  if r.ring then some (if s.has .dramU then tgDram else tgSram)
  else if isSec r.master && s.flag Adr.BUS_REMAP Fl.BUS_REMAP_REMAP_BOOT && decide (r.addr + r.len ≤ 0x2000000) then
    if r.addr + r.len ≤ 0x1000000 then (if r.write then none else some tgRom)
    else mapTarget s.variant { r with addr := r.addr - 0x1000000 }
  else mapTarget s.variant r

/-- An error response: BUS_ERR records it where VALID = 0, and counts it (R337). -/
def State.busError (s : State) (r : BusReq) : State :=
  let b := Adr.BUS_ERR
  let s := (s.hubEvent 0x07 1).count b Fl.BUS_ERR_COUNT 1
  if s.flag b Fl.BUS_ERR_VALID then s
  else
    let s := ((s.put b Fl.BUS_ERR_MASTER r.master).putFlag b Fl.BUS_ERR_WRITE r.write).putFlag b Fl.BUS_ERR_VALID true
    (s.put b Fl.BUS_ERR_ADDR_LO r.addr).put b Fl.BUS_ERR_ADDR_HI (r.addr / 2 ^ 32)

/-! ## Heads (R339, R340) -/

/-- The QoS a transaction is issued with (R335). -/
def State.busQos (s : State) (r : BusReq) : Nat :=
  let f := s.get Adr.BUS_QOS
  if r.master < 4 then f Fl.BUS_QOS_CORES
  else if r.master = 4 then 15
  else if r.master = 5 then (if r.bar then 14 else f Fl.BUS_QOS_PCIE_DMA)
  else if r.master < 8 then f Fl.BUS_QOS_ETH
  else if r.master = 8 then f Fl.BUS_QOS_HALDOD
  else if r.master = 9 then f Fl.BUS_QOS_EXPORT
  else f Fl.BUS_QOS_TILES

/-- AGE_LIMIT, 0 taken as 1. -/
def State.ageLimit (s : State) : Nat := max 1 (s.get Adr.BUS_AGE Fl.BUS_AGE_AGE_LIMIT)

/-- The effective QoS of a head: 15 from the loss with which its count reached AGE_LIMIT until it is granted (R340). -/
def BusHead.eff (h : BusHead) : Nat := if h.raised then 15 else h.qos

/-- A head passed over once more. -/
def BusHead.passed (h : BusHead) (limit : Nat) : BusHead :=
  { h with losses := h.losses + 1, raised := h.raised || decide (limit ≤ h.losses + 1) }

/-- The order of heads that arrived together: the lower MASTER code, a BAR access before DMA. -/
def BusReq.rank (r : BusReq) : Nat := 2 * r.master + (if r.bar then 0 else 1)

/-- Head `a` is chosen before head `b`: the higher effective QoS, the earlier arrival, the lower rank. -/
def BusHead.wins (a b : BusHead) : Bool :=
  decide (b.eff < a.eff) || (a.eff == b.eff &&
    (decide (a.arrive < b.arrive) || (a.arrive == b.arrive && decide (a.req.rank < b.req.rank))))

/-- The head a target grants, among its heads. -/
def busPick (hs : List BusHead) : Option BusHead :=
  hs.foldl (fun best h => match best with | none => some h | some b => if h.wins b then some h else some b) none

/-- The same master's place at the same target. -/
def BusHead.of (h : BusHead) (target : Nat) (r : BusReq) : Bool := h.target == target && h.req.rank == r.rank

/-- What waits behind steps up where its master has no head at its target, oldest first. -/
def Bus.promote (b : Bus) (tick : Nat) : Bus :=
  b.behind.foldl (fun (b : Bus) w =>
    if b.heads.any fun h => h.of w.target w.req then { b with behind := b.behind ++ [w] }
    else { b with heads := b.heads ++ [{ w with arrive := tick }] }) { b with behind := [] }

/-! ## Tile bridges (R342) -/

/-- The next comb of tile `t` with a notice pending, in round-robin order after the last one served. -/
def Bus.nextComb (b : Bus) (v : Variant) (t : Nat) : Option Nat :=
  let n := numCombs v / numTiles v
  let last := SMap.find (n - 1) b.turn t
  ((List.range n).map fun k => n * t + (last + 1 + k) % n).find? fun c => SMap.find 0 b.notices c != 0

/-- Tile bridge `t` has no head at target `g`. -/
def Bus.bridgeFree (b : Bus) (t g : Nat) : Bool := !b.heads.any fun h => h.target == g && h.req.master == 0x0A + t

/-- A head that reaches its target now. -/
def State.newHead (s : State) (r : BusReq) (g : Nat) : BusHead := { req := r, target := g, qos := s.busQos r, arrive := s.tick, losses := 0 }

/-- A tile bridge forms its head towards the target of its executor's next request. -/
def State.execHead (s : State) (t : Nat) : State :=
  let b := s.bus
  match b.execs.find? fun x => x.1 == t with
  | some x =>
    match s.busTarget x.2 with
    | some g =>
      if b.bridgeFree t g then { s with bus := { b with execs := b.execs.erase x, heads := b.heads ++ [s.newHead x.2 g] } } else s
    | none => State.busError { s with bus := { b with execs := b.execs.erase x } } x.2
  | none => s

/-- And its head towards working SRAM for its next comb's notice, where its executor has no request pending there. -/
def State.combHead (s : State) (t : Nat) : State :=
  let b := s.bus
  if (b.execs.any fun x => x.1 == t && s.busTarget x.2 == some tgSram) || !b.bridgeFree t tgSram then s
  else
    match b.nextComb s.variant t with
    | some c =>
      let r : BusReq := { master := 0x0A + t, bar := false, write := true, addr := 0, len := 64, notice := true }
      { s with bus := { b with
        notices := SMap.put 0 b.notices c (SMap.find 0 b.notices c - 1)
        turn := SMap.insert b.turn t (c % (numCombs s.variant / numTiles s.variant)), heads := b.heads ++ [s.newHead r tgSram] } }
    | none => s

/-- A tile bridge forms its heads, one towards each target (R342). -/
def State.bridgeHead (s : State) (t : Nat) : State := (s.execHead t).combHead t

/-! ## Issuing and granting -/

/-- A transaction issued: an error response, or its place behind its master's others to the target (R337, R339). -/
def State.busIssue (s : State) (r : BusReq) : State :=
  match s.busTarget r with
  | none => s.busError r
  | some t =>
    { s with bus := ({ s.bus with behind := s.bus.behind ++ [s.newHead r t] }).promote s.tick }

/-- Ticks a target takes to serve a transaction: two a beat of 64 bytes. -/
def beatTicks (n : Nat) : Nat := 2 * max 1 ((n + 63) / 64)

/-- A target that serves nothing grants one head; every other head it meets is passed over, and at the age limit is raised
(R340). -/
def State.busGrant (s : State) (g : Nat) : State :=
  let b := s.bus
  let mine := b.heads.filter fun h => h.target == g
  if s.tick < SMap.find 0 b.busy g then s else
  match busPick mine with
  | none => s
  | some w =>
    let lost := fun (h : BusHead) => h.target == g && h != w
    let raised := (b.heads.filter fun h => lost h && !h.raised && (h.passed s.ageLimit).raised).length
    let heads := (b.heads.filter (· != w)).map fun h => if lost h then h.passed s.ageLimit else h
    let s := { s with bus := ({ b with
      heads := heads, busy := SMap.insert b.busy g (s.tick + beatTicks w.req.len) } : Bus).promote s.tick }
    let s := s.hubEvent 0x06 raised
    let s := if g = tgSram then s.hubEvent 0x04 1 else if g = tgDram then s.hubEvent 0x05 1 else s
    if w.req.notice then s.hubEvent 0x0F 1 else s

/-- A tick of the matrix: the bridges form their heads, and each target grants. -/
def State.busTick (s : State) : State :=
  if s.bus.heads.isEmpty && s.bus.execs.isEmpty && s.bus.notices.isEmpty then s
  else
    let s := (List.range (numTiles s.variant)).foldl (fun s t => s.bridgeHead t) s
    (List.range 8).foldl (fun s g => s.busGrant g) s

/-! ## What the block's own masters issue -/

/-- Plan slots and the record buffer: package DRAM, or working SRAM where DRAM is absent. The model places what the spec does not
at the region's base. -/
def State.storeBase (s : State) : Nat := if s.has .dramU then dramBase else 0

/-- The executors of every tile read a plan slot of 20 KiB, 4,096 bytes a transaction (R335, R339). -/
def State.readSlots (s : State) : State :=
  let reads := (List.range (numTiles s.variant)).flatMap fun t => (List.range 5).map fun k =>
    (t, ({ master := 0x0A + t, bar := false, write := false, addr := s.storeBase + 4096 * k, len := 4096 } : BusReq))
  { s with bus := { s.bus with execs := s.bus.execs ++ reads } }

/-- The export engine writes a record to the record buffer (R187). -/
def State.storeRecord (s : State) : State :=
  s.busIssue { master := 9, bar := false, write := true, addr := s.storeBase, len := 32 }

/-- A DMA master reads `n` records of the record buffer to send them, in transactions of up to 4,096 bytes (R339). -/
def State.fetchRecords (s : State) (master n : Nat) : State :=
  (List.range ((max 1 n + 127) / 128)).foldl (fun s k =>
    s.busIssue { master := master, bar := false, write := false, addr := s.storeBase, len := 32 * min 128 (max 1 n - 128 * k) }) s

/-- A command taken: the PCIe DMA writes its descriptor into working SRAM, where a hub core reads it (R214, R335). -/
def State.storeCommand (s : State) : State :=
  (s.busIssue { master := 5, bar := false, write := true, addr := 0, len := 64 }).busIssue
    { master := 0, bar := false, write := false, addr := 0, len := 64 }

/-- A hub core writes a compiled plan slot of 20 KiB (R110, R335). -/
def State.storeSlot (s : State) : State :=
  (List.range 5).foldl (fun s k =>
    s.busIssue { master := 0, bar := false, write := true, addr := s.storeBase + 4096 * k, len := 4096 }) s

/-- An entry of 128 bytes is written to the ledger ring, by the security core or a hub core (R273, R335). -/
def State.storeEntry (s : State) (sec : Bool) : State :=
  s.busIssue { master := if sec then 4 else 0, bar := false, write := true, addr := s.storeBase, len := 128, ring := true }

/-- The Haldod DMA reads a frame it sends from working SRAM (R335). -/
def State.fetchFrame (s : State) (len : Nat) : State :=
  s.busIssue { master := 8, bar := false, write := false, addr := 0, len := len }

/-- An inbound access of a BAR through the register bridge, which domain 24 powers (R335, R337). -/
def State.barAccess (s : State) (addr : Nat) (write : Bool) : State :=
  if s.powered 24 && !s.ctl.boot.porLow && !s.ctl.boot.sysLow then
    s.busIssue { master := 5, bar := true, write := write, addr := 0x2000000 + addr, len := 4 }
  else s

end Sys2Proof.Machine
end

