-- ==== Sys2Proof/Machine/LedgerOps.lean ====
section
/-! DEFINITION. Writing the ledger (spec/14_secrecy_and_ledger.md R273 to R278): entries, room, reservations,
overflow, checkpoints and seals. -/

namespace Sys2Proof.Machine

/-- A block of `n` bytes with byte strings placed at rising offsets and zeros between. -/
def layout (n : Nat) (fs : List (Nat × List Byte)) : List Byte :=
  fit n (fs.foldl (fun acc f => fit f.1 acc ++ f.2) [])

/-- A 52-byte BODY of little-endian fields: offset, size, value. -/
def bodyOf (fs : List (Nat × Nat × Nat)) : List Byte := layout 52 (fs.map fun f => (f.1, le f.2.1 f.2.2))

/-- The byte of R273 that names domain, TQ, state and pair role. -/
def State.tqByte (s : State) : Nat := domIx s.sdom + 2 * s.tq + 4 * s.tqOf s.sdom + 16 * s.role

/-- The 128 bytes of an entry (R273). -/
def LEntry.bytes (e : LEntry) : List Byte :=
  le 8 e.seq ++ le 2 e.ty ++ le 1 e.flags ++ le 1 e.tqb ++ le 6 e.sec48 ++ le 2 0 ++ le 4 e.ns30 ++ le 2 e.q
    ++ le 1 e.role ++ le 1 0 ++ fit 52 e.body ++ fit 48 e.prev

/-- Entries the ring holds: 2,097,152 in DRAM, 32,768 in hub SRAM (R273). -/
def ringSize (v : Variant) : Nat := if hasUnit v .dramU then 2097152 else 32768

/-- The involuntary reserve (R278). -/
def involReserve (v : Variant) : Nat := if hasUnit v .dramU then 4096 else 512

/-- Entries held back: one close for every session or shadow whose close is not yet recorded, one for every park not yet
at its instant (R209, R237). -/
def State.heldBack (s : State) : Nat :=
  (s.host.sess.filter fun e => e.2.closeCause == 0).length + s.pair.shadows.length + s.led.parkRes

/-- Free space (R278). -/
def State.ledgerFree (s : State) : Nat := ringSize s.variant - s.led.entries.length

/-- Room for a voluntary change of `n` entries (R278). -/
def State.ledgerRoom (s : State) (n : Nat) : Bool :=
  decide (n + involReserve s.variant + s.heldBack ≤ s.ledgerFree)

/-- Room for an involuntary entry: any free space but the entries held back (R278). -/
def State.involRoom (s : State) : Bool := decide (s.heldBack < s.ledgerFree)

def State.ovTotal (s : State) : Nat := s.led.ov.foldl (· + ·) 0

/-- The number of entries reserved for accepted parks (R237). -/
def State.setParkRes (s : State) (n : Nat) : State := { s with led := { s.led with parkRes := n } }

/-- The number of the next checkpoint. -/
def State.setCpNum (s : State) (n : Nat) : State := { s with led := { s.led with cpNum := n } }

/-- LEDGER_STAT rewritten from the ledger (RES_FREE, FULL, BACKLOG, OVERFLOW, HEAD). -/
def State.ledgerStat (s : State) : State :=
  let seq := match s.led.last with | some e => e.seq | none => 0
  let s := s.putPair Adr.LEDGER_STAT Fl.LEDGER_STAT_HEAD_LO Fl.LEDGER_STAT_HEAD_HI seq
  let s := s.put Adr.LEDGER_STAT Fl.LEDGER_STAT_BACKLOG s.led.entries.length
  let s := s.put Adr.LEDGER_STAT Fl.LEDGER_STAT_RES_FREE (min (involReserve s.variant) (s.ledgerFree - s.heldBack))
  let s := s.putFlag Adr.LEDGER_STAT Fl.LEDGER_STAT_FULL (!s.ledgerRoom 1)
  s.put Adr.LEDGER_STAT Fl.LEDGER_STAT_OVERFLOW s.ovTotal

/-- An entry of this session and time, chained to the one before (R275). -/
def State.mkEntry (s : State) (ty flags q role sec ns : Nat) (body : List Byte) : LEntry :=
  { seq := match s.led.last with | some e => e.seq + 1 | none => 0
    ty := ty, flags := flags, tqb := s.tqByte, sec48 := sec, ns30 := ns, q := q, role := role
    body := fit 52 body
    prev := match s.led.last with | some e => sha384 e.bytes | none => List.replicate 48 0 }

/-- The entry written to the ring, which never holds more than its size; the seal no longer covers everything. In recovery no entry is
written (R358). -/
def State.pushEntry (s : State) (e : LEntry) : State :=
  if s.ctl.boot.recovery || decide (ringSize s.variant ≤ s.led.entries.length) then s else
  let l := s.led
  let l := { l with
    entries := l.entries ++ [e], last := some e, uncov := l.uncov + 1
    uncovFirst := if l.uncov = 0 then e.seq else l.uncovFirst
    uncovTick := if l.uncov = 0 then s.tick else l.uncovTick }
  ((State.ledgerStat { s with led := l, flash := { s.flash with unsealed := true } }).checkWrite 0xA6 e.seq).checkWrite 0xA3 0 |>.storeEntry (decide (e.ty ≤ 2))

/-- The OVERFLOW entry, written as soon as space frees and before any other (R278). -/
def State.flushOverflow (s : State) : State :=
  if s.ovTotal = 0 ∨ s.involRoom = false then s
  else
    let body := layout 52 [(0, (s.led.ov.map (le 4)).flatten), (24, le 4 s.led.ovFirst), (28, le 4 s.led.ovLast)]
    let e := s.mkEntry 0x00F0 0 0xffff 0 s.now.sec s.now.ns body
    let s := s.pushEntry e
    State.ledgerStat { s with led := { s.led with ov := [0, 0, 0, 0, 0, 0] } }

/-- A voluntary entry whose room was judged, at a given time. -/
def State.logAt (s : State) (ty q role sec ns : Nat) (body : List Byte) : State :=
  let s := s.flushOverflow
  s.pushEntry (s.mkEntry ty 0 q role sec ns body)

/-- A voluntary entry at the time of writing. -/
def State.log (s : State) (ty q role : Nat) (body : List Byte) : State := s.logAt ty q role s.now.sec s.now.ns body

/-- An involuntary entry at a given time; `k` is its place among the counts of OVERFLOW, when it has one (R278). -/
def State.logInvolAt (s : State) (k : Option Nat) (ty sec ns : Nat) (body : List Byte) : State :=
  let s := s.flushOverflow
  if s.involRoom && s.ovTotal == 0 then s.pushEntry (s.mkEntry ty 0 0xffff 0 sec ns body)
  else
    match k with
    | none => s
    | some k =>
      State.ledgerStat { s with led := { s.led with
        ov := s.led.ov.set k (s.led.ov.getD k 0 + 1)
        ovFirst := if s.ovTotal = 0 then s.ns32 else s.led.ovFirst
        ovLast := s.ns32 } }

/-- An involuntary entry at the time of writing. -/
def State.logInvol (s : State) (k : Option Nat) (ty : Nat) (body : List Byte) : State :=
  s.logInvolAt k ty s.now.sec s.now.ns body

/-- A voluntary change refused for want of room: LEDGER_STAT.REFUSED (R278). -/
def State.ledgerRefused (s : State) : State := s.count Adr.LEDGER_STAT Fl.LEDGER_STAT_REFUSED 1

/-- A seal (R359): the slot that is not current is written and becomes current. -/
def Flash.seal (x : Flash) (f : Flash → Flash) : Flash :=
  let y := f x
  { y with
    older := some ⟨x.head, x.owner, x.pairKey, x.partner, x.digestKeys, x.enrolAt, x.checkpoint, x.keys.secret⟩
    slot := 1 - x.slot, seals := x.seals + 1, enrolAt := y.enrolCount }

def State.seal (s : State) (f : Flash → Flash) : State := { s with flash := s.flash.seal f }

/-- The head and a checkpoint sealed, unless the last such seal is less than 1 s old (R275). -/
def State.sealCheckpoint (s : State) (seq : Nat) (hash cp : List Byte) : State :=
  if (match s.led.sealTick with | some t => decide (s.tick < t + 625000000) | none => false) then s
  else
    let s := s.seal fun x => { x with head := some (seq, hash), unsealed := false, checkpoint := some cp }
    let s := { s with led := { s.led with sealTick := some s.tick } }
    s.put Adr.LEDGER_STAT Fl.LEDGER_STAT_SEAL_NS32 s.ns32

/-- A signed checkpoint over every entry since the previous one, and the seal that goes with it (R275, R276). -/
def State.formCheckpoint (s : State) : State :=
  match s.led.last with
  | none => s
  | some e =>
    if s.led.uncov = 0 then s else
    let h := sha384 e.bytes
    let d := s.now
    let head := layout 128 [(0, le 4 0x4B4C4350), (4, le 2 1), (8, s.idDigest), (40, le 8 s.led.uncovFirst), (48, le 8 e.seq),
      (56, h), (104, le 6 d.sec), (110, le 1 (s.tqByte % 16)), (112, le 4 d.ns), (116, le 8 s.led.cpNum)]
    let r := s.sign
    let s := r.2
    let cp : Checkpoint := ⟨s.led.uncovFirst, e.seq, head ++ r.1⟩
    let s := { s with led := { s.led with cps := s.led.cps ++ [cp], cpNum := s.led.cpNum + 1, uncov := 0 } }
    (s.putPair Adr.LEDGER_STAT Fl.LEDGER_STAT_CP_LO Fl.LEDGER_STAT_CP_HI e.seq).sealCheckpoint e.seq h cp.bytes

/-- Entries up to SEQ `n` released: their space frees, and a checkpoint that covers no held entry goes (R244, R276). -/
def State.release (s : State) (n : Nat) : State :=
  let es := s.led.entries.dropWhile fun e => decide (e.seq ≤ n)
  let keep := fun (c : Checkpoint) => es.any fun e => decide (c.first ≤ e.seq ∧ e.seq ≤ c.last)
  State.flushOverflow (State.ledgerStat { s with led := { s.led with entries := es, cps := s.led.cps.filter keep } })

/-- CHECKPOINT: after 1,024 entries, or 1 s after the first entry it would cover, a checkpoint is formed and sealed
(R275, R276). -/
def checkpointDue (s : State) : Bool :=
  decide (1024 ≤ s.led.uncov) || (decide (0 < s.led.uncov) && decide (s.led.uncovTick + 625000000 ≤ s.tick))

end Sys2Proof.Machine
end

