-- ==== Sys2Proof/Machine/PciCfg.lean ====
section
/-! DEFINITION. PCI configuration space of the functions (spec/11_host_sessions_mailboxes.md R201 to R203): the header, the PCI
Express, MSI-X, AER, ARI and SR-IOV capabilities. What the functions report is the spec's; where each word stands is the PCI
standards' (PRESUMED, log 86). -/

namespace Sys2Proof.Machine

/-- Where the model places the windows of a function beside its register view: BAR4 and configuration space. -/
def bar4Base : Nat := 2 ^ 32
def cfgBase : Nat := 2 ^ 33

/-- MSI-X vectors of a function, and the offset of its pending-bit array (R201). -/
def msixVectors (fn : Nat) : Nat := if fn = 0 then 2048 else 128
def msixPba (fn : Nat) : Nat := if fn = 0 then 0x8000 else 0x1000

/-- The BARs of PF0 and of a VF: number and size in bytes (R201). -/
def barSizes (fn : Nat) : List (Nat × Nat) :=
  if fn = 0 then [(0, 0x800000), (2, 0x1000000), (4, 0x10000)] else [(0, 0x10000), (2, 0x40000), (4, 0x2000)]

/-- A word of configuration space: the bits that stand, the bits a write changes, and their value at reset. -/
structure CfgWord where
  fixed : Nat := 0
  mask : Nat := 0
  reset : Nat := 0
  deriving DecidableEq, Repr, Inhabited

/-- Word `k` of six words of BARs: 64-bit and non-prefetchable, as large as its size says. -/
def barWord (bars : List (Nat × Nat)) (k : Nat) : CfgWord :=
  match bars.find? fun b => b.1 == k / 2 * 2 with
  | none => {}
  | some b => if k % 2 = 0 then { fixed := 4, mask := 2 ^ 32 - b.2 } else { mask := 2 ^ 32 - 1 }

/-- Vendor and device identifications (R203). -/
def deviceId (v : Variant) (fn : Nat) : Nat := if fn = 0 then (if Variant.isSmall v then 0xD256 else 0xD512) else 0xD5FF

/-- The header. -/
def cfgHeader (v : Variant) (fn off : Nat) : CfgWord :=
  if off = 0 then { fixed := Config.vendorId.toNat % 65536 + 65536 * deviceId v fn }
  else if off = 4 then { fixed := 0x100000, mask := 0x142 }
  else if off = 8 then { fixed := 0xB0 + 256 * 0x088000 }
  else if 0x10 ≤ off ∧ off < 0x28 ∧ fn = 0 then barWord (barSizes 0) ((off - 0x10) / 4)
  else if off = 0x2C then { fixed := Config.subsystemVendorId.toNat % 65536 + 65536 * (capUnits v % 65536) }
  else if off = 0x34 then { fixed := 0x40 } else {}

/-- The PCI Express capability at 0x40 (R202): payloads up to 512 bytes, function-level reset, x8 at 32 GT/s, ASPM L1, 10-bit tags; the
capability of MSI-X at 0xB0. -/
def cfgCaps (fn off : Nat) : CfgWord :=
  if off = 0x40 then { fixed := 0x2B010 }
  else if off = 0x44 then { fixed := 0x10008022 }
  else if off = 0x48 then { mask := 0x71EF, reset := 0x2100 }
  else if off = 0x4C then { fixed := 0x885 }
  else if off = 0x50 then { fixed := Config.pcieLink.toNat * 65536, mask := 0x2 }
  else if off = 0x64 then { fixed := 0x30000 }
  else if off = 0x68 then { mask := 0x1000 }
  else if off = 0x6C then { fixed := 0x3E }
  else if off = 0x70 then { mask := 0xF, reset := 5 }
  else if off = 0xB0 then { fixed := 0x11 + 65536 * (msixVectors fn - 1), mask := 0xC0000000 }
  else if off = 0xB4 then { fixed := 4 }
  else if off = 0xB8 then { fixed := msixPba fn + 4 } else {}

/-- The extended capabilities: AER with ECRC at 0x100, ARI at 0x150, and SR-IOV at 0x160 in PF0 (R202). -/
def cfgExt (fn off : Nat) : CfgWord :=
  if off = 0x100 then { fixed := 0x15020001 }
  else if off = 0x108 then { mask := 0x5FF030 }
  else if off = 0x10C then { mask := 0x5FF030, reset := 0x462030 }
  else if off = 0x114 then { mask := 0xF1C1, reset := 0x6000 }
  else if off = 0x118 then { fixed := 0xA0, mask := 0x140 }
  else if off = 0x150 then { fixed := if fn = 0 then 0x1601000E else 0x1000E }
  else if fn ≠ 0 then {}
  else if off = 0x160 then { fixed := 0x10010 }
  else if off = 0x168 then { mask := 0x18 }
  else if off = 0x16C then { fixed := 63 + 65536 * 63 }
  else if off = 0x170 then { mask := 0xFF }
  else if off = 0x174 then { fixed := 1 + 65536 }
  else if off = 0x178 then { fixed := 65536 * deviceId .t512 1 }
  else if off = 0x17C then { fixed := 0x553 }
  else if off = 0x180 then { mask := 0x553, reset := 1 }
  else if 0x184 ≤ off ∧ off < 0x19C then barWord (barSizes 1) ((off - 0x184) / 4) else {}

/-- The word of function `fn` at `off`. -/
def cfgWordOf (v : Variant) (fn off : Nat) : CfgWord :=
  if off < 0x40 then cfgHeader v fn off else if off < 0x100 then cfgCaps fn off else cfgExt fn off

/-- The bits of a word that writes have left. -/
def State.cfgHeld (s : State) (fn off : Nat) : Nat := SMap.find (cfgWordOf s.variant fn off).reset s.host.cfg (4096 * fn + off)

/-- What a read of configuration space finds at the word `off`: Bus Master Enable, VF Enable and NumVFs as the functions stand. -/
def State.cfgWord (s : State) (fn off : Nat) : Nat :=
  let n := s.host.numVfs
  let held := s.cfgHeld fn off
  let held := if off = 4 then held + 4 * b2i (s.host.busMaster.contains fn)
    else if off = 0x168 then held + b2i (n != 0)
    else if off = 0x170 ∧ n ≠ 0 then n else held
  (cfgWordOf s.variant fn off).fixed + held

/-- A write of the bits of a word that writes change. -/
def State.cfgStore (s : State) (fn off n : Nat) : State :=
  let c := cfgWordOf s.variant fn off
  { s with host := { s.host with cfg := SMap.put c.reset s.host.cfg (4096 * fn + off) (n &&& c.mask) } }

/-- The configuration space of the functions that `p` names takes its reset values. -/
def State.resetCfg (s : State) (p : Nat → Bool) : State :=
  { s with host := { s.host with cfg := SMap.drop (fun k => p (k / 4096)) s.host.cfg } }

/-- MSI-X Enable and Function Mask of a function. -/
def State.msixOn (s : State) (fn : Nat) : Bool := (s.cfgHeld fn 0xB0).testBit 31
def State.msixMask (s : State) (fn : Nat) : Bool := (s.cfgHeld fn 0xB0).testBit 30

/-- The device may read and write host memory for function `fn` (R210). -/
def State.fnDma (s : State) (fn : Nat) : Bool := s.host.pcieUp && s.host.busMaster.contains fn && !s.host.noDma.contains fn

/-- A configuration request meets a trained link and a function that exists, and Gwynique, or in recovery its loader, has started (R354):
it is served; with no Gwynique yet it is answered with Configuration Request Retry Status. -/
def State.cfgReached (s : State) (fn : Nat) : Bool := s.host.pcieUp && decide (fn ≤ s.host.numVfs)
def State.cfgReady (s : State) : Bool := s.ctl.boot.gwq || s.ctl.boot.recovery

end Sys2Proof.Machine
end

