-- ==== Sys2Proof/Machine/EventOps.lean ====
section
/-! DEFINITION. Writing the rings of a session (spec/11_host_sessions_mailboxes.md R212 to R221): completions, events,
records, the status block, MSI-X moderation, and the datagrams of an Ethernet session. -/

namespace Sys2Proof.Machine

/-- The session is FAULTED, or was when it entered CLOSING: nothing is fetched or written for it until it has closed (R208). -/
def State.faulted (s : State) (q : Nat) : Bool := s.sessState q == 4 || s.flag (Adr.SESS q) Fl.SESS_DMA_ERR

/-- The device may fetch and write for the session: it is not FAULTED, and its function's DMA is allowed (R210), which an Ethernet
session does not need. -/
def State.dmaOk (s : State) (q : Nat) : Bool := !s.faulted q && (decide (2 ≤ s.sessCarrier q) || s.fnDma (s.sessFn q))

/-- The writes that the device issues for the session fail (R220); an Ethernet session has none. -/
def State.wrFails (s : State) (q : Nat) : Bool := decide (s.sessCarrier q < 2) && s.host.wrBad.contains (s.sessFn q)

/-- A DMA error: the session is FAULTED until it closes (R220). -/
def State.dmaFault (s : State) (q : Nat) : State :=
  if s.sessState q = 2 then (s.putFlag (Adr.SESS q) Fl.SESS_DMA_ERR true).put (Adr.SESS q) Fl.SESS_STATE 4 else s

/-- Where entry `n` of a ring of 2^`log2` entries lies (R212). -/
def entryAt (base log2 size n : Nat) : Nat := base + n % 2 ^ log2 * size

/-- A ring of 2^`log2` entries has a free entry (R213). -/
def ringFree (log2 head tail n : Nat) : Bool := decide ((tail + 2 ^ 32 - head) % 2 ^ 32 + n ≤ 2 ^ log2)

/-- A tail advanced: its MSI-X message is raised, or delayed by moderation (R221). -/
def Moder.advance (m : Moder) (tick mod : Nat) : Moder :=
  match m.last with
  | some t => if tick < t + usTicks mod then { m with pend := true }
              else { m with last := some tick, pend := false, raised := m.raised + 1 }
  | none => { m with last := some tick, pend := false, raised := m.raised + 1 }

def Sess.moder (x : Sess) (ring : Nat) : Moder :=
  if ring = 0 then x.modCpl else if ring = 1 then x.modEvt else x.modRec

def Sess.vec (x : Sess) (ring : Nat) : Nat :=
  if ring = 0 then x.rings.cplVec else if ring = 1 then x.rings.evtVec else x.rings.recVec

def Sess.setModer (x : Sess) (ring : Nat) (m : Moder) : Sess :=
  if ring = 0 then { x with modCpl := m } else if ring = 1 then { x with modEvt := m } else { x with modRec := m }

/-- The 64 bytes of a status block (R213). -/
def StatBlock.bytes (b : StatBlock) : List Byte :=
  layout 64 [(0, le 4 b.cmdHead), (4, le 4 b.cplTail), (8, le 4 b.evtTail), (12, le 4 b.recTail), (16, le 1 b.state),
    (17, le 1 b.errs), (20, le 4 b.ns32)]

/-- A vector's message sent; it is no longer pending. -/
def State.sendMsi (s : State) (fn vec : Nat) : State :=
  let v := SMap.find {} s.host.msix (2048 * fn + vec)
  State.hubEvent { s with host := { s.host with
    msi := some (v.addr, v.data), msix := SMap.put {} s.host.msix (2048 * fn + vec) { v with pend := false } } } 0x0C 1

/-- A message of a function's vector can be sent: neither the vector nor the function is masked, and the device may write (R201, R210). -/
def State.canSignal (s : State) (fn vec : Nat) : Bool :=
  !(SMap.find {} s.host.msix (2048 * fn + vec)).masked && !s.msixMask fn && s.fnDma fn

/-- The message of a function's vector: sent, or pending while it cannot be; none while MSI-X is not enabled (R201, R221). -/
def State.signal (s : State) (fn vec : Nat) : State :=
  if s.msixOn fn = false then s
  else if s.canSignal fn vec then s.sendMsi fn vec
  else
    let v := SMap.find {} s.host.msix (2048 * fn + vec)
    { s with host := { s.host with msix := SMap.put {} s.host.msix (2048 * fn + vec) { v with pend := true } } }

/-- The pending messages of a function that can now be sent are sent. -/
def State.sendPending (s : State) (fn : Nat) : State :=
  if s.msixOn fn then
    s.host.msix.foldl (fun s e =>
      if e.1 / 2048 == fn && e.2.pend && s.canSignal fn (e.1 % 2048) then s.sendMsi fn (e.1 % 2048) else s) s
  else s

/-- The status block formed and written at STAT_BASE, after the entries it counts (R213), then the interrupt of the ring whose
tail advanced (R221); `ring` 3 where no tail did, and then no entry is written with it. A failed write puts the session into
FAULTED (R220). -/
def State.writeStat (s : State) (q ring : Nat) : State :=
  match s.sess? q with
  | none => s
  | some x =>
    if x.eth.isSome || !s.dmaOk q then s
    else if s.wrFails q then s.dmaFault q
    else
      let st : StatBlock := {
        cmdHead := s.get (Adr.SESS q) Fl.SESS_CMD_HEAD, cplTail := x.cplTail, evtTail := x.evtTail, recTail := x.recTail
        state := s.sessState q
        errs := s.get (Adr.SESS q) Fl.SESS_DB_ERR + 2 * s.get (Adr.SESS q) Fl.SESS_DMA_ERR, ns32 := s.ns32 }
      let x := { x with
        stat := st, posted := (if ring = 3 then [] else x.posted) ++ [(x.rings.statBase, st.bytes)] }
      let s := s.hubEvent 0x0C 1
      if ring = 3 ∨ x.vec ring = 0xffff then s.setSess q x
      else
        let m := (x.moder ring).advance s.tick x.rings.mod
        let s := s.setSess q (x.setModer ring m)
        if m.pend then s else s.signal (s.sessFn q) (x.vec ring)

/-- The header of a session transport datagram from the device (R223). -/
def Sent.header (d : Sent) : List Byte :=
  le 4 0x4B435458 ++ le 1 1 ++ le 1 d.ty ++ le 2 d.count ++ le 2 d.q ++ le 1 (d.port + 1) ++ le 1 1 ++ le 4 d.epoch
    ++ le 8 d.seq ++ le 8 d.index

/-- The nonce of a session transport datagram: SESSION, CHANNEL, DIR and DGRAM_SEQ (R223). -/
def sessNonce (q channel dir seq : Nat) : List Byte := le 2 q ++ le 1 channel ++ le 1 dir ++ le 8 seq

/-- The UDP payload of a datagram: its body in clear below TYPE 0x04, else under the session transport key (R223). -/
def Sent.sealed (d : Sent) (key : List Byte) : Sent :=
  { d with payload := d.header ++
      (if d.ty < 4 then d.body else gcmSeal key (sessNonce d.q (d.port + 1) 1 d.seq) d.header d.body) }

/-- A datagram of the session transport sent to the host of Ethernet session `q` (R222, R223). -/
def State.sendEth (s : State) (q ty count index : Nat) (body : List Byte) : State :=
  match s.sess? q with
  | none => s
  | some x =>
    match x.eth with
    | none => s
    | some e =>
      let d : Sent := {
        port := e.port, addr := e.hostAddr, udp := e.hostUdp, ty := ty, count := count, q := q, epoch := e.epoch, seq := e.txSeq
        index := index, body := body, payload := [] }
      let d := d.sealed e.key
      let s := (s.setSess q { x with eth := some { e with txSeq := e.txSeq + 1 } }).hubEvent 0x0D 1
      if e.port = 0 then { s with host := { s.host with out0 := some d } }
      else { s with host := { s.host with out1 := some d } }

/-- A completion of 32 bytes (R216). -/
def completionBytes (tag status op index ns32 : Nat) (result : List Byte) : List Byte :=
  le 4 tag ++ le 1 status ++ le 1 0 ++ le 2 op ++ le 4 index ++ le 4 ns32 ++ fit 16 result

/-- One completion entry written to the ring of an OPEN session; held while DMA is not allowed (R210). -/
def State.writeCpl (s : State) (q : Nat) (e : List Byte) : State :=
  match s.sess? q with
  | none => s
  | some x =>
    if s.sessState q ≠ 2 then s
    else if s.dmaOk q = false then s.setSess q { x with cplHeld := x.cplHeld ++ [e] }
    else if s.wrFails q then s.dmaFault q
    else
      let i := x.cplTail
      let s := s.setSess q { x with
        cpl := x.cpl ++ [e], cplTail := (i + 1) % 2 ^ 32, posted := [(entryAt x.rings.cplBase x.rings.cplLog2 32 i, e)] }
      if x.eth.isSome then s.sendEth q 0x05 1 i e else (s.hubEvent 0x0C 1).writeStat q 0

/-- A taken command whose instant the plan gate keeps across a warm reset: a park or a CAL_APPLY (R362). -/
def Taken.kept (t : Taken) : Bool := t.phase == .waiting && (t.op == 0x0104 || t.op == 0x0401)

/-- A command is taken that a warm reset waits for (R247). -/
def State.cmdsTaken (s : State) : Bool :=
  s.host.sess.any fun e => match e.2.taken with | some t => !t.kept | none => false

/-- Steps 3 and 4 of a warm reset (R362): a running list stops, and the hub cores are reset with the work that only they hold. -/
def State.resetCores (s : State) : State :=
  let st := s.get Adr.SCHED_STAT Fl.SCHED_STAT_STATE
  let runs := st == 1 || st == 2
  let stop := if runs then
      some (bodyOf [(0, 2, s.get Adr.SCHED_STAT Fl.SCHED_STAT_ENTRY), (4, 4, s.get Adr.SCHED_PASS Fl.SCHED_PASS_PASS)])
    else none
  let s := { s with pair := { s.pair with enrol := none, sent := [] } }
  let s := { s with ctl := { s.ctl with
    plan := { s.ctl.plan with compiles := [], oldSched := if runs then none else s.ctl.plan.oldSched }
    cal := { s.ctl.cal with runs := [] }
    boot := { s.ctl.boot with warmDue := false, warm := some s.tick, warmStop := stop, calOwed := false } } }
  let s := if runs then s.put Adr.SCHED_STAT Fl.SCHED_STAT_STATE 0 else s
  s.count Adr.BOOT_TIME Fl.BOOT_TIME_WARM 1

/-- A warm reset that waits goes on once the last command taken has completed. -/
def State.warmGoes (s : State) : State := if s.ctl.boot.warmDue && !s.cmdsTaken then s.resetCores else s

/-- The command session `q` has taken completes with `status` and `result`; a completion to a session that is no longer
OPEN is discarded (R210). -/
def State.complete (s : State) (q status : Nat) (result : List Byte) : State :=
  match s.sess? q with
  | none => s
  | some x =>
    match x.taken with
    | none => s
    | some t =>
      let s := s.setSess q { x with taken := none }
      (s.writeCpl q (completionBytes t.tag status t.op t.index s.ns32 (if status = 0 then result else []))).warmGoes

/-- A completion that carries its RESULT whatever its status (R237, COLLATERAL). -/
def State.completeWith (s : State) (q status : Nat) (result : List Byte) : State :=
  match s.sess? q with
  | none => s
  | some x =>
    match x.taken with
    | none => s
    | some t =>
      let s := s.setSess q { x with taken := none }
      (s.writeCpl q (completionBytes t.tag status t.op t.index s.ns32 result)).warmGoes

/-- An event entry of 32 bytes (R217), for a given domain bit, TQ, NS32 and FRAC8. -/
def eventBytes (code dom tq ns32 frac8 : Nat) (payload : List Byte) (eseq : Nat) : List Byte :=
  le 2 code ++ le 1 (dom + 2 * tq) ++ le 1 0 ++ le 4 ns32 ++ le 4 frac8 ++ fit 16 payload ++ le 4 eseq

/-- One half of an ANCHOR event (R217). -/
def anchorEvent (s : State) (d : Dom) (eseq : Nat) : List Byte :=
  let x := s.time.dom d
  le 2 1 ++ le 1 (domIx d + 2 * (if s.tqOf d = 2 then 1 else 0) + 4 * s.tqOf d + 16 * (if x.setf then 1 else 0)
      + 32 * domIx s.sdom) ++ le 1 0 ++ le 4 x.ns32 ++ le 4 x.ns ++ le 6 x.sec ++ le 2 s.time.anum ++ le 8 s.tick
    ++ le 4 eseq

/-- An entry with its ESEQ set. -/
def withEseq (e : List Byte) (n : Nat) : List Byte := e.take 28 ++ le 4 n

/-- Entries appended to the event ring, which has room for them. -/
def State.pushEvts (s : State) (q : Nat) (es : List (List Byte)) : State :=
  match s.sess? q with
  | none => s
  | some x =>
    if s.wrFails q then s.dmaFault q else
    let i := x.evtTail
    let es := es.zipIdx.map fun e => withEseq e.1 (x.eseq + e.2)
    let s := s.setSess q { x with
      evt := x.evt ++ es, evtTail := (i + es.length) % 2 ^ 32, eseq := (x.eseq + es.length) % 2 ^ 32
      posted := es.zipIdx.map fun e => (entryAt x.rings.evtBase x.rings.evtLog2 32 (i + e.2), e.1) }
    if x.eth.isSome then s.sendEth q 0x06 es.length i es.flatten else (s.hubEvent 0x0C es.length).writeStat q 1

/-- The event ring of `q` takes `n` more entries. -/
def State.evtRoom (s : State) (q : Nat) (x : Sess) (n : Nat) : Bool :=
  s.dmaOk q && ringFree x.rings.evtLog2 x.evtHead x.evtTail n

/-- What was held back is written as entries free: EV_LOST first, then the anchor pair (R219). -/
def State.flushEvts (s : State) (q : Nat) : State :=
  let s := match s.sess? q with
    | none => s
    | some x =>
      if x.lostPend ≠ 0 ∧ s.evtRoom q x 1 then
        let s := s.pushEvts q [eventBytes 0x0002 (domIx s.sdom) s.tq s.ns32 s.frac8 (le 4 x.lostPend) 0]
        s.onSess q fun x => { x with lostPend := 0 }
      else s
  match s.sess? q with
  | none => s
  | some x =>
    if x.anchorHeld ≠ [] ∧ x.lostPend = 0 ∧ s.evtRoom q x 2 then
      let s := s.pushEvts q x.anchorHeld
      s.onSess q fun x => { x with anchorHeld := [] }
    else s

/-- One event posted to session `q`, at a given time; lost and counted where the ring has no free entry (R219). -/
def State.postAt (s : State) (q code dom tq ns32 frac8 : Nat) (payload : List Byte) : State :=
  if s.sessState q ≠ 2 then s else
  match s.sess? q with
  | none => s
  | some x =>
    if s.evtRoom q x 1 && x.lostPend == 0 && x.anchorHeld.isEmpty then
      s.pushEvts q [eventBytes code dom tq ns32 frac8 payload 0]
    else
      let s := s.count (Adr.SESS q) Fl.SESS_EV_LOST 1
      s.onSess q fun x => { x with lostPend := min 0xffffffff (x.lostPend + 1) }

/-- One event posted to session `q` now. -/
def State.post (s : State) (q code : Nat) (payload : List Byte) : State :=
  s.postAt q code (domIx s.sdom) s.tq s.ns32 s.frac8 payload

/-- An event to every open owner session (R218), at a given time of the stamping domain. -/
def State.postOwnersAt (s : State) (code ns32 frac8 : Nat) (payload : List Byte) : State :=
  s.sessIds.foldl (fun s q => if s.sessRole q = 1 then s.postAt q code (domIx s.sdom) s.tq ns32 frac8 payload else s) s

/-- An event to every open owner session now. -/
def State.postOwners (s : State) (code : Nat) (payload : List Byte) : State :=
  s.postOwnersAt code s.ns32 s.frac8 payload

/-- The anchor pair of this tick to the event ring of `q`; held back, in place of an older pair, where fewer than two
entries are free (R219). -/
def State.postAnchor (s : State) (q : Nat) : State :=
  if s.sessState q ≠ 2 then s else
  match s.sess? q with
  | none => s
  | some x =>
    let pair := [anchorEvent s .A 0, anchorEvent s .B 0]
    if s.evtRoom q x 2 && x.lostPend == 0 && x.anchorHeld.isEmpty then s.pushEvts q pair
    else s.setSess q { x with anchorHeld := pair }

/-- What the device writes into the command buffer of session `q`: host memory on PCIe, the bulk window on Ethernet
(R215, R225), in packets of up to 512 bytes; nothing is written for a session whose DMA is forbidden. -/
def State.writeBuf (s : State) (q addr : Nat) (bs : List Byte) : State :=
  let s := if decide (s.sessCarrier q < 2) && s.dmaOk q then s.hubEvent 0x0C ((bs.length + 511) / 512) else s
  s.onSess q fun x =>
    match x.eth with
    | some e =>
      { x with hostBuf := (addr, bs), eth := some { e with
          bulk := (bs.zipIdx).foldl (fun m b => SMap.put 0 m (addr + b.2) b.1) e.bulk } }
    | none => if s.dmaOk q then { x with hostBuf := (addr, bs) } else x

/-- A session that shows an error: DB_ERR set and DOORBELL_ERR posted to it (R212). -/
def State.doorbellErr (s : State) (q off v : Nat) : State :=
  let s := s.putFlag (Adr.SESS q) Fl.SESS_DB_ERR true
  s.post q 0x0004 (le 2 off ++ le 4 v)

end Sys2Proof.Machine
end

