-- ==== Sys2Proof/Machine/Fabric.lean ====
section
/-! DEFINITION. The fabric (spec/02_switch_fabric.md R25 to R32), set-points (R106), the compiler (R104 to R111) and the
move profile (R113, R114), as functions of numbers. -/

namespace Sys2Proof.Machine

/-! ## Topology -/

/-- n, where the variant has 2ⁿ ports. -/
def logPorts (v : Variant) : Nat := if Variant.isSmall v then 8 else 9

/-- Element index of a cell's lead (p = 0) or trail (p = 1), and of an output's gate (R26). -/
def cellIx (v : Variant) (stage row p : Nat) : Nat := (stage * (numPorts v / 2) + row) * 2 + p
def gateIx (v : Variant) (o : Nat) : Nat := (2 * logPorts v - 1) * numPorts v + o
def isGate (v : Variant) (e : Nat) : Bool := decide (gateIx v 0 ≤ e)
def gateOut (v : Variant) (e : Nat) : Nat := e - gateIx v 0

/-- Bit `b` of `n` as a number. -/
def bitAt (n b : Nat) : Nat := n / 2 ^ b % 2

/-- Row, input port and output port at stage `s` of the path from input `i` to output `o` through middle row `m` (R28). -/
def pathRow (n i o m s : Nat) : Nat :=
  if s < n then m / 2 ^ (n - 1 - s) * 2 ^ (n - 1 - s) + i / 2 ^ (s + 1)
  else m / 2 ^ (s - n + 1) * 2 ^ (s - n + 1) + o / 2 ^ (2 * n - 1 - s)
def pathIn (n i m s : Nat) : Nat := if s < n then bitAt i s else bitAt m (s - n)
def pathOut (n o m s : Nat) : Nat := if s + 1 < n then bitAt m (n - 2 - s) else bitAt o (2 * n - 2 - s)

/-- The cell is CROSS where its ports differ (R28). -/
def pathCross (n i o m s : Nat) : Bool := pathIn n i m s != pathOut n o m s

/-! ## Output words of a plan (R110) -/

def wIn (w : Nat) : Nat := w % 1024
def wM (w : Nat) : Nat := w / 2 ^ 10 % 256
def wAtt (w : Nat) : Nat := w / 2 ^ 18 % 256
def wCirc (w : Nat) : Bool := w.testBit 31
def mkWord (i m att : Nat) (circ : Bool) : Nat :=
  i + 2 ^ 10 * m + (if circ then 2 ^ 18 * att + 2 ^ 31 else 0)

/-- The output word of output `o` of a plan; an empty plan has no path at all. -/
def wordOf (ws : List Nat) (o : Nat) : Nat := ws.getD o 0

/-- The cell elements of the path of output `o` under word `w`: element index, and whether the cell is CROSS. -/
def pathCells (v : Variant) (o w : Nat) : List (Nat × Bool) :=
  let n := logPorts v
  ((List.range (2 * n - 1)).map fun s =>
    let r := pathRow n (wIn w) o (wM w) s
    let x := pathCross n (wIn w) o (wM w) s
    [(cellIx v s r 0, x), (cellIx v s r 1, x)]).flatten

/-- Every element the circuit of output `o` passes: its cells, then its gate. -/
def pathLanes (v : Variant) (o w : Nat) : List Nat := (pathCells v o w).map Prod.fst ++ [gateIx v o]

/-- The state a plan gives the cell of element `e`: none where the plan routes nothing (no plan in force). -/
def cellCross (v : Variant) (ws : List Nat) (e : Nat) : Option Bool :=
  let n := logPorts v
  let s := e / 2 / (numPorts v / 2)
  let r := e / 2 % (numPorts v / 2)
  (ws.zipIdx.find? fun x => pathRow n (wIn x.1) x.2 (wM x.1) s == r).map fun x =>
    pathCross n (wIn x.1) x.2 (wM x.1) s

/-- The outputs whose circuits pass the cell of element `e` (R119). -/
def circuitsThrough (v : Variant) (ws : List Nat) (e : Nat) : List Nat :=
  let n := logPorts v
  let s := e / 2 / (numPorts v / 2)
  let r := e / 2 % (numPorts v / 2)
  (ws.zipIdx.filter fun x => wCirc x.1 && pathRow n (wIn x.1) x.2 (wM x.1) s == r).map Prod.snd

/-! ## Set-points (R32, R88, R106) -/

/-- Bytes of the factory record (R86): 64 of header, 10 per element, 8 per port, 96 of signature. -/
def frLen (v : Variant) : Nat := 64 + 10 * numElems v + 8 * numPorts v + 96

/-- `n` bytes of the factory record from offset `o`, little-endian. -/
def frField (o n : Nat) : Nat := ((List.range n).map fun k => 256 ^ k * (Config.frByte (o + k)).toNat).sum

/-- The format version of its header, which follows the 4 bytes of its magic. -/
def frFormat : Nat := frField 4 2

/-- Its five 16-bit fields of element `e`: FR_SCALE, FR_OFS, RESP_B, RESP_C, RESP_Q. -/
def frElem (e k : Nat) : Nat := frField (0x40 + 10 * e + 2 * k) 2

/-- A field of a record between the limits of its range: Karioten writes no record with a value outside (R106, R393). -/
def inRange (lo hi n : Nat) : Nat := max lo (min hi n)

def frScale (e : Nat) : Nat := inRange 0x8400 0xC000 (frElem e 0)
def frOfs (e : Nat) : Nat := frElem e 1
def frResp (e t : Nat) : Nat := inRange 4000 11000 (frElem e (2 + t))

/-- DELAY and TC of input `p`, 8 bytes per port after the elements (R86, R393). -/
def frDelay (v : Variant) (p : Nat) : Nat := inRange 0x300 0x700 (frField (0x40 + 10 * numElems v + 8 * p) 4)
def frTc (v : Variant) (p : Nat) : Int := clampInt (-5000) 5000 (signed 16 (frField (0x40 + 10 * numElems v + 8 * p + 4) 2))

def wrap16 (z : Int) : Int := signed 16 (wrap 16 z)

/-- θ_A in pu for an attenuation in 0.1 dB: 2 × acos(10^(−A/20)) to the nearest pu (R32). -/
def thetaTab0 : List Nat := [
  0, 3159, 4459, 5451, 6282, 7010, 7665, 8263, 8817, 9333, 9819, 10279, 10715, 11131, 11529, 11910, 12277, 12630, 12971,
  13301, 13620, 13929, 14229, 14521, 14804, 15080, 15349, 15611, 15866, 16116, 16359, 16597, 16830, 17058, 17280, 17498, 17712, 17921]

def thetaTab1 : List Nat := [
  18126, 18327, 18525, 18718, 18908, 19094, 19277, 19457, 19633, 19807, 19977, 20145, 20310, 20472, 20631, 20788, 20942, 21093, 21243,
  21390, 21534, 21677, 21817, 21955, 22091, 22225, 22357, 22486, 22615, 22741, 22865, 22988, 23108, 23227, 23345, 23460, 23575, 23687]

def thetaTab2 : List Nat := [
  23798, 23907, 24015, 24122, 24227, 24330, 24432, 24533, 24632, 24730, 24827, 24923, 25017, 25110, 25202, 25292, 25381, 25470, 25557,
  25643, 25727, 25811, 25894, 25975, 26056, 26136, 26214, 26292, 26368, 26444, 26518, 26592, 26665, 26737, 26808, 26878, 26947, 27016]

def thetaTab3 : List Nat := [
  27083, 27150, 27216, 27281, 27345, 27409, 27471, 27533, 27594, 27655, 27715, 27774, 27832, 27889, 27946, 28002, 28058, 28113, 28167,
  28220, 28273, 28326, 28377, 28428, 28479, 28528, 28578, 28626, 28674, 28722, 28769, 28815, 28861, 28906, 28951, 28995, 29039]

def thetaAtt (att : Nat) : Nat :=
  (thetaTab0 ++ thetaTab1 ++ thetaTab2 ++ thetaTab3).getD (min att 150) 0

def phiBar (e : Nat) : Int := roundDiv (wrap16 (-(frOfs e : Int)) * 32768) (frScale e)
def phiCross (e : Nat) : Int :=
  phiBar e + (if phiBar e < 0 then 1 else -1) * roundDiv (2 ^ 30) (frScale e)
def phiBlock (e : Nat) : Int := roundDiv (wrap16 (32768 - (frOfs e : Int)) * 32768) (frScale e)
def phiOpen (e att : Nat) : Int :=
  phiBlock e + (if phiBlock e < 0 then 1 else -1)
    * roundDiv ((32768 - (thetaAtt att : Int)) * 32768) (frScale e)

/-- The rest set-point: the bar point of a cell element, the blocking point of a gate (R77, R106). -/
def restPhi (v : Variant) (e : Nat) : Int := if isGate v e then phiBlock e else phiBar e

/-- A plan's set-point of a cell element (rest where the plan routes nothing), and of a gate. -/
def cellPhi (v : Variant) (ws : List Nat) (e : Nat) : Int :=
  match cellCross v ws e with
  | some true => phiCross e
  | _ => phiBar e
def gatePhi (v : Variant) (ws : List Nat) (o : Nat) : Int :=
  let w := wordOf ws o
  if wCirc w then phiOpen (gateIx v o) (wAtt w) else phiBlock (gateIx v o)
def planPhi (v : Variant) (ws : List Nat) (e : Nat) : Int :=
  if isGate v e then gatePhi v ws (gateOut v e) else cellPhi v ws e

/-- The 20 KiB of a slot (R110). -/
def slotBytes (v : Variant) (ws : List Nat) : List Byte :=
  fit 18432 (((List.range (numElems v)).map fun e => le 2 (wrap 16 (planPhi v ws e))).flatten)
    ++ fit 2048 ((ws.map (le 4)).flatten)

/-! ## Port lists (R104, R105, R107) -/

/-- One entry of a port list. -/
structure PortEntry where
  input : Nat
  output : Nat
  att : Nat
  deriving DecidableEq, Repr, Inhabited

def portEntry (w : Nat) : PortEntry := ⟨w % 1024, w / 1024 % 1024, min 150 (w / 2 ^ 20 % 256)⟩

/-- The entries of a list whose header says `count`. -/
def portEntries (bs : List Byte) (count : Nat) : List PortEntry :=
  (List.range count).map fun k => portEntry (rdLE bs (16 + 4 * k) 4)

/-- The winner of output `o`: the lowest INPUT, and of equal INPUTs the first (R105, step 2). -/
def winner (es : List PortEntry) (o : Nat) : Option PortEntry :=
  es.foldl (fun b e => if e.output = o then
    (match b with | none => some e | some x => if e.input < x.input then some e else b) else b) none

/-- The circuits a list resolves to, by output: input and attenuation (R105). -/
def resolve (v : Variant) (es : List PortEntry) : List (Option (Nat × Nat)) :=
  let ok := es.filter fun e => decide (e.input < numPorts v) && decide (e.output < numPorts v)
  (List.range (numPorts v)).foldl (fun acc o =>
    acc ++ [match winner ok o with
      | some e => if acc.any (fun c => match c with | some c => c.1 == e.input | none => false) then none
                  else some (e.input, e.att)
      | none => none]) []

/-- The inputs that win no output, ascending, and the ignored entries by index (R105). -/
def losers (v : Variant) (es : List PortEntry) (cs : List (Option (Nat × Nat))) : List Nat :=
  (List.range (numPorts v)).filter fun i =>
    es.any (fun e => e.input == i && decide (e.output < numPorts v))
      && !cs.any (fun c => match c with | some c => c.1 == i | none => false)
def ignoredEntries (v : Variant) (es : List PortEntry) : List Nat :=
  (es.zipIdx.filter fun e => decide (numPorts v ≤ e.1.input) || decide (numPorts v ≤ e.1.output)).map Prod.snd

/-- A path to be routed: input, output, its middle row in the base where it is kept, and the bits of m chosen so far. -/
structure Route where
  i : Nat
  o : Nat
  base : Option Nat
  m : Nat
  deriving DecidableEq, Repr, Inhabited

/-- The plan completed to a full permutation (R107): unused inputs paired with unused outputs, both ascending. -/
def completePlan (v : Variant) (cs : List (Option (Nat × Nat))) (base : List Nat) : List Route :=
  let used := cs.filterMap fun c => c.map Prod.fst
  let free := (List.range (numPorts v)).filter fun i => !used.contains i
  (cs.zipIdx.foldl (fun (acc : List Route × List Nat) c =>
    match c.1 with
    | some (i, _) =>
      let w := wordOf base c.2
      (acc.1 ++ [⟨i, c.2, if wCirc w && wIn w == i then some (wM w) else none, 0⟩], acc.2)
    | none => (acc.1 ++ [⟨acc.2.headD 0, c.2, none, 0⟩], acc.2.tail)) ([], free)).1

/-- One level of the looping algorithm (R108): the group with each path's bit, none while unassigned. -/
abbrev Group := List (Route × Option Bool)

def Group.assign (g : Group) (o : Nat) (b : Bool) : Group :=
  g.map fun x => if x.1.o = o then (x.1, some b) else x

/-- The walk around one loop from the path with output `o`, which takes `b`; `start` is where it ends. -/
def walkLoop (lv start : Nat) : Nat → Nat → Bool → Group → Group
  | 0, _, _, g => g
  | k + 1, o, b, g =>
    let g := g.assign o b
    match g.find? (fun x => x.1.o / 2 ^ lv == Nat.xor (o / 2 ^ lv) 1) with
    | none => g
    | some p =>
      let g := g.assign p.1.o (!b)
      match g.find? (fun x => x.1.i / 2 ^ lv == Nat.xor (p.1.i / 2 ^ lv) 1) with
      | none => g
      | some c => if c.1.o = start then g else walkLoop lv start k c.1.o b g

/-- The unassigned path with the lowest local input, kept ones first. -/
def nextStart (lv : Nat) (g : Group) : Option Route :=
  let pick := fun (p : Route → Bool) => g.foldl (fun b x =>
    if x.2.isNone && p x.1 then
      (match b with | none => some x.1 | some (y : Route) => if x.1.i / 2 ^ lv < y.i / 2 ^ lv then some x.1 else b)
    else b) none
  match pick fun r => r.base.isSome with
  | some r => some r
  | none => pick fun _ => true

def routeGroup (lv pos : Nat) : Nat → Group → Group
  | 0, g => g
  | k + 1, g =>
    match nextStart lv g with
    | none => g
    | some c =>
      let b := match c.base with | some m => m.testBit pos | none => false
      routeGroup lv pos k (walkLoop lv c.o g.length c.o b g)

/-- Every level in turn: each group is split by the bit its paths took. -/
def routeLevels (n : Nat) : Nat → List (List Route) → List (List Route)
  | 0, gs => gs
  | k + 1, gs =>
    let lv := n - 2 - k
    routeLevels n k (gs.flatMap fun g =>
      let a := routeGroup lv k g.length (g.map fun r => (r, none))
      [(a.filter fun x => x.2 != some true).map Prod.fst,
       (a.filter fun x => x.2 == some true).map fun x => { x.1 with m := x.1.m + 2 ^ k }])

/-- The routed paths of a full permutation (R108). -/
def routePlan (v : Variant) (rs : List Route) : List Route :=
  (routeLevels (logPorts v) (logPorts v - 1) [rs]).flatten

/-- What a compile forms (R105 to R109): output words, collateral outputs, conflict losers, ignored entries. -/
structure Compiled where
  words : List Nat
  collateral : List Nat
  losers : List Nat
  ignored : List Nat
  circuits : Nat
  deriving DecidableEq, Repr, Inhabited

def compilePlan (v : Variant) (es : List PortEntry) (base : List Nat) : Compiled :=
  let cs := resolve v es
  let rs := routePlan v (completePlan v cs base)
  let ws := cs.zipIdx.map fun c =>
    match rs.find? (fun r => r.o == c.2) with
    | some r => (match c.1 with
      | some (i, att) => mkWord i r.m att true
      | none => mkWord r.i r.m 0 false)
    | none => 0
  let coll := rs.filter fun r => match r.base with | some m => m != r.m | none => false
  { words := ws
    collateral := (List.range (numPorts v)).filter fun o => coll.any fun r => r.o == o
    losers := losers v es cs, ignored := ignoredEntries v es
    circuits := (cs.filter Option.isSome).length }

/-! ## Move duration and profile (R113, R114), in 2⁻⁶⁴ µs, 2⁻⁶⁴ rad -/

/-- The largest r with rᵏ ≤ x, from bit `b` down. -/
def rootFrom (k x : Nat) : Nat → Nat → Nat
  | 0, r => if (r + 1) ^ k ≤ x then r + 1 else r
  | b + 1, r => rootFrom k x b (if (r + 2 ^ (b + 1)) ^ k ≤ x then r + 2 ^ (b + 1) else r)

def one64 : Nat := 2 ^ 64

/-- 2π in 2⁻⁶⁴. -/
def twoPi : Nat := 115904311329233965478

def radOf (pu : Nat) : Nat := pu * twoPi / 65536

/-- V_MAX, A_MAX, J_MAX as MOVE_LIM gives them, values outside their ranges treated as its Meaning states. -/
def limV (w : Word) : Nat := let v := getBits w 0 8; if v = 0 ∨ 8 < v then 8 else v
def limA (w : Word) : Nat := let a := getBits w 8 8; if a = 0 ∨ 60 < a then 60 else a
def limJ (w : Word) : Nat :=
  let j := getBits w 16 16; if j = 0 ∨ 900 < j then 900 else if j < 10 then 10 else j

/-- The shape of a time-optimal move: jerk time, constant-acceleration time, cruise time, and T. -/
structure Shape where
  tj : Nat
  ta : Nat
  tc : Nat
  deriving DecidableEq, Repr, Inhabited

def Shape.total (x : Shape) : Nat := 4 * x.tj + 2 * x.ta + x.tc

/-- R113: the shape of the move of Δ rad under limits V, A, J. -/
def moveShape (w : Word) (delta : Nat) : Shape :=
  let v := limV w
  let a := limA w
  let j := limJ w
  let ae := min (a * one64) (rootFrom 2 (v * j * one64 * one64) 72 0)
  let tj := ae / j
  let ta := v * one64 * one64 / ae - tj
  let dV := v * (v * one64 * one64 / ae + tj)
  let dA := 2 * ae ^ 3 / (j ^ 2 * one64 ^ 2)
  if delta = 0 then ⟨0, 0, 0⟩
  else if dV ≤ delta then ⟨tj, ta, (delta - dV) / v⟩
  else if dA ≤ delta then
    let vp := ae * (rootFrom 2 (tj ^ 2 + 4 * delta * one64 * one64 / ae) 80 0 - tj) / (2 * one64)
    ⟨tj, vp * one64 / ae - tj, 0⟩
  else ⟨rootFrom 3 (delta * one64 ^ 2 / (2 * j)) 80 0, 0, 0⟩

/-- D_s in ns: 8 × ceil(T / 8 ns). -/
def moveDs (w : Word) (dmax : Nat) : Nat :=
  8 * (((moveShape w (radOf dmax)).total * 1000 + 8 * one64 - 1) / (8 * one64))

/-- x(t) over the first half of the move, by phase (R113). -/
def Shape.half (x : Shape) (j t : Nat) : Nat :=
  let sq := fun (p q : Nat) => p * q / one64
  if t ≤ x.tj then j * sq (sq t t) t / 6
  else if t ≤ x.tj + x.ta then
    let u := t - x.tj
    j * sq (sq x.tj x.tj) x.tj / 6 + j * sq (sq x.tj x.tj) u / 2 + j * sq (sq x.tj u) u / 2
  else if t ≤ 2 * x.tj + x.ta then
    let u := t - x.tj - x.ta
    let x1 := j * sq (sq x.tj x.tj) x.tj / 6 + j * sq (sq x.tj x.tj) x.ta / 2 + j * sq (sq x.tj x.ta) x.ta / 2
    let v1 := j * sq x.tj x.tj / 2 + j * sq x.tj x.ta
    x1 + sq v1 u + j * sq (sq x.tj u) u / 2 - j * sq (sq u u) u / 6
  else
    let u := t - 2 * x.tj - x.ta
    let vp := j * sq x.tj (x.tj + x.ta)
    sq vp (2 * x.tj + x.ta) / 2 + sq vp u

/-- S_k = round(65,536 × x(min(8 ns × k, T)) / Δ) (R114). -/
def moveS (w : Word) (dmax k : Nat) : Nat :=
  let d := radOf dmax
  let x := moveShape w d
  let t := min (k * 8 * one64 / 1000) x.total
  let y := if 2 * t ≤ x.total then x.half (limJ w) t else d - x.half (limJ w) (x.total - t)
  if d = 0 then 65536 else if x.total ≤ t then 65536 else (2 * 65536 * y + d) / (2 * d)

end Sys2Proof.Machine
end

