-- ==== Sys2Proof/Machine/Lanes.lean ====
section
/-! DEFINITION. Lanes, combs and outputs (spec/01_architecture.md R14, spec/03_drive_and_sense.md R45 to R50,
spec/04_holding_loops.md R75 to R84, spec/06_reconfiguration.md R118): which action governs a lane, what its DAC converts,
how it enters and leaves each state, and the circuit state of an output. -/

namespace Sys2Proof.Machine

/-! ## Access -/

def State.lane (s : State) (e : Nat) : Lane := SMap.find {} s.ctl.lanes e
def State.setLane (s : State) (e : Nat) (x : Lane) : State :=
  { s with ctl := { s.ctl with lanes := SMap.put {} s.ctl.lanes e x } }
def State.onLane (s : State) (e : Nat) (f : Lane → Lane) : State := s.setLane e (f (s.lane e))

/-- `f` applied to every lane of the device. -/
def State.mapLanes (s : State) (f : Nat → Lane → Lane) : State :=
  { s with ctl := { s.ctl with lanes := SMap.mapFrom {} f (numElems s.variant) 0 s.ctl.lanes } }

/-- `f` applied to the 64 lanes of comb `c`. -/
def State.mapComb (s : State) (c : Nat) (f : Nat → Lane → Lane) : State :=
  { s with ctl := { s.ctl with lanes := SMap.mapRange {} f 64 (64 * c) s.ctl.lanes } }

def State.comb (s : State) (c : Nat) : Comb := SMap.find {} s.ctl.combs c
def State.setComb (s : State) (c : Nat) (x : Comb) : State :=
  { s with ctl := { s.ctl with combs := SMap.put {} s.ctl.combs c x } }
def State.onComb (s : State) (c : Nat) (f : Comb → Comb) : State := s.setComb c (f (s.comb c))
def State.mapCombs (s : State) (f : Nat → Comb → Comb) : State :=
  { s with ctl := { s.ctl with combs := SMap.mapFrom {} f (numCombs s.variant) 0 s.ctl.combs } }

def State.out (s : State) (o : Nat) : Out := SMap.find {} s.ctl.outs o
def State.setOut (s : State) (o : Nat) (x : Out) : State :=
  { s with ctl := { s.ctl with outs := SMap.put {} s.ctl.outs o x } }
def State.dac (s : State) (e : Nat) : Dac := SMap.find {} s.ctl.dacs e

def State.plan (s : State) : PlanUnit := s.ctl.plan
def State.setPlan (s : State) (p : PlanUnit) : State := { s with ctl := { s.ctl with plan := p } }
def State.boot (s : State) : BootUnit := s.ctl.boot
def State.setBoot (s : State) (b : BootUnit) : State := { s with ctl := { s.ctl with boot := b } }
def State.flt (s : State) : FltUnit := s.ctl.flt

def parkActive (s : State) (e : Nat) : Nat := s.get (Adr.PARK_CODE (e / 64) (e % 64)) Fl.PARK_CODE_ACTIVE

/-- Engine states of MC_STAT.STATE. -/
def State.engine (s : State) (c : Nat) : Nat := s.get (Adr.MC_STAT c) Fl.MC_STAT_STATE
def State.running (s : State) (c : Nat) : Bool := s.engine c == 1 && s.powered (combDomain s.variant c)

def State.noPilot (s : State) : Bool := s.flag Adr.PILOT_STAT Fl.PILOT_STAT_NO_PILOT
def State.switching (s : State) : Bool := s.flag Adr.PILOT_STAT Fl.PILOT_STAT_SWITCHING

/-- The factory record is valid (R87). -/
def State.frValid (s : State) : Bool := s.flag Adr.FR_STAT Fl.FR_STAT_VALID

/-! ## Which action governs a lane (R14, R45) -/

/-- The device-wide actions in force, read once: the ramp has ended, the power-good bits, DRV_CLR_N low, the FATAL latch,
the panels safety-parked. -/
structure Acts where
  v : Variant
  enDone : Bool
  pg : Nat
  clr : Bool
  fatal : Bool
  panels : Nat
  deriving DecidableEq, Repr

def State.clrLow (s : State) : Bool := s.flag Adr.DRV_STAT Fl.DRV_STAT_CLR_LOW
def State.fatal (s : State) : Bool := s.flag Adr.FLT_GSTAT Fl.FLT_GSTAT_FATAL

def State.acts (s : State) : Acts where
  v := s.variant
  enDone := s.flag Adr.DRV_STAT Fl.DRV_STAT_EN_DONE
  pg := s.get Adr.PWR_STAT Fl.PWR_STAT_PG
  clr := s.clrLow
  fatal := s.fatal
  panels := s.get Adr.SAFE_STAT Fl.SAFE_STAT_PANEL_PARK

/-- Zero drive: the ramp has not ended, or the comb is unpowered (R45 rank 1; EN_DONE falls with EN, DRV_PG and power). -/
def Acts.zeroDrive (a : Acts) (e : Nat) : Bool := !a.enDone || !a.pg.testBit (combDomain a.v (e / 64))

/-- A safety park in force on a gate lane: its panel of 128 gates is parked (R327). -/
def Acts.safetyPark (a : Acts) (e : Nat) : Bool := isGate a.v e && a.panels.testBit (gateOut a.v e / 128)

/-- A fault park in force on the lane: its own, one issued for it, or the device scope of a FATAL reaction. -/
def Acts.faultPark (a : Acts) (x : Lane) : Bool := a.fatal || x.faultPark || !x.forced.isEmpty || x.holdPark

/-- Rank 2 of R45. -/
def Acts.rank2 (a : Acts) (e : Nat) (x : Lane) : Bool := a.clr || a.safetyPark e || a.faultPark x

/-- PARK_CAUSE: the first of SAFETY, CLEAR, FAULT and PLAN in force, or 0 (R84); a cell lane that DRV_CLR_N has released keeps CLEAR
until its boundary where no other park than a plan park holds it (R48). -/
def Acts.parkCause (a : Acts) (e : Nat) (x : Lane) : Nat :=
  if a.safetyPark e then 3
  else if a.clr then 2
  else if a.faultPark x then 4
  else if x.clearUntil.isSome then 2
  else if x.planPark then 1 else 0

/-- A comb hold in scope (rank 3). -/
def Comb.held (x : Comb) : Bool := x.holdMc || x.holdPar
def State.holdOn (s : State) (e : Nat) : Bool := (s.comb (e / 64)).held

/-- A reaction-bus action or zero drive is in force on the lane, or a fault park is about to reach it (R119): no plan-gate
item reaches it (R14). -/
def State.acted (s : State) (e : Nat) : Bool :=
  s.acts.zeroDrive e || s.acts.rank2 e (s.lane e) || s.holdOn e || decide ((s.lane e).st = 7) || (s.lane e).waits

/-! ## Entering states at once (R84) -/

/-- A lane that stops being due or primed: prime count, history, skips. -/
def Lane.unprime (x : Lane) : Lane :=
  { x with primeCnt := 0, hv := false, consec := 0, postMove := none, abandoned := x.abandoned || x.st == 9 }

/-- Zero drive: OFF. A hold in scope stays on the lane, and governs it again once zero drive ends (R14); DEGRADED waits for
STABLE (R83). -/
def Lane.toOff (x : Lane) : Lane :=
  { x.unprime with st := 0, cause := 0, uncal := true, validated := false, kept := 0, latched := none,
                    remake := false, needsUnpark := false }

/-- A lane comes under rank 3: it keeps the code its DAC converted at the last strobe. A code still crossing is discarded, so
a lane that was under rank 5 or 6 resumes from the held code (R45, log 87). A moved lane that has not had its post-move iteration
owes none afterwards (DESIGN CHOICE, log 100). -/
def Lane.toHold (x : Lane) : Lane :=
  let k := x.held.getD x.committed
  { x with heldFrom := (if x.st = 1 then 1 else if x.st = 2 then 2 else 0), st := 7, hv := false,
           committed := k, before := k, abandoned := x.abandoned || x.st == 9, consec := 0, postMove := none }

/-- A lane takes at once what reaction-bus actions, zero drive and plan parks in force demand of it; releases wait for
their boundary or strobe. A lane taken from PARKED by a calibration stays CALIBRATING under the plan park it had (R84). A
gate keeps the cause of the park withdrawn last (R77). -/
def State.settleLane (s : State) (a : Acts) (e : Nat) (x : Lane) : Lane :=
  let x := if s.holdOn e || x.st == 7 then x else { x with held := none }
  if a.zeroDrive e then (if x.st = 0 then x else x.toOff)
  else
    let x := if x.st = 0 then { x with st := 1 } else x
    let cause := a.parkCause e x
    let x := if a.rank2 e x || cause != 0 then { x with remake := false } else x
    let x := if isGate s.variant e && (a.clr || a.safetyPark e) then { x with needsUnpark := true } else x
    if a.rank2 e x then
      let x := if x.st = 2 ∧ x.latched.isSome then x
               else { x.unprime with st := 2, latched := some (parkActive s e) }
      { x with cause := cause }
    else
      let x := { x with latched := none }
      if s.holdOn e && x.held.isSome then
        if x.st = 7 then x else x.toHold
      else if x.st = 7 then x
      else if cause = 1 ∧ x.st = 9 ∧ x.calFrom = 2 then x
      else if cause ≠ 0 then { (if x.st = 2 then x else x.unprime) with st := 2, cause := cause }
      else if x.st = 2 ∧ isGate s.variant e then
        { x with kept := if x.cause = 1 ∧ x.kept ≠ 0 then x.kept else x.cause }
      else x

/-- Every lane settled. -/
def State.settleAll (s : State) : State :=
  let a := s.acts
  s.mapLanes (s.settleLane a)

/-- One lane settled. -/
def State.settle (s : State) (e : Nat) : State := s.onLane e (s.settleLane s.acts e)

/-! ## Routines that an event reaches (R139 to R141) -/

/-- What a restart address belongs to: a routine, and for CAL_FIT its lane's procedure (R140). -/
def resumeKey (vec l : Nat) : Nat := 64 * vec + (if vec = 6 then l else 0)

/-- A routine has been abandoned: counted, and begun again from its restart address when it is next dispatched; a loop
iteration starts afresh (R139, R140). -/
def State.abandoned (s : State) (c vec : Nat) (m : Engine) : State :=
  let s := s.onComb c fun x => { x with
    run := none
    resume := match m.restart with
      | some a => if vec = 4 ∨ vec = 5 then x.resume else SMap.insert x.resume (resumeKey vec m.lane) a
      | none => x.resume }
  s.count (Adr.MC_CNT c) Fl.MC_CNT_ABANDONS 1

/-- An event reaches the routine in progress in comb `c`: it is abandoned, at once where it waits for a strobe, or, within its
epilogue, once that ends; LANE_STAT shows the states `shown` until then (R139, R141). -/
def State.interrupt (s : State) (c : Nat) (shown : List (Nat × Nat)) : State :=
  match (s.comb c).run with
  | none => s
  | some r =>
    if 0 < r.eng.epi ∧ r.eng.waits = false then
      s.onComb c fun x => { x with run := some { r with cut := true, shown := if r.cut then r.shown else shown } }
    else s.abandoned c r.vec r.eng

/-- The actions whose scope is comb `c`, each in force or not: zero drive, DRV_CLR_N, the device scope of a FATAL reaction, the park of
its gates' panel, the comb holds (R14, R139). -/
def State.scopes (s : State) (c : Nat) : List Bool :=
  let a := s.acts
  [a.zeroDrive (64 * c), a.clr, a.fatal, a.safetyPark (64 * c), (s.comb c).holdMc, (s.comb c).holdPar]

/-- An action of `new` that was not in force in `old`. -/
def anyNew (old new : List Bool) : Bool := (List.zip old new).any fun x => !x.1 && x.2

/-- Lane states in which an action, or the lane's move, holds the lane. -/
def Lane.taken? (x : Lane) : Bool := x.st == 0 || x.st == 2 || x.st == 6 || x.st == 7

/-- A routine that acts on one lane: POST_MOVE, ITER, CAL_FIT. -/
def Run.ofLane (r : Run) : Bool := decide (4 ≤ r.vec ∧ r.vec ≤ 6)

/-- The routine in progress in comb `c` is reached by what has changed since `s₀`: a lane routine where its lane has been parked,
held, turned off or taken by a move, and a comb routine where an action now has the comb in its scope and had not before. -/
def State.reaches (s₀ s : State) (c : Nat) (r : Run) : Bool :=
  if r.ofLane then (s.lane (64 * c + r.lane)).taken? && !(s₀.lane (64 * c + r.lane)).taken? else anyNew r.scopes (s.scopes c)

/-- The states that the lanes of comb `c`, or the one of a lane routine, had before. -/
def State.before (s₀ s : State) (c : Nat) (r : Run) : List (Nat × Nat) :=
  (List.range 64).filterMap fun l =>
    let e := 64 * c + l
    if (r.ofLane && l != r.lane) || (s₀.lane e).st == (s.lane e).st then none else some (l, (s₀.lane e).st)

/-- The routines that a change of lane states since `s₀` reaches. -/
def State.interrupts (s₀ s : State) : State :=
  s.ctl.combs.foldl (fun s e => match e.2.run with
    | some r =>
      if State.reaches s₀ s e.1 r then s.interrupt e.1 (State.before s₀ s e.1 r)
      else if r.scopes = s.scopes e.1 then s
      else s.onComb e.1 fun x => { x with run := some { r with scopes := s.scopes e.1 } }
    | none => s) s

/-- A comb hold asserted or another added: each lane holds the code its DAC converted last (R45), which reads 0x0000 under
zero drive (log 87). -/
def State.beginHold (s : State) (c : Nat) : State :=
  let s := s.mapComb c fun e x => if x.held.isSome then x else { x with held := some (s.dac e).code }
  let s' := s.settleAll
  match (s'.comb c).run with
  | some r => s'.interrupt c (State.before s s' c r)
  | none => s'

/-! ## Leaving states at a boundary or strobe (R76, R77, R84) -/

/-- First use (R76): PRIMING. -/
def State.prime (s : State) (e : Nat) (x : Lane) : Lane :=
  let p := parkActive s e
  { x with st := 3, cause := 0, kept := 0, primeCnt := 0, integ := 0, hv := false, feTimer := 0,
           committed := p, before := p, latched := none, consec := 0, clearUntil := none }

/-- A lane leaves PARKED: PRIMING, or UNCAL where no valid calibration is in force (R77). -/
def State.firstUse (s : State) (e : Nat) (x : Lane) : Lane :=
  { s.prime e x with st := if x.uncal then 1 else 3 }

/-- A lane leaves UNCAL: its set-point is the rest set-point (R77). -/
def State.leaveUncal (s : State) (e : Nat) (x : Lane) : Lane :=
  let y := s.firstUse e { x with uncal := false, validated := false }
  { y with sp := wrap 16 (restPhi s.variant e) }

/-- A lane leaves HOLD (R84). One held from UNCAL returns to UNCAL; from that boundary its state follows R101, so one
for which valid calibration came into force meanwhile leaves UNCAL as R77 states (R15). -/
def State.leaveHold (s : State) (e : Nat) (x : Lane) : Lane :=
  let x := { x with held := none, hv := false }
  if x.heldFrom = 1 then
    let y : Lane := { x.unprime with st := 1 }
    if y.validated then s.leaveUncal e y else y
  else if x.heldFrom = 2 then
    if isGate s.variant e ∨ s.acts.parkCause e x ≠ 0 then s.settleLane s.acts e { x with st := 2 } else s.firstUse e x
  else if x.primeCnt = 2 then { x with st := 4 }
  else s.prime e x

/-! ## What a DAC converts (R24, R42, R45) -/

/-- DAC_OUT at a strobe. A cell lane that DRV_CLR_N parked stays under rank 4 from the pin's rise to the boundary at which
it leaves park (log 87). -/
def State.dacOf (s : State) (a : Acts) (e : Nat) (x : Lane) : Dac :=
  if a.zeroDrive e then ⟨0, 0⟩
  else if a.rank2 e x then ⟨x.latched.getD (parkActive s e), 1⟩
  else if x.st = 7 then ⟨x.held.getD (parkActive s e), 2⟩
  else if x.st ≤ 2 then ⟨parkActive s e, 3⟩
  else if x.st = 6 then ⟨x.moveCode, 4⟩
  else if x.commitTick + 3 ≤ s.tick then ⟨x.committed, 5⟩
  else if Config.free (s.free + e) % 2 = 0 then ⟨x.committed, 5⟩ else ⟨x.before, 5⟩

/-- The arm voltages of element `e` (R42), in quarters of a nanovolt: G × 1.6 V × code / 16,384 is exactly
G × code × 390,625 such units. During the enable ramp they rise linearly, over its 6,250 ticks, to the voltages of
PARK_CODE.ACTIVE, and stay there until the strobe that ends it (R50). Otherwise they are those of the code converted at the last strobe,
and both 0 V where that was zero drive; a comb without power drives nothing. -/
def State.arms (s : State) (e : Nat) : Nat × Nat :=
  let g := 1 + s.get (Adr.DRV_CFG (e / 64)) Fl.DRV_CFG_GAIN_ACT
  let volts := fun (code : Nat) => (g * code * 390625, g * (16384 - code) * 390625)
  if s.powered (combDomain s.variant (e / 64)) = false then (0, 0)
  else
    match s.boot.rampEnd with
    | some t =>
      let v := volts (parkActive s e)
      let n := min 6250 (s.tick + 6250 - t)
      (v.1 * n / 6250, v.2 * n / 6250)
    | none => if (s.dac e).src = 0 then (0, 0) else volts (s.dac e).code

/-- V_A − V_B of element `e` (R42), in quarters of a nanovolt. -/
def State.armDiff (s : State) (e : Nat) : Int := ((s.arms e).1 : Int) - (s.arms e).2

/-- The DACs of a strobe: every lane converts the code of its highest-ranked source. -/
def State.strobe (s : State) : State :=
  let a := s.acts
  let late := s.ctl.lanes.any fun x => decide (s.tick < x.2.commitTick + 3)
  let dacs := if a.enDone then SMap.image {} {} (s.dacOf a) (numElems s.variant) 0 s.ctl.lanes else []
  { s with
    free := if late then s.free + numElems s.variant else s.free
    ctl := { s.ctl with dacs := dacs } }

/-! ## Circuit states (R118) -/

/-- A commit between its break and its make. -/
def State.broken (s : State) : Option Commit := s.plan.commits.find? fun c => c.phase != 0

/-- A lane makes its circuit DEGRADED: DEGRADED, HOLD, or parked or UNCAL at the bar point, where the path needs it
(R118, R119). -/
def Lane.degrades (x : Lane) (barNeeded : Bool) : Bool :=
  x.degraded || x.st == 7 || (barNeeded && (x.st == 1 || x.st == 2))

/-- State and input of an output as R118 orders them. A gate held (HOLD) from UNCAL is published as any path lane in HOLD is, and a
gate CALIBRATING from PARKED or UNCAL as a lane that is not STABLE: the table names neither (DESIGN CHOICE, log 101). -/
def State.outState (s : State) (o : Nat) : Nat × Nat :=
  let w := wordOf s.plan.inForce o
  let g := s.lane (gateIx s.variant o)
  let wh := (s.out o).withheld
  let inp := if wCirc w then wIn w else 0
  let parked := g.st = 2 ∨ (g.st = 7 ∧ g.heldFrom = 2)
  if (parked ∧ g.cause ≠ 4) ∨ (wCirc w ∧ wh = 1) then (6, inp)
  else if parked ∨ (wCirc w ∧ (g.st < 2 ∨ wh = 2)) then (7, inp)
  else if wCirc w = false then (0, 0)
  else
    let st := match s.broken with
      | some c =>
        if c.affected.contains o then (if c.phase = 1 then 1 else 2)
        else if c.attOnly.contains o ∧ c.phase = 2 then 2 else 0
      | none => 0
    if st ≠ 0 then (st, inp)
    else
      let path := pathLanes s.variant o w
      if path.any fun e => (s.lane e).degrades (cellCross s.variant s.plan.inForce e != some true) then (5, inp)
      else if path.all fun e => (s.lane e).st == 5 then (4, inp) else (3, inp)

/-- Light passes: LIT, STABLE, DEGRADED, or MOVING as attenuation-only. -/
def State.passing (s : State) (o : Nat) : Bool :=
  let st := (s.out o).st
  st == 3 || st == 4 || st == 5
    || (st == 2 && (match s.broken with | some c => c.attOnly.contains o | none => false))

/-- OUT_STAT's word, and OUT_VSTAT's for a view whose grant is `g` (R206). -/
def Out.word (x : Out) : Nat := x.input + 512 * x.st + 65536 * x.gen
def State.outVWord (s : State) (grant o : Nat) : Nat :=
  if !grant.testBit o then 0
  else
    let x := s.out o
    let shown := x.st ≠ 0 ∧ wCirc (wordOf s.plan.inForce o)
    let foreign := shown ∧ grant.testBit x.input = false
    (if foreign then 4096 else x.input) + 512 * x.st + 65536 * (x.chg % 65536)

/-- OUT_STATE to every session that STATES and its grant allow (R218, R255). -/
def State.postOut (s : State) (o : Nat) : State :=
  s.sessIds.foldl (fun s q =>
    match s.sess? q with
    | none => s
    | some x =>
      if x.mask.testBit 0 && x.grant.testBit o then
        let w := if s.sessRole q = 1 then (s.out o).word else s.outVWord x.grant o
        s.post q 0x0003 (le 2 o ++ le 4 w)
      else s) s

/-- The outputs' states formed anew; each change is published with its event (R118, R218). -/
def State.refreshOuts (s : State) : State :=
  (List.range (numPorts s.variant)).foldl (fun s o =>
    let n := s.outState o
    let x := s.out o
    if x.st = n.1 ∧ x.input = n.2 then s else (s.setOut o { x with st := n.1, input := n.2 }).postOut o) s

/-- Every lane settled, then every output: what follows any change of a reaction-bus action or of zero drive. -/
def State.react (s : State) : State := (State.interrupts s s.settleAll).refreshOuts

/-! ## GO_OK and PLAN_STAT (R124) -/

def State.schedState (s : State) : Nat := s.get Adr.SCHED_STAT Fl.SCHED_STAT_STATE

/-- GO_OK and PENDING as the hub forms them (R124); with CSP_EN sampled low PLAN_CFG.CSP_GO_EN has no effect (R249). The port
island's copy of GO_OK follows by its crossing (R254). -/
def State.refreshGo (s : State) : State :=
  let s := s.put Adr.PLAN_STAT Fl.PLAN_STAT_PENDING s.plan.commits.length
  let pairOk := s.role ≠ 1 ∨ s.flag Adr.PAIR_STAT Fl.PAIR_STAT_SOLO ∨ s.flag Adr.PAIR_STAT Fl.PAIR_STAT_LINK_UP
  let ok := s.powered 31 && s.flag Adr.PLAN_STAT Fl.PLAN_STAT_ARMED && s.flag Adr.PLAN_CFG Fl.PLAN_CFG_CSP_GO_EN
    && s.plan.commits.isEmpty && s.schedState != 1 && s.schedState != 2 && s.ledgerRoom 1
    && decide (s.role ≠ 2 ∧ pairOk) && decide (s.plan.goHold ≤ s.tick) && !s.plan.goStop
  let s := s.putFlag Adr.PLAN_STAT Fl.PLAN_STAT_GO_OK ok
  let p := { s.ctl.csp with goPlan := if ok then some (s.get Adr.PLAN_STAT Fl.PLAN_STAT_ARMED_ID) else s.ctl.csp.goPlan }
  if p.goHub = ok then { s with ctl := { s.ctl with csp := p } }
  else { s with ctl := { s.ctl with csp := { p with goHub := ok, goTick := s.tick, goEdges := 0 } } }

/-- The port island has taken the cleared flag: what an acceptance of a commit waits for (R125). -/
def State.clearGo (s : State) : State := { s with ctl := { s.ctl with csp := { s.ctl.csp with goOk := false } } }

/-- While no edge of CSP_CLK comes, a cleared GO_OK is in the island 12 ticks, 19.2 ns, after the hub cleared it (R125, R254). -/
def State.goExpire (s : State) : State :=
  let p := s.ctl.csp
  if p.goOk && !p.goHub && decide (p.goTick + 12 ≤ s.tick) then s.clearGo else s

/-- A new plan or other change is followed by GO_OK and the outputs. -/
def State.replan (s : State) : State := s.refreshOuts.refreshGo

end Sys2Proof.Machine
end

