-- ==== Sys2Proof/Machine/Law.lean ====
section
/-! DEFINITION. The control law as functions of numbers (spec/04_holding_loops.md R64 to R76). -/

namespace Sys2Proof.Machine

/-! ## Fixed-point operations (R65) -/

def sat16 (a : Int) : Int := clampInt (-32768) 32767 a
def sat32 (a : Int) : Int := clampInt (-2147483648) 2147483647 a
def satAdd32 (a b : Int) : Int := sat32 (a + b)
def mulShr (a b : Int) (n : Nat) : Int := sat32 (a * b / (2 ^ n : Nat))
def satInc8 (a : Nat) : Nat := if a < 0xff then a + 1 else 0xff
def satInc16 (a : Nat) : Nat := if a < 0xffff then a + 1 else 0xffff
/-- An arithmetic shift right. -/
def asr (a : Int) (n : Nat) : Int := a / (2 ^ n : Nat)

/-- A value held between two limits, the upper tested first (R71). -/
def clampHiLo (a lo hi : Int) : Int := if hi < a then hi else if a < lo then lo else a

/-! ## The phase estimate (R69) -/

def atanTab : List Int := [8192, 4836, 2555, 1297, 651, 326, 163, 81, 41, 20, 10, 5, 3, 1, 1]

/-- The CORDIC steps from step `k` on: x, y and z. -/
def cordic : List Int → Nat → Int → Int → Int → Int
  | [], _, _, _, z => z
  | t :: ts, k, x, y, z =>
    let xs := asr x k
    let ys := asr y k
    if 0 ≤ y then cordic ts (k + 1) (x + ys) (y - xs) (z + t) else cordic ts (k + 1) (x - ys) (y + xs) (z - t)

/-- atan2_pu: a phase in pu, 0 to 65,535. -/
def atan2pu (y x : Int) : Nat :=
  wrap 16 (if x < 0 then cordic atanTab 0 (-x) (-y) 32768 else cordic atanTab 0 x y 0)

/-! ## One iteration (R68, R70, R72) -/

/-- The calibration values in force of a lane (R68). -/
structure CalVals where
  ofs : List Int
  tg : List Int
  skew : Int
  kq : Int
  bias : Int
  ffSlope : Int
  deriving DecidableEq, Repr

/-- One reading: RESULT and GAIN. -/
structure Reading where
  raw : Int
  gain : Nat
  deriving DecidableEq, Repr

/-- A calibrated tap value referred to TIA gain 0x3. -/
def tapValue (r : Reading) (ofs tg : Int) : Int :=
  let m := mulShr (r.raw - ofs) tg 14
  (if m < 0 then 0 else m) * (2 ^ (6 - 2 * r.gain) : Nat)

/-- Tap values b, c and q. -/
def tapValues (k : CalVals) (rs : List Reading) : Int × Int × Int :=
  let v := fun (t : Nat) => tapValue (rs.getD t ⟨0, 0⟩) (k.ofs.getD t 0) (k.tg.getD t 0)
  (v 0, v 1, v 2)

/-- FF in 14 fractional bits for a signed set-point. -/
def ffOf (k : CalVals) (sp : Int) : Int := satAdd32 (k.bias * 2 ^ 14) (mulShr k.ffSlope sp 2)

/-- A code from u in 14 fractional bits, rounded half up. -/
def codeOf (u : Int) : Int := asr (satAdd32 u 8192) 14

/-- The phase estimate from tap values with sum `s` of at least 4,096. -/
def phiOf (k : CalVals) (b c q : Int) : Nat :=
  let s := b + c
  let x := sat16 (((b - c) * 2 ^ 15).tdiv s)
  let yr := sat16 (((2 * q - s) * 2 ^ 15).tdiv s)
  let yc := sat16 (yr - mulShr k.skew x 15)
  atan2pu (sat16 (mulShr k.kq yc 14)) x

/-- FE_TIMER after an iteration that counts (R67) or, for a computed one, whose |e| is `big` FE_LIM (R72). -/
def Lane.timer (x : Lane) (big : Bool) : Nat := if big then satInc16 x.feTimer else 0

/-- A computed iteration: what commit() makes visible, but for the lane's state. The second component says whether
following-error supervision trips. -/
def iterate (k : CalVals) (cs : Coeffs) (x : Lane) (b c q : Int) : Lane × Bool :=
  let phi := phiOf k b c q
  let e := wrap16 (x.sp - (phi : Int))
  let dm := wrap16 ((phi : Int) - x.phiPrev)
  let df := if x.hv then satAdd32 x.df (mulShr cs.alpha (dm * 2 ^ 16 - x.df) 16) else 0
  let d14 := if x.hv then sat32 (-(mulShr cs.kd df 18)) else 0
  let ff := ffOf k (wrap16 x.sp)
  let di := mulShr cs.ki e 2
  let held := (x.satHi && decide (0 < di)) || (x.satLo && decide (di < 0))
  let i0 := if held then x.integ else satAdd32 x.integ di
  let i := if x.primeCnt = 0 then 0 else clampHiLo i0 cs.iMin cs.iMax
  let u := if x.primeCnt = 0 then ff else satAdd32 (satAdd32 (satAdd32 ff (mulShr cs.kp e 2)) i) d14
  let n := codeOf u
  let hi := decide (cs.codeMax < n)
  let lo := !hi && decide (n < cs.codeMin)
  let code := if hi then cs.codeMax else if lo then cs.codeMin else n
  let big := decide (cs.feLim < (e.natAbs : Int))
  let timer := if x.primeCnt = 0 then x.feTimer else x.timer big
  let trip := decide (x.primeCnt ≠ 0) && big && decide (cs.feTime < timer)
  ({ x with
      phiPrev := phi, df := df, hv := true, integ := i, satHi := hi, satLo := lo, phiEst := phi, err := e
      feTimer := timer, feTrip := x.feTrip || trip
      primeCnt := min 2 (x.primeCnt + 1)
      before := x.committed, committed := code.toNat }, trip)

/-- The state a computed iteration leaves the lane in (R76, R84); DEGRADED clears as it becomes STABLE (R83). -/
def Lane.judge (x : Lane) (feLim : Int) : Lane :=
  if x.primeCnt < 2 then x
  else if (x.err.natAbs : Int) ≤ feLim then { x with st := 5, degraded := false } else { x with st := 4 }

/-- Why an iteration was not computed (R67). -/
inductive NotComputed where
  /-- REF_UNSET, or an overlap with a pilot switch window or a NO_PILOT span -/
  | source
  | stale
  | lowsig
  deriving DecidableEq, Repr

/-- An iteration that is not computed: flags, timer, history and prime count (R67, R75, R76). The second component says
whether following-error supervision trips. -/
def Lane.notComputed (x : Lane) (why : NotComputed) (feTime : Nat) : Lane × Bool :=
  let counts := why ≠ .source
  let timer := if counts then satInc16 x.feTimer else x.feTimer
  let trip := decide counts && decide (feTime < timer)
  ({ x with
      stale := x.stale || decide (why = .stale), lowsig := x.lowsig || decide (why = .lowsig)
      feTimer := timer, feTrip := x.feTrip || trip
      frozen := satInc8 x.frozen, hv := false, primeCnt := if x.primeCnt < 2 then 0 else 2 }, trip)

/-- A lane skipped at a boundary (R80). -/
def Lane.skipped (x : Lane) : Lane :=
  { x with skip := satInc16 x.skip, consec := satInc8 x.consec, hv := false,
           primeCnt := if x.primeCnt < 2 then 0 else 2 }

end Sys2Proof.Machine
end

