-- ==== Sys2Proof/Machine/Microcode.lean ====
section
/-! DEFINITION. The step engine of a comb (spec/07_comb_engine_microcode.md R129 to R134, R137 to R142): the decoding of
microwords and nanowords, the datapath of one step, and the run of one routine over the words that the stores hold. -/

namespace Sys2Proof.Machine

/-- `w` bits of `n` from bit `lo`. -/
def bits (n lo w : Nat) : Nat := n / 2 ^ lo % 2 ^ w

/-! ## Words (R130, R132) -/

inductive Micro where
  | exec (dc nano imm : Nat)
  | branch (dc : Nat) (neg : Bool) (cond target : Nat)
  | call (dc target : Nat)
  | ret (dc : Nat)
  | special (dc op : Nat) (final : Bool) (arg : Nat)
  deriving DecidableEq, Repr

def decodeMicro (n : Nat) : Micro :=
  let dc := bits n 19 3
  match bits n 22 2 with
  | 0 => .exec dc (bits n 10 9) (bits n 0 10)
  | 1 => .branch dc (n.testBit 18) (bits n 12 4) (bits n 0 12)
  | 2 => if n.testBit 18 then .ret dc else .call dc (bits n 0 12)
  | _ => .special dc (bits n 16 3) (n.testBit 12) (bits n 0 12)

structure Nano where
  srcA : Nat
  srcB : Nat
  srcC : Nat
  aluOp : Nat
  aluDest : Nat
  mulA : Nat
  mulB : Nat
  mulMode : Nat
  mulShift : Nat
  mulDest : Nat
  cordOp : Nat
  cordX : Nat
  cordY : Nat
  lmemOp : Nat
  lmemAddr : Nat
  laneSel : Nat
  lmemSrc : Nat
  csel : Nat
  lcOp : Nat
  flags : Nat
  ev : Nat
  deriving DecidableEq, Repr

def decodeNano (n : Nat) : Nano where
  srcA := bits n 0 5
  srcB := bits n 5 5
  srcC := bits n 10 5
  aluOp := bits n 15 5
  aluDest := bits n 20 5
  mulA := bits n 25 5
  mulB := bits n 30 5
  mulMode := bits n 35 3
  mulShift := bits n 38 6
  mulDest := bits n 44 5
  cordOp := bits n 49 3
  cordX := bits n 52 5
  cordY := bits n 57 5
  lmemOp := bits n 62 3
  lmemAddr := bits n 65 5
  laneSel := bits n 70 2
  lmemSrc := bits n 72 5
  csel := bits n 77 4
  lcOp := bits n 81 2
  flags := bits n 83 5
  ev := bits n 88 3

/-! ## The engine -/

/-- What a sense read delivers: RESULT, GAIN, usable under R66, and REF_UNSET. -/
structure SenseIn where
  raw : Int
  gain : Nat
  usable : Bool
  unset : Bool
  deriving DecidableEq, Repr

/-- What a routine can read: the stores, the byte lanes of a stored word (4096 × store + address) whose parity fails, lane area
words, comb words, sense results, coefficient snapshots, the conditions of R131 that the lane and the comb give, and PSEQ. -/
structure MEnv where
  micro : Nat → Nat
  nano : Nat → Nat
  fails : Nat → List Nat
  word : Nat → Nat → Int
  comb : Nat → Int
  sense : Nat → Nat → SenseIn
  coeff : Nat → List Int
  overlap : Bool
  cond : Nat → Bool
  pseq : Nat

/-- A 32-bit two's complement result. -/
def w32 (a : Int) : Int := signed 32 (wrap 32 a)
def u32 (a : Int) : Nat := wrap 32 a

/-- Source codes (R132). -/
def Engine.src (m : Engine) (v : MEnv) (imm csel code : Nat) : Int :=
  if code < 16 then m.regs.getD code 0
  else match code with
    | 0x10 => imm
    | 0x11 => signed 10 imm
    | 0x12 => m.lmd
    | 0x13 => m.srd
    | 0x14 => if csel < 10 then m.snap.getD csel 0 else 0
    | 0x15 => w32 m.acc
    | 0x16 => w32 (m.acc / 2 ^ 32)
    | 0x17 => m.cz
    | 0x18 => m.lane
    | 0x19 => m.lc
    | 0x1B => v.pseq
    | 0x1C => m.gain
    | _ => 0

/-- Bitwise operations on 32-bit words. -/
def bitOp (f : Word → Word → Word) (a b : Int) : Int := (f (BitVec.ofInt 32 a) (BitVec.ofInt 32 b)).toInt

/-- The ALU: the result, and whether the operation saturated. Only the operations named as saturating do (R132). -/
def aluResult (op : Nat) (a b c : Int) : Int × Bool :=
  let sh := (b % 64).toNat
  let exact := fun (x : Int) => (x, false)
  let sat := fun (x y : Int) => (x, decide (x ≠ y))
  match op with
  | 0x00 => exact a
  | 0x01 => exact (w32 (a + b))
  | 0x02 => exact (w32 (a - b))
  | 0x03 => sat (satAdd32 a b) (a + b)
  | 0x04 => sat (sat32 (a - b)) (a - b)
  | 0x05 => exact (wrap16 a)
  | 0x06 => sat (sat16 a) a
  | 0x07 => exact (clampHiLo a b c)
  | 0x08 => exact (bitOp (· &&& ·) a b)
  | 0x09 => exact (bitOp (· ||| ·) a b)
  | 0x0A => exact (bitOp (· ^^^ ·) a b)
  | 0x0B => exact (w32 ((u32 a * 2 ^ sh : Nat) : Int))
  | 0x0C => exact (asr a sh)
  | 0x0D => exact (w32 ((u32 a / 2 ^ sh : Nat) : Int))
  | 0x0E => sat (sat32 (-a)) (-a)
  | 0x0F => sat (sat32 a.natAbs) a.natAbs
  | 0x10 => sat (if 0xff ≤ a then 0xff else a + 1) (a + 1)
  | 0x11 => sat (if 0xffff ≤ a then 0xffff else a + 1) (a + 1)
  | 0x12 => exact (if a < 0 then 0 else a)
  | 0x13 => (codeOf a, decide (satAdd32 a 8192 ≠ a + 8192))
  | _ => exact 0

def sat64 (a : Int) : Int := clampInt (-(2 ^ 63)) (2 ^ 63 - 1) a

/-- The multiplier: result for MUL_DEST, new ACC, and whether the operation saturated. In modes 3 and 4 the result is ACC: its
low 32 bits go to S0 to S15 or the loop counter, and a MUL_DEST of 0x11 names ACC itself, which keeps all 64 (log 91). -/
def mulResult (mode n : Nat) (a b acc : Int) : Option (Int × Int × Bool) :=
  let shr := fun (a : Int) => some (mulShr a b n, acc, decide (mulShr a b n ≠ a * b / (2 ^ n : Nat)))
  match mode with
  | 1 => shr a
  | 2 => shr (u32 a : Int)
  | 3 => let r := sat64 (acc + a * b); some (w32 r, r, decide (r ≠ acc + a * b))
  | 4 => some (w32 (a * b), a * b, false)
  | 5 => let r := acc / (2 ^ n : Nat); some (sat32 r, acc, decide (sat32 r ≠ r))
  | _ => none

/-- The CORDIC and divider unit: CZ, and whether a quotient was limited. -/
def cordResult (op : Nat) (x y : Int) : Option (Int × Bool) :=
  match op with
  | 1 => some (atan2pu (signed 16 (wrap 16 y)) (signed 16 (wrap 16 x)), false)
  | 2 =>
    if y = 0 then some (if 0 ≤ x then 32767 else -32768, true)
    else let q := (x * 2 ^ 15).tdiv y; some (sat16 q, decide (sat16 q ≠ q))
  | 3 =>
    if y = 0 then some (if 0 ≤ x then 2147483647 else -2147483648, true)
    else let q := x.tdiv y; some (sat32 q, decide (sat32 q ≠ q))
  | _ => none

/-- The minimum class of the fields a nanoword uses (R133). -/
def Nano.minClass (n : Nano) : Nat :=
  let alu := if n.aluOp ≤ 2 ∨ (8 ≤ n.aluOp ∧ n.aluOp ≤ 0x0D) then 0 else 1
  let lmem := if n.lmemOp = 4 then 4 else if 1 ≤ n.lmemOp ∧ n.lmemOp ≤ 3 then 2 else 0
  let mul := if 1 ≤ n.mulMode ∧ n.mulMode ≤ 5 then 3 else 0
  max alu (max lmem mul)

/-- Destination codes: S0 to S15, ACC, loop counter. -/
def Engine.dest (m : Engine) (code : Nat) (r : Int) : Engine :=
  if code < 16 then { m with regs := m.regs.set code r }
  else if code = 0x11 then { m with acc := r }
  else if code = 0x12 then { m with lc := (r % 4096).toNat }
  else m

/-- Branch conditions (R131). USABLE is false until three SENSE reads have been made since ENTER (log 91). -/
def Engine.cond (m : Engine) (v : MEnv) (c : Nat) : Bool :=
  match c with
  | 0 => true
  | 1 => m.zero
  | 2 => m.neg
  | 3 => m.sat
  | 6 => decide (m.usable.length = 3) && m.usable.all id
  | 7 => m.holdsrc || v.overlap
  | 0xD => m.lc == 0
  | 0xE => m.stack.isEmpty
  | 0xF => m.user
  | _ => v.cond c

/-- A machine check of the step that fetched the word at `last` (R142). -/
def Engine.stop (m : Engine) (kind nano : Nat) (byte : Nat) (multi : Bool) : Engine :=
  { m with check := some ⟨kind, m.last, nano, byte, multi⟩, done := true }

/-- The lane memory operation of a nanoword, with the operands of the start of the step. SENSE and SNAP with LANE_SEL 0x3 act on
the current lane (log 91). -/
def Engine.lmem (m : Engine) (v : MEnv) (n : Nano) (data : Int) (m0 : Engine) : Engine :=
  let lane := if n.laneSel = 1 then (m0.regs.getD 15 0 % 64).toNat
    else if n.laneSel = 2 then (m0.lane + 1) % 64 else m0.lane
  match n.lmemOp with
  | 1 => { m with lmd := if n.laneSel = 3 then (if n.lmemAddr < 3 then v.comb n.lmemAddr else 0) else v.word lane n.lmemAddr }
  | 2 =>
    if n.laneSel = 3 ∧ 3 ≤ n.lmemAddr then m
    else if 16 ≤ m.buf.length then m.stop 4 0 0 false
    else { m with buf := m.buf ++ [(if n.laneSel = 3 then 64 else lane, n.lmemAddr, data)] }
  | 3 =>
    let r := v.sense lane (n.lmemAddr % 4)
    { m with srd := r.raw, gain := r.gain, usable := (m.usable ++ [r.usable]).drop (m.usable.length - 2)
             holdsrc := m.holdsrc || r.unset }
  | 4 => { m with snap := v.coeff lane }
  | _ => m

/-- One EXEC step: every field reads its operands as they stood at the start. A write of the loop counter through a destination
code prevails over LC_OP (log 91). -/
def Engine.exec (m : Engine) (v : MEnv) (dc imm : Nat) (n : Nano) : Engine :=
  let s := m.src v imm n.csel
  let a := s n.srcA
  let alu := aluResult n.aluOp a (s n.srcB) (s n.srcC)
  let mul := mulResult n.mulMode n.mulShift (s n.mulA) (s n.mulB) m.acc
  let cz := cordResult n.cordOp (s n.cordX) (s n.cordY)
  let lc := match n.lcOp with
    | 1 => imm
    | 2 => m.lc - 1
    | 3 => (a % 4096).toNat
    | _ => m.lc
  let r := ({ m with lc := lc }).dest n.aluDest alu.1
  let r := match mul with
    | some x =>
      if n.mulMode = 3 ∨ n.mulMode = 4 then
        let r := { r with acc := x.2.1 }
        if n.mulDest = 0x11 then r else r.dest n.mulDest x.1
      else r.dest n.mulDest x.1
    | none => r
  let r := match cz with
    | some x => { r with cz := x.1 }
    | none => r
  let shown : Option Int := match n.flags % 4 with
    | 1 => some alu.1
    | 2 => mul.map (·.1)
    | 3 => cz.map (·.1)
    | _ => none
  let r := match shown with
    | some x => { r with zero := x == 0, neg := decide (x < 0) }
    | none => r
  let saturated : Bool := alu.2 || (match mul with | some x => x.2.2 | none => false) || (match cz with | some x => x.2 | none => false)
  let r := if n.flags.testBit 2 then { r with sat := saturated } else r
  let r := if n.flags.testBit 4 then { r with user := n.flags.testBit 3 } else r
  let r := { r with
    upc := (m.upc + 1) % 4096, classes := r.classes ++ [max dc n.minClass]
    events := if n.ev = 0 then r.events else r.events ++ [n.ev] }
  r.lmem v n (s n.lmemSrc) m

/-- One step: fetch with its parity check, which precedes the word's effect, then that effect (R130, R131, R142). A step within
an epilogue is one of its six (R141). A COMMIT hands over the buffer, which its engine's comb applies in that step (R138). -/
def Engine.step (v : MEnv) (m : Engine) : Engine :=
  let m := { m with last := m.upc, waits := false, hit := false }
  let parity := fun (kind a : Nat) (ls : List Nat) => m.stop kind a (ls.headD 0) (decide (1 < ls.length))
  match v.fails m.upc with
  | l :: ls => parity 0 0 (l :: ls)
  | [] =>
    let next := (m.upc + 1) % 4096
    let m := { m with steps := m.steps + 1, epi := m.epi - 1 }
    match decodeMicro (v.micro m.upc) with
    | .exec dc a imm =>
      match v.fails (4096 + a) with
      | l :: ls => parity 1 a (l :: ls)
      | [] => m.exec v dc imm (decodeNano (v.nano a))
    | .branch dc neg c t => { m with upc := if m.cond v c != neg then t else next, classes := m.classes ++ [dc] }
    | .call dc t =>
      if 4 ≤ m.stack.length then m.stop 2 0 0 false
      else { m with stack := next :: m.stack, upc := t, classes := m.classes ++ [dc] }
    | .ret dc =>
      match m.stack with
      | [] => m.stop 3 0 0 false
      | a :: st => { m with stack := st, upc := a, classes := m.classes ++ [dc] }
    | .special dc op final arg =>
      let m := { m with classes := m.classes ++ [dc] }
      match op with
      | 0 => { m with restart := some m.upc, buf := [], stack := [], usable := [], holdsrc := false, upc := next }
      | 1 => { m with restart := some arg, hit := true, out := m.buf, buf := [], committed := true, final := m.final || final, epi := 6, upc := next }
      | 2 => if arg % 16 = 1 then { m with upc := next, waits := true } else { m with done := true }
      | 3 => m.stop 6 0 0 false
      | _ => m.stop 5 0 0 false

/-- Steps until the routine ends or `stop` holds, at most `n` of them. -/
def Engine.run (v : MEnv) (stop : Engine → Bool) : Nat → Engine → Engine
  | 0, m => m
  | n + 1, m => if m.done || stop m then m else Engine.run v stop n (m.step v)

/-- Where the steps of a routine pause: at a COMMIT, whose writes are then applied, at a WAIT for a strobe, and, where an event waits,
at the end of the epilogue (R138, R141). -/
def Engine.pauses (cut : Bool) (m : Engine) : Bool := m.hit || m.waits || (cut && m.epi == 0)

end Sys2Proof.Machine
end

