-- ==== Sys2Proof/Machine/FaultOps.lean ====
section
/-! DEFINITION. The fault unit (spec/16_faults_and_thermal.md R310 to R319): classes, captures, reports, the FATAL reaction
and lane faults; and the loss of the switched domains (spec/19_power_boot_reset.md R347, R360, spec/20_register_map.md R373). -/

namespace Sys2Proof.Machine

/-- Gwynique runs: boot stage 4 has ended and no warm reset is in progress (R351, R362). -/
def State.gwqRuns (s : State) : Bool := s.boot.gwq && s.boot.warm.isNone

/-! ## Pins driven from the always-on domain (R283, R319) -/

/-- ALIVE_OUT holds its level. -/
def State.stopAlive (s : State) : State :=
  let s := s.setBoot { s.boot with aliveAt := none }
  let s := s.putFlag Adr.FLT_GSTAT Fl.FLT_GSTAT_ALIVE_STOP true
  s.putFlag Adr.PAIR_WIRE Fl.PAIR_WIRE_ALIVE_RUN false

/-- OWN_OUT and SEL_OUT are released. -/
def State.releaseOwn (s : State) : State :=
  (s.putFlag Adr.PAIR_WIRE Fl.PAIR_WIRE_OWN_OUT false).putFlag Adr.PAIR_WIRE Fl.PAIR_WIRE_SEL_OUT false

/-! ## Losing the switched domains (R347, R360, R373) -/

/-- The part of a register word that survives the loss of its domain: counts since POR_N (R373), and REMAP_BOOT, which nothing sets
before the next POR_N (R338). -/
def keptWord (v : Variant) (a : Nat) (w : Word) : Word :=
  let r := resetWord v a
  let keep := fun (f : Field) => setBits r f.lo f.width (getBits w f.lo f.width)
  if a = Adr.PILOT_STAT then keep Fl.PILOT_STAT_SW_COUNT
  else if a = Adr.DRV_STAT then keep Fl.DRV_STAT_CLR_COUNT
  else if a = Adr.HK_STAT then keep Fl.HK_STAT_SCAN
  else if a = Adr.CAL_GSTAT then keep Fl.CAL_GSTAT_APPLY_COUNT
  else if a = Adr.CSP_STAT then keep Fl.CSP_STAT_STRIKES
  else if a = Adr.BUS_REMAP then w
  else if a = Adr.PAIR_STAT then keep Fl.PAIR_STAT_TAKEOVERS
  else if 0x200000 ≤ a ∧ a < 0x240000 ∧ a % 0x200 = 0xA0 then keep Fl.IN_PWR_WIN
  else if 0x200000 ≤ a ∧ a < 0x240000 ∧ a % 0x200 = 0x0C then keep Fl.SRX_EPOCH_EPOCH
  else if 0x400000 ≤ a ∧ a < 0x640000 ∧ a % 0x4000 = 0x184 then keep Fl.MC_STAT_RESTARTS
  else r

/-- Whether the register at `a` stands in the always-on domain. -/
def alwaysOnAdr (a : Nat) : Bool :=
  match lookupWord a with
  | some (b, _) => b.dom == .alwaysOn
  | none => false

/-- Every register of a switched domain takes its reset value but for what R373 keeps. -/
def State.dropSwitched (s : State) : State :=
  { s with regs := s.regs.filterMap fun e =>
      if alwaysOnAdr e.1 then some e
      else
        let w := keptWord s.variant e.1 e.2
        if w = resetWord s.variant e.1 then none else some (e.1, w) }

/-- Every switched domain is off: its registers and all that lived in it are gone; what the always-on domain, the
flash and the counts since POR_N hold stays. -/
def State.losePower (s : State) : State :=
  let s := (s.put Adr.PWR_STAT Fl.PWR_STAT_PG 0).dropSwitched
  let b := s.boot
  let p := s.pair
  { s with
    time := { s.time with ptpA := {}, ptpB := {} }
    host := {}
    exp := { srx := s.exp.srx.filterMap fun e => match e.2.lastRate with
               | some r => some (e.1, { lastRate := some r })
               | none => none }
    led := { cpNum := s.led.cpNum }
    bus := {}
    pair := { lastEdge := p.lastEdge, ownInTick := p.ownInTick, conflict := p.conflict, aliveIn := p.aliveIn, ownIn := p.ownIn }
    ctl := {
      outs := s.ctl.outs.filterMap fun e => if e.2.chg = 0 then none else some (e.1, { chg := e.2.chg })
      flt := { s.flt with
        inj := s.flt.inj.filter fun i => i.1 == 0xA3, badWords := [], badItems := s.flt.badItems.filter fun i => i.1 == 0xA3 }
      safe := s.ctl.safe
      boot := { porLow := b.porLow, sysLow := b.sysLow, perstLow := b.perstLow, t0 := b.t0, posB := b.posB, cspEn := b.cspEn,
                alive := b.alive, cut := b.cut, dead := b.dead, keyed := b.keyed, porPend := b.porPend }
      latches := s.ctl.latches.filter fun e => e.1 % 2 ^ 32 == Adr.TIME_RD + 4 } }

/-! ## Classes (R312, R313) -/

/-- The optional unit a source's checker belongs to. -/
def faultUnit (n : Nat) : Option OptUnit :=
  if 0x98 ≤ n ∧ n < 0x9C then some .stampU
  else if n = 0xA4 then some .exportU
  else if n = 0xA5 ∨ n = 0xA7 then some .dramU
  else if n = 0xAA then some .mgmtU
  else if 0xE0 ≤ n ∧ n ≤ 0xE3 then some .pairU
  else none

/-- Whether source `n` can assert on the variant (R4, R313). -/
def faultExists (v : Variant) (n : Nat) : Bool :=
  (faultDefault n).isSome
    && (match faultUnit n with | none => true | some u => hasUnit v u)
    && (if n < 0x90 then decide (n < numCombs v) else if n < 0xA0 then decide (n % 4 < numTiles v) else true)

/-- Whether the choices of source `n` allow class `c`. -/
def classAllowed (n c : Nat) : Bool :=
  if c = 2 then (decide (0x98 ≤ n ∧ n < 0x9C)) || [0xA0, 0xA4, 0xA9, 0xB0, 0xB1, 0xB2, 0xB9, 0xF1].contains n
  else c == 0 && [0xB1, 0xB2].contains n

/-- The class the next assertion of source `n` takes. -/
def State.classFor (s : State) (n : Nat) : Nat :=
  let d := (faultDefault n).getD 0
  let sel := s.get (Adr.FLT_SRC n) Fl.FLT_SRC_CLASS_SEL
  if sel ≠ 0 ∧ classAllowed n (sel - 1) then sel - 1 else d

/-! ## Assertion, capture, report (R310, R311, R316, R317) -/

/-- What a checker reports (R316); a comparator or condition reports no access and no master. -/
structure FaultRep where
  kind : Nat := 0
  detail : Nat := 0
  access : Nat := 3
  master : Nat := 0x1F
  addr : Nat := 0
  deriving DecidableEq, Repr, Inhabited

/-- The FAULT event and ledger entry of source `n`, carrying `count`. -/
def State.reportFault (s : State) (n count : Nat) : State :=
  let b := Adr.FLT_SRC n
  let cls := s.get b Fl.FLT_SRC_CLASS
  let s := s.postOwners 0x0030 (le 2 n ++ le 1 cls ++ le 1 (s.get b Fl.FLT_SRC_KIND) ++ le 4 count
    ++ le 4 (s.get b Fl.FLT_SRC_ADDR_LO) ++ le 1 (s.get b Fl.FLT_SRC_MASTER) ++ le 1 (s.get b Fl.FLT_SRC_ACCESS))
  let s := s.logInvol (some 2) 0x0080 (bodyOf [(0, 2, n), (2, 1, cls), (4, 4, count), (8, 4, s.get b Fl.FLT_SRC_NS32)])
  let total := SMap.find 0 s.flt.totals n
  s.setFlt { s.flt with reports := SMap.insert s.flt.reports n ⟨s.tick, total, false⟩ }

/-- A capture reported by Gwynique, at once or, while it does not run, when it next runs. -/
def State.noteFault (s : State) (n : Nat) : State :=
  if s.gwqRuns && !s.boot.warmDue then s.reportFault n 0
  else s.setFlt { s.flt with reports := SMap.insert s.flt.reports n ⟨s.tick, 0, true⟩ }

/-- Every report Gwynique owes, in ascending source number. -/
def State.reportOwed (s : State) : State :=
  s.flt.reports.foldl (fun s e =>
    if e.2.owed then s.reportFault e.1 (SMap.find 0 s.flt.totals e.1) else s) s

/-- The capture of R316. Of sources that assert on one tick FIRST names the lowest. -/
def State.capture (s : State) (n : Nat) (r : FaultRep) : State :=
  let b := Adr.FLT_SRC n
  let s := s.putFlag b Fl.FLT_SRC_VALID true
  let s := s.put b Fl.FLT_SRC_KIND r.kind
  let s := s.put b Fl.FLT_SRC_ACCESS r.access
  let s := s.put b Fl.FLT_SRC_DOMAIN (domIx s.sdom)
  let s := s.put b Fl.FLT_SRC_MASTER r.master
  let s := s.put b Fl.FLT_SRC_ADDR_LO r.addr
  let s := s.put b Fl.FLT_SRC_ADDR_HI (r.addr / 2 ^ 32)
  let s := s.put b Fl.FLT_SRC_DETAIL r.detail
  let s := s.put b Fl.FLT_SRC_NS32 s.ns32
  let s := s.put b Fl.FLT_SRC_FRAC8 s.frac8
  let s := s.setFlt { s.flt with totals := SMap.erase s.flt.totals n }
  let first := !s.flag Adr.FLT_GSTAT Fl.FLT_GSTAT_FIRST_VALID
    || (s.flt.firstAt == some s.tick && decide (n < s.get Adr.FLT_GSTAT Fl.FLT_GSTAT_FIRST))
  if first then
    ((s.put Adr.FLT_GSTAT Fl.FLT_GSTAT_FIRST n).putFlag Adr.FLT_GSTAT Fl.FLT_GSTAT_FIRST_VALID true).setFlt
      { s.flt with firstAt := some s.tick }
  else s

/-- The FATAL reaction: the latch and device-scope fault park, ALIVE_OUT stopped, OWN_OUT and SEL_OUT released, and a
paired module held standby with its own verdict FAIL; an unpaired one no longer waits to take a role (R311). -/
def State.fatalReaction (s : State) : State :=
  if s.fatal then s
  else
    let s := s.putFlag Adr.FLT_GSTAT Fl.FLT_GSTAT_FATAL true
    let s := s.stopAlive.releaseOwn
    let s := { s with pair := { s.pair with waitTick := none } }
    let s := if s.role = 0 then s
      else (s.put Adr.PAIR_STAT Fl.PAIR_STAT_ROLE 2).put Adr.PAIR_STAT Fl.PAIR_STAT_HEALTH 2
    s.react.refreshGo

/-- A FATAL supply source opens every switch until the next POR_N or SYS_RST_N (R313, R347). -/
def State.cutSupply (s : State) : State :=
  let s := s.losePower
  s.setBoot { s.boot with cut := true }

/-- Source `n` asserts: its class, its capture or count, its reaction and its report. `active`: the condition lasts. -/
def State.assertFault (s : State) (n : Nat) (r : FaultRep) (active : Bool) : State :=
  if faultExists s.variant n = false then s
  else
    let b := Adr.FLT_SRC n
    let cls := s.classFor n
    let s := (s.put b Fl.FLT_SRC_CLASS cls).putFlag b Fl.FLT_SRC_ACTIVE active
    let fresh := !s.flag b Fl.FLT_SRC_VALID
    let s := if fresh then s.capture n r
      else (s.count b Fl.FLT_SRC_COUNT 1).setFlt { s.flt with
        totals := SMap.insert s.flt.totals n (SMap.find 0 s.flt.totals n + 1) }
    let s := if cls = 2 then s.fatalReaction else s
    let s := if 0xC0 ≤ n ∧ n ≤ 0xC5 then s.cutSupply else s
    if fresh then s.noteFault n else s

/-- The condition of source `n` is gone. -/
def State.faultGone (s : State) (n : Nat) : State := s.putFlag (Adr.FLT_SRC n) Fl.FLT_SRC_ACTIVE false

/-! ## Comb sources (R314, R315, R119) -/

/-- A comb hold of KIND 0x1 (`mc`) or KIND 0x4. -/
def State.holdComb (s : State) (c : Nat) (mc : Bool) : State :=
  let s := s.onComb c fun x => if mc then { x with holdMc := true } else { x with holdPar := true }
  (s.beginHold c).replan

/-- The gates of every output whose circuit passes cell element `e` fault-parked on its behalf (R119). The gate of a filler output
blocks already and gets no park (DESIGN CHOICE, log 101). -/
def State.forceGates (s : State) (e : Nat) : State :=
  (circuitsThrough s.variant s.plan.inForce e).foldl (fun s o =>
    s.onLane (gateIx s.variant o) fun x => if x.forced.contains e then x else { x with forced := x.forced ++ [e] }) s

/-- A cell lane whose park point is the bar point stands on a circuit, lit or about to be lit by a make, that needs the
cross point (R29, R119). -/
def State.crossNeeded (s : State) (e : Nat) : Bool :=
  !isGate s.variant e && cellCross s.variant s.plan.inForce e == some true
    && (circuitsThrough s.variant s.plan.inForce e).any fun o => let st := (s.out o).st; decide (1 ≤ st ∧ st ≤ 5)

/-- Lane `e` is fault-parked by its own comb source: at once, or, holding its code, 64 ns after the gates that R119 parks
first. -/
def State.laneFault (s : State) (e : Nat) : State :=
  if (s.lane e).waits then s
  else if s.crossNeeded e then
    let s := (s.forceGates e).onLane e fun x => { x with waits := true, postMove := none, hv := false }
    let s := s.setPlan { s.plan with parkDue := s.plan.parkDue ++ [(e, s.tick + 40)] }
    s.react
  else (State.interrupts s ((s.onLane e fun x => { x with faultPark := true }).settle e)).refreshOuts

/-- The fault parks whose 64 ns have passed (R119). -/
def State.parkLate (s : State) : State :=
  let due := s.plan.parkDue.filter fun x => decide (x.2 ≤ s.tick)
  if due.isEmpty then s
  else
    let s := s.setPlan { s.plan with parkDue := s.plan.parkDue.filter fun x => !decide (x.2 ≤ s.tick) }
    let late := due.foldl (fun s x => (s.onLane x.1 fun l => { l with faultPark := true, waits := false }).settle x.1) s
    (State.interrupts s late).refreshOuts

/-- A comb source asserts with a KIND, and its contained action follows (R314): KIND 0x2, 0x3 and a lane word of 0x4
park lane `l`; KIND 0x1 and a comb word of 0x4 hold the comb. A lane fault and a machine check give a notice (R335). -/
def State.combFault (s : State) (c kind : Nat) (lane : Option Nat) (r : FaultRep) : State :=
  let s := s.assertFault c { r with kind := kind } false
  let s := if lane.isSome || kind == 1 then s.notice c else s
  match lane with
  | some l => if kind = 1 then s.holdComb c true else s.laneFault (64 * c + l)
  | none => s.holdComb c (kind == 1)

/-- A lane fault withdrawn at a boundary: its own park and the gate parks issued for it (R315). -/
def State.withdrawFault (s : State) (e : Nat) : State :=
  let s := s.onLane e fun x => { x with faultPark := false, release := false }
  if isGate s.variant e then s
  else s.mapLanes fun _ x => if x.forced.contains e then { x with forced := x.forced.erase e } else x

end Sys2Proof.Machine
end

