-- ==== Sys2Proof/Machine/Bridge.lean ====
section
/-! DEFINITION. The register bridge (spec/20_register_map.md R367 to R374): which registers answer, what a write stores,
views, and the shadows that a read of a low word latches. -/

namespace Sys2Proof.Machine

/-- The register bridge serves accesses: domain 24 is powered and neither reset pin holds the device (R374). -/
def State.bridgeOn (s : State) : Bool := s.powered 24 && !s.boot.porLow && !s.boot.sysLow

/-- A view exists: the privileged view, or that of a VF within NumVFs (R372). -/
def State.viewOn (s : State) (view : Nat) : Bool :=
  s.bridgeOn && (view == 0 || decide (view ≤ s.host.numVfs))

/-- The register at `a` answers: mapped, its unit present, its instance on the variant, its domain powered. -/
def State.answers (s : State) (a : Nat) : Bool :=
  s.bridgeOn && (match lookupWord a with | some (b, i, _, _) => s.live b i | none => false)

/-- A written word as W1C flags see it: a flag that an event of the same instant has set stays (R370). -/
def State.clears (s : State) (a : Nat) (v : Word) : Word := v &&& ~~~(s.rd a &&& ~~~s.rdBefore a)

/-- What a write stores in the register at `a`, field by field (R367, R370). -/
def State.store (s : State) (a : Nat) (v : Word) : State :=
  match lookupWord a with
  | some (b, i, _, fs) =>
    if s.bridgeOn && s.live b i then
      s.wr a (fs.foldl (fun w f => writeField (if f.access = .w1c then s.clears a v else v) w f) (s.rd a))
    else s
  | none => s

/-- The key of a view's shadow of the word at `a` (R151, R346). -/
def shadowKey (view a : Nat) : Nat := 2 ^ 32 * view + a

def State.latch (s : State) (view a n : Nat) : State :=
  { s with ctl := { s.ctl with latches := SMap.insert s.ctl.latches (shadowKey view a) n } }

/-- The shadow word at `a` of a view, as its last low-word read left it. -/
def State.shadow (s : State) (view a : Nat) : Nat := SMap.find 0 s.ctl.latches (shadowKey view a)

/-- One bit of a written word. -/
def bitSet (v : Word) (n : Nat) : Bool := v.getLsbD n

end Sys2Proof.Machine
end

