-- ==== Sys2Proof/Machine/Sense.lean ====
section
/-! DEFINITION. The sense ADCs of a comb and the housekeeping ADC (spec/03_drive_and_sense.md R51 to R63). -/

namespace Sys2Proof.Machine

/-- The input a tap of lane `l` has (R51): which ADC, and the number there. -/
def senseInput (l tap : Nat) : Bool × Nat := if l < 32 then (false, 3 * l + tap) else (true, 3 * (l - 32) + tap)

def Comb.seq (x : Comb) (b : Bool) : List (Nat × Nat) := if b then x.seqB else x.seqA
def Comb.len (x : Comb) (b : Bool) : Nat := if b then x.lenB else x.lenA
def Comb.pos (x : Comb) (b : Bool) : Nat := if b then x.posB else x.posA
def Comb.urg (x : Comb) (b : Bool) : List Nat := if b then x.urgB else x.urgA
def Comb.cur (x : Comb) (b : Bool) : Option Conv := if b then x.curB else x.curA
def Comb.setCur (x : Comb) (b : Bool) (c : Option Conv) : Comb := if b then { x with curB := c } else { x with curA := c }
def Comb.setPos (x : Comb) (b : Bool) (n : Nat) : Comb := if b then { x with posB := n } else { x with posA := n }
def Comb.setUrg (x : Comb) (b : Bool) (l : List Nat) : Comb := if b then { x with urgB := l } else { x with urgA := l }

/-- One more conversion of this period. -/
def Comb.started (x : Comb) (b : Bool) : Comb :=
  if b then { x with startedB := x.startedB + 1 } else { x with startedA := x.startedA + 1 }

/-- The lowest-numbered entry in force that names input `i` (R54). -/
def Comb.entryOf (x : Comb) (b : Bool) (i : Nat) : Option Nat :=
  (List.range (x.len b)).find? fun k => ((x.seq b).getD k (127, 0)).1 == i

def resAdr (c : Nat) (b : Bool) (k : Nat) : Nat := if b then Adr.SENSE_RES_B c k else Adr.SENSE_RES_A c k
def seqAdr (c : Nat) (b : Bool) (k : Nat) : Nat := if b then Adr.SENSE_SEQ_B c k else Adr.SENSE_SEQ_A c k

/-- The reference REF_SEL names, and its settling time (R58). -/
def refEff (n : Nat) : Nat := if n = 3 then 0 else n
def refTicks (n : Nat) : Nat := usTicks (if n = 0 then 50 else if n = 1 then 20 else 5)

/-- A slot begins: a changed REF_SEL takes effect. -/
def State.takeRef (s : State) (c : Nat) : State :=
  let n := refEff (s.get (Adr.SENSE_CFG c) Fl.SENSE_CFG_REF_SEL)
  if n = (s.comb c).refSel then s
  else
    let s := s.onComb c fun x => { x with refSel := n, refAt := s.tick + refTicks n }
    s.putFlag (Adr.SENSE_STAT c) Fl.SENSE_STAT_REF_SETTLED false

/-- The next scheduled entry from `k` on that uses a slot. -/
def Comb.nextEntry (x : Comb) (b : Bool) (k : Nat) : Option Nat :=
  (List.range (x.len b)).find? fun j => decide (k ≤ j) && decide (((x.seq b).getD j (127, 0)).1 < 96)

/-- URG_BUSY of an ADC: it converts an urgent input. -/
def State.showUrg (s : State) (c : Nat) (b : Bool) : State :=
  let busy := match (s.comb c).cur b with | some v => v.urgent | none => false
  s.putFlag (Adr.SENSE_STAT c) (if b then Fl.SENSE_STAT_URG_BUSY_B else Fl.SENSE_STAT_URG_BUSY_A) busy

/-- A slot of ADC `b` that begins at half-tick `h` takes entry `k`. -/
def State.takeEntry (s : State) (c : Nat) (b : Bool) (h k : Nat) (urgent : Bool) : State :=
  let s := s.takeRef c
  let x := s.comb c
  let e := (x.seq b).getD k (127, 0)
  let a := Adr.ADC_CAL_ACT c (if b then 1 else 0)
  let v : Conv := {
    entry := k, input := e.1, gain := e.2, urgent := urgent, pseq := s.get (Adr.SENSE_STAT c) Fl.SENSE_STAT_PSEQ
    unset := !s.flag (Adr.SENSE_STAT c) Fl.SENSE_STAT_REF_SETTLED, ends := h + 125, ref := x.refSel
    ofs := signed 12 (s.get a Fl.ADC_CAL_OFS), scale := s.get a Fl.ADC_CAL_GAIN }
  s.onComb c fun x => (x.setCur b (some v)).started b

/-- The ADC's next slot begins at half-tick `h`: pending urgent inputs first, in ascending order, then the sequence where
it stopped; nothing where neither has an entry. A pending input that the sequence in force no longer names stays pending,
unserved and uncounted, until an entry names it (log 87). The pending bit clears as the urgent conversion starts: a request
during that conversion pends anew (DESIGN CHOICE, log 99). -/
def State.startSlot (s : State) (c : Nat) (b : Bool) (h : Nat) : State :=
  let x := s.comb c
  let s := match (x.urg b).find? fun i => (x.entryOf b i).isSome with
    | some i =>
      (s.takeEntry c b h ((x.entryOf b i).getD 0) true).onComb c fun x => x.setUrg b ((x.urg b).filter (· != i))
    | none =>
      match x.nextEntry b (x.pos b) with
      | some k => (s.takeEntry c b h k false).onComb c fun x => x.setPos b (k + 1)
      | none => s.onComb c fun x => x.setCur b none
  s.showUrg c b

/-- Input `i` inserted in ascending order; one already pending merges. -/
def insertAsc (i : Nat) : List Nat → List Nat
  | [] => [i]
  | a :: l => if i = a then a :: l else if i < a then i :: a :: l else a :: insertAsc i l

/-- An urgent request for one input (R56). -/
def State.urgent (s : State) (c : Nat) (b : Bool) (i : Nat) : State :=
  let x := s.comb c
  if (x.entryOf b i).isNone then
    s.count (Adr.SENSE_CNT c) (if b then Fl.SENSE_CNT_URG_DROP_B else Fl.SENSE_CNT_URG_DROP_A) 1
  else
    let s := s.onComb c fun x => x.setUrg b (insertAsc i (x.urg b))
    if (x.cur b).isNone then s.startSlot c b (2 * s.tick) else s

/-- The three urgent requests of a lane whose move ended. -/
def State.urgentLane (s : State) (e : Nat) : State :=
  (List.range 3).foldl (fun s t => let i := senseInput (e % 64) t; s.urgent (e / 64) i.1 i.2) s

/-- The sequencer's part of a period boundary at tick `t` (R53 to R57): truncation counted, sequences copied, VALID cleared of changed
entries, PSEQ incremented, and the copied sequence started at entry 0. -/
def State.senseBoundary (s : State) (c t : Nat) : State :=
  let x := s.comb c
  let trunc := fun (s : State) (b : Bool) =>
    if (x.nextEntry b (x.pos b)).isSome then
      s.count (Adr.SENSE_CNT c) (if b then Fl.SENSE_CNT_SEQ_TRUNC_B else Fl.SENSE_CNT_SEQ_TRUNC_A) 1
    else s
  let copy := fun (b : Bool) => (List.range 96).map fun k =>
    (s.get (seqAdr c b k) Fl.SENSE_SEQ_INPUT, s.get (seqAdr c b k) Fl.SENSE_SEQ_GAIN)
  let clear := fun (s : State) (b : Bool) (new : List (Nat × Nat)) =>
    (List.range 96).foldl (fun s k =>
      if (x.seq b).getD k (127, 0) = new.getD k (127, 0) then s
      else if s.flag (resAdr c b k) Fl.SENSE_RES_VALID then s.putFlag (resAdr c b k) Fl.SENSE_RES_VALID false else s) s
  let a := copy false
  let b := copy true
  let la := min 96 (s.get (Adr.SENSE_CFG c) Fl.SENSE_CFG_SEQ_LEN_A)
  let lb := min 96 (s.get (Adr.SENSE_CFG c) Fl.SENSE_CFG_SEQ_LEN_B)
  let s := clear (clear (trunc (trunc s false) true) false a) true b
  let s := s.onComb c fun x =>
    { x with seqA := a, seqB := b, lenA := la, lenB := lb, posA := 0, posB := 0, startedA := 0, startedB := 0 }
  let s := s.countWrap (Adr.SENSE_STAT c) Fl.SENSE_STAT_PSEQ 1
  let go := fun (s : State) (b : Bool) => if ((s.comb c).cur b).isNone then s.startSlot c b (2 * t) else s
  go (go s false) true

/-- R_TIA in ohms by gain code, and V_ref in microvolts by reference (R51, R58): the internal bandgap, REF_EXT, VDD_ANA / 2. -/
def rTia (g : Nat) : Nat := 100000 * 4 ^ (g % 4)
def Photo.vRef (p : Photo) (ref : Nat) : Nat := if ref = 1 then p.refExt else if ref = 2 then p.halfAna else 1250000

/-- 16,384 × I_pd × R_TIA / V_ref, rounded to the nearest integer (R51); I in 10⁻¹⁵ A over V in 10⁻⁶ V. -/
def Photo.raw (p : Photo) (gain ref : Nat) : Int :=
  roundDiv (16384 * p.current * rTia gain : Nat) (1000000000 * Photo.vRef p ref)

/-- The ADC's offset and gain in force at the start, applied inside the converter before RESULT is formed (R68, R93, R101;
log 87 for the rounding). -/
def Conv.corrected (v : Conv) (raw : Int) : Int := (raw - v.ofs) * v.scale / 2 ^ 15

/-- REF_EXT has a defined level only within 1.0 V to 1.5 V (R58). -/
def Photo.defined (p : Photo) (ref : Nat) : Bool := ref != 1 || decide (1000000 ≤ p.refExt ∧ p.refExt ≤ 1500000)

/-- A conversion whose slot has ended completes: its result register is rewritten in one step, and the next slot begins at
that half-tick (R51, R52, R56). Where the reference has no defined level the result is an open value from 0 to 16,383, so that
CLIP reads 0 (DESIGN CHOICE, log 99: R58 says only that the flags are formed as usual). A
conversion in progress at a boundary whose entry the new SEQ_LEN excludes still writes its register (R55, log 87). -/
def senseConversion (c : Nat) (adcB : Bool) (p : Photo) (s : State) : State :=
  if decide (c < numCombs s.variant) && s.powered (combDomain s.variant c) then
    match (s.comb c).cur adcB with
    | none => s
    | some v =>
      if 2 * s.tick + 1 < v.ends then s
      else
        let d := if Photo.defined p v.ref then (0, s) else s.draw
        let s := d.2
        let z := if Photo.defined p v.ref then v.corrected (Photo.raw p v.gain v.ref) else ((d.1 % 16384 : Nat) : Int)
        let valid := ((s.comb c).seq adcB).getD v.entry (127, 0) == (v.input, v.gain)
        let w := (clampInt 0 16383 z).toNat + 2 ^ 14 * b2i valid + 2 ^ 15 * b2i v.urgent + 2 ^ 16 * b2i v.unset
          + 2 ^ 17 * b2i (decide (16383 < z)) + 2 ^ 18 * (v.gain % 4) + 2 ^ 24 * v.pseq
        let s := (s.combEvent c 0x11 1).combEvent c 0x12 (b2i v.urgent)
        (s.wr (resAdr c adcB v.entry) (BitVec.ofNat 32 w)).startSlot c adcB v.ends
  else s

def execSenseConversion (c : Nat) (adcB : Bool) (p : Photo) (s : State) : Host.Outcome State Fault Refusal :=
  .next (senseConversion c adcB p s)

/-- REF_SETTLED sets once the reference in force has settled. -/
def refSettled (c : Nat) (s : State) : State :=
  if decide (c < numCombs s.variant) && s.powered (combDomain s.variant c) && decide ((s.comb c).refAt ≤ s.tick) then
    s.putFlag (Adr.SENSE_STAT c) Fl.SENSE_STAT_REF_SETTLED true
  else s

def execRefSettled (c : Nat) (s : State) : Host.Outcome State Fault Refusal := .next (refSettled c s)

/-- A write of SENSE_CFG: REF_SEL acts at the next slot, SEQ_LEN at the next boundary; a change of REF_SEL sets
REF_CHANGED (R54, R58, R97). -/
def refSel (c : Nat) (v : Word) (s : State) : State :=
  let a := Adr.SENSE_CFG c
  if s.answers a then
    let old := s.get a Fl.SENSE_CFG_REF_SEL
    let s := s.store a v
    if s.get a Fl.SENSE_CFG_REF_SEL = old then s else s.putFlag (Adr.CAL_CSTAT c) Fl.CAL_CSTAT_REF_CHANGED true
  else s

def execRefSel (c : Nat) (v : Word) (s : State) : Host.Outcome State Fault Refusal := .next (refSel c v s)

/-! ## Housekeeping ADC (R61, R62) -/

/-- Ticks of a scan: 32 µs, or 512 µs in low-power mode. -/
def scanTicks (lp : Bool) : Nat := if lp then 32 * 16 * 625 else 32 * 625

/-- The divider of a channel (R61). -/
def hkDivider (n : Nat) : Nat :=
  if n = 6 ∨ n = 9 then 4 else if n = 5 ∨ n = 8 ∨ (10 ≤ n ∧ n ≤ 13) then 2 else 1

/-- V_ref in microvolts by reference: the hub's bandgap, REF_HK, VDD_ANA / 2; REF_HK has a defined level as REF_EXT has (R58, R61). -/
def HkIn.vRef (m : HkIn) (ref : Nat) : Nat := if ref = 1 then m.refHk else if ref = 2 then m.halfAna else 1250000
def HkIn.defined (m : HkIn) (ref : Nat) : Bool := ref != 1 || decide (1000000 ≤ m.refHk ∧ m.refHk ≤ 1500000)

/-- VALUE of channel `n`: its input voltage is VALUE × V_ref / 4,096 × divider (R62), rounded to the nearest code and held
within 0 to 4,095 (log 99). -/
def HkIn.value (m : HkIn) (ref n : Nat) : Nat :=
  (clampInt 0 4095 (roundDiv ((4096 * m.volts.getD n 0 : Nat) : Int) (HkIn.vRef m ref * hkDivider n))).toNat

/-- VALUE of channel `n` in the scan that ends; an open value where the reference has no defined level. -/
def State.hkValue (s : State) (m : HkIn) (n : Nat) : Nat :=
  if HkIn.defined m s.ctl.hk.ref then HkIn.value m s.ctl.hk.ref n else Config.free (s.free + n) % 4096

/-- The voltage that VALUE of channel `n` stands for, in microvolts (R62). -/
def State.hkVolts (s : State) (m : HkIn) (n : Nat) : Nat := s.hkValue m n * HkIn.vRef m s.ctl.hk.ref * hkDivider n / 4096

/-- A scan of the 32 channels has ended; the next begins at that tick, with the mode and reference then selected. Every result
is written as the scan ends, with SCAN as it reads after its increment (DESIGN CHOICE, log 99). -/
def housekeepingScan (vals : HkIn) (s : State) : State :=
  if s.powered 24 = false ∨ s.tick < s.ctl.hk.scanEnd then s
  else
    let hk := s.ctl.hk
    let value := s.hkValue vals
    let hk := { hk with sumA := hk.sumA + s.hkVolts vals 26, sumB := hk.sumB + s.hkVolts vals 27, scans := hk.scans + 1 }
    let s := if HkIn.defined vals hk.ref then s else { s with free := s.free + 32 }
    let s := (s.countWrap Adr.HK_STAT Fl.HK_STAT_SCAN 1).hubEvent 0x03 1
    let scan := s.get Adr.HK_STAT Fl.HK_STAT_SCAN
    let slot := scanTicks (s.flag Adr.HK_STAT Fl.HK_STAT_LP_ACT) / 32
    let one := fun (s : State) (n : Nat) =>
      let b := Adr.HK_RES n
      if Variant.isSmall s.variant && [3, 4, 12, 13].contains n then s
      else
        let s := (s.put b Fl.HK_RES_VALUE (value n)).putFlag b Fl.HK_RES_VALID true
        let s := s.putFlag b Fl.HK_RES_REF_UNSET (decide (hk.scanEnd < hk.settleAt + slot * (32 - n)))
        s.put b Fl.HK_RES_SCAN scan
    let s := (List.range 32).foldl one s
    let lp := s.flag Adr.HK_CTL Fl.HK_CTL_LP
    let s := s.putFlag Adr.HK_STAT Fl.HK_STAT_LP_ACT lp
    let n := refEff (s.get Adr.HK_CTL Fl.HK_CTL_REF_SEL)
    let next := hk.scanEnd + scanTicks lp
    if n = hk.ref then { s with ctl := { s.ctl with hk := { hk with scanEnd := next } } }
    else
      let s := s.putFlag Adr.HK_STAT Fl.HK_STAT_REF_SETTLED false
      { s with ctl := { s.ctl with hk := { hk with ref := n, settleAt := hk.scanEnd + refTicks n, scanEnd := next } } }

/-- HK_STAT.REF_SETTLED sets once the reference in force has settled, whatever the scan does (R58, R61). -/
def State.hkSettled (s : State) : State :=
  if s.powered 24 && !s.flag Adr.HK_STAT Fl.HK_STAT_REF_SETTLED && decide (s.ctl.hk.settleAt ≤ s.tick) then
    s.putFlag Adr.HK_STAT Fl.HK_STAT_REF_SETTLED true
  else s

def execHousekeepingScan (vals : HkIn) (s : State) : Host.Outcome State Fault Refusal := .next (housekeepingScan vals s)

end Sys2Proof.Machine
end

