-- ==== Sys2Proof/Machine/LaneRegs.lean ====
section
/-! DEFINITION. The lane area words whose home is the lane (R45, R84), the readings, calibration values and coefficients
an iteration takes (R66, R68, R73), the parameter SRAM checker (R314, R318), and the run of a routine's microcode. -/

namespace Sys2Proof.Machine

/-- LANE_STAT. -/
def Lane.statWord (x : Lane) : Nat :=
  x.st + 2 ^ 4 * x.cause + 2 ^ 7 * b2i (x.primeCnt == 2) + 2 ^ 8 * b2i x.degraded + 2 ^ 9 * b2i x.satHi + 2 ^ 10 * b2i x.satLo
    + 2 ^ 11 * b2i x.hv + 2 ^ 12 * b2i x.feTrip + 2 ^ 13 * b2i x.ovrTrip + 2 ^ 14 * b2i x.lowsig + 2 ^ 15 * b2i x.stale
    + 2 ^ 16 * x.feTimer

/-- LANE_CNT. -/
def Lane.cntWord (x : Lane) : Nat := x.skip + 2 ^ 16 * x.consec + 2 ^ 24 * x.frozen

/-- The address of word `k` of the lane area of element `e`. -/
def laneAdr (e k : Nat) : Nat := Adr.DAC_OUT (e / 64) (e % 64) + 4 * k

/-- The state that LANE_STAT shows of element `e`: while an event waits for the epilogue of the routine it has reached, the one before it
(R139). -/
def State.shownSt (s : State) (e : Nat) : Nat :=
  match (s.comb (e / 64)).run with
  | some r => match r.shown.find? fun x => x.1 == e % 64 with | some x => x.2 | none => (s.lane e).st
  | none => (s.lane e).st

/-- Word `k` of the lane area of element `e`. -/
def State.laneWord (s : State) (e k : Nat) : Nat :=
  let x := s.lane e
  match k with
  | 0 => (s.dac e).code + 2 ^ 16 * (s.dac e).src
  | 4 => x.sp
  | 5 => x.phiEst + 2 ^ 16 * wrap 16 x.err
  | 6 => wrap 32 x.integ
  | 7 => wrap 32 x.df
  | 8 => Lane.statWord { x with st := s.shownSt e }
  | 9 => x.cntWord
  | _ => (s.rd (laneAdr e k)).toNat

/-! ## What an iteration takes -/

def s16 (n : Nat) : Int := signed 16 n
def s32 (n : Nat) : Int := signed 32 n

/-- The calibration values in force of element `e`. -/
def State.calOf (s : State) (e : Nat) : CalVals :=
  let c := e / 64
  let l := e % 64
  { ofs := [s16 (s.get (Adr.CAL_OFS_BC_ACT c l) Fl.CAL_OFS_BC_OFS_B), s16 (s.get (Adr.CAL_OFS_BC_ACT c l) Fl.CAL_OFS_BC_OFS_C),
      s16 (s.get (Adr.CAL_OFS_Q_ACT c l) Fl.CAL_OFS_Q_OFS_Q)]
    tg := [(s.get (Adr.CAL_TG_BC_ACT c l) Fl.CAL_TG_BC_TG_B : Nat), (s.get (Adr.CAL_TG_BC_ACT c l) Fl.CAL_TG_BC_TG_C : Nat),
      (s.get (Adr.CAL_TG_Q_ACT c l) Fl.CAL_TG_Q_TG_Q : Nat)]
    skew := s16 (s.get (Adr.CAL_OFS_Q_ACT c l) Fl.CAL_OFS_Q_SKEW)
    kq := s16 (s.get (Adr.CAL_TG_Q_ACT c l) Fl.CAL_TG_Q_KQ)
    bias := (s.get (Adr.CAL_BIAS_ACT c l) Fl.CAL_BIAS_BIAS : Nat)
    ffSlope := s32 (s.get (Adr.CAL_FF_ACT c l) Fl.CAL_FF_FF_SLOPE) }

def State.codeMin (s : State) (e : Nat) : Int := (s.get (Adr.LANE_LIM (e / 64) (e % 64)) Fl.LANE_LIM_CODE_MIN : Nat)
def State.codeMax (s : State) (e : Nat) : Int := (s.get (Adr.LANE_LIM (e / 64) (e % 64)) Fl.LANE_LIM_CODE_MAX : Nat)

/-- The coefficient set that CSET of element `e` names. -/
def State.csAdr (s : State) (e : Nat) : Nat := Adr.CS (e / 64) (s.get (Adr.LANE_CFG (e / 64) (e % 64)) Fl.LANE_CFG_CSET)

def State.coeffOf (s : State) (e : Nat) : Coeffs :=
  let b := s.csAdr e
  { kp := s32 (s.get b Fl.CS_KP), ki := s32 (s.get b Fl.CS_KI), kd := s32 (s.get b Fl.CS_KD)
    alpha := (s.get b Fl.CS_ALPHA : Nat), iMin := s32 (s.get b Fl.CS_I_MIN), iMax := s32 (s.get b Fl.CS_I_MAX)
    feLim := (s.get b Fl.CS_FE_LIM : Nat), feTime := s.get b Fl.CS_FE_TIME
    codeMin := s.codeMin e, codeMax := s.codeMax e }

/-- The result register of the lowest-numbered entry that names tap `t` of element `e`. -/
def State.tapWord (s : State) (e t : Nat) : Option Word :=
  let i := senseInput (e % 64) t
  ((s.comb (e / 64)).entryOf i.1 i.2).map fun k => s.rd (resAdr (e / 64) i.1 k)

def resUnset (w : Word) : Bool := getBits w 16 1 != 0

/-- VALID, and a PSEQ of this period or the one before (R66). -/
def State.resFresh (s : State) (e : Nat) (w : Word) : Bool :=
  let n := s.get (Adr.SENSE_STAT (e / 64)) Fl.SENSE_STAT_PSEQ
  let p := getBits w 24 8
  getBits w 14 1 != 0 && (p == n || (p + 1) % 256 == n)

/-- The period of the comb overlaps a pilot switch window or part of a NO_PILOT span (R38). -/
def State.overlapped (s : State) (c : Nat) : Bool := (s.comb c).overlap || s.switching || s.noPilot

/-- What an iteration of element `e` that starts now takes (R66, R73). -/
def State.iterIn (s : State) (e : Nat) : IterIn :=
  { taps := (List.range 3).map fun t => (s.tapWord e t).map fun w => (w, s.resFresh e w), coeffs := s.coeffOf e }

/-- The three readings of an iteration, or why it is not computed (R66, R67); `overlap`: its period overlaps a switch window or
NO_PILOT span. -/
def IterIn.readings (m : IterIn) (overlap : Bool) : Except NotComputed (List Reading) :=
  if overlap || m.taps.any (fun w => match w with | some w => resUnset w.1 | none => false) then .error .source
  else if m.taps.all (fun w => match w with | some w => w.2 | none => false) then
    .ok (m.taps.map fun w => match w with | some w => ⟨(getBits w.1 0 14 : Nat), getBits w.1 18 2⟩ | none => ⟨0, 0⟩)
  else .error .stale

/-- The readings as they stand now. -/
def State.readTaps (s : State) (e : Nat) : Except NotComputed (List Reading) := (s.iterIn e).readings (s.overlapped (e / 64))

/-! ## The parameter SRAM (R314, R318) -/

/-- The words behind the parameter SRAM checker of comb `c`. -/
def paramWord (a : Nat) : Bool :=
  decide (0x400000 ≤ a ∧ a < 0x640000) &&
    ((decide (0x40 ≤ a % 0x4000 ∧ a % 0x4000 ≤ 0x17C)) || (decide (0x1000 ≤ a % 0x4000 ∧ a % 0x4000 < 0x3000)))
def combOfAdr (a : Nat) : Nat := (a - 0x400000) / 0x4000

/-- Words `ws` of comb `c`, in rising order, written through the checker: good check bits, or those of the first
inverted where an injection is armed. -/
def State.paramWrite (s : State) (c : Nat) (host : Bool) (ws : List Nat) : State :=
  let f := s.flt
  if f.badWords.isEmpty && f.inj.isEmpty then s
  else
    let bad := f.badWords.filter fun a => !ws.contains a
    match ws with
    | [] => s
    | a :: _ =>
      if f.armed c 2 host then s.setFlt { f.consume c 2 with badWords := bad ++ [a] } else s.setFlt { f with badWords := bad }

/-- The first word with bad check bits among those a routine reads. -/
def State.badRead (s : State) (ws : List Nat) : Option Nat :=
  if s.flt.badWords.isEmpty then none else ws.find? fun a => s.flt.badWords.contains a

/-- KIND 0x4: the word at `a` of comb `c` read with bad check bits. -/
def State.paramError (s : State) (c a : Nat) : State :=
  let o := a % 0x4000
  let lane := if 0x1000 ≤ o then some ((o - 0x1000) / 0x80) else none
  s.combFault c 4 lane { detail := lane.getD 0, access := 0, master := 0x10, addr := o }

/-- The words an iteration of element `e` reads: LANE_CFG, its coefficient set, LANE_LIM, then the lane's committed code, its state and
its calibration in force. -/
def State.iterReads (s : State) (e : Nat) : List Nat :=
  [laneAdr e 2] ++ (List.range 8).map (fun k => s.csAdr e + 4 * k) ++ [0, 3, 4, 5, 6, 7, 8, 9, 18, 19, 20, 21, 22, 23].map (laneAdr e)

/-- The words a lane's accumulation, and its fit, read: PARK_CODE, LANE_CFG, its state, and its staged calibration. -/
def calReads (e : Nat) : List Nat := [0, 1, 2, 3, 8, 10, 11, 12, 13, 14, 15, 16].map (laneAdr e)

/-- The comb words that CMD and SADC read. -/
def combReads (c : Nat) : List Nat := [Adr.ADC_CAL c 0, Adr.ADC_CAL c 1, Adr.CAL_CSTAT c]

/-- A routine of vector `vec` of comb `c` reads the bad word at `a`: it is abandoned, the word's source asserts (KIND 0x4), and a comb
routine is not dispatched again in this period (R314). -/
def State.readBad (s : State) (c vec a : Nat) : State :=
  let s := if 4 ≤ vec ∧ vec ≤ 6 then s else s.onComb c fun x => { x with barred := x.barred ++ [vec] }
  (s.count (Adr.MC_CNT c) Fl.MC_CNT_ABANDONS 1).paramError c a

/-! ## The writes of a COMMIT (R132, R138) -/

/-- The fields of the register at `a` as word `w` has them; every other bit is 0. -/
def fieldBits (a : Nat) (w : Word) : Word :=
  match lookupWord a with
  | some (_, _, _, fs) => fs.foldl (fun r f => setBits r f.lo f.width (getBits w f.lo f.width)) 0
  | none => 0

/-- Word `k` of the lane area as a COMMIT writes it. STATE follows only among the states of the loop; the words the engine does not
own (set-point, configuration, limits, calibration in force) take nothing (R138; log 102). -/
def State.applyLaneWord (s : State) (e k : Nat) (z : Int) : State :=
  let w := BitVec.ofInt 32 z
  let f := fun (lo n : Nat) => getBits w lo n
  match k with
  | 0 => s.onLane e fun x => { x with before := x.committed, committed := f 0 14, commitTick := s.tick }
  | 1 => s.put (laneAdr e 1) Fl.PARK_CODE_STAGED (f 0 14)
  | 5 => s.onLane e fun x => { x with phiEst := f 0 16, err := signed 16 (f 16 16) }
  | 6 => s.onLane e fun x => { x with integ := w.toInt }
  | 7 => s.onLane e fun x => { x with df := w.toInt }
  | 8 => s.onLane e fun x => { x with
      st := if 3 ≤ x.st ∧ x.st ≤ 5 ∧ 3 ≤ f 0 4 ∧ f 0 4 ≤ 5 then f 0 4 else x.st
      primeCnt := if bitSet w 7 then 2 else min x.primeCnt 1
      degraded := bitSet w 8, satHi := bitSet w 9, satLo := bitSet w 10, hv := bitSet w 11, feTrip := bitSet w 12, ovrTrip := bitSet w 13,
      lowsig := bitSet w 14, stale := bitSet w 15, feTimer := f 16 16 }
  | 9 => s.onLane e fun x => { x with skip := f 0 16, consec := f 16 8, frozen := f 24 8 }
  | _ => if 10 ≤ k ∧ k ≤ 16 then s.wr (laneAdr e k) (fieldBits (laneAdr e k) w) else s

/-- A comb word as a COMMIT writes it. -/
def State.applyCombWord (s : State) (c k : Nat) (z : Int) : State :=
  let a := if k < 2 then Adr.ADC_CAL c k else Adr.CAL_CSTAT c
  s.wr a (fieldBits a (BitVec.ofInt 32 z))

/-- The whole buffer of a COMMIT of comb `c`, in order, through the parameter SRAM checker. -/
def State.applyBuf (s : State) (c : Nat) (ws : List (Nat × Nat × Int)) : State :=
  if ws.isEmpty then s
  else
    let adr := fun (x : Nat × Nat × Int) => if x.1 = 64 then (combReads c).getD x.2.1 0 else laneAdr (64 * c + x.1) x.2.1
    let s := ws.foldl (fun s x => if x.1 = 64 then s.applyCombWord c x.2.1 x.2.2 else s.applyLaneWord (64 * c + x.1) x.2.1 x.2.2) s
    s.paramWrite c false ((ws.map adr).foldl (fun l a => insertAsc a l) [])

/-! ## Running a routine's microcode -/

/-- The composed image (R145): the words a patch overwrote, else the baseline's. -/
def State.microWord (s : State) (a : Nat) : Nat := SMap.find (Config.baselineMicro a).toNat s.boot.mcMicro a % 2 ^ 24
def State.nanoWord (s : State) (a : Nat) : Nat := SMap.find (Config.baselineNano a).toNat s.boot.mcNano a % 2 ^ 128

/-- A stored word of comb `c` that differs from the image with fresh check bits. -/
def Comb.raw (x : Comb) (k : Nat) : Option Nat := (x.stored.find? fun e => e.1 == k).map Prod.snd

/-- The byte lanes whose parity fails at a fetch of store word `k`; a word as the load port writes it fails in none. -/
def Comb.failing (x : Comb) (k : Nat) : List Nat :=
  match x.raw k with
  | some w => badLanes (if k < 4096 then 3 else 16) w
  | none => []

/-- The throttle level in force on the tile of comb `c`. -/
def State.throttle (s : State) (c : Nat) : Nat :=
  if s.flag (Adr.MC_STAT c) Fl.MC_STAT_THR2 then 2 else if s.flag (Adr.MC_STAT c) Fl.MC_STAT_THR1 then 1 else 0

/-- What the routine `r` of comb `c` can read: a loop iteration takes its lane's readings and coefficients as they stood when it
started (R66, R73). -/
def State.menv (s : State) (c : Nat) (r : Run) : MEnv :=
  let e := 64 * c + r.lane
  let own := fun (l : Nat) => l == r.lane && (r.vec == 4 || r.vec == 5)
  let inp := fun (l : Nat) => if own l then r.inp else s.iterIn (64 * c + l)
  let x := s.lane e
  let x' := s.comb c
  { micro := fun a => match x'.raw a with | some w => w % 2 ^ 24 | none => s.microWord a
    nano := fun a => match x'.raw (4096 + a) with | some w => w % 2 ^ 128 | none => s.nanoWord a
    fails := x'.failing
    word := fun l k => if k = 0 then (s.lane (64 * c + l)).committed else s32 (s.laneWord (64 * c + l) k)
    comb := fun k => s32 (s.rd (if k < 2 then Adr.ADC_CAL c k else Adr.CAL_CSTAT c)).toNat
    sense := fun l t => match (inp l).taps.getD t none with
      | some w => ⟨(getBits w.1 0 14 : Nat), getBits w.1 18 2, w.2 && !resUnset w.1, resUnset w.1⟩
      | none => ⟨0, 0, false, false⟩
    coeff := fun l => let k := (inp l).coeffs
      [k.kp, k.ki, k.kd, k.alpha, k.iMin, k.iMax, k.feLim, k.feTime, k.codeMin, k.codeMax]
    overlap := s.overlapped c
    cond := fun k => match k with
      | 4 => x.hv
      | 5 => x.primeCnt == 0
      | 8 => x.satHi
      | 9 => x.satLo
      | 10 => x.st == 9
      | 11 => isGate s.variant e
      | 12 => s.throttle c != 0
      | _ => false
    pseq := s.get (Adr.SENSE_STAT c) Fl.SENSE_STAT_PSEQ }

/-- A machine check (R142): recorded, the engine stopped, its source raised and the comb held; its capture has the byte address in the
store and the failing byte lane (R316; a microword lies on 4 bytes of its store, a nanoword on 16, log 39). -/
def State.machineCheck (s : State) (c : Nat) (k : MCheck) : State :=
  let b := Adr.MC_CHECK c
  let s := if s.flag b Fl.MC_CHECK_VALID then s
    else
      let w := k.upc + 2 ^ 12 * k.nano + 2 ^ 21 * k.kind + 2 ^ 24 * k.byte + 2 ^ 28 * b2i k.multi + 2 ^ 29 * domIx s.sdom + 2 ^ 31
      (s.wr b (BitVec.ofNat 32 w)).put (Adr.MC_CHECK_T c) Fl.MC_CHECK_T_NS32 s.ns32
  let s := s.put (Adr.MC_STAT c) Fl.MC_STAT_STATE 2
  let s := s.onComb c fun x => { x with checks := x.checks ++ [s.tick], run := none }
  s.combFault c 1 none {
    detail := if k.kind < 2 then k.byte else 0, access := 2, master := 0x10, addr := if k.kind = 1 then 16 * k.nano else 4 * k.upc }

/-- Steps executed: STEP, which gives a notice as it saturates, the EV pulses of the steps, and the comb counters that select steps
(R138, R335, R343, R344). -/
def State.countSteps (s : State) (c : Nat) (m : Engine) : State :=
  let e := s.engOf c
  let r := satCount 48 e.steps m.steps
  let s := s.setEng c { upc := m.last, steps := r.1, sat := e.sat || r.2 }
  let s := if r.2 && !e.sat then s.notice c else s
  if (s.regs.any fun e => decide (Adr.PC c 0 ≤ e.1 ∧ e.1 < Adr.PC c 4)) = false then s
  else
    let s := (List.range 7).foldl (fun s k => s.combEvent c (1 + k) (m.events.filter (· == 1 + k)).length) s
    let s := (List.range 8).foldl (fun s k => s.combEvent c (8 + k) (m.classes.filter (· == k)).length) s
    if s.throttle c = 0 then s else s.combEvent c 0x14 m.steps

/-- The dispatcher of comb `c` may start the routine of vector `vec`, or the routine in progress is that one and goes on: the
engine runs, no pause of throttle level 2 and no wait for a strobe is in force (R130, R135, R137). -/
def State.mayRun (s : State) (c vec : Nat) : Bool :=
  s.running c && match (s.comb c).run with
    | some r => r.vec == vec && decide (r.wake ≤ s.tick)
    | none => decide ((s.comb c).pause ≤ s.tick) && !(s.comb c).barred.contains vec

/-- The lane of the routine of vector `vec` that is in progress in comb `c`. -/
def State.going (s : State) (c vec : Nat) : Option Nat :=
  match (s.comb c).run with
  | some r => if r.vec = vec then some r.lane else none
  | none => none

/-- The routine in progress as it goes on, or the one of vector `vec` as the dispatcher starts it: at the restart address of a
routine that was abandoned or that ended a segment, else at its vector (R137, R140). -/
def State.runAt (s : State) (c vec l : Nat) : Run :=
  let x := s.comb c
  match x.run with
  | some r => { r with eng := { r.eng with steps := 0, classes := [], events := [], waits := false } }
  | none =>
    { vec := vec, lane := l, eng := { upc := SMap.find vec x.resume (resumeKey vec l), lane := l }
      inp := s.iterIn (64 * c + l), scopes := s.scopes c }

/-- Where the steps have left the routine `r`: a machine check, the end of the routine (with the pause of throttle
level 2 after a loop iteration, R135) or of a segment of it, an event taken at the end of its epilogue or at a WAIT within it, or in
progress. -/
def State.settleRun (s : State) (c : Nat) (r : Run) (m : Engine) : State :=
  match m.check with
  | some k => s.machineCheck c k
  | none =>
    let key := resumeKey r.vec r.lane
    if m.done then
      let again := m.committed && !m.final
      s.onComb c fun x => { x with
        run := none
        resume := match m.restart with | some a => if again then SMap.insert x.resume key a else SMap.erase x.resume key
                                       | none => SMap.erase x.resume key
        pause := if (r.vec = 4 ∨ r.vec = 5) ∧ s.throttle c = 2 then s.tick + 25 else x.pause }
    else if r.cut && (m.epi == 0 || m.waits) then s.abandoned c r.vec m
    else s.onComb c fun x => { x with run := some { r with eng := m, wake := if m.waits then s.tick / 5 * 5 + 5 else 0 } }

/-- The COMMIT at which the work of a routine becomes visible: the last one of the routine, and for CAL_ACC and SADC, which make one
segment each time they are dispatched, the first (R91, R92, R138). -/
def Run.worksAt (r : Run) (m m' : Engine) : Bool :=
  if r.vec = 3 ∨ r.vec = 7 then !m.committed else m'.final && !m.final

/-- Steps of routine `r` until `n` have been made or it pauses for something other than a COMMIT. At each COMMIT, in its one step, the
buffer is applied, and at one of them the routine's `work`; what that makes visible is the same whatever microcode is loaded
(R136, R138). -/
def State.turns (c : Nat) (r : Run) (n : Nat) (work : IterIn → State → State) : Nat → State → Engine → State × Engine
  | 0, s, m => (s, m)
  | k + 1, s, m =>
    let m' := Engine.run (s.menv c r) (Engine.pauses r.cut) (n - m.steps) m
    if m'.hit then
      let s := s.applyBuf c m'.out
      let s := if r.worksAt m m' then work r.inp s else s
      State.turns c r n work k s { m' with hit := false, out := [] }
    else (s, m')

/-- Up to `n` steps of the routine of vector `vec` for lane `l` of comb `c`, and how many were made. -/
def State.turn (s : State) (c vec l n : Nat) (work : IterIn → State → State) : State × Nat :=
  let r := s.runAt c vec l
  let t := State.turns c r n work (n + 1) s r.eng
  ((t.1.countSteps c t.2).settleRun c r t.2, t.2.steps)

def State.routine (s : State) (c vec l n : Nat) (work : IterIn → State → State) : State := (s.turn c vec l n work).1

/-- The engine starts at IDLE (R137, R143). -/
def State.idle (s : State) (c : Nat) : State :=
  s.onComb c fun x => { x with run := some { vec := 0, lane := 0, eng := { upc := 0, lane := 0 }, inp := default, scopes := s.scopes c } }

/-- IDLE, where it is in progress, makes its steps first, and what a command names the rest once IDLE has ended (R137). -/
def State.afterIdle (s : State) (c n : Nat) (go : Nat → State → State) : State :=
  if (s.going c 0).isSome && s.mayRun c 0 then
    let r := s.turn c 0 0 n fun _ s => s
    if (r.1.comb c).run.isNone then go (n - r.2) r.1 else r.1
  else go n s

end Sys2Proof.Machine
end

