-- ==== Sys2Proof/Machine/CalOps.lean ====
section
/-! DEFINITION. Dispatch of a comb engine (spec/07_comb_engine_microcode.md R137) and the bookkeeping of calibration
(spec/05_calibration.md R90 to R101): which lanes a procedure takes, how procedures follow each other and are abandoned,
CAL_APPLY items, and the copy that brings staged values into force. -/

namespace Sys2Proof.Machine

/-! ## What a comb's engine has to do (R78, R80, R137) -/

/-- A lane due for service: PRIMING, TRACKING or STABLE, and waiting neither for its post-move iteration nor for a fault
park (R119). -/
def Lane.due (x : Lane) : Bool := decide (3 ≤ x.st ∧ x.st ≤ 5) && x.postMove.isNone && !x.waits

/-- The lanes of comb `c` in the order of R80. -/
def State.order (s : State) (c : Nat) : List Nat :=
  let start := s.get (Adr.LOOP_STAT c) Fl.LOOP_STAT_START
  (List.range 64).map fun k => (start + k) % 64

/-- The next due lane that has not been served in this period. -/
def State.nextDue (s : State) (c : Nat) : Option Nat :=
  (s.order c).find? fun l => let x := s.lane (64 * c + l); x.due && !x.served

/-- A tap of a moved lane is ready: no entry names it, or its result is the urgent one its move asked for, or a scheduled
one of a period that began after the move ended. -/
def State.tapReady (s : State) (e t : Nat) (x : Lane) : Bool :=
  let i := senseInput (e % 64) t
  let k := s.comb (e / 64)
  match s.tapWord e t with
  | none => true
  | some w =>
    let waits := (k.urg i.1).contains i.2 || (match k.cur i.1 with | some v => v.urgent && v.input == i.2 | none => false)
    if getBits w 15 1 ≠ 0 then !waits
    else let d := (getBits w 24 8 + 256 - x.postSeq) % 256; decide (1 ≤ d ∧ d < 128)

def State.tapsReady (s : State) (e : Nat) (x : Lane) : Bool := s.tapReady e 0 x && s.tapReady e 1 x && s.tapReady e 2 x

/-- The lowest moved lane whose readings are ready. -/
def State.nextPost (s : State) (c : Nat) : Option Nat :=
  (List.range 64).find? fun l =>
    let e := 64 * c + l
    let x := s.lane e
    decide (3 ≤ x.st ∧ x.st ≤ 5) && x.postMove.isSome && s.tapsReady e x

/-- The lanes of the running lane procedure that are CALIBRATING and not abandoned. -/
def State.calLanes (s : State) (c : Nat) : List Nat :=
  match (s.comb c).procs.head? with
  | some p => if p.kind = 4 then [] else p.lanes.filter fun l => let x := s.lane (64 * c + l); x.st == 9 && !x.abandoned
  | none => []

/-- Calibrating lanes that have not accumulated in this period. -/
def State.accWaits (s : State) (c : Nat) : List Nat := (s.calLanes c).filter fun l => !(s.lane (64 * c + l)).accDone

/-- Points of each lane procedure (R92). -/
def procPoints (kind : Nat) : Nat := match kind with | 1 => 322 | 2 => 66 | 3 => 64 | _ => 0

/-- PROLOGUE, or CMD, has work that the dispatcher may start (R137, R314). -/
def State.owesPrologue (s : State) (c : Nat) : Bool := (s.comb c).prologue && !(s.comb c).barred.contains 1
def State.owesCmd (s : State) (c : Nat) : Bool := (s.comb c).cmd && !(s.comb c).barred.contains 2

/-- The engine of comb `c` runs and no prologue or command is ahead of loop service. -/
def State.serving (s : State) (c : Nat) : Bool :=
  decide (c < numCombs s.variant) && s.running c && !s.owesPrologue c && !s.owesCmd c

/-- Nothing of priority 1 to 5 waits. -/
def State.idleLoops (s : State) (c : Nat) : Bool :=
  s.serving c && (s.accWaits c).isEmpty && (s.nextPost c).isNone && (s.nextDue c).isNone

/-- The fit of lane `l` of comb `c` is outstanding in procedure `p`. -/
def State.fitDue (s : State) (c l : Nat) (p : Proc) : Bool :=
  decide (1 ≤ p.kind ∧ p.kind ≤ 3) && decide (procPoints p.kind ≤ s.get (Adr.CAL_CSTAT c) Fl.CAL_CSTAT_POINTS)
    && (s.calLanes c).contains l && !(s.comb c).fitted.contains l

/-- A segment of the self-calibration of the sense ADCs is outstanding. -/
def State.sadcDue (s : State) (c : Nat) : Bool :=
  (match (s.comb c).procs.head? with | some p => p.kind == 4 | none => false) && !(s.comb c).segDone

/-- Nothing but IDLE has work. -/
def State.onlyIdle (s : State) (c : Nat) : Bool :=
  s.idleLoops c && !s.sadcDue c
    && (match (s.comb c).procs.head? with | some p => (List.range 64).all fun l => !s.fitDue c l p | none => true)

/-- With no work of any routine the dispatcher starts IDLE (R137). -/
def State.orIdle (s : State) (c n : Nat) : State :=
  if n ≠ 0 ∧ (s.comb c).run.isNone ∧ s.onlyIdle c ∧ s.mayRun c 0 then s.routine c 0 0 n fun _ s => s else s

/-! ## Procedures (R90, R92, R95 to R98) -/

/-- A procedure runs anywhere: CAL_GSTAT.PROC_ANY, or a FULL calibration between its groups (R99). -/
def State.procAny (s : State) : Bool := s.ctl.combs.any fun x => !x.2.procs.isEmpty
def State.calBusy (s : State) : Bool :=
  s.procAny || s.ctl.cal.runs.any fun r => r.full

/-- Element `e` lies on the path of a circuit that is not DARK. -/
def State.onCircuit (s : State) (e : Nat) : Bool :=
  if isGate s.variant e then (s.out (gateOut s.variant e)).st != 0
  else (circuitsThrough s.variant s.plan.inForce e).any fun o => (s.out o).st != 0

/-- A lane that CAL_RUN takes (R90). -/
def State.calEligible (s : State) (gateOk : Bool) (e : Nat) : Bool :=
  let x := s.lane e
  (gateOk || !isGate s.variant e) && s.running (e / 64)
    && (x.st == 1 || (x.st == 2 && x.cause == 1) || (decide (3 ≤ x.st ∧ x.st ≤ 5) && !s.onCircuit e))

/-- CAL_RES of a lane: PROC, OUTCOME, ONE_SIDED, LIMIT; REJECTED is sticky. -/
def State.calRes (s : State) (e kind outcome : Nat) (oneSided : Bool) (limit : Nat) : State :=
  let b := Adr.CAL_RES (e / 64) (e % 64)
  let s := (s.put b Fl.CAL_RES_PROC kind).put b Fl.CAL_RES_OUTCOME outcome
  let s := (s.putFlag b Fl.CAL_RES_ONE_SIDED oneSided).put b Fl.CAL_RES_LIMIT limit
  if outcome = 2 then s.putFlag b Fl.CAL_RES_REJECTED true else s

/-- CAL_CSTAT.RUNNING and CAL_GSTAT.PROC_ANY follow the procedures. -/
def State.showProcs (s : State) (c : Nat) : State :=
  let kind := match (s.comb c).procs.head? with | some p => p.kind | none => 0
  let s := s.put (Adr.CAL_CSTAT c) Fl.CAL_CSTAT_RUNNING kind
  s.putFlag Adr.CAL_GSTAT Fl.CAL_GSTAT_PROC_ANY s.procAny

/-- The lanes of comb `c` start a procedure with no points and no sums; the restart addresses of the procedure before it (CAL_ACC,
CAL_FIT, SADC) are gone with it (R140). -/
def State.clearPoints (s : State) (c : Nat) : State :=
  (s.mapComb c fun _ x => { x with acc := [], points := [] }).onComb c fun x => { x with
    resume := x.resume.filter fun e => e.1 / 64 != 3 && e.1 / 64 != 6 && e.1 / 64 != 7 }

/-- The procedures of comb `c` begin on its taken lanes. The command reaches the routine in progress (R139). -/
def State.startProcs (s : State) (c : Nat) (procs : List Proc) (lanes : List Nat) (avg : Nat) : State :=
  if procs.isEmpty then s
  else
    let s := s.onComb c fun x => { x with
      procs := procs, taking := lanes, avg := avg, accums := 0, blanked := false, fitted := [], cmd := true, accHow := 0, sadcSums := [] }
    let s := (s.clearPoints c).mapComb c fun e x => if lanes.contains (e % 64) then { x with abandoned := false } else x
    ((s.put (Adr.CAL_CSTAT c) Fl.CAL_CSTAT_POINTS 0).showProcs c).interrupt c []

/-- The procedures of one CAL_RUN on comb `c` for its taken lanes: SADC first where REF_CHANGED is set or asked for, then
the lane procedures in order, where any lane is taken. -/
def State.procList (s : State) (c proc : Nat) (lanes : List Nat) : List Proc :=
  let kinds := match proc with | 1 => [1] | 2 => [2] | 3 => [3] | 4 => [] | _ => [1, 2, 3]
  let sadc := proc == 4 || proc == 6 || s.flag (Adr.CAL_CSTAT c) Fl.CAL_CSTAT_REF_CHANGED
  (if sadc then [⟨4, []⟩] else []) ++ (if lanes.isEmpty then [] else kinds.map fun k => ⟨k, lanes⟩)

/-- The running procedure of comb `c` has ended: the next begins. -/
def State.nextProc (s : State) (c : Nat) : State :=
  let s := (s.clearPoints c).onComb c fun x => { x with
    procs := x.procs.tail, accums := 0, blanked := false, fitted := [], accHow := 0, sadcSums := [] }
  let s := if (s.comb c).procs.isEmpty then s else s.put (Adr.CAL_CSTAT c) Fl.CAL_CSTAT_POINTS 0
  s.showProcs c

/-- Procedures whose last lane has gone are passed over. -/
def State.dropEmpty (s : State) (c : Nat) : Nat → State
  | 0 => s
  | n + 1 =>
    match (s.comb c).procs.head? with
    | some p => if p.kind ≠ 4 ∧ p.lanes.isEmpty then (s.nextProc c).dropEmpty c n else s
    | none => s

/-- The running lane procedure ends once every lane it still has is fitted (R96). -/
def State.endFits (s : State) (c : Nat) : State :=
  let x := s.comb c
  match x.procs.head? with
  | none => s
  | some p => if p.kind ≠ 4 ∧ p.lanes.all x.fitted.contains then (s.nextProc c).dropEmpty c 4 else s

/-- Lanes that a procedure was abandoned for report ABANDONED and leave every procedure; a SADC of a comb under a hold is
abandoned too (R96). -/
def State.calSweep (s : State) (c : Nat) : State :=
  let x := s.comb c
  if x.procs.isEmpty then s
  else
    let kind := match x.procs.head? with | some p => p.kind | none => 0
    let gone := (x.procs.flatMap (·.lanes)).eraseDups.filter fun l => (s.lane (64 * c + l)).abandoned
    let s := gone.foldl (fun s l => s.calRes (64 * c + l) kind 3 false 0) s
    let s := s.onComb c fun x => { x with
      procs := x.procs.map fun p => { p with lanes := p.lanes.filter fun l => !gone.contains l } }
    let s := if x.held ∧ kind = 4 then (s.put (Adr.CAL_CSTAT c) Fl.CAL_CSTAT_SADC_OUT 3).nextProc c else s
    (s.dropEmpty c 4).endFits c

/-- Lanes taken, combs at work: a group of a FULL calibration starts its sweeps (R98). -/
def State.startGroup (s : State) (g avg : Nat) : State × List Nat :=
  (List.range (numCombs s.variant)).foldl (fun (acc : State × List Nat) c =>
    let s := acc.1
    if groupOf s.variant c = g ∧ s.running c then
      let lanes := (List.range 64).filter fun l => s.calEligible true (64 * c + l)
      let s := (List.range 64).foldl (fun s l =>
        if lanes.contains l then s else s.calRes (64 * c + l) 0 4 false 0) s
      (s.startProcs c (s.procList c 6 lanes) lanes avg, acc.2 ++ [c])
    else acc) (s, [])

/-! ## CAL_APPLY items (R99, R100) -/

def State.planLead (s : State) : Nat := 5 * max 0x80 (s.get Adr.PLAN_CFG Fl.PLAN_CFG_LEAD)

/-- Domain time of the stamping domain at tick `t`, taken now. -/
def State.timeAt (s : State) (t : Nat) : Domain := s.now.after (t - s.tick)

/-- The first tick at which the stamping domain's time is at or after second `sec`, nanosecond `ns` (R122). -/
def State.tickFor (s : State) (sec ns : Nat) : Nat := s.tick + s.now.ticksUntil (sec * 1000000000 + ns)

/-- A CAL_APPLY that every comb has carried out completes. -/
def State.applyDone (s : State) (a : ApplyItem) : State :=
  let s := s.count Adr.CAL_GSTAT Fl.CAL_GSTAT_APPLY_COUNT 1
  let b := s.boot
  let s := if s.get Adr.BOOT_STAT Fl.BOOT_STAT_STAGE = 8 then s.put Adr.BOOT_STAT Fl.BOOT_STAT_STAGE 9 else s.setBoot { b with applied := true }
  if a.q = 0xffff then s else s.complete a.q 0 (layout 16 [(0, le 4 a.ns32), (4, le 1 a.frac8), (6, le 1 a.done)])

/-- A CAL_APPLY reports its instant T_a in the stamping domain as that stands at T_a (R248). -/
def State.stampApplies (s : State) : State :=
  if s.ctl.cal.applies.any fun a => a.tick == s.tick then
    let d := s.now
    { s with ctl := { s.ctl with cal := { s.ctl.cal with
      applies := s.ctl.cal.applies.map fun a => if a.tick = s.tick then { a with ns32 := d.ns32, frac8 := d.frac8 } else a } } }
  else s

/-- Completed items leave the list; APPLY_PEND follows. -/
def State.flushApplies (s : State) : State :=
  let past := s.ctl.cal.applies.filter fun a => a.combs.isEmpty
  if past.isEmpty then s
  else
    let s := { s with ctl := { s.ctl with cal := { s.ctl.cal with
      applies := s.ctl.cal.applies.filter fun a => !a.combs.isEmpty } } }
    let s := s.putFlag Adr.CAL_GSTAT Fl.CAL_GSTAT_APPLY_PEND (!s.ctl.cal.applies.isEmpty)
    past.foldl (fun s a => s.applyDone a) s

/-- A comb that enters LOAD_FAIL takes no CAL_APPLY: those accepted before no longer wait for it (R100, R146). -/
def State.dropFromApplies (s : State) (c : Nat) : State :=
  let drop := fun (a : ApplyItem) => { a with combs := a.combs.filter (· != c) }
  let s := { s with ctl := { s.ctl with cal := { s.ctl.cal with applies := s.ctl.cal.applies.map drop } } }
  s.flushApplies

/-- A CAL_APPLY accepted, with instant T_a at tick `t`: its ledger entry is written and every powered comb that is not in
LOAD_FAIL owes an application. -/
def State.issueApply (s : State) (q eq role source t : Nat) : State :=
  let d := s.timeAt t
  let s := s.logAt 0x0040 eq role d.sec d.ns (bodyOf [(0, 1, source), (4, 6, d.sec), (10, 4, d.ns)])
  let combs := (List.range (numCombs s.variant)).filter fun c => s.powered (combDomain s.variant c) && s.engine c != 4
  let item : ApplyItem := ⟨q, t, d.ns32, d.frac8, combs, 0⟩
  let s := { s with ctl := { s.ctl with cal := { s.ctl.cal with applies := s.ctl.cal.applies ++ [item] } } }
  (s.putFlag Adr.CAL_GSTAT Fl.CAL_GSTAT_APPLY_PEND true).flushApplies

/-- The CAL_APPLY that follows the last procedure of a CAL_RUN, as if the owner had issued it with NOW. -/
def State.applyAfter (s : State) (q source : Nat) : State :=
  if s.calBusy then s
  else if s.ledgerRoom 1 = false then s.ledgerRefused
  else s.issueApply 0xffff q 1 source (s.tick + s.planLead)

/-- The list of CAL_RUNs still at work. -/
def State.setRuns (s : State) (rs : List RunItem) : State := { s with ctl := { s.ctl with cal := { s.ctl.cal with runs := rs } } }

/-- Every comb of a CAL_RUN has ended its procedures. -/
def State.runEnded (s : State) (r : RunItem) : Bool := !r.combs.isEmpty && r.combs.all fun c => (s.comb c).procs.isEmpty

/-- The groups of a FULL calibration follow each other after 8 s of settling (R98). -/
def RunItem.nextGroup (r : RunItem) (tick : Nat) : RunItem :=
  { r with combs := [], group := r.group + 1, settle := tick + 8 * 625000000 }

/-- A FULL calibration accepted: group 0 begins after its thermal settle. -/
def State.startFull (s : State) (avg q : Nat) (apply : Bool) : State :=
  s.setRuns (s.ctl.cal.runs ++ [⟨[], true, 0, s.tick + 8 * 625000000, apply, q, avg⟩])

/-- The CAL_RUN with FULL and APPLY that Gwynique issues in SELF_CAL (R351, R362), once no procedure is at work. -/
def State.selfCalRun (s : State) : State :=
  if s.boot.calOwed && !s.procAny then
    let b := s.boot
    (s.setBoot { b with calOwed := false }).startFull 64 0xffff true
  else s

/-- Stage 7 of a start ends once the enable ramp has ended and the pilot references are captured; stage 8 begins, in SELF_CAL with its
CAL_RUN, and is over at once where a CAL_APPLY of this start has completed already (R351). -/
def State.endStage7 (s : State) : State :=
  if s.gwqRuns && s.get Adr.BOOT_STAT Fl.BOOT_STAT_STAGE == 7 && s.flag Adr.DRV_STAT Fl.DRV_STAT_EN_DONE && !s.ctl.pilot.recapture then
    let s := s.put Adr.BOOT_STAT Fl.BOOT_STAT_STAGE (if s.boot.applied then 9 else 8)
    let b := s.boot
    if s.boot.selfCal && s.frValid && !s.boot.applied then (s.setBoot { b with calOwed := true }).selfCalRun else s
  else s

/-- CAL_RUNs whose combs have ended move on: the next group of a FULL calibration, or its end with its CAL_APPLY. -/
def State.calProgress (s : State) : State :=
  let s := s.selfCalRun
  let ended := s.ctl.cal.runs.filter s.runEnded
  if ended.isEmpty then s
  else
    let past := ended.filter fun r => !(r.full && decide (r.group < 3))
    let rest := s.ctl.cal.runs.filterMap fun r =>
      if past.contains r then none else if s.runEnded r then some (r.nextGroup s.tick) else some r
    let s := s.setRuns rest
    past.foldl (fun s r => if r.apply then s.applyAfter r.q 1 else s) s

/-! ## Bringing staged values into force (R89, R100, R101) -/

/-- Staged words 10 to 15 and PARK_CODE.STAGED of element `e` copied; VALID is forced to 0 while the factory record is
invalid (R87). -/
def State.copyLane (s : State) (e : Nat) : State :=
  let c := e / 64
  let l := e % 64
  let s := (List.range 6).foldl (fun s k => s.wr (laneAdr e (18 + k)) (s.rd (laneAdr e (10 + k)))) s
  let s := if s.frValid then s else s.putFlag (Adr.CAL_BIAS_ACT c l) Fl.CAL_BIAS_VALID false
  s.put (Adr.PARK_CODE c l) Fl.PARK_CODE_ACTIVE (s.get (Adr.PARK_CODE c l) Fl.PARK_CODE_STAGED)

/-- Every staged value of comb `c` copied into the active set, in one step. -/
def State.copyComb (s : State) (c : Nat) : State :=
  let s := (List.range 64).foldl (fun s l => s.copyLane (64 * c + l)) s
  let s := (List.range 2).foldl (fun s k => s.wr (Adr.ADC_CAL_ACT c k) (s.rd (Adr.ADC_CAL c k))) s
  s.put (Adr.DRV_CFG c) Fl.DRV_CFG_GAIN_ACT (s.get (Adr.DRV_CFG c) Fl.DRV_CFG_GAIN)

/-- Active VALID of element `e`. -/
def State.validAct (s : State) (e : Nat) : Bool := s.flag (Adr.CAL_BIAS_ACT (e / 64) (e % 64)) Fl.CAL_BIAS_VALID

/-- A lane at an applying boundary (R77, R101): only a change of active VALID moves it. A lane in OFF, UNCAL or HOLD from UNCAL
follows once the action on it ends (R15). -/
def State.applyLane (s : State) (e : Nat) (x : Lane) : Lane :=
  let x := { x with hv := false }
  if s.validAct e then
    if x.uncal = false then x
    else if x.st ≤ 1 ∨ (x.st = 7 ∧ x.heldFrom = 1) then { x with validated := true }
    else { x with uncal := false, calFrom := if x.calFrom = 1 then 3 else x.calFrom }
  else
    let fell := !x.uncal
    let x := { x with uncal := true, validated := false }
    if fell = false then x
    else if x.st = 7 then { x with heldFrom := if x.heldFrom = 2 then 2 else 1 }
    else if x.st = 9 ∧ x.calFrom = 2 then s.settleLane s.acts e { x.unprime with st := 2 }
    else if 3 ≤ x.st then { x.unprime with st := 1 }
    else x

/-- The state changes of R101 in comb `c`; a cell lane that enters UNCAL on a lit circuit needing its cross point has the
gates of both outputs fault-parked (R119). -/
def State.applyStates (s : State) (c : Nat) : State :=
  let hit := (List.range 64).filter fun l =>
    let x := s.lane (64 * c + l)
    !s.validAct (64 * c + l) && !x.uncal && (decide (3 ≤ x.st ∧ x.st ≤ 6) || x.st == 8 || x.st == 9) && s.crossNeeded (64 * c + l)
  let s := hit.foldl (fun s l => s.forceGates (64 * c + l)) s
  let s := s.mapComb c (s.applyLane)
  if hit.isEmpty then s else s.settleAll

/-- A lane of comb `c` is MOVING. -/
def State.combMoving (s : State) (c : Nat) : Bool := s.ctl.lanes.any fun e => e.1 / 64 == c && e.2.st == 6

/-- The applying boundary of comb `c`, for the items whose T_a has passed (R100). -/
def State.applyBoundary (s : State) (c : Nat) : State :=
  let due := fun (a : ApplyItem) => a.combs.contains c && decide (a.tick ≤ s.tick)
  if s.ctl.cal.applies.any due = false ∨ s.combMoving c ∨ s.engine c = 4 then s
  else
    let s := s.copyComb c
    let mark := fun (a : ApplyItem) => (if due a then { a with combs := a.combs.erase c, done := a.done + 1 } else a)
    let s := { s with ctl := { s.ctl with cal := { s.ctl.cal with applies := s.ctl.cal.applies.map mark } } }
    let s := s.onComb c fun x => { x with cmd := true }
    let s := if s.running c then s.applyStates c else s.onComb c fun x => { x with applied := true }
    s.flushApplies

end Sys2Proof.Machine
end

