-- ==== Sys2Proof/Machine/PlanOps.lean ====
section
/-! DEFINITION. Plan slots, the acceptance of commits, and steps of gate lanes (spec/06_reconfiguration.md R110 to R124). -/

namespace Sys2Proof.Machine

/-! ## Slots (R110) -/

def State.slot? (s : State) (id : Nat) : Option Slot := (s.plan.slots.find? fun e => e.1 == id).map Prod.snd
def State.setSlot (s : State) (id : Nat) (x : Slot) : State :=
  (s.setPlan { s.plan with slots := SMap.insert s.plan.slots id x }).checkWrite 0xA5 id
def State.freeSlot (s : State) (id : Nat) : State :=
  (s.setPlan { s.plan with slots := SMap.erase s.plan.slots id }).checkClear 0xA5 id

def State.armed (s : State) : Option Nat :=
  if s.flag Adr.PLAN_STAT Fl.PLAN_STAT_ARMED then some (s.get Adr.PLAN_STAT Fl.PLAN_STAT_ARMED_ID) else none

/-- PLAN_STAT shows slot `id` armed, or none. -/
def State.setArmed (s : State) (id : Option Nat) : State :=
  (s.putFlag Adr.PLAN_STAT Fl.PLAN_STAT_ARMED id.isSome).put Adr.PLAN_STAT Fl.PLAN_STAT_ARMED_ID (id.getD 0)

/-- A slot read by `master`: bad check bits assert DRAM_PLAN and the slot becomes EMPTY, so the plan in force is held (R313). The plan
executor, 0x11, reads a slot that a commit, a step or a strike names. -/
def State.slotParity (s : State) (id : Nat) (master : Nat := 0x11) : State :=
  if s.checkBad 0xA5 id then
    let s := (s.freeSlot id).assertFault 0xA5 { detail := 0, access := 0, master := master, addr := 20480 * id } false
    if s.armed = some id then (s.setArmed none).refreshGo else s
  else s

/-- The slot holds the plan in force, that of an accepted commit, or the armed plan. -/
def State.slotBusy (s : State) (id : Nat) : Bool :=
  (!s.plan.inForce.isEmpty && s.plan.forceId == id) || s.plan.commits.any (fun c => c.id == id) || s.armed == some id

/-- The plan of the latest accepted commit, or the plan in force: the generation a new commit follows (R115). -/
def State.followed (s : State) : List Nat :=
  match s.plan.commits.getLast? with
  | some c => c.words
  | none => s.plan.inForce

/-! ## Classes of outputs (R115) -/

inductive OutClass where
  | untouched | changed | collateral | attOnly
  deriving DecidableEq, Repr

def classify (old new : Nat) : OutClass :=
  if wCirc old != wCirc new || (wCirc new && wIn old != wIn new) then .changed
  else if wCirc new = false then .untouched
  else if wM old ≠ wM new then .collateral
  else if wAtt old ≠ wAtt new then .attOnly
  else .untouched

/-- Output numbers of class `k` between two plans. -/
def outsOf (v : Variant) (old new : List Nat) (k : OutClass) : List Nat :=
  (List.range (numPorts v)).filter fun o => classify (wordOf old o) (wordOf new o) == k

/-! ## The move of a commit (R113, R116) -/

/-- A lane withheld at a break (R120): under an action or zero drive, or a cell lane in OFF, UNCAL or CALIBRATING. -/
def State.withheldLane (s : State) (e : Nat) : Bool :=
  s.acted e || (!isGate s.variant e && (let x := s.lane e; x.st == 0 || x.st == 1 || x.st == 9))

/-- The largest |Δφ| between two plans: cells, and gates of attenuation-only outputs. -/
def planDelta (v : Variant) (old new : List Nat) : Nat :=
  let cells := (List.range (gateIx v 0)).foldl (fun m e => max m (cellPhi v new e - cellPhi v old e).natAbs) 0
  (outsOf v old new .attOnly).foldl (fun m o => max m (gatePhi v new o - gatePhi v old o).natAbs) cells

/-- A parked gate lane that a commit may release: kept parked after a fault park, with no other park on it since (R77, R328). -/
def State.remakable (s : State) (e : Nat) (x : Lane) : Bool :=
  x.st == 2 && x.kept == 4 && !x.needsUnpark && !x.planPark && !s.acts.rank2 e x

/-- A cell lane of the path that is neither parked nor UNCAL at its bar point and does not stand at the point that the plan `ws`
needs of it: its cell is in neither state (R29). -/
def State.astray (s : State) (ws : List Nat) (o : Nat) : Bool :=
  (pathLanes s.variant o (wordOf ws o)).any fun e =>
    let x := s.lane e
    !isGate s.variant e && decide (3 ≤ x.st) && decide (wrap16 x.sp ≠ cellPhi s.variant ws e)

/-- An output whose circuit is withheld, or dark through a fault park that has ended, is remade by a commit that gives it
a circuit (R115, R120). -/
def State.remade (s : State) (new : List Nat) (o : Nat) : Bool :=
  let e := gateIx s.variant o
  wCirc (wordOf new o) && ((s.out o).withheld != 0 || s.remakable e (s.lane e))

/-- The signed set-point from which the move of a commit accepted now would take lane `e`: as it stands, unless an accepted
commit will have moved it by then; the commit that broke last leaves the lanes it withheld where they are (R120). -/
def State.startPhi (s : State) (e : Nat) : Int :=
  let sp := wrap16 (s.lane e).sp
  match s.plan.commits with
  | [] => sp
  | [c] => if c.phase ≠ 0 ∧ c.withheld.contains e then sp else planPhi s.variant c.words e
  | _ => planPhi s.variant s.followed e

/-- The gate of an attenuation-only output moves with the profile unless it is withheld, steps because its output is remade,
or stands in a park (R115, R116). -/
def State.gateMoves (s : State) (ws : List Nat) (o : Nat) : Bool :=
  let e := gateIx s.variant o
  !s.withheldLane e && !s.remade ws o && decide (3 ≤ (s.lane e).st)

/-- Δ of R113 for a commit of `ws` accepted now: the largest |Δφ| over the lanes its move takes (R116). -/
def State.moveDelta (s : State) (ws : List Nat) : Nat :=
  let v := s.variant
  let cells := (List.range (gateIx v 0)).foldl (fun m e =>
    if s.withheldLane e then m else max m (cellPhi v ws e - s.startPhi e).natAbs) 0
  (outsOf v s.followed ws .attOnly).foldl (fun m o =>
    if s.gateMoves ws o then max m (gatePhi v ws o - s.startPhi (gateIx v o)).natAbs else m) cells

/-- What a commit of a plan would do, as computed at its acceptance: largest |Δφ|, D_s, actual collateral. -/
structure Cost where
  dmax : Nat
  ds : Nat
  collateral : Nat
  deriving DecidableEq, Repr

def State.costOf (s : State) (ws : List Nat) : Cost :=
  let d := s.moveDelta ws
  ⟨d, moveDs (s.rd Adr.MOVE_LIM) d, (outsOf s.variant s.followed ws .collateral).length⟩

/-- Ticks in `n` ns, for a multiple of 8. -/
def nsTicks (n : Nat) : Nat := n * 5 / 8

/-- T_break of a make at tick `t`: D_s + 176 ns earlier (R117); 0 where that lies before tick 0. -/
def breakOf (t ds : Nat) : Nat := t - nsTicks (ds + 176)

/-- A make at `t` meets the window of an accepted commit, or does not follow it (R123). -/
def State.overlaps (s : State) (t ds : Nat) : Bool :=
  s.plan.commits.any fun c => decide (t ≤ c.tMake) || decide (breakOf t ds ≤ c.tMake)

/-- Too early against an acceptance at tick `a` (R122). -/
def State.tooLate (s : State) (a t ds : Nat) : Bool :=
  decide (t < a + s.planLead) || decide (t < a + nsTicks 256 + nsTicks (ds + 176))

/-- The make of a commit with NOW accepted at tick `a` (R237). -/
def State.nowMake (s : State) (a ds : Nat) : Nat := strobeAt (max (a + s.planLead) (a + nsTicks 256 + nsTicks (ds + 176)))

/-- The 52 bytes of a COMMIT entry. -/
def commitBody (v : Variant) (id path : Nat) (k : Cost) (d : Domain) (ws : List Nat) : List Byte :=
  layout 52 [(0, le 1 id), (1, le 1 path), (2, le 2 k.ds), (4, le 2 k.collateral), (6, le 6 d.sec), (12, le 4 d.ns),
    (16, (sha384 (slotBytes v ws)).take 32)]

/-- The lowest compare unit of the executor that no accepted commit uses (R161). -/
def State.freeUnit (s : State) : Nat :=
  ((List.range 16).find? fun n => !s.plan.commits.any fun c => c.unit == n).getD 0

/-- A commit accepted: its ledger entry, the compare unit of its break, and its place among the accepted ones; an accepted
commit of the armed plan's strike disarms elsewhere. `q` and `role` are those of the ledger entry. -/
def State.acceptCommit (s : State) (id : Nat) (ws : List Nat) (path tMake : Nat) (k : Cost) (q role : Nat)
    (ackBy : Option Nat) (setGen : Option Nat) : State :=
  let d := s.timeAt tMake
  let s := s.logAt 0x0020 q role d.sec d.ns (commitBody s.variant id path k d ws)
  let n := s.freeUnit
  let b := Adr.CMP n
  let s := (s.putFlag b Fl.CMP_EN true).put b Fl.CMP_MODE 0
  let s := s.putPair b Fl.CMP_TGT_LO Fl.CMP_TGT_HI (breakOf tMake k.ds)
  let c : Commit := {
    id := id, words := ws, path := path, tBreak := breakOf tMake k.ds, tMake := tMake
    makeNs := d.ns32, makeFrac := d.frac8, ds := k.ds, dmax := k.dmax, lim := s.rd Adr.MOVE_LIM, collateral := k.collateral
    unit := n, seq := (match s.led.last with | some e => e.seq | none => 0), ackBy := ackBy, setGen := setGen }
  let s := ((s.setPlan { s.plan with commits := s.plan.commits ++ [c] }).refreshGo).clearGo.readSlots
  (List.range (numTiles s.variant)).foldl (fun s t => s.checkWrite (0x9C + t) c.seq) s

/-- A resynchronisation of the standby is complete (R308): no longer SYNCING nor DIVERGED. -/
def State.endSync (s : State) : State :=
  let s := s.putFlag Adr.PAIR_STAT Fl.PAIR_STAT_DIVERGED false
  { s with pair := { s.pair with syncing := false } }

/-- The break events of a commit read in the executors of the tiles: bad check bits assert TEXEC (R313, R318). -/
def State.execParity (s : State) (c : Commit) : State :=
  (List.range (numTiles s.variant)).foldl (fun s t =>
    if s.checkBad (0x9C + t) c.seq then
      (s.checkClear (0x9C + t) c.seq).assertFault (0x9C + t) { detail := t, access := 0, master := 0x11 } false
    else s) s

/-- An accepted commit that will not be carried out leaves, with its COMMIT_VOID entry (R274): cause 1 GO_ABANDONED,
2 withdrawn by the pair, 3 dropped by list replacement. -/
def State.voidCommit (s : State) (seq cause : Nat) : State :=
  match s.plan.commits.find? fun c => c.seq == seq && c.phase == 0 with
  | none => s
  | some c =>
    let s := s.setPlan { s.plan with commits := s.plan.commits.filter fun x => x.seq != seq }
    let s := s.putFlag (Adr.CMP c.unit) Fl.CMP_EN false
    (s.logInvol none 0x0021 (bodyOf [(0, 8, seq), (8, 1, cause)])).refreshGo

/-! ## Steps and moves of lanes (R78, R114, R117) -/

/-- The code of element `e` for signed set-point `sp` and its integrator (R114). -/
def State.codeFor (s : State) (e : Nat) (sp integ : Int) : Nat :=
  (clampHiLo (codeOf (satAdd32 (ffOf (s.calOf e) sp) integ)) (s.codeMin e) (s.codeMax e)).toNat

/-- A lane that a move takes leaves what it was doing (R75, R78); it moves with the profile unless it then steps. -/
def Lane.taken (x : Lane) : Lane :=
  { x with abandoned := x.abandoned || x.st == 9, st := 6, hv := false, consec := 0, postMove := none, stepped := false }

/-- A gate lane steps to set-point `sp` in a move. -/
def State.stepGate (s : State) (e : Nat) (sp : Int) (x : Lane) : Lane :=
  { x.taken with sp := wrap 16 sp, stepped := true, moveCode := s.codeFor e sp x.integ }

/-- A parked gate lane released at a strobe: it converts the code of its φ_A with I = 0 and enters PRIMING (R77); without valid
calibration in force it returns to UNCAL, at its park code, and lights nothing (R77, R146). -/
def State.releaseGate (s : State) (e : Nat) (sp : Int) (x : Lane) : Lane :=
  if x.uncal then { s.firstUse e x with remake := false, needsUnpark := false, abandoned := x.abandoned || x.st == 9 }
  else
  let k := s.codeFor e sp 0
  { x with st := 3, needsUnpark := false, cause := 0, kept := 0, primeCnt := 0, integ := 0, hv := false, feTimer := 0, sp := wrap 16 sp,
           committed := k, before := k, commitTick := s.tick, moveCode := k, latched := none, consec := 0, clearUntil := none,
           remake := false, stepped := false, abandoned := x.abandoned || x.st == 9 }

/-- A lane leaves MOVING (R78), or its move ends under the hold of R83. -/
def State.endMove (s : State) (e : Nat) (x : Lane) : Lane :=
  let y := { x with committed := x.moveCode, before := x.moveCode, commitTick := s.tick, stepped := false, phi0 := 0, dphi := 0,
                    hv := false }
  if (s.comb (e / 64)).npHold then
    { y with st := 8, holdSince := s.tick, postMove := none,
             degraded := x.degraded || s.get Adr.LOOP_GCFG Fl.LOOP_GCFG_HOLD_LIMIT == 0 }
  else
    let y := { y with postMove := some s.tick, postSeq := s.get (Adr.SENSE_STAT (e / 64)) Fl.SENSE_STAT_PSEQ }
    if x.primeCnt = 2 then { y with st := 4 } else { y with st := 3, primeCnt := 0 }

/-- On a strobe, the DACs of lanes `es` convert what the event of that strobe gives them. -/
def State.convert (s : State) (es : List Nat) : State :=
  if s.tick % 5 ≠ 0 then s
  else
    let a := s.acts
    { s with ctl := { s.ctl with dacs := es.foldl (fun m e => SMap.put {} m e (s.dacOf a e (s.lane e))) s.ctl.dacs } }

end Sys2Proof.Machine
end

