-- ==== Sys2Proof/Machine/Plans.lean ====
section
/-! DEFINITION. What a commit does on its strobes, parks and unparks at their instants
(spec/06_reconfiguration.md R112 to R121, R124, spec/12_mailbox_commands.md R237). -/

namespace Sys2Proof.Machine

/-! ## Break (R112, R115, R117, R120) -/

/-- The cause for which a circuit whose path passes withheld lanes is not made: 1 where the strongest action on those lanes is
a safety park or DRV_CLR_N, 2 otherwise, so where one of them is at zero drive (R14, R120). -/
def State.withheldCause (s : State) (o w : Nat) : Nat :=
  let a := s.acts
  let path := pathLanes s.variant o w
  if path.any a.zeroDrive then 2 else if path.any fun e => a.clr || a.safetyPark e then 1 else 2

/-- What the break does to output `o`: GEN and CHG where its circuit or attenuation changes, and whether its circuit is
withheld. -/
def State.breakOut (s : State) (gen : Nat) (new : List Nat) (affected notMade : List Nat) (o : Nat) : State :=
  let w := wordOf s.plan.inForce o
  let w' := wordOf new o
  let x := s.out o
  let x := if classify w w' = .changed ∨ (wCirc w' ∧ wAtt w ≠ wAtt w') then { x with gen := gen, chg := (x.chg + 1) % 65536 } else x
  let x := if affected.contains o then
      { x with withheld := if notMade.contains o then s.withheldCause o (wordOf new o) else 0 }
    else x
  s.setOut o x

/-- A lane at the break: a withheld calibrating lane is abandoned; the gate of an affected output steps to blocking, or is
fault-parked where it stands under a hold. -/
def State.breakLane (s : State) (affected withheld : List Nat) (e : Nat) (x : Lane) : Lane :=
  let v := s.variant
  if isGate v e && affected.contains (gateOut v e) then
    if s.holdOn e ∨ x.st = 7 then { x with holdPark := true }
    else if s.acts.zeroDrive e || s.acts.rank2 e x then x
    else if x.st ≤ 2 then x
    else s.stepGate e (phiBlock e) x
  else if x.st = 9 ∧ withheld.contains e then { x with abandoned := true }
  else x

/-- BREAK: at T_break of the earliest accepted commit. -/
def breakStrobe (s : State) : State :=
  match s.plan.commits.head? with
  | none => s
  | some c =>
    if c.phase ≠ 0 ∨ c.ackBy.isSome ∨ s.tick < c.tBreak then s
    else
      let s := s.execParity c
      let v := s.variant
      let old := s.plan.inForce
      let withheld := (List.range (numElems v)).filter s.withheldLane
      let affected := (List.range (numPorts v)).filter fun o =>
        let k := classify (wordOf old o) (wordOf c.words o)
        k == .changed || k == .collateral || s.remade c.words o
      let notMade := affected.filter fun o =>
        wCirc (wordOf c.words o) && (pathLanes v o (wordOf c.words o)).any withheld.contains
      let gen := match c.setGen with
        | some g => g
        | none => (s.get Adr.PLAN_STAT Fl.PLAN_STAT_GENERATION + 1) % 65536
      let s := s.put Adr.PLAN_STAT Fl.PLAN_STAT_GENERATION gen
      let s := (List.range (numPorts v)).foldl (fun s o => s.breakOut gen c.words affected notMade o) s
      let s := s.mapLanes (s.breakLane affected withheld)
      let c' : Commit := { c with
        phase := 1, affected := affected, withheld := withheld, notMade := notMade, attOnly := outsOf v old c.words .attOnly }
      let slots := s.plan.slots.map fun x => (if x.1 = c.id then (x.1, { x.2 with carried := some gen }) else x)
      let s := s.setPlan { s.plan with
        commits := c' :: s.plan.commits.tail, inForce := c.words, forceId := c.id, slots := slots }
      let s := ((s.putFlag (Adr.CMP c.unit) Fl.CMP_EN false).putFlag (Adr.CMP c.unit) Fl.CMP_FIRED true).hubEvent 0x02 1
      let s := (State.interrupts s s.settleAll).replan
      s.convert (affected.map (gateIx v))

def execBreakStrobe (s : State) : Host.Outcome State Fault Refusal := .next (breakStrobe s)

/-! ## Move (R114, R116, R117) -/

/-- The first profile strobe of a commit. -/
def Commit.start (c : Commit) : Nat := c.tBreak + 25

/-- The lanes the move of commit `c` takes, with their targets: cells whose target differs, and gates of attenuation-only
outputs. -/
def State.moveTarget (s : State) (c : Commit) (e : Nat) (x : Lane) : Option Int :=
  let v := s.variant
  if s.withheldLane e || c.withheld.contains e then none
  else if isGate v e then
    if c.attOnly.contains (gateOut v e) && decide (3 ≤ x.st ∧ x.st ≠ 6) then some (gatePhi v c.words (gateOut v e)) else none
  else some (cellPhi v c.words e)

/-- A lane at move start. -/
def State.startLane (s : State) (c : Commit) (e : Nat) (x : Lane) : Lane :=
  match s.moveTarget c e x with
  | none => x
  | some t =>
    let p := wrap16 x.sp
    if t = p then x else { x.taken with phi0 := p, dphi := t - p, moveCode := s.codeFor e p x.integ }

/-- The lanes a profile moves now. -/
def State.movers (s : State) : List Nat := (s.ctl.lanes.filter fun e => e.2.st == 6 && !e.2.stepped).map Prod.fst

def moveStart (s : State) : State :=
  match s.plan.commits.head? with
  | none => s
  | some c =>
    if c.phase ≠ 1 ∨ s.tick < c.start then s
    else
      let s := State.interrupts s (s.mapLanes (s.startLane c))
      let s := s.setPlan { s.plan with commits := { c with phase := 2, strobe := 0 } :: s.plan.commits.tail }
      let s := s.combsEvent (s.movers.map (· / 64)).eraseDups 0x13 1
      s.replan.convert s.movers

def execMoveStart (s : State) : Host.Outcome State Fault Refusal := .next (moveStart s)

/-- A moving lane at a strobe whose profile value is `y`. -/
def State.moveLane (s : State) (y e : Nat) (x : Lane) : Lane :=
  if x.st = 6 ∧ x.stepped = false then
    let p := x.phi0 + asr (x.dphi * y + 32768) 16
    { x with sp := wrap 16 p, moveCode := s.codeFor e p x.integ }
  else x

def profileStep (s : State) : State :=
  match s.plan.commits.head? with
  | none => s
  | some c =>
    if c.phase ≠ 2 ∨ c.ds / 8 ≤ c.strobe ∨ s.tick < c.start + 5 * (c.strobe + 1) then s
    else
      let y := moveS c.lim c.dmax (c.strobe + 1)
      let s := s.mapLanes (s.moveLane y)
      let s := s.setPlan { s.plan with commits := { c with strobe := c.strobe + 1 } :: s.plan.commits.tail }
      let s := s.combsEvent (s.movers.map (· / 64)).eraseDups 0x13 1
      s.convert s.movers

def execProfileStep (s : State) : Host.Outcome State Fault Refusal := .next (profileStep s)

/-- MOVE_END: after the last profile strobe every moving lane stands at its target (the last S is 65,536), leaves MOVING and
asks for urgent conversions (R56, R78). -/
def moveEnd (s : State) : State :=
  match s.plan.commits.head? with
  | none => s
  | some c =>
    if c.phase ≠ 2 ∨ c.strobe < c.ds / 8 ∨ s.tick < c.start + nsTicks c.ds then s
    else
      let es := s.movers
      let s := es.foldl (fun s e => s.onLane e fun x => s.endMove e (s.moveLane 65536 e x)) s
      let s := es.foldl (fun s e => s.urgentLane e) s
      let s := s.setPlan { s.plan with commits := { c with phase := 3 } :: s.plan.commits.tail }
      s.replan

def execMoveEnd (s : State) : Host.Outcome State Fault Refusal := .next (moveEnd s)

/-! ## Make (R77, R117, R124) -/

/-- The gate lane of an affected output at T_make; one due to leave PARKED stays there while NO_PILOT is set (R83). -/
def State.makeLane (s : State) (c : Commit) (o : Nat) (x : Lane) : Lane :=
  let v := s.variant
  let e := gateIx v o
  let w := wordOf c.words o
  let made := wCirc w && !c.notMade.contains o
  if x.st = 6 ∧ x.stepped then
    s.endMove e (if made then s.stepGate e (phiOpen e (wAtt w)) x else x)
  else if made && s.remakable e x && !s.acted e then
    (if s.noPilot then { x with remake := true } else s.releaseGate e (phiOpen e (wAtt w)) x)
  else x

/-- The outputs of commit `c` whose circuit would pass a cell that a hold stopped between its states: the make leaves them out
(R29, R120). -/
def State.strays (s : State) (c : Commit) : List Nat :=
  c.affected.filter fun o => wCirc (wordOf c.words o) && !c.notMade.contains o && s.astray c.words o

/-- Their circuits are withheld. -/
def State.withhold (s : State) (ws : List Nat) (os : List Nat) : State :=
  os.foldl (fun s o => s.setOut o { s.out o with withheld := s.withheldCause o (wordOf ws o) }) s

/-- MAKE: at T_make the affected gates that have a circuit step open; GO_OK stays clear for 1 µs. -/
def make (s : State) : State :=
  match s.plan.commits.head? with
  | none => s
  | some c =>
    if c.phase ≠ 3 ∨ s.tick < c.tMake then s
    else
      let v := s.variant
      let stray := s.strays c
      let s := s.withhold c.words stray
      let c := { c with notMade := c.notMade ++ stray }
      let gates := c.affected.filter fun o => let x := s.lane (gateIx v o); x.st == 6 && x.stepped
      let s := c.affected.foldl (fun s o => s.onLane (gateIx v o) (s.makeLane c o)) s
      let s := gates.foldl (fun s o => s.urgentLane (gateIx v o)) s
      let s := s.setPlan { s.plan with
        commits := s.plan.commits.tail, goHold := s.tick + 625, lastMake := c.makeNs, lastFrac := c.makeFrac }
      let s := if c.setGen.isSome then s.endSync else s
      let s := (s.put Adr.PLAN_LAST Fl.PLAN_LAST_DMAX c.dmax).put Adr.PLAN_LAST Fl.PLAN_LAST_DUR c.ds
      let s := (s.hubEvent 0x09 1).replan.convert (c.affected.map (gateIx v))
      s.postOwnersAt 0x0010 c.makeNs c.makeFrac
        (le 2 (s.get Adr.PLAN_STAT Fl.PLAN_STAT_GENERATION) ++ le 1 c.id)

def execMake (s : State) : Host.Outcome State Fault Refusal := .next (make s)

/-- GO_OK may set again 1 µs after a make. -/
def goOkReenable (s : State) : State := s.refreshGo

def execGoOkReenable (s : State) : Host.Outcome State Fault Refusal := .next (goOkReenable s)

/-! ## Parks and unparks (R121, R237) -/

/-- The instant as a completion reports it (R248). -/
def instantBytes (d : Domain) (done : Bool) : List Byte := le 4 d.ns32 ++ le 1 d.frac8 ++ le 1 (b2i done)

/-- A park item leaves the list: its reserved entry is written where it was carried out and released otherwise, and the
command that waits completes. -/
def State.parkDone (s : State) (p : ParkItem) (done : Bool) : State :=
  let d := s.timeAt s.tick
  let s := s.setPlan { s.plan with parks := s.plan.parks.erase p }
  let s := if done then
      s.logAt 0x0022 p.q p.role d.sec d.ns (bodyOf [(0, 2, p.output), (2, 1, b2i p.unpark), (3, 1, b2i p.tenant)])
    else s
  let s := (s.setParkRes (s.led.parkRes - 1)).ledgerStat
  let s := if done then s else s.flushOverflow
  if p.q = 0xffff then s.refreshGo else (s.complete p.q 0 (instantBytes d done)).refreshGo

/-- A park at its instant: the gate lane stands under a plan park. A park of an output already parked changes nothing
(R264). -/
def State.parkNow (s : State) (p : ParkItem) : State :=
  let e := gateIx s.variant p.output
  if (s.lane e).planPark then s.parkDone p false
  else
  let parked := s.onLane e fun x => { x with planPark := true, byTenant := p.tenant }
  let s := ((State.interrupts s (parked.settle e)).refreshOuts).onComb (e / 64) fun x => { x with cmd := true }
  (s.convert [e]).parkDone p true

/-- OUTPUT_PARK: every park whose instant has come. -/
def outputPark (s : State) : State :=
  (s.plan.parks.filter fun p => !p.unpark && decide (p.tick ≤ s.tick)).foldl (fun s p => s.parkNow p) s

def execOutputPark (s : State) : Host.Outcome State Fault Refusal := .next (outputPark s)

/-- The conditions under which an unpark of output `o` is carried out (R121); nor does it light a circuit through a cell in neither
state (R29), or a gate lane in UNCAL, which leaves it at a CAL_APPLY only (R77, R146; log 103). -/
def State.unparkOk (s : State) (o : Nat) : Bool :=
  let w := wordOf s.plan.inForce o
  let path := pathLanes s.variant o w
  wCirc w && !path.any s.acted
    && (path.filter fun e => !isGate s.variant e).all fun e => let x := s.lane e; x.st != 2 && x.st != 1
    && !s.astray s.plan.inForce o
    && (let x := s.lane (gateIx s.variant o); x.st != 1 && !(x.st == 9 && x.calFrom == 1))

/-- A tenant may unpark only where the park in force was made by a tenant session (R264). -/
def State.unparkAllowed (s : State) (p : ParkItem) : Bool :=
  let x := s.lane (gateIx s.variant p.output)
  !p.tenant || (x.planPark && x.byTenant)

/-- The commit in progress no longer treats output `o` as one it breaks and leaves unmade. -/
def State.dropAffected (s : State) (o : Nat) : State :=
  match s.plan.commits with
  | [] => s
  | c :: cs =>
    if c.phase = 0 then s
    else s.setPlan { s.plan with commits := { c with affected := c.affected.filter (· != o), notMade := c.notMade.filter (· != o) } :: cs }

/-- An unpark at its instant: the gate lane leaves PARKED, or the blocking point of a withheld circuit, and steps to its
φ_A, also where its move to that point has not ended yet. -/
def State.unparkNow (s : State) (p : ParkItem) : State :=
  let e := gateIx s.variant p.output
  if s.unparkAllowed p && s.unparkOk p.output then
    let sp := gatePhi s.variant s.plan.inForce p.output
    let s := s.onLane e fun x =>
      let y := { x with planPark := false, byTenant := false, clearUntil := none }
      if x.st = 2 ∨ (x.st = 9 ∧ x.calFrom = 2) then s.releaseGate e sp y
      else if (s.out p.output).withheld ≠ 0 then s.endMove e (s.stepGate e sp y)
      else y
    let s := if (s.out p.output).withheld = 0 then s else s.dropAffected p.output
    let s := s.setOut p.output { s.out p.output with withheld := 0 }
    let s := (s.refreshOuts.onComb (e / 64) fun x => { x with cmd := true }).convert [e]
    s.parkDone p true
  else s.parkDone p false

/-- A lane due to leave PARKED stays there while NO_PILOT lasts (R83): the unpark waits for its end. -/
def State.unparkWaits (s : State) (p : ParkItem) : Bool :=
  s.noPilot && decide ((s.lane (gateIx s.variant p.output)).st = 2) && s.unparkAllowed p && s.unparkOk p.output

/-- OUTPUT_UNPARK: every unpark whose instant has come. -/
def outputUnpark (s : State) : State :=
  (s.plan.parks.filter fun p => p.unpark && decide (p.tick ≤ s.tick) && !s.unparkWaits p).foldl (fun s p => s.unparkNow p) s

def execOutputUnpark (s : State) : Host.Outcome State Fault Refusal := .next (outputUnpark s)

end Sys2Proof.Machine
end

