-- ==== Sys2Proof/Machine/Loops.lean ====
section
/-! DEFINITION. The period boundary of a comb and the loop routines of its engine (spec/04_holding_loops.md R66 to R85,
spec/07_comb_engine_microcode.md R137 to R143). -/

namespace Sys2Proof.Machine

/-! ## One iteration -/

/-- One iteration of element `e` commits, with what it took as it started (R66, R67, R70, R73). -/
def State.commitIter (s : State) (e : Nat) (inp : IterIn) : State :=
  let c := e / 64
  let cs := inp.coeffs
  let x : Lane := { s.lane e with served := true, consec := 0, postMove := none }
  let skipped := fun (why : NotComputed) => (x.notComputed why cs.feTime, true)
  let r := match inp.readings (s.overlapped c) with
    | .error why => skipped why
    | .ok rs =>
      let v := tapValues (s.calOf e) rs
      if v.1 + v.2.1 < 4096 then skipped .lowsig
      else
        let y := iterate (s.calOf e) cs x v.1 v.2.1 v.2.2
        (({ y.1.judge cs.feLim with commitTick := s.tick }, y.2), false)
  let s := s.setLane e r.1.1
  let s := s.paramWrite c false ((if r.2 then [8, 9] else [0, 5, 6, 7, 8, 9]).map (laneAdr e))
  if r.1.2 then s.combFault c 2 (some (e % 64)) { detail := e % 64, access := 3, master := 0x10, addr := 0 }
  else if r.1.1.st = x.st ∧ r.1.1.degraded = x.degraded then s else s.refreshOuts

/-- The routine of a loop iteration of lane `l` of comb `c`. -/
def State.loopRun (s : State) (post : Bool) (c l n : Nat) : State :=
  s.routine c (if post then 4 else 5) l n fun inp s => s.commitIter (64 * c + l) inp

/-- A loop iteration begins: a word read with bad check bits abandons it (R314). -/
def State.loopIter (s : State) (post : Bool) (c l n : Nat) : State :=
  match s.badRead (s.iterReads (64 * c + l)) with
  | some a => s.readBad c (if post then 4 else 5) a
  | none => s.loopRun post c l n

/-- ITER: up to `n` steps of the iteration in progress, or of one begun for the next due lane in the order of R80 where
nothing of a higher priority waits. -/
def iter (c n : Nat) (s : State) : State :=
  s.afterIdle c n fun n s =>
    match s.going c 5 with
    | some l => if s.mayRun c 5 then s.loopRun false c l n else s
    | none =>
      if s.mayRun c 5 && s.serving c && (s.accWaits c).isEmpty && (s.nextPost c).isNone then
        match s.nextDue c with
        | some l => s.loopIter false c l n
        | none => s.orIdle c n
      else s.orIdle c n

def execIter (t : EngineTurn) (s : State) : Host.Outcome State Fault Refusal := .next (iter t.comb t.steps s)

/-- POST_MOVE: up to `n` steps, for the lowest moved lane whose readings are ready. -/
def postMove (c n : Nat) (s : State) : State :=
  s.afterIdle c n fun n s =>
    match s.going c 4 with
    | some l => if s.mayRun c 4 then s.loopRun true c l n else s
    | none =>
      if s.mayRun c 4 && s.serving c && (s.accWaits c).isEmpty then
        match s.nextPost c with
        | some l => s.loopIter true c l n
        | none => s.orIdle c n
      else s.orIdle c n

def execPostMove (t : EngineTurn) (s : State) : Host.Outcome State Fault Refusal := .next (postMove t.comb t.steps s)

/-- PROLOGUE: up to `n` steps of the engine's routine after a boundary; at its COMMIT loop service of the new period opens. Its
comb words pass the parameter SRAM checker. -/
def prologue (c n : Nat) (s : State) : State :=
  let run := fun (n : Nat) (s : State) => s.routine c 1 0 n fun _ s =>
    (s.onComb c fun x => { x with prologue := false }).paramWrite c false [Adr.LOOP_STAT c, Adr.LOOP_OVR c]
  s.afterIdle c n fun n s =>
    if decide (c < numCombs s.variant) && s.mayRun c 1 then
      if (s.going c 1).isSome then run n s
      else if (s.comb c).prologue then
        match s.badRead [Adr.LOOP_CFG c, Adr.LOOP_STAT c] with
        | some a => s.readBad c 1 a
        | none => run n s
      else s.orIdle c n
    else s

def execPrologue (t : EngineTurn) (s : State) : Host.Outcome State Fault Refusal := .next (prologue t.comb t.steps s)

/-- CMD: up to `n` steps of the routine by which the engine takes a commanded item or calibration command. -/
def cmdRoutine (c n : Nat) (s : State) : State :=
  let run := fun (n : Nat) (s : State) => s.routine c 2 0 n fun _ s => s.onComb c fun x => { x with cmd := false }
  s.afterIdle c n fun n s =>
    if decide (c < numCombs s.variant) && s.mayRun c 2 then
      if (s.going c 2).isSome then run n s
      else if !s.owesPrologue c && (s.comb c).cmd then
        match s.badRead (combReads c) with
        | some a => s.readBad c 2 a
        | none => run n s
      else s.orIdle c n
    else s

def execCmdRoutine (t : EngineTurn) (s : State) : Host.Outcome State Fault Refusal := .next (cmdRoutine t.comb t.steps s)

/-! ## The period boundary -/

/-- A period in ticks, and the period a PERIOD code selects (R79). -/
def periodTicks (p : Nat) : Nat := if p = 0 then 12500 else 400 * p
def effPeriod (p : Nat) : Nat := if p = 0 then 0 else if p < 20 then 20 else if 256 < p then 256 else p

/-- The end of an aligning period that begins at tick `t`: the first multiple of the period at least one period later. -/
def alignedAfter (t p : Nat) : Nat := let n := periodTicks p; (t + n + n - 1) / n * n

/-- Gwynique aligns a period on `t` with the first of its compare units 16 to 23 that is free (R79, R161; log 95 where all are
taken). -/
def State.armAlign (s : State) (t : Nat) : State :=
  let n := ((List.range 8).find? fun k => !s.time.armed.contains (16 + k)).getD 7 + 16
  let b := Adr.CMP n
  let s := ((s.putFlag b Fl.CMP_EN true).put b Fl.CMP_MODE 0).putPair b Fl.CMP_TGT_LO Fl.CMP_TGT_HI t
  { s with time := { s.time with armed := n :: s.time.armed.filter (· != n) } }

/-- The lanes of comb `c` that the ending period leaves unserved, in the order of R80: due lanes, and moved lanes whose readings are
ready (R78, R82). -/
def State.lateLanes (s : State) (c : Nat) : List Nat :=
  (s.order c).filter fun l =>
    let e := 64 * c + l
    let x := s.lane e
    (x.due && !x.served) || (decide (3 ≤ x.st ∧ x.st ≤ 5) && x.postMove.isSome && !x.waits && s.tapsReady e x)

/-- Step 1 of R85: the skips `late` of the ending period counted, START and LAST_COUNT formed, OVR_TRIP raised (R80). -/
def State.skipAccount (s : State) (c : Nat) (late : List Nat) : State :=
  let n := ((List.range 64).filter fun l => (s.lane (64 * c + l)).served).length
  let limit := s.get (Adr.LOOP_CFG c) Fl.LOOP_CFG_OVR_LIMIT
  let s := s.mapComb c fun e x =>
    let y := if late.contains (e % 64) then x.skipped else if x.due then x else { x with consec := 0 }
    { y with served := false, accDone := false }
  let s := s.onComb c fun x => { x with segDone := false }
  let s := s.put (Adr.LOOP_STAT c) Fl.LOOP_STAT_LAST_COUNT n
  let s := match late.head? with
    | some l =>
      let s := { s with pair := { s.pair with overruns := min 0xffff (s.pair.overruns + 1) } }
      (s.count (Adr.LOOP_OVR c) Fl.LOOP_OVR_OVERRUN 1).put (Adr.LOOP_STAT c) Fl.LOOP_STAT_START ((l + 1) % 64)
    | none => s.put (Adr.LOOP_STAT c) Fl.LOOP_STAT_START 0
  let trips := late.filter fun l => limit ≠ 0 ∧ limit ≤ (s.lane (64 * c + l)).consec
  trips.foldl (fun s l =>
    (s.onLane (64 * c + l) fun x => { x with ovrTrip := true }).combFault c 3 (some l)
      { detail := l, access := 3, master := 0x10, addr := 0 }) s

/-- HOLD_LIMIT in ticks. -/
def State.holdTicks (s : State) : Nat := 6250000 * s.get Adr.LOOP_GCFG Fl.LOOP_GCFG_HOLD_LIMIT

/-- A lane enters HOLD_NO_PILOT (R83). -/
def State.enterNoPilot (s : State) (x : Lane) : Lane :=
  { x with st := 8, hv := false, holdSince := s.tick, consec := 0, postMove := none,
           degraded := x.degraded || s.holdTicks == 0 }

/-- A lane leaves HOLD_NO_PILOT. -/
def State.leaveNoPilot (s : State) (e : Nat) (x : Lane) : Lane :=
  if x.primeCnt = 2 then { x with st := 4, hv := false } else s.prime e x

/-- Step 3 of R85: entry to HOLD_NO_PILOT or its end; NO_PILOT abandons every calibrating lane (R83, R96). -/
def State.noPilotStep (s : State) (c : Nat) : State :=
  if s.noPilot then
    let s := s.onComb c fun x => { x with npHold := true }
    s.mapComb c fun _ x =>
      if 3 ≤ x.st ∧ x.st ≤ 5 then s.enterNoPilot x
      else if x.st = 9 then { x with abandoned := true } else x
  else if (s.comb c).npHold ∧ s.switching = false then
    let s := s.onComb c fun x => { x with npHold := false }
    s.mapComb c fun e x => if x.st = 8 then s.leaveNoPilot e x else x
  else s

/-- A lane leaves CALIBRATING (R96). -/
def State.leaveCal (s : State) (e : Nat) (x : Lane) : Lane :=
  let x := { x with abandoned := false }
  if x.calFrom = 1 then { x.unprime with st := 1, abandoned := false }
  else if x.calFrom = 2 then s.settleLane s.acts e { x.unprime with st := 2, abandoned := false }
  else s.firstUse e x

/-- One lane at step 4 of R85; leaving PARKED, UNCAL and HOLD is deferred while NO_PILOT is set (R83), and a gate that a make
released meanwhile leaves at the first boundary after it. -/
def State.leaveStep (s : State) (c : Nat) (procLanes : List Nat) (e : Nat) (x : Lane) : Lane :=
  let x := match x.clearUntil with
    | some t => if t ≤ s.tick ∧ s.noPilot = false then { x with clearUntil := none } else x
    | none => x
  let a := s.acts
  let x := s.settleLane a e x
  if x.st = 9 then (if x.abandoned || !procLanes.contains (e % 64) then s.leaveCal e x else x)
  else if s.noPilot then x
  else if x.st = 7 then (if (s.comb c).held then x else s.leaveHold e x)
  else if x.st = 2 then
    if a.rank2 e x || a.parkCause e x != 0 then x
    else if !isGate s.variant e then s.firstUse e x
    else if x.remake then s.releaseGate e (gatePhi s.variant s.plan.inForce (gateOut s.variant e)) x
    else x
  else if x.st = 1 ∧ x.validated then s.leaveUncal e x
  else x

/-- Releases of fault parks and of a KIND 0x4 hold, and a restart, take effect (R143, R315). A comb that applied while its engine
stood still keeps its hold until its lanes' states have followed (R100). -/
def State.releases (s : State) (c : Nat) : State :=
  let rel := (List.range 64).filter fun l => (s.lane (64 * c + l)).release
  let s := rel.foldl (fun s l => s.withdrawFault (64 * c + l)) s
  let s := if (s.comb c).release then s.onComb c fun x => { x with holdPar := false, release := false } else s
  let s := if (s.comb c).restart then
      let s := s.onComb c fun x => { x with holdMc := x.applied, restart := false, cmd := true }
      ((s.put (Adr.MC_STAT c) Fl.MC_STAT_STATE 1).count (Adr.MC_STAT c) Fl.MC_STAT_RESTARTS 1).idle c
    else s
  if (s.comb c).held then s
  else s.mapComb c fun _ x => if x.holdPark then { x with holdPark := false } else x

/-- Lanes that a CAL_RUN took enter CALIBRATING, or are abandoned where something else holds them by now (R90, R96). -/
def State.takeLanes (s : State) (c : Nat) : State :=
  let ls := (s.comb c).taking
  if ls.isEmpty then s
  else
    let a := s.acts
    let s := s.mapComb c fun e x =>
      if !ls.contains (e % 64) then x
      else if s.noPilot ∨ a.zeroDrive e ∨ a.rank2 e x ∨ !(x.st == 1 || x.st == 2 || decide (3 ≤ x.st ∧ x.st ≤ 5)) then
        { x with abandoned := true }
      else { x with st := 9, calFrom := x.st, cause := 0, abandoned := false, hv := false, consec := 0, postMove := none }
    s.onComb c fun x => { x with taking := [] }

/-- Lanes of comb `c` that stand in a loop or calibration state, have not been taken from UNCAL and have no lane fault: gate parks
issued while they were UNCAL are withdrawn (R119). -/
def State.dropForced (s : State) (c : Nat) : State :=
  let left := ((List.range 64).map fun l => 64 * c + l).filter fun e =>
    let x := s.lane e
    decide (3 ≤ x.st ∧ x.st ≠ 7) && !(x.st == 9 && x.calFrom == 1) && !x.faultPark && !x.waits
  if left.isEmpty then s
  else s.mapLanes fun _ x => if x.forced.any left.contains then { x with forced := x.forced.filter fun e => !left.contains e } else x

/-- The cell lanes of comb `c` that have just left HOLD for UNCAL on a circuit that needs their cross point: the gates of both
outputs are fault-parked, as for a lane that enters UNCAL at a CAL_APPLY (R119). -/
def State.guardUncal (s : State) (c : Nat) (before : List Nat) : State :=
  let hit := ((List.range 64).map fun l => 64 * c + l).filter fun e =>
    (s.lane e).st == 1 && !before.contains e && s.crossNeeded e
  hit.foldl (fun s e => s.forceGates e) s

/-- Step 4 of R85. -/
def State.leaveAll (s : State) (c : Nat) : State :=
  let uncal := ((List.range 64).map fun l => 64 * c + l).filter fun e => (s.lane e).st == 1
  let s := s.calSweep c
  let ls := ((s.comb c).procs.flatMap (·.lanes)).eraseDups
  let s := (s.mapComb c (s.leaveStep c ls)).guardUncal c uncal
  ((s.dropForced c).takeLanes c).settleAll

/-- Step 5 of R85: the period that begins now; it is an aligning one where PERIOD has been written since the last boundary,
be it with the value in force (R79). -/
def State.nextPeriod (s : State) (c t : Nat) : State :=
  let b := Adr.LOOP_STAT c
  let p := effPeriod (s.get (Adr.LOOP_CFG c) Fl.LOOP_CFG_PERIOD)
  let set := (s.comb c).periodSet
  let s := (s.put b Fl.LOOP_STAT_PERIOD_ACT p).putFlag b Fl.LOOP_STAT_ALIGNING set
  let s := if set then s.armAlign (alignedAfter t p) else s
  s.onComb c fun x => { x with periodSet := false, boundary := if set then alignedAfter t p else t + periodTicks p }

/-- A period in which a pilot switch window or NO_PILOT span began after CAL_ACC counts for no point: what it accumulated,
or the point or the blanked periods it completed, is repeated (R91). -/
def State.repeatPoint (s : State) (c : Nat) : State :=
  let x := s.comb c
  let s := s.onComb c fun x => { x with accHow := 0 }
  if x.accHow = 0 ∨ x.overlap = false then s
  else
    let s := s.onComb c fun y => { y with accums := 0, blanked := y.blanked && x.accHow != 3 }
    let s := s.mapComb c fun _ y => { y with acc := [], points := if x.accHow = 2 then y.points.dropLast else y.points }
    if x.accHow = 2 then
      s.put (Adr.CAL_CSTAT c) Fl.CAL_CSTAT_POINTS (s.get (Adr.CAL_CSTAT c) Fl.CAL_CSTAT_POINTS - 1)
    else s

/-- The lanes of a comb whose engine stands still start their next period unserved (R80). -/
def State.unserve (s : State) (c : Nat) : State :=
  (s.mapComb c fun _ x => { x with served := false, accDone := false }).onComb c fun x => { x with segDone := false }

/-- A move whose first strobe is this boundary takes its lanes before step 4 (R85). -/
def State.moveFirst (s : State) (t : Nat) : State :=
  match s.plan.commits.head? with
  | some c => if c.start ≤ t then moveStart s else s
  | none => s

/-- The boundary reaches an ITER or POST_MOVE in progress: one that has not reached its COMMIT is dropped without trace and
counted, and one past it finishes its epilogue (R137, R139). -/
def State.dropIter (s : State) (c : Nat) : State :=
  match (s.comb c).run with
  | some r =>
    if r.vec ≠ 4 ∧ r.vec ≠ 5 then s
    else if r.eng.committed then s.onComb c fun x => { x with run := some { r with cut := true } }
    else (s.onComb c fun x => { x with run := none }).count (Adr.MC_CNT c) Fl.MC_CNT_DROPS 1
  | none => s

/-- A boundary of comb `c`: the sequencer restarts, the comb's hardware applies staged calibration, and, while the
engine runs, the events of R85 are taken in its order. -/
def periodBoundary (c : Nat) (s : State) : State :=
  let t := (s.comb c).boundary
  if decide (c < numCombs s.variant) && s.powered (combDomain s.variant c) && decide (t ≠ 0 ∧ t ≤ s.tick) then
    let skips := s.lateLanes c
    let s := (((s.senseBoundary c t).combEvent c 0x10 1).repeatPoint c).dropIter c
    let s := if s.running c then s.skipAccount c skips else s.unserve c
    let wasRunning := s.running c
    let late := (s.comb c).applied && wasRunning && !(s.comb c).prologue
    let s := s.applyBoundary c
    let s := if late then (s.onComb c fun x => { x with applied := false, holdMc := false }).applyStates c else s
    let s := s.releases c
    let s := if s.running c then ((s.noPilotStep c).moveFirst t).leaveAll c else s.calSweep c
    let s := s.nextPeriod c t
    let s := s.onComb c fun x => { x with prologue := true, barred := [], overlap := s.switching || s.noPilot }
    s.calProgress.replan
  else s

def execPeriodBoundary (c : Nat) (s : State) : Host.Outcome State Fault Refusal := .next (periodBoundary c s)

/-- A lane that has stayed in HOLD_NO_PILOT for HOLD_LIMIT becomes DEGRADED (R83). -/
def holdLimit (c l : Nat) (s : State) : State :=
  let e := 64 * c + l
  let x := s.lane e
  if decide (e < numElems s.variant ∧ l < 64) && x.st == 8 && decide (x.holdSince + s.holdTicks ≤ s.tick) then
    (s.setLane e { x with degraded := true }).refreshOuts
  else s

def execHoldLimit (c l : Nat) (s : State) : Host.Outcome State Fault Refusal := .next (holdLimit c l s)

end Sys2Proof.Machine
end

