-- ==== Sys2Proof/Machine/Calib.lean ====
section
/-! DEFINITION. The calibration routines of a comb engine, the groups of a FULL calibration, and the recovery of a comb
in MCHECK (spec/05_calibration.md R90 to R98, spec/07_comb_engine_microcode.md R137, R143, R146). -/

namespace Sys2Proof.Machine

/-! ## Accumulation (R91, R92) -/

/-! Points of a lane procedure: EXT has 256 coarse points, 33 fine ones about the maximum of b nearest mid-scale and 33
about the nearest minimum; VPI has 33 about each neighbouring maximum; QUAD has 64. Sums are over the AVG periods of a
point. -/

def coarseCode (k : Nat) : Int := 64 * k + 32

/-- The sum of tap `t` (0 b, 1 c, 2 q) over point `k`. -/
def Lane.tapSum (x : Lane) (k t : Nat) : Int := (x.points.getD k []).getD t 0

/-- Of the coarse points in `ks`, the one whose code is nearest `target`, the lower of two. -/
def nearestPoint (target : Int) (ks : List Nat) : Option Nat :=
  ks.foldl (fun b k => match b with
    | none => some k
    | some j => if (coarseCode k - target).natAbs < (coarseCode j - target).natAbs then some k else some j) none

/-- The coarse maxima (`sign` 1) or minima (−1) of b: points whose neighbours do not lie beyond them. -/
def Lane.turns (x : Lane) (sign : Int) : List Nat :=
  (List.range 254).map (· + 1) |>.filter fun k =>
    decide (sign * x.tapSum (k - 1) 0 ≤ sign * x.tapSum k 0 ∧ sign * x.tapSum (k + 1) 0 ≤ sign * x.tapSum k 0)

/-- The centres of EXT's fine sweeps; mid-scale where a coarse sweep without a turn names none (log 89). -/
def Lane.coarseMax (x : Lane) : Int := coarseCode ((nearestPoint 8192 (x.turns 1)).getD 127)
def Lane.coarseMin (x : Lane) : Int := coarseCode ((nearestPoint x.coarseMax (x.turns (-1))).getD 127)

/-- The centres of VPI's sweeps: BIAS ± 2 × (minimum − BIAS), the higher first. -/
def vpiCentre (bias min : Int) (high : Bool) : Int :=
  let d : Int := 2 * (min - bias).natAbs
  if high then bias + d else bias - d

/-- The staged values the later procedures use (R92). -/
def State.stagedBias (s : State) (e : Nat) : Int := (s.get (Adr.CAL_BIAS (e / 64) (e % 64)) Fl.CAL_BIAS_BIAS : Nat)
def State.stagedVpi (s : State) (e : Nat) : Int := (s.get (Adr.CAL_BIAS (e / 64) (e % 64)) Fl.CAL_BIAS_VPI : Nat)

/-- The fine minimum of the last EXT; one Vπ beyond BIAS where none has run (log 89). -/
def State.calMinOf (s : State) (e : Nat) : Int := (s.lane e).calMin.getD (s.stagedBias e + s.stagedVpi e)

/-- The code of point `k` of procedure `kind` for element `e`, held within the DAC's range (R92). A side of VPI whose centre lies
outside it spends its 33 points at BIAS (DESIGN CHOICE, log 100). -/
def State.pointCode (s : State) (e kind k : Nat) : Nat :=
  let x := s.lane e
  let fine := fun (centre : Int) (j : Nat) => centre + 4 * ((j : Int) - 16)
  let bias := s.stagedBias e
  let z :=
    if kind = 1 then
      if k < 256 then coarseCode k else if k < 289 then fine x.coarseMax (k - 256) else fine x.coarseMin (k - 289)
    else if kind = 2 then
      let centre := vpiCentre bias (s.calMinOf e) (decide (k < 33))
      if 0 ≤ centre ∧ centre ≤ 16383 then fine centre (k % 33) else bias
    else bias - s.stagedVpi e + roundDiv (2 * s.stagedVpi e * k) 63
  (clampInt 0 16383 z).toNat

/-- Periods of accumulation at one point: AVG, from 16 to 1,024. -/
def Comb.avgOf (x : Comb) : Nat := max 16 (min 1024 x.avg)

def addTaps (a b : List Int) : List Int := (List.range 3).map fun t => a.getD t 0 + b.getD t 0

/-- The calibration values an accumulation refers readings with: in EXT the offsets it has just measured and unit gains,
afterwards the staged ones (R92, R93). -/
def State.accVals (s : State) (e kind : Nat) : CalVals :=
  let c := e / 64
  let l := e % 64
  let st := fun (b : Nat) (f : Field) => s16 (s.get b f)
  { ofs := if kind = 1 then (s.lane e).calOfs
      else [st (Adr.CAL_OFS_BC c l) Fl.CAL_OFS_BC_OFS_B, st (Adr.CAL_OFS_BC c l) Fl.CAL_OFS_BC_OFS_C, st (Adr.CAL_OFS_Q c l) Fl.CAL_OFS_Q_OFS_Q]
    tg := if kind = 1 then [16384, 16384, 16384]
      else [(s.get (Adr.CAL_TG_BC c l) Fl.CAL_TG_BC_TG_B : Nat), (s.get (Adr.CAL_TG_BC c l) Fl.CAL_TG_BC_TG_C : Nat),
        (s.get (Adr.CAL_TG_Q c l) Fl.CAL_TG_Q_TG_Q : Nat)]
    skew := 0, kq := 0, bias := 0, ffSlope := 0 }

/-- What the readings of one period add to a point, or, while the taps are blanked, to the offsets. -/
def State.accTaps (s : State) (e kind : Nat) (blank : Bool) : List Int :=
  match s.readTaps e with
  | .error _ => [0, 0, 0]
  | .ok rs =>
    if blank then rs.map (·.raw)
    else let v := tapValues (s.accVals e kind) rs; [v.1, v.2.1, v.2.2]

/-- What one lane of the accumulation commits: in a settling period the code of the point, otherwise its readings. -/
def State.accumulate (s : State) (e kind k : Nat) (settling blank : Bool) (x : Lane) : Lane :=
  if settling then
    { x with accDone := true, before := x.committed, committed := s.pointCode e kind k, commitTick := s.tick, acc := [] }
  else { x with accDone := true, acc := addTaps x.acc (s.accTaps e kind blank) }

/-- A point completed, or the blanked periods: their sums become a point, or the offsets, rounded to the nearest LSB. -/
def Lane.closePoint (x : Lane) (blank : Bool) (avg : Nat) : Lane :=
  if blank then { x with acc := [], calOfs := x.acc.map fun z => roundDiv z avg }
  else { x with acc := [], points := x.points ++ [x.acc] }

/-- The commit of CAL_ACC: every calibrating lane that waits takes part; the point completes after one settling period and
AVG periods, and is repeated where its period overlaps a switch window or a reading may not be used. -/
def State.accCommit (s : State) (c : Nat) (ls : List Nat) : State :=
  let x := s.comb c
  let kind := match x.procs.head? with | some p => p.kind | none => 0
  let k := s.get (Adr.CAL_CSTAT c) Fl.CAL_CSTAT_POINTS
  let past := decide (procPoints kind ≤ k)
  let blank := decide (kind = 1) && !x.blanked
  let settling := !past && !blank && x.accums == 0
  let usable := ls.all fun l => match s.readTaps (64 * c + l) with | .ok _ => true | .error _ => false
  let on := fun (s : State) (f : Nat → Lane → Lane) => ls.foldl (fun s l => s.onLane (64 * c + l) (f (64 * c + l))) s
  let s := if past then on s fun _ y => { y with accDone := true } else on s fun e => s.accumulate e kind k settling blank
  let s := ls.foldl (fun s l => s.paramWrite c false [laneAdr (64 * c + l) (if settling then 0 else 8)]) s
  let s := s.notice c
  if past then s
  else if settling then s.onComb c fun x => { x with accums := 1, accHow := 1 }
  else if !usable then (on s fun _ y => { y with acc := [] }).onComb c fun x => { x with accums := 0, accHow := 1 }
  else if blank then
    if x.avgOf ≤ x.accums + 1 then
      (on s fun _ y => y.closePoint true x.avgOf).onComb c fun x => { x with accums := 0, blanked := true, accHow := 3 }
    else s.onComb c fun x => { x with accums := x.accums + 1, accHow := 1 }
  else if x.avgOf + 1 ≤ x.accums + 1 then
    let s := (on s fun _ y => y.closePoint false x.avgOf).onComb c fun x => { x with accums := 0, accHow := 2 }
    s.put (Adr.CAL_CSTAT c) Fl.CAL_CSTAT_POINTS (k + 1)
  else s.onComb c fun x => { x with accums := x.accums + 1, accHow := 1 }

/-- CAL_ACC: up to `n` steps of the first of the loop routines, for every calibrating lane that has not accumulated in this
period. -/
def calAcc (c n : Nat) (s : State) : State :=
  let run := fun (l n : Nat) (s : State) => s.routine c 3 l n fun _ s => s.accCommit c (s.accWaits c)
  s.afterIdle c n fun n s =>
    match s.going c 3 with
    | some l => if s.mayRun c 3 then run l n s else s
    | none =>
      if s.mayRun c 3 && s.serving c && !(s.accWaits c).isEmpty then
        match s.badRead ((s.accWaits c).flatMap fun l => calReads (64 * c + l)) with
        | some a => s.readBad c 3 a
        | none => run ((s.accWaits c).headD 0) n s
      else s.orIdle c n

def execCalAcc (t : EngineTurn) (s : State) : Host.Outcome State Fault Refusal := .next (calAcc t.comb t.steps s)

/-! ## Results and limits (R93, R94) -/

/-- The first failed limit of a list of checks; 0 where all hold. -/
def firstFailed (cs : List (Nat × Bool)) : Nat :=
  match cs.find? fun x => !x.2 with
  | some x => x.1
  | none => 0

def within (lo hi z : Int) : Bool := decide (lo ≤ z ∧ z ≤ hi)

/-- A tap gain of EXT: 16,384 × (b_max − b_min) / (x_max − x_min), truncated; 0, outside its limit, where the tap shows no
contrast. -/
def tapGain (bMin bMax xMin xMax : Int) : Int := if xMax ≤ xMin then 0 else (16384 * (bMax - bMin)).tdiv (xMax - xMin)

/-- Limit 5 for one gain: 8,192 to 32,768, and within 30% of 16,384 × RESP_B / RESP_x. -/
def gainOk (e t : Nat) (tg : Int) : Bool :=
  let want : Int := 16384 * frResp e 0
  within 8192 32768 tg && decide (10 * (tg * frResp e t - want).natAbs ≤ (3 * want).toNat)

/-- PARK_CODE of element `e` (R88). -/
def parkCodeOf (v : Variant) (e : Nat) (bias ffSlope : Int) : Int := bias + asr (restPhi v e * ffSlope + 32768) 16

/-- Limit 11, for a gate. -/
def parkOk (v : Variant) (e : Nat) (park vpi : Int) : Bool :=
  !isGate v e || decide (64 * (park - 8192).natAbs ≤ vpi.toNat)

/-- The vertex of the parabola through the best of 33 fine points about `centre` and its two neighbours, to the nearest code;
none where the best point has no neighbour on one side (R93). `ys` is the tap, negated for a minimum. -/
def vertex (centre : Int) (ys : List Int) : Option Int :=
  let i := (List.range 33).foldl (fun b k => if ys.getD b 0 < ys.getD k 0 then k else b) 0
  if 1 ≤ i ∧ i ≤ 31 then
    let m := ys.getD (i - 1) 0
    let p := ys.getD (i + 1) 0
    let bend := 2 * ys.getD i 0 - m - p
    some (centre + 4 * ((i : Int) - 16) + (if bend ≤ 0 then 0 else roundDiv (2 * (p - m)) bend.toNat))
  else none

/-- Tap b over the 33 fine points from point `k` on, times `sign`. -/
def Lane.fineB (x : Lane) (k : Nat) (sign : Int) : List Int := (List.range 33).map fun j => sign * x.tapSum (k + j) 0

/-- The extrema EXT finds: BIAS and the nearest minimum. A sweep whose best point is its end gives the code of its centre
(log 89). -/
def Lane.extBias (x : Lane) : Int := (vertex x.coarseMax (x.fineB 256 1)).getD x.coarseMax
def Lane.extMin (x : Lane) : Int := (vertex x.coarseMin (x.fineB 289 (-1))).getD x.coarseMin

/-- Least and largest value of a list. -/
def leastOf (l : List Int) : Int := l.foldl min (l.headD 0)
def largestOf (l : List Int) : Int := l.foldl max (l.headD 0)

/-- The Vπ code and ONE_SIDED from the maxima found (R93); a sweep whose centre lies outside 0 to 16,383 finds none. A
quotient that is not whole is rounded down (log 89). -/
def vpiOf (bias min : Int) (x : Lane) : Int × Bool :=
  let side := fun (high : Bool) =>
    let centre := vpiCentre bias min high
    if within 0 16383 centre then vertex centre (x.fineB (if high then 0 else 33) 1) else none
  match side true, side false with
  | some p, some n => (asr (p - n) 2, false)
  | some p, none => (asr ((p - bias).natAbs : Int) 1, true)
  | none, some n => (asr ((n - bias).natAbs : Int) 1, true)
  | none, none => (((min - bias).natAbs : Int), true)

def State.vpiLimit (s : State) (c : Nat) (v : Int) : Bool :=
  if s.flag (Adr.DRV_CFG c) Fl.DRV_CFG_GAIN_ACT then within 2400 4600 v else within 4800 9200 v

/-- What a lane's fit stages, in ascending lane words: the field with its home, and its value. -/
structure FitOut where
  limit : Nat
  oneSided : Bool
  bias : Int
  ffSlope : Int
  fields : List (Nat × Field × Nat)
  deriving DecidableEq, Repr

/-- EXT: offsets, tap gains and BIAS. The sum s of a coarse point takes TG_C, as R70 forms it (log 89). -/
def State.fitExt (s : State) (e : Nat) : FitOut :=
  let c := e / 64
  let l := e % 64
  let x := s.lane e
  let avg : Int := ((s.comb c).avgOf : Nat)
  let tap := fun (t : Nat) => (List.range 256).map fun k => x.tapSum k t
  let bMin := leastOf (tap 0)
  let bMax := largestOf (tap 0)
  let tgC := tapGain bMin bMax (leastOf (tap 1)) (largestOf (tap 1))
  let tgQ := tapGain bMin bMax (leastOf (tap 2)) (largestOf (tap 2))
  let sums := (List.range 256).map fun k => 16384 * x.tapSum k 0 + tgC * x.tapSum k 1
  let total := sums.sum
  let slope := s32 (s.get (Adr.CAL_FF c l) Fl.CAL_FF_FF_SLOPE)
  let bias := x.extBias
  let ofs := fun (t : Nat) => x.calOfs.getD t 0
  { limit := firstFailed [
      (1, (List.range 3).all fun t => within (-512) 511 (ofs t)),
      (2, decide (16384 * (16384 * 256 * avg) ≤ total)), (3, decide (20 * bMin ≤ bMax)),
      (4, sums.all fun z => decide (10 * ((256 * z - total).natAbs : Int) ≤ total)),
      (5, gainOk e 1 tgC && gainOk e 2 tgQ), (6, within 512 15871 bias),
      (11, parkOk s.variant e (parkCodeOf s.variant e bias slope) (s.stagedVpi e))]
    oneSided := false, bias := bias, ffSlope := slope
    fields := [(Adr.CAL_OFS_BC c l, Fl.CAL_OFS_BC_OFS_B, wrap 16 (ofs 0)), (Adr.CAL_OFS_BC c l, Fl.CAL_OFS_BC_OFS_C, wrap 16 (ofs 1)),
      (Adr.CAL_OFS_Q c l, Fl.CAL_OFS_Q_OFS_Q, wrap 16 (ofs 2)), (Adr.CAL_TG_BC c l, Fl.CAL_TG_BC_TG_B, 16384),
      (Adr.CAL_TG_BC c l, Fl.CAL_TG_BC_TG_C, wrap 16 tgC), (Adr.CAL_TG_Q c l, Fl.CAL_TG_Q_TG_Q, wrap 16 tgQ),
      (Adr.CAL_BIAS c l, Fl.CAL_BIAS_BIAS, wrap 14 bias)] }

/-- VPI: the Vπ code and FF_SLOPE, about the staged BIAS. -/
def State.fitVpi (s : State) (e : Nat) : FitOut :=
  let c := e / 64
  let l := e % 64
  let bias := s.stagedBias e
  let r := vpiOf bias (s.calMinOf e) (s.lane e)
  { limit := firstFailed [(7, s.vpiLimit c r.1), (11, parkOk s.variant e (parkCodeOf s.variant e bias (2 * r.1)) r.1)]
    oneSided := r.2, bias := bias, ffSlope := 2 * r.1
    fields := [(Adr.CAL_BIAS c l, Fl.CAL_BIAS_VPI, wrap 14 r.1), (Adr.CAL_FF c l, Fl.CAL_FF_FF_SLOPE, wrap 32 (2 * r.1))] }

/-- The sine of π × `n` / `d` in 2⁻³⁰, from ten terms of its series in 2⁻⁴⁰ (|n| at most a little above d). -/
def sinPi (n : Int) (d : Nat) : Int :=
  let x := if d = 0 then 0 else 3454217652358 * n / d
  let r := (List.range 12).foldl (fun (acc : Int × Int) k =>
    let t := -(acc.1 * x / 2 ^ 40 * x / 2 ^ 40) / ((2 * k + 2) * (2 * k + 3))
    (t, acc.2 + t)) (x, x)
  r.2 / 2 ^ 10

/-- Inner product of two lists of equal length. -/
def dot (a b : List Int) : Int := (List.zipWith (· * ·) a b).sum

/-- The least-squares fit of yr = a × sin φ + σ × x over the QUAD points (R93): a and σ as numerators over one determinant,
and the numerator of the residual. Sines, x and yr are in 2⁻³⁰. -/
structure QuadFit where
  amp : Int
  sigma : Int
  det : Int
  resid : Int
  deriving DecidableEq, Repr

def quadFit (sn xs ys : List Int) : QuadFit :=
  let ss := dot sn sn
  let sx := dot sn xs
  let xx := dot xs xs
  let sy := dot sn ys
  let xy := dot xs ys
  let det := ss * xx - sx * sx
  let amp := sy * xx - xy * sx
  let sigma := xy * ss - sy * sx
  let rs := List.zipWith (fun (p : Int × Int) y => y * det - amp * p.1 - sigma * p.2) (sn.zip xs) ys
  ⟨amp, sigma, det, dot rs rs⟩

/-- QUAD: SKEW and KQ. -/
def State.fitQuad (s : State) (e : Nat) : FitOut :=
  let c := e / 64
  let l := e % 64
  let x := s.lane e
  let bias := s.stagedBias e
  let vpi := s.stagedVpi e
  let ks := List.range 64
  let ratio := fun (num : Nat → Int) (k : Nat) =>
    let t := x.tapSum k 0 + x.tapSum k 1
    (if t ≤ 0 then 0 else sat16 ((num k * 2 ^ 15).tdiv t)) * 2 ^ 15
  let xs := ks.map (ratio fun k => x.tapSum k 0 - x.tapSum k 1)
  let ys := ks.map (ratio fun k => 2 * x.tapSum k 2 - (x.tapSum k 0 + x.tapSum k 1))
  let f := quadFit (ks.map fun k => sinPi ((s.pointCode e 3 k : Int) - bias) vpi.toNat) xs ys
  let skew := if f.det ≤ 0 then 32768 else roundDiv (32768 * f.sigma) f.det.toNat
  let mag := if f.det ≤ 0 ∨ f.amp = 0 then 65536 else roundDiv (16384 * f.det) f.amp.natAbs
  let kq := if f.amp < 0 then -mag else mag
  let slope := s32 (s.get (Adr.CAL_FF c l) Fl.CAL_FF_FF_SLOPE)
  { limit := firstFailed [(8, within (-8192) 8191 skew), (9, within 12288 24576 mag),
      (10, decide (25 * f.resid ≤ 4 * (2 ^ 30 * f.det) ^ 2)), (11, parkOk s.variant e (parkCodeOf s.variant e bias slope) vpi)]
    oneSided := false, bias := bias, ffSlope := slope
    fields := [(Adr.CAL_OFS_Q c l, Fl.CAL_OFS_Q_SKEW, wrap 16 skew), (Adr.CAL_TG_Q c l, Fl.CAL_TG_Q_KQ, wrap 16 kq)] }

/-- The final commit of a lane's fit: its results, PARK_CODE.STAGED and VALID in one step, or its rejection (R95). A
PARK_CODE outside 0 to 16,383 is staged modulo 2¹⁴ (log 89). EXT keeps its minimum for VPI, whatever it stages. -/
def State.fitCommit (s : State) (c l kind : Nat) : State :=
  let e := 64 * c + l
  let r := if kind = 1 then s.fitExt e else if kind = 2 then s.fitVpi e else s.fitQuad e
  let s := if kind = 1 then s.onLane e fun x => { x with calMin := some x.extMin } else s
  if r.limit ≠ 0 then
    let s := s.calRes e kind 2 r.oneSided r.limit
    s.onComb c fun x => { x with procs := x.procs.map fun p => { p with lanes := p.lanes.filter (· != l) } }
  else
    let s := r.fields.foldl (fun s f => s.put f.1 f.2.1 f.2.2) s
    let s := s.put (Adr.PARK_CODE c l) Fl.PARK_CODE_STAGED (wrap 14 (parkCodeOf s.variant e r.bias r.ffSlope))
    let s := s.putFlag (Adr.CAL_BIAS c l) Fl.CAL_BIAS_VALID true
    let s := s.paramWrite c false ([1, 10, 11, 12, 13, 14, 15, 16].map (laneAdr e))
    (s.calRes e kind 1 r.oneSided 0).onComb c fun x => { x with fitted := x.fitted ++ [l] }

/-- The commit of CAL_FIT. -/
def State.fitWork (s : State) (c l : Nat) : State :=
  match (s.comb c).procs.head? with
  | some p => if s.fitDue c l p then (((s.fitCommit c l p.kind).notice c).endFits c).calProgress else s
  | none => s

/-- CAL_FIT: up to `n` steps of the fit of lane `l`, in the time the loops leave. -/
def calFit (c l n : Nat) (s : State) : State :=
  let run := fun (n : Nat) (s : State) => s.routine c 6 l n fun _ s => s.fitWork c l
  s.afterIdle c n fun n s =>
    let due := match (s.comb c).procs.head? with | some p => s.idleLoops c && s.fitDue c l p | none => false
    if s.mayRun c 6 && s.going c 6 == some l then run n s
    else if s.mayRun c 6 && (s.going c 6).isNone && due then
      match s.badRead (calReads (64 * c + l)) with
      | some a => s.readBad c 6 a
      | none => run n s
    else s.orIdle c n

def execCalFit (c l n : Nat) (s : State) : Host.Outcome State Fault Refusal := .next (calFit c l n s)

/-! ## Self-calibration of the sense ADCs (R92, R93, R97) -/

/-- Slots of a period left to ADC `b` after the conversions it has started, the entries still to come and the urgent
requests that wait. -/
def State.freeSlots (s : State) (c : Nat) (b : Bool) : Nat :=
  let x := s.comb c
  let ahead := ((List.range (x.len b)).filter fun k =>
    decide (x.pos b ≤ k) && decide (((x.seq b).getD k (127, 0)).1 < 96)).length
  let urgent := ((x.urg b).filter fun i => (x.entryOf b i).isSome).length
  2 * periodTicks (s.get (Adr.LOOP_STAT c) Fl.LOOP_STAT_PERIOD_ACT) / 125
    - ((if b then x.startedB else x.startedA) + ahead + urgent)

/-- One ADC's result from its sums of 512 blanked and 512 calibration-current conversions (R93): staged where offset and gain
lie within limits 12 and 13. -/
def State.stageAdc (s : State) (c k : Nat) (blank cal : Int) : State × Bool :=
  let ofs := roundDiv blank 512
  let gain := if cal ≤ 512 * ofs then 0 else (32768 * 12288 * 512 : Int).tdiv (cal - 512 * ofs)
  if within (-64) 63 ofs && within 0x7999 0x8666 gain then
    let b := Adr.ADC_CAL c k
    (((s.put b Fl.ADC_CAL_OFS (wrap 12 ofs)).put b Fl.ADC_CAL_GAIN gain.toNat).paramWrite c false [b], true)
  else (s, false)

/-- The last segment commits both ADCs' results; a completed run clears REF_CHANGED. -/
def State.adcCommit (s : State) (c : Nat) : State :=
  let m := fun (k : Nat) => (s.comb c).sadcSums.getD k 0
  let a := s.stageAdc c 0 (m 0) (m 1)
  let b := a.1.stageAdc c 1 (m 2) (m 3)
  let s := b.1.put (Adr.CAL_CSTAT c) Fl.CAL_CSTAT_SADC_OUT (if a.2 && b.2 then 1 else 2)
  let s := s.putFlag (Adr.CAL_CSTAT c) Fl.CAL_CSTAT_REF_CHANGED false
  ((s.nextProc c).dropEmpty c 4).calProgress

/-- The sums after a segment of `n` conversions of each ADC that begins with conversion `from` of the run: the first 512 are
of the blanked input. -/
def SadcIn.sums (m : SadcIn) (sums : List Int) (start n : Nat) : List Int :=
  let blank := min n (512 - start)
  let part := fun (l : List Int) => [((l.take n).take blank).sum, ((l.take n).drop blank).sum]
  List.zipWith (· + ·) ((List.range 4).map fun k => sums.getD k 0) (part m.resA ++ part m.resB)

/-- Conversions of each ADC in the next segment: at most 64, and no more than the slots that the period leaves. -/
def State.segSize (s : State) (c : Nat) : Nat :=
  min (1024 - (s.comb c).accums) (min 64 (min (s.freeSlots c false) (s.freeSlots c true)))

/-- The commit of a segment. -/
def State.segWork (s : State) (c : Nat) (m : SadcIn) : State :=
  if s.sadcDue c then
    let x := s.comb c
    let n := s.segSize c
    let s := (s.notice c).onComb c fun y => { y with
      accums := x.accums + n, segDone := true, sadcSums := SadcIn.sums m x.sadcSums x.accums n }
    if 1024 ≤ x.accums + n then s.adcCommit c else s
  else s

/-- SADC: up to `m.steps` steps of the one segment of a period, until 1,024 conversions of each ADC have been made. -/
def sadc (c : Nat) (m : SadcIn) (s : State) : State :=
  let run := fun (n : Nat) (s : State) => s.routine c 7 0 n fun _ s => s.segWork c m
  s.afterIdle c m.steps fun n s =>
    if s.mayRun c 7 && (s.going c 7).isSome then run n s
    else if s.mayRun c 7 && s.idleLoops c && s.sadcDue c then
      match s.badRead (combReads c) with
      | some a => s.readBad c 7 a
      | none => run n s
    else s.orIdle c n

def execSadc (c : Nat) (m : SadcIn) (s : State) : Host.Outcome State Fault Refusal := .next (sadc c m s)

/-! ## FULL (R98) -/

/-- A pilot is OK, and the sense reference of every running comb of group `g` has settled (R98). -/
def State.groupReady (s : State) (g : Nat) : Bool :=
  !s.noPilot && (List.range (numCombs s.variant)).all fun c =>
    groupOf s.variant c != g || !s.running c || s.flag (Adr.SENSE_STAT c) Fl.SENSE_STAT_REF_SETTLED

/-- The sweeps of the waiting group of a FULL calibration begin once it has settled for 8 s, its references have settled and a
pilot is OK; a group with no comb at work is passed over. -/
def fullGroupSettle (s : State) : State :=
  match s.ctl.cal.runs.find? fun r => r.full && r.combs.isEmpty with
  | none => s
  | some r =>
    if r.settle ≤ s.tick ∧ s.groupReady r.group then
      let g := s.startGroup r.group r.avg
      let s := g.1
      let others := s.ctl.cal.runs.filter (· != r)
      if !g.2.isEmpty then s.setRuns (others ++ [{ r with combs := g.2 }])
      else if r.group < 3 then s.setRuns (others ++ [r.nextGroup s.tick])
      else
        let s := s.setRuns others
        if r.apply then s.applyAfter r.q 1 else s
    else s

def execFullGroupSettle (s : State) : Host.Outcome State Fault Refusal := .next (fullGroupSettle s)

/-! ## Recovery of a comb (R143, R146) -/

/-- Combs in LOAD_FAIL, as MC_GSTAT counts them. -/
def State.showLoadFails (s : State) : State :=
  let n := ((List.range (numCombs s.variant)).filter fun c => s.engine c == 4).length
  s.put Adr.MC_GSTAT Fl.MC_GSTAT_LOAD_FAILS n

/-- A load whose readback failed every time: the comb enters LOAD_FAIL and its machine-check source asserts. -/
def State.loadFail (s : State) (c : Nat) : State :=
  let s := (s.put (Adr.MC_STAT c) Fl.MC_STAT_STATE 4).wr (Adr.MC_VERSION c) 0
  ((s.combFault c 1 none { detail := 0, access := 1, master := 0x10, addr := 0 }).showLoadFails).dropFromApplies c

/-- Both stores of comb `c` written from the composed image with fresh check bits; an armed injection lands in the next
word written, the first of its store (R143, R318). No routine is in progress, and none has a restart address. -/
def State.loadStores (s : State) (c : Nat) : State :=
  let f := s.flt
  let hit := (List.range 2).filter fun k => f.armed c k false
  let word := fun (k : Nat) =>
    if k = 0 then (0, invertChecks 3 (withChecks 3 (s.microWord 0))) else (4096, invertChecks 16 (withChecks 16 (s.nanoWord 0)))
  let s := s.onComb c fun x => { x with stored := hit.map word, run := none, resume := [], pause := 0, barred := [] }
  if hit.isEmpty then s else s.setFlt (hit.foldl (fun f k => f.consume c k) f)

/-- A recovery: stores rewritten, readback checked, and a restart item for the next boundary with its ledger entry. -/
def State.recover (s : State) (c : Nat) (ok : Bool) (q role : Nat) : State :=
  let s := s.loadStores c
  if ok then
    let s := s.onComb c fun x => { x with restart := true }
    if q = 0xffff then s.logInvol (some 5) 0x0090 (bodyOf [(0, 1, c)]) else s.log 0x0090 q role (bodyOf [(0, 1, c), (1, 1, 1)])
  else s.loadFail c

/-- Machine checks of comb `c` within the last 60 s. -/
def State.recentChecks (s : State) (c : Nat) : Nat :=
  ((s.comb c).checks.filter fun t => decide (s.tick < t + 60 * 625000000)).length

/-- MC_RECOVERY: Gwynique recovers a comb in MCHECK, or gives up after three checks in 60 s. -/
def mcRecovery (c : Nat) (readbackOk : Bool) (s : State) : State :=
  let x := s.comb c
  if decide (c < numCombs s.variant) && s.gwqRuns && s.engine c == 2 && !x.restart && !x.gaveUp then
    if 3 ≤ s.recentChecks c then
      (s.onComb c fun x => { x with gaveUp := true }).postOwners 0x0031 (le 1 c)
    else s.recover c readbackOk 0xffff 0
  else s

def execMcRecovery (c : Nat) (readbackOk : Bool) (s : State) : Host.Outcome State Fault Refusal :=
  .next (mcRecovery c readbackOk s)

end Sys2Proof.Machine
end

