-- ==== Sys2Proof/Machine/FaultCmds.lean ====
section
/-! DEFINITION. Fault reports, releases and injection, the thermal unit, supplies and JTAG (spec/16_faults_and_thermal.md
R311 to R323, spec/14_secrecy_and_ledger.md R272, spec/19_power_boot_reset.md R347, R349). -/

namespace Sys2Proof.Machine

/-! ## Reports (R317) -/

/-- FAULT_REPEAT: a source that has kept asserting is reported again, at most once per second, with what COUNT gained. -/
def faultRepeat (n : Nat) (s : State) : State :=
  match (s.flt.reports.find? fun e => e.1 == n).map Prod.snd with
  | none => s
  | some r =>
    let total := SMap.find 0 s.flt.totals n
    if s.gwqRuns && !r.owed && decide (r.count < total) && decide (r.tick + 625000000 ≤ s.tick) then
      s.reportFault n (min 0xffffffff (total - r.count))
    else s

def execFaultRepeat (n : Nat) (s : State) : Host.Outcome State Fault Refusal := .next (faultRepeat n s)

/-! ## Conditions that assert a source -/

/-- JTAG_TEST (R272). -/
def jtagTest (s : State) : State := if s.boot.porLow || s.boot.dead then s else s.assertFault 0xF0 {} true

def execJtagTest (s : State) : Host.Outcome State Fault Refusal := .next (jtagTest s)

/-- SUPPLY_FAULT: rails 0 to 5 as sources 0xC0 to 0xC5 number them (R313). -/
def supplyFault (rail : Nat) (s : State) : State :=
  if s.boot.porLow || s.boot.dead || decide (5 < rail) then s else s.assertFault (0xC0 + rail) {} true

def execSupplyFault (rail : Nat) (s : State) : Host.Outcome State Fault Refusal := .next (supplyFault rail s)

/-- VDD_AON absent (R349): every switch opens and the always-on domain stops; only what the flash and the fuses hold is
left, and the levels of the reset pins. -/
def vddAonAbsent (s : State) : State :=
  let b := s.boot
  { State.reset with
    variant := s.variant, free := s.free, flash := s.flash, pending := s.pending, led := { cpNum := s.led.cpNum }
    ctl := { boot := { dead := true, porLow := b.porLow, sysLow := b.sysLow, perstLow := b.perstLow } } }

def execVddAonAbsent (s : State) : Host.Outcome State Fault Refusal := .next (vddAonAbsent s)

/-! ## Release (R315) -/

/-- A write of FLT_REL that R315 does not ignore. -/
def State.relAllowed (s : State) (c : Nat) : Bool := s.bridgeOn && !s.fatal && decide (c < numCombs s.variant) && !(s.comb c).holdMc

def State.writeRel (s : State) (c l : Nat) (whole : Bool) : State :=
  if s.bridgeOn then
    ((s.put Adr.FLT_REL Fl.FLT_REL_COMB c).put Adr.FLT_REL Fl.FLT_REL_LANE l).putFlag Adr.FLT_REL Fl.FLT_REL_WHOLE whole
  else s

/-- FLT_REL_LANE: the lane's fault park is withdrawn at the comb's next boundary. -/
def fltRelLane (c l : Nat) (s : State) : State :=
  let s := s.writeRel c l false
  if s.relAllowed c && decide (l < 64) then
    s.onLane (64 * c + l) fun x => if x.faultPark then { x with release := true } else x
  else s

def execFltRelLane (c l : Nat) (s : State) : Host.Outcome State Fault Refusal := .next (fltRelLane c l s)

/-- FLT_REL_COMB: the comb's KIND 0x4 hold is withdrawn at its next boundary. -/
def fltRelComb (c : Nat) (s : State) : State :=
  let s := s.writeRel c (s.get Adr.FLT_REL Fl.FLT_REL_LANE) true
  if s.relAllowed c then s.onComb c fun x => if x.holdPar then { x with release := true } else x else s

def execFltRelComb (c : Nat) (s : State) : Host.Outcome State Fault Refusal := .next (fltRelComb c s)

/-! ## Injection (R318) -/

/-- Sources whose checker has check bits, and the checkers of a source. -/
def injectable (v : Variant) (n sub : Nat) : Bool :=
  faultExists v n && decide (n < 0xB0) && (if n < 0x90 then decide (sub < 3) else sub == 0)

/-- FLT_INJ with ARM: the INJ bit of the named checker sets; where no checker has that name the write is ignored. -/
def fltInjArm (v : Word) (s : State) : State :=
  if s.bridgeOn then
    let s := s.store Adr.FLT_INJ v
    let n := s.get Adr.FLT_INJ Fl.FLT_INJ_SOURCE
    let sub := s.get Adr.FLT_INJ Fl.FLT_INJ_SUB
    if injectable s.variant n sub then
      let rest := s.flt.inj.filter fun i => !(i.1 == n && i.2.1 == sub)
      s.setFlt { s.flt with inj := rest ++ [(n, sub, s.flag Adr.FLT_INJ Fl.FLT_INJ_HOST_ONLY)] }
    else s
  else s

def execFltInjArm (v : Word) (s : State) : Host.Outcome State Fault Refusal := .next (fltInjArm v s)

/-! ## Temperature (R320 to R323) -/

/-- Where sensor `n` takes its power from: none for the photonic-die sensors. -/
def sensorDomain (n : Nat) : Option Nat := if n < 64 then some (6 * (n / 16) + 5) else if n < 68 then some 24 else none
def State.sensorOn (s : State) (n : Nat) : Bool := match sensorDomain n with | some d => s.powered d | none => true

def clampNat (lo hi n : Nat) : Nat := max lo (min hi n)

/-- One sensor converted and published. -/
def State.convertSensor (s : State) (n : Nat) (r : Int × Bool) : State :=
  let b := Adr.THERM_T n
  if s.sensorOn n then (s.put b Fl.THERM_T_TEMP (wrap 16 r.1)).putFlag b Fl.THERM_T_VALID r.2
  else s.putFlag b Fl.THERM_T_VALID false

/-- The valid readings among sensors `ns`, in 0.125 °C. -/
def State.readings (s : State) (ns : List Nat) : List Int :=
  (ns.filter fun n => s.flag (Adr.THERM_T n) Fl.THERM_T_VALID).map fun n => signed 16 (s.get (Adr.THERM_T n) Fl.THERM_T_TEMP)

/-- A threshold of `deg` °C with hysteresis `hys` after a conversion: entered at or above it, left once every reading has
fallen below it less the hysteresis. -/
def threshold (was : Bool) (deg hys : Nat) (rs : List Int) : Bool :=
  if rs.any fun r => decide ((8 * deg : Nat) ≤ r) then true
  else was && rs.any fun r => decide ((8 * (deg - hys) : Nat) ≤ r)

def State.thermHys (s : State) (f : Field) : Nat := clampNat 1 15 (s.get Adr.THERM_CFG f)

/-- WARN and its source. -/
def State.judgeWarn (s : State) : State :=
  let was := s.flag Adr.THERM_STAT Fl.THERM_STAT_WARN
  let on := threshold was (clampNat 60 110 (s.get Adr.THERM_CFG Fl.THERM_CFG_WARN)) (s.thermHys Fl.THERM_CFG_WARN_HYS)
    (s.readings (List.range 80))
  let s := s.putFlag Adr.THERM_STAT Fl.THERM_STAT_WARN on
  if on && !was then s.assertFault 0xD0 {} true else if was && !on then s.faultGone 0xD0 else s

/-- The field of THERM_STAT that holds the level of tile `t`. -/
def lvlField (t : Nat) : Field := ⟨0x0, 1 + 2 * t, 2⟩
def State.thermLevel (s : State) (t : Nat) : Nat := s.get Adr.THERM_STAT (lvlField t)

/-- The sensors of tile `t`: its own 16 and three of the photonic die. -/
def tileSensors (t : Nat) : List Nat := (List.range 16).map (16 * t + ·) ++ (List.range 3).map (68 + 3 * t + ·)

/-- The throttle level of tile `t` after a conversion (R321). -/
def State.newLevel (s : State) (t : Nat) : Nat :=
  let rs := s.readings (tileSensors t)
  let thr := clampNat 70 115 (s.get Adr.THERM_CFG Fl.THERM_CFG_THR)
  let thr2 := min 119 (thr + clampNat 1 15 (s.get Adr.THERM_CFG Fl.THERM_CFG_THR2_OFS))
  let hys := s.thermHys Fl.THERM_CFG_THR_HYS
  if threshold (s.thermLevel t == 2) thr2 hys rs then 2
  else if threshold (decide (1 ≤ s.thermLevel t)) thr hys rs then 1 else 0

/-- The level of tile `t` in force on its combs. -/
def State.throttleTile (s : State) (t n : Nat) : State :=
  let s := s.put Adr.THERM_STAT (lvlField t) n
  (List.range (combsPerTile s.variant)).foldl (fun s k =>
    let c := combsPerTile s.variant * t + k
    if s.powered (combDomain s.variant c) then
      (s.putFlag (Adr.MC_STAT c) Fl.MC_STAT_THR1 (decide (1 ≤ n))).putFlag (Adr.MC_STAT c) Fl.MC_STAT_THR2 (n == 2)
    else s) s

def State.judgeTile (s : State) (t : Nat) : State :=
  let was := s.thermLevel t
  let n := s.newLevel t
  let s := if n = was then s else s.throttleTile t n
  if was < n then (s.count Adr.THERM_CNT Fl.THERM_CNT_ENTRIES 1).assertFault 0xD1 {} true else s

/-- Levels of every tile; the source is active while a tile is throttled. -/
def State.judgeTiles (s : State) : State :=
  let ts := List.range (numTiles s.variant)
  let s := ts.foldl (fun s t => s.judgeTile t) s
  if ts.all fun t => s.thermLevel t == 0 then s.faultGone 0xD1 else s

/-- THERM_N is driven low while any tile is throttled, and during shutdown (R322, R323). -/
def State.thermLow (s : State) : Bool := s.flt.shutdown || (List.range 4).any fun t => s.thermLevel t != 0

/-- THERM_SHUTDOWN (R323): capture, FATAL reaction, and the power of every switched domain removed. Gwynique loses its power before it
can report; the next start does. -/
def State.shutDown (s : State) : State :=
  let b := s.boot
  let s := (s.setBoot { b with gwq := false }).assertFault 0xD2 {} true
  let s := (s.putFlag Adr.THERM_STAT Fl.THERM_STAT_SHUT_SEEN true).count Adr.THERM_CNT Fl.THERM_CNT_SHUTDOWNS 1
  let s := s.stopAlive.releaseOwn.losePower
  s.setFlt { s.flt with shutdown := true, coolSince := none }

/-- SENSOR_FAIL: a sensor of a powered domain reports invalid. -/
def State.judgeSensors (s : State) : State :=
  match (List.range 80).find? fun n => s.sensorOn n && !s.flag (Adr.THERM_T n) Fl.THERM_T_VALID with
  | some n => if s.flag (Adr.FLT_SRC 0xD3) Fl.FLT_SRC_ACTIVE then s else s.assertFault 0xD3 { detail := n } true
  | none => s.faultGone 0xD3

/-- HOT and THERM_MAX: the highest valid reading, the lowest-numbered sensor among equals. -/
def State.showHottest (s : State) : State :=
  let ns := (List.range 80).filter fun n => s.flag (Adr.THERM_T n) Fl.THERM_T_VALID
  let t := fun (n : Nat) => signed 16 (s.get (Adr.THERM_T n) Fl.THERM_T_TEMP)
  match ns with
  | [] => s
  | n :: rest =>
    let m := rest.foldl (fun b k => if t b < t k then k else b) n
    (s.put Adr.THERM_STAT Fl.THERM_STAT_HOT m).put Adr.THERM_MAX Fl.THERM_MAX_TEMP (wrap 16 (t m))

/-- The cooling condition of R323: since when every photonic-die sensor reads below 100.0 °C. -/
def State.judgeCool (s : State) : State :=
  let cool := (s.readings ((List.range 12).map (68 + ·))).all fun r => decide (r < 800)
  s.setFlt { s.flt with coolSince := if cool then some (s.flt.coolSince.getD s.tick) else none }

/-- THERMAL_CONVERSION: every sensor converted and the thresholds judged. -/
def thermalConversion (temps : Temps) (s : State) : State :=
  if s.boot.porLow || s.boot.dead then s
  else
    let s := (List.range 80).foldl (fun s n => s.convertSensor n (temps.getD n (0, false))) s
    let s := s.showHottest.judgeWarn.judgeTiles
    let hot := (s.readings (List.range 80)).any fun r => decide (960 ≤ r)
    let again := s.flt.hot
    let s := s.setFlt { s.flt with hot := hot }
    let s := if hot && again && !s.flt.shutdown then s.shutDown else if hot then s else s.faultGone 0xD2
    s.judgeSensors.judgeCool

def execThermalConversion (temps : Temps) (s : State) : Host.Outcome State Fault Refusal := .next (thermalConversion temps s)

end Sys2Proof.Machine
end

