-- ==== Sys2Proof/Machine/Drive.lean ====
section
/-! DEFINITION. The pilot selector and input power monitors (spec/02_switch_fabric.md R35 to R39), drive enable and
DRV_CLR_N (spec/03_drive_and_sense.md R47, R48, R50). -/

namespace Sys2Proof.Machine

/-! ## Pilots -/

def State.pilotSel (s : State) : Bool := s.flag Adr.PILOT_STAT Fl.PILOT_STAT_SEL
def State.pilotIsOk (s : State) (b : Bool) : Bool :=
  s.flag Adr.PILOT_STAT (if b then Fl.PILOT_STAT_B_OK else Fl.PILOT_STAT_A_OK)
/-- The pilot MODE forces, or none in AUTO. -/
def State.forcedPilot (s : State) : Option Bool :=
  match s.get Adr.PILOT_CTL Fl.PILOT_CTL_MODE with
  | 1 => some false
  | 2 => some true
  | _ => none

/-- Every comb's period is overlapped by a switch window or NO_PILOT span (R38). -/
def State.overlapAll (s : State) : State := s.mapCombs fun _ x => { x with overlap := true }

/-- A switch window of 20 µs opens. -/
def State.openWindow (s : State) : State :=
  let s := s.putFlag Adr.PILOT_STAT Fl.PILOT_STAT_SWITCHING true
  let s := { s with ctl := { s.ctl with pilot := { s.ctl.pilot with windowEnd := some (s.tick + usTicks 20) } } }
  s.overlapAll

/-- SEL takes pilot `b`; a change is counted and opens a switch window. -/
def State.selectPilot (s : State) (b : Bool) : State :=
  if s.pilotSel = b then s
  else ((s.putFlag Adr.PILOT_STAT Fl.PILOT_STAT_SEL b).count Adr.PILOT_STAT Fl.PILOT_STAT_SW_COUNT 1).openWindow

def State.setNoPilot (s : State) : State :=
  if s.noPilot then s
  else ((s.putFlag Adr.PILOT_STAT Fl.PILOT_STAT_NO_PILOT true).assertFault 0xB9 {} true).overlapAll

/-- The end of a NO_PILOT span is a change of selection even where SEL keeps its value. -/
def State.endNoPilot (s : State) : State :=
  if s.noPilot then ((s.putFlag Adr.PILOT_STAT Fl.PILOT_STAT_NO_PILOT false).faultGone 0xB9).openWindow else s

/-- The selected pilot is not OK: what the table of R37 gives. -/
def State.pilotGone (s : State) : State :=
  let b := s.pilotSel
  if s.pilotIsOk b then s
  else if s.forcedPilot.isNone && s.pilotIsOk (!b) then
    let s := (s.selectPilot (!b)).putFlag Adr.PILOT_STAT Fl.PILOT_STAT_FALLBACK true
    (s.assertFault 0xB8 {} false).endNoPilot
  else s.setNoPilot

/-- The reference of a pilot, in 0.1 dB steps (R39). -/
def State.pilotRef (s : State) (b : Bool) : Int :=
  signed 16 (s.get Adr.PILOT_REF (if b then Fl.PILOT_REF_REF_B else Fl.PILOT_REF_REF_A))

def Pilots.of (p : Pilots) (b : Bool) : Int := if b then p.b else p.a

def State.setPilotOk (s : State) (b ok : Bool) : State :=
  s.putFlag Adr.PILOT_STAT (if b then Fl.PILOT_STAT_B_OK else Fl.PILOT_STAT_A_OK) ok

/-- A comparator over the last 1 µs, `p` the highest power: an OK pilot below its reference minus 3 dB is lost (R37). -/
def State.judgeLost (s : State) (p : Pilots) (b : Bool) : State :=
  if s.pilotIsOk b && decide (Pilots.of p b < s.pilotRef b - 30) then s.setPilotOk b false else s

/-- A comparator over the last 1 ms, `p` the lowest power: a pilot at or above its reference minus 2 dB is OK (R37). -/
def State.judgeOk (s : State) (p : Pilots) (b : Bool) : State :=
  if !s.pilotIsOk b && decide (s.pilotRef b - 20 ≤ Pilots.of p b) then s.setPilotOk b true else s

/-- PILOT_LOST: both comparators judged on one tick, then the selection. -/
def pilotLost (p : Pilots) (s : State) : State :=
  if s.powered 24 then
    let had := s.pilotIsOk s.pilotSel
    let s := (s.judgeLost p false).judgeLost p true
    if had then s.pilotGone else s
  else s

def execPilotLost (p : Pilots) (s : State) : Host.Outcome State Fault Refusal := .next (pilotLost p s)

/-- PILOT_OK: both comparators judged in one window; from NO_PILOT, AUTO selects the first pilot OK, A if both are. -/
def pilotOk (p : Pilots) (s : State) : State :=
  if s.powered 24 then
    let s := (s.judgeOk p false).judgeOk p true
    if s.noPilot = false then s
    else
      match s.forcedPilot with
      | none =>
        if s.pilotIsOk false then (s.selectPilot false).endNoPilot
        else if s.pilotIsOk true then (s.selectPilot true).endNoPilot else s
      | some f => if s.pilotIsOk f then s.endNoPilot else s
  else s

def execPilotOk (p : Pilots) (s : State) : Host.Outcome State Fault Refusal := .next (pilotOk p s)

/-- The switch window closes 20 µs after it opened. -/
def switchWindowEnd (s : State) : State :=
  match s.ctl.pilot.windowEnd with
  | some t =>
    if t ≤ s.tick then
      let s := { s with ctl := { s.ctl with pilot := { s.ctl.pilot with windowEnd := none } } }
      s.putFlag Adr.PILOT_STAT Fl.PILOT_STAT_SWITCHING false
    else s
  | none => s

def execSwitchWindowEnd (s : State) : Host.Outcome State Fault Refusal := .next (switchWindowEnd s)

/-- SWITCH: the other pilot if OK, in AUTO only; else SEL_REFUSED. -/
def State.switchPilot (s : State) : State :=
  if s.bridgeOn = false then s
  else if s.forcedPilot.isNone && s.pilotIsOk (!s.pilotSel) then (s.selectPilot (!s.pilotSel)).endNoPilot
  else s.putFlag Adr.PILOT_STAT Fl.PILOT_STAT_SEL_REFUSED true

/-- PILOT_SWITCH: the request takes effect at the end of its tick, after a drop that the comparators find on it (R37). -/
def pilotSwitch (s : State) : State :=
  if s.bridgeOn then { s with ctl := { s.ctl with pilot := { s.ctl.pilot with switch := true } } } else s

def execPilotSwitch (s : State) : Host.Outcome State Fault Refusal := .next (pilotSwitch s)

/-- The end of a tick carries out a SWITCH of that tick. -/
def State.takeSwitch (s : State) : State :=
  if s.ctl.pilot.switch then
    State.switchPilot { s with ctl := { s.ctl with pilot := { s.ctl.pilot with switch := false } } }
  else s

/-- RECAPTURE: each OK pilot's reference is captured from its next 1 ms average. -/
def recapture (s : State) : State :=
  if s.bridgeOn then { s with ctl := { s.ctl with pilot := { s.ctl.pilot with recapture := true } } } else s

def execRecapture (s : State) : Host.Outcome State Fault Refusal := .next (recapture s)

/-- A write of PILOT_CTL: MODE takes effect at once, then the requests of the same word. -/
def State.writePilot (s : State) (v : Word) : State :=
  if s.bridgeOn = false then s
  else
    let s := s.put Adr.PILOT_CTL Fl.PILOT_CTL_MODE (getBits v 0 2)
    let s := match s.forcedPilot with
      | some f => s.selectPilot f
      | none => s
    let s := if s.pilotIsOk s.pilotSel then s.endNoPilot else s.pilotGone
    let s := if bitSet v 2 then pilotSwitch s else s
    if bitSet v 3 then recapture s else s

def execPilotMode (v : Word) (s : State) : Host.Outcome State Fault Refusal := .next (s.writePilot v)

/-- The 1 ms average of a pilot monitor in microvolts: over the scans of the window, or the operand where none has ended in it. -/
def HkUnit.average (x : HkUnit) (b : Bool) (level : Nat) : Nat :=
  if x.scans = 0 then level else (if b then x.sumB else x.sumA) / x.scans

/-- The 1 ms averages of channels 26 and 27: PILOT_PWR, and a requested capture of each OK pilot's reference (R39, R62). The
operands are the monitors' levels in microvolts. -/
def pilotRefCapture (pwrA pwrB : Nat) (s : State) : State :=
  if s.powered 24 = false then s
  else
    let hk := s.ctl.hk
    let a := Config.pilotDb (hk.average false pwrA)
    let b := Config.pilotDb (hk.average true pwrB)
    let s := { s with ctl := { s.ctl with hk := { hk with sumA := 0, sumB := 0, scans := 0 } } }
    let s := (s.put Adr.PILOT_PWR Fl.PILOT_PWR_PWR_A a).put Adr.PILOT_PWR Fl.PILOT_PWR_PWR_B b
    if s.ctl.pilot.recapture = false then s
    else
      let s := { s with ctl := { s.ctl with pilot := { s.ctl.pilot with recapture := false } } }
      let s := if s.pilotIsOk false then s.put Adr.PILOT_REF Fl.PILOT_REF_REF_A a else s
      (if s.pilotIsOk true then s.put Adr.PILOT_REF Fl.PILOT_REF_REF_B b else s).endStage7

def execPilotRefCapture (pwrA pwrB : Nat) (s : State) : Host.Outcome State Fault Refusal := .next (pilotRefCapture pwrA pwrB s)

/-- The number of whole 1 ms windows since POR_N, aligned to the spine (R35). -/
def State.msWindow (s : State) : Nat := s.tick / 625000

/-- A 1 ms window of the power monitor of input `p` has ended: its result is published once, with its window's number. -/
def powerMonitorWindow (p code : Nat) (s : State) : State :=
  let b := Adr.IN_PWR p
  if decide (p < numPorts s.variant) && s.powered (6 * (p / 128) + 5)
      && decide (s.get b Fl.IN_PWR_WIN ≠ s.msWindow % 65536) then
    let s := (s.put b Fl.IN_PWR_PWR (min 0x51 code)).put b Fl.IN_PWR_WIN s.msWindow
    if 0x51 ≤ code then s.putFlag b Fl.IN_PWR_OVER true else s
  else s

def execPowerMonitorWindow (p code : Nat) (s : State) : Host.Outcome State Fault Refusal := .next (powerMonitorWindow p code s)

/-! ## Drive enable (R50) -/

/-- The ramp of 10 µs begins where EN = 1 and VDD_DRV is good; in recovery drive is never enabled (R358). -/
def State.startRamp (s : State) : State :=
  if s.flag Adr.DRV_CTL Fl.DRV_CTL_EN && s.flag Adr.DRV_STAT Fl.DRV_STAT_DRV_PG && !s.boot.recovery then
    s.setBoot { s.boot with rampEnd := some (s.tick + usTicks 10) }
  else s

/-- Every lane at zero drive: EN_DONE clear and no ramp. -/
def State.zeroAll (s : State) : State :=
  ((s.putFlag Adr.DRV_STAT Fl.DRV_STAT_EN_DONE false).setBoot { s.boot with rampEnd := none }).react

/-- EN as Gwynique or the owner writes it. -/
def State.setEn (s : State) (en : Bool) : State :=
  let old := s.flag Adr.DRV_CTL Fl.DRV_CTL_EN
  let s := s.putFlag Adr.DRV_CTL Fl.DRV_CTL_EN en
  if en = false then s.zeroAll else if old then s else s.startRamp

def driveEn (v : Word) (s : State) : State := if s.bridgeOn then s.setEn (bitSet v 0) else s

def execDriveEn (v : Word) (s : State) : Host.Outcome State Fault Refusal := .next (driveEn v s)

/-- The end of the ramp, at a strobe: EN_DONE, each lane leaves OFF, and every DAC converts the code in force. A boot's stage 7 ends. -/
def enableRampEnd (s : State) : State :=
  match s.boot.rampEnd with
  | some t =>
    if t ≤ s.tick ∧ s.tick % 5 = 0 then
      ((s.putFlag Adr.DRV_STAT Fl.DRV_STAT_EN_DONE true).setBoot { s.boot with rampEnd := none }).react.strobe.endStage7
    else s
  | none => s

def execEnableRampEnd (s : State) : Host.Outcome State Fault Refusal := .next (enableRampEnd s)

def drvPgLoss (s : State) : State := (s.putFlag Adr.DRV_STAT Fl.DRV_STAT_DRV_PG false).zeroAll

def execDrvPgLoss (s : State) : Host.Outcome State Fault Refusal := .next (drvPgLoss s)

/-- VDD_DRV has stayed in range for 1 ms. -/
def drvPgReturn (s : State) : State :=
  if s.powered 24 && !s.flag Adr.DRV_STAT Fl.DRV_STAT_DRV_PG then
    ((s.putFlag Adr.DRV_STAT Fl.DRV_STAT_DRV_PG true).faultGone 0xC2).startRamp
  else s

def execDrvPgReturn (s : State) : Host.Outcome State Fault Refusal := .next (drvPgReturn s)

/-! ## DRV_CLR_N (R47, R48, R333) -/

def State.safe (s : State) : SafeUnit := s.ctl.safe
def State.setSafe (s : State) (x : SafeUnit) : State := { s with ctl := { s.ctl with safe := x } }

/-- A SAFETY ledger entry, written by Gwynique, or owed while it does not run (R333). -/
def State.logSafety (s : State) (source assert panels : Nat) : State :=
  let body := bodyOf [(0, 1, source), (1, 1, assert), (2, 1, panels)]
  if s.gwqRuns then s.logInvol (some 0) 0x0050 body
  else s.setSafe { s.safe with owed := s.safe.owed ++ [(s.now.sec, s.now.ns, body)] }

/-- The SAFETY entries owed, as Gwynique runs again. -/
def State.flushSafety (s : State) : State :=
  let owed := s.safe.owed
  owed.foldl (fun s e => s.logInvolAt (some 0) 0x0050 e.1 e.2.1 e.2.2) (s.setSafe { s.safe with owed := [] })

/-- DRV_CLR_N low, acted on. A loss of domain 24 takes CLR_LOW with it: after it the pin acts again, and is counted again, with a
new row (DESIGN CHOICE, log 99). -/
def drvClrNAssert (s : State) : State :=
  if s.powered 24 = false ∨ s.clrLow then s
  else
    let s := (s.putFlag Adr.DRV_STAT Fl.DRV_STAT_CLR_LOW true).putFlag Adr.DRV_STAT Fl.DRV_STAT_CLR_SEEN true
    let s := s.count Adr.DRV_STAT Fl.DRV_STAT_CLR_COUNT 1
    s.react.logSafety 1 1 0

def execDrvClrNAssert (s : State) : Host.Outcome State Fault Refusal := .next (drvClrNAssert s)

/-- Cell lanes leave park at the first boundary 1 µs after the rise; gates stay parked until an unpark. -/
def drvClrNRelease (s : State) : State :=
  if s.clrLow = false then s
  else
    let s := s.putFlag Adr.DRV_STAT Fl.DRV_STAT_CLR_LOW false
    let v := s.variant
    let t := s.tick + usTicks 1
    let s := s.mapLanes fun e x => if x.st = 2 ∧ isGate v e = false then { x with clearUntil := some t } else x
    s.react.logSafety 1 0 0

def execDrvClrNRelease (s : State) : Host.Outcome State Fault Refusal := .next (drvClrNRelease s)

end Sys2Proof.Machine
end

