-- ==== Sys2Proof/Machine/TimeOps.lean ====
section
/-! DEFINITION. Shared operations of the time unit (spec/08_time_unit.md): one tick of a domain, capture FIFOs, time-quality
changes, the request of a domain switch, and the servo of Gwynique. -/

namespace Sys2Proof.Machine

/-! ## One tick of a domain (R148 to R150) -/

def incMin : Nat := 0x19930BE0E
def incMax : Nat := 0x19A027525
def clampInc (n : Nat) : Nat := max incMin (min incMax n)

/-- The ADJ that the tick brings into force: what an earlier one has left is added (R149). -/
def Domain.takeAdj (d : Domain) : Domain :=
  match d.adjPend with
  | none => d
  | some (z, n) =>
    let total := z + (d.adjTotal - d.adjDone)
    { d with adjTotal := total, adjDone := 0, adjK := 0, adjN := max n ((total.natAbs + 103) / 104), adjPend := none }

def Domain.takeInc (d : Domain) : Domain :=
  match d.incPend with
  | none => d
  | some n => { d with inc := clampInc n, incPend := none }

/-- The tick of R149, and whether it applied a SET; `t` is the tick. -/
def Domain.step (d : Domain) (t : Nat) : Domain × Bool :=
  match d.setPend with
  | some (sec, ns) =>
    ({ d with sec := sec, ns := ns, frac := 0, adjTotal := 0, adjDone := 0, adjN := 0, setPend := none, setf := true
              lastSet := some t, sets := d.sets + 1 }, true)
  | none =>
    let d := d.takeInc.takeAdj
    let a : Int := if d.adjK < d.adjN then ((d.adjK + 1 : Nat) * d.adjTotal) / (d.adjN : Int) - d.adjDone else 0
    let d := if d.adjK < d.adjN then { d with adjDone := d.adjDone + a, adjK := d.adjK + 1 } else d
    let x := ((d.frac : Int) + d.inc + a * 65536).toNat
    let ns := d.ns + x / 2 ^ 32
    let d := { d with frac := x % 2 ^ 32 }
    (if 1000000000 ≤ ns then { d with ns := ns - 1000000000, sec := (d.sec + 1) % 2 ^ 48 } else { d with ns := ns }, false)

/-- The domain `k` sixteenths of a tick after this tick. -/
def Domain.sub (d : Domain) (k : Nat) : Domain :=
  let x := d.frac + d.inc * k / 16
  let ns := d.ns + x / 2 ^ 32
  if 1000000000 ≤ ns then { d with frac := x % 2 ^ 32, ns := ns - 1000000000, sec := (d.sec + 1) % 2 ^ 48 }
  else { d with frac := x % 2 ^ 32, ns := ns }

def State.onDom (s : State) (d : Dom) (f : Domain → Domain) : State :=
  { s with time := s.time.setDom d (f (s.time.dom d)) }

/-! ## Sources and writers (R155, R156) -/

/-- SRC as it acts: 0 NONE, 1 PTP, 2 PPS_A, 3 PPS_B, 4 HOST. -/
def State.srcOf (s : State) (d : Dom) : Nat :=
  let n := s.get (tdAdr d) Fl.TD_SRC
  if 4 < n then 0 else if n = 1 ∧ s.has .mgmtU = false then 0 else n

/-- Whether the writer is the domain's discipliner, and its write arrives. -/
def State.mayWrite (s : State) (d : Dom) (w : Writer) : Bool :=
  match w with
  | .host => s.bridgeOn && s.srcOf d == 4
  | .gwynique => s.gwqRuns && decide (1 ≤ s.srcOf d ∧ s.srcOf d ≤ 3)

/-! ## Capture FIFOs (R164) -/

def State.caps (s : State) (n : Nat) : List CapEntry := SMap.find [] s.time.caps n

/-- The registers of capture unit `n` as its FIFO stands: LEVEL and the head entry. -/
def State.showCap (s : State) (n : Nat) : State :=
  let b := Adr.CAP n
  let es := s.caps n
  let h : CapEntry := es.headD ⟨0, 0, 0, 0, 0⟩
  let s := s.put b Fl.CAP_LEVEL es.length
  let s := s.putPair b Fl.CAP_TICK_LO Fl.CAP_TICK_HI h.tick
  let s := s.put b Fl.CAP_NS32_A h.ns32A
  let s := s.put b Fl.CAP_NS32_B h.ns32B
  let s := s.put b Fl.CAP_FRAC8_A h.frac8A
  let s := s.put b Fl.CAP_FRAC8_B h.frac8B
  s.putFlag b Fl.CAP_VALID (!es.isEmpty)

/-- An event of capture unit `n`, `k` sixteenths into this tick: it enters the FIFO, or is lost and counted. -/
def State.pushCap (s : State) (n k : Nat) : State :=
  let es := s.caps n
  if 4 ≤ es.length then s.count (Adr.CAP n) Fl.CAP_OVF 1
  else
    let a := s.time.a.sub k
    let b := s.time.b.sub k
    let s := { s with time := { s.time with
      caps := SMap.insert s.time.caps n (es ++ [({ tick := s.tick, ns32A := a.ns32, ns32B := b.ns32, frac8A := a.frac8, frac8B := b.frac8 } : CapEntry)]) } }
    s.showCap n

/-- The head entry of capture unit `n` removed. -/
def State.popCap (s : State) (n : Nat) : State :=
  let s := { s with time := { s.time with caps := SMap.insert s.time.caps n (s.caps n).tail } }
  s.showCap n

/-! ## Stamping-domain switch and time quality (R154, R155) -/

/-- A switch of the stamping domain is requested; ignored while one is pending. -/
def State.requestSwitch (s : State) : State :=
  if s.time.switchAt.isSome then s
  else
    let x := s.time.dom (otherDom s.sdom)
    let t := s.tick + 625
    let t := match x.lastSet with | some l => max t (l + 625000) | none => t
    let t := if x.setPend.isSome then max t (s.tick + 625001) else t
    let s := { s with time := { s.time with switchAt := some (strobeAt t) } }
    s.putFlag Adr.TIME_CTL Fl.TIME_CTL_SW_PEND true

/-- Domain `d` takes state `st`: its consequences for holdover, the time fault sources and AUTO_SW. -/
def State.setTq (s : State) (d : Dom) (st : Nat) : State :=
  let old := s.tqOf d
  let s := s.put (tdAdr d) Fl.TD_STATE st
  let s := s.onDom d fun x => { x with
    held := x.held ||| 2 ^ st, holdTick := if st = 3 ∧ old ≠ 3 then s.tick else x.holdTick }
  if d = s.sdom ∧ st ≠ old then
    let s := (s.faultGone 0xB1).faultGone 0xB2
    let s := if st = 3 then s.assertFault 0xB1 {} true else if st = 0 then s.assertFault 0xB2 {} true else s
    if old = 2 ∧ s.flag Adr.TIME_CTL Fl.TIME_CTL_AUTO_SW ∧ s.gwqRuns ∧ s.tqOf (otherDom d) = 2 then s.requestSwitch else s
  else s

/-! ## Gwynique's discipline (R155, R157 to R160) -/

def TimeUnit.ptp (t : TimeUnit) : Dom → PtpClient
  | .A => t.ptpA
  | .B => t.ptpB
def State.onPtp (s : State) (d : Dom) (f : PtpClient → PtpClient) : State :=
  match d with
  | .A => { s with time := { s.time with ptpA := f s.time.ptpA } }
  | .B => { s with time := { s.time with ptpB := f s.time.ptpB } }

/-- The servo's writes at an update: the spec gives no law, so the increment and the adjustment are open values, staged
and brought into force as any discipliner's. -/
def State.servo (s : State) (d : Dom) : State :=
  let b := tdAdr d
  let r := s.draw
  let inc := clampInc r.1
  let r2 := r.2.draw
  let r3 := r2.2.draw
  let s := r3.2
  let adj := signed 48 r2.1
  let s := (s.put b Fl.TD_INC_LO inc).put b Fl.TD_INC_HI (inc / 2 ^ 32)
  let s := (s.put b Fl.TD_ADJ_LO (wrap 48 adj)).put b Fl.TD_ADJ_HI (wrap 48 adj / 2 ^ 32)
  let s := s.put b Fl.TD_ADJ_TICKS r3.1
  s.onDom d fun x => { x with incPend := some inc, adjPend := some (adj, r3.1 % 2 ^ 32), servoTick := s.tick }

/-- A measured offset of domain `d`, in 1/256 ns, from its valid source (R155). -/
def State.offsetSeen (s : State) (d : Dom) (ofs : Int) : State :=
  let s := s.put (tdAdr d) Fl.TD_OFFSET (wrap 32 (clampInt (-2147483648) 2147483647 ofs))
  let s := s.onDom d fun x => { x with maxOfs := max x.maxOfs (min ofs.natAbs 0xffffffff) }
  let thr := (s.time.ptp d).lockThr * 256
  let p := s.time.ptp d
  let good := if ofs.natAbs ≤ thr then p.good + 1 else 0
  let bad := if 4 * thr < ofs.natAbs then p.bad + 1 else 0
  let s := s.onPtp d fun p => { p with good := good, bad := bad }
  let s := s.servo d
  let st := s.tqOf d
  let clear := fun (s : State) => s.onPtp d fun p => { p with good := 0, bad := 0 }
  if st = 0 ∨ st = 3 then clear (s.setTq d 1)
  else if st = 1 ∧ 16 ≤ good then clear (s.setTq d 2)
  else if st = 2 ∧ 4 ≤ bad then clear (s.setTq d 3)
  else s

/-- The source of a domain that Gwynique disciplines is lost: LOCKED falls to HOLDOVER (R155). -/
def State.lostSource (s : State) (d : Dom) : State :=
  let s := s.onPtp d fun p => { p with good := 0, bad := 0, valid := false }
  if s.tqOf d = 2 then s.setTq d 3 else s

/-! ## PTP clients (R160) -/

/-- The address bytes that count for a transport: IPv4 4, IPv6 16, Ethernet 6 (R243). -/
def adrBytes (transport : Nat) : Nat := if transport = 1 then 4 else if transport = 2 then 16 else 6

/-- A message for this client: its port, transport and domainNumber, from a sender among the acceptable masters where any are
configured. -/
def PtpClient.mine (p : PtpClient) (m : PtpMsg) : Bool :=
  let n := adrBytes p.transport
  p.port == m.port && p.transport == m.transport && p.domainNumber == m.domainNumber
    && (p.masters.isEmpty || p.masters.any fun a => a.take n == m.addr.take n && (a.drop 16).take 8 == fit 8 m.clockId)

/-- Numbers compared in order. -/
def lexLt : List Nat → List Nat → Bool
  | [], l => !l.isEmpty
  | _, [] => false
  | a :: l, b :: r => decide (a < b) || (a == b && lexLt l r)

/-- The order of the best master clock algorithm over announcements: the grandmaster's data set, then the distance, then the
sender (log 95: IEEE 1588's order, which the spec names and does not repeat). -/
def rankOf (x : List Byte × Announce) : List Nat :=
  [x.2.prio1, x.2.cls, x.2.accuracy, x.2.variance, x.2.prio2, ofLE x.2.grandmaster.reverse, x.2.steps, ofLE x.1.reverse]

/-- The best master heard. -/
def PtpClient.best (p : PtpClient) : Option (List Byte × Announce) :=
  p.foreign.foldl (fun b x => match b with
    | some y => if lexLt (rankOf x) (rankOf y) then some x else b
    | none => some x) none

/-- What the client shows follows the masters it hears. -/
def PtpClient.follow (p : PtpClient) : PtpClient :=
  let p := { p with heard := p.foreign.length, valid := !p.foreign.isEmpty }
  match p.best with
  | some (_, a) => { p with
      grandmaster := a.grandmaster, parent := a.parent, clockClass := a.cls, utc := a.utc, leap := a.leap }
  | none => p

/-- The stamp of an Ethernet port at this tick against the disciplined domain, in 1/256 ns (R160). -/
def ethStamp (x : Domain) (err : Int) : Int := 256 * (x.total : Int) + x.frac8 + err

/-- The difference t2 − t1 that a Sync or Follow_Up completes, stamped `t` where it is a Sync. -/
def PtpClient.diff (p : PtpClient) (t : Int) (m : PtpMsg) : Option Int :=
  if m.kind = 0 then some (t - m.time) else if m.kind = 1 then p.syncAt.map (· - m.time) else none

/-- A Delay_Req goes to the best master, once per interval configured (R160, R243). -/
def PtpClient.sends (p : PtpClient) (tick : Nat) (m : PtpMsg) : Bool :=
  (match p.best with | some b => b.1 == m.clockId | none => false)
    && match p.reqTick with
       | some t => decide (t + (if p.logDelay < 0 then 625000000 / 2 ^ p.logDelay.natAbs else 625000000 * 2 ^ p.logDelay.natAbs) ≤ tick)
       | none => true

/-- The mean path delay: half of what both ways take; and the offset, corrected by the configured asymmetry, which adds to the
delay from master to slave (R243). Both need a measurement each way. -/
def PtpClient.measured (p : PtpClient) : Option (Int × Int) :=
  match p.fromMaster, p.toMaster with
  | some a, some b => some ((a + b) / 2, a - (a + b) / 2 - p.asym)
  | _, _ => none

/-! ## TOD lines (R158, R159) -/

/-- The decimal number a non-empty run of digits spells. -/
def digits? (bs : List Byte) : Option Nat :=
  if bs.isEmpty then none
  else if bs.all fun b => decide (0x30 ≤ b.toNat ∧ b.toNat ≤ 0x39) then some (bs.foldl (fun n b => 10 * n + (b.toNat - 0x30)) 0)
  else none

/-- The pieces of a byte string between commas. -/
def splitComma (bs : List Byte) : List (List Byte) :=
  bs.foldr (fun b acc => if b = 0x2c then [] :: acc else match acc with
    | p :: r => (b :: p) :: r
    | [] => [[b]]) [[]]

def hexDigit (n : Nat) : Byte := byteOf (if n < 10 then 0x30 + n else 0x37 + n)

/-- A TOD line, CR LF included: second, UTC offset, leap flag; none where its syntax or check is wrong, or class is 255. -/
def todParse (l : List Byte) : Option (Nat × Int × Nat) :=
  let body := l.take (l.length - 2)
  let chk := body.drop (body.length - 2)
  let pre := body.take (body.length - 2)
  let x := pre.foldl (fun n b => Nat.xor n b.toNat) 0
  if 64 < l.length ∨ l.drop (l.length - 2) ≠ [0x0d, 0x0a] ∨ chk ≠ [hexDigit (x / 16), hexDigit (x % 16)] then none
  else
    match splitComma pre with
    | [kt, sec, utc, leap, cls, last] =>
      let u : Option Int := match utc with
        | 0x2d :: r => (digits? r).map fun n => -(n : Int)
        | r => (digits? r).map fun n => (n : Int)
      match digits? sec, u, digits? leap, digits? cls with
      | some sc, some u, some lp, some c =>
        if kt = [0x4b, 0x54] ∧ last = [] ∧ sec.length ≤ 15 ∧ sc < 2 ^ 48 ∧ -128 ≤ u ∧ u ≤ 127 ∧ lp ≤ 2 ∧ c < 255 then
          some (sc, u, lp)
        else none
      | _, _, _, _ => none
    | _ => none

/-- 100 ms and 1.1 s in ticks: the span after its LF in which a line names an edge (R158). -/
def lineFrom : Nat := 62500000
def lineTo : Nat := 687500000

def TimeUnit.pps (t : TimeUnit) (inB : Bool) : PpsIn := if inB then t.ppsB else t.ppsA
def State.onPps (s : State) (inB : Bool) (f : PpsIn → PpsIn) : State :=
  if inB then { s with time := { s.time with ppsB := f s.time.ppsB } }
  else { s with time := { s.time with ppsA := f s.time.ppsA } }

/-- A line that names an edge enters the sequence, or breaks it (R159): whether it is used, and the input after it. -/
def PpsIn.judge (x : PpsIn) (sec : Nat) : Bool × PpsIn :=
  let use := (true, { x with lastSec := some sec, edges := 0, resync := none })
  match x.lastSec with
  | none => use
  | some l =>
    if sec = l + x.edges then use
    else
      match x.resync with
      | some (last, n, e) =>
        if sec = last + (x.edges - e) then (if n = 2 then use else (false, { x with resync := some (sec, n + 1, x.edges) }))
        else (false, { x with resync := some (sec, 1, x.edges) })
      | none => (false, { x with resync := some (sec, 1, x.edges) })

end Sys2Proof.Machine
end

