-- ==== Sys2Proof/Machine/LaserSafety.lean ====
section
/-! DEFINITION. The laser-safety block (spec/17_laser_safety.md R324 to R334). -/

namespace Sys2Proof.Machine

/-- The block runs: the always-on domain does, and POR_N is high (R324). -/
def State.safeOn (s : State) : Bool := !s.boot.porLow && !s.boot.dead

def State.safeGet (s : State) (f : Field) : Nat := s.get Adr.SAFE_STAT f

/-! ## Crossings between the block and the core (R23) -/

/-- What the other side of the crossing has at this tick: the last word due, or `w` where none is on its way. -/
def crossed (tick : Nat) (w : Word) (l : List (Nat × Nat × Word)) : Word :=
  (((l.filter fun e => decide (e.2.1 ≤ tick)).getLast?).map fun e => e.2.2).getD w

/-- A crossing with the word `new` sent at `tick` over `old`: it arrives 2 to 3 µs later, where in that range is open, and never
before a word sent earlier (R22, R23). -/
def send (tick pick : Nat) (old new : Word) (l : List (Nat × Nat × Word)) : List (Nat × Nat × Word) :=
  let l := (if l.isEmpty then [(tick, tick, old)] else l).filter fun e => e.1 != tick || e.2.1 == tick
  let due := max (tick + 1250 + pick % 626) ((l.getLast?.map fun e => e.2.1).getD 0)
  let here := l.filter fun e => decide (e.2.1 ≤ tick)
  here.drop (here.length - 1) ++ l.filter (fun e => !decide (e.2.1 ≤ tick)) ++ [(tick, due, new)]

/-- The staged configuration as the block has it. -/
def State.safeCfg (s : State) : Word := crossed s.tick (s.rd Adr.SAFE_CFG) s.safe.cfgWay

/-- The status as the core has it. -/
def State.safeShown (s : State) : Word := crossed s.tick (s.rd Adr.SAFE_STAT) s.safe.statWay

/-- A write of SAFE_CFG sets out for the block (R23, R332). -/
def State.sendSafeCfg (s : State) (old : Word) : State :=
  let r := s.draw
  r.2.setSafe { r.2.safe with cfgWay := send s.tick r.1 old (s.rd Adr.SAFE_CFG) s.safe.cfgWay }

/-- A field of the status changes in the block; the word sets out for the core. -/
def State.safePut (s : State) (f : Field) (n : Nat) : State :=
  let t := s.put Adr.SAFE_STAT f n
  if t.rd Adr.SAFE_STAT = s.rd Adr.SAFE_STAT then t
  else
    let r := t.draw
    r.2.setSafe { r.2.safe with statWay := send s.tick r.1 (s.rd Adr.SAFE_STAT) (t.rd Adr.SAFE_STAT) s.safe.statWay }

/-- Bit `n` of a number replaced. -/
def putBit (w n : Nat) (x : Bool) : Nat := if w.testBit n = x then w else if x then w + 2 ^ n else w - 2 ^ n

/-- What the configuration in force says of guard `n`, and of driver `n`. -/
def State.guardOn (s : State) (n : Nat) : Bool := (s.safeGet Fl.SAFE_STAT_GUARD_EN_ACT).testBit n
def State.guardSo (s : State) (n : Nat) : Bool := (s.safeGet Fl.SAFE_STAT_GUARD_SO_ACT).testBit n
def State.soUsed (s : State) (n : Nat) : Bool := (s.safeGet Fl.SAFE_STAT_SO_USE_ACT).testBit n

/-- Levels as the block reads them. -/
def State.putEstop (s : State) (x : Bool) : State := s.safePut Fl.SAFE_STAT_ESTOP (b2i x)
def State.putGuard (s : State) (n : Nat) (x : Bool) : State :=
  s.safePut Fl.SAFE_STAT_GUARD (putBit (s.safeGet Fl.SAFE_STAT_GUARD) n x)
def State.putKfb (s : State) (n : Nat) (x : Bool) : State :=
  (s.setSafe { s.safe with kfbSeen := s.safe.kfbSeen.set n true }).safePut Fl.SAFE_STAT_KFB (putBit (s.safeGet Fl.SAFE_STAT_KFB) n x)

/-- The feedback of every used driver matches it: high while its contactor is released. -/
def State.kfbMatches (s : State) : Bool :=
  (List.range 2).all fun n => !s.soUsed n || ((s.safeGet Fl.SAFE_STAT_KFB).testBit n != (s.safeGet Fl.SAFE_STAT_SO).testBit n)

/-- The drivers conduct as `n` says; a change is followed by its feedback within 50 ms (R329). -/
def State.putSo (s : State) (n : Nat) : State :=
  if s.safeGet Fl.SAFE_STAT_SO = n then s
  else (s.safePut Fl.SAFE_STAT_SO n).setSafe { s.safe with soChange := some s.tick }

/-- The panels parked follow the all-gates park and the guards; lanes and outputs follow (R326, R328). -/
def State.putPanels (s : State) (all : Bool) (panels : Nat) : State :=
  let s := s.setSafe { s.safe with allGates := all, panels := panels }
  (s.safePut Fl.SAFE_STAT_PANEL_PARK (if all then 15 else panels)).react

/-! ## Trips and lock-outs (R327, R330, R333) -/

/-- A demand recognised: capture unit 6 and its fault source (R326). -/
def State.demand (s : State) : State :=
  ((s.setSafe { s.safe with demandTick := some s.tick }).pushCap 6 0).assertFault 0xD8 {} true

/-- The block trips. -/
def State.trip (s : State) : State :=
  let s := s.count Adr.SAFE_CNT Fl.SAFE_CNT_TRIPS 1
  let s := if s.safeGet Fl.SAFE_STAT_STATE = 0 then s.safePut Fl.SAFE_STAT_STATE 1 else s
  s.putSo 0

/-- A lock-out cause: the first is kept and acts; those that follow are counted. -/
def State.lockOut (s : State) (cause : Nat) : State :=
  let s := s.count Adr.SAFE_CNT Fl.SAFE_CNT_LOCKOUTS 1
  if s.safeGet Fl.SAFE_STAT_STATE = 2 then s
  else
    let s := (s.safePut Fl.SAFE_STAT_STATE 2).safePut Fl.SAFE_STAT_CAUSE cause
    let s := (s.putSo 0).putPanels true s.safe.panels
    (s.assertFault 0xD9 {} true).logSafety (0x10 + cause) 1 0

def estopNDemand (s : State) : State :=
  if s.safeOn && !s.safe.estop then
    let s := (s.setSafe { s.safe with estop := true }).putEstop false
    let s := (s.putPanels true s.safe.panels).trip.demand
    s.logSafety 2 1 0
  else s

def execEstopNDemand (s : State) : Host.Outcome State Fault Refusal := .next (estopNDemand s)

/-- ESTOP_N high again: the block stays as it is. -/
def estopNRelease (s : State) : State :=
  if s.safeOn && s.safe.estop then
    ((s.setSafe { s.safe with estop := false }).putEstop true).logSafety 2 0 0
  else s

def execEstopNRelease (s : State) : Host.Outcome State Fault Refusal := .next (estopNRelease s)

/-- GUARD_Nn: its panel is parked, and the block trips where the guard has its SO bit. -/
def guardNDemand (n : Nat) (s : State) : State :=
  if s.safeOn && decide (n < 4) && s.guardOn n && !s.safe.guards.getD n false then
    let s := (s.setSafe { s.safe with guards := s.safe.guards.set n true }).putGuard n false
    let s := s.putPanels s.safe.allGates (putBit s.safe.panels n true)
    let s := if s.guardSo n then s.trip else s
    s.demand.logSafety 3 1 (2 ^ n)
  else s

def execGuardNDemand (n : Nat) (s : State) : Host.Outcome State Fault Refusal := .next (guardNDemand n s)

/-- A guard high again, having passed a test pulse: without its SO bit its panel park is withdrawn (R328). A guard that a reset has
disabled is not evaluated, and its panel park ends at a reset that finds it high (R327, R331). -/
def guardNRelease (n : Nat) (s : State) : State :=
  if s.safeOn && decide (n < 4) && s.guardOn n && s.safe.guards.getD n false then
    let s := (s.setSafe { s.safe with
      guards := s.safe.guards.set n false
      passed := { s.safe.passed with guards := s.safe.passed.guards.set n true } }).putGuard n true
    let s := if s.guardSo n then s else s.putPanels s.safe.allGates (putBit s.safe.panels n false)
    s.logSafety 3 0 (2 ^ n)
  else s

def execGuardNRelease (n : Nat) (s : State) : Host.Outcome State Fault Refusal := .next (guardNRelease n s)

/-! ## Test pulses (R325) -/

/-- One input judged by a pulse: it passes or fails where it read high before; a pulse that does not judge it breaks a run of
failures. -/
def judgePulse (high passed ok : Bool) : Bool × Bool := if high then (ok, !ok) else (passed, false)

/-- Inputs that the block evaluates: ESTOP_N, enabled guards, feedbacks of used drivers, SRST_N. -/
def State.evaluated (s : State) : Contacts :=
  ⟨true, (List.range 4).map s.guardOn, (List.range 2).map s.soUsed, some true⟩

def inputsOf (c : Contacts) : List Bool :=
  c.estop :: (List.range 4).map (fun n => c.guards.getD n false) ++ (List.range 2).map (fun n => c.kfb.getD n false)
    ++ [c.srst.getD false]

def contactsOf (l : List Bool) : Contacts :=
  ⟨l.getD 0 false, (List.range 4).map (fun n => l.getD (1 + n) false), (List.range 2).map fun n => l.getD (5 + n) false,
    some (l.getD 7 false)⟩

/-- The levels before a pulse. An input whose level the block has not read yet, and on which no demand stands, read high where the
pulse passes it. -/
def State.levels (s : State) (c : Contacts) : Contacts :=
  ⟨s.flag Adr.SAFE_STAT Fl.SAFE_STAT_ESTOP || (!s.safe.estop && c.estop),
    (List.range 4).map (fun n => (s.safeGet Fl.SAFE_STAT_GUARD).testBit n || (!s.safe.guards.getD n false && c.guards.getD n false)),
    (List.range 2).map (fun n => (s.safeGet Fl.SAFE_STAT_KFB).testBit n || (!s.safe.kfbSeen.getD n false && c.kfb.getD n false)),
    some c.srst.isSome⟩

/-- Levels as sampled. -/
def State.putLevels (s : State) (c : Contacts) : State :=
  let s := s.putEstop c.estop
  let s := (List.range 4).foldl (fun s n => s.putGuard n (c.guards.getD n false)) s
  (List.range 2).foldl (fun s n => s.putKfb n (c.kfb.getD n false)) s

/-- The levels that a pulse reads high for the first time. -/
def State.firstLevels (s : State) (l : List Bool) : State :=
  let s := if l.getD 0 false then s.putEstop true else s
  let s := (List.range 4).foldl (fun s n => if l.getD (1 + n) false then s.putGuard n true else s) s
  (List.range 2).foldl (fun s n => if l.getD (5 + n) false then s.putKfb n true else s) s

/-- TEST_PULSE: every input that was high is judged; one that fails two consecutive pulses is stuck. -/
def testPulse (passed : Contacts) (s : State) : State :=
  if s.safeOn = false then s
  else
    let used := inputsOf s.evaluated
    let high := (List.range 8).map fun k => used.getD k false && (inputsOf (s.levels passed)).getD k false
    let ok := inputsOf passed
    let was := inputsOf s.safe.passed
    let bad := inputsOf s.safe.failed
    let r := (List.range 8).map fun k => judgePulse (high.getD k false) (was.getD k false) (ok.getD k false)
    let stuck := (List.range 8).any fun k => high.getD k false && !ok.getD k false && bad.getD k false
    let s := s.setSafe { s.safe with passed := contactsOf (r.map Prod.fst), failed := contactsOf (r.map Prod.snd) }
    let s := s.firstLevels high
    if stuck then s.lockOut 2 else s

def execTestPulse (passed : Contacts) (s : State) : Host.Outcome State Fault Refusal := .next (testPulse passed s)

/-! ## Feedback (R329, R330) -/

/-- KFB_TIMEOUT: 50 ms after a change of SO its feedback does not match. -/
def kfbTimeout (s : State) : State :=
  match s.safe.soChange with
  | none => s
  | some t =>
    if s.safeOn && decide (t + msTicks 50 ≤ s.tick) then
      let s' := s.setSafe { s.safe with soChange := none }
      if s.kfbMatches then s' else s'.lockOut 3
    else s

def execKfbTimeout (s : State) : Host.Outcome State Fault Refusal := .next (kfbTimeout s)

/-- A change of KFBn: it follows a change of SO, or comes while SO is steady. -/
def kfbUnexpected (n : Nat) (high : Bool) (s : State) : State :=
  if s.safeOn && decide (n < 2) && s.soUsed n && (s.safeGet Fl.SAFE_STAT_KFB).testBit n != high then
    let s := s.putKfb n high
    if s.safe.soChange.isSome then (if s.kfbMatches then s.setSafe { s.safe with soChange := none } else s)
    else s.lockOut 4
  else s

def execKfbUnexpected (n : Nat) (high : Bool) (s : State) : Host.Outcome State Fault Refusal := .next (kfbUnexpected n high s)

def soReadback (s : State) : State := if s.safeOn then s.lockOut 5 else s
def execSoReadback (s : State) : Host.Outcome State Fault Refusal := .next (soReadback s)

def internalFault (s : State) : State := if s.safeOn then s.lockOut 6 else s
def execInternalFault (s : State) : Host.Outcome State Fault Refusal := .next (internalFault s)

/-! ## Deliberate reset (R331, R332) -/

/-- Every input a reset needs reads high and has passed its latest test pulse; no feedback changes at that edge while SO is steady,
and no demand is recognised at it (R331, R334). -/
def State.resetOk (s : State) (c : Contacts) : Bool :=
  let p := s.safe.passed
  c.estop && p.estop
    && (List.range 4).all (fun n => !(s.guardOn n && s.guardSo n) || (c.guards.getD n false && p.guards.getD n false))
    && (List.range 2).all (fun n => !s.soUsed n || (c.kfb.getD n false && p.kfb.getD n false
        && (s.safe.soChange.isSome || (s.safeGet Fl.SAFE_STAT_KFB).testBit n)))
    && s.safe.demandTick != some s.tick

/-- The staged configuration, as it stands in the block, brought into force (R332). -/
def State.takeSafeCfg (s : State) : State :=
  let w := s.safeCfg
  let s := s.safePut Fl.SAFE_STAT_GUARD_EN_ACT (getBits w 0 4)
  let s := s.safePut Fl.SAFE_STAT_GUARD_SO_ACT (getBits w 4 4)
  s.safePut Fl.SAFE_STAT_SO_USE_ACT (getBits w 8 2)

/-- The inputs with a demand in force that read high at a successful reset have returned: each writes its entry (R333). -/
def State.logReturns (s : State) (c : Contacts) : State :=
  let s := if s.safe.estop then s.logSafety 2 0 0 else s
  (List.range 4).foldl (fun s n =>
    if s.safe.guards.getD n false && c.guards.getD n false then s.logSafety 3 0 (2 ^ n) else s) s

/-- DELIBERATE_RESET: judged at the rising edge of SRST_N. One that does not succeed only counts (R331). -/
def deliberateReset (lowMs : Nat) (inputs : Contacts) (readbackOk selfOk : Bool) (s : State) : State :=
  if s.safeOn = false then s
  else if decide (100 ≤ lowMs) && decide (lowMs ≤ 2000) && s.resetOk inputs && readbackOk && selfOk then
    let s := ((s.putLevels inputs).logReturns inputs).takeSafeCfg.count Adr.SAFE_CNT Fl.SAFE_CNT_RST_OK 1
    let low := fun (n : Nat) => !inputs.guards.getD n false
    let s := s.setSafe { s.safe with
      estop := false, guards := (List.range 4).map fun n => s.safe.guards.getD n false && low n }
    let keep := (List.range 4).foldl (fun w n => putBit w n (s.safe.panels.testBit n && low n)) 0
    let s := (s.safePut Fl.SAFE_STAT_STATE 0).safePut Fl.SAFE_STAT_CAUSE 0
    let s := (s.putSo (s.safeGet Fl.SAFE_STAT_SO_USE_ACT)).putPanels false keep
    ((s.faultGone 0xD8).faultGone 0xD9).logSafety 4 1 keep
  else s.count Adr.SAFE_CNT Fl.SAFE_CNT_RST_BAD 1

def execDeliberateReset (lowMs : Nat) (inputs : Contacts) (readbackOk selfOk : Bool) (s : State) :
    Host.Outcome State Fault Refusal := .next (deliberateReset lowMs inputs readbackOk selfOk s)

end Sys2Proof.Machine
end

