-- ==== Sys2Proof/Machine/Stamp.lean ====
section
/-! DEFINITION. Stamp receivers and the record path up to the handoff (spec/09_arrival_stamping.md R165 to R185). -/

namespace Sys2Proof.Machine

/-! ## Ports and tiles -/

def State.srx (s : State) (p : Nat) : Srx := SMap.find {} s.exp.srx p
def State.setSrx (s : State) (p : Nat) (x : Srx) : State :=
  { s with exp := { s.exp with srx := SMap.put {} s.exp.srx p x } }
def State.tile (s : State) (t : Nat) : TilePath := SMap.find {} s.exp.tiles t
def State.setTile (s : State) (t : Nat) (x : TilePath) : State :=
  { s with exp := { s.exp with tiles := SMap.put {} s.exp.tiles t x } }

/-- The receiver exists and its bank is powered (R4, R165, R374). -/
def State.srxOn (s : State) (p : Nat) : Bool :=
  s.has .stampU && decide (p < numPorts s.variant) && s.powered (6 * (p / 128) + 4)

/-- The rate a RATE setting names: none = AUTO (R166). -/
def rateSetting (n : Nat) : Option Nat := if n < 2 then some n else none

/-! ## The stamp (R168, R169) -/

/-- The share of a phase adjustment that the next tick applies (R149), in 2⁻¹⁶ ns. -/
def Domain.share (d : Domain) : Int :=
  if d.adjK < d.adjN then ((d.adjK + 1 : Nat) * d.adjTotal) / (d.adjN : Int) - d.adjDone else 0

/-- Path delay of port `p` in 1/256 ns, and TEMP_DEFAULT (R169): `tpd` is the sum of the valid sensors of the group in
0.125 °C steps and their count. -/
def State.pathDelay (s : State) (p : Nat) : Int × Bool :=
  let r := SMap.find (0, 0) s.exp.tpd (p / 128)
  let delay : Int := (s.get (Adr.SRX_PDLY p) Fl.SRX_PDLY_DELAY : Nat)
  let tc := signed 16 (s.get (Adr.SRX_PTC p) Fl.SRX_PTC_TC)
  if r.2 = 0 then (delay, true)
  else (delay + roundDiv (tc * (r.1 - 480 * (r.2 : Int)) * 256) (8 * r.2 * 1000000), false)

/-- NS32 and FRAC8 of the instant `delta` × 0.1 ns into this tick, referred to the connector plane of port `p`. -/
def State.stampOf (s : State) (p delta : Nat) : Nat × Nat × Bool :=
  let d := s.now
  let pd := s.pathDelay p
  let t : Int := (16 * (d.total * 2 ^ 32 + d.frac) : Nat)
  let i : Int := (d.inc : Int) + d.share * 65536
  let z := wrap 40 ((t + (min delta 15 : Nat) * i) / (16 * 2 ^ 24 : Nat) - pd.1)
  (z / 256, z % 256, pd.2)

/-! ## Records (R175 to R180) -/

/-- The header word of a record: kind, domain, TQ, port and the bits from 16 up. -/
def headWord (kind dom tq port hi : Nat) : Nat := kind + 16 * dom + 32 * tq + 64 * port + 65536 * hi

def Rec.kind (r : Rec) : Nat := r.w.headD 0 % 16
def Rec.word (r : Rec) (i : Nat) : Nat := r.w.getD i 0
def Rec.seq (r : Rec) : Nat := r.word 1
def Rec.len (r : Rec) : Nat := r.word 3 / 65536
def Rec.digest (r : Rec) : Nat := r.word 4 + 2 ^ 32 * r.word 5
def Rec.isStamp (r : Rec) : Bool := r.kind == 0

/-- Bytes 0 to 27. -/
def Rec.body (r : Rec) : List Byte := fit 28 ((r.w.map (le 4)).flatten)

/-- The 32 bytes of a record, CHK formed over the final contents (R175). -/
def Rec.bytes (r : Rec) : List Byte := r.body ++ le 4 (crc32c r.body).toNat

def b2n (x : Bool) : Nat := if x then 1 else 0

/-- A LINK record (R178). -/
def linkRec (s : State) (p lock rate merged ns32 frac8 : Nat) : Rec :=
  ⟨[headWord 6 (domIx s.sdom) s.tq p (lock + 2 * rate + 4 * merged), s.get (Adr.SRX_SEQ p) Fl.SRX_SEQ_NEXT, ns32, frac8,
    s.get (Adr.SRX_STAT p) Fl.SRX_STAT_LOCKSEQ, 0, 0], p, s.tick, false⟩

/-- A LOSS record formed now (R179). -/
def lossRec (s : State) (point port first last count extra : Nat) : Rec :=
  ⟨[headWord 2 (domIx s.sdom) s.tq port (point + extra), first, s.ns32, s.frac8, last, min 0xffffffff count, 0],
    port, s.tick, false⟩

/-- A WRAP record of the frame that received SEQ 0 (R177). -/
def wrapRec (s : State) (p : Nat) (f : Frame) : Rec :=
  ⟨[headWord 1 f.dom f.tq p 0, 0, f.ns32, f.frac8 + 256 * f.rate, s.get (Adr.SRX_EPOCH p) Fl.SRX_EPOCH_EPOCH, 0, 0], p, f.tick, false⟩

/-- One half of an ANCHOR (R180). -/
def anchorRec (s : State) (d : Dom) : Rec :=
  let x := s.time.dom d
  ⟨[headWord 3 (domIx d) (b2n (s.tqOf d == 2)) 0 (s.tqOf d + 4 * b2n x.setf + 8 * domIx s.sdom), x.ns32, x.ns,
    x.sec % 2 ^ 32, x.sec / 2 ^ 32 % 65536 + 65536 * (s.time.anum % 65536), s.tick % 2 ^ 32, s.tick / 2 ^ 32 % 2 ^ 32], 0, s.tick, false⟩

/-! ## FIFOs with reserved slots (R183, R184) -/

/-- LINK events that meet in one slot: the later state and time, MERGED set, in the place of the first. -/
def mergeLink (r : Rec) (l : List Rec) : List Rec :=
  l.map fun x => if x.kind = 6 ∧ x.port = r.port then
    { r with w := (r.word 0 ||| 2 ^ 18) :: r.w.drop 1 } else x

/-- POINT of a LOSS record (R179). -/
def Rec.point (r : Rec) : Nat := r.word 0 / 65536 % 4

/-- A LOSS record of port `p` at a point. -/
def Rec.lossOf (r : Rec) (point p : Nat) : Bool := r.kind == 2 && r.port == p && r.point == point

/-- LOSS counts of one point that meet in one slot: COUNT added, LAST_SEQ moved. -/
def mergeLoss (point p last count : Nat) (l : List Rec) : List Rec :=
  l.map fun x => if x.lossOf point p then
    { x with w := [x.word 0, x.word 1, x.word 2, x.word 3, last, min 0xffffffff (x.word 5 + count), 0] } else x

/-- A record that is never dropped placed in a FIFO. -/
def placeCtl (r : Rec) (l : List Rec) : List Rec :=
  if r.kind = 6 ∧ l.any (fun x => x.kind == 6 && x.port == r.port) then mergeLink r l
  else if r.kind = 2 ∧ l.any (fun x => x.lossOf r.point r.port) then mergeLoss r.point r.port (r.word 4) (r.word 5) l
  else l ++ [r]

def stampCount (l : List Rec) : Nat := (l.filter Rec.isStamp).length

/-- A sequence number before another, in the order of SEQ32 across its wrap. -/
def seqBefore (a b : Nat) : Bool := a != b && decide ((b + 2 ^ 32 - a) % 2 ^ 32 < 2 ^ 31)

/-- A drop added to an account: its first and last SEQ32 in the order of the port. -/
def DropAcc.add (d : DropAcc) (seq tick : Nat) : DropAcc :=
  { first := if d.count = 0 || seqBefore seq d.first then seq else d.first
    last := if d.count = 0 || seqBefore d.last seq then seq else d.last
    count := d.count + 1, tick := if d.count = 0 then tick else d.tick }

/-- Where the records of a dropping point wait: the tile's FIFO, or the aggregator's intake. -/
def TilePath.at (t : TilePath) (point : Nat) : List Rec := if point = 0 then t.fifo else t.intake
def TilePath.put (t : TilePath) (point : Nat) (l : List Rec) : TilePath :=
  if point = 0 then { t with fifo := l } else { t with intake := l }

/-- A STAMP record dropped at point 0x0 (the tile bridge) or 0x1 (the aggregator): SRX_DROP, BR_DROPt or AGG_DROP (R183). It
adds to the LOSS record of its port that waits at the point, or to those not yet reported there (R184). -/
def State.dropRec (s : State) (point : Nat) (r : Rec) : State :=
  let s := (s.count (Adr.SRX_DROP r.port) Fl.SRX_DROP_DROPPED 1).hubEvent 0x0B 1
  let s := if point = 0 then s.count (Adr.BR_DROP (r.port / 128)) Fl.BR_DROP_COUNT 1 else s.count Adr.AGG_DROP Fl.AGG_DROP_COUNT 1
  let t := s.tile (r.port / 128)
  match (t.at point).find? fun y => y.lossOf point r.port with
  | some y =>
    let last := if seqBefore (y.word 4) r.seq then r.seq else y.word 4
    s.setTile (r.port / 128) (t.put point (mergeLoss point r.port last 1 (t.at point)))
  | none =>
    let x := s.srx r.port
    if point = 0 then s.setSrx r.port { x with drop0 := x.drop0.add r.seq s.tick }
    else s.setSrx r.port { x with drop1 := x.drop1.add r.seq s.tick }

/-- The LOSS record of port `p` at a point, where drops wait to be reported (R184). -/
def State.formLoss (s : State) (point p : Nat) : State :=
  let x := s.srx p
  let d := if point = 0 then x.drop0 else x.drop1
  if d.count = 0 then s else
  let r := lossRec s point p d.first d.last d.count 0
  let t := s.tile (p / 128)
  if point = 0 then (s.setTile (p / 128) { t with fifo := placeCtl r t.fifo }).setSrx p { x with drop0 := {} }
  else (s.setTile (p / 128) { t with intake := placeCtl r t.intake }).setSrx p { x with drop1 := {} }

/-- A record of a receiver enters its tile's FIFO of 4,096 records, or is dropped at point 0x0 (R183, R184). -/
def State.toFifo (s : State) (r : Rec) : State :=
  let t := s.tile (r.port / 128)
  if r.isStamp then
    if 4096 ≤ stampCount t.fifo then s.dropRec 0 r
    else
      let s := s.formLoss 0 r.port
      let c := s.checkRec (0x98 + r.port / 128) r
      let t := c.2.tile (r.port / 128)
      c.2.setTile (r.port / 128) { t with fifo := t.fifo ++ [c.1] }
  else s.setTile (r.port / 128) { t with fifo := placeCtl r t.fifo }

/-- A record enters its tile's intake of 1,024 records, or is dropped at point 0x1 (R183). -/
def State.toIntake (s : State) (t : Nat) (r : Rec) : State :=
  let x := s.tile t
  if r.isStamp then
    if 1024 ≤ stampCount x.intake then s.dropRec 1 r
    else
      let s := s.formLoss 1 r.port
      let x := s.tile t
      s.setTile t { x with intake := x.intake ++ [r] }
  else s.setTile t { x with intake := placeCtl r x.intake }

/-! ## Match rules and digest (R171 to R174) -/

/-- An enabled rule matches a frame of `len` bytes that begins with `bs` (R171). -/
def Rule.hits (r : Rule) (bs : List Byte) (len : Nat) : Bool :=
  r.en && decide (r.off + 4 ≤ len) && decide (r.lenMin ≤ len ∧ len ≤ r.lenMax) &&
    (ofBE (fit 4 (bs.drop r.off)) &&& r.mask) == (r.value &&& r.mask)

/-- The first rule that matches, and its number. -/
def firstRule (rs : List Rule) (bs : List Byte) (len : Nat) : Option (Rule × Nat) :=
  rs.zipIdx.find? fun r => r.1.hits bs len

/-- The bytes a digest covers, and SHORT_DIG (R173). -/
def digestWindow (bs : List Byte) (len off n : Nat) : List Byte × Bool :=
  (((bs.take len).drop off).take n, decide (len < off + n))

/-! ## Frames -/

/-- The record of a frame that ended (R176). -/
def stampRec (p : Nat) (f : Frame) (bs : List Byte) (len : Nat) (how : FrameEnd) (r : Rule) (n : Nat) : Rec :=
  let dw := digestWindow bs len f.digOff f.digLen
  let dig := match f.key with | some k => (sipHash24 k dw.1).toNat | none => 0
  let err := match how with | .errored => 1 | _ => 0
  let bad := match how with | .terminate ok => b2n (!ok) | _ => 0
  let long := match how with | .tooLong => 1 | _ => 0
  let hi := n + 8 * b2n r.yellow + 128 * b2n f.key.isNone + 256 * b2n (f.key.isSome && dw.2) + 512 * b2n f.l4 + 1024 * err
    + 2048 * bad + 4096 * long + 8192 * b2n f.frDefault + 16384 * b2n f.tempDefault
  ⟨[headWord 0 f.dom f.tq p hi, f.seq, f.ns32, f.frac8 + 256 * f.rate + 65536 * len, dig % 2 ^ 32, dig / 2 ^ 32,
    f.lockseq + 65536 * f.keyseq], p, f.tick, false⟩

/-- The open frame of port `p` ends: rules judged, digest completed, record passed to the tile FIFO (R167, R171). -/
def State.endFrame (s : State) (p : Nat) (bs : List Byte) (len : Nat) (how : FrameEnd) : State :=
  let x := s.srx p
  match x.frame with
  | none => s
  | some f =>
    let s := s.setSrx p { x with frame := none }
    let len := min len 65535
    match firstRule f.rules bs len with
    | none => s.count (Adr.SRX_UNM p) Fl.SRX_UNM_UNMATCHED 1
    | some (r, n) => s.toFifo (stampRec p f bs len how r n)

/-- Acquisition starts: at the set rate, or with AUTO at the rate last locked, else 25GBASE-R (R166). -/
def State.acquire (s : State) (p : Nat) : State :=
  let x := s.srx p
  let rate := (rateSetting (s.get (Adr.SRX_CFG p) Fl.SRX_CFG_RATE)).getD (x.lastRate.getD 1)
  let s := s.putFlag (Adr.SRX_STAT p) Fl.SRX_STAT_ACQ true
  s.setSrx p { x with tryRate := rate, tryTick := s.tick }

/-- Block lock ends: an open frame ends with ERR, a LINK record is formed, LOCK_LOSS counts where the lock was lost
(R167, R178). -/
def State.unlock (s : State) (p ns32 frac8 : Nat) (bs : List Byte) (len : Nat) (counted : Bool) : State :=
  let s := s.endFrame p bs len .errored
  let rate := s.get (Adr.SRX_STAT p) Fl.SRX_STAT_RATE_ACT
  let s := s.putFlag (Adr.SRX_STAT p) Fl.SRX_STAT_LOCK false
  let s := if counted then s.count (Adr.SRX_ERR p) Fl.SRX_ERR_LOCK_LOSS 1 else s
  s.toFifo (linkRec s p 0 rate 0 ns32 frac8)

/-- The disabling of a receiver takes effect (R182). -/
def State.disableSrx (s : State) (p ns32 frac8 : Nat) : State :=
  let s := if s.flag (Adr.SRX_STAT p) Fl.SRX_STAT_LOCK then s.unlock p ns32 frac8 [] 0 false else s
  let s := s.putFlag (Adr.SRX_STAT p) Fl.SRX_STAT_ACQ false
  s.setSrx p { s.srx p with disablePend := false }

/-- Ticks of a policer window (R191). -/
def windowTicks : Nat := 6250000

/-- The window of tick `k` among those that count, made when it is not there yet. -/
def Policer.window (p : Policer) (k : Nat) : PolWin :=
  (p.wins.find? fun w => w.wnum == k / windowTicks).getD
    { wnum := k / windowTicks, applied := p.applyWin == some (k / windowTicks) }

def Policer.setWindow (p : Policer) (w : PolWin) : Policer :=
  { p with wins := (p.wins.filter fun x => x.wnum < w.wnum) ++ w :: (p.wins.filter fun x => w.wnum < x.wnum) }

/-- EN of a receiver was 1 at some moment of the window of this tick (R191). -/
def State.noteWindow (s : State) (p : Nat) : State :=
  let x := s.srx p
  s.setSrx p { x with pol := x.pol.setWindow (x.pol.window s.tick) }

/-! ## Meanings -/

/-- BLOCK_LOCK_GAINED (R166, R167, R178): a receiver that acquires locks at the rate being tried. -/
def blockLockGained (p delta : Nat) (s : State) : State :=
  if !s.srxOn p || !s.flag (Adr.SRX_STAT p) Fl.SRX_STAT_ACQ then s else
  let x := s.srx p
  let st := s.stampOf p delta
  let s := s.setSrx p { x with lastRate := some x.tryRate }
  let s := s.putFlag (Adr.SRX_STAT p) Fl.SRX_STAT_LOCK true
  let s := s.put (Adr.SRX_STAT p) Fl.SRX_STAT_RATE_ACT x.tryRate
  let s := s.putFlag (Adr.SRX_STAT p) Fl.SRX_STAT_ACQ false
  let s := s.countWrap (Adr.SRX_STAT p) Fl.SRX_STAT_LOCKSEQ 1
  s.toFifo (linkRec s p 1 x.tryRate 0 st.1 st.2.1)

def execBlockLockGained (p delta : Nat) (s : State) : Host.Outcome State Fault Refusal := .next (blockLockGained p delta s)

/-- BLOCK_LOCK_LOST (R166, R167, R178): 16 invalid sync headers within 64; acquisition resumes at the rate that was lost. -/
def blockLockLost (p delta : Nat) (bytes : List Byte) (len : Nat) (s : State) : State :=
  if !s.srxOn p || !s.flag (Adr.SRX_STAT p) Fl.SRX_STAT_LOCK then s else
  let st := s.stampOf p delta
  let s := s.count (Adr.SRX_ERR p) Fl.SRX_ERR_BLK_ERR 16
  let s := s.unlock p st.1 st.2.1 bytes len true
  if (s.srx p).disablePend then s.disableSrx p st.1 st.2.1
  else
    let x := s.srx p
    let s := s.putFlag (Adr.SRX_STAT p) Fl.SRX_STAT_ACQ true
    s.setSrx p { x with tryRate := x.lastRate.getD 1, tryTick := s.tick }

def execBlockLockLost (p delta : Nat) (bytes : List Byte) (len : Nat) (s : State) : Host.Outcome State Fault Refusal :=
  .next (blockLockLost p delta bytes len s)

/-- AUTO_RATE_TRY (R166): with RATE = AUTO, 4 ms without lock, the receiver tries the other rate. -/
def autoRateTry (p : Nat) (s : State) : State :=
  let x := s.srx p
  if s.srxOn p && s.flag (Adr.SRX_STAT p) Fl.SRX_STAT_ACQ
      && (rateSetting (s.get (Adr.SRX_CFG p) Fl.SRX_CFG_RATE)).isNone && decide (x.tryTick + msTicks 4 ≤ s.tick) then
    s.setSrx p { x with tryRate := 1 - x.tryRate, tryTick := s.tick }
  else s

def execAutoRateTry (p : Nat) (s : State) : Host.Outcome State Fault Refusal := .next (autoRateTry p s)

/-- FRAME_START (R168, R177, R181): the frame is stamped and takes its SEQ32; a frame still open ends with ERR first. -/
def frameStart (p : Nat) (lane4 : Bool) (delta : Nat) (bytes : List Byte) (len : Nat) (s : State) : State :=
  if !s.srxOn p || !s.flag (Adr.SRX_STAT p) Fl.SRX_STAT_LOCK then s else
  let st := s.stampOf p delta
  let s := s.endFrame p bytes len .errored
  if (s.srx p).disablePend then s.disableSrx p st.1 st.2.1 else
  let x := s.srx p
  let seq := s.get (Adr.SRX_SEQ p) Fl.SRX_SEQ_NEXT
  let f : Frame := {
    seq := seq, tick := s.tick, ns32 := st.1, frac8 := st.2.1, dom := domIx s.sdom, tq := s.tq, l4 := lane4
    rate := s.get (Adr.SRX_STAT p) Fl.SRX_STAT_RATE_ACT, lockseq := s.get (Adr.SRX_STAT p) Fl.SRX_STAT_LOCKSEQ
    keyseq := s.get (Adr.SRX_STAT p) Fl.SRX_STAT_KEYSEQ, key := x.key
    frDefault := s.flag (Adr.SRX_STAT p) Fl.SRX_STAT_FR_DEFAULT, tempDefault := st.2.2
    rules := x.rules, digOff := x.digOff, digLen := x.digLen }
  let s := s.countWrap (Adr.SRX_SEQ p) Fl.SRX_SEQ_NEXT 1
  let wraps := x.wrapPend && seq == 0
  let s := s.setSrx p { x with frame := some f, wrapPend := seq == 0xffffffff }
  if wraps then
    let s := s.countWrap (Adr.SRX_EPOCH p) Fl.SRX_EPOCH_EPOCH 1
    s.toFifo (wrapRec s p f)
  else s

def execFrameStart (p : Nat) (lane4 : Bool) (delta : Nat) (bytes : List Byte) (len : Nat) (s : State) :
    Host.Outcome State Fault Refusal := .next (frameStart p lane4 delta bytes len s)

/-- FRAME_END (R167, R171, R173, R182): the open frame ends; a disable that waited for it takes effect. -/
def frameEnd (p : Nat) (bytes : List Byte) (len : Nat) (how : FrameEnd) (delta : Nat) (s : State) : State :=
  if !s.srxOn p || (s.srx p).frame.isNone then s else
  let st := s.stampOf p delta
  let s := s.endFrame p bytes len (if 65535 ≤ len then .tooLong else how)
  if (s.srx p).disablePend then s.disableSrx p st.1 st.2.1 else s

def execFrameEnd (p : Nat) (bytes : List Byte) (len : Nat) (how : FrameEnd) (delta : Nat) (s : State) :
    Host.Outcome State Fault Refusal := .next (frameEnd p bytes len how delta s)

/-- SRX_EN (R166, R182): a write of SRX_CFG.EN. -/
def srxEn (p : Nat) (v : Word) (s : State) : State :=
  if !s.srxOn p then s else
  let was := s.flag (Adr.SRX_CFG p) Fl.SRX_CFG_EN
  let now := v.getLsbD 0
  let s := if was || now then s.noteWindow p else s
  let s := s.putFlag (Adr.SRX_CFG p) Fl.SRX_CFG_EN now
  if now then
    let s := s.setSrx p { s.srx p with disablePend := false }
    if was then s else if s.flag (Adr.SRX_STAT p) Fl.SRX_STAT_LOCK then s else s.acquire p
  else if (s.srx p).frame.isSome then s.setSrx p { s.srx p with disablePend := true }
  else
    let st := s.stampOf p 0
    s.disableSrx p st.1 st.2.1

def execSrxEn (p : Nat) (v : Word) (s : State) : Host.Outcome State Fault Refusal := .next (srxEn p v s)

/-- SRX_RATE (R166): a write of SRX_CFG.RATE takes effect at once; a lock at a rate it excludes is lost. -/
def srxRate (p : Nat) (v : Word) (bytes : List Byte) (len : Nat) (s : State) : State :=
  if !s.srxOn p then s else
  let n := getBits v 1 2
  let s := s.put (Adr.SRX_CFG p) Fl.SRX_CFG_RATE n
  let locked := s.flag (Adr.SRX_STAT p) Fl.SRX_STAT_LOCK
  if locked then
    match rateSetting n with
    | none => s
    | some r =>
      if r = s.get (Adr.SRX_STAT p) Fl.SRX_STAT_RATE_ACT then s
      else
        let st := s.stampOf p 0
        let s := s.unlock p st.1 st.2.1 bytes len true
        if (s.srx p).disablePend then s.disableSrx p st.1 st.2.1 else s.acquire p
  else if s.flag (Adr.SRX_STAT p) Fl.SRX_STAT_ACQ then s.acquire p
  else s

def execSrxRate (p : Nat) (v : Word) (bytes : List Byte) (len : Nat) (s : State) : Host.Outcome State Fault Refusal :=
  .next (srxRate p v bytes len s)

/-- The staged rule `r` of port `p` (R171). -/
def State.stagedRule (s : State) (p r : Nat) : Rule :=
  let b := Adr.SRX_RULE p r
  { en := s.flag b Fl.SRX_RULE_EN, yellow := s.flag b Fl.SRX_RULE_COLOUR, off := s.get b Fl.SRX_RULE_OFF
    value := s.get b Fl.SRX_RULE_VALUE, mask := s.get b Fl.SRX_RULE_MASK
    lenMin := s.get b Fl.SRX_RULE_LEN_MIN, lenMax := s.get b Fl.SRX_RULE_LEN_MAX }

/-- The rate of the receiver's block clock: that of the lock, the one being tried, or while disabled the set one, with
25GBASE-R for AUTO (R172). -/
def State.clockRate (s : State) (p : Nat) : Nat :=
  if s.flag (Adr.SRX_STAT p) Fl.SRX_STAT_LOCK then s.get (Adr.SRX_STAT p) Fl.SRX_STAT_RATE_ACT
  else if s.flag (Adr.SRX_STAT p) Fl.SRX_STAT_ACQ then (s.srx p).tryRate
  else (rateSetting (s.get (Adr.SRX_CFG p) Fl.SRX_CFG_RATE)).getD 1

/-- The tick from which what is sent into a receiver's island now holds there: 2 to 3 cycles of its block clock, 12.8 to 19.2 ns
at 10GBASE-R and 5.12 to 7.68 ns at 25GBASE-R, where in the range is open (R22, R23). -/
def State.crossTick (s : State) (p pick : Nat) : Nat := s.tick + if s.clockRate p = 0 then 8 + pick % 6 else 4 + pick % 3

/-- The staged rules and digest range of port `p` in force (R172). -/
def State.takeStaged (s : State) (p : Nat) : State :=
  let s := s.putFlag (Adr.SRX_STAT p) Fl.SRX_STAT_APPLY_PEND false
  s.setSrx p { s.srx p with
    applyAt := none, rules := (List.range 8).map (s.stagedRule p), digOff := s.get (Adr.SRX_CFG p) Fl.SRX_CFG_DIG_OFF
    digLen := min 64 (s.get (Adr.SRX_CFG p) Fl.SRX_CFG_DIG_LEN) }

/-- SRX_APPLY (R172): APPLY_PEND is set until the write has crossed; the staged set is then copied, for frames that start
afterwards. A write while one is crossing joins it. -/
def srxApply (p : Nat) (s : State) : State :=
  if !s.srxOn p || (s.srx p).applyAt.isSome then s else
  let r := s.draw
  let s := r.2.putFlag (Adr.SRX_STAT p) Fl.SRX_STAT_APPLY_PEND true
  s.setSrx p { s.srx p with applyAt := some (s.crossTick p r.1) }

def execSrxApply (p : Nat) (s : State) : Host.Outcome State Fault Refusal := .next (srxApply p s)

/-- SEC_STAT.KEYS: ports with a digest key in force. -/
def State.showKeys (s : State) : State :=
  s.put Adr.SEC_STAT Fl.SEC_STAT_KEYS (s.exp.srx.filter fun e => e.2.key.isSome).length

/-- A digest key in force in the island of port `p`, or none: KEYSEQ advances (R174). -/
def State.takeKey (s : State) (p : Nat) (k : Option (List Byte)) : State :=
  let s := s.setSrx p { s.srx p with key := k }
  let s := s.putFlag (Adr.SRX_STAT p) Fl.SRX_STAT_KEY_SET k.isSome
  let s := s.countWrap (Adr.SRX_STAT p) Fl.SRX_STAT_KEYSEQ 1
  s.showKeys

/-- KEYSEQ once every key on its way to port `p` is in force. -/
def State.keySeq (s : State) (p : Nat) : Nat := (s.get (Adr.SRX_STAT p) Fl.SRX_STAT_KEYSEQ + (s.srx p).keyAt.length) % 256

/-- A digest key set or removed (R174): sealed now, and on its way into the receiver's island, for frames that start once it has
crossed. -/
def State.setKey (s : State) (p : Nat) (k : Option (List Byte)) : State :=
  let r := s.draw
  let s := r.2
  let due := max (s.crossTick p r.1) (((s.srx p).keyAt.getLast?.map Prod.fst).getD 0)
  let s := s.setSrx p { s.srx p with keyAt := (s.srx p).keyAt ++ [(due, k)] }
  let b := s.boot
  let rest := b.keyed.filter (· != p)
  let s := s.setBoot { b with keyed := if k.isSome then rest ++ [p] else rest }
  s.seal fun x => { x with digestKeys :=
    match k with
    | some k => SMap.insert x.digestKeys p k
    | none => SMap.erase x.digestKeys p }

/-- What has crossed into the receivers' islands by this tick comes into force (R172, R174). -/
def State.crossings (s : State) : State :=
  s.exp.srx.foldl (fun s e =>
    let x := e.2
    let s := match x.applyAt with
      | some t => if t ≤ s.tick then s.takeStaged e.1 else s
      | none => s
    let here := x.keyAt.filter fun k => decide (k.1 ≤ s.tick)
    if here.isEmpty then s
    else
      let s := s.setSrx e.1 { s.srx e.1 with keyAt := x.keyAt.filter fun k => !decide (k.1 ≤ s.tick) }
      here.foldl (fun s k => s.takeKey e.1 k.2) s) s

/-- TILE_LINK_TRANSFER (R21, R183): the tile bridge carries the oldest record of its FIFO to the aggregator's intake; one with
bad parity is dropped at point 0x0 (R313). An injected code error is repaired by one repeat; one of the retry checker is not, and the
record stays (log 38). -/
def tileLinkTransfer (t : Nat) (s : State) : State :=
  let x := s.tile t
  match x.fifo with
  | [] => s
  | r :: rest =>
    let f := s.checkPass (0x94 + t)
    if f.1 then f.2.assertFault (0x94 + t) { access := 1, master := 0x0A + t } false else
    let c := f.2.checkPass (0x90 + t)
    let s := if c.1 then c.2.assertFault (0x90 + t) { access := 1, master := 0x0A + t } false else c.2
    let s := s.setTile t { x with fifo := rest }
    if r.bad then (s.dropRec 0 r).assertFault (0x98 + t) { access := 0, master := 0x0A + t } false else s.toIntake t r

def execTileLinkTransfer (t : Nat) (s : State) : Host.Outcome State Fault Refusal := .next (tileLinkTransfer t s)

/-- A STAMP record still unqueued 1 s after its stamp (R183). -/
def agedOut (s : State) (r : Rec) : Bool := r.isStamp && decide (r.tick + 625000000 ≤ s.tick)

/-- RECORD_AGE_DROP (R183): the aged STAMP records of a tile are dropped at point 0x1. -/
def recordAgeDrop (t : Nat) (s : State) : State :=
  let x := s.tile t
  let old := (x.intake ++ x.fifo).filter (agedOut s)
  let s1 := s.setTile t { fifo := x.fifo.filter fun r => !agedOut s r, intake := x.intake.filter fun r => !agedOut s r }
  old.foldl (fun s r => s.dropRec 1 r) s1

def execRecordAgeDrop (t : Nat) (s : State) : Host.Outcome State Fault Refusal := .next (recordAgeDrop t s)

/-- LOSS_RECORD (R184): 100 µs after the first drop that it counts, a dropping point forms the LOSS record of a port. -/
def lossRecord (point p : Nat) (s : State) : State :=
  let x := s.srx p
  let d := if point = 0 then x.drop0 else x.drop1
  if point < 2 ∧ 0 < d.count ∧ d.tick + usTicks 100 ≤ s.tick then s.formLoss point p else s

def execLossRecord (point p : Nat) (s : State) : Host.Outcome State Fault Refusal := .next (lossRecord point p s)

end Sys2Proof.Machine
end

