-- ==== Sys2Proof/Machine/ExportOps.lean ====
section
/-! DEFINITION. Record queues and the record buffer (spec/10_record_policing_and_export.md R192, R193, R198): opening
and closing a queue, accepting and dropping records, anchors, and the observation of a queue. -/

namespace Sys2Proof.Machine

def State.queue? (s : State) (q : Nat) : Option Queue := (s.exp.queues.find? (fun e => e.1 == q)).map Prod.snd
def State.setQueue (s : State) (q : Nat) (x : Queue) : State :=
  { s with exp := { s.exp with queues := SMap.insert s.exp.queues q x } }
def State.onQueue (s : State) (q : Nat) (f : Queue → Queue) : State :=
  match s.queue? q with
  | some x => s.setQueue q (f x)
  | none => s
def State.queueIds (s : State) : List Nat := s.exp.queues.map Prod.fst

/-- Record buffer in MiB: 12 GiB, or 6 GiB on 8 GiB parts (R192). -/
def bufferMiB (v : Variant) : Nat := if Variant.isSmall v then 0x1800 else 0x3000

def State.share (s : State) (q : Nat) : Nat := s.get (Adr.QW q) Fl.QW_SHARE
def State.reserved (s : State) : Nat := (s.queueIds.map s.share).foldl (· + ·) 0

/-- POOL_FREE and OPEN_Q rewritten (R192). -/
def State.poolStat (s : State) : State :=
  (s.put Adr.EXP Fl.EXP_POOL_FREE (bufferMiB s.variant - s.reserved)).put Adr.EXP Fl.EXP_OPEN_Q s.queueIds.length

/-- The channel of a queue by its session's carrier (R192): 0 = PCIe DMA, 1 = ETH0, 2 = ETH1. -/
def carrierChannel (c : Nat) : Nat := if c < 2 then 0 else c - 1

def State.chan (s : State) (q : Nat) : Nat := s.get (Adr.QW q) Fl.QW_CHANNEL
def State.vtime (s : State) (ch : Nat) : Nat := if ch = 0 then s.exp.v0 else if ch = 1 then s.exp.v1 else s.exp.v2
def State.setVtime (s : State) (ch v : Nat) : State :=
  if ch = 0 then { s with exp := { s.exp with v0 := v } }
  else if ch = 1 then { s with exp := { s.exp with v1 := v } } else { s with exp := { s.exp with v2 := v } }

/-- The largest of two finish times in serial arithmetic modulo 2⁶⁴ (R194). -/
def serialMax (a b : Nat) : Nat := if (a + 2 ^ 64 - b) % 2 ^ 64 < 2 ^ 63 then a else b

/-- The finish time of a record that becomes the head of `q` (R194). -/
def State.finish (s : State) (q : Nat) (x : Queue) : Nat :=
  (serialMax (s.vtime (s.chan q)) x.fPrev + 2097152 / max 1 (s.get (Adr.QW q) Fl.QW_WEIGHT)) % 2 ^ 64

/-- A queue opens (R192): its window takes the reset values, QPOS is 0, its bucket is full. Nothing where EXPORT is absent. -/
def State.openQueue (s : State) (q ch : Nat) (shadow : Bool) : State :=
  if s.has .exportU = false then s else
  let s := s.resetRegs fun a => decide (Adr.QW q ≤ a ∧ a < Adr.QW q + 0x40)
  let s := (s.put (Adr.QW q) Fl.QW_CHANNEL ch).put (Adr.QW q) Fl.QW_OPEN 1
  let x : Queue := { shadow := shadow, fPrev := s.vtime ch, bucket := s.get (Adr.QW q) Fl.QW_SH_SIZE * 65536 }
  (s.setQueue q x).poolStat

/-- A queue closes: its records are discarded and its space freed (R192). -/
def State.closeQueue (s : State) (q : Nat) : State :=
  if (s.queue? q).isNone then s else
  let s := s.put (Adr.QW q) Fl.QW_OPEN 0
  let fc := s.exp.fcWait.filter fun w => w.2 != q
  State.poolStat { s with exp := { s.exp with queues := SMap.erase s.exp.queues q, fcWait := fc } }

/-- The marks reader `r` keeps are gone with it: every queue forgets them (R242). -/
def State.dropMarks (s : State) (r : Nat) : State :=
  { s with exp := { s.exp with queues := s.exp.queues.map fun e => (e.1, { e.2 with marks := SMap.erase e.2.marks r }) } }

/-- The largest depth, applied to the marks of every reader (R198). -/
def Queue.markDepth (x : Queue) (d : Nat) : Queue :=
  { x with all := { x.all with depth := max x.all.depth d }
           marks := x.marks.map fun m => (m.1, { m.2 with depth := max m.2.depth d }) }

def Queue.markDelay (x : Queue) (d : Nat) : Queue :=
  let d := min 0xffffffff d
  { x with all := { x.all with delay := max x.all.delay d }
           marks := x.marks.map fun m => (m.1, { m.2 with delay := max m.2.delay d }) }

/-- The marks a reader sees: its own since its last read, else those since the queue opened. -/
def Queue.seen (x : Queue) (reader : Nat) : Marks := SMap.find x.all x.marks reader

/-- On a 512-port variant Q_DEPTH and Q_DELAY keep the marks of the privileged view (R198). -/
def State.regMark (s : State) (q depth delay : Nat) : State :=
  if Variant.isSmall s.variant then s
  else
    let s := s.put (Adr.QW q) Fl.QW_Q_DEPTH (max depth (s.get (Adr.QW q) Fl.QW_Q_DEPTH))
    s.put (Adr.QW q) Fl.QW_Q_DELAY (max (min 0xffffffff delay) (s.get (Adr.QW q) Fl.QW_Q_DELAY))

/-- Records of the buffer a queue holds: those in reserved slots count apart (R192). -/
def Queue.normal (x : Queue) : Nat := (x.items.filter fun i => i.slot == 0).length
def Queue.hasSlot (x : Queue) (n : Nat) : Bool := x.items.any fun i => i.slot == n

/-- A record accepted into a slot of the queue: QPOS advances, the depth is marked, a new head takes its F. -/
def State.accept (s : State) (q slot : Nat) (r : Rec) : State :=
  match s.queue? q with
  | none => s
  | some x =>
    let pos := s.getPair (Adr.QW q) Fl.QW_QPOS_LO Fl.QW_QPOS_HI
    let s := s.putPair (Adr.QW q) Fl.QW_QPOS_LO Fl.QW_QPOS_HI (pos + 1)
    let x := { x with f := if x.items.isEmpty then some (s.finish q x) else x.f
                      items := x.items ++ [(⟨r, s.tick, slot, pos % 2 ^ 64⟩ : QItem)] }
    let x := x.markDepth x.items.length
    (s.setQueue q x).regMark q x.items.length 0

/-- The point-0x2 LOSS record of a queue enters it (R193), in its reserved slot; while an earlier one takes that slot it is due as
soon as the slot frees. -/
def State.queueLoss (s : State) (q : Nat) : State :=
  match s.queue? q with
  | none => s
  | some x =>
    if x.lost = 0 then s
    else if x.hasSlot 1 then s.setQueue q { x with lossDue := true }
    else
      let r := lossRec s 2 0 0 0 x.lost (4 * b2n x.ctlLost)
      (s.setQueue q { x with lost := 0, ctlLost := false, lossDue := false }).accept q 1 r

/-- The LOSS slot of a queue may have freed: the next LOSS record enters where one of its instants has come (R193). -/
def State.lossFreed (s : State) (q : Nat) : State :=
  match s.queue? q with
  | none => s
  | some x => if !x.hasSlot 1 && (x.lossDue || decide (x.lostTick + usTicks 100 ≤ s.tick)) then s.queueLoss q else s

/-- The arriving record is dropped (R192, R193). -/
def State.dropAtQueue (s : State) (q : Nat) (r : Rec) : State :=
  let s := (s.count (Adr.QW q) Fl.QW_Q_DROP 1).hubEvent 0x0B 1
  s.onQueue q fun x => { x with
    lost := x.lost + 1, ctlLost := x.ctlLost || !r.isStamp, lostTick := if x.lost = 0 then s.tick else x.lostTick
    lossDue := x.lossDue && x.lost != 0
    dropAll := min 0xffffffff (x.dropAll + 1)
    all := { x.all with drops := min 0xffffffff (x.all.drops + 1) }
    marks := x.marks.map fun m => (m.1, { m.2 with drops := min 0xffffffff (m.2.drops + 1) }) }

/-- A queue left with these of its records unsent: a record that so becomes its head has its finish time formed then (R194). -/
def State.reHead (s : State) (q : Nat) (x : Queue) (items : List QItem) : Queue :=
  let y := { x with items := items }
  { y with f := if items.isEmpty then none else if items.head? = x.items.head? then x.f else some (s.finish q y) }

/-- Records with bad parity among the first `n` of queue `q`, as they are read for sending: each is discarded from every queue
that links it, counted and reported with CTL_LOST, and DRAM_REC asserts (R313). -/
def State.purge (s : State) (q n : Nat) : State :=
  match s.queue? q with
  | none => s
  | some x =>
    ((x.items.take n).filter fun i => i.r.bad).foldl (fun s i =>
      let s := s.queueIds.foldl (fun s p =>
        match s.queue? p with
        | none => s
        | some y =>
          if y.items.any fun j => j.r == i.r then
            let s := (s.setQueue p (s.reHead p y (y.items.filter fun j => j.r != i.r))).dropAtQueue p i.r
            (s.onQueue p fun y => { y with ctlLost := true }).lossFreed p
          else s) s
      s.assertFault 0xA4 { access := 0, master := 0x09 } false) s

/-- An arriving record: dropped only when its queue already holds SHARE × 32,768 records (R192). -/
def State.enqueue (s : State) (q : Nat) (r : Rec) : State :=
  match s.queue? q with
  | none => s
  | some x =>
    if s.share q * 32768 ≤ x.normal then s.dropAtQueue q r
    else (s.queueLoss q).accept q 0 r

/-- The pair that waits whole in the anchor slots replaced where it stands, with its positions (R192). -/
def Queue.newPair (x : Queue) (a b : Rec) (tick : Nat) : Queue :=
  let pair := ((x.items.filter fun i => i.slot == 2).reverse.take 2).map QItem.qpos
  { x with items := x.items.map fun i =>
      if i.slot ≠ 2 then i
      else if some i.qpos = pair[1]? then { i with r := a, enter := tick }
      else if some i.qpos = pair[0]? then { i with r := b, enter := tick } else i }

/-- The anchor pair of this tick enters a queue: whole into normal slots where there is room for one record, else into
the reserved anchor slots, in place of a pair that entered them and of which nothing has been sent (R192). -/
def State.anchorQueue (s : State) (q : Nat) : State :=
  match s.queue? q with
  | none => s
  | some x =>
    let a := anchorRec s .A
    let b := anchorRec s .B
    if x.normal < s.share q * 32768 then ((s.queueLoss q).accept q 0 a).accept q 0 b
    else if 2 ≤ (x.items.filter fun i => i.slot == 2).length then s.setQueue q (x.newPair a b s.tick)
    else ((s.queueLoss q).accept q 2 a).accept q 2 b

/-- Anchors in every export queue and every event ring (R152); each domain's SETF is spent. -/
def State.anchorAll (s : State) : State :=
  let s := { s with time := { s.time with anum := (s.time.anum + 1) % 65536 } }
  let s := s.queueIds.foldl (fun s q => s.anchorQueue q) s
  let s := s.sessIds.foldl (fun s q => s.postAnchor q) s
  { s with time := { s.time with
    a := { s.time.a with setf := false }, b := { s.time.b with setf := false }
    lastAnchor := s.now.total, anchorOwed := none } }

/-- The anchor pair of a session that opens, before any other record or event (R152, R192). -/
def State.anchorOpen (s : State) (q : Nat) : State :=
  let s := { s with time := { s.time with anum := (s.time.anum + 1) % 65536 } }
  (s.anchorQueue q).postAnchor q

/-! ## Destinations (R187) -/

/-- A session as a destination: open here, or a shadow on the standby; its role, mask and grant. -/
def State.destInfo (s : State) (q : Nat) : Option (Nat × Nat × Nat) :=
  match s.sess? q with
  | some x => if s.sessState q = 2 then some (s.sessRole q, x.mask, x.grant) else none
  | none => ((s.pair.shadows.find? (fun e => e.1 == q)).map Prod.snd).map fun h => (h.role, h.mask, h.grant)

/-- The queues a record of port `p` goes to. -/
def State.dests (s : State) (p : Nat) : List Nat :=
  let t := if s.flag (Adr.POL p) Fl.POL_TEN_EN then
      let q := s.get (Adr.POL p) Fl.POL_SESSION
      match s.destInfo q with
      | some (_, m, g) => if m.testBit 1 && g.testBit p then [q] else []
      | none => []
    else []
  let o := if s.flag (Adr.POL p) Fl.POL_OWNER && s.flag Adr.EXP Fl.EXP_OWNER_Q_EN then
      let q := s.get Adr.EXP Fl.EXP_OWNER_Q
      match s.destInfo q with
      | some (r, _, _) => if r = 1 then [q] else []
      | none => []
    else []
  (t ++ o).eraseDups.filter fun q => (s.queue? q).isSome

/-- A record of port `p` to its destinations, or counted in NODEST (R187). -/
def State.deliver (s : State) (p : Nat) (r : Rec) : State :=
  match s.dests p with
  | [] => s.count Adr.EXP Fl.EXP_NODEST 1
  | qs =>
    let c := s.checkRec 0xA4 r
    qs.foldl (fun s q => s.enqueue q c.1) c.2.storeRecord

end Sys2Proof.Machine
end

