-- ==== Sys2Proof/Machine/Export.lean ====
section
/-! DEFINITION. Policers, summaries, scheduling and sending (spec/10_record_policing_and_export.md R186 to R200). -/

namespace Sys2Proof.Machine

/-! ## Policers -/

/-- The records a rate has earned between two stamp ticks, less what was credited before (R189). -/
def credit (rate k k0 acc : Nat) : Nat × Nat :=
  let total := rate * (k - k0) * 65536 / 625000000
  (total - acc, total)

/-- One STAMP record metered (R189): the outcome 0 GREEN, 1 YELLOW, 2 RED, and the policer after it. -/
def Policer.meter (p : Policer) (k pre : Nat) : Nat × Policer :=
  if p.set.meter ≠ 1 ∧ p.set.meter ≠ 2 then (0, p) else
  let cbs := p.set.cbs * 65536
  let ebs := p.set.ebs * 65536
  let p := if p.first then { p with tc := cbs, te := ebs, k0 := k, accC := 0, accP := 0, first := false } else p
  let c := credit p.set.cir k p.k0 p.accC
  if p.set.meter = 1 then
    let t := p.tc + c.1
    let p := { p with accC := c.2, te := if cbs < t then min (p.te + t - cbs) ebs else p.te, tc := min t cbs }
    if pre = 0 ∧ 65536 ≤ p.tc then (0, { p with tc := p.tc - 65536 })
    else if 65536 ≤ p.te then (1, { p with te := p.te - 65536 })
    else (2, p)
  else
    let e := credit p.set.pir k p.k0 p.accP
    let p := { p with accC := c.2, accP := e.2, tc := min (p.tc + c.1) cbs, te := min (p.te + e.1) ebs }
    if p.te < 65536 then (2, p)
    else if pre = 1 ∨ p.tc < 65536 then (1, { p with te := p.te - 65536 })
    else (0, { p with tc := p.tc - 65536, te := p.te - 65536 })

def PolWin.tally (w : PolWin) (out : Nat) : PolWin :=
  if out = 0 then { w with green := min 0xffffffff (w.green + 1) }
  else if out = 1 then { w with yellow := min 0xffffffff (w.yellow + 1) }
  else { w with red := min 0xffffffff (w.red + 1) }

/-- The SUMMARY record of a window that has ended (R191). -/
def summaryRec (p : Nat) (w : PolWin) (tick : Nat) : Rec :=
  ⟨[headWord 4 w.dom w.tq p (w.meter + 4 * b2n w.applied), w.seq, w.ns32, w.frac8 + 65536 * (w.wnum % 65536), w.green,
    w.yellow, w.red], p, tick, false⟩

/-- The SUMMARY records of the windows of port `p` that `due` names, in order. -/
def State.summaries (s : State) (p : Nat) (due : PolWin → Bool) : State :=
  let x := s.srx p
  let out := x.pol.wins.filter fun w => w.ended && due w
  let s := s.setSrx p { x with pol := { x.pol with wins := x.pol.wins.filter fun w => !(w.ended && due w) } }
  out.foldl (fun s w => s.deliver p (summaryRec p w s.tick)) s

/-- A policed STAMP record as it is queued (R190). -/
def coloured (r : Rec) (out : Nat) : Rec :=
  if out = 1 then { r with w := [r.word 0 ||| (2 ^ 20 + 2 ^ 22), r.word 1, r.word 2, r.word 3, 0, 0, r.word 6] } else r

/-- A STAMP record reaches the policer of its port (R189 to R191). -/
def State.policeStamp (s : State) (r : Rec) : State :=
  let p := r.port
  let s := s.summaries p fun w => decide (w.wnum < r.tick / windowTicks)
  let x := s.srx p
  let pre := if x.pol.set.aware && (r.word 0).testBit 19 then 1 else 0
  let m := x.pol.meter r.tick pre
  let pol := m.2.setWindow ((m.2.window r.tick).tally m.1)
  let s := s.setSrx p { x with pol := pol }
  if m.1 = 2 then s else s.deliver p (coloured r m.1)

/-- The digest sample of a STAMP record (R293). -/
def sampleOf (r : Rec) : Sample := ⟨r.port, r.len, r.word 2, r.word 3 % 256, r.digest⟩

/-- Every 16th STAMP record with NO_KEY = 0 is a sample on the active; the standby keeps its own digests for 1 ms (R293). -/
def State.takeSample (s : State) (r : Rec) : State :=
  if (r.word 0).testBit 23 then s
  else if s.role = 1 then
    let n := s.exp.sampleCtr + 1
    let s := { s with exp := { s.exp with sampleCtr := n % 16 } }
    if n % 16 = 0 then { s with pair := { s.pair with samples := s.pair.samples ++ [sampleOf r] } } else s
  else if s.role = 2 then
    { s with pair := { s.pair with myDigests :=
      (s.pair.myDigests.filter fun d => s.tick < d.1 + msTicks 1) ++ [(s.tick, sampleOf r)] } }
  else s

/-- The tile the aggregators take the next record from: the first after the last one served whose intake holds one (R183). -/
def State.nextTile (s : State) : Option Nat :=
  ((List.range 4).map fun k => (s.exp.turn + 1 + k) % 4).find? fun t => !(s.tile t).intake.isEmpty

/-- RECORD_HANDOFF (R10, R183, R187): the aggregators hand the oldest record of tile `t` to the export engine, in the tile's
turn. -/
def recordHandoff (t : Nat) (s : State) : State :=
  if s.nextTile ≠ some t then s else
  let x := s.tile t
  match x.intake with
  | [] => s
  | r :: rest =>
    let s := { s with exp := { s.exp with turn := t } }
    let s := s.setTile t { x with intake := rest }
    if agedOut s r then s.dropRec 1 r
    else
      let s := s.hubEvent 0x0A 1
      if r.isStamp then (s.takeSample r).policeStamp r else s.deliver r.port r

def execRecordHandoff (t : Nat) (s : State) : Host.Outcome State Fault Refusal := .next (recordHandoff t s)

/-- SUMMARY (R191): the windows of port `p` that ended 1 s ago or more. -/
def summary (p : Nat) (s : State) : State :=
  s.summaries p fun w => decide ((w.wnum + 1) * windowTicks + 625000000 ≤ s.tick)

def execSummary (p : Nat) (s : State) : Host.Outcome State Fault Refusal := .next (summary p s)

/-- The window of every enabled port ends at this tick: what the SUMMARY record states of its end is fixed (R191). -/
def State.endWindows (s : State) : State :=
  if s.tick % windowTicks ≠ 0 ∨ s.tick = 0 then s else
  let n := s.tick / windowTicks - 1
  (List.range (numPorts s.variant)).foldl (fun s p =>
    let x := s.srx p
    let open' := x.pol.wins.any fun w => w.wnum == n
    if open' || s.flag (Adr.SRX_CFG p) Fl.SRX_CFG_EN then
      let w := { x.pol.window (s.tick - 1) with
        ended := true, seq := s.get (Adr.SRX_SEQ p) Fl.SRX_SEQ_NEXT, meter := x.pol.set.meter, dom := domIx s.sdom
        tq := s.tq, ns32 := s.ns32, frac8 := s.frac8 }
      s.setSrx p { x with pol := x.pol.setWindow w }
    else s) s

/-- POL_APPLY (R188): the staged set in force, marked FIRST. -/
def polApply (p : Nat) (s : State) : State :=
  if s.has .exportU && decide (p < numPorts s.variant) then
    let b := Adr.POL p
    let x := s.srx p
    let set : PolSet := ⟨s.get b Fl.POL_METER, s.flag b Fl.POL_AWARE, s.get b Fl.POL_CIR, s.get b Fl.POL_PIR,
      s.get b Fl.POL_CBS, s.get b Fl.POL_EBS_PBS⟩
    let k := s.tick / windowTicks
    let wins := x.pol.wins.map fun w => if w.wnum = k then { w with applied := true } else w
    s.setSrx p { x with pol := { x.pol with set := set, first := true, wins := wins, applyWin := some k } }
  else s

def execPolApply (p : Nat) (s : State) : Host.Outcome State Fault Refusal := .next (polApply p s)

/-! ## Sending -/

/-- A mark of the last record sent that carries a digest (R303). -/
def markOf (r : Rec) : Option Sample := if r.isStamp && r.digest != 0 then some (sampleOf r) else none

/-- The head of queue `q` leaves it: finish times, shaper and delay marks as R194, R196 and R198 state. -/
def State.takeHead (s : State) (q : Nat) (weighted : Bool) : Option (QItem × State) :=
  match s.queue? q with
  | none => none
  | some x =>
    match x.items with
    | [] => none
    | i :: rest =>
      let f := x.f.getD (s.finish q x)
      let s1 := if weighted then s.setVtime (s.chan q) f else s
      let shaped := weighted && s.flag (Adr.QW q) Fl.QW_SH_EN
      let delay := (s.tick - i.enter) / 625
      let y : Queue := { x with
        items := rest, fPrev := if weighted then f else x.fPrev, f := none
        bucket := if shaped then x.bucket - 65536 else x.bucket
        lastSent := (markOf i.r).or x.lastSent, lastQpos := i.qpos }
      let y := { y with f := if rest.isEmpty then none else some (s1.finish q y) }
      some (i, ((s1.setQueue q (y.markDelay delay)).regMark q 0 delay).lossFreed q)

/-- A record into the record ring of its session (R213, R220). -/
def State.toRing (s : State) (q : Nat) (r : Rec) : State :=
  match s.sess? q with
  | none => s
  | some x =>
    if s.wrFails q then s.dmaFault q
    else
      (s.setSess q { x with
        recs := x.recs ++ [r.bytes], recTail := (x.recTail + 1) % 2 ^ 32
        posted := [(entryAt x.rings.recBase x.rings.recLog2 32 x.recTail, r.bytes)] }).fetchRecords 5 1
        |>.hubEvent 0x0C 1 |>.writeStat q 2

/-- The record ring of `q` has a free entry and the session may be written (R195). -/
def State.ringOpen (s : State) (q : Nat) : Bool :=
  match s.sess? q with
  | none => false
  | some x => s.sessState q == 2 && s.dmaOk q && ringFree x.rings.recLog2 x.recHead x.recTail 1

/-- The bucket of a shaped weighted queue permits a send (R196). -/
def State.permits (s : State) (q : Nat) : Bool :=
  !s.flag (Adr.QW q) Fl.QW_SH_EN || (match s.queue? q with | some x => decide (0 ≤ x.bucket) | none => false)

/-- The header of a record transport datagram (R199). -/
def RecDgram.header (d : RecDgram) : List Byte :=
  le 4 0x4B525458 ++ le 1 1 ++ le 1 d.flags ++ le 2 d.recs.length ++ le 2 d.q ++ le 1 d.ch ++ le 1 0 ++ le 4 d.epoch
    ++ le 8 d.seq ++ le 8 d.qpos

/-- SESSION, CHANNEL, a zero byte and DGRAM_SEQ (R199). -/
def RecDgram.nonce (d : RecDgram) : List Byte := le 2 d.q ++ le 1 d.ch ++ le 1 0 ++ le 8 d.seq

/-- The UDP payload: header, the records encrypted under the session transport key, tag (R199). -/
def RecDgram.sealed (d : RecDgram) (key : List Byte) : RecDgram :=
  { d with payload := d.header ++ gcmSeal key d.nonce d.header d.recs.flatten }

/-- The records at the head of a queue that stand at consecutive QPOS values. -/
def runLen : List QItem → Nat
  | [] => 0
  | i :: l => 1 + (match l with | j :: _ => if j.qpos = i.qpos + 1 then runLen l else 0 | [] => 0)

/-- How many records a datagram of up to `n` of queue `q` carries: at consecutive QPOS values (R199), and of a weighted queue while
its bucket is at or above 0 (R196). -/
def State.dgramLen (s : State) (q : Nat) (x : Queue) (n : Nat) (weighted : Bool) : Nat :=
  let k := min n (runLen x.items)
  if weighted && s.flag (Adr.QW q) Fl.QW_SH_EN then (if x.bucket < 0 then 0 else min k ((x.bucket / 65536).toNat + 1)) else k

/-- A datagram of up to `n` records of queue `q`, to the host of its session (R199). -/
def State.sendDgram (s : State) (q n flags : Nat) (weighted : Bool) : State :=
  match s.queue? q with
  | none => s
  | some x =>
    let k := s.dgramLen q x n weighted
    if k = 0 then s else
    let qpos := match x.items with | i :: _ => i.qpos | [] => 0
    let r := (List.range k).foldl (fun acc _ =>
      match State.takeHead acc.2 q weighted with
      | some (i, s') => (acc.1 ++ [i.r.bytes], s')
      | none => acc) (([] : List (List Byte)), s)
    let e := (s.sess? q).bind Sess.eth
    let d : RecDgram := {
      q := q, flags := flags, seq := x.dseq, qpos := qpos, recs := r.1, ch := s.chan q, epoch := (e.map EthSide.epoch).getD 0
      addr := (e.map EthSide.hostAddr).getD [], udp := (e.map EthSide.hostUdp).getD 0 }
    let d := d.sealed ((e.map EthSide.key).getD [])
    let s := (r.2.onQueue q fun y => { y with dseq := y.dseq + 1 }).fetchRecords (5 + s.chan q) r.1.length |>.hubEvent 0x0D 1
    if s.chan q = 1 then { s with exp := { s.exp with dg0 := some d } } else { s with exp := { s.exp with dg1 := some d } }

/-- MAX_REC as the engine takes it (R200). -/
def State.maxRec (s : State) : Nat := max 1 (min 278 (s.get Adr.EXP Fl.EXP_MAX_REC))

def State.isFc (s : State) (q : Nat) : Bool := s.flag (Adr.QW q) Fl.QW_FC_EN

/-- FLUSH in µs as the engine takes it (R200). -/
def State.flushUs (s : State) : Nat := max 1 (s.get Adr.EXP Fl.EXP_FLUSH)

/-- The oldest record of a queue has waited FLUSH µs. -/
def State.flushDue (s : State) (x : Queue) : Bool :=
  match x.items with
  | [] => false
  | i :: _ => decide (i.enter + usTicks s.flushUs ≤ s.tick)

/-- The oldest record of a queue is one that EXPORT_FLUSH sends (R242). -/
def Queue.told (x : Queue) : Bool := match x.items with | i :: _ => decide (i.qpos < x.flushPos) | [] => false

/-- A datagram of an Ethernet queue is due: MAX_REC records wait, or the oldest has waited FLUSH µs (R200) or is to be sent (R242). -/
def State.dgramDue (s : State) (x : Queue) : Bool := decide (s.maxRec ≤ x.items.length) || s.flushDue x || x.told

/-- A weighted queue is eligible to send (R195, R200). -/
def State.eligible (s : State) (q : Nat) : Bool :=
  match s.queue? q with
  | none => false
  | some x =>
    !x.shadow && !s.isFc q && decide (0 < x.items.length) && s.permits q
      && (if s.chan q = 0 then s.ringOpen q else s.dgramDue x)

/-- `a` is before `b` in serial arithmetic modulo 2⁶⁴. -/
def serialLt (a b : Nat) : Bool := a != b && decide (2 ^ 63 ≤ (a + 2 ^ 64 - b) % 2 ^ 64)

/-- The eligible queue of the smallest F, ties to the lowest q (R194). -/
def State.wfqPick (s : State) (ch : Nat) : Option Nat :=
  (s.queueIds.filter fun q => s.chan q == ch && s.eligible q).foldl (fun best q =>
    match best with
    | none => some q
    | some b =>
      let fq := ((s.queue? q).bind (·.f)).getD 0
      let fb := ((s.queue? b).bind (·.f)).getD 0
      if serialLt fq fb then some q else some b) none

/-- The period of an FC queue in ticks (R197). -/
def State.fcTicks (s : State) (q : Nat) : Nat := 5 * max 32 (s.get (Adr.QW q) Fl.QW_FC_PERIOD)
def State.fcBurst (s : State) (q : Nat) : Nat := max 1 (s.get (Adr.QW q) Fl.QW_FC_BURST)

/-- Ticks a channel needs for `n` records: 12.8 GB/s on PCIe; on 25 Gb/s Ethernet one datagram of them over IPv6, with
its headers, preamble and gap (R197, R200). -/
def sendTicks (ch n : Nat) : Nat := if ch = 0 then (25 * n + 15) / 16 else (48 + 32 * n + 86 + 4) / 5

/-- The slot instants of this tick are served on the channel. -/
def State.slotsServed (s : State) (ch : Nat) : Bool := s.exp.slotAt.any fun e => e.1 == ch && e.2 == s.tick

/-- Ticks until the next reserved time of a channel: the nearest slot instant of its FC queues, this tick's included while it is
not yet served. -/
def State.nextSlot (s : State) (ch : Nat) : Option Nat :=
  ((s.queueIds.filter fun q => s.chan q == ch && s.isFc q).map fun q =>
    if s.tick % s.fcTicks q = 0 ∧ s.slotsServed ch = false then 0 else s.fcTicks q - s.tick % s.fcTicks q).foldl
      (fun m n => match m with | none => some n | some k => some (min k n)) none

/-- Weighted transmissions of `n` ticks may start: no reservation runs, and they end before the next (R197). -/
def State.fits (s : State) (ch n : Nat) : Bool :=
  decide (SMap.find 0 s.exp.busy ch ≤ s.tick) && (match s.nextSlot ch with | none => true | some k => decide (n ≤ k))

/-- A weighted transmission of `n` records may start. -/
def State.mayStart (s : State) (ch n : Nat) : Bool := s.fits ch (sendTicks ch n)

/-- Every enabled bucket refilled (R196). -/
def State.refill (s : State) : State :=
  s.queueIds.foldl (fun s q =>
    if s.flag (Adr.QW q) Fl.QW_SH_EN then
      let size : Int := (s.get (Adr.QW q) Fl.QW_SH_SIZE * 65536 : Nat)
      s.onQueue q fun x => { x with
        bucket := if x.fill then size else min (x.bucket + (s.get (Adr.QW q) Fl.QW_SH_RATE : Nat)) size, fill := false }
    else s) { s with exp := { s.exp with refillAt := some s.tick } }

/-- SHAPER_REFILL (R196): at every TICK that is a multiple of 625, once. -/
def shaperRefill (s : State) : State := if s.tick % 625 = 0 ∧ s.exp.refillAt ≠ some s.tick then s.refill else s

def execShaperRefill (s : State) : Host.Outcome State Fault Refusal := .next (shaperRefill s)

/-- A transmission of the weighted queue `q`, if it ends before the next reserved time: on PCIe its head, on Ethernet a datagram, by
FLUSH where fewer than MAX_REC records wait or it was told to send (R194, R197, R200). -/
def State.sendWeighted (s : State) (q : Nat) : State :=
  if s.chan q = 0 then
    if s.mayStart 0 1 = false then s
    else
      match (s.purge q 1).takeHead q true with
      | some (i, s') => s'.toRing q i.r
      | none => s.purge q 1
  else
    match s.queue? q with
    | none => s
    | some x =>
      let t := s.purge q s.maxRec
      if s.mayStart (s.chan q) (t.dgramLen q ((t.queue? q).getD {}) s.maxRec true) = false then s
      else t.sendDgram q s.maxRec (b2n (decide (x.items.length < s.maxRec) || x.told)) true

/-- CHANNEL_SEND (R194, R195, R200, R220): after this tick's refill, the channel sends from the eligible weighted queue with the
smallest F. -/
def channelSend (ch : Nat) (s : State) : State :=
  let s := shaperRefill s
  match s.wfqPick ch with
  | none => s
  | some q => s.sendWeighted q

def execChannelSend (ch : Nat) (s : State) : Host.Outcome State Fault Refusal := .next (channelSend ch s)

/-- The release of up to FC_BURST records of an FC queue at the start of its reservation, on PCIe as far as ring entries are
free (R197). -/
def State.fcRelease (s : State) (q : Nat) : State :=
  let s := s.purge q (s.fcBurst q)
  if s.chan q = 0 then
    (List.range (s.fcBurst q)).foldl (fun s _ =>
      if s.ringOpen q then
        match s.takeHead q false with
        | some (i, s') => s'.toRing q i.r
        | none => s
      else s) s
  else s.sendDgram q (s.fcBurst q) 2 false

/-- One reservation of an FC queue on its channel: from now, or from the end of those before it; FC_LATE where one of an earlier
instant still runs (R197). -/
def State.reserve (s : State) (ch q : Nat) (late : Bool) : State :=
  let start := max (SMap.find 0 s.exp.busy ch) s.tick
  let s := if late then s.count (Adr.QW q) Fl.QW_FC_LATE 1 else s
  let s := { s with exp := { s.exp with busy := SMap.insert s.exp.busy ch (start + sendTicks ch (s.fcBurst q)) } }
  if start = s.tick then s.fcRelease q else { s with exp := { s.exp with fcWait := s.exp.fcWait ++ [(start, q)] } }

/-- FC_SLOT (R197): at a slot instant, every FC queue of the channel whose slot it is, in ascending q. -/
def fcSlot (ch : Nat) (s : State) : State :=
  if s.slotsServed ch then s else
  let late := decide (s.tick < SMap.find 0 s.exp.busy ch)
  let due := s.queueIds.filter fun q => s.chan q == ch && s.isFc q && decide (s.tick % s.fcTicks q = 0)
      && !((s.queue? q).map (·.shadow)).getD true
  due.foldl (fun s' q => s'.reserve ch q late) { s with exp := { s.exp with slotAt := SMap.insert s.exp.slotAt ch s.tick } }

def execFcSlot (ch : Nat) (s : State) : Host.Outcome State Fault Refusal := .next (fcSlot ch s)

/-- The reservations that start at this tick release their records (R197). -/
def State.fcStart (s : State) : State :=
  let due := s.exp.fcWait.filter fun w => decide (w.1 ≤ s.tick)
  if due.isEmpty then s
  else
    due.foldl (fun s w => s.fcRelease w.2)
      { s with exp := { s.exp with fcWait := s.exp.fcWait.filter fun w => !decide (w.1 ≤ s.tick) } }

/-- DATAGRAM_FLUSH (R200): the oldest record of an Ethernet queue has waited FLUSH µs, and the queue is the one its channel
serves next. -/
def datagramFlush (q : Nat) (s : State) : State :=
  let s := shaperRefill s
  match s.queue? q with
  | none => s
  | some x =>
    if s.chan q ≠ 0 && s.flushDue x && s.wfqPick (s.chan q) == some q then s.sendWeighted q
    else s

def execDatagramFlush (q : Nat) (s : State) : Host.Outcome State Fault Refusal := .next (datagramFlush q s)

/-- QUEUE_LOSS_RECORD (R193): 100 µs after the first drop it counts. -/
def queueLossRecord (q : Nat) (s : State) : State :=
  match s.queue? q with
  | none => s
  | some x => if 0 < x.lost ∧ x.lostTick + usTicks 100 ≤ s.tick then s.queueLoss q else s

def execQueueLossRecord (q : Nat) (s : State) : Host.Outcome State Fault Refusal := .next (queueLossRecord q s)

/-- Q_DEPTH_SAMPLE (R198): on the DX256-T, every 1 ms of TICK, depth and age of the head. -/
def qDepthSample (s : State) : State :=
  if Variant.isSmall s.variant = false ∨ s.tick % msTicks 1 ≠ 0 then s else
  s.queueIds.foldl (fun s q =>
    match s.queue? q with
    | none => s
    | some x =>
      let age := match x.items with | i :: _ => (s.tick - i.enter) / 625 | [] => 0
      (s.put (Adr.QW q) Fl.QW_Q_DEPTH x.items.length).put (Adr.QW q) Fl.QW_Q_DELAY (min 0xffffffff age)) s

def execQDepthSample (s : State) : Host.Outcome State Fault Refusal := .next (qDepthSample s)

/-- A write of QWq.SHARE (R192): clamped to the largest share that fits. -/
def State.writeShare (s : State) (q n : Nat) : State :=
  let own := if (s.queue? q).isSome then s.share q else 0
  let fits := bufferMiB s.variant - s.reserved + own
  (s.put (Adr.QW q) Fl.QW_SHARE (if (s.queue? q).isSome then min n fits else n)).poolStat

end Sys2Proof.Machine
end

