-- ==== Sys2Proof/Machine/PairOps.lean ====
section
/-! DEFINITION. Write-ahead between the two modules of a pair (spec/15_redundant_pair.md R297 to R299,
spec/12_mailbox_commands.md R231): the frames and transactions a module sends, and how their content is laid out. -/

namespace Sys2Proof.Machine

def State.setPair (s : State) (p : PairUnit) : State := { s with pair := p }

def State.linkUp (s : State) : Bool := s.flag Adr.PAIR_STAT Fl.PAIR_STAT_LINK_UP
def State.solo (s : State) : Bool := s.flag Adr.PAIR_STAT Fl.PAIR_STAT_SOLO

/-- Write-ahead commands wait for the standby: the module is active, and solo operation is not in force (R231). -/
def State.pairMode (s : State) : Bool := decide (s.role = 1) && !s.solo

/-- Spine ticks in 3 µs (R298). -/
def ackTicks : Nat := 1875

/-- TSEQ as PAIR_TXN holds it. -/
def State.tseq (s : State) : Nat := s.getPair Adr.PAIR_TXN Fl.PAIR_TXN_TSEQ_LO Fl.PAIR_TXN_TSEQ_HI
def State.setTseq (s : State) (n : Nat) : State := s.putPair Adr.PAIR_TXN Fl.PAIR_TXN_TSEQ_LO Fl.PAIR_TXN_TSEQ_HI n

/-- Transaction types (R297). -/
def txCommit : Nat := 1
def txArm : Nat := 2
def txPark : Nat := 3
def txSchedLoad : Nat := 4
def txSchedStop : Nat := 5
def txSession : Nat := 6
def txKey : Nat := 7
def txSlot : Nat := 8
def txResync : Nat := 9

/-- Who waits for a transaction: a session's taken command, the open of a view, a CSP strike, nobody, a HELLO. -/
def forSession : Nat := 0
def forOpen : Nat := 1
def forStrike : Nat := 2
def forNobody : Nat := 3
def forHello : Nat := 4

/-- Types that take effect 10 µs after the ACK (R299). -/
def delayed (ty : Nat) : Bool := decide (txSession ≤ ty)

/-! ## Frames (R288) -/

/-- The 16 bytes of a frame's header, its additional authenticated data: control block and FSEQ. -/
def frameHead (kind len fseq : Nat) : List Byte := [0x4B, byteOf kind] ++ le 2 len ++ le 4 0 ++ le 8 fseq

/-- A body in whole blocks. -/
def padBody (b : List Byte) : List Byte := fit (8 * ((b.length + 7) / 8)) b

/-- The nonce of a frame from the module at position A or B. -/
def frameNonce (posB : Bool) (fseq : Nat) : List Byte := [if posB then 0x42 else 0x41, 0, 0, 0] ++ le 8 fseq

/-- A frame's header, encrypted body and tag, as the module at a position sends it under the link key. -/
def frameText (key : List Byte) (posB : Bool) (kind fseq : Nat) (body : List Byte) : List Byte :=
  let b := padBody body
  let h := frameHead kind (b.length / 8) fseq
  h ++ gcmSeal key (frameNonce posB fseq) h b

/-- A frame in clear with its tag. -/
def clearText (kind fseq : Nat) (body tag : List Byte) : List Byte :=
  frameHead kind ((padBody body).length / 8) fseq ++ padBody body ++ fit 16 tag

/-- The tag that a frame from the partner has to bear. -/
def State.partnerTag (s : State) (kind fseq : Nat) (body : List Byte) : List Byte :=
  (frameText s.pair.linkKey (!s.boot.posB) kind fseq body).drop (16 + (padBody body).length)

/-- The 66-bit blocks of a frame: one control block, then data blocks (R286). -/
def frameBlocks (text : List Byte) : List (Nat × Nat) :=
  (List.range (text.length / 8)).map fun k => (if k = 0 then 2 else 1, rdLE text (8 * k) 8)

/-- A frame sent, read by the Haldod DMA: sealed under the link key, or in clear with the tag given. -/
def State.sendFrame (s : State) (kind : Nat) (body : List Byte) (clear : Option (List Byte)) : State :=
  let p := s.pair
  let text := match clear with
    | some tag => clearText kind p.fseqTx body tag
    | none => frameText p.linkKey s.boot.posB kind p.fseqTx body
  let old := if p.frameAt = s.tick then p.frames else []
  let s := (s.hubEvent 0x0E 1).fetchFrame text.length
  s.setPair { s.pair with
    fseqTx := p.fseqTx + 1, frames := old ++ [⟨kind, p.fseqTx, body, frameBlocks text⟩], frameAt := s.tick }

/-! ## Bodies -/

/-- A number as the frames carry it: how many bytes it has, then the bytes. PRESUMED layout (log 107). -/
def encodeNat (n : Nat) : List Byte := byteOf (n.log2 / 8 + 1) :: le (n.log2 / 8 + 1) n

def encodeNats (ws : List Nat) : List Byte := ws.flatMap encodeNat

/-- The numbers that bytes carry; `n` bounds how many. -/
def decodeNats : Nat → List Byte → List Nat
  | 0, _ => []
  | _, [] => []
  | n + 1, b :: bs => ofLE (bs.take b.toNat) :: decodeNats n (bs.drop b.toNat)

/-- The body of one part of a transaction or stream: the header of R297 and the part's content. -/
def mirrorBody (tseq ty flags part length : Nat) (data : List Byte) : List Byte :=
  le 8 tseq ++ le 1 ty ++ le 1 flags ++ le 2 part ++ le 4 length ++ data

/-- The bodies of a transaction or stream, in parts of up to 2,032 bytes. -/
def mirrorParts (tseq ty : Nat) (stream : Bool) (data : List Byte) : List (List Byte) :=
  let n := max 1 ((data.length + 2031) / 2032)
  (List.range n).map fun k =>
    mirrorBody tseq ty (b2i (decide (k = 0)) + 2 * b2i (decide (k + 1 = n)) + 4 * b2i stream) k data.length
      ((data.drop (2032 * k)).take 2032)

/-- The body of a CONTROL frame (R291): subtype, TSEQ, numbers. -/
def ctlBody (sub tseq : Nat) (ws : List Nat) : List Byte := le 1 sub ++ le 8 tseq ++ encodeNats ws

/-- One transaction sent to the standby in its parts, with its timer. -/
def State.sendTxn (s : State) (ty : Nat) (data : List Nat) (who q : Nat) : State :=
  let n := s.tseq + 1
  let s := (mirrorParts n ty false (encodeNats data)).foldl (fun s b => s.sendFrame 2 b none) (s.setTseq n)
  s.setPair { s.pair with sent := s.pair.sent ++ [⟨n, ty, data, who, q, s.tick⟩] }

/-- A stream sent (R297): nothing acknowledges it, and it counts no TSEQ. -/
def State.sendStream (s : State) (ty : Nat) (data : List Nat) : State :=
  (mirrorParts 0 ty true (encodeNats data)).foldl (fun s b => s.sendFrame 2 b none) s

/-- A transaction nobody waits for, sent while a standby is there to take it. -/
def State.tellTxn (s : State) (ty : Nat) (data : List Nat) : State :=
  if s.pairMode && s.linkUp then s.sendTxn ty data forNobody 0 else s

/-- A control frame of the Haldod link (R291): subtype, TSEQ, words. -/
def State.sendCtl (s : State) (sub tseq : Nat) (ws : List Nat) : State :=
  let s := s.sendFrame 4 (ctlBody sub tseq ws) none
  s.setPair { s.pair with ctlOut := some (sub, tseq, ws) }

/-- A control frame whose content is bytes, sealed or in clear with its tag. -/
def State.sendCtlBytes (s : State) (sub : Nat) (bytes : List Byte) (clear : Option (List Byte)) : State :=
  let s := s.sendFrame 4 (le 1 sub ++ bytes) clear
  s.setPair { s.pair with ctlOut := some (sub, 0, []) }

/-- The active sends VOID for a transaction (R299). -/
def State.sendVoid (s : State) (tseq : Nat) : State :=
  (s.count Adr.PAIR_TXN Fl.PAIR_TXN_VOID 1).sendCtl 4 tseq []

/-- The plan hash (R297): the SHA-384 of the output words region. -/
def planHash (ws : List Nat) : Nat := ofLE (sha384 ((ws.map (le 4)).flatten))

/-- The partner's identity digest as ledger entries carry it: its first 24 bytes. -/
def State.partnerDigest (s : State) : List Byte := fit 24 s.flash.partner

/-- A PAIR entry of one kind (R274): 1 ENROL, 2 SOLO_ON, 3 SOLO_OFF, 4 REJOIN, 5 DIVERGED; refused and counted where the
ledger has no room. -/
def State.logPair (s : State) (q role kind : Nat) : State :=
  if s.ledgerRoom 1 then s.log 0x0052 q role (layout 52 [(0, le 1 kind), (8, s.partnerDigest)]) else s.ledgerRefused

end Sys2Proof.Machine
end

