-- ==== Sys2Proof/Machine/SessionOps.lean ====
section
/-! DEFINITION. Opening, closing and serving sessions (spec/11_host_sessions_mailboxes.md R206 to R212, R222 to R225,
spec/14_secrecy_and_ledger.md R255 to R260, spec/15_redundant_pair.md R295, R296, R305). -/

namespace Sys2Proof.Machine

/-! ## Status codes (R226, R232) -/

def stOk : Nat := 0
def stUnknown : Nat := 1
def stUnit : Nat := 2
def stDenied : Nat := 3
def stField : Nat := 4
def stDma : Nat := 5
def stBusy : Nat := 6
def stLedger : Nat := 7
def stNoAck : Nat := 0x40
def stNotActive : Nat := 0x41
def stLinkDown : Nat := 0x42
def stNoSession : Nat := 0x43

/-- The units a command needs (R233, column Unit). -/
def commandUnits (op : Nat) : List OptUnit :=
  if op = 0x0500 then [.stampU]
  else if op = 0x0600 then [.exportU]
  else if op = 0x0601 then [.exportU, .mgmtU]
  else if [0x0004, 0x0007, 0x0700, 0x0701].contains op then [.mgmtU]
  else if [0x0900, 0x0901, 0x0902, 0x0903].contains op then [.pairU]
  else []

/-- A unit that the command needs is absent (R5): UNIT_ABSENT, which only UNKNOWN_OP precedes. -/
def State.lacksUnit (s : State) (op : Nat) : Bool := (commandUnits op).any fun u => !s.has u

/-- The first status whose condition holds; OK where none does. -/
def firstStatus (cs : List (Bool × Nat)) : Nat :=
  match cs.find? fun x => x.1 with
  | some x => x.2
  | none => 0

/-- Gwynique, or in recovery the loader that stands in for it (R358), serves sessions. -/
def State.serves (s : State) : Bool := s.gwqRuns || s.boot.recovery

/-- Sessions open: not while a warm reset waits for the commands taken, every session being CLOSING (R362). -/
def State.opensNow (s : State) : Bool := s.serves && !s.boot.warmDue

/-! ## Totals -/

/-- Ethernet sessions that are not CLOSED. -/
def State.ethOpen (s : State) : Nat :=
  (s.host.sess.filter fun e => e.2.eth.isSome).length + (s.host.opening.filter fun q => decide (2 ≤ s.sessCarrier q)).length

/-- SESS_GSTAT follows the sessions. -/
def State.showTotals (s : State) : State :=
  let s := s.put Adr.SESS_GSTAT Fl.SESS_GSTAT_OPEN (s.host.sess.length + s.host.opening.length)
  s.put Adr.SESS_GSTAT Fl.SESS_GSTAT_ETH_OPEN s.ethOpen

/-- Sessions of VF `n` that are not CLOSED. -/
def State.vfSessions (s : State) (n : Nat) : List Nat :=
  (s.sessIds ++ s.host.opening).filter fun q => s.sessCarrier q == 1 && s.sessFn q == n

/-- Sessions of function `fn`. -/
def State.fnSessions (s : State) (fn : Nat) : List Nat :=
  s.sessIds.filter fun q => decide (s.sessCarrier q < 2) && s.sessFn q == fn

/-- The session that a VF names by slot `j`, and the one a doorbell page belongs to (R207, R212). -/
def State.slotSess (s : State) (n j : Nat) : Option Nat :=
  (s.vfSessions n).find? fun q => s.get (Adr.SESS q) Fl.SESS_SLOT == j
def State.doorSess (s : State) (d : Doorbell) : Option Nat :=
  if s.viewOn d.view = false then none
  else if d.view = 0 then s.sessIds.find? fun q => q == d.page && s.sessCarrier q == 0
  else s.slotSess d.view d.page

/-! ## Closing (R209, R210) -/

/-- A session is CLOSING: its queue and what it has not taken go. -/
def State.shut (s : State) (q : Nat) : State :=
  match s.sess? q with
  | none => s
  | some x =>
    let s := s.setSess q { x with
      closeTick := s.tick, cplHeld := [], lostPend := 0, anchorHeld := []
      cmdTail := s.get (Adr.SESS q) Fl.SESS_CMD_HEAD, eth := x.eth.map fun e => { e with cmds := [] } }
    let s := (s.put (Adr.SESS q) Fl.SESS_STATE 3).closeQueue q
    (s.writeStat q 3).sendEth q 0x0B 0 0 []

/-- The close entry of a session, from its reservation, which no other entry takes (R209, R278). -/
def State.logClose (s : State) (q cause : Nat) : State :=
  ((s.log 0x0011 q (s.sessRole q) (bodyOf [(0, 1, cause)])).onSess q fun x => { x with closeCause := cause }).ledgerStat

/-- A session enters CLOSING for a cause, and its close entry is written; the standby is told of a mirrored one. -/
def State.beginClose (s : State) (q cause : Nat) : State :=
  match s.sess? q with
  | none => s
  | some x =>
    if s.sessState q = 3 then s
    else
      let s := (s.shut q).logClose q cause
      if x.mirrored && cause != 1 then s.tellTxn txSession [1, q, 0, 0, 0, 0, 0, 0, 0, cause] else s

/-- A CLOSING session is CLOSED: its number is free. A function no session is left of takes no further DMA bar (R210). -/
def State.endClose (s : State) (q : Nat) : State :=
  let fn := s.sessFn q
  let s := (s.put (Adr.SESS q) Fl.SESS_STATE 0).writeStat q 3
  let s := (s.dropSess q).resetRegs fun a => decide (Adr.SESS q ≤ a ∧ a < Adr.SESS q + 0x10)
  let s := (s.dropMarks (1000 + q)).showTotals
  if (s.fnSessions fn).isEmpty then { s with host := { s.host with noDma := s.host.noDma.filter (· != fn) } } else s

/-- SESSION_CLOSED: once its last taken command has finished and its close entry stands. -/
def sessionClosed (q : Nat) (s : State) : State :=
  match s.sess? q with
  | none => s
  | some x => if s.sessState q = 3 ∧ x.taken.isNone ∧ x.closeCause ≠ 0 then s.endClose q else s

def execSessionClosed (q : Nat) (s : State) : Host.Outcome State Fault Refusal := .next (sessionClosed q s)

/-! ## Numbers (R207, R296) -/

/-- Numbers in use, ascending: sessions, shadows, opens that wait for the standby, and staged opens of the active. -/
def State.usedIds (s : State) : List Nat :=
  let waiting := s.pair.sent.filterMap fun t =>
    (if t.ty = txSession ∧ t.data.headD 0 = 0 then some (t.data.getD 1 0) else none)
  let staged := s.pair.staged.filterMap fun t => if t.ty = txSession ∧ t.data.headD 0 = 0 then some t.item else none
  (s.sessIds ++ s.host.opening ++ s.pair.shadows.map Prod.fst ++ waiting ++ staged).foldr insertAsc []

/-- The free number with `k` free ones below it, `used` ascending. -/
def nthFree (used : List Nat) (k : Nat) : Nat := used.foldl (fun q u => if u ≤ q then q + 1 else q) k

/-- A free number chosen at random. -/
def State.freeId (s : State) : Nat × State :=
  let r := s.draw
  let used := s.usedIds
  (nthFree used (r.1 % max 1 (4096 - used.length)), r.2)

/-- The lowest free slot of a VF. -/
def State.freeSlotOf (s : State) (n : Nat) : Nat :=
  let used := (s.vfSessions n).map fun q => s.get (Adr.SESS q) Fl.SESS_SLOT
  ((List.range 64).find? fun j => !used.contains j).getD 0

/-! ## What an open is granted (R257 to R259) -/

/-- What an open asks for and is granted, before it takes a number. -/
structure OpenReq where
  carrier : Nat
  vf : Nat
  role : Nat
  mask : Nat
  grant : Nat
  serial : Nat
  unchecked : Bool
  noCred : Bool
  rings : Rings
  deriving DecidableEq, Repr, Inhabited

/-- A grant as a role holds it (R256). -/
def grantFor (v : Variant) (role bits : Nat) : Nat := if role = 1 then allPorts v else if role = 3 then 0 else bits

/-- The role codes of an open: owner, tenant, auditor (R8, R234); any other is BAD_FIELD. -/
def roleOk (r : Nat) : Bool := decide (1 ≤ r ∧ r ≤ 3)

/-- The owner's signature on a credential (R258). -/
def State.credSigOk (s : State) (c : List Byte) : Bool := ecdsaVerify (s.flash.owner.getD []) (c.take 240) ((c.drop 240).take 96)

/-- A holder proof: a signature by the credential's holder key over the ephemeral public key, N_h and CHANNEL of a HELLO (R258). -/
structure Holder where
  text : List Byte
  proof : List Byte
  deriving DecidableEq, Repr

def Holder.ok (h : Holder) (c : List Byte) : Bool := ecdsaVerify ((c.drop 136).take 97) h.text h.proof

/-- A credential judged (R259): BAD_FIELD, DENIED or OK; `holder` is the holder proof on Ethernet. -/
def State.judgeCred (s : State) (c : List Byte) (role : Nat) (holder : Option Holder) : Nat :=
  let tq := s.tqOf s.sdom
  let outside := (decide (tq = 2 ∨ tq = 3)) && (decide (s.now.sec < rdLE c 56 6) || decide (rdLE c 64 6 < s.now.sec))
  let proofBad : Bool := match holder with
    | some h => ((c.drop 136).take 97).all (· == 0) || !h.ok c
    | none => false
  if c.length ≠ 336 ∨ rdLE c 0 4 ≠ 0x4B435244 ∨ rdLE c 4 1 ≠ 1 then stField
  else if (c.drop 16).take 32 ≠ s.idDigest ∨ rdLE c 5 1 ≠ role ∨ outside ∨ s.credSigOk c = false ∨ proofBad then stDenied else 0

/-- The mask, grant and serial of a credential. -/
def State.fromCred (s : State) (c : List Byte) (role : Nat) : Nat × Nat × Nat :=
  (maskFor role (rdLE c 8 4), grantFor s.variant role (portBits s.variant (c.drop 72)), rdLE c 48 8)

/-- A session setup block (R211). -/
def setupRings (b : List Byte) : Rings where
  cmdBase := rdLE b 0 8
  cplBase := rdLE b 8 8
  evtBase := rdLE b 16 8
  recBase := rdLE b 24 8
  statBase := rdLE b 32 8
  cmdLog2 := rdLE b 40 1
  cplLog2 := rdLE b 41 1
  evtLog2 := rdLE b 42 1
  recLog2 := rdLE b 43 1
  cplVec := rdLE b 44 2
  evtVec := rdLE b 46 2
  recVec := rdLE b 48 2
  mod := rdLE b 50 2

def sizeOk (n : Nat) : Bool := decide (6 ≤ n ∧ n ≤ 16)

/-- BAD_FIELD of a setup block: a misaligned base, a size, a vector. -/
def Rings.bad (r : Rings) (vectors : Nat) : Bool :=
  let vec := fun (n : Nat) => (decide (n < vectors) || n == 0xffff)
  [r.cmdBase, r.cplBase, r.evtBase, r.recBase].any (fun b => b % 4096 != 0) || r.statBase % 64 != 0
    || !([r.cmdLog2, r.cplLog2, r.evtLog2, r.recLog2].all sizeOk) || !([r.cplVec, r.evtVec, r.recVec].all vec)

/-- The shadow an open after a swarm binds to: the lowest that qualifies and that no open awaiting an ACK has taken (R305). -/
def State.bindShadow (s : State) (o : OpenReq) : Option (Nat × Shadow) :=
  if s.pair.resumeFrom.isNone then none
  else s.pair.shadows.find? fun e =>
    let h := e.2
    !s.host.opening.contains e.1 &&
      (if o.carrier = 1 then h.carrier == 1 && h.vf == o.vf && h.role == o.role
      else if o.noCred then o.carrier == 0 && h.role == 1
      else h.credSerial == o.serial && h.role == o.role)

/-- Sessions an Ethernet carrier admits, and whether a carrier's limit or that of the device is reached (R207); an open that binds to
a shadow takes its number. -/
def State.ethLimit (s : State) : Nat := if s.has .dramU then 64 else 4
def State.openBusy (s : State) (carrier vf : Nat) (binds : Bool) : Bool :=
  (decide (4096 ≤ s.usedIds.length) && !binds)
    || (carrier == 1 && decide (64 ≤ (s.vfSessions vf).length))
    || (decide (2 ≤ carrier) && decide (s.ethLimit ≤ s.ethOpen))
    || (s.boot.recovery && !s.host.sess.isEmpty)

/-- Room for the open's entry and its close (R209); in recovery nothing is written. -/
def State.openRoom (s : State) : Bool := s.boot.recovery || s.ledgerRoom 2

/-- An open through a window judged in the order of R226: the status, and the request it would carry out. What was read
is judged, and an unread setup block or credential is DMA_ERROR after it. -/
def State.judgeOpen (s : State) (view : Nat) (w : Submitted) : Nat × OpenReq :=
  let d := w.desc
  let role := rdLE d 32 1
  let carrier := if view = 0 then 0 else 1
  let owned := s.flash.owner.isSome && !s.boot.recovery
  let needCred := view == 0 && owned
  let vf := SMap.find {} s.host.vfs view
  let denied := if view = 0 then (if owned then false else role != 1) else s.boot.recovery || role != vf.ceil || role < 2
  let rings := setupRings (w.mem.setup.getD [])
  let cred := w.mem.cred.getD []
  let lenBad := needCred && decide (rdLE d 16 4 ≠ 336)
  let judged := if needCred && !lenBad && w.mem.cred.isSome then s.judgeCred cred role none else 0
  let got := if needCred then s.fromCred cred role
    else if view = 0 then (0x3F, allPorts s.variant, 0)
    else (if role = 2 then 0x2B else 0x38, grantFor s.variant role vf.ports, 0)
  let tq := s.tqOf s.sdom
  let o : OpenReq := { carrier := carrier, vf := view, role := role, mask := got.1, grant := got.2.1, serial := got.2.2
                       unchecked := needCred && decide (tq < 2), noCred := !needCred, rings := rings }
  let bad := lenBad || !roleOk role || (w.mem.setup.isSome && rings.bad (if view = 0 then 2048 else 128))
  let op := rdLE d 0 2
  let st := firstStatus [
    (decide (op ≠ 1) && !commandKnown op, stUnknown), (s.lacksUnit op, stUnit), (decide (op ≠ 1), stField), (denied, stDenied),
    (judged != 0, judged), (bad, stField), (w.mem.setup.isNone || (needCred && w.mem.cred.isNone), stDma),
    (s.openBusy carrier view (s.bindShadow o).isSome, stBusy), (!s.openRoom, stLedger)]
  (st, o)
where
  /-- The opcodes of interface version 3.2 (R233). -/
  commandKnown (op : Nat) : Bool :=
    [0x0001, 0x0002, 0x0003, 0x0004, 0x0005, 0x0006, 0x0007, 0x0100, 0x0101, 0x0102, 0x0103, 0x0104, 0x0105, 0x0106, 0x0200,
      0x0201, 0x0202, 0x0300, 0x0400, 0x0401, 0x0402, 0x0403, 0x0500, 0x0600, 0x0601, 0x0700, 0x0701, 0x0800, 0x0801, 0x0802,
      0x0803, 0x0804, 0x0900, 0x0901, 0x0902, 0x0903, 0x0A00, 0x0A01, 0x0B00, 0x0B01].contains op

/-! ## Carrying an open out -/

/-- The number, slot and request of an open: those of the shadow it binds to, or a free number and slot. -/
def State.chooseOpen (s : State) (o : OpenReq) : (Nat × Nat × OpenReq) × State :=
  let j := if o.carrier = 1 then s.freeSlotOf o.vf else 0
  match s.bindShadow o with
  | some (q, h) => ((q, j, { o with mask := h.mask, grant := h.grant }), s)
  | none => let r := s.freeId; ((r.1, j, o), r.2)

/-- The registers of a session whose open is accepted: OPENING, role and carrier (R208). -/
def State.openingRegs (s : State) (q j : Nat) (o : OpenReq) : State :=
  let b := Adr.SESS q
  let s := s.resetRegs fun a => decide (b ≤ a ∧ a < b + 0x10)
  let s := ((s.put b Fl.SESS_STATE 1).put b Fl.SESS_ROLE o.role).put b Fl.SESS_CARRIER o.carrier
  if o.carrier = 1 then (s.put b Fl.SESS_VF o.vf).put b Fl.SESS_SLOT j else s

/-- An accepted open waits for the standby: its session is OPENING. -/
def State.beginOpening (s : State) (q j : Nat) (o : OpenReq) : State :=
  let s := s.openingRegs q j o
  State.showTotals { s with host := { s.host with opening := s.host.opening.filter (· != q) ++ [q] } }

/-- An accepted open that is not carried out: its number is free again. -/
def State.dropOpening (s : State) (q : Nat) : State :=
  if s.host.opening.contains q then
    let s := s.resetRegs fun a => decide (Adr.SESS q ≤ a ∧ a < Adr.SESS q + 0x10)
    State.showTotals { s with host := { s.host with opening := s.host.opening.filter (· != q) } }
  else s

/-- The session of an open carried out, from OPENING to OPEN: registers, ledger entry, queue, anchors. -/
def State.createSession (s : State) (q j : Nat) (o : OpenReq) (eth : Option EthSide) : State :=
  let b := Adr.SESS q
  let s := s.openingRegs q j o
  let s := { s with host := { s.host with opening := s.host.opening.filter (· != q) } }
  let s := (s.put b Fl.SESS_STATE 2).put b Fl.SESS_OPEN_NS32 s.ns32
  let bound := s.pair.shadows.any fun e => e.1 == q
  let x : Sess := {
    rings := o.rings, mask := o.mask, grant := o.grant, credSerial := o.serial, mirrored := decide (s.role = 1), eth := eth }
  let s := s.setSess q x
  let s := s.setPair { s.pair with shadows := SMap.erase s.pair.shadows q }
  let flags := b2i o.unchecked + 2 * b2i o.noCred
  let s := s.log 0x0010 q o.role (layout 52 [(0, le 1 o.carrier), (1, le 1 (if o.carrier = 1 then o.vf else 0)),
    (2, le 1 (if o.carrier = 1 then j else 0)), (3, le 1 flags), (4, le 4 o.mask),
    (8, le 2 (popCount (numPorts s.variant) o.grant)), (10, le 8 o.serial), (18, (sha384 (le 64 o.grant)).take 24)])
  let s := if bound then
      let s := s.put (Adr.QW q) Fl.QW_CHANNEL (carrierChannel o.carrier)
      s.onQueue q fun y =>
        let y := { y with shadow := false, fPrev := s.vtime (carrierChannel o.carrier) }
        { y with f := if y.items.isEmpty then none else some (s.finish q y) }
    else s.openQueue q (carrierChannel o.carrier) false
  let s := if bound then s.postAnchor q else s.anchorOpen q
  s.showTotals

/-- RESULT of SESSION_OPEN. -/
def openResult (q j : Nat) (o : OpenReq) : List Byte :=
  layout 16 [(0, le 2 (if o.carrier = 1 then j else q)), (2, le 1 o.role), (4, le 4 0x00030002), (8, le 4 o.mask)]

/-- The completion of an open in its window: DONE sets, BUSY clears. -/
def State.windowDone (s : State) (view status : Nat) (result : List Byte) : State :=
  match (s.host.opens.find? fun e => e.1 == view).map Prod.snd with
  | none => s
  | some w =>
    let c := completionBytes (rdLE w.desc 4 4) status (rdLE w.desc 0 2) 0 s.ns32 (if status = 0 then result else [])
    let b := winBase view
    let s := (List.range 8).foldl (fun s k => s.wr (b + 0x60 + 4 * k) (BitVec.ofNat 32 (rdLE c (4 * k) 4))) s
    let s := { s with host := { s.host with opens := SMap.erase s.host.opens view } }
    let s := (s.putFlag (b + 0x40) Fl.OPEN_CTL_BUSY false).putFlag (b + 0x40) Fl.OPEN_CTL_DONE true
    if status = stLedger then s.ledgerRefused else s

/-- The content of a SESSION transaction for an open. -/
def openData (q j : Nat) (o : OpenReq) : List Nat := [0, q, o.role, o.mask, o.grant, o.serial, o.carrier, o.vf, j, 0]

/-- An open through the window of `view`: judged, mirrored where the module is active, carried out. -/
def State.submitOpen (s : State) (view : Nat) (w : Submitted) : State :=
  let r := s.judgeOpen view w
  if r.1 ≠ 0 then s.windowDone view r.1 []
  else if s.pairMode then
    if s.linkUp then
      let c := s.chooseOpen r.2
      let s := (c.2.sendTxn txSession (openData c.1.1 c.1.2.1 c.1.2.2) forOpen view).beginOpening c.1.1 c.1.2.1 c.1.2.2
      { s with host := { s.host with opens := SMap.insert s.host.opens view { w with acking := true } } }
    else s.windowDone view stNoAck []
  else
    let c := s.chooseOpen r.2
    (c.2.createSession c.1.1 c.1.2.1 c.1.2.2 none).windowDone view 0 (openResult c.1.1 c.1.2.1 c.1.2.2)

/-- GO: the descriptor as it stands is submitted, or ignored while an open is in progress (R211). -/
def go (view : Nat) (mem : OpenMem) (s : State) : State :=
  let b := winBase view
  if s.viewOn view = false then s
  else if s.flag (b + 0x40) Fl.OPEN_CTL_BUSY then s.putFlag (b + 0x40) Fl.OPEN_CTL_GO_IGNORED true
  else
    let desc := (List.range 16).flatMap fun k => le 4 (s.rd (b + 4 * k)).toNat
    let s := s.putFlag (b + 0x40) Fl.OPEN_CTL_BUSY true
    { s with host := { s.host with opens := SMap.insert s.host.opens view ⟨desc, mem, false⟩ } }

def execGo (view : Nat) (mem : OpenMem) (s : State) : Host.Outcome State Fault Refusal := .next (go view mem s)

/-! ## Doorbells (R212, R219) -/

/-- The session a doorbell write acts on: one that is OPEN or FAULTED (R210, R212). -/
def State.doorOpen (s : State) (d : Doorbell) : Option (Nat × Sess) :=
  match s.doorSess d with
  | none => none
  | some q => if s.sessState q = 2 ∨ s.sessState q = 4 then (s.sess? q).map fun x => (q, x) else none

/-- A valid head between the ring's head and tail, modulo 2³². -/
def headOk (head tail v : Nat) : Bool := decide ((v + 2 ^ 32 - head) % 2 ^ 32 ≤ (tail + 2 ^ 32 - head) % 2 ^ 32)
def freed (head v : Nat) : Nat := (v + 2 ^ 32 - head) % 2 ^ 32

def cmdTail (d : Doorbell) (v : Word) (s : State) : State :=
  match s.doorOpen d with
  | none => s
  | some (q, x) =>
    let head := s.get (Adr.SESS q) Fl.SESS_CMD_HEAD
    if freed head v.toNat ≤ 2 ^ x.rings.cmdLog2 then s.setSess q { x with cmdTail := v.toNat }
    else s.doorbellErr q 0 v.toNat

def execCmdTail (d : Doorbell) (v : Word) (s : State) : Host.Outcome State Fault Refusal := .next (cmdTail d v s)

def cplHead (d : Doorbell) (v : Word) (s : State) : State :=
  match s.doorOpen d with
  | none => s
  | some (q, x) =>
    if headOk x.cplHead x.cplTail v.toNat then
      s.setSess q { x with cplHead := v.toNat, cpl := x.cpl.drop (freed x.cplHead v.toNat) }
    else s.doorbellErr q 4 v.toNat

def execCplHead (d : Doorbell) (v : Word) (s : State) : Host.Outcome State Fault Refusal := .next (cplHead d v s)

def evtHead (d : Doorbell) (v : Word) (s : State) : State :=
  match s.doorOpen d with
  | none => s
  | some (q, x) =>
    if headOk x.evtHead x.evtTail v.toNat then
      (s.setSess q { x with evtHead := v.toNat, evt := x.evt.drop (freed x.evtHead v.toNat) }).flushEvts q
    else s.doorbellErr q 8 v.toNat

def execEvtHead (d : Doorbell) (v : Word) (s : State) : Host.Outcome State Fault Refusal := .next (evtHead d v s)

def recHead (d : Doorbell) (v : Word) (s : State) : State :=
  match s.doorOpen d with
  | none => s
  | some (q, x) =>
    if headOk x.recHead x.recTail v.toNat then
      s.setSess q { x with recHead := v.toNat, recs := x.recs.drop (freed x.recHead v.toNat) }
    else s.doorbellErr q 0xC v.toNat

def execRecHead (d : Doorbell) (v : Word) (s : State) : Host.Outcome State Fault Refusal := .next (recHead d v s)

/-- MSI-X moderation (R221): a delayed message is raised as its interval ends, where the device may write for the session (R210,
R220). -/
def msixModerationEnd (q ring : Nat) (s : State) : State :=
  match s.sess? q with
  | none => s
  | some x =>
    let m := x.moder ring
    if m.pend && decide (ring < 3) && s.dmaOk q
        && (match m.last with | some t => decide (t + usTicks x.rings.mod ≤ s.tick) | none => true) then
      (s.setSess q (x.setModer ring { last := some s.tick, pend := false, raised := m.raised + 1 })).signal (s.sessFn q) (x.vec ring)
    else s

def execMsixModerationEnd (q ring : Nat) (s : State) : Host.Outcome State Fault Refusal := .next (msixModerationEnd q ring s)

/-! ## Fetching commands (R214, R215, R220) -/

/-- Commands pending in the ring of session `q`. -/
def State.pendingCmds (s : State) (q : Nat) (x : Sess) : Bool := x.cmdTail != s.get (Adr.SESS q) Fl.SESS_CMD_HEAD

/-- A session a command could be taken from. -/
def State.canTake (s : State) (q : Nat) (x : Sess) : Bool :=
  s.serves && s.sessState q == 2 && x.taken.isNone && x.cplHeld.isEmpty && s.pendingCmds q x && s.dmaOk q
    && ringFree x.rings.cplLog2 x.cplHead x.cplTail 1

/-- A command could be taken from session `q`. -/
def State.waits (s : State) (q : Nat) : Bool := match s.sess? q with | some x => s.canTake q x | none => false

/-- Whether it is not the turn of session `q`: the session being served keeps its turn for up to 8 commands while it has one
that can be taken; then the next in ascending order with one has its turn (R214). -/
def State.turnOver (s : State) (q : Nat) : Bool :=
  let p := s.host.turnOf.getD 4095
  let ids := s.sessIds
  let next := ((ids.filter fun n => decide (p < n)) ++ ids.filter fun n => decide (n ≤ p)).find? fun n => s.waits n
  let keeps := s.host.turnOf.isSome && s.waits p && (match s.sess? p with | some x => decide (x.turn < 8) | none => false)
  if keeps then q != p else next != some q

/-- The bytes a buffer of the bulk window holds. -/
def EthSide.read (e : EthSide) (a n : Nat) : List Byte := (List.range (min n 524288)).map fun k => SMap.find 0 e.bulk (a + k)

/-- What a session's fetch brings through the checkers of the PCIe endpoint (R313, R318): a correctable error is reported; an
uncorrectable one faults the sessions of the function. -/
def State.pcieParity (s : State) (q : Nat) : State :=
  let c := s.checkPass 0xA8
  let s := if c.1 then c.2.assertFault 0xA8 { access := 0, master := 5 } false else c.2
  let u := s.checkPass 0xA9
  if u.1 then
    let cls := u.2.classFor 0xA9
    let s := u.2.assertFault 0xA9 { access := 0, master := 5 } false
    if cls = 1 then (s.fnSessions (s.sessFn q)).foldl (fun s n => s.dmaFault n) s else s
  else u.2

/-- A command's buffer read from the bulk window: bad check bits assert DRAM_SESS and the session is FAULTED (R313). -/
def State.bulkParity (s : State) (q : Nat) : State :=
  if s.checkBad 0xA7 q then
    let s := (s.checkClear 0xA7 q).assertFault 0xA7 { access := 0, master := 6 } false
    if s.sessState q = 2 then s.put (Adr.SESS q) Fl.SESS_STATE 4 else s
  else s

/-- One command taken, from a descriptor and its buffer. An opcode that interface version 3.2 does not have completes at
once. -/
def State.takeCmd (s : State) (q : Nat) (x : Sess) (desc : List Byte) (buf : Option (List Byte)) (sigOk : Bool) : State :=
  let head := s.get (Adr.SESS q) Fl.SESS_CMD_HEAD
  let t : Taken := {
    op := rdLE desc 0 2, flags := rdLE desc 2 2, tag := rdLE desc 4 4, bufAddr := rdLE desc 8 8, bufLen := rdLE desc 16 4
    params := fit 40 (desc.drop 24), index := head, buf := buf.getD [], bufOk := buf.isSome, sigOk := sigOk
    role := s.sessRole q, mask := x.mask, grant := x.grant, phase := .ready }
  let others := s.host.sess.map fun e => (if e.1 = q then e else (e.1, { e.2 with turn := 0 }))
  let keeps := s.host.turnOf == some q && decide (x.turn < 8)
  let s := { s with host := { s.host with sess := others, turnOf := some q } }
  let x := { x with
    taken := some t, turn := if keeps then x.turn + 1 else 1
    fetchAt := if x.eth.isSome then x.fetchAt else entryAt x.rings.cmdBase x.rings.cmdLog2 64 head }
  let s := (s.setSess q x).put (Adr.SESS q) Fl.SESS_CMD_HEAD (head + 1)
  let s := (s.checkWrite 0xA0 q).checkWrite 0xA2 q
  let reads := if buf.isSome then (t.bufLen + 4095) / 4096 else 0
  let s := if x.eth.isSome then (if t.bufLen = 0 then s else s.bulkParity q) else (s.storeCommand.hubEvent 0x0C (1 + reads)).pcieParity q
  let s := (s.hubEvent 0x08 1).writeStat q 3
  let known := if s.boot.recovery then t.op == 0x0B00 || t.op == 0x0B01 else State.judgeOpen.commandKnown t.op
  if known then s else s.complete q stUnknown []

/-- COMMAND_FETCH: the next command of session `q`, in ring order, once the one before has completed. -/
def commandFetch (q : Nat) (f : Fetch) (s : State) : State :=
  match s.sess? q with
  | none => s
  | some x =>
    if s.canTake q x = false ∨ s.turnOver q = true then s
    else
      match x.eth, f with
      | none, .entry desc buf sigOk => s.takeCmd q x (fit 64 desc) buf sigOk
      | none, .failed => s.dmaFault q
      | some e, f =>
        match e.cmds with
        | [] => s
        | d :: rest =>
          let ok := match f with | .entry _ _ sigOk => sigOk | .failed => false
          let x := { x with eth := some { e with cmds := rest } }
          (s.setSess q x).takeCmd q x d (some (e.read (rdLE d 8 8) (rdLE d 16 4))) ok

def execCommandFetch (q : Nat) (f : Fetch) (s : State) : Host.Outcome State Fault Refusal := .next (commandFetch q f s)

/-! ## Warm reset (R254, R362) -/

/-- A warm reset begins: GO_OK clears, every session enters CLOSING, opens in progress are gone; once the commands taken have
completed, the hub cores are reset. -/
def State.beginWarm (s : State) : State :=
  if s.boot.warmDue then s
  else
    let s := s.setPlan { s.plan with goStop := true }
    let open' := s.sessIds.filter fun q => s.sessState q != 3
    let s := open'.foldl (fun s q => s.shut q) s
    let s := (s.host.opens.map Prod.fst).foldl (fun s v => s.putFlag (winBase v + 0x40) Fl.OPEN_CTL_BUSY false) s
    let s := s.host.opening.foldl (fun s q => s.dropOpening q) s
    let s := { s with host := { s.host with opens := [], hellos := [] } }
    let x := s.boot
    ((s.setBoot { x with warmDue := true }).refreshGo).warmGoes

/-! ## Function resets (R210, R372) -/

/-- Every session of a function enters CLOSING, and the device issues no further DMA for it where `stop`. -/
def State.closeFn (s : State) (fn cause : Nat) (stop : Bool) : State :=
  let qs := s.fnSessions fn
  let s := if stop ∧ !qs.isEmpty then
      { s with host := { s.host with noDma := if s.host.noDma.contains fn then s.host.noDma else s.host.noDma ++ [fn] } }
    else s
  let s := { s with host := { s.host with opens := SMap.erase s.host.opens fn } }
  let s := s.putFlag (winBase fn + 0x40) Fl.OPEN_CTL_BUSY false
  qs.foldl (fun s q => s.beginClose q cause) s

/-- NumVFs becomes `n`: the views beyond it are gone with all they hold of their own. -/
def State.setNumVfs (s : State) (n : Nat) : State :=
  let s := s.resetRegs fun a => decide (vfAdr (n + 1) 0 ≤ a)
  { s with host := { s.host with
    msix := SMap.drop (fun k => decide (n < k / 2048)) s.host.msix, cfg := SMap.drop (fun k => decide (n < k / 4096)) s.host.cfg
    numVfs := n, busMaster := s.host.busMaster.filter fun f => f == 0 || decide (f ≤ n) } }

/-- The VFs above `n` are removed: their sessions close with cause 0x4. -/
def State.removeVfs (s : State) (n cause : Nat) : State :=
  let gone := (List.range (s.host.numVfs + 1)).filter fun f => decide (n < f)
  (gone.foldl (fun s f => s.closeFn f cause false) s).setNumVfs n

/-- The MSI-X tables of the functions that `p` names take their reset values. -/
def State.resetMsix (s : State) (p : Nat → Bool) : State :=
  { s with host := { s.host with msix := SMap.drop (fun k => p (k / 2048)) s.host.msix } }

def functionLevelReset (fn : Nat) (s : State) : State :=
  if s.viewOn fn then
    let s := ((s.closeFn fn 3 true).resetMsix (· == fn)).resetCfg (· == fn)
    let s := { s with host := { s.host with busMaster := s.host.busMaster.filter (· != fn) } }
    if fn = 0 then s.removeVfs 0 3 else s
  else s

def execFunctionLevelReset (fn : Nat) (s : State) : Host.Outcome State Fault Refusal := .next (functionLevelReset fn s)

def vfRemoval (numVfs : Nat) (s : State) : State := if numVfs < s.host.numVfs then s.removeVfs numVfs 4 else s

def execVfRemoval (numVfs : Nat) (s : State) : Host.Outcome State Fault Refusal := .next (vfRemoval numVfs s)

/-- VF_ENABLE: views up to NumVFs exist; the grants kept apply again. In recovery only PF0 is presented. -/
def vfEnable (numVfs : Nat) (s : State) : State :=
  if s.host.pcieUp && s.bridgeOn && !s.boot.recovery && decide (s.host.numVfs < numVfs ∧ numVfs ≤ 63) then
    { s with host := { s.host with numVfs := numVfs } }
  else s

def execVfEnable (numVfs : Nat) (s : State) : Host.Outcome State Fault Refusal := .next (vfEnable numVfs s)

/-- What Bus Master Enable held back is written as it is set again (R210, R219). -/
def State.resumeDma (s : State) (q : Nat) : State :=
  match s.sess? q with
  | none => s
  | some x =>
    let s := s.setSess q { x with cplHeld := [] }
    (x.cplHeld.foldl (fun s e => s.writeCpl q e) s).flushEvts q

/-- BUS_MASTER_ENABLE: a change of a function's Bus Master Enable; `wrOk` says whether the writes the device issues for the
function go through from now on (R220). -/
def busMasterEnable (fn : Nat) (on wrOk : Bool) (s : State) : State :=
  if s.viewOn fn then
    let rest := s.host.busMaster.filter (· != fn)
    let bad := s.host.wrBad.filter (· != fn)
    let s := { s with host := { s.host with
      busMaster := if on then rest ++ [fn] else rest, wrBad := if wrOk then bad else bad ++ [fn] } }
    if on then ((s.fnSessions fn).foldl (fun s q => s.resumeDma q) s).sendPending fn else s
  else s

def execBusMasterEnable (fn : Nat) (on : BusMaster) (s : State) : Host.Outcome State Fault Refusal :=
  .next (busMasterEnable fn on.enable on.wrOk s)

/-- PERST_N low (R361): the endpoint, its configuration and SR-IOV state are reset; PF0 and VF sessions close, cause 0x5. -/
def perstN (s : State) : State :=
  let b := s.boot
  let s := s.setBoot { b with perstLow := true }
  let fns := List.range (s.host.numVfs + 1)
  let s := fns.foldl (fun s f => s.closeFn f 5 true) s
  let s := ((s.setNumVfs 0).resetMsix fun _ => true).resetCfg fun _ => true
  { s with host := { s.host with pcieUp := false, busMaster := [] } }

def execPerstN (s : State) : Host.Outcome State Fault Refusal := .next (perstN s)

/-- PERST_N high: the endpoint trains, and answers once Gwynique runs (R354). -/
def perstNRelease (s : State) : State :=
  let b := s.boot
  let s := s.setBoot { b with perstLow := false }
  if s.powered 26 then { s with host := { s.host with pcieUp := true } } else s

def execPerstNRelease (s : State) : Host.Outcome State Fault Refusal := .next (perstNRelease s)

end Sys2Proof.Machine
end

