-- ==== Sys2Proof/Machine/Ethernet.lean ====
section
/-! DEFINITION. The management Ethernet transport (spec/11_host_sessions_mailboxes.md R222 to R225). -/

namespace Sys2Proof.Machine

/-- A datagram in the buffer of a MAC: one with bad parity is dropped and reported (R313, R318). -/
def State.macBuffer (s : State) (port : Nat) (f : State → State) : State :=
  let c := s.checkPass 0xAA
  if c.1 then c.2.assertFault 0xAA { access := 0, master := 6 + port } false else f s

/-! ## HELLO -/

/-- An answer to a HELLO. -/
def State.reply (s : State) (port : Nat) (d : Sent) : State :=
  let s := s.hubEvent 0x0D 1
  if port = 0 then { s with host := { s.host with reply0 := some d } } else { s with host := { s.host with reply1 := some d } }

/-- A datagram of the handshake, sent in clear to the source of its HELLO. -/
def handshake (h : Hello) (ty q : Nat) (body : List Byte) : Sent :=
  Sent.sealed {
    port := h.port, addr := h.srcAddr, udp := h.srcPort, ty := ty, count := body.length, q := q, epoch := 0, seq := 0, index := 0
    body := body, payload := [] } []

def State.reject (s : State) (h : Hello) (status : Nat) : State :=
  let s := if status = stLedger then s.ledgerRefused else s
  s.reply h.port (handshake h 0x03 0 (le 1 status))

/-- Where DRAM is absent, sizes of the completion and event rings above 2¹⁰ are taken as 2¹⁰ (R225). -/
def State.ethSize (s : State) (n : Nat) : Nat := if s.has .dramU then n else min n 10

/-- The holder proof of a HELLO, and the text it signs (R258). -/
def holderOf (h : Hello) : Holder := ⟨h.hostKey ++ h.nonce ++ le 1 (h.port + 1), h.proof⟩

/-- A HELLO judged up to its own codes. -/
def State.judgeHello (s : State) (h : Hello) : Nat × OpenReq :=
  let judged := s.judgeCred h.cred h.role (some (holderOf h))
  let got := s.fromCred h.cred h.role
  let o : OpenReq := { carrier := 2 + h.port, vf := 0, role := h.role, mask := got.1, grant := got.2.1, serial := got.2.2
                       unchecked := decide (s.tqOf s.sdom < 2), noCred := false
                       rings := { cmdLog2 := h.cmdLog2, cplLog2 := s.ethSize h.cplLog2, evtLog2 := s.ethSize h.evtLog2 } }
  let st := firstStatus [
    (s.flash.owner.isNone, stDenied), (judged != 0, judged),
    (!roleOk h.role || !([h.cmdLog2, h.cplLog2, h.evtLog2].all sizeOk), stField), (s.openBusy (2 + h.port) 0 (s.bindShadow o).isSome, stBusy),
    (!s.openRoom, stLedger)]
  (st, o)

/-- The body of ACCEPT with key agreement and signature `n` under the identity key: ephemeral key, N_d, q, interface version, signature. -/
def acceptBody (key n q : Nat) : List Byte :=
  tableBytes 97 (Config.nonceByte n) ++ tableBytes 32 (fun k => Config.nonceByte n (97 + k)) ++ le 2 q ++ le 4 0x00030002
    ++ tableBytes 96 (Config.sigByte key n)

/-- The session of an accepted HELLO, with its transport key. -/
def State.acceptHello (s : State) (h : Hello) (q : Nat) (o : OpenReq) : State :=
  let n := s.free
  let s := { s with free := s.free + 1 }
  let nd := tableBytes 32 (fun k => Config.nonceByte n (97 + k))
  let key := hkdf32 (tableBytes 48 (Config.ecdhByte n)) (h.nonce ++ nd) (ascii "KT-SESS")
  let e : EthSide := {
    port := h.port, hostAddr := h.srcAddr, hostUdp := h.srcPort, key := key, oldKey := [], epoch := 0, rekeyTick := none
    rxSeq := none, txSeq := 1, lastRx := s.tick, bulk := [], lastRepeat := 0, cmds := [] }
  let s := s.reply h.port (handshake h 0x02 q (acceptBody s.flash.keys.idPriv n q))
  s.createSession q 0 o (some e)

/-- The transport UDP port of a management port: 7441 until NET_CFG sets one (R222, R235). -/
def State.udpPort (s : State) (port : Nat) : Nat :=
  let n := rdLE (if port = 0 then s.host.net0 else s.host.net1) 6 2
  if n = 0 then 7441 else n

/-- The header of a datagram from a host as R223 lays it out: magic, version, TYPE, the channel of its port, DIR. -/
def hostHeadOk (h : DgHead) (ty port : Nat) : Bool :=
  h.magic == 0x4B435458 && h.version == 1 && h.ty == ty && h.channel == port + 1 && h.dir == 2

/-- HELLO (R222): at the transport UDP port it is judged, and answered with REJECT or, once the open is carried out, ACCEPT. -/
def hello (h : Hello) (s : State) : State :=
  if s.gwqRuns && !s.boot.warmDue && s.has .mgmtU && s.powered 27 && decide (h.port < 2) && hostHeadOk h.head 0x01 h.port && h.head.q == 0
      && h.dstPort == s.udpPort h.port then
    let r := s.judgeHello h
    if r.1 ≠ 0 then s.reject h r.1
    else if s.pairMode then
      if s.linkUp then
        let c := s.chooseOpen r.2
        let s := (c.2.sendTxn txSession (openData c.1.1 c.1.2.1 c.1.2.2) forHello h.port).beginOpening c.1.1 c.1.2.1 c.1.2.2
        { s with host := { s.host with hellos := SMap.insert s.host.hellos s.tseq h } }
      else s.reject h stNoAck
    else
      let c := s.chooseOpen r.2
      c.2.acceptHello h c.1.1 c.1.2.2
  else s

def execHello (h : Hello) (s : State) : Host.Outcome State Fault Refusal := .next (s.macBuffer h.port fun s => hello h s)

/-! ## Datagrams of an open session (R223, R224) -/

/-- The 32 bytes of a header, the additional authenticated data of its datagram (R223). -/
def headBytes (h : DgHead) : List Byte :=
  le 4 h.magic ++ le 1 h.version ++ le 1 h.ty ++ le 2 h.count ++ le 2 h.q ++ le 1 h.channel ++ le 1 h.dir ++ le 4 h.epoch
    ++ le 8 h.dgramSeq ++ le 8 h.index

/-- The key of a datagram's KEY_EPOCH: the current one, or for 100 ms after a rekey the previous one (R224). -/
def EthSide.keyFor (e : EthSide) (epoch tick : Nat) : Option (List Byte) :=
  let grace : Bool := match e.rekeyTick with | some t => decide (tick ≤ t + msTicks 100) | none => false
  if epoch = e.epoch then some e.key else if grace ∧ epoch + 1 = e.epoch then some e.oldKey else none

/-- A datagram decrypted; none where its tag fails. -/
def clearBody (d : Datagram) (key : List Byte) : Option (List Byte) :=
  gcmOpen key (sessNonce d.head.q d.head.channel d.head.dir d.head.dgramSeq) (headBytes d.head) d.payload

/-- A datagram of type `ty` of an OPEN Ethernet session that is not discarded, and its body in clear: its header, its
DGRAM_SEQ, its KEY_EPOCH and its tag hold. -/
def State.rxOk (s : State) (d : Datagram) (ty : Nat) : Option (Sess × EthSide × List Byte) :=
  match s.sess? d.q with
  | none => none
  | some x =>
    match x.eth with
    | none => none
    | some e =>
      let fresh : Bool := match e.rxSeq with | some n => decide (n < d.head.dgramSeq) | none => true
      if s.sessState d.q = 2 ∧ d.port = e.port ∧ hostHeadOk d.head ty d.port ∧ fresh ∧ s.gwqRuns then
        ((e.keyFor d.head.epoch s.tick).bind (clearBody d)).map fun b => (x, e, b)
      else none

/-- The datagram is accepted. -/
def State.rxTake (s : State) (d : Datagram) (x : Sess) (e : EthSide) : State :=
  s.setSess d.q { x with eth := some { e with rxSeq := some d.head.dgramSeq, lastRx := s.tick } }

/-- ACK: the heads of the completion and event rings, and the entries from there on sent again, at most once per 1 ms. -/
def State.rxAck (s : State) (q : Nat) (body : List Byte) : State :=
  match s.sess? q with
  | none => s
  | some x =>
    let cpl := rdLE body 0 4
    let evt := rdLE body 4 4
    let x := if headOk x.cplHead x.cplTail cpl then { x with cplHead := cpl, cpl := x.cpl.drop (freed x.cplHead cpl) } else x
    let x := if headOk x.evtHead x.evtTail evt then { x with evtHead := evt, evt := x.evt.drop (freed x.evtHead evt) } else x
    let again : Bool := match x.eth with
      | some e => (decide (e.lastRepeat + msTicks 1 ≤ s.tick)) && !(x.cpl.isEmpty && x.evt.isEmpty)
      | none => false
    let s := s.setSess q x
    let s := if again then
        let s := s.onSess q fun x => { x with eth := x.eth.map fun e => { e with lastRepeat := s.tick } }
        let s := if x.cpl.isEmpty then s else s.sendEth q 0x05 x.cpl.length x.cplHead x.cpl.flatten
        if x.evt.isEmpty then s else s.sendEth q 0x06 x.evt.length x.evtHead x.evt.flatten
      else s
    s.flushEvts q

/-- The COUNT descriptors of a CMD datagram's body, 64 bytes each, after its ACK. -/
def descsOf (count : Nat) (body : List Byte) : List (List Byte) :=
  (List.range count).map fun k => fit 64 ((body.drop (8 + 64 * k)).take 64)

/-- CMD: descriptors from CMD_HEAD on wait in the session's command ring; those below are retransmissions. -/
def cmd (d : Datagram) (s : State) : State :=
  match s.rxOk d 0x04 with
  | none => s
  | some (x, e, body) =>
    let head := s.get (Adr.SESS d.q) Fl.SESS_CMD_HEAD
    let behind := freed (d.head.index % 2 ^ 32) head
    if 2 ^ 31 ≤ behind then s
    else
      let s := (s.rxTake d x e).rxAck d.q body
      let fresh := ((descsOf d.head.count body).drop behind).take (2 ^ x.rings.cmdLog2)
      if fresh.length ≤ e.cmds.length then s
      else s.onSess d.q fun x => { x with
        cmdTail := (head + fresh.length) % 2 ^ 32, eth := x.eth.map fun e => { e with cmds := fresh } }

def execCmd (d : Datagram) (s : State) : Host.Outcome State Fault Refusal := .next (s.macBuffer d.port fun s => cmd d s)

/-- BULK_W: bytes written into the bulk window; those past its end are not. -/
def bulkW (d : Datagram) (s : State) : State :=
  match s.rxOk d 0x07 with
  | none => s
  | some (x, e, body) =>
    let s := s.checkWrite 0xA7 d.q
    let bs := (body.take d.head.count).zipIdx.filter fun b => decide (d.head.index + b.2 < 524288)
    s.rxTake d x { e with bulk := bs.foldl (fun m b => SMap.put 0 m (d.head.index + b.2) b.1) e.bulk }

def execBulkW (d : Datagram) (s : State) : Host.Outcome State Fault Refusal := .next (s.macBuffer d.port fun s => bulkW d s)

/-- BULK_R: the bytes asked for are returned in BULK_D. -/
def bulkR (d : Datagram) (s : State) : State :=
  match s.rxOk d 0x08 with
  | none => s
  | some (x, e, body) =>
    let s := (s.rxTake d x e).rxAck d.q body
    let n := min (rdLE body 8 4) (524288 - d.head.index)
    let s := s.bulkParity d.q
    s.sendEth d.q 0x09 n d.head.index (e.read d.head.index n)

def execBulkR (d : Datagram) (s : State) : Host.Outcome State Fault Refusal := .next (s.macBuffer d.port fun s => bulkR d s)

/-- KEEPALIVE. -/
def keepalive (d : Datagram) (s : State) : State :=
  match s.rxOk d 0x0A with
  | none => s
  | some (x, e, body) => (s.rxTake d x e).rxAck d.q body

def execKeepalive (d : Datagram) (s : State) : Host.Outcome State Fault Refusal := .next (s.macBuffer d.port fun s => keepalive d s)

/-- CLOSE: the session enters CLOSING as by its own command. -/
def closeDatagram (d : Datagram) (s : State) : State :=
  match s.rxOk d 0x0B with
  | none => s
  | some (x, e, _) =>
    let s := (s.rxTake d x e).beginClose d.q 1
    if x.mirrored then s.tellTxn txSession [1, d.q, 0, 0, 0, 0, 0, 0, 0, 1] else s

def execCloseDatagram (d : Datagram) (s : State) : Host.Outcome State Fault Refusal := .next (s.macBuffer d.port fun s => closeDatagram d s)

/-- IDLE_TIMEOUT: 10 s without a valid datagram. -/
def idleTimeout (q : Nat) (s : State) : State :=
  match s.sess? q with
  | none => s
  | some x =>
    match x.eth with
    | none => s
    | some e => if (s.sessState q = 2 ∨ s.sessState q = 4) ∧ e.lastRx + 10 * 625000000 ≤ s.tick then s.beginClose q 2 else s

def execIdleTimeout (q : Nat) (s : State) : Host.Outcome State Fault Refusal := .next (idleTimeout q s)

end Sys2Proof.Machine
end

