-- ==== Sys2Proof/Machine/Mailbox.lean ====
section
/-! DEFINITION. How Gwynique carries a taken command out (spec/12_mailbox_commands.md R227 to R231): the order in which
its status is decided, and write-ahead. -/

namespace Sys2Proof.Machine

/-- A field of PARAMS by its descriptor offset. -/
def Taken.p (t : Taken) (off k : Nat) : Nat := rdLE t.params (off - 24) k
def Taken.flag (t : Taken) (n : Nat) : Bool := t.flags.testBit n

/-- A time field T: second and nanosecond; BAD_FIELD where NS30 is a second or more. -/
def Taken.sec (t : Taken) (off : Nat) : Nat := t.p off 6
def Taken.ns (t : Taken) (off : Nat) : Nat := t.p (off + 8) 4
def Taken.badTime (t : Taken) (off : Nat) : Bool := decide (1000000000 ≤ t.ns off)

/-- The opcode's row runs: session `q` has taken a command with this opcode and nothing holds it. -/
def State.taken? (s : State) (q op : Nat) : Option Taken :=
  match s.sess? q with
  | none => none
  | some x =>
    match x.taken with
    | some t => if t.op = op ∧ t.phase = .ready ∧ s.serves then some t else none
    | none => none

/-- A hub core reads the command it runs from working SRAM over the matrix (R313, R318): bad check bits assert HSRAM, whose contained
action is a warm reset once the commands taken have completed, or HBUS. -/
def State.cmdParity (s : State) (q : Nat) : State :=
  let s := if s.checkBad 0xA0 q then
      let s := s.checkClear 0xA0 q
      (if s.classFor 0xA0 = 1 then s.beginWarm else s).assertFault 0xA0 { access := 0, master := 0, addr := 64 * q } false
    else s
  if s.checkBad 0xA2 q then (s.checkClear 0xA2 q).assertFault 0xA2 { access := 0, master := 0, addr := 64 * q } false else s

/-- The row of a command of session `q`, where its turn has come. -/
def State.runCmd (s : State) (q op : Nat) (f : State → Taken → State) : State :=
  match s.taken? q op with
  | some t => f (s.cmdParity q) t
  | none => s

/-- The taken command moves to another phase. -/
def State.setPhase (s : State) (q : Nat) (p : Phase) : State :=
  s.onSess q fun x => { x with taken := x.taken.map fun t => { t with phase := p } }

/-- A command refused; LEDGER_FULL counts. -/
def State.refuse (s : State) (q status : Nat) : State :=
  (if status = stLedger then s.ledgerRefused else s).complete q status []

/-- What any command needs before its own codes: roles, a capability bit, fields, a buffer that was read. -/
structure Needs where
  roles : List Nat := [1]
  bit : Option Nat := none
  denied : Bool := false
  bad : Bool := false
  reads : Bool := false

/-- A buffer of an Ethernet session that reaches past its bulk window (R225). -/
def State.pastBulk (s : State) (q : Nat) (addr len : Nat) : Bool :=
  decide (2 ≤ s.sessCarrier q) && len != 0 && decide (524288 < addr + len)

/-- UNIT_ABSENT, DENIED, BAD_FIELD, DMA_ERROR in that order (R226). -/
def State.preStatus (s : State) (q : Nat) (t : Taken) (n : Needs) : Nat :=
  let lacks := match n.bit with | some b => !t.mask.testBit b | none => false
  firstStatus [
    (s.lacksUnit t.op, stUnit), (!n.roles.contains t.role || lacks || n.denied, stDenied),
    (n.bad || s.pastBulk q t.bufAddr t.bufLen, stField), (n.reads && t.bufLen != 0 && !t.bufOk, stDma)]

/-- A command that acts at once: its status in the order of R226 and R229, and what it does where that is OK. -/
def State.actCmd (s : State) (q op : Nat) (needs : State → Taken → Needs) (own : State → Taken → Nat) (entries : Nat)
    (act : State → Taken → State) : State :=
  s.runCmd q op fun s t =>
    let pre := s.preStatus q t (needs s t)
    if pre ≠ 0 then s.refuse q pre
    else if own s t ≠ 0 then s.refuse q (own s t)
    else if entries ≠ 0 ∧ !s.boot.recovery ∧ s.ledgerRoom entries = false then s.refuse q stLedger
    else act s t

/-- The standby's acknowledgement of a command, or its acceptance where nobody is asked: the tick from which leads are
measured, and the tick of T_make that the standby formed for a NOW commit. -/
structure Ack where
  tick : Nat
  make : Option Nat
  deriving DecidableEq, Repr

/-- A write-ahead command: what it needs, its own codes (none = before the acknowledgement), the ledger entries it takes,
its transaction, whether it acts on this module alone, and its effect. -/
structure Ahead where
  op : Nat
  needs : State → Nat → Taken → Needs
  own : State → Nat → Taken → Option Ack → Nat
  entries : Nat
  isLocal : State → Nat → Taken → Bool
  txn : State → Nat → Taken → Nat × List Nat
  act : State → Nat → Taken → Ack → State

/-- A write-ahead command as it is taken (R229, R231). -/
def State.aheadCmd (s : State) (q : Nat) (c : Ahead) : State :=
  s.runCmd q c.op fun s t =>
    let pre := s.preStatus q t (c.needs s q t)
    let alone := c.isLocal s q t
    let waits := s.pairMode && !alone
    let now : Ack := ⟨s.tick, none⟩
    let own := c.own s q t (if waits then none else some now)
    if pre ≠ 0 then s.refuse q pre
    else if s.role = 2 ∧ alone = false then s.refuse q stNotActive
    else if own ≠ 0 then s.refuse q own
    else if c.entries ≠ 0 ∧ s.ledgerRoom c.entries = false then s.refuse q stLedger
    else if waits = false then c.act s q t now
    else if s.linkUp = false then s.refuse q stNoAck
    else
      let x := c.txn s q t
      (s.sendTxn x.1 x.2 forSession q).setPhase q .acking

/-- A write-ahead command whose acknowledgement has come: carried out, or refused with a VOID (R298, R299). -/
def State.aheadAck (s : State) (q : Nat) (c : Ahead) (a : Ack) (tseq : Nat) : State :=
  match s.sess? q with
  | none => s.sendVoid tseq
  | some x =>
    match x.taken with
    | none => s.sendVoid tseq
    | some t =>
      let own := c.own s q t (some a)
      if own ≠ 0 then (s.sendVoid tseq).refuse q own
      else if c.entries ≠ 0 ∧ s.ledgerRoom c.entries = false then (s.sendVoid tseq).refuse q stLedger
      else c.act s q t a

end Sys2Proof.Machine
end

