-- ==== Sys2Proof/Machine/Compile.lean ====
section
/-! DEFINITION. Compiles (spec/06_reconfiguration.md R104 to R111, spec/12_mailbox_commands.md R237): one at a time, in
the order they were taken; the base taken as each starts; the slot and the report written as it ends. -/

namespace Sys2Proof.Machine

/-- GENERATION that the latest accepted commit has, or will have at its break. -/
def State.followedGen (s : State) : Nat :=
  (s.plan.commits.filter fun c => c.phase == 0).foldl (fun g c =>
    match c.setGen with | some n => n | none => (g + 1) % 65536) (s.get Adr.PLAN_STAT Fl.PLAN_STAT_GENERATION)

/-- The base that a compile started now takes for the BASE field of its list (R104, R107, R111). -/
def State.baseFor (s : State) (b : Nat) : Base :=
  if b < 0x100 then
    match s.slot? b with
    | some x => ⟨x.words, true, x.carried.isNone, x.carried.getD 0⟩
    | none => ⟨[], true, true, 0⟩
  else ⟨s.followed, false, false, s.followedGen⟩

/-- The compile at the head of the queue starts, if it has not: a hub core reads the slot that BASE names, whose bad check bits assert
DRAM_PLAN (R313). -/
def State.startCompile (s : State) : State :=
  match s.plan.compiles with
  | [] => s
  | x :: rest =>
    match x.base with
    | some _ => s
    | none =>
      let b := rdLE x.list 6 2
      let s := if b < 0x100 then s.slotParity b 0x00 else s
      s.setPlan { s.plan with compiles := { x with base := some (s.baseFor b) } :: rest }

/-- A compile taken: it waits its turn. -/
def State.queueCompile (s : State) (x : Compile) : State :=
  State.startCompile (s.setPlan { s.plan with compiles := s.plan.compiles ++ [x] })

/-- The slot of a compile that asks for any: the lowest EMPTY slot that no waiting compile will write. -/
def State.anySlot (s : State) : Option Nat :=
  (List.range (numSlots s.variant)).find? fun n => (s.slot? n).isNone && !s.plan.compiles.any fun c => c.id == n

/-- What a compile found, as its report and completion say it. -/
structure Found where
  out : Compiled
  dmax : Nat
  ds : Nat
  noColl : Bool
  deriving DecidableEq, Repr

/-- The report (R111) cut to `len` bytes at the last whole entry, and whether it was cut. -/
def reportBytes (v : Variant) (status time len : Nat) (x : Compile) (b : Base) (f : Found) : List Byte × Bool :=
  let flags := (if f.noColl then 1 else 0) + (if b.named then 2 else 0) + (if b.notCarried then 4 else 0)
  let head := layout 64 [(0, le 2 status), (2, le 1 x.id), (3, le 1 flags), (4, le 2 b.gen), (6, le 2 f.out.circuits),
    (8, le 2 f.out.collateral.length), (10, le 2 f.out.losers.length), (12, le 2 f.out.ignored.length), (14, le 2 f.dmax),
    (16, le 2 f.ds), (18, le 2 time), (20, (sha384 (slotBytes v f.out.words)).take 32)]
  let list := (f.out.collateral ++ f.out.losers ++ f.out.ignored).map (le 2)
  let n := (len - 64) / 2
  (head ++ (list.take n).flatten, decide (n < list.length))

/-- The report written where REPORT_ADDR points. -/
def State.writeReport (s : State) (q addr : Nat) (bs : List Byte) : State :=
  s.onSess q fun x =>
    match x.eth with
    | some e =>
      { x with report := (addr, bs), eth := some { e with
          bulk := (bs.zipIdx).foldl (fun m b => SMap.put 0 m (addr + b.2) b.1) e.bulk } }
    | none => if s.dmaOk q then { x with report := (addr, bs) } else x

/-- RESULT of PLAN_COMPILE. -/
def compileResult (id : Nat) (trunc : Bool) (f : Found) : List Byte :=
  le 1 id ++ le 1 (b2i trunc) ++ le 2 f.out.circuits ++ le 2 f.out.collateral.length ++ le 2 f.out.losers.length
    ++ le 2 f.out.ignored.length ++ le 2 f.ds ++ le 2 f.dmax

/-- A slot written in one step, and told to the standby. -/
def State.writeSlot (s : State) (id : Nat) (ws : List Nat) : State :=
  ((s.setSlot id ⟨ws, none⟩).storeSlot).tellTxn txSlot ([id, 0] ++ ws)

/-- The compile at the head ends: COLLATERAL, SLOT_BUSY, or the slot written. -/
def State.endCompile (s : State) (x : Compile) (b : Base) : State :=
  let v := s.variant
  let es := portEntries x.list (rdLE x.list 4 2)
  let r := compilePlan v es b.words
  let dmax := planDelta v b.words r.words
  let noColl := x.noColl || (rdLE x.list 8 2).testBit 0
  let f : Found := ⟨r, dmax, moveDs (s.rd Adr.MOVE_LIM) dmax, noColl⟩
  let status := if noColl && !r.collateral.isEmpty then 0x12 else if s.slotBusy x.id then 0x14 else 0
  if status = 0x14 then s.complete x.q status []
  else
    let t := s.draw
    let rep := reportBytes v status (t.1 % 65536) x.repLen x b f
    let s := t.2.writeReport x.q x.repAddr rep.1
    let s := if status = 0 then s.writeSlot x.id r.words else s
    s.completeWith x.q status (compileResult x.id rep.2 f)

/-- COMPILE_COMPLETION: the running compile ends, and the next one starts. -/
def compileCompletion (s : State) : State :=
  match s.plan.compiles with
  | [] => s
  | x :: rest =>
    match x.base with
    | none => s
    | some b => State.startCompile ((s.setPlan { s.plan with compiles := rest }).endCompile x b)

def execCompileCompletion (s : State) : Host.Outcome State Fault Refusal := .next (compileCompletion s)

end Sys2Proof.Machine
end

