-- ==== Sys2Proof/Machine/Schedule.lean ====
section
/-! DEFINITION. The circuit schedule list (spec/06_reconfiguration.md R126 to R128, spec/12_mailbox_commands.md R239). -/

namespace Sys2Proof.Machine

/-- A list as its buffer lays it out (R238). -/
def schedEntries (bs : List Byte) (n : Nat) : List (Nat × Nat) :=
  (List.range n).map fun j => (rdLE bs (24 + 8 * j) 1, rdLE bs (28 + 8 * j) 4)

def holdSum (es : List (Nat × Nat)) : Nat := (es.map Prod.snd).foldl (· + ·) 0

/-- BAD_LIST (R126, R239). -/
def badList (v : Variant) (bs : List Byte) : Bool :=
  let n := rdLE bs 4 2
  let es := schedEntries bs n
  let cycle := rdLE bs 16 5
  rdLE bs 0 4 != 0x4B534348 || decide (1000000000 ≤ rdLE bs 12 4) || n == 0 || decide (1024 < n)
    || es.any (fun e => decide (numSlots v ≤ e.1) || decide (e.2 < 128)) || (cycle != 0 && decide (cycle < holdSum es))

/-- A list with its start: LATE, k, and the list positioned at entry 0 of the pass it starts with (R127); `a` is the tick
at which the load takes effect. -/
structure Started where
  late : Bool
  k : Nat
  list : Sched
  deriving DecidableEq, Repr

/-- PLAN_LEAD in ns. -/
def State.leadNs (s : State) : Nat := s.planLead * 8 / 5

def State.startList (s : State) (es : List (Nat × Nat)) (sec ns cycle a : Nat) : Started :=
  let base := sec * 1000000000 + ns
  let lead := (s.timeAt a).exact + s.leadNs * 2 ^ 32
  let mk := fun (pass start frac : Nat) => (⟨es, sec, ns, cycle, start, pass, 0, 0, frac⟩ : Sched)
  if lead ≤ base * 2 ^ 32 then ⟨false, 0, mk 0 base 0⟩
  else if cycle ≠ 0 then
    let c := 8 * cycle
    let k := (lead - base * 2 ^ 32 + c * 2 ^ 32 - 1) / (c * 2 ^ 32)
    ⟨true, k, mk k (base + k * c) 0⟩
  else
    let t := s.timeAt (strobeAt (a + s.planLead))
    ⟨true, 0, mk 0 t.total t.frac⟩

/-- The instant of a list's next step: whole ns, and exactly in 2⁻³² ns. -/
def Sched.makeNs (l : Sched) : Nat := l.passNs + 8 * l.offset
def Sched.makeAt (l : Sched) : Nat := l.makeNs * 2 ^ 32 + l.passFrac

/-- The first tick at which the stamping domain's time is at or after `t`, in 2⁻³² ns (R122). -/
def State.tickTo (s : State) (t : Nat) : Nat := s.tick + s.now.ticksTo t

/-- The list past its next entry: the following entry, or the first of the next pass of a cyclic list. -/
def Sched.advance (l : Sched) : Sched :=
  let h := (l.entries.getD l.next (0, 0)).2
  if l.next + 1 < l.entries.length ∨ l.cycle = 0 then { l with next := l.next + 1, offset := l.offset + h }
  else { l with next := 0, offset := 0, pass := l.pass + 1, passNs := l.passNs + 8 * l.cycle }

/-- The make strobe of a list's next step. -/
def State.stepTick (s : State) (l : Sched) : Nat :=
  strobeAt (s.tickTo l.makeAt)

/-- Whether a step's arming instant, PLAN_LEAD before its make, has come. -/
def State.stepDue (s : State) (l : Sched) : Bool :=
  decide (l.next < l.entries.length) && decide (s.stepTick l ≤ s.tick + s.planLead)

/-- Why a step is skipped (R127): 0 none, 1 overlap, 2 ledger, 3 no compare unit free, 4 break too early. Where several hold,
the first in the order of the rule's list is reported (log 90). -/
def State.skipCause (s : State) (t ds : Nat) : Nat :=
  if s.overlaps t ds then 1
  else if s.ledgerRoom 1 = false then 2
  else if 16 ≤ s.plan.commits.length then 3
  else if t < s.tick + nsTicks 256 + nsTicks (ds + 176) then 4 else 0

/-- A skipped step: counted and reported. -/
def State.skipStep (s : State) (l : Sched) (cause : Nat) : State :=
  let s := s.count Adr.SCHED_STAT Fl.SCHED_STAT_SKIPS 1
  let s := if cause = 2 then s.ledgerRefused else s
  s.postOwners 0x0015 (le 2 l.next ++ le 4 (min l.pass 0xffffffff) ++ le 1 cause)

/-- One step at its arming: armed, empty or skipped. -/
def State.armStep (s : State) (l : Sched) : State :=
  let id := (l.entries.getD l.next (0, 0)).1
  let t := s.stepTick l
  let s := if s.schedState = 1 then s.put Adr.SCHED_STAT Fl.SCHED_STAT_STATE 2 else s
  let s := s.slotParity id
  match s.slot? id with
  | none => s.postOwners 0x0014 (le 2 l.next ++ le 4 (min l.pass 0xffffffff))
  | some x =>
    let k := s.costOf x.words
    let cause := s.skipCause t k.ds
    if cause ≠ 0 then s.skipStep l cause
    else
      let s := (s.put Adr.SCHED_STAT Fl.SCHED_STAT_ENTRY l.next).put Adr.SCHED_PASS Fl.SCHED_PASS_PASS (min l.pass 0xffffffff)
      s.acceptCommit id x.words 1 t k 0xffff 0 none none

/-- Whether a list WAITS or RUNS. -/
def State.listRuns (s : State) : Bool := s.schedState == 1 || s.schedState == 2

/-- A make strobe of an old list lies at or before S_new − 1.024 µs (R128): strobe and start are compared as ticks, for
armed and unarmed steps alike (log 90). -/
def State.beforeNew (s : State) (start make : Nat) : Bool := decide (make + 640 ≤ s.tickTo start)

/-- SCHED_STEP_ARM: the next step due, of a list being replaced while its steps make 1.024 µs before the new list's start,
then of the list loaded. -/
def schedStepArm (s : State) : State :=
  if s.gwqRuns && s.listRuns then
    match s.plan.oldSched, s.plan.sched with
    | some (old, start), l =>
      if old.next < old.entries.length ∧ s.beforeNew start (s.stepTick old) then
        if s.stepDue old then (s.armStep old).setPlan { (s.armStep old).plan with oldSched := some (old.advance, start) } else s
      else
        let s := s.setPlan { s.plan with oldSched := none }
        match l with
        | some l => if s.stepDue l then (s.armStep l).setPlan { (s.armStep l).plan with sched := some l.advance } else s
        | none => s
    | none, some l =>
      if s.stepDue l then (s.armStep l).setPlan { (s.armStep l).plan with sched := some l.advance } else s
    | none, none => s
  else s

def execSchedStepArm (s : State) : Host.Outcome State Fault Refusal := .next (schedStepArm s)

/-- SCHED_DONE: a one-pass list ends at its last entry's make plus that entry's HOLD. -/
def schedDone (s : State) : State :=
  match s.plan.sched with
  | none => s
  | some l =>
    if s.gwqRuns && s.listRuns && l.cycle == 0 && decide (l.entries.length ≤ l.next)
        && decide (s.tickTo l.makeAt ≤ s.tick) then
      ((s.put Adr.SCHED_STAT Fl.SCHED_STAT_STATE 3).refreshGo).postOwners 0x0013 []
    else s

def execSchedDone (s : State) : Host.Outcome State Fault Refusal := .next (schedDone s)

/-- A load takes effect: the running list gives way at the new list's start (R128), and its steps already armed beyond
1.024 µs before that start are dropped. Where a second list, itself waiting to replace a running one, has not started, the first gives
way at the earlier of the two starts and the second runs no step (DESIGN CHOICE, log 101). The list, LATE, k. -/
def State.takeList (s : State) (x : Started) : State :=
  let start := x.list.makeAt
  let old := if s.listRuns then
      (match s.plan.oldSched, s.plan.sched with
       | none, some l => some (l, start)
       | some (o, t), _ => some (o, min t start)
       | none, none => none)
    else none
  let dropped := if s.listRuns then
      s.plan.commits.filter fun c => c.path == 1 && c.phase == 0 && !s.beforeNew start c.tMake
    else []
  let s := dropped.foldl (fun s c => s.voidCommit c.seq 3) s
  let s := s.setPlan { s.plan with sched := some x.list, oldSched := old }
  let s := s.put Adr.SCHED_STAT Fl.SCHED_STAT_STATE 1
  let s := if x.late then (s.putFlag Adr.SCHED_STAT Fl.SCHED_STAT_LATE true).postOwners 0x0012 (le 4 (min x.k 0xffffffff)) else s
  s.refreshGo

/-- SCHED_LOAD's ledger entry. -/
def schedBody (n : Nat) (x : Started) (list : List Byte) : List Byte :=
  layout 52 [(0, le 2 n), (4, le 4 (min x.k 0xffffffff)), (8, le 6 (x.list.makeNs / 1000000000)),
    (14, le 4 (x.list.makeNs % 1000000000)), (18, (sha384 list).take 32)]

/-- The list in the layout of its load. -/
def Sched.bytes (l : Sched) : List Byte :=
  layout 24 [(0, le 4 0x4B534348), (4, le 2 l.entries.length), (6, le 6 l.baseSec), (12, le 4 l.baseNs), (16, le 5 l.cycle)]
    ++ (l.entries.map fun e => le 1 e.1 ++ le 3 0 ++ le 4 e.2).flatten

/-- A list halts after its armed steps (R128). -/
def State.haltList (s : State) : State :=
  if s.listRuns then
    let s := s.setPlan { s.plan with oldSched := none }
    (s.put Adr.SCHED_STAT Fl.SCHED_STAT_STATE 0).refreshGo
  else s

end Sys2Proof.Machine
end

