-- ==== Sys2Proof/Machine/CmdPlan.lean ====
section
/-! DEFINITION. The plan, schedule and loop-period commands (spec/12_mailbox_commands.md R236 to R239,
spec/06_reconfiguration.md R104, R110, R121 to R128). -/

namespace Sys2Proof.Machine

/-! ## Compiles and slots -/

def planCompile (q : Nat) (s : State) : State :=
  s.actCmd q 0x0100
    (fun s t =>
      let n := rdLE t.buf 4 2
      { bad := !(t.p 24 2 == 0xffff || decide (t.p 24 2 < numSlots s.variant)) || decide (t.p 40 4 < 64)
          || s.pastBulk q (t.p 32 8) (t.p 40 4) || decide (t.bufLen < 16)
          || (t.bufOk && decide (n ≤ 1024) && decide (t.bufLen < 16 + 4 * n))
        reads := true })
    (fun s t => firstStatus [(rdLE t.buf 0 4 != 0x4B504C54, 0x10), (decide (1024 < rdLE t.buf 4 2), 0x11),
      (t.p 24 2 == 0xffff && s.anySlot.isNone, 0x13)]) 0
    fun s t =>
      let id := if t.p 24 2 = 0xffff then s.anySlot.getD 0 else t.p 24 2
      (s.setPhase q .waiting).queueCompile
        ⟨q, id, t.buf, s.flag Adr.PLAN_CFG Fl.PLAN_CFG_NO_COLLATERAL, none, t.p 32 8, t.p 40 4⟩

def execPlanCompile (q : Nat) (s : State) : Host.Outcome State Fault Refusal := .next (planCompile q s)

def badSlot (s : State) (n : Nat) : Bool := decide (numSlots s.variant ≤ n)

def planFree (q : Nat) (s : State) : State :=
  s.actCmd q 0x0101 (fun s t => { bad := badSlot s (t.p 24 1) })
    (fun s t => if (s.slot? (t.p 24 1)).isSome && s.slotBusy (t.p 24 1) then 0x14 else 0) 0
    fun s t => ((s.freeSlot (t.p 24 1)).tellTxn txSlot [t.p 24 1, 1]).complete q 0 []

def execPlanFree (q : Nat) (s : State) : Host.Outcome State Fault Refusal := .next (planFree q s)

/-- PLAN_READ: STATE and what names the slot; a COMPILED slot's 20 KiB. -/
def planRead (q : Nat) (s : State) : State :=
  s.actCmd q 0x0105 (fun s t => { bad := badSlot s (t.p 24 1) || decide (t.bufLen < 20480) }) (fun _ _ => 0) 0 fun s t =>
    let id := t.p 24 1
    let s := s.slotParity id 0x00
    let listed := match s.plan.sched with | some l => l.entries.any fun e => e.1 == id | none => false
    let bits := b2i (!s.plan.inForce.isEmpty && s.plan.forceId == id) + 2 * b2i (s.plan.commits.any fun c => c.id == id)
      + 4 * b2i (s.armed == some id) + 8 * b2i listed
    match s.slot? id with
    | some x => (s.writeBuf q t.bufAddr (slotBytes s.variant x.words)).complete q 0 (le 1 1 ++ le 1 bits)
    | none => s.complete q 0 (le 1 0 ++ le 1 bits)

def execPlanRead (q : Nat) (s : State) : Host.Outcome State Fault Refusal := .next (planRead q s)

/-- OUT_READ: a word per output, OUT_STAT for an owner, as OUT_VSTAT against its grant for a tenant. -/
def outRead (q : Nat) (s : State) : State :=
  s.actCmd q 0x0106 (fun s t => { roles := [1, 2], bit := some 0, bad := decide (t.bufLen < 4 * numPorts s.variant) })
    (fun _ _ => 0) 0 fun s t =>
      let word := fun (o : Nat) => if t.role = 1 then (s.out o).word else s.outVWord t.grant o
      let bs := (List.range (numPorts s.variant)).flatMap fun o => le 4 (word o)
      (s.writeBuf q t.bufAddr bs).complete q 0 (le 2 (numPorts s.variant))

def execOutRead (q : Nat) (s : State) : Host.Outcome State Fault Refusal := .next (outRead q s)

/-! ## Commits (R122, R123) -/

/-- T_make of a PLAN_COMMIT: that of T_req, that the standby formed, or that of a NOW commit accepted at `tick`. -/
def State.reqMake (s : State) (t : Taken) (ds tick : Nat) (make : Option Nat) : Nat :=
  if t.flag 0 then make.getD (s.nowMake tick ds) else strobeAt (s.tickFor (t.sec 32) (t.ns 32))

/-- T_req lies more than 2.0 s ahead. -/
def State.tooFar (s : State) (sec ns : Nat) : Bool :=
  decide (s.now.total * 2 ^ 32 + s.now.frac + 2000000000 * 2 ^ 32 < (sec * 1000000000 + ns) * 2 ^ 32)

/-- The refusals of a commit in order (R236); LATE is measured from the acknowledgement. -/
def State.commitStatus (s : State) (t : Taken) (a : Option Ack) : Nat :=
  match s.slot? (t.p 24 1) with
  | none => 0x15
  | some x =>
    let k := s.costOf x.words
    let tick := match a with | some a => a.tick | none => s.tick
    let make := s.reqMake t k.ds tick (match a with | some a => a.make | none => none)
    firstStatus [
      (!t.flag 0 && s.tooFar (t.sec 32) (t.ns 32), 0x17), (decide (16 ≤ s.plan.commits.length), stBusy),
      (s.overlaps make k.ds, 0x18), (a.isSome && s.tooLate tick make k.ds, 0x16)]

/-- RESULT of PLAN_COMMIT. -/
def State.commitResult (s : State) (make : Nat) (k : Cost) : List Byte :=
  let b := s.timeAt (breakOf make k.ds)
  let m := s.timeAt make
  le 4 b.ns32 ++ le 4 m.ns32 ++ le 1 b.frac8 ++ le 1 m.frac8 ++ le 2 k.ds ++ le 2 k.collateral ++ le 1 s.plan.commits.length

def commitCmd : Ahead where
  op := 0x0102
  needs := fun s _ t => { bad := badSlot s (t.p 24 1) || (!t.flag 0 && t.badTime 32) }
  own := fun s _ t a => s.commitStatus t a
  entries := 1
  isLocal := fun _ _ _ => false
  txn := fun s _ t =>
    let ws := ((s.slot? (t.p 24 1)).map (·.words)).getD []
    (txCommit, [t.p 24 1, planHash ws, t.sec 32, t.ns 32, b2i (t.flag 0), 0])
  act := fun s q t a =>
    let s := s.slotParity (t.p 24 1)
    match s.slot? (t.p 24 1) with
    | none => s.refuse q 0x15
    | some x =>
      let k := s.costOf x.words
      let make := s.reqMake t k.ds a.tick a.make
      let s := s.acceptCommit (t.p 24 1) x.words 0 make k q t.role none none
      s.complete q 0 (s.commitResult make k)

def planCommit (q : Nat) (s : State) : State := s.aheadCmd q commitCmd
def execPlanCommit (q : Nat) (s : State) : Host.Outcome State Fault Refusal := .next (planCommit q s)

/-- PLAN_ARM: one COMPILED slot armed for CSP_GO, or none (R124). -/
def armCmd : Ahead where
  op := 0x0103
  needs := fun s _ t => { bad := t.p 24 2 != 0xffff && badSlot s (t.p 24 2) }
  own := fun s _ t _ => if t.p 24 2 ≠ 0xffff ∧ (s.slot? (t.p 24 2)).isNone then 0x15 else 0
  entries := 0
  isLocal := fun _ _ _ => false
  txn := fun s _ t =>
    (txArm, [t.p 24 2, if t.p 24 2 = 0xffff then 0 else planHash (((s.slot? (t.p 24 2)).map (·.words)).getD [])])
  act := fun s q t _ =>
    let id := t.p 24 2
    let s := if id = 0xffff then s else s.slotParity id 0x00
    if id ≠ 0xffff ∧ (s.slot? id).isNone then s.refuse q 0x15
    else ((s.setArmed (if id = 0xffff then none else some id)).refreshGo).complete q 0 []

def planArm (q : Nat) (s : State) : State := s.aheadCmd q armCmd
def execPlanArm (q : Nat) (s : State) : Host.Outcome State Fault Refusal := .next (planArm q s)

/-- A park or unpark accepted: its ledger entry is reserved until its instant (R237). -/
def State.acceptPark (s : State) (p : ParkItem) : State :=
  let s := s.setPlan { s.plan with parks := s.plan.parks ++ [p] }
  (s.setParkRes (s.led.parkRes + 1)).ledgerStat.refreshGo

def parkCmd : Ahead where
  op := 0x0104
  needs := fun s _ t =>
    { roles := [1, 2], bit := some 2, denied := t.role == 2 && !t.grant.testBit (t.p 24 2)
      bad := decide (numPorts s.variant ≤ t.p 24 2) || decide (1 < t.p 26 1) }
  own := fun _ _ _ _ => 0
  entries := 1
  isLocal := fun _ _ _ => false
  txn := fun _ _ t => (txPark, [t.p 24 2, t.p 26 1, b2i (t.role == 2)])
  act := fun s q t a =>
    (s.acceptPark ⟨t.p 24 2, t.p 26 1 == 1, t.role == 2, strobeAt (a.tick + s.planLead), q, t.role⟩).setPhase q .waiting

def planPark (q : Nat) (s : State) : State := s.aheadCmd q parkCmd
def execPlanPark (q : Nat) (s : State) : Host.Outcome State Fault Refusal := .next (planPark q s)

/-! ## Schedule list -/

/-- The start a load would have, taking effect at tick `a`. -/
def State.loadStart (s : State) (bs : List Byte) (a : Nat) : Started :=
  s.startList (schedEntries bs (rdLE bs 4 2)) (rdLE bs 6 6) (rdLE bs 12 4) (rdLE bs 16 5) a

def loadCmd : Ahead where
  op := 0x0200
  needs := fun _ _ t =>
    let n := rdLE t.buf 4 2
    { bad := decide (t.bufLen < 24) || (t.bufOk && decide (n ≤ 1024) && decide (t.bufLen < 24 + 8 * n)), reads := true }
  own := fun s _ t _ => if badList s.variant t.buf then 0x19 else 0
  entries := 1
  isLocal := fun _ _ _ => false
  txn := fun _ _ t =>
    (txSchedLoad, [rdLE t.buf 6 6, rdLE t.buf 12 4, rdLE t.buf 16 5]
      ++ (schedEntries t.buf (rdLE t.buf 4 2)).flatMap fun e => [e.1, e.2])
  act := fun s q t a =>
    let n := rdLE t.buf 4 2
    let x := s.loadStart t.buf a.tick
    let d := s.timeAt (s.stepTick x.list)
    let s := s.log 0x0030 q t.role (schedBody n x (t.buf.take (24 + 8 * n)))
    (s.takeList x).complete q 0 (le 4 d.ns32 ++ le 1 d.frac8 ++ le 1 (b2i x.late) ++ le 2 0 ++ le 4 (min x.k 0xffffffff))

def schedLoad (q : Nat) (s : State) : State := s.aheadCmd q loadCmd
def execSchedLoad (q : Nat) (s : State) : Host.Outcome State Fault Refusal := .next (schedLoad q s)

/-- The last entry armed and its pass. -/
def State.lastArmed (s : State) : Nat × Nat :=
  (s.get Adr.SCHED_STAT Fl.SCHED_STAT_ENTRY, s.get Adr.SCHED_PASS Fl.SCHED_PASS_PASS)

def State.logStop (s : State) (q role : Nat) : State :=
  s.log 0x0031 q role (bodyOf [(0, 2, s.lastArmed.1), (4, 4, s.lastArmed.2)])

def stopCmd : Ahead where
  op := 0x0201
  needs := fun _ _ _ => {}
  own := fun _ _ _ _ => 0
  entries := 1
  isLocal := fun _ _ _ => false
  txn := fun _ _ _ => (txSchedStop, [])
  act := fun s q t _ => ((s.logStop q t.role).haltList).complete q 0 (layout 16 [(0, le 2 s.lastArmed.1), (4, le 4 s.lastArmed.2)])

def schedStop (q : Nat) (s : State) : State := s.aheadCmd q stopCmd
def execSchedStop (q : Nat) (s : State) : Host.Outcome State Fault Refusal := .next (schedStop q s)

def schedRead (q : Nat) (s : State) : State :=
  s.actCmd q 0x0202
    (fun s t => { bad := decide (t.bufLen < 24 + 8 * (match s.plan.sched with | some l => l.entries.length | none => 0)) })
    (fun _ _ => 0) 0 fun s t =>
      match s.plan.sched with
      | none => s.complete q 0 (le 16 0)
      | some l => (s.writeBuf q t.bufAddr l.bytes).complete q 0
          (layout 16 [(0, le 1 s.schedState), (2, le 2 l.entries.length), (4, le 4 s.lastArmed.2)])

def execSchedRead (q : Nat) (s : State) : Host.Outcome State Fault Refusal := .next (schedRead q s)

/-! ## LOOP_PERIOD -/

/-- The combs an 18-byte mask at descriptor offset `off` names, those not on the variant passed over (R238). -/
def Taken.combs (t : Taken) (v : Variant) (off : Nat) : List Nat :=
  (List.range (numCombs v)).filter fun c => (t.p off 18).testBit c

def loopPeriod (q : Nat) (s : State) : State :=
  s.actCmd q 0x0300 (fun _ t => { bad := decide (0x1ff < t.p 42 2) }) (fun _ _ => 0) 0 fun s t =>
    let cs := (t.combs s.variant 24).filter fun c => s.powered (combDomain s.variant c)
    let s := cs.foldl (fun s c =>
      let s := (s.put (Adr.LOOP_CFG c) Fl.LOOP_CFG_PERIOD (t.p 42 2)).paramWrite c false [Adr.LOOP_CFG c]
      s.onComb c fun x => { x with periodSet := true }) s
    s.complete q 0 (le 1 cs.length)

def execLoopPeriod (q : Nat) (s : State) : Host.Outcome State Fault Refusal := .next (loopPeriod q s)

end Sys2Proof.Machine
end

