-- ==== Sys2Proof/Machine/CmdCal.lean ====
section
/-! DEFINITION. The calibration commands (spec/12_mailbox_commands.md R240, spec/05_calibration.md R90 to R103). -/

namespace Sys2Proof.Machine

/-! ## CAL_RUN -/

def Taken.proc (t : Taken) : Nat := t.p 24 1
def Taken.avg (t : Taken) : Nat := if t.p 26 2 = 0 then 64 else t.p 26 2
def Taken.lanesFlag (t : Taken) : Bool := t.flag 2

/-- Element indices of a CAL_RUN with LANES. -/
def Taken.elems (t : Taken) : List Nat := (List.range (t.bufLen / 2)).map fun k => rdLE t.buf (2 * k) 2

/-- The combs a CAL_RUN names: those of its lanes, all of them for FULL, or its comb mask. -/
def Taken.calCombs (t : Taken) (v : Variant) : List Nat :=
  if t.proc = 6 then List.range (numCombs v)
  else if t.lanesFlag then (List.range (numCombs v)).filter fun c => t.elems.any fun e => e / 64 == c
  else t.combs v 28

/-- The lanes of comb `c` a CAL_RUN names. -/
def Taken.calLanesOf (t : Taken) (c : Nat) : List Nat :=
  if t.proc = 6 then List.range 64
  else if t.lanesFlag then (List.range 64).filter fun l => t.elems.contains (64 * c + l) else List.range 64

/-- The procedure that FR_INVALID ends for every named lane (R87): the one asked for, of several the last. -/
def Taken.lastProc (t : Taken) : Nat := if t.proc ≤ 3 then t.proc else 3

/-- Procedures begin on one comb; lanes taken, lanes left alone, whether the comb is at work. -/
def State.runComb (s : State) (t : Taken) (c : Nat) : State × (Nat × Nat × Bool) :=
  if t.proc = 4 then
    if s.running c then (s.startProcs c [⟨4, []⟩] [] t.avg, (0, 0, true)) else (s, (0, 0, false))
  else
    let named := t.calLanesOf c
    let lanes := named.filter fun l => s.calEligible (t.flag 0) (64 * c + l)
    let left := named.filter fun l => !lanes.contains l
    let s := left.foldl (fun s l => s.calRes (64 * c + l) 0 4 false 0) s
    let procs := s.procList c t.proc lanes
    if procs.isEmpty ∨ s.running c = false then (s, (0, left.length, false))
    else (s.startProcs c procs lanes t.avg, (lanes.length, left.length, true))

def runResult (lanes left combs : Nat) : List Byte := le 2 lanes ++ le 2 left ++ le 1 combs

def calRun (q : Nat) (s : State) : State :=
  s.actCmd q 0x0400
    (fun s t =>
      { bad := t.proc == 0 || decide (6 < t.proc) || decide (t.avg < 16) || decide (1024 < t.avg)
          || (t.lanesFlag && t.proc != 6 && t.elems.any fun e => decide (numElems s.variant ≤ e))
        reads := t.lanesFlag && t.proc != 6 })
    (fun s t =>
      let cs := t.calCombs s.variant
      if t.proc ≠ 4 ∧ s.frValid = false then 0
      else firstStatus [
        (cs.any fun c => s.get (Adr.DRV_CFG c) Fl.DRV_CFG_GAIN != s.get (Adr.DRV_CFG c) Fl.DRV_CFG_GAIN_ACT, 0x21),
        (cs.any (fun c => !(s.comb c).procs.isEmpty) || (!cs.isEmpty && s.ctl.cal.runs.any (·.full)), 0x20)]) 0
    fun s t =>
      if t.proc ≠ 4 ∧ s.frValid = false then
        let one := fun (s : State) c => (t.calLanesOf c).foldl (fun s l => s.calRes (64 * c + l) t.lastProc 5 false 0) s
        ((t.calCombs s.variant).foldl one s).refuse q 0x22
      else if t.proc = 6 then
        let n := ((List.range (numElems s.variant)).filter fun e => s.calEligible true e).length
        let m := ((List.range (numCombs s.variant)).filter s.running).length
        (s.startFull t.avg q (t.flag 1)).complete q 0 (runResult n (numElems s.variant - n) m)
      else
        let r := (t.calCombs s.variant).foldl (fun (acc : State × Nat × Nat × List Nat) c =>
          let x := acc.1.runComb t c
          (x.1, acc.2.1 + x.2.1, acc.2.2.1 + x.2.2.1, if x.2.2.2 then acc.2.2.2 ++ [c] else acc.2.2.2)) (s, 0, 0, [])
        let cs := r.2.2.2
        let s := r.1
        let s := if cs.isEmpty then s
          else s.setRuns (s.ctl.cal.runs ++ [(⟨cs, false, 0, 0, t.flag 1, q, t.avg⟩ : RunItem)])
        s.complete q 0 (runResult r.2.1 r.2.2.1 cs.length)

def execCalRun (q : Nat) (s : State) : Host.Outcome State Fault Refusal := .next (calRun q s)

/-! ## CAL_APPLY -/

/-- T_a: the later of T_req and acceptance plus PLAN_LEAD; with NOW the latter (R99). -/
def State.applyTick (s : State) (t : Taken) : Nat :=
  if t.flag 0 then s.tick + s.planLead else max (s.tick + s.planLead) (s.tickFor (t.sec 24) (t.ns 24))

def calApply (q : Nat) (s : State) : State :=
  s.actCmd q 0x0401 (fun _ t => { bad := !t.flag 0 && t.badTime 24 }) (fun s _ => if s.calBusy then 0x20 else 0) 1 fun s t =>
    (s.setPhase q .waiting).issueApply q q t.role 0 (s.applyTick t)

def execCalApply (q : Nat) (s : State) : Host.Outcome State Fault Refusal := .next (calApply q s)

/-! ## CAL_SAVE (R102) -/

def imageLen (v : Variant) : Nat := 64 + 16 * numCombs v + 32 * numElems v + 96

/-- The record of comb `c`. -/
def State.combRecord (s : State) (c : Nat) : List Byte :=
  let a := Adr.ADC_CAL_ACT c 0
  let b := Adr.ADC_CAL_ACT c 1
  let ofs := fun (x : Nat) => wrap 16 (signed 12 (s.get x Fl.ADC_CAL_OFS))
  layout 16 [(0, le 2 (ofs a)), (2, le 2 (s.get a Fl.ADC_CAL_GAIN)), (4, le 2 (ofs b)), (6, le 2 (s.get b Fl.ADC_CAL_GAIN)),
    (8, le 1 (s.get (Adr.DRV_CFG c) Fl.DRV_CFG_GAIN_ACT)), (9, le 1 (s.get (Adr.SENSE_CFG c) Fl.SENSE_CFG_REF_SEL))]

/-- The record of element `e`. -/
def State.laneRecord (s : State) (e : Nat) : List Byte :=
  let k := s.calOf e
  let c := e / 64
  let l := e % 64
  let w := fun (z : Int) => le 2 (wrap 16 z)
  (k.ofs.flatMap w) ++ (k.tg.flatMap w) ++ w k.skew ++ w k.kq ++ w k.bias
    ++ le 2 (s.get (Adr.CAL_BIAS_ACT c l) Fl.CAL_BIAS_VPI) ++ le 4 (wrap 32 k.ffSlope) ++ le 2 (parkActive s e)
    ++ le 2 (b2i (s.validAct e)) ++ le 4 0

/-- The calibration image without its signature. -/
def State.calImage (s : State) : List Byte :=
  layout 64 [(0, le 4 0x4B43414C), (4, le 2 1), (6, le 2 (variantCode s.variant)), (8, le 2 (numCombs s.variant)),
    (10, le 2 (numElems s.variant)), (12, s.idDigest), (44, le 6 s.now.sec), (50, le 4 s.now.ns)]
    ++ (List.range (numCombs s.variant)).flatMap s.combRecord ++ (List.range (numElems s.variant)).flatMap s.laneRecord

def calSave (q : Nat) (s : State) : State :=
  s.actCmd q 0x0402 (fun s t => { bad := decide (t.bufLen < imageLen s.variant) }) (fun _ _ => 0) 0 fun s t =>
    let sig := s.sign
    (sig.2.writeBuf q t.bufAddr (s.calImage ++ sig.1)).complete q 0 (le 4 (imageLen s.variant))

def execCalSave (q : Nat) (s : State) : Host.Outcome State Fault Refusal := .next (calSave q s)

/-! ## CAL_RESTORE (R103) -/

/-- One ADC of a comb record: limits 12 and 13, then staged. A rejected one is reported in the command's result alone
(DESIGN CHOICE, log 100). -/
def State.restoreAdc (s : State) (c k ofs gain : Nat) : State × Bool :=
  if within (-64) 63 (s16 ofs) && within 0x7999 0x8666 gain then
    let b := Adr.ADC_CAL c k
    (((s.put b Fl.ADC_CAL_OFS ofs).put b Fl.ADC_CAL_GAIN gain).paramWrite c false [b], true)
  else (s, false)

/-- A comb record restored: ADCs rejected, and whether REF_SEL differs. -/
def State.restoreComb (s : State) (c : Nat) (r : List Byte) : State × Nat × Bool :=
  let a := s.restoreAdc c 0 (rdLE r 0 2) (rdLE r 2 2)
  let b := a.1.restoreAdc c 1 (rdLE r 4 2) (rdLE r 6 2)
  let s := b.1.put (Adr.DRV_CFG c) Fl.DRV_CFG_GAIN (rdLE r 8 1)
  (s, b2i (!a.2) + b2i (!b.2), rdLE r 9 1 != s.get (Adr.SENSE_CFG c) Fl.SENSE_CFG_REF_SEL)

/-- Limits 1, 5 to 9 and 11 of R94 on a lane record of a comb whose staged gain is ×2 or ×1. -/
def laneLimit (v : Variant) (e : Nat) (x2 : Bool) (r : List Byte) : Nat :=
  let z := fun (o : Nat) => s16 (rdLE r o 2)
  let vpi : Int := (rdLE r 18 2 : Nat)
  firstFailed [
    (1, within (-512) 511 (z 0) && within (-512) 511 (z 2) && within (-512) 511 (z 4)),
    (5, gainOk e 1 (rdLE r 8 2 : Nat) && gainOk e 2 (rdLE r 10 2 : Nat)), (6, within 512 15871 (rdLE r 16 2 : Nat)),
    (7, if x2 then within 2400 4600 vpi else within 4800 9200 vpi), (8, within (-8192) 8191 (z 12)),
    (9, within 12288 24576 ((z 14).natAbs : Int)), (11, parkOk v e (rdLE r 24 2 : Nat) vpi)]

/-- A lane record restored, or rejected: its staged values then stay. -/
def State.restoreLane (s : State) (e : Nat) (r : List Byte) : State × Bool :=
  let c := e / 64
  let l := e % 64
  let n := laneLimit s.variant e (s.flag (Adr.DRV_CFG c) Fl.DRV_CFG_GAIN) r
  if n ≠ 0 then (s.calRes e 4 2 false n, false)
  else
    let valid := s.frValid && rdLE r 26 2 % 2 == 1
    let s := [(Adr.CAL_OFS_BC c l, rdLE r 0 4), (Adr.CAL_OFS_Q c l, rdLE r 4 2 + 65536 * rdLE r 12 2), (Adr.CAL_TG_BC c l, rdLE r 6 4),
      (Adr.CAL_TG_Q c l, rdLE r 10 2 + 65536 * rdLE r 14 2),
      (Adr.CAL_BIAS c l, rdLE r 16 2 % 16384 + 32768 * b2i valid + 65536 * (rdLE r 18 2 % 16384)), (Adr.CAL_FF c l, rdLE r 20 4)].foldl
        (fun s w => s.wr w.1 (BitVec.ofNat 32 w.2)) s
    let s := s.put (Adr.PARK_CODE c l) Fl.PARK_CODE_STAGED (rdLE r 24 2)
    let s := s.paramWrite c false ([1, 10, 11, 12, 13, 14, 15].map (laneAdr e))
    (s.calRes e 4 1 false 0, true)

/-- Every record of an image restored: lanes rejected, ADCs rejected, combs whose REF_SEL differs. -/
def State.restoreAll (s : State) (img : List Byte) : State × Nat × Nat × Nat :=
  let v := s.variant
  let on := fun (s : State) (c : Nat) => s.powered (combDomain v c)
  let r := (List.range (numCombs v)).foldl (fun (acc : State × Nat × Nat) c =>
    if on acc.1 c then
      let x := acc.1.restoreComb c ((img.drop (64 + 16 * c)).take 16)
      (x.1, acc.2.1 + x.2.1, acc.2.2 + b2i x.2.2)
    else acc) (s, 0, 0)
  let base := 64 + 16 * numCombs v
  let t := (List.range (numElems v)).foldl (fun (acc : State × Nat) e =>
    if on acc.1 (e / 64) then
      let x := acc.1.restoreLane e ((img.drop (base + 32 * e)).take 32)
      (x.1, acc.2 + b2i (!x.2))
    else acc) (r.1, 0)
  (t.1, t.2, r.2.1, r.2.2)

def calRestore (q : Nat) (s : State) : State :=
  s.actCmd q 0x0403 (fun s t => { bad := decide (t.bufLen < imageLen s.variant), reads := true })
    (fun s t => firstStatus [(!t.sigOk, 0x23),
      (decide ((t.buf.drop 12).take 32 ≠ s.idDigest) || rdLE t.buf 6 2 != variantCode s.variant, 0x24),
      (t.flag 1 && s.calBusy, 0x20), (t.flag 1 && !s.ledgerRoom 1, stLedger)]) 0
    fun s t =>
      let r := s.restoreAll t.buf
      let s := r.1.complete q 0 (le 2 r.2.1 ++ le 2 r.2.2.1 ++ le 1 r.2.2.2)
      if t.flag 1 then s.issueApply 0xffff q t.role 2 (s.tick + s.planLead) else s

def execCalRestore (q : Nat) (s : State) : Host.Outcome State Fault Refusal := .next (calRestore q s)

end Sys2Proof.Machine
end

