-- ==== Sys2Proof/Machine/CmdSession.lean ====
section
/-! DEFINITION. The session commands (spec/12_mailbox_commands.md R234, R235, spec/14_secrecy_and_ledger.md R257, R260). -/

namespace Sys2Proof.Machine

/-- SESSION_OPEN: the open submitted in a window; one posted in a command ring completes with BAD_FIELD. -/
def sessionOpen (src : OpenSrc) (s : State) : State :=
  match src with
  | .ring q => s.runCmd q 0x0001 fun s _ => s.refuse q stField
  | .window v =>
    match (s.host.opens.find? fun e => e.1 == v).map Prod.snd with
    | none => s
    | some w => if s.opensNow && s.fnDma v && !w.acking then s.submitOpen v w else s

def execSessionOpen (src : OpenSrc) (s : State) : Host.Outcome State Fault Refusal := .next (sessionOpen src s)

/-! ## SESSION_CLOSE -/

/-- The session a TARGET names: 0xFFFF is the issuing session. -/
def targetOf (q n : Nat) : Nat := if n = 0xffff then q else n

/-- A session opened on this module alone (R295). -/
def State.localSess (s : State) (q : Nat) : Bool :=
  match s.sess? q with
  | some x => !x.mirrored
  | none => false

/-- NO_SESSION: the named session is CLOSED here. -/
def State.noSess (s : State) (n : Nat) : Nat := if s.sessState n = 0 then stNoSession else 0

def closeCmd : Ahead where
  op := 0x0002
  needs := fun _ q t =>
    let n := targetOf q (t.p 24 2)
    { roles := [1, 2, 3], denied := t.role != 1 && n != q, bad := decide (4096 ≤ n) }
  own := fun s q t _ => s.noSess (targetOf q (t.p 24 2))
  entries := 0
  isLocal := fun s q t => s.localSess (targetOf q (t.p 24 2))
  txn := fun _ q t => (txSession, [1, targetOf q (t.p 24 2), 0, 0, 0, 0, 0, 0, 0, 1])
  act := fun s q t _ =>
    let n := targetOf q (t.p 24 2)
    if n = q then (s.complete q 0 []).beginClose q 1 else (s.beginClose n 1).complete q 0 []

def sessionClose (q : Nat) (s : State) : State := s.aheadCmd q closeCmd
def execSessionClose (q : Nat) (s : State) : Host.Outcome State Fault Refusal := .next (sessionClose q s)

/-! ## SESSION_INFO, REKEY -/

/-- How a session is named to itself: q, or j on a VF. -/
def State.ownName (s : State) (q : Nat) : Nat := if s.sessCarrier q = 1 then s.get (Adr.SESS q) Fl.SESS_SLOT else q

def State.epochOf (s : State) (q : Nat) : Nat :=
  match s.sess? q with
  | some x => (match x.eth with | some e => e.epoch | none => 0)
  | none => 0

def sessionInfo (q : Nat) (s : State) : State :=
  s.actCmd q 0x0003 (fun _ t => { roles := [1, 2, 3], bad := decide (t.bufLen ≠ 0 ∧ t.bufLen < 64) }) (fun _ _ => 0) 0 fun s t =>
    let s := if t.bufLen = 0 then s else s.writeBuf q t.bufAddr (le 64 t.grant)
    s.complete q 0 (layout 16 [(0, le 2 (s.ownName q)), (2, le 1 (s.sessRole q)), (3, le 1 (s.sessCarrier q)), (4, le 4 t.mask),
      (8, le 2 (popCount (numPorts s.variant) t.grant)), (10, le 2 (s.epochOf q))])

def execSessionInfo (q : Nat) (s : State) : Host.Outcome State Fault Refusal := .next (sessionInfo q s)

/-- The next transport key (R235). -/
def EthSide.rekeyed (e : EthSide) (tick : Nat) : EthSide :=
  let n := e.epoch + 1
  { e with key := hkdf32 e.key [] (ascii "KT-REKEY" ++ le 4 n), oldKey := e.key, epoch := n, rekeyTick := some tick }

/-- REKEY: its completion travels under the old epoch. -/
def rekey (q : Nat) (s : State) : State :=
  s.actCmd q 0x0004 (fun s _ => { roles := [1, 2, 3], bad := decide (s.sessCarrier q < 2) })
    (fun _ _ => 0) 0 fun s _ =>
      (s.complete q 0 (le 4 (s.epochOf q + 1))).onSess q fun x => { x with eth := x.eth.map fun e => e.rekeyed s.tick }

def execRekey (q : Nat) (s : State) : Host.Outcome State Fault Refusal := .next (rekey q s)

/-! ## Grants (R257, R260) -/

/-- The ports VF `n` has been granted. -/
def State.vfOf (s : State) (n : Nat) : VfGrant := SMap.find {} s.host.vfs n

/-- The grant SESSION_GRANT gives session `q` from a bitmap. -/
def State.newGrant (s : State) (q bits : Nat) : Nat :=
  let g := grantFor s.variant (s.sessRole q) bits
  if s.sessCarrier q = 1 ∧ s.sessRole q = 2 then g &&& (s.vfOf (s.sessFn q)).ports else g

/-- A GRANT entry. -/
def grantBody (v : Variant) (kind ceil n mask grant : Nat) : List Byte :=
  layout 52 [(0, le 1 kind), (1, le 1 ceil), (2, le 2 n), (4, le 4 mask), (8, le 2 (popCount (numPorts v) grant)),
    (10, (sha384 (le 64 grant)).take 24)]

def grantCmd : Ahead where
  op := 0x0005
  needs := fun _ _ t => { bad := decide (4096 ≤ t.p 24 2) || decide (t.bufLen < 64), reads := true }
  own := fun s _ t _ => s.noSess (t.p 24 2)
  entries := 1
  isLocal := fun s _ t => s.localSess (t.p 24 2)
  txn := fun s _ t =>
    let n := t.p 24 2
    (txSession, [2, n, s.sessRole n, maskFor (s.sessRole n) (t.p 28 4), s.newGrant n (portBits s.variant t.buf), 0, 0, 0, 0, 0])
  act := fun s q t _ =>
    let n := t.p 24 2
    let m := maskFor (s.sessRole n) (t.p 28 4)
    let g := s.newGrant n (portBits s.variant t.buf)
    let s := s.log 0x0012 q t.role (grantBody s.variant 0 0 n m g)
    (s.onSess n fun x => { x with mask := m, grant := g }).complete q 0 []

def sessionGrant (q : Nat) (s : State) : State := s.aheadCmd q grantCmd
def execSessionGrant (q : Nat) (s : State) : Host.Outcome State Fault Refusal := .next (sessionGrant q s)

/-- The grant of a VF replaced: grants of its open sessions narrow, and sessions its ceiling no longer admits close. -/
def State.setVf (s : State) (n ceil ports : Nat) : State :=
  let s := { s with host := { s.host with vfs := SMap.put {} s.host.vfs n ⟨ceil, ports⟩ } }
  let qs := s.vfSessions n
  let s := qs.foldl (fun s q => s.onSess q fun x => { x with grant := x.grant &&& ports }) s
  (qs.filter fun q => s.sessRole q != ceil && s.sessState q != 3).foldl (fun s q => s.beginClose q 6) s

def vfGrantCmd : Ahead where
  op := 0x0006
  needs := fun _ _ t =>
    { bad := t.p 24 1 == 0 || decide (63 < t.p 24 1) || t.p 25 1 == 1 || decide (3 < t.p 25 1) || decide (t.bufLen < 64)
      reads := true }
  own := fun _ _ _ _ => 0
  entries := 1
  isLocal := fun _ _ _ => false
  txn := fun s _ t => (txSession, [3, 0, t.p 25 1, 0, portBits s.variant t.buf, 0, 1, t.p 24 1, 0, 0])
  act := fun s q t _ =>
    let g := portBits s.variant t.buf
    let s := s.log 0x0012 q t.role (grantBody s.variant 1 (t.p 25 1) (t.p 24 1) 0 g)
    (s.complete q 0 []).setVf (t.p 24 1) (t.p 25 1) g

def vfGrant (q : Nat) (s : State) : State := s.aheadCmd q vfGrantCmd
def execVfGrant (q : Nat) (s : State) : Host.Outcome State Fault Refusal := .next (vfGrant q s)

/-! ## NET_CFG -/

/-- The addresses and the UDP port of a configuration block. -/
def netAddr (c : NetCfg) : List Byte :=
  let c := fit 64 c
  let port := if rdLE c 6 2 = 0 then 7441 else rdLE c 6 2
  c.take 4 ++ (c.drop 8).take 16 ++ le 2 port

/-- NET_CFG: a change of address or UDP port closes every Ethernet session on the port. -/
def netCfg (q : Nat) (s : State) : State :=
  s.actCmd q 0x0007 (fun _ t =>
      { bad := !(t.p 24 1 == 1 || t.p 24 1 == 2) || decide (t.bufLen < 64), reads := true }) (fun _ _ => 0) 0
    fun s t =>
      let new := fit 64 t.buf
      let old := if t.p 24 1 = 1 then s.host.net0 else s.host.net1
      let s := if t.p 24 1 = 1 then { s with host := { s.host with net0 := new } } else { s with host := { s.host with net1 := new } }
      let s := s.complete q 0 []
      if netAddr old = netAddr new then s
      else (s.sessIds.filter fun n => s.sessCarrier n == t.p 24 1 + 1).foldl (fun s n => s.beginClose n 8) s

def execNetCfg (q : Nat) (s : State) : Host.Outcome State Fault Refusal := .next (netCfg q s)

end Sys2Proof.Machine
end

