-- ==== Sys2Proof/Machine/Time.lean ====
section
/-! DEFINITION. The commands of the time unit (spec/08_time_unit.md), and the spine tick (spec/01_architecture.md R16). -/

namespace Sys2Proof.Machine

/-! ## Writes of a domain's registers (R148 to R150, R155) -/

/-- INC_HI: the staged INC in force at the next tick, clamped. -/
def incHi (d : Dom) (w : Writer) (v : Word) (s : State) : State :=
  let b := tdAdr d
  let s := if w = .host ∧ s.bridgeOn ∧ bitSet v 8 then s.putFlag b Fl.TD_INC_CLAMP false else s
  if s.mayWrite d w then
    let raw := getBits v 0 8 * 2 ^ 32 + s.get b Fl.TD_INC_LO
    let c := clampInc raw
    let s := (s.put b Fl.TD_INC_HI (c / 2 ^ 32)).put b Fl.TD_INC_LO c
    let s := if c = raw then s else s.putFlag b Fl.TD_INC_CLAMP true
    s.onDom d fun x => { x with incPend := some c, servoTick := s.tick }
  else s

def execIncHi (d : Dom) (w : Writer) (v : Word) (s : State) : Host.Outcome State Fault Refusal := .next (incHi d w v s)

/-- ADJ_TICKS: the staged ADJ in force at the next tick. -/
def adjTicks (d : Dom) (w : Writer) (v : Word) (s : State) : State :=
  let b := tdAdr d
  if s.mayWrite d w then
    let s := s.put b Fl.TD_ADJ_TICKS v.toNat
    let z := signed 48 (s.getPair b Fl.TD_ADJ_LO Fl.TD_ADJ_HI)
    s.onDom d fun x => { x with adjPend := some (z, v.toNat), servoTick := s.tick }
  else s

def execAdjTicks (d : Dom) (w : Writer) (v : Word) (s : State) : Host.Outcome State Fault Refusal := .next (adjTicks d w v s)

/-- A SET of domain `d` is ignored (R150). -/
def State.setBarred (s : State) (d : Dom) : Bool :=
  let x := s.time.dom d
  d == s.sdom || s.time.switchAt.isSome || decide (1000000000 ≤ s.get (tdAdr d) Fl.TD_SET_NS)
    || (match x.stampEnd with | some t => decide (s.tick < t + 1562500000) | none => false)

/-- SET_GO, with the SET_SEC_HI of the same word. -/
def setGo (d : Dom) (w : Writer) (v : Word) (s : State) : State :=
  let b := tdAdr d
  let s := if w = .host ∧ s.bridgeOn ∧ bitSet v 17 then s.putFlag b Fl.TD_SET_REFUSED false else s
  if s.mayWrite d w then
    let s := s.put b Fl.TD_SET_SEC_HI (getBits v 0 16)
    if bitSet v 16 = false then s
    else if s.setBarred d then s.putFlag b Fl.TD_SET_REFUSED true
    else s.onDom d fun x => { x with setPend := some (s.getPair b Fl.TD_SET_SEC_LO Fl.TD_SET_SEC_HI, s.get b Fl.TD_SET_NS) }
  else s

def execSetGo (d : Dom) (w : Writer) (v : Word) (s : State) : Host.Outcome State Fault Refusal := .next (setGo d w v s)

/-- STATE, with the SRC and flags of the same word; STATE is judged against SRC as it stood. -/
def tqState (d : Dom) (w : Writer) (v : Word) (s : State) : State :=
  let b := tdAdr d
  let ok := s.mayWrite d w
  let s := if w = .host ∧ s.bridgeOn then
      let s := if bitSet v 2 then s.putFlag b Fl.TD_WD_EXP false else s
      let s := if bitSet v 3 then s.putFlag b Fl.TD_HOLD_EXP false else s
      s.put b Fl.TD_SRC (getBits v 16 3)
    else s
  if ok then (s.onDom d fun x => { x with servoTick := s.tick }).setTq d (getBits v 0 2) else s

def execTqState (d : Dom) (w : Writer) (v : Word) (s : State) : Host.Outcome State Fault Refusal := .next (tqState d w v s)

/-! ## Snapshots and reads (R151) -/

def snap (s : State) : State := if s.bridgeOn then { s with time := { s.time with snapPend := true } } else s

def execSnap (s : State) : Host.Outcome State Fault Refusal := .next (snap s)

/-- The snapshot of this tick. -/
def State.takeSnap (s : State) : State :=
  let s := s.putPair Adr.TIME_SNAP_TICK Fl.TIME_SNAP_TICK_TICK_LO Fl.TIME_SNAP_TICK_TICK_HI s.tick
  let one := fun (s : State) (d : Dom) =>
    let x := s.time.dom d
    let s := (s.put (tdAdr d) Fl.TD_SNAP_NS x.ns).put (tdAdr d) Fl.TD_SNAP_SEC_LO x.sec
    (s.put (tdAdr d) Fl.TD_SNAP_SEC_HI (x.sec / 2 ^ 32)).put (tdAdr d) Fl.TD_SNAP_FRAC16 x.frac16
  let s := one (one s .A) .B
  { s.putFlag Adr.TIME_CTL Fl.TIME_CTL_SNAP_DONE true with time := { s.time with snapPend := false } }

/-- TIME_RD word 0, which latches word 1 for the view. -/
def timeRdRead (view : Nat) (s : State) : State :=
  if s.viewOn view then
    let s := { s with readData := s.ns32 }
    s.latch view (Adr.TIME_RD + 4) (s.frac8 + 256 * domIx s.sdom + 512 * s.tq)
  else { s with readData := 0 }

def execTimeRdRead (view : Nat) (s : State) : Host.Outcome State Fault Refusal := .next (timeRdRead view s)

/-! ## Stamping domain (R154) -/

def swReq (s : State) : State := if s.bridgeOn then s.requestSwitch else s

def execSwReq (s : State) : Host.Outcome State Fault Refusal := .next (swReq s)

/-- t_sw: the other domain stamps from this tick on. -/
def domainSwitch (s : State) : State :=
  match s.time.switchAt with
  | none => s
  | some t =>
    if s.tick < t then s
    else
      let old := s.sdom
      let new := otherDom old
      let x := s.time.dom old
      let y := s.time.dom new
      let ofs : Int := (256 * ((y.total : Int) - x.total)) + ((y.frac : Int) - x.frac) / (2 ^ 24 : Nat)
      let ofs := wrap 32 (clampInt (-2147483648) 2147483647 ofs)
      let s := s.putFlag Adr.TIME_CTL Fl.TIME_CTL_STAMP_DOM (domIx new == 1)
      let s := s.putFlag Adr.TIME_CTL Fl.TIME_CTL_SW_PEND false
      let s := s.count Adr.TIME_CTL Fl.TIME_CTL_SW_COUNT 1
      let s := s.putPair Adr.TIME_DSW Fl.TIME_DSW_TICK_LO Fl.TIME_DSW_TICK_HI s.tick
      let s := (s.put Adr.TIME_DSW Fl.TIME_DSW_OFS ofs).put Adr.TIME_DSW Fl.TIME_DSW_TO (domIx new)
      let s := s.pushCap 8 0
      let s := { s with time := { s.time with switchAt := none, anchorOwed := some s.tick } }
      let s := s.onDom old fun x => { x with stampEnd := some s.tick }
      let s := s.putFlag (Adr.FLT_SRC 0xB1) Fl.FLT_SRC_ACTIVE (s.tqOf new == 3)
      let s := s.putFlag (Adr.FLT_SRC 0xB2) Fl.FLT_SRC_ACTIVE (s.tqOf new == 0)
      if s.boot.gwq then s.logInvol (some 4) 0x0071 (bodyOf [(0, 1, domIx new), (4, 4, ofs), (8, 8, s.tick)]) else s

def execDomainSwitch (s : State) : Host.Outcome State Fault Refusal := .next (domainSwitch s)

/-! ## Time quality (R155) -/

/-- TQ_WD without a write of INC_HI, ADJ_TICKS or STATE. -/
def tqWdExpiry (d : Dom) (s : State) : State :=
  let n := s.get (tdAdr d) Fl.TD_TQ_WD
  if s.tqOf d = 2 ∧ n ≠ 0 ∧ (s.time.dom d).servoTick + 6250000 * n ≤ s.tick then
    (s.putFlag (tdAdr d) Fl.TD_WD_EXP true).setTq d 3
  else s

def execTqWdExpiry (d : Dom) (s : State) : Host.Outcome State Fault Refusal := .next (tqWdExpiry d s)

def holdMaxExpiry (d : Dom) (s : State) : State :=
  let n := s.get (tdAdr d) Fl.TD_HOLD_MAX
  if s.tqOf d = 3 ∧ n ≠ 0 ∧ (s.time.dom d).holdTick + 625000000 * n ≤ s.tick then
    (s.putFlag (tdAdr d) Fl.TD_HOLD_EXP true).setTq d 0
  else s

def execHoldMaxExpiry (d : Dom) (s : State) : Host.Outcome State Fault Refusal := .next (holdMaxExpiry d s)

/-- The source of a domain that Gwynique disciplines is lost. -/
def sourceLost (d : Dom) (s : State) : State := if s.mayWrite d .gwynique then s.lostSource d else s

def execSourceLost (d : Dom) (s : State) : Host.Outcome State Fault Refusal := .next (sourceLost d s)

/-- One entry per domain each minute (R274), and the minute's marks begin anew. -/
def timeMinute (s : State) : State :=
  if s.gwqRuns ∧ s.time.minuteTick + 37500000000 ≤ s.tick then
    let one := fun (s : State) (d : Dom) =>
      let x := s.time.dom d
      let s := s.logInvol (some 3) 0x0070
        (bodyOf [(0, 1, domIx d), (1, 1, x.held), (2, 1, s.get (tdAdr d) Fl.TD_SRC), (3, 1, min 255 x.sets), (4, 4, x.maxOfs)])
      s.onDom d fun x => { x with held := 2 ^ s.tqOf d, sets := 0, maxOfs := 0 }
    let s := one (one s .A) .B
    { s with time := { s.time with minuteTick := s.tick } }
  else s

def execTimeMinute (s : State) : Host.Outcome State Fault Refusal := .next (timeMinute s)

/-- Gwynique places an anchor in every stream (R152). -/
def anchor (s : State) : State := if s.gwqRuns then s.anchorAll else s

def execAnchor (s : State) : Host.Outcome State Fault Refusal := .next (anchor s)

/-! ## Sources (R157 to R160) -/

/-- The count a message adds to: a two-step Sync is a Sync. -/
def ptpCount (kind : Nat) : Nat := if kind = 6 then 0 else kind

/-- What a client learns from a message that is its own, stamped `t` at its port: counts; an Announce or its timeout changes the
masters heard; a Sync or Follow_Up of the best master, or its Delay_Resp, completes a difference of stamps; a two-step Sync
and the client's own Delay_Req leave their stamps. -/
def PtpClient.learn (p : PtpClient) (t : Int) (tick : Nat) (m : PtpMsg) : PtpClient :=
  let k := ptpCount m.kind
  let p := { p with counts := p.counts.set k (p.counts.getD k 0 + 1) }
  let others := p.foreign.filter fun x => x.1 != m.clockId
  let best := match p.best with | some b => b.1 == m.clockId | none => false
  if m.kind = 4 then ({ p with foreign := others ++ [(m.clockId, m.ann)] } : PtpClient).follow
  else if m.kind = 5 then ({ p with foreign := others } : PtpClient).follow
  else if best = false then p
  else if m.kind = 2 then { p with reqAt := some t, reqTick := some tick, reqTo := if p.unicast then m.addr else [] }
  else if m.kind = 3 then
    match p.reqAt with
    | some t3 => { p with toMaster := some (m.time - t3), reqAt := none }
    | none => p
  else if m.kind = 6 then { p with syncAt := some t }
  else
    match p.diff t m with
    | some x => { p with fromMaster := some x, syncAt := none }
    | none => p

/-- A measurement of the best master completed by this message: `p` before it, `q` after. -/
def PtpClient.fresh (p q : PtpClient) (t : Int) (m : PtpMsg) : Option (Int × Int) :=
  if (p.diff t m).isSome && (match p.best with | some b => b.1 == m.clockId | none => false) then q.measured else none

/-- A PTP message: taken by the domain's client where it is the client's own. Where PTP is the domain's source, the client's last
master gone is its loss, and a Sync of the best master gives an offset (R155, R160). -/
def ptpMessage (d : Dom) (m : PtpMsg) (s : State) : State :=
  let p := s.time.ptp d
  if s.gwqRuns && s.has .mgmtU && p.mine m && (m.kind != 2 || p.sends s.tick m) then
    let t := ethStamp (s.time.dom d) m.err
    let q := p.learn t s.tick m
    let s := s.onPtp d fun _ => q
    if s.srcOf d ≠ 1 then s
    else if q.valid = false then s.lostSource d
    else
      match p.fresh q t m with
      | some (delay, ofs) => (s.onPtp d fun p => { p with offset := ofs, delay := delay }).offsetSeen d ofs
      | none => if s.tqOf d = 0 ∨ s.tqOf d = 3 then s.setTq d 1 else s
  else s

def execPtpMessage (d : Dom) (m : PtpMsg) (s : State) : Host.Outcome State Fault Refusal := .next (ptpMessage d m s)

/-- The offset of domain `d` at an edge that the second `sec` names, in 1/256 ns. -/
def edgeOffset (x : Domain) (dly : Int) (sec : Nat) : Int :=
  256 * ((x.total : Int) - 1000000000 * sec) + x.frac8 - dly

/-- Lines that will not be used: each counted in BAD (R159). -/
def State.badLines (s : State) (inB : Bool) (n : Nat) : State :=
  let b := Adr.TOD (if inB then 1 else 0)
  if n = 0 then s else (s.count b Fl.TOD_BAD n).putFlag b Fl.TOD_LINE_OK false

/-- Lines for which 1.1 s have passed name no edge. -/
def State.expireLines (s : State) (inB : Bool) : State :=
  let ls := (s.time.pps inB).lines
  if ls.isEmpty then s
  else
    let keep := ls.filter fun l => decide (s.tick ≤ l.2.1 + lineTo)
    (s.onPps inB fun x => { x with lines := keep }).badLines inB (ls.length - keep.length)

/-- A line names this edge: used, or counted in SEQ. `sub` is where in its tick the edge fell. -/
def State.nameEdge (s : State) (inB : Bool) (sub : Nat) (l : Nat × Nat × Int × Nat) : State :=
  let n := if inB then 1 else 0
  let b := Adr.TOD n
  let sec := l.1
  let r := (s.time.pps inB).judge sec
  let s := s.onPps inB fun _ => r.2
  if r.1 = false then (s.count b Fl.TOD_SEQ 1).putFlag b Fl.TOD_LINE_OK false
  else
    let s := (s.putFlag b Fl.TOD_LINE_OK true).putPair b Fl.TOD_SEC_LO Fl.TOD_SEC_HI sec
    let s := (s.put b Fl.TOD_UTC (wrap 8 l.2.2.1)).put b Fl.TOD_LEAP l.2.2.2
    let dly := signed 32 (s.get b Fl.TOD_DLY)
    let one := fun (s : State) (d : Dom) =>
      if s.gwqRuns ∧ s.srcOf d = 2 + n then s.offsetSeen d (edgeOffset ((s.time.dom d).sub sub) dly sec) else s
    one (one s .A) .B

/-- A PPS edge that has stayed high for 1 µs, `sub` sixteenths into its tick: every waiting line that came 100 ms or more
before it names it. -/
def ppsEdge (inB : Bool) (sub : Nat) (s : State) : State :=
  let n := if inB then 1 else 0
  let s := (s.pushCap (4 + n) (min sub 15)).expireLines inB
  let x := s.time.pps inB
  let early := match x.lastEdge with | some t => decide (s.tick < t + 312500000) | none => false
  if early then s.count (Adr.TOD n) Fl.TOD_EXTRA 1
  else
    let named := x.lines.filter fun l => decide (l.2.1 + lineFrom ≤ s.tick)
    let rest := x.lines.filter fun l => !decide (l.2.1 + lineFrom ≤ s.tick)
    let s := s.onPps inB fun x => { x with lastEdge := some s.tick, edges := x.edges + 1, lines := rest }
    named.foldl (fun s l => s.nameEdge inB (min sub 15) l) s

def execPpsEdge (inB : Bool) (sub : Nat) (s : State) : Host.Outcome State Fault Refusal := .next (ppsEdge inB sub s)

/-- A TOD line, from K to LF, at the tick of its LF: it waits for the edge it names. -/
def todLine (inB : Bool) (line : List Byte) (s : State) : State :=
  match todParse line with
  | none => s.badLines inB 1
  | some (sec, utc, leap) => s.onPps inB fun x => { x with lines := x.lines ++ [(sec, s.tick, utc, leap)] }

def execTodLine (inB : Bool) (line : List Byte) (s : State) : Host.Outcome State Fault Refusal := .next (todLine inB line s)

/-! ## Capture and compare units (R161 to R164) -/

/-- An edge on TS_IN n, `sub` sixteenths into its tick. -/
def tsInCapture (n : Nat) (rising : Bool) (sub : Nat) (s : State) : State :=
  let e := s.get (Adr.CAP n) Fl.CAP_EDGE
  if n < 4 ∧ (e = 2 ∨ (e = 0 ∧ rising) ∨ (e = 1 ∧ !rising)) then s.pushCap n (min sub 15) else s

def execTsInCapture (n : Nat) (rising : Bool) (sub : Nat) (s : State) : Host.Outcome State Fault Refusal :=
  .next (tsInCapture n rising sub s)

/-- A read of capture word +0x14. -/
def capturePop (n : Nat) (s : State) : State :=
  if s.bridgeOn && decide (n < 9) then ({ s with readData := (s.rd (Adr.CAP n + 0x14)).toNat }).popCap n
  else { s with readData := 0 }

def execCapturePop (n : Nat) (s : State) : Host.Outcome State Fault Refusal := .next (capturePop n s)

/-- The mode of compare unit `n`: none = TICK, else the domain. -/
def State.cmpDom (s : State) (n : Nat) : Option Dom :=
  match s.get (Adr.CMP n) Fl.CMP_MODE with
  | 1 => some .A
  | 2 => some .B
  | _ => none

/-- The target of unit `n`: a TICK, or whole nanoseconds of its domain. -/
def State.cmpTarget (s : State) (n : Nat) : Nat :=
  let b := Adr.CMP n
  match s.cmpDom n with
  | none => s.getPair b Fl.CMP_TGT_LO Fl.CMP_TGT_HI
  | some _ => (s.getPair b Fl.CMP_TGT_LO Fl.CMP_TGT_HI % 2 ^ 48) * 1000000000 + s.get b Fl.CMP_TGT_NS

/-- Whether the target lies at or before this tick. -/
def State.cmpReached (s : State) (n : Nat) : Bool :=
  match s.cmpDom n with
  | none => decide (s.cmpTarget n ≤ s.tick)
  | some d => decide (s.cmpTarget n ≤ (s.time.dom d).total)

/-- Word +0x00 of an owner's unit: EN = 1 arms it, EN = 0 disarms it. -/
def cmpEn (n : Nat) (v : Word) (s : State) : State :=
  if s.bridgeOn && decide (24 ≤ n ∧ n < 32) then
    let s := s.store (Adr.CMP n) v
    let late := bitSet v 0 && s.cmpReached n
    { s with time := { s.time with
      armed := (if bitSet v 0 then [n] else []) ++ s.time.armed.filter (· != n)
      late := (if late then [n] else []) ++ s.time.late.filter (· != n) } }
  else s

def execCmpEn (n : Nat) (v : Word) (s : State) : Host.Outcome State Fault Refusal := .next (cmpEn n v s)

/-- A periodic unit's target moved beyond the firing (R162). -/
def State.cmpNext (s : State) (n : Nat) : State :=
  let b := Adr.CMP n
  let p := s.get b Fl.CMP_PERIOD
  let now := match s.cmpDom n with | none => s.tick | some d => (s.time.dom d).total
  let t := s.cmpTarget n
  let t := t + ((now - t) / p + 1) * p
  match s.cmpDom n with
  | none => s.putPair b Fl.CMP_TGT_LO Fl.CMP_TGT_HI t
  | some _ => (s.putPair b Fl.CMP_TGT_LO Fl.CMP_TGT_HI (t / 1000000000)).put b Fl.CMP_TGT_NS (t % 1000000000)

/-- An armed unit fires at or after its target. -/
def cmpFired (n : Nat) (s : State) : State :=
  if s.time.armed.contains n && s.cmpReached n then
    let b := Adr.CMP n
    let late := s.time.late.contains n
    let s := s.putFlag b Fl.CMP_FIRED true
    let s := if late then s.putFlag b Fl.CMP_LATE true else s
    let out := s.get b Fl.CMP_OUT
    let again := s.flag b Fl.CMP_PERIODIC && s.get b Fl.CMP_PERIOD != 0
    let s := { s with time := { s.time with
      armed := if again then s.time.armed else s.time.armed.filter (· != n)
      late := s.time.late.filter (· != n)
      pulses := if out = 0 then s.time.pulses
                else s.time.pulses ++ [(n, out, s.tick + max 1 (s.get b Fl.CMP_WIDTH))] } }
    let s := if n < 24 then s.putFlag b Fl.CMP_EN false else s
    let s := (if again then s.cmpNext n else s).hubEvent 0x02 1
    if s.flag b Fl.CMP_EVENT ∧ s.gwqRuns then s.postOwners 0x0020 (le 1 n ++ le 1 (b2n late)) else s
  else s

def execCmpFired (n : Nat) (s : State) : Host.Outcome State Fault Refusal := .next (cmpFired n s)

/-- The pulses of unit `n` that have run their WIDTH end (R163). -/
def tsOutPulseEnd (n : Nat) (s : State) : State :=
  { s with time := { s.time with pulses := s.time.pulses.filter fun p => !(p.1 == n && decide (p.2.2 ≤ s.tick)) } }

def execTsOutPulseEnd (n : Nat) (s : State) : Host.Outcome State Fault Refusal := .next (tsOutPulseEnd n s)

/-- The level of TS_OUT pin `p`: the OR of the units that drive it. -/
def State.tsOut (s : State) (p : Nat) : Bool := s.time.pulses.any fun x => x.2.1.testBit p && decide (s.tick < x.2.2)

/-! ## REFCLK (R17) -/

def refclkLoss (s : State) : State :=
  { s.assertFault 0xB0 {} true with time := { (s.assertFault 0xB0 {} true).time with refOk := false } }

def execRefclkLoss (s : State) : Host.Outcome State Fault Refusal := .next (refclkLoss s)

def refclkRelock (s : State) : State :=
  { s.faultGone 0xB0 with time := { s.time with refOk := true } }

def execRefclkRelock (s : State) : Host.Outcome State Fault Refusal := .next (refclkRelock s)

/-! ## The spine tick (R16, R149) -/

/-- A SET was applied to domain `d` at this tick: state, count, anchors owed, and compare units it passed over. -/
def State.afterSet (s : State) (d : Dom) (before : Nat) : State :=
  let s := s.countWrap (tdAdr d) Fl.TD_SET_COUNT 1
  let s := { s with time := { s.time with anchorOwed := some (s.time.anchorOwed.getD s.tick) } }
  let s := if 2 ≤ s.tqOf d then s.setTq d 1 else s
  let passed := s.time.armed.filter fun n =>
    s.cmpDom n == some d && s.cmpReached n && decide (before < s.cmpTarget n) && !s.time.late.contains n
      && decide (s.cmpTarget n < (s.time.dom d).total)
  { s with time := { s.time with late := passed ++ s.time.late } }

/-- Both domains advance. -/
def State.tickDomains (s : State) : State :=
  let a := s.time.a.step s.tick
  let b := s.time.b.step s.tick
  let oa := s.time.a.total
  let ob := s.time.b.total
  let s := { s with time := { s.time with a := a.1, b := b.1 } }
  let s := if a.2 then s.afterSet .A oa else s
  if b.2 then s.afterSet .B ob else s

/-- ALIVE_OUT changes level every 3,125 ticks while it runs (R319). -/
def State.tickAlive (s : State) : State :=
  match s.boot.aliveAt with
  | some t => if t ≤ s.tick then s.setBoot { s.boot with alive := !s.boot.alive, aliveAt := some (s.tick + 3125) } else s
  | none => s

/-- The path temperature of each group of 128 inputs, refreshed every 1 ms from three photonic-die sensors (R169). -/
def State.refreshTpd (s : State) : State :=
  if s.tick % 625000 ≠ 0 then s
  else
    let one := fun (g : Nat) =>
      (List.range 3).foldl (fun (acc : Int × Nat) k =>
        let b := Adr.THERM_T (68 + 3 * g + k)
        if s.flag b Fl.THERM_T_VALID then (acc.1 + signed 16 (s.get b Fl.THERM_T_TEMP), acc.2 + 1) else acc) (0, 0)
    { s with exp := { s.exp with tpd := ((List.range 4).map fun g => (g, one g)).filter fun e => e.2.2 != 0 } }

/-- Main taps come into force at their lane's alignment marker (R290). -/
def State.takeTaps (s : State) : State :=
  let due := s.pair.taps.filter fun x => decide (x.2.1 ≤ s.tick)
  let s := due.foldl (fun s x => s.put (Adr.HLD_LANE x.1) Fl.HLD_LANE_MAIN x.2.2) s
  { s with pair := { s.pair with taps := s.pair.taps.filter fun x => decide (s.tick < x.2.1) } }

/-- A new instant begins: what its accesses see beside its events (R370). -/
def State.markInstant (s : State) : State :=
  { s with host := { s.host with before := some {
      regs := s.regs, lanes := s.ctl.lanes.map fun e => (e.1, [e.2.feTrip, e.2.ovrTrip, e.2.lowsig, e.2.stale], e.2.skip, e.2.frozen) } } }

/-- A tick of the spine: TICK, both domains, a waiting snapshot, ALIVE_OUT, ended policer windows, the housekeeping reference, and what is due on
this tick in the control plane; on a strobe every DAC converts. -/
def spineTick (s : State) : State :=
  if s.boot.porLow || s.boot.dead then s
  else
    let s := s.takeSwitch.markInstant
    let s := { s with tick := min (s.tick + 1) (2 ^ 64 - 1) }
    let s := s.tickDomains.stampApplies
    let s := if s.time.snapPend then s.takeSnap else s
    let s := s.tickAlive.refreshTpd.endWindows.parkLate.hkSettled.takeTaps.crossings.goExpire.fcStart.busTick
    let s := (s.expireLines false).expireLines true
    if s.tick % 5 = 0 then s.strobe.hubEvent 0x01 1 else s

def execSpineTick (s : State) : Host.Outcome State Fault Refusal := .next (spineTick s)

end Sys2Proof.Machine
end

