-- ==== Sys2Proof/Machine/CmdMisc.lean ====
section
/-! DEFINITION. The stamping, export, time, ledger, key, attestation and image commands (spec/12_mailbox_commands.md R241
to R244, R246, spec/14_secrecy_and_ledger.md R265 to R269, R276, spec/19_power_boot_reset.md R356, R357). -/

namespace Sys2Proof.Machine

/-! ## DIGEST_KEY (R241) -/

def Taken.port (t : Taken) : Nat := t.p 24 2

/-- The key a DIGEST_KEY sets, or none. -/
def Taken.key (t : Taken) : Option (List Byte) := if t.p 26 1 = 0 then some ((t.params.drop 8).take 16) else none

/-- A digest key set or removed by command, with its entry; KEYSEQ as it becomes. -/
def State.changeKey (s : State) (q role p op : Nat) (key : Option (List Byte)) : State :=
  let seq := (s.keySeq p + 1) % 256
  (s.log 0x0060 q role (bodyOf [(0, 2, p), (2, 1, op), (3, 1, seq)])).setKey p key

def keyCmd : Ahead where
  op := 0x0500
  needs := fun s _ t => { bad := decide (numPorts s.variant ≤ t.port) || decide (1 < t.p 26 1) }
  own := fun _ _ _ _ => 0
  entries := 1
  isLocal := fun _ _ _ => false
  txn := fun _ _ t => (txKey, [t.port, t.p 26 1, ofLE ((t.params.drop 8).take 16)])
  act := fun s q t _ =>
    let s := s.changeKey q t.role t.port (t.p 26 1) t.key
    s.complete q 0 (le 1 (s.keySeq t.port))

def digestKey (q : Nat) (s : State) : State := s.aheadCmd q keyCmd
def execDigestKey (q : Nat) (s : State) : Host.Outcome State Fault Refusal := .next (digestKey q s)

/-! ## QUEUE_STAT, EXPORT_FLUSH (R242) -/

/-- Depth and delay of a queue as R198 forms them for the variant, for the reader `q`. -/
def State.observed (s : State) (n q : Nat) (x : Queue) : Nat × Nat :=
  if Variant.isSmall s.variant then (s.get (Adr.QW n) Fl.QW_Q_DEPTH, s.get (Adr.QW n) Fl.QW_Q_DELAY)
  else ((x.seen (1000 + q)).depth, (x.seen (1000 + q)).delay)

def queueStat (q : Nat) (s : State) : State :=
  s.actCmd q 0x0600
    (fun _ t =>
      let n := targetOf q (t.p 24 2)
      { roles := [1, 2, 3], bit := some 3, denied := t.role != 1 && n != q, bad := decide (4096 ≤ n) })
    (fun s t => s.noSess (targetOf q (t.p 24 2))) 0
    fun s t =>
      let n := targetOf q (t.p 24 2)
      let x := (s.queue? n).getD {}
      let v := if t.role ≠ 1 ∧ s.isFc n then (0, 0) else s.observed n q x
      let s := s.onQueue n fun x => { x with marks := SMap.insert x.marks (1000 + q) {} }
      s.complete q 0 (le 4 v.1 ++ le 4 v.2 ++ le 4 (x.seen (1000 + q)).drops ++ le 4 (s.get (Adr.QW n) Fl.QW_QPOS_LO))

def execQueueStat (q : Nat) (s : State) : Host.Outcome State Fault Refusal := .next (queueStat q s)

/-- The waiting records of an Ethernet queue sent without waiting for others (R242), in datagrams with flag bit 0: at once as far as
its channel serves the queue next, its shaper permits and no reserved time is taken (R194 to R197); the rest as its channel
serves it (log 96). -/
def State.flushQueue (s : State) (n : Nat) : State :=
  let s := shaperRefill s
  match s.queue? n with
  | none => s
  | some x =>
    if s.chan n = 0 ∨ s.isFc n then s
    else
      let s := s.setQueue n { x with flushPos := match x.items.getLast? with | some i => i.qpos + 1 | none => x.flushPos }
      ((List.range x.items.length).foldl (fun acc _ =>
        let s := acc.1
        let t := s.purge n s.maxRec
        let ticks := acc.2 + sendTicks (s.chan n) (t.dgramLen n ((t.queue? n).getD {}) s.maxRec true)
        if s.wfqPick (s.chan n) == some n && s.fits (s.chan n) ticks then (t.sendDgram n s.maxRec 1 true, ticks) else acc) (s, 0)).1

def exportFlush (q : Nat) (s : State) : State :=
  s.actCmd q 0x0601
    (fun _ t =>
      let n := targetOf q (t.p 24 2)
      { roles := [1, 2], bit := some 1, denied := t.role != 1 && n != q, bad := decide (4096 ≤ n) })
    (fun s t => s.noSess (targetOf q (t.p 24 2))) 0
    fun s t => (s.flushQueue (targetOf q (t.p 24 2))).complete q 0 []

def execExportFlush (q : Nat) (s : State) : Host.Outcome State Fault Refusal := .next (exportFlush q s)

/-! ## PTP_CFG, PTP_STATS (R243) -/

def Taken.dom (t : Taken) : Dom := ixDom (t.p 24 1)

/-- The client a PTP_CFG configures, at rest. -/
def Taken.client (t : Taken) : PtpClient where
  port := t.p 25 1
  domainNumber := t.p 26 1
  transport := t.p 27 1
  unicast := (t.p 28 1).testBit 0
  logDelay := signed 8 (t.p 29 1)
  asym := signed 32 (t.p 32 4)
  lockThr := if t.p 36 2 = 0 then 40 else t.p 36 2
  masters := (List.range (t.p 38 1)).map fun k => (t.buf.drop (24 * k)).take 24

/-- The configuration of a client taken, what it has learnt and counted kept. -/
def PtpClient.configured (p c : PtpClient) : PtpClient :=
  { p with port := c.port, domainNumber := c.domainNumber, transport := c.transport, unicast := c.unicast
           logDelay := c.logDelay, asym := c.asym, lockThr := c.lockThr, masters := c.masters }

def ptpCfg (q : Nat) (s : State) : State :=
  s.actCmd q 0x0700
    (fun _ t =>
      let d := signed 8 (t.p 29 1)
      { bad := decide (1 < t.p 24 1) || !(t.p 25 1 == 1 || t.p 25 1 == 2) || t.p 27 1 == 0 || decide (3 < t.p 27 1)
          || decide (d < -7) || decide (4 < d) || decide (1000 < t.p 36 2) || decide (8 < t.p 38 1)
          || decide (t.bufLen < 24 * t.p 38 1)
        reads := t.p 38 1 != 0 }) (fun _ _ => 0) 0
    fun s t =>
      let d := t.dom
      let s := s.complete q 0 []
      if s.get (tdAdr d) Fl.TD_SRC ≠ 1 then s.onPtp d fun p => p.configured t.client
      else
        let s := s.onPtp d fun _ => t.client
        if s.tqOf d = 2 then s.setTq d 3 else s

def execPtpCfg (q : Nat) (s : State) : Host.Outcome State Fault Refusal := .next (ptpCfg q s)

/-- The 64 bytes of PTP_STATS. -/
def PtpClient.stats (p : PtpClient) : List Byte :=
  fit 8 p.grandmaster ++ fit 10 p.parent ++ le 1 p.clockClass ++ le 2 (wrap 16 p.utc) ++ le 1 p.leap
    ++ p.counts.flatMap (le 4) ++ List.replicate 18 0

def ptpStats (q : Nat) (s : State) : State :=
  s.actCmd q 0x0701 (fun _ t => { bad := decide (1 < t.p 24 1) || decide (t.bufLen < 64) }) (fun _ _ => 0) 0
    fun s t =>
      let p := s.time.ptp t.dom
      (s.writeBuf q t.bufAddr p.stats).complete q 0
        (layout 16 [(0, le 1 (s.tqOf t.dom)), (1, le 1 p.heard), (4, le 4 (wrap 32 p.offset)), (8, le 4 (wrap 32 p.delay))])

def execPtpStats (q : Nat) (s : State) : Host.Outcome State Fault Refusal := .next (ptpStats q s)

/-! ## The ledger (R244, R276) -/

/-- The entries a LEDGER_READ returns. -/
def State.readEntries (s : State) (src max len : Nat) : List LEntry :=
  let n := len / 128
  (s.led.entries.filter fun e => decide (src ≤ e.seq)).take (if max = 0 then n else min n max)

/-- An entry of the ring read: bad check bits assert LEDGER_PAR (R313, R318). -/
def State.ledgerParity (s : State) (seq : Nat) : State :=
  if s.checkBad 0xA6 seq then s.assertFault 0xA6 { access := 0, master := 0, addr := 128 * (seq % ringSize s.variant) } false
  else s

def ledgerRead (q : Nat) (s : State) : State :=
  s.actCmd q 0x0800 (fun _ t => { roles := [1, 3], bit := some 4, bad := decide (t.bufLen < 128) }) (fun _ _ => 0) 0 fun s t =>
    let es := s.readEntries (t.p 24 8) (t.p 32 4) t.bufLen
    let gap := match s.led.entries.head? with | some e => decide (t.p 24 8 < e.seq) | none => false
    let first := match es.head? with | some e => e.seq | none => 0
    let s := s.writeBuf q t.bufAddr (es.flatMap LEntry.bytes)
    let s := es.foldl (fun s e => s.ledgerParity e.seq) s
    let s := match es.getLast? with
      | some e => if t.flag 0 then s.release e.seq else s
      | none => s
    s.complete q 0 (le 8 first ++ le 4 es.length ++ le 1 (b2i gap))

def execLedgerRead (q : Nat) (s : State) : Host.Outcome State Fault Refusal := .next (ledgerRead q s)

/-- The held checkpoint with the smallest LAST_SEQ at or above `n`, else the latest; 0 names the latest. -/
def State.checkpointFor (s : State) (n : Nat) : Option Checkpoint :=
  if n = 0 then s.led.cps.getLast?
  else (s.led.cps.find? fun c => decide (n ≤ c.last)).or s.led.cps.getLast?

def ledgerCheckpoint (q : Nat) (s : State) : State :=
  s.actCmd q 0x0801 (fun _ t => { roles := [1, 3], bit := some 4, bad := decide (t.bufLen < 224) }) (fun _ _ => 0) 0 fun s t =>
    match s.checkpointFor (t.p 24 8) with
    | some c => (s.writeBuf q t.bufAddr c.bytes).complete q 0 (le 8 c.last)
    | none => s.complete q 0 []

def execLedgerCheckpoint (q : Nat) (s : State) : Host.Outcome State Fault Refusal := .next (ledgerCheckpoint q s)

/-! ## Attestation and identity (R265, R267) -/

/-- The anti-rollback count of an image class: OTP bits burnt, at most 64 (R357). -/
def State.rbCount (s : State) (c : Nat) : Nat :=
  if c < 2 then min 64 (Config.otpRollback c + SMap.find 0 s.flash.rollback c) else 0

/-- The evidence without its signature. -/
def State.evidence (s : State) (nonce : List Byte) : List Byte :=
  let last := match s.led.last with | some e => (e.seq, sha384 e.bytes) | none => (0, List.replicate 48 0)
  let key := match s.flash.owner with | some k => sha384 k | none => []
  let patched := decide (s.boot.mcImage ≠ 0)
  layout 440 [(0, le 4 0x4B415454), (4, le 2 1),
    (6, le 2 (s.get Adr.SEC_STAT Fl.SEC_STAT_DEBUG_OFF + 2 * b2i s.flash.owner.isSome + 4 * b2i s.flash.pairKey.isSome)),
    (8, s.idDigest), (40, fit 32 nonce), (72, le 6 s.now.sec), (78, le 1 (s.tqByte % 16)), (80, le 4 s.now.ns),
    (88, tableBytes 48 Config.romDigestByte), (136, fit 48 s.boot.gwqDigest), (184, le 4 s.boot.gwqLevel), (188, le 2 baseLevel),
    (190, le 1 (if patched then s.boot.mcPatch else 0)), (191, le 1 ((s.rd Adr.MC_GSTAT).toNat % 32)),
    (192, fit 48 s.boot.mcDigest), (240, sha384 (tableBytes (frLen s.variant) Config.frByte)),
    (288, le 1 ((s.rd Adr.FR_STAT).toNat % 16)), (289, le 1 (s.get Adr.SEC_STAT Fl.SEC_STAT_ENROL_COUNT)), (292, fit 48 key),
    (340, if s.flash.pairKey.isSome then fit 32 s.flash.partner else List.replicate 32 0),
    (372, (List.range 8).flatMap fun c => le 1 (s.rbCount c)), (384, le 8 last.1), (392, last.2)]

def attest (q : Nat) (s : State) : State :=
  s.actCmd q 0x0802 (fun _ t => { roles := [1, 2, 3], bit := some 5, bad := decide (t.bufLen < 536) }) (fun _ _ => 0) 0 fun s t =>
    let r := s.sign
    (r.2.writeBuf q t.bufAddr (s.evidence (t.params.take 32) ++ r.1)).complete q 0 (le 4 536)

def execAttest (q : Nat) (s : State) : Host.Outcome State Fault Refusal := .next (attest q s)

def identity (q : Nat) (s : State) : State :=
  s.actCmd q 0x0803 (fun _ t => { roles := [1, 2, 3], bit := some 5, bad := decide (t.bufLen < Config.chainLen) })
    (fun _ _ => 0) 0 fun s t =>
      (s.writeBuf q t.bufAddr (tableBytes Config.chainLen Config.chainByte)).complete q 0 (le 4 Config.chainLen)

def execIdentity (q : Nat) (s : State) : Host.Outcome State Fault Refusal := .next (identity q s)

/-! ## Enrolment (R266, R268, R269) -/

/-- An enrolment block that names another module or another count. -/
def badEnrol (s : State) (b : List Byte) : Bool :=
  rdLE b 0 4 != 0x4B4F574E || rdLE b 4 1 != 1 || decide ((b.drop 8).take 32 ≠ s.idDigest)
    || rdLE b 5 1 != s.get Adr.SEC_STAT Fl.SEC_STAT_ENROL_COUNT

/-- One OTP enrolment bit burnt, and the new owner sealed. -/
def State.enrolOwner (s : State) (key : List Byte) : State :=
  let s := s.seal fun x => { x with owner := some key, enrolCount := x.enrolCount + 1 }
  (s.putFlag Adr.SEC_STAT Fl.SEC_STAT_OWNER true).put Adr.SEC_STAT Fl.SEC_STAT_ENROL_COUNT s.flash.enrolCount

def ownerEnrol (q : Nat) (s : State) : State :=
  s.actCmd q 0x0804
    (fun s t =>
      { roles := [1, 2, 3], denied := if s.flash.owner.isSome then t.role != 1 else s.sessCarrier q != 0
        bad := decide (t.bufLen < 256), reads := true })
    (fun s t => firstStatus [(badEnrol s t.buf, stField), (decide (64 ≤ s.get Adr.SEC_STAT Fl.SEC_STAT_ENROL_COUNT), stDenied),
      ((match s.flash.owner with | some k => !ecdsaVerify k (t.buf.take 160) ((t.buf.drop 160).take 96) | none => false), 0x23)]) 1
    fun s t =>
      let key := (t.buf.drop 40).take 97
      let old := match s.flash.owner with | some k => (sha384 k).take 24 | none => []
      let s := s.log 0x0061 q t.role
        (layout 52 [(0, le 1 (s.get Adr.SEC_STAT Fl.SEC_STAT_ENROL_COUNT + 1)), (4, (sha384 key).take 24), (28, fit 24 old)])
      let s := (s.enrolOwner key).complete q 0 []
      (s.sessIds.filter (· != q)).foldl (fun s n => s.beginClose n 7) s

def execOwnerEnrol (q : Nat) (s : State) : Host.Outcome State Fault Refusal := .next (ownerEnrol q s)

/-! ## COMB_RESTART, images (R246, R143, R356, R357) -/

/-- COMB_RESTART: a comb in MCHECK is recovered, and its count of machine checks begins anew; a load whose readback fails
leaves it in LOAD_FAIL (R146). -/
def combRestart (q : Nat) (readbackOk : Bool) (s : State) : State :=
  s.actCmd q 0x0A00 (fun s t => { bad := decide (numCombs s.variant ≤ t.p 24 1) })
    (fun s t => if s.engine (t.p 24 1) == 2 && !s.ledgerRoom 1 then stLedger else 0) 0
    fun s t =>
      let c := t.p 24 1
      if s.engine c = 2 then
        let s := s.onComb c fun x => { x with checks := [], gaveUp := false }
        let again := (s.comb c).restart
        (if again then s else s.recover c readbackOk q t.role).complete q 0 (le 1 (if again || readbackOk then 1 else 4))
      else s.complete q 0 (le 1 (s.engine c))

def execCombRestart (x : RestartIn) (s : State) : Host.Outcome State Fault Refusal :=
  .next (combRestart x.q x.readbackOk s)

/-- The bank that runs for an image class. -/
def State.bankOf (s : State) (c : Nat) : Nat :=
  if c = 0 then s.get Adr.BOOT_STAT Fl.BOOT_STAT_G_BANK else s.get Adr.BOOT_STAT Fl.BOOT_STAT_M_BANK

def Taken.cls (t : Taken) : Nat := t.p 24 1

/-- The body of an IMAGE_LOAD or IMAGE_WRITE entry. -/
def imageBody (cls outcome cause level rb : Nat) (digest : List Byte) : List Byte :=
  layout 52 [(0, le 1 cls), (1, le 1 outcome), (2, le 1 cause), (4, le 4 level), (8, le 2 rb), (12, digest.take 32)]

/-- IMAGE_WRITE: the image goes to the bank that does not run, and the next cold start judges it there. -/
def imageWrite (q : Nat) (s : State) : State :=
  s.actCmd q 0x0B00 (fun _ t => { bad := decide (1 < t.cls) || decide (t.bufLen < 256), reads := true })
    (fun s t =>
      let b : BankIn := ⟨t.buf⟩
      if b.empty || !b.signed s.flash.keys || b.cls != t.cls then 0x23 else 0) 1
    fun s t =>
      let b : BankIn := ⟨t.buf⟩
      let s := s.log 0x0004 q t.role (imageBody t.cls 0 0 b.level (s.rbCount t.cls) b.digest)
      let s := { s with flash := s.flash.setBank (2 * t.cls + (1 - s.bankOf t.cls)) b }
      s.complete q 0 (le 4 b.level)

def execImageWrite (q : Nat) (s : State) : Host.Outcome State Fault Refusal := .next (imageWrite q s)

/-- IMAGE_INFO: the highest level the flash holds of a class, the level running, and the anti-rollback count. -/
def imageInfo (q : Nat) (s : State) : State :=
  s.actCmd q 0x0B01 (fun _ t => { roles := [1, 3], bad := decide (1 < t.cls) }) (fun _ _ => 0) 0 fun s t =>
    let lv := fun (b : Nat) => SMap.find 0 s.flash.levels (2 * t.cls + b)
    s.complete q 0 (le 4 (max (lv 0) (lv 1)) ++ le 4 (s.get (Adr.IMG_STAT t.cls) Fl.IMG_STAT_LEVEL) ++ le 2 (s.rbCount t.cls))

def execImageInfo (q : Nat) (s : State) : Host.Outcome State Fault Refusal := .next (imageInfo q s)

end Sys2Proof.Machine
end

