-- ==== Sys2Proof/Machine/Csp.lean ====
section
/-! DEFINITION. The circuit status port and the strike of the armed plan (spec/13_circuit_status_port.md R249 to R254,
spec/06_reconfiguration.md R124, R125). -/

namespace Sys2Proof.Machine

def State.csp (s : State) : Csp := s.ctl.csp
def State.setCsp (s : State) (x : Csp) : State := { s with ctl := { s.ctl with csp := x } }

/-- The island is powered, so its signals are sampled (R249). -/
def State.cspOn (s : State) : Bool := s.powered 31

/-- At a rising edge of CSP_CLK the island's copy of GO_OK takes the hub's flag, at the second or third edge after it changed; which of
the two is open (R23, R254). -/
def State.followGo (s : State) : State :=
  let p := s.csp
  let n := p.goEdges + 1
  if p.goOk = p.goHub ∨ n < 2 then s.setCsp { p with goEdges := n }
  else
    let r := s.draw
    r.2.setCsp { p with goEdges := n, goOk := if 3 ≤ n ∨ r.1 % 2 = 0 then p.goHub else p.goOk }

/-- A flip of the select bits is taken at the second edge after it, or, which is open, at the first (R252). -/
def flipTaken (edges pick k : Nat) : Bool := decide (2 ≤ edges) || pick.testBit k

/-- At a rising edge of CSP_CLK the flips that are taken govern the reads sampled from it on (R252). -/
def State.takeFlips (s : State) : State :=
  let p := s.csp
  if p.outsNext.isEmpty && p.devNext.isNone then s
  else
    let r := s.draw
    let taken := fun (e : Nat × Nat × Nat) => flipTaken (e.2.2 + 1) r.1 e.1
    let outs := (p.outsNext.filter taken).foldl (fun m e => SMap.put 0 m e.1 e.2.1) p.outs
    let next := (p.outsNext.filter fun e => !taken e).map fun e => (e.1, e.2.1, e.2.2 + 1)
    let p := { p with outs := outs, outsNext := next }
    r.2.setCsp (match p.devNext with
      | some (w, n) => if flipTaken (n + 1) r.1 512 then { p with dev := w, devNext := none } else { p with devNext := some (w, n + 1) }
      | none => p)

/-- A rising edge of CSP_CLK. What is sampled within one spine tick is sampled at one edge, since edges lie 5.0 ns or more apart
(R249); CSP_GO was low at it unless the row that says otherwise comes with it. -/
def State.cspEdge (s : State) : State :=
  if s.csp.clk = some s.tick then s
  else
    let s := s.setCsp { s.csp with clk := some s.tick, goPrev := s.csp.goNow, goNow := false, ack := false }
    s.followGo.takeFlips

/-! ## Words (R251) -/

def cspOutWord (x : Out) : Nat := x.input + 512 * x.st + 4096 * (x.gen % 16)

/-- Device words 0x000 to 0x005 as the executor forms them. -/
def State.cspDev (s : State) : List Nat :=
  let f := fun (x : Field) => s.get Adr.PLAN_STAT x
  [f Fl.PLAN_STAT_GENERATION,
    f Fl.PLAN_STAT_ARMED + 2 * f Fl.PLAN_STAT_GO_OK + 4 * f Fl.PLAN_STAT_PENDING + 128 * s.tq + 256 * domIx s.sdom + 512 * s.role,
    f Fl.PLAN_STAT_ARMED_ID + 256 * s.plan.forceId,
    s.plan.lastMake % 65536, s.plan.lastMake / 65536, s.plan.lastFrac]

/-- The answer to the operation sampled at an edge (R250): an output word, 0 at and above the port count; a device word, 0 where none is
listed; 0 for IDLE and 0x3. -/
def State.cspAnswer (s : State) (op addr : Nat) : Nat :=
  if op = 1 then (if addr < numPorts s.variant then SMap.find 0 s.csp.outs addr else 0)
  else if op = 2 then s.csp.dev.getD addr 0 else 0

/-- A read of an output word whose check bits are bad asserts CSP_PAR, and the entry is republished (R313). -/
def State.cspParity (s : State) (op addr : Nat) : State :=
  if op = 1 ∧ s.checkBad 0xAB addr then (s.checkClear 0xAB addr).assertFault 0xAB { access := 0, addr := addr } false else s

/-- An edge at which an operation is sampled, and its answer. -/
def State.cspRead (s : State) (op addr : Nat) : State :=
  let s := s.cspEdge
  State.cspParity { s with readData := s.cspAnswer op addr } op addr

/-- READ_OUT. -/
def readOut (addr : Nat) (s : State) : State := if s.cspOn then s.cspRead 1 addr else s

def execReadOut (addr : Nat) (s : State) : Host.Outcome State Fault Refusal := .next (readOut addr s)

/-- READ_DEV, or, at an edge whose CSP_OP `op` says otherwise, what that asks for. -/
def readDev (op addr : Nat) (s : State) : State := if s.cspOn then s.cspRead op addr else s

def execReadDev (p : CspPins) (s : State) : Host.Outcome State Fault Refusal := .next (readDev p.op p.addr s)

/-! ## Publication (R252) -/

/-- The word of output `o` that the executor has published last, taken or not. -/
def Csp.shown (p : Csp) (o : Nat) : Nat :=
  match p.outsNext.find? fun e => e.1 == o with
  | some e => e.2.1
  | none => SMap.find 0 p.outs o

/-- CSP_PUBLICATION: every changed entry whose previous flip has been taken is written to the unused copy and flipped; PUBSEQ counts the
flips of the device words. -/
def cspPublication (s : State) : State :=
  if s.cspOn then
    let p := s.csp
    let new := (List.range (numPorts s.variant)).filter fun o =>
      !(p.outsNext.any fun e => e.1 == o) && cspOutWord (s.out o) != SMap.find 0 p.outs o
    let s := match new.head? with | some o => s.checkWrite 0xAB o | none => s
    let next := new.foldl (fun m o => SMap.insert m o (cspOutWord (s.out o), 0)) p.outsNext
    let dev := s.cspDev
    let devNext := if p.devNext.isSome then p.devNext
      else if p.dev.take 6 = dev then none else some (dev ++ [(p.dev.getD 6 0 + 1) % 65536], 0)
    s.setCsp { p with outsNext := next, devNext := devNext }
  else s

def execCspPublication (s : State) : Host.Outcome State Fault Refusal := .next (cspPublication s)

/-! ## Strikes (R253, R124) -/

/-- Ticks from the edge of a strike to t_s: 3.2 ns or 4.8 ns, whichever the crossing takes. -/
def crossing (pick : Nat) : Nat := 2 + pick % 2

/-- T_make of a strike that leaves the synchroniser at tick `t`. -/
def strikeMake (t ds : Nat) (paired : Bool) : Nat :=
  strobeAt (t + nsTicks 64 + nsTicks (ds + 176) + if paired then ackTicks else 0)

/-- An accepted strike: the armed plan's commit, which disarms it; in a pair it waits for the standby. -/
def State.strike (s : State) (id : Nat) (x : Slot) : State :=
  let r := s.draw
  let s := r.2
  let t := s.tick + crossing r.1
  let k := s.costOf x.words
  let paired := s.pairMode
  let s := s.setArmed none
  let s := s.acceptCommit id x.words 2 (strikeMake t k.ds paired) k 0xffff 0 (if paired then some (t + ackTicks) else none) none
  if paired then
    let m := s.timeAt (strikeMake t k.ds true)
    let seq := match s.plan.commits.getLast? with | some c => c.seq | none => 0
    s.sendTxn txCommit [id, planHash x.words, m.sec, m.ns, 0, 2] forStrike seq
  else s

/-- A strike tested against the island's copy of GO_OK as it stands at its edge (R253): accepted with CSP_ACK, though the hub has taken
GO_OK back meanwhile, or refused. A plan disarmed in that time is the one the strike makes (DESIGN CHOICE, log 105). -/
def State.testStrike (s : State) : State :=
  if s.csp.goOk = false then s.putFlag Adr.CSP_STAT Fl.CSP_STAT_GO_REFUSED true
  else
    let s := s.setCsp { s.csp with goOk := false, ack := true }
    let s := s.count Adr.CSP_STAT Fl.CSP_STAT_STRIKES 1
    match s.armed.orElse fun _ => s.csp.goPlan with
    | none => s
    | some id =>
      let s := s.slotParity id
      match s.slot? id with
      | some x => s.strike id x
      | none => s

/-- CSP_GO: an edge at which CSP_GO is sampled high. It is a strike where CSP_GO was low at the edge before. -/
def cspGo (s : State) : State :=
  if s.cspOn then
    let s := s.refreshGo.cspEdge
    if s.csp.goNow then s
    else
      let s := s.setCsp { s.csp with goNow := true }
      if s.csp.goPrev then s else s.testStrike
  else s

def execCspGo (s : State) : Host.Outcome State Fault Refusal := .next (cspGo s)

/-- A paired strike no acknowledgement came for is abandoned before its break: nothing changes but the ledger, and the
standby is told. -/
def State.abandon (s : State) (c : Commit) : State :=
  let tx := s.pair.sent.find? fun t => t.who == forStrike && t.q == c.seq
  let s := s.setPair { s.pair with sent := s.pair.sent.filter fun t => !(t.who == forStrike && t.q == c.seq) }
  let s := match tx with
    | some t => (s.count Adr.PAIR_TXN Fl.PAIR_TXN_NO_ACK 1).sendVoid t.tseq
    | none => s
  (s.voidCommit c.seq 1).postOwners 0x0011 (le 1 c.id)

/-- GO_ABANDONED: 3 µs after t_s without the standby's acknowledgement. -/
def goAbandoned (s : State) : State :=
  match s.plan.commits.find? fun c => c.phase == 0 && (match c.ackBy with | some t => decide (t ≤ s.tick) | none => false) with
  | some c => s.abandon c
  | none => s

def execGoAbandoned (s : State) : Host.Outcome State Fault Refusal := .next (goAbandoned s)

end Sys2Proof.Machine
end

