-- ==== Sys2Proof/Machine/PairRole.lean ====
section
/-! DEFINITION. Roles and wired signals of a pair, and the takeover decision (spec/15_redundant_pair.md R279, R282 to R285,
R301, R304). -/

namespace Sys2Proof.Machine

/-- The pair unit is present and powered. -/
def State.pairOn (s : State) : Bool := s.has .pairU && s.powered 28

def State.aliveOk (s : State) : Bool := s.flag Adr.PAIR_WIRE Fl.PAIR_WIRE_ALIVE_OK
def State.ownIn (s : State) : Bool := s.flag Adr.PAIR_WIRE Fl.PAIR_WIRE_OWN_IN
def State.ownOut (s : State) : Bool := s.flag Adr.PAIR_WIRE Fl.PAIR_WIRE_OWN_OUT

/-- OWN_OUT and SEL_OUT asserted together (R284). -/
def State.assertOwn (s : State) : State :=
  let s := (s.putFlag Adr.PAIR_WIRE Fl.PAIR_WIRE_OWN_OUT true).putFlag Adr.PAIR_WIRE Fl.PAIR_WIRE_SEL_OUT true
  s.setPair { s.pair with ownTick := s.tick }

/-- A TAKEOVER entry (R274): new role, cause, gap in ns. -/
def State.logTakeover (s : State) (role cause gap : Nat) : State :=
  s.logInvol (some 1) 0x0051 (layout 52 [(0, le 1 role), (1, le 1 cause), (4, le 4 gap), (8, s.partnerDigest)])

/-- ROLE becomes `n`; a rejoin with the partner is due anew. -/
def State.setRole (s : State) (n : Nat) : State :=
  let s := s.put Adr.PAIR_STAT Fl.PAIR_STAT_ROLE n
  (s.setPair { s.pair with rejoined := false, waitTick := none }).refreshGo

/-- The module asserts its signals and is active. -/
def State.becomeActive (s : State) (cause gap : Nat) : State :=
  ((s.assertOwn.setRole 1).put Adr.PAIR_STAT Fl.PAIR_STAT_HEALTH 0).logTakeover 1 cause gap

/-- The module is standby, without a verdict; a latched FATAL reaction keeps verdict FAIL (R311). -/
def State.becomeStandby (s : State) (cause : Nat) : State :=
  let s := (s.releaseOwn.setRole 2).put Adr.PAIR_STAT Fl.PAIR_STAT_HEALTH (if s.fatal then 2 else 0)
  (s.setPair { s.pair with downTick := if s.linkUp then s.pair.downTick else s.tick }).logTakeover 2 cause 0

/-! ## The takeover decision (R301) -/

/-- PASS at the last verdict, and not STALE unless STALE_OK. -/
def State.mayTakeOver (s : State) : Bool :=
  s.get Adr.PAIR_STAT Fl.PAIR_STAT_HEALTH == 1 && (!s.pair.stale || s.flag Adr.PAIR_CFG Fl.PAIR_CFG_STALE_OK) && !s.fatal

/-- A fault source of the pair whose condition is `on`: it asserts as the condition begins. -/
def State.pairFault (s : State) (n : Nat) (on : Bool) : State :=
  if on then (if s.flag (Adr.FLT_SRC n) Fl.FLT_SRC_ACTIVE then s else s.assertFault n {} true) else s.faultGone n

/-- The rows of R301 that hold on the standby, but for the takeover itself. -/
def State.judgeTakeover (s : State) : State :=
  if s.role ≠ 2 ∨ s.pairOn = false then s
  else
    let silent := !s.aliveOk
    let owning := silent && s.ownIn
    let s := s.putFlag Adr.PAIR_STAT Fl.PAIR_STAT_SILENT_OWNING owning
    let s := if owning && !s.pair.silentPosted then s.postOwners 0x0041 [] else s
    let s := s.setPair { s.pair with silentPosted := owning }
    let lost := !silent && !s.ownIn
    let s := if lost then s.putFlag Adr.PAIR_STAT Fl.PAIR_STAT_OWN_LOST true else s
    (s.pairFault 0xE1 lost).pairFault 0xE2 (silent && !s.ownIn && !s.mayTakeOver)

/-- The pin logic runs, and PAIR is present. -/
def State.pairPins (s : State) : Bool := s.has .pairU && !s.boot.porLow && !s.boot.dead

def aliveInEdge (s : State) : State :=
  if s.pairPins then
    let s := s.setPair { s.pair with lastEdge := some s.tick, aliveIn := !s.pair.aliveIn }
    if s.pairOn then
      let s := s.putFlag Adr.PAIR_WIRE Fl.PAIR_WIRE_ALIVE_IN s.pair.aliveIn
      (s.putFlag Adr.PAIR_WIRE Fl.PAIR_WIRE_ALIVE_OK true).judgeTakeover
    else s
  else s

def execAliveInEdge (s : State) : Host.Outcome State Fault Refusal := .next (aliveInEdge s)

/-- No edge of ALIVE_IN for 20 µs. -/
def State.edgeRecent (s : State) : Bool :=
  match s.pair.lastEdge with
  | some t => decide (s.tick < t + usTicks 20)
  | none => false

def aliveInSilent (s : State) : State :=
  if s.pairOn && !s.edgeRecent then (s.putFlag Adr.PAIR_WIRE Fl.PAIR_WIRE_ALIVE_OK false).judgeTakeover else s

def execAliveInSilent (s : State) : Host.Outcome State Fault Refusal := .next (aliveInSilent s)

/-- OWN_IN changes: judged by a standby; a B module that waits at its start becomes standby as it asserts (R285). -/
def ownInChange (level : Bool) (s : State) : State :=
  if s.pairPins then
    let s := s.setPair { s.pair with ownIn := level, ownInTick := s.tick }
    if s.pairOn then
      let s := s.putFlag Adr.PAIR_WIRE Fl.PAIR_WIRE_OWN_IN level
      let s := if level && s.pair.waitTick.isSome then s.becomeStandby 0 else s
      s.judgeTakeover
    else s
  else s

def execOwnInChange (level : Bool) (s : State) : Host.Outcome State Fault Refusal := .next (ownInChange level s)

/-! ## Election (R285) -/

/-- The role taken at READY by a module that holds a pair key. A module whose FATAL reaction is latched is held standby
with verdict FAIL (R311). -/
def State.elect (s : State) : State :=
  if s.pairOn = false ∨ s.flash.pairKey.isNone ∨ s.pair.conflict then s
  else if s.fatal then s.becomeStandby 0
  else if s.ownIn then (s.becomeStandby 0).judgeTakeover
  else if s.boot.posB = false then s.becomeActive 2 0
  else if s.aliveOk = false then s.becomeActive 3 0
  else s.setPair { s.pair with waitTick := some s.tick }

/-- A B module that holds OWN_OUT has seen OWN_IN asserted for 2 µs. -/
def tieRelease (s : State) : State :=
  if s.pairOn && s.boot.posB && s.role == 1 && s.ownOut && s.ownIn && decide (s.pair.ownInTick + usTicks 2 ≤ s.tick) then
    s.becomeStandby 4
  else s

def execTieRelease (s : State) : Host.Outcome State Fault Refusal := .next (tieRelease s)

/-- An A module still sees OWN_IN asserted 10 µs after it asserted its own. -/
def posConflict (s : State) : State :=
  let at10 := s.pair.ownTick + usTicks 10
  if s.pairOn && !s.boot.posB && s.role == 1 && s.ownOut && s.ownIn
      && decide (at10 ≤ s.tick) && decide (s.pair.ownInTick ≤ at10) then
    let s := (s.releaseOwn.setRole 0).putFlag Adr.PAIR_STAT Fl.PAIR_STAT_POS_CONFLICT true
    ((s.setPair { s.pair with conflict := true }).logTakeover 0 5 0).assertFault 0xE0 {} true
  else s

def execPosConflict (s : State) : Host.Outcome State Fault Refusal := .next (posConflict s)

/-- A B module that has waited 10 s without OWN_IN; a latched FATAL reaction keeps it from asserting (R311). -/
def startAlone (s : State) : State :=
  match s.pair.waitTick with
  | some t => if s.pairOn && !s.ownIn && !s.fatal && decide (t + msTicks 10000 ≤ s.tick) then s.becomeActive 3 0 else s
  | none => s

def execStartAlone (s : State) : Host.Outcome State Fault Refusal := .next (startAlone s)

/-! ## SEAM (R304) -/

/-- The SEAM record of a shadow queue. -/
def State.seam (s : State) (x : Queue) : Rec :=
  let m := x.mark
  let bits := (match m with | some (found, _) => b2n found | none => 2) + 4 * b2n s.pair.stale
  let stamps := x.items.filter fun i => i.r.isStamp
  let last := match stamps.getLast? with | some i => i.r.word 2 | none => 0
  { w := [headWord 5 (domIx s.sdom) s.tq 0 bits, x.markQpos % 2 ^ 32, s.ns32, s.frac8 + 2 ^ 16,
      (match m with | some (_, n, _) => n | none => 0), min 0xffffffff x.items.length, last]
    port := 0, tick := s.tick }

/-- The SEAM record enters a shadow queue before the records it holds. -/
def State.seamQueue (s : State) (q : Nat) : State :=
  match s.queue? q with
  | none => s
  | some x =>
    if x.shadow = false then s
    else
      let pos := s.getPair (Adr.QW q) Fl.QW_QPOS_LO Fl.QW_QPOS_HI
      let first := match x.items.head? with | some i => i.qpos | none => pos
      let rest := x.items.map fun i => { i with qpos := i.qpos + 1 }
      let s := s.putPair (Adr.QW q) Fl.QW_QPOS_LO Fl.QW_QPOS_HI (pos + 1)
      let items := (⟨s.seam x, s.tick, 3, first⟩ : QItem) :: rest
      (s.setQueue q (({ x with items := items } : Queue).markDepth items.length)).regMark q items.length 0

end Sys2Proof.Machine
end

