-- ==== Sys2Proof/Machine/PairLink.lean ====
section
/-! DEFINITION. The Haldod link (spec/15_redundant_pair.md R286 to R293, R308): lanes, HELLO, frames
received, waggles, link up and down, the rejoin the active sends, PRBS, digest samples. -/

namespace Sys2Proof.Machine

/-! ## Lanes (R287, R289) -/

/-- Every lane holds block lock and marker lock, with a skew of at most 25 blocks. -/
def State.lanesLocked (s : State) : Bool :=
  (List.range 4).all fun n =>
    s.flag (Adr.HLD_LANE n) Fl.HLD_LANE_BLOCK_LOCK && s.flag (Adr.HLD_LANE n) Fl.HLD_LANE_AM_LOCK
      && decide (s.get (Adr.HLD_LANE n) Fl.HLD_LANE_SKEW ≤ 25)

/-- The lanes gain block and marker lock, with lags behind the earliest that the channel decides (a free value). -/
def State.lockLanes (s : State) : State :=
  if s.lanesLocked then s
  else
    let lag := fun k => Config.free (s.free + k) % 26
    let least := (List.range 4).foldl (fun m k => min m (lag k)) 25
    let s := { s with free := s.free + 4 }
    (List.range 4).foldl (fun s n =>
      let b := Adr.HLD_LANE n
      ((s.putFlag b Fl.HLD_LANE_BLOCK_LOCK true).putFlag b Fl.HLD_LANE_AM_LOCK true).put b Fl.HLD_LANE_SKEW (lag n - least)) s

/-- A PRBS generator is on. -/
def State.prbsOn (s : State) : Bool := (List.range 4).any fun n => s.get (Adr.HLD_LANE n) Fl.HLD_LANE_TX_PAT != 0

/-! ## Rejoin, as the active sends it (R308) -/

/-- RESYNC contents, by their first number: 0 the mirrored sessions that exist, 1 a session, 2 a VF grant, 3 a digest key,
4 a slot, 5 the armed plan, 6 the schedule list, 7 the plan in force with its GENERATION and T_make. -/
def State.resyncParts (s : State) (makeSec makeNs : Nat) : List (List Nat) :=
  let mirrored := s.host.sess.filter fun e => e.2.mirrored && s.sessState e.1 == 2
  let sess := mirrored.map fun e =>
    let b := Adr.SESS e.1
    [1, e.1, s.sessRole e.1, e.2.mask, e.2.grant, e.2.credSerial, s.sessCarrier e.1, s.get b Fl.SESS_VF, s.get b Fl.SESS_SLOT]
  let vfs := s.host.vfs.map fun e => [2, e.1, e.2.ceil, e.2.ports]
  let keys := s.flash.digestKeys.map fun e => [3, e.1, ofLE e.2]
  let slots := (List.range (numSlots s.variant)).map fun id =>
    match s.slot? id with
    | some x => [4, id, 0] ++ x.words
    | none => [4, id, 1]
  let armed := [[5, s.armed.getD 0xffff]]
  let list := match s.plan.sched with
    | some l => [[6, s.schedState, l.baseSec, l.baseNs, l.cycle, l.passNs, l.passFrac, l.pass, l.next, l.offset]
        ++ l.entries.flatMap fun e => [e.1, e.2]]
    | none => [[6]]
  let force := [[7, s.plan.forceId, s.get Adr.PLAN_STAT Fl.PLAN_STAT_GENERATION, makeSec, makeNs] ++ s.plan.inForce]
  [0 :: mirrored.map Prod.fst] ++ sess ++ vfs ++ keys ++ slots ++ armed ++ list ++ force

/-- The RESYNC sequence is sent, with a T_make 100 µs or more ahead, and the PAIR entry of kind REJOIN written. -/
def State.startRejoin (s : State) : State :=
  let r := s.draw
  let t := r.2.timeAt (strobeAt (r.2.tick + usTicks 100 + r.1 % usTicks 100000))
  let s := r.2.setPair { r.2.pair with rejoined := true }
  let s := (s.resyncParts t.sec t.ns).foldl (fun s d => s.sendTxn txResync d forNobody 0) s
  s.logPair 0xffff 0 4

/-- A standby begins to be resynchronised: verdict SYNCING, and a PAIR entry of kind REJOIN; a latched FATAL reaction keeps verdict FAIL
(R308, R311). -/
def State.beginSync (s : State) : State :=
  let s := s.setPair { s.pair with rejoined := true, syncing := true }
  (s.put Adr.PAIR_STAT Fl.PAIR_STAT_HEALTH (if s.fatal then 2 else 3)).logPair 0xffff 0 4

/-- A rejoin begins once the link is up between an active and a standby. -/
def State.tryRejoin (s : State) : State :=
  let partner := match s.pair.wagGot with | some w => rdLE w 0 1 | none => 0
  if s.linkUp = false ∨ s.pair.rejoined then s
  else if s.role = 1 ∧ partner = 2 then s.startRejoin
  else if s.role = 2 ∧ partner = 1 then s.beginSync
  else s

/-! ## Up and down (R287) -/

/-- The link is up once the lanes are locked, HELLO has succeeded and a valid WAGGLE has come. TSEQ begins anew: of what an earlier
link staged only what has not yet taken effect stays, under no TSEQ. -/
def State.tryUp (s : State) : State :=
  if s.linkUp || s.prbsOn || !s.lanesLocked || !s.pair.helloOk || s.pair.wagGot.isNone then s
  else
    let s := (s.putFlag Adr.PAIR_STAT Fl.PAIR_STAT_LINK_UP true).setTseq 0
    let p := s.pair
    let s := s.setPair { p with
      base := 1, staged := (p.staged.filter fun t => delayed t.ty).map fun t => { t with tseq := 0 }
      reportNum := 0, reqTick := none, reqHeld := none, badRun := 0, rejoined := false, sent := []
      stale := s.solo && decide (s.role = 2) }
    s.refreshGo.tryRejoin

/-- Incomplete transactions are discarded (R300). -/
def State.dropPartials (s : State) : State :=
  (s.count Adr.PAIR_TXN Fl.PAIR_TXN_DISCARDED s.pair.partials.length).setPair { s.pair with partials := [] }

/-- The link goes down, or what had come of its next rise is lost. DOWN_CAUSE records what took it down first. -/
def State.goDown (s : State) (cause : Nat) : State :=
  let was := s.linkUp
  let s := if was then s.put Adr.PAIR_STAT Fl.PAIR_STAT_DOWN_CAUSE cause else s
  let s := (s.putFlag Adr.PAIR_STAT Fl.PAIR_STAT_LINK_UP false).dropPartials
  let s := s.setPair { s.pair with
    helloOk := false, helloSent := false, linkKey := [], wagGot := none, badRun := 0, rejoined := false, syncing := false
    downTick := if was then s.tick else s.pair.downTick }
  if was then (s.postOwners 0x0040 []).refreshGo else s

/-- The tag of a HELLO: HMAC-SHA-384 of its nonce and identity digest under the pair key, truncated (R288). -/
def helloTag (key nonce id : List Byte) : List Byte := (hmac384 key (nonce ++ id)).take 16

/-- HELLO as the module sends it, in clear: a fresh nonce and its identity digest. -/
def State.sendHello (s : State) : State :=
  match s.flash.pairKey with
  | none => s
  | some key =>
    if s.pair.helloSent ∨ s.gwqRuns = false then s
    else
      let nonce := tableBytes 32 (Config.nonceByte s.free)
      let s := { s with free := s.free + 1 }
      let s := s.setPair { s.pair with helloSent := true, nonceMine := nonce, fseqTx := 0 }
      s.sendCtlBytes 1 (nonce ++ s.idDigest) (some (helloTag key nonce s.idDigest))

/-- LINK_UP: the lanes are locked; the link comes up with that, or with the HELLO or WAGGLE still to come. -/
def linkUp (s : State) : State :=
  if s.pairOn && !s.prbsOn then (s.lockLanes.sendHello).tryUp else s

def execLinkUp (s : State) : Host.Outcome State Fault Refusal := .next (linkUp s)

/-- What lane `n` loses to `bad` invalid sync headers within 64, or to lost markers, and that it loses anything (R167, R286). -/
def State.laneLoss (s : State) (n bad : Nat) (amLost : Bool) : Bool × State :=
  let b := Adr.HLD_LANE n
  let held := s.flag b Fl.HLD_LANE_BLOCK_LOCK
  let s := if held then s.count b Fl.HLD_LANE_BLK_ERR bad else s
  let lost := held && decide (16 ≤ bad)
  let s := if lost then s.putFlag b Fl.HLD_LANE_BLOCK_LOCK false else s
  let s := if lost || amLost then s.putFlag b Fl.HLD_LANE_AM_LOCK false else s
  (lost || amLost, s)

/-- LINK_DOWN with what is seen: 1 LANE, 2 DESKEW, 3 HEARTBEAT, 4 AUTH, 5 PRBS. Fewer invalid sync headers than lose the lock are
counted; a skew within 25 blocks is shown. -/
def linkDown (d : LinkDownIn) (s : State) : State :=
  if s.pairOn && decide (1 ≤ d.cause ∧ d.cause ≤ 5 ∧ d.lane < 4) && (s.linkUp || s.lanesLocked) then
    if d.cause = 1 then
      let r := s.laneLoss d.lane d.blkErr d.amLost
      if r.1 then r.2.goDown 1 else r.2
    else if d.cause = 2 then
      let s := s.put (Adr.HLD_LANE d.lane) Fl.HLD_LANE_SKEW (min 255 d.skew)
      if 25 < d.skew then s.goDown 2 else s
    else s.goDown d.cause
  else s

def execLinkDown (d : LinkDownIn) (s : State) : Host.Outcome State Fault Refusal := .next (linkDown d s)

/-- No valid WAGGLE for 8 µs. -/
def waggleTimeout (s : State) : State :=
  if s.pairOn && s.linkUp && decide (s.pair.lastWaggle + usTicks 8 ≤ s.tick) then s.goDown 3 else s

def execWaggleTimeout (s : State) : Host.Outcome State Fault Refusal := .next (waggleTimeout s)

/-- HELLO from the partner (R288): a wrong tag or a foreign identity leaves the link down; else the link key is formed. -/
def haldodHello (nonce tag id : List Byte) (s : State) : State :=
  match s.flash.pairKey with
  | none => s
  | some k =>
    if s.pairOn = false ∨ s.linkUp ∨ s.prbsOn ∨ s.gwqRuns = false then s
    else if tag ≠ helloTag k nonce id then
      (s.count (Adr.HLD_LANE 0) Fl.HLD_LANE_AUTH_ERR 1).put Adr.PAIR_STAT Fl.PAIR_STAT_DOWN_CAUSE 4
    else if id ≠ s.flash.partner then s.put Adr.PAIR_STAT Fl.PAIR_STAT_DOWN_CAUSE 4
    else
      let s := s.lockLanes.sendHello
      let mine := s.pair.nonceMine
      let salt := if s.boot.posB then nonce ++ mine else mine ++ nonce
      let s := s.setPair { s.pair with helloOk := true, linkKey := hkdf32 k salt (ascii "KT-HLD"), fseqRx := 0 }
      s.tryUp

def execHaldodHello (nonce tag id : List Byte) (s : State) : Host.Outcome State Fault Refusal :=
  .next (haldodHello nonce tag id s)

/-! ## Frames received (R288) -/

/-- A frame discarded for its tag or FSEQ; 8 failed tags in a row take the link down. -/
def State.badFrame (s : State) (tagOk : Bool) : State :=
  let s := s.count (Adr.HLD_LANE 0) Fl.HLD_LANE_AUTH_ERR 1
  let n := if tagOk then 0 else s.pair.badRun + 1
  let s := s.setPair { s.pair with badRun := n }
  if 8 ≤ n ∧ s.linkUp then s.goDown 4 else s

/-- Frames are received: the unit is on, Gwynique runs and a HELLO stands. -/
def State.hears (s : State) : Bool := s.pairOn && s.gwqRuns && s.pair.helloOk

/-- A frame whose tag holds. -/
def State.tagOk (s : State) (kind : Nat) (f : FrameIn) (body : List Byte) : Bool := f.tag == s.partnerTag kind f.fseq body

/-- A frame accepted for its FSEQ. -/
def State.tookFrame (s : State) (f : FrameIn) : State := s.setPair { s.pair with fseqRx := f.fseq + 1, badRun := 0 }

/-- What a received frame of a kind does, once its tag and FSEQ hold. -/
def State.frameIn (s : State) (kind : Nat) (f : FrameIn) (body : List Byte) (act : State → State) : State :=
  if s.hears = false then s
  else if s.tagOk kind f body = false ∨ f.fseq < s.pair.fseqRx then s.badFrame (s.tagOk kind f body)
  else act (s.tookFrame f)

/-- What several frames do together once all have come. -/
def framesIn (kind : Nat) (act : State → State) : List (FrameIn × List Byte) → State → State
  | [], s => act s
  | (f, b) :: rest, s => s.frameIn kind f b (framesIn kind act rest)

/-! ## Waggles (R292) -/

/-- The body this module sends. -/
def State.waggleBody (s : State) : List Byte :=
  layout 32 [(0, le 1 s.role), (1, le 1 (b2i s.ownOut + 2 * b2i s.solo + 4 * b2i s.pair.syncing)),
    (2, le 1 (s.get Adr.PAIR_STAT Fl.PAIR_STAT_HEALTH)), (4, le 4 s.ns32), (8, le 8 s.tick), (16, le 8 s.tseq),
    (24, le 2 (s.get Adr.PLAN_STAT Fl.PLAN_STAT_GENERATION))]

/-- The active announces SOLO, or its end (R308, R301). -/
def State.heardSolo (s : State) (solo : Bool) : State :=
  if s.role ≠ 2 ∨ s.solo = solo then s
  else
    let s := (s.putFlag Adr.PAIR_STAT Fl.PAIR_STAT_SOLO solo).logPair 0xffff 0 (if solo then 2 else 3)
    s.setPair { s.pair with stale := solo, rejoined := s.pair.rejoined && solo }

/-- A WAGGLE received. -/
def waggle (w : WaggleIn) (s : State) : State :=
  s.frameIn 1 w.frame w.body fun s =>
    let s := s.setPair { s.pair with lastWaggle := s.tick, wagGot := some w.body }
    let s := s.put Adr.PAIR_STAT Fl.PAIR_STAT_P_HEALTH (rdLE w.body 2 1 % 4)
    ((s.tryUp.heardSolo ((rdLE w.body 1 1).testBit 1)).tryRejoin).judgeTakeover

def execWaggle (w : WaggleIn) (s : State) : Host.Outcome State Fault Refusal := .next (waggle w s)

/-- STALE: the link has been down for more than 1 ms. -/
def stale (s : State) : State :=
  if s.pairOn && s.role == 2 && !s.linkUp && decide (s.pair.downTick + msTicks 1 < s.tick) then
    (s.setPair { s.pair with stale := true }).judgeTakeover
  else s

def execStale (s : State) : Host.Outcome State Fault Refusal := .next (stale s)

/-! ## PRBS (R289) -/

/-- A write of word +0x04 of lane `n`: a generator takes the link down; a new checker pattern has to lock. -/
def txPat (n : Nat) (v : Word) (s : State) : State :=
  if s.bridgeOn && s.pairOn && decide (n < 4) then
    let b := Adr.HLD_LANE n
    let old := s.get b Fl.HLD_LANE_RX_PAT
    let s := s.store (b + 4) v
    let s := if s.get b Fl.HLD_LANE_RX_PAT = old then s
      else (s.putFlag b Fl.HLD_LANE_RX_LOCK false).setPair { s.pair with prbs := SMap.erase s.pair.prbs n }
    if s.prbsOn && (s.linkUp || s.lanesLocked) then s.goDown 5 else s
  else s

def execTxPat (n : Nat) (v : Word) (s : State) : Host.Outcome State Fault Refusal := .next (txPat n v s)

/-- The two powers of a pattern's polynomial: 1 PRBS7, 2 PRBS15, 3 PRBS31. -/
def prbsPowers (pat : Nat) : Nat × Nat := if pat = 1 then (7, 6) else if pat = 2 then (15, 14) else (31, 28)

/-- The bit a pattern has after those that a register holds. -/
def prbsNext (pat reg : Nat) : Bool :=
  xor (reg.testBit ((prbsPowers pat).1 - 1)) (reg.testBit ((prbsPowers pat).2 - 1))

/-- The register with one more bit. -/
def prbsShift (pat reg : Nat) (b : Bool) : Nat := (2 * reg + b2i b) % 2 ^ (prbsPowers pat).1

/-- One received bit at a checker: unlocked, it looks for 64 error-free bits in a row, which an all-zero register does not give
(DESIGN CHOICE, log 107); locked, it runs by itself and a bit that differs is in error. Answers the checker, that it is locked, and the
bits in error. -/
def checkBit (pat : Nat) (x : Prbs × Bool × Nat) (b : Bool) : Prbs × Bool × Nat :=
  let c := x.1
  let want := prbsNext pat c.reg
  if x.2.1 then ({ c with reg := prbsShift pat c.reg want }, true, x.2.2 + (if b = want then 0 else 1))
  else
    let len := (prbsPowers pat).1
    let run := if c.fill = len ∧ c.reg ≠ 0 ∧ b = want then c.run + 1 else 0
    (⟨prbsShift pat c.reg b, min len (c.fill + 1), run⟩, decide (64 ≤ run), x.2.2)

/-- CHECKER_LOCK: bits that a checker receives. It locks after 64 error-free bits; from then on it counts those in error. -/
def checkerLock (c : CheckIn) (s : State) : State :=
  let b := Adr.HLD_LANE c.lane
  let pat := s.get b Fl.HLD_LANE_RX_PAT
  if s.pairOn && decide (c.lane < 4) && pat != 0 then
    let r := c.bits.foldl (checkBit pat) (SMap.find {} s.pair.prbs c.lane, s.flag b Fl.HLD_LANE_RX_LOCK, 0)
    let s := (s.putFlag b Fl.HLD_LANE_RX_LOCK r.2.1).count b Fl.HLD_LANE_PRBS_ERR r.2.2
    s.setPair { s.pair with prbs := SMap.insert s.pair.prbs c.lane r.1 }
  else s

def execCheckerLock (c : CheckIn) (s : State) : Host.Outcome State Fault Refusal := .next (checkerLock c s)

/-! ## Digest samples (R293) -/

/-- The 18 bytes of a digest sample. -/
def sampleBytes (x : Sample) : List Byte := le 2 x.port ++ le 2 x.len ++ le 4 x.ns32 ++ le 1 x.frac8 ++ [0] ++ le 8 x.digest

/-- DIGEST_SEND: up to 64 waiting samples. -/
def digestSend (s : State) : State :=
  if s.pairOn && s.linkUp && s.gwqRuns && s.role == 1 && !s.pair.samples.isEmpty then
    let xs := s.pair.samples
    let s := s.sendFrame 3 ((xs.take 64).flatMap sampleBytes) none
    s.setPair { s.pair with samples := xs.drop 64 }
  else s

def execDigestSend (s : State) : Host.Outcome State Fault Refusal := .next (digestSend s)

/-- MATCH_WIN in ns. -/
def State.matchWin (s : State) : Nat := max 1 (s.get Adr.PAIR_CFG Fl.PAIR_CFG_MATCH_WIN)

/-- Two NS32 within MATCH_WIN of each other, by serial difference. -/
def State.near (s : State) (a b : Nat) : Bool := decide ((signed 32 ((a + 2 ^ 32 - b) % 2 ^ 32)).natAbs ≤ s.matchWin)

def State.sampleMatches (s : State) (a b : Sample) : Bool :=
  a.port == b.port && a.len == b.len && a.digest == b.digest && s.near a.ns32 b.ns32

/-- The standby holds a record that matches: it keeps its digests for 1 ms. -/
def State.sampleHeld (s : State) (x : Sample) : Bool :=
  s.pair.myDigests.any fun d => decide (s.tick < d.1 + msTicks 1) && s.sampleMatches d.2 x

/-- DIGEST received: each sample is matched, or waits 1 ms for a record that matches it. -/
def digestIn (d : DigestIn) (s : State) : State :=
  s.frameIn 3 d.frame (d.samples.flatMap sampleBytes) fun s =>
    if s.linkUp && s.role == 2 then
      let xs := d.samples.take 64
      let late := xs.filter fun x => !s.sampleHeld x
      s.setPair { s.pair with
        sampRx := s.pair.sampRx + xs.length, sampMatch := s.pair.sampMatch + (xs.length - late.length)
        waitSamples := s.pair.waitSamples ++ late.map fun x => (s.tick, x) }
    else s

def execDigestIn (d : DigestIn) (s : State) : Host.Outcome State Fault Refusal := .next (digestIn d s)

/-- A record that matches was held at some instant while a sample waited. -/
def State.sampleMet (s : State) (x : Nat × Sample) : Bool :=
  s.pair.myDigests.any fun d => decide (d.1 ≤ x.1 + msTicks 1) && decide (x.1 < d.1 + msTicks 1) && s.sampleMatches d.2 x.2

/-- DIGEST_MISS: samples that have waited 1 ms. -/
def digestMiss (s : State) : State :=
  if s.pairOn && s.role == 2 then
    let due := s.pair.waitSamples.filter fun x => decide (x.1 + msTicks 1 ≤ s.tick)
    let missed := due.filter fun x => !s.sampleMet x
    s.setPair { s.pair with
      waitSamples := s.pair.waitSamples.filter fun x => decide (s.tick < x.1 + msTicks 1)
      sampMatch := s.pair.sampMatch + (due.length - missed.length), misses := s.pair.misses + missed.length }
  else s

def execDigestMiss (s : State) : Host.Outcome State Fault Refusal := .next (digestMiss s)

/-! ## Streams of the active (R297, R303) -/

/-- The marks of the mirrored queues (R303). -/
def State.positionsNow (s : State) : List Position :=
  (s.host.sess.filter fun e => e.2.mirrored).filterMap fun e => (s.queue? e.1).map fun x => ⟨e.1, x.lastQpos, x.lastSent⟩

/-- Marks as POSITIONS carries them. -/
def positionWords (ps : List Position) : List Nat :=
  ps.flatMap fun p => [p.q, p.qpos] ++ (match p.mark with | some m => [1, m.port, m.len, m.ns32, m.digest] | none => [0])

/-- What TIME carries: both domains' state, SRC and OFFSET. -/
def State.timeWords (s : State) : List Nat :=
  let one := fun (d : Dom) => [s.tqOf d, s.srcOf d, s.get (tdAdr d) Fl.TD_OFFSET]
  one .A ++ one .B

/-- What LEDGER_HEAD carries: SEQ and hash of the last entry, SEQ of the latest checkpoint. -/
def State.headWords (s : State) : List Nat :=
  (match s.led.last with | some e => [e.seq, ofLE (sha384 e.bytes)] | none => [0, 0])
    ++ [s.getPair Adr.LEDGER_STAT Fl.LEDGER_STAT_CP_LO Fl.LEDGER_STAT_CP_HI]

/-- PERIODIC_MIRROR_SEND: POSITIONS, TIME, LEDGER_HEAD. -/
def periodicMirrorSend (s : State) : State :=
  if s.pairOn && s.linkUp && s.gwqRuns && s.role == 1 then
    ((s.sendStream 0x10 (positionWords s.positionsNow)).sendStream 0x11 s.timeWords).sendStream 0x12 s.headWords
  else s

def execPeriodicMirrorSend (s : State) : Host.Outcome State Fault Refusal := .next (periodicMirrorSend s)

end Sys2Proof.Machine
end

