-- ==== Sys2Proof/Machine/PairTxn.lean ====
section
/-! DEFINITION. Mirrored transactions (spec/15_redundant_pair.md R295 to R305): how the standby judges, stages and applies
them, and what the active does with its answers; the takeover. -/

namespace Sys2Proof.Machine

/-! ## Shadows (R295, R296) -/

/-- The shadow of the active's session `q`. -/
def State.shadowOf (s : State) (q : Nat) : Option (Nat × Shadow) := s.pair.shadows.find? fun e => e.2.activeQ == q

/-- The number a new shadow of the active's session `q` takes: that same one where it is free here, else a free one. -/
def State.shadowId (s : State) (q : Nat) : Nat × State := if s.usedIds.contains q then s.freeId else (q, s)

/-- A shadow made under number `n`; its queue opens with the anchor pair. -/
def State.addShadow (s : State) (n : Nat) (h : Shadow) : State :=
  let s := s.setPair { s.pair with shadows := SMap.insert s.pair.shadows n h }
  (s.openQueue n (carrierChannel h.carrier) true).anchorOpen n

/-- The number here of the active's session `q`: its shadow's, or the one its staged open has taken (R296). -/
def State.numberOf (s : State) (q : Nat) : Nat :=
  match s.shadowOf q with
  | some e => e.1
  | none =>
    match s.pair.staged.find? fun t => t.ty == txSession && t.data.headD 0 == 0 && t.data.getD 1 0 == q with
    | some t => t.item
    | none => q

/-- A shadow and its queue go. -/
def State.dropShadow (s : State) (n : Nat) : State :=
  (s.closeQueue n).setPair { (s.closeQueue n).pair with shadows := SMap.erase s.pair.shadows n }

/-- The close entry of a shadow, from its reservation. -/
def State.logShadowClose (s : State) (n role cause : Nat) : State :=
  ((s.log 0x0011 n role (bodyOf [(0, 1, cause)])).dropShadow n).ledgerStat

/-- The shadow a SESSION or RESYNC transaction describes. -/
def shadowOfData (d : List Nat) : Shadow :=
  let f := fun i => d.getD i 0
  ⟨f 1, f 2, f 3, f 4, f 5, f 6, f 7, f 8⟩

/-! ## Judging (R298) -/

/-- A schedule list as a transaction carries it. -/
def listOfData (d : List Nat) : Sched :=
  let rec pairs : List Nat → List (Nat × Nat)
    | a :: b :: rest => (a, b) :: pairs rest
    | _ => []
  ⟨pairs (d.drop 3), d.getD 0 0, d.getD 1 0, d.getD 2 0, 0, 0, 0, 0, 0⟩

/-- T_make of a COMMIT transaction as the standby forms it. -/
def State.txnMake (s : State) (d : List Nat) (ds : Nat) : Nat :=
  if d.getD 4 0 = 1 then s.nowMake s.tick ds else strobeAt (s.tickFor (d.getD 2 0) (d.getD 3 0))

/-- A COMMIT the standby's own rules refuse (R122, R123); a strike needs no PLAN_LEAD (R124). -/
def State.commitRefused (s : State) (d : List Nat) (ds : Nat) : Bool :=
  let make := s.txnMake d ds
  let late := if d.getD 5 0 = 2 then decide (make < s.tick + nsTicks 256 + nsTicks (ds + 176)) else s.tooLate s.tick make ds
  (d.getD 4 0 != 1 && s.tooFar (d.getD 2 0) (d.getD 3 0)) || decide (16 ≤ s.plan.commits.length) || s.overlaps make ds || late

/-- The slot a transaction names holds its plan hash. -/
def State.holdsPlan (s : State) (id hash : Nat) : Bool :=
  match s.slot? id with
  | some x => planHash x.words == hash
  | none => false

def State.wordsOf (s : State) (id : Nat) : List Nat := ((s.slot? id).map (·.words)).getD []

/-- Room for a transaction's own ledger entries. -/
def State.txnRoom (s : State) (ty : Nat) (d : List Nat) : Bool :=
  if ty = txCommit ∨ ty = txPark ∨ ty = txSchedLoad ∨ ty = txSchedStop ∨ ty = txKey then s.ledgerRoom 1
  else if ty = txSession then (match d.headD 0 with | 0 => s.ledgerRoom 2 | 1 => true | _ => s.ledgerRoom 1)
  else true

/-- The cause of a NAK, or 0: 2 SLOT, 3 REFUSED, 1 LEDGER. -/
def State.judgeTxn (s : State) (ty : Nat) (d : List Nat) : Nat :=
  let f := fun i => d.getD i 0
  let noSlot := (ty == txCommit && !s.holdsPlan (f 0) (f 1)) || (ty == txArm && f 0 != 0xffff && !s.holdsPlan (f 0) (f 1))
  let refused :=
    (ty == txCommit && s.commitRefused d (s.costOf (s.wordsOf (f 0))).ds)
      || (ty == txSchedLoad && badList s.variant (listOfData d).bytes)
      || (ty == txSession && f 0 == 0 && decide (4096 ≤ s.usedIds.length))
  firstStatus [(noSlot, 2), (refused, 3), (!s.txnRoom ty d, 1)]

/-! ## Staging (R298, R299) -/

/-- The entry of a SESSION transaction, under the number `n` the session has here. Its FLAGS say NO_CREDENTIAL for the open of a VF, which
needs none (R257); the transaction carries nothing else of them. -/
def State.logSessionTxn (s : State) (d : List Nat) (n : Nat) : State :=
  let f := fun i => d.getD i 0
  if f 0 = 0 then
    s.log 0x0010 n (f 2) (layout 52 [(0, le 1 (f 6)), (1, le 1 (f 7)), (2, le 1 (f 8)), (3, le 1 (if f 6 = 1 then 2 else 0)), (4, le 4 (f 3)),
      (8, le 2 (popCount (numPorts s.variant) (f 4))), (10, le 8 (f 5)), (18, (sha384 (le 64 (f 4))).take 24)])
  else if f 0 = 1 then s
  else if f 0 = 2 then s.log 0x0012 n 1 (grantBody s.variant 0 0 n (f 3) (f 4))
  else s.log 0x0012 n 1 (grantBody s.variant 1 (f 2) (f 7) 0 (f 4))

/-- A transaction staged: what arms it at once (a strike disarms the plan, R124), its ledger entry, the reference a VOID needs, and T_make of a commit. -/
def State.stage (s : State) (ty : Nat) (d : List Nat) : State × Nat × Option Nat :=
  let f := fun i => d.getD i 0
  if ty = txCommit then
    let ws := s.wordsOf (f 0)
    let k := s.costOf ws
    let make := s.txnMake d k.ds
    let s := if f 5 = 2 then s.setArmed none else s
    let s := s.acceptCommit (f 0) ws (f 5) make k 0xffff 0 none none
    (s, (match s.led.last with | some e => e.seq | none => 0), some make)
  else if ty = txArm then
    let before := match s.armed with | some n => n + 1 | none => 0
    ((s.setArmed (if f 0 = 0xffff then none else some (f 0))).refreshGo, before, none)
  else if ty = txPark then
    let at' := strobeAt (s.tick + s.planLead)
    (s.acceptPark ⟨f 0, f 1 == 1, f 2 == 1, at', 0xffff, 0⟩, at', none)
  else if ty = txSchedLoad then
    let l := listOfData d
    let x := s.startList l.entries l.baseSec l.baseNs l.cycle s.tick
    ((s.log 0x0030 0xffff 0 (schedBody l.entries.length x l.bytes)).takeList x, x.list.pass, none)
  else if ty = txSchedStop then ((s.logStop 0xffff 0).haltList, s.schedState, none)
  else if ty = txSession then
    let r := if f 0 = 0 then s.shadowId (f 1) else (s.numberOf (f 1), s)
    (r.2.logSessionTxn d r.1, r.1, none)
  else if ty = txKey then
    let seq := (s.get (Adr.SRX_STAT (f 0)) Fl.SRX_STAT_KEYSEQ + 1) % 256
    (s.log 0x0060 0xffff 0 (bodyOf [(0, 2, f 0), (2, 1, f 1), (3, 1, seq)]), 0, none)
  else (s, 0, none)

/-- The standby has diverged (R299): flag, entry, verdict. -/
def State.diverge (s : State) : State :=
  if s.flag Adr.PAIR_STAT Fl.PAIR_STAT_DIVERGED then s
  else
    let s := (s.putFlag Adr.PAIR_STAT Fl.PAIR_STAT_DIVERGED true).put Adr.PAIR_STAT Fl.PAIR_STAT_HEALTH 2
    (s.logPair 0xffff 0 5).judgeTakeover

/-- NAK of a transaction. -/
def State.sendNak (s : State) (tseq cause : Nat) : State :=
  let s := (s.count Adr.PAIR_TXN Fl.PAIR_TXN_NAK 1).sendCtl 3 tseq [cause]
  let s := if cause = 1 then s.setPair { s.pair with ledgerNak := true } else s
  if cause = 4 then s.diverge else s

/-- Domain time of tick `t` in whole ns, as ACK carries it. -/
def State.nsAt (s : State) (t : Nat) : Nat := (s.timeAt t).total

/-- A transaction judged at its END, and staged or refused. The first part of a RESYNC sequence sets the count of transactions anew. -/
def State.judgeEnd (s : State) (tseq ty : Nat) (d : List Nat) : State :=
  let begins := ty == txResync && d.headD 0 == 0
  if !begins && tseq != s.tseq + 1 then s.sendNak tseq 4
  else
    let c := s.judgeTxn ty d
    if c ≠ 0 then s.sendNak tseq c
    else
      let s := if begins then s.setPair { s.pair with base := tseq } else s
      let s := if begins && !s.pair.syncing then s.beginSync else s
      let ack := s.nsAt s.tick
      let r := s.stage ty d
      let make := match r.2.2 with | some t => r.1.nsAt t | none => 0
      let s := r.1.setTseq tseq
      let s := s.setPair { s.pair with
        staged := s.pair.staged ++ [(⟨tseq, ty, d, s.tick, r.2.1⟩ : StagedTxn)] }
      s.sendCtl 2 tseq [ack, make]

/-- A part joined to what has arrived of its transaction. -/
def State.joinPart (s : State) (m : Mirrored) : Partial :=
  if m.flags.testBit 0 && m.part == 0 then ⟨some 1, m.data⟩
  else
    match (s.pair.partials.find? fun e => e.1 == m.tseq).map Prod.snd with
    | some p => if p.next = some m.part then ⟨some (m.part + 1), p.bytes ++ m.data⟩ else ⟨none, p.bytes⟩
    | none => ⟨none, []⟩

/-- A part of a transaction, or of a stream: the stream is noted; the transaction is judged at its END where every part has come. -/
def State.takePart (s : State) (m : Mirrored) : State :=
  if s.linkUp = false ∨ s.role ≠ 2 then s
  else if 0x10 ≤ m.ty then
    if m.ty = 0x12 then s.setPair { s.pair with ledgerHead := (decodeNats m.data.length m.data).headD 0 } else s
  else
    let p := s.joinPart m
    if m.flags.testBit 1 ∧ p.next.isSome ∧ p.bytes.length = m.length then
      (s.setPair { s.pair with partials := SMap.erase s.pair.partials m.tseq }).judgeEnd m.tseq m.ty
        (decodeNats p.bytes.length p.bytes)
    else s.setPair { s.pair with partials := SMap.insert s.pair.partials m.tseq p }

/-- MIRROR: one part. -/
def mirror (m : Mirrored) (s : State) : State :=
  s.frameIn 2 m.frame (mirrorBody m.tseq m.ty m.flags m.part m.length m.data) fun s => s.takePart m

def execMirror (m : Mirrored) (s : State) : Host.Outcome State Fault Refusal := .next (mirror m s)

/-! ## Taking effect (R299, R308) -/

/-- SESSION takes effect; a new shadow under the number `n` that its staging took. -/
def State.applySession (s : State) (d : List Nat) (n : Nat) : State :=
  let f := fun i => d.getD i 0
  match f 0, s.shadowOf (f 1) with
  | 0, _ => s.addShadow n (shadowOfData d)
  | 1, some e => s.logShadowClose e.1 e.2.role (f 9)
  | 2, some e => s.setPair { s.pair with shadows := SMap.insert s.pair.shadows e.1 { e.2 with mask := f 3, grant := f 4 } }
  | 3, _ =>
    let s := s.setVf (f 7) (f 2) (f 4)
    let gone := s.pair.shadows.filter fun e => e.2.carrier == 1 && e.2.vf == f 7 && e.2.role != f 2
    let s := gone.foldl (fun s e => s.logShadowClose e.1 e.2.role 6) s
    s.setPair { s.pair with shadows := s.pair.shadows.map fun e =>
      (if e.2.carrier = 1 ∧ e.2.vf = f 7 then (e.1, { e.2 with grant := e.2.grant &&& f 4 }) else e) }
  | _, _ => s

/-- SLOT content: the words of a COMPILED slot, or EMPTY. -/
def State.applySlot (s : State) (d : List Nat) : State :=
  if d.getD 1 0 = 1 then s.freeSlot (d.headD 0) else s.setSlot (d.headD 0) ⟨d.drop 2, none⟩

/-- The active's schedule list as it stands. -/
def State.applyList (s : State) (d : List Nat) : State :=
  let f := fun i => d.getD i 0
  if d.isEmpty then (s.setPlan { s.plan with sched := none, oldSched := none }).put Adr.SCHED_STAT Fl.SCHED_STAT_STATE 0
  else
    let l : Sched := { (listOfData (f 1 :: f 2 :: f 3 :: d.drop 9)) with
      baseSec := f 1, baseNs := f 2, cycle := f 3, passNs := f 4, passFrac := f 5, pass := f 6, next := f 7, offset := f 8 }
    ((s.setPlan { s.plan with sched := some l, oldSched := none }).put Adr.SCHED_STAT Fl.SCHED_STAT_STATE (f 0)).refreshGo

/-- The plan in force of the active committed at its T_make, with its GENERATION; the resynchronisation ends at that make. Where the active
has none, GENERATION alone, and it ends at once. -/
def State.applyForce (s : State) (d : List Nat) : State :=
  let f := fun i => d.getD i 0
  let ws := d.drop 4
  if ws.isEmpty then s.endSync.put Adr.PLAN_STAT Fl.PLAN_STAT_GENERATION (f 1)
  else if s.ledgerRoom 1 = false then s.ledgerRefused
  else
    let k := s.costOf ws
    let last := match s.plan.commits.getLast? with | some c => c.tMake + nsTicks (k.ds + 176) + 5 | none => 0
    let make := max (strobeAt (s.tickFor (f 2) (f 3))) (max (s.nowMake s.tick k.ds) (strobeAt last))
    s.acceptCommit (f 0) ws 0 make k 0xffff 0 none (some (f 1))

/-- RESYNC takes effect. -/
def State.applyResync (s : State) (d : List Nat) : State :=
  let rest := d.tail
  match d.headD 0 with
  | 0 => (s.pair.shadows.filter fun e => !rest.contains e.2.activeQ).foldl (fun s e => s.dropShadow e.1) s
  | 1 =>
    match s.shadowOf (d.getD 1 0) with
    | some e => s.setPair { s.pair with shadows := SMap.insert s.pair.shadows e.1 (shadowOfData d) }
    | none =>
      if s.usedIds.length < 4096 then
        let r := s.shadowId (d.getD 1 0)
        r.2.addShadow r.1 (shadowOfData d)
      else s
  | 2 => s.setVf (d.getD 1 0) (d.getD 2 0) (d.getD 3 0)
  | 3 => s.setKey (d.getD 1 0) (some (le 16 (d.getD 2 0)))
  | 4 => s.applySlot rest
  | 5 => (s.setArmed (if d.getD 1 0 = 0xffff then none else some (d.getD 1 0))).refreshGo
  | 6 => s.applyList rest
  | 7 => s.applyForce rest
  | _ => s

/-- A staged SESSION, KEY, SLOT or RESYNC takes effect. -/
def State.applyTxn (s : State) (t : StagedTxn) : State :=
  if t.ty = txSession then s.applySession t.data t.item
  else if t.ty = txKey then
    s.setKey (t.data.getD 0 0) (if t.data.getD 1 0 = 0 then some (le 16 (t.data.getD 2 0)) else none)
  else if t.ty = txSlot then s.applySlot t.data
  else if t.ty = txResync then s.applyResync t.data
  else s

/-- Staged transactions that satisfy `p` take effect in TSEQ order. -/
def State.applyStaged (s : State) (p : StagedTxn → Bool) : State :=
  let ready := s.pair.staged.filter fun t => delayed t.ty && p t
  ready.foldl (fun s t => (s.setPair { s.pair with staged := s.pair.staged.erase t }).applyTxn t) s

/-- STAGED_EFFECT: 10 µs after the ACK. -/
def stagedEffect (s : State) : State :=
  if s.pairOn && s.gwqRuns && s.role == 2 then s.applyStaged fun t => decide (t.tick + usTicks 10 ≤ s.tick) else s

def execStagedEffect (s : State) : Host.Outcome State Fault Refusal := .next (stagedEffect s)

/-! ## VOID on the standby (R299) -/

/-- What a staged transaction armed is taken back, where it has not taken effect. -/
def State.takeBack (s : State) (t : StagedTxn) : Option State :=
  let f := fun i => t.data.getD i 0
  if delayed t.ty then some s
  else if t.ty = txCommit then
    if s.plan.commits.any fun c => c.seq == t.item && c.phase == 0 then some (s.voidCommit t.item 2) else none
  else if t.ty = txArm then
    if s.armed = (if f 0 = 0xffff then none else some (f 0)) then
      some ((s.setArmed (if t.item = 0 then none else some (t.item - 1))).refreshGo)
    else none
  else if t.ty = txPark then
    match s.plan.parks.find? fun p => p.output == f 0 && p.tick == t.item && p.q == 0xffff with
    | some p => some (s.parkDone p false)
    | none => none
  else if t.ty = txSchedLoad then
    match s.plan.sched with
    | some l =>
      if l.next = 0 ∧ l.pass = t.item ∧ s.schedState = 1 then
        match s.plan.oldSched with
        | some (o, _) =>
          some (((s.setPlan { s.plan with sched := some o, oldSched := none }).put Adr.SCHED_STAT Fl.SCHED_STAT_STATE 2).refreshGo)
        | none => some ((s.setPlan { s.plan with sched := none }).haltList)
      else none
    | none => none
  else if t.ty = txSchedStop then
    if s.schedState = 0 ∧ s.plan.sched.isSome ∧ (t.item = 1 ∨ t.item = 2) then
      some ((s.put Adr.SCHED_STAT Fl.SCHED_STAT_STATE t.item).refreshGo)
    else if t.item = 1 ∨ t.item = 2 then none else some s
  else some s

/-- The transaction a VOID names goes without trace, or, too late for that, the standby has diverged; one that was never staged
leaves nothing to undo. -/
def State.voidStaged (s : State) (tseq : Nat) : State :=
  let s := s.count Adr.PAIR_TXN Fl.PAIR_TXN_VOID 1
  if s.pair.partials.any fun e => e.1 == tseq then s.setPair { s.pair with partials := SMap.erase s.pair.partials tseq }
  else
    match s.pair.staged.find? fun t => t.tseq == tseq with
    | none => if s.pair.base ≤ tseq ∧ tseq ≤ s.tseq then s.diverge else s
    | some t =>
      let s := s.setPair { s.pair with staged := s.pair.staged.filter fun x => x.tseq != tseq }
      match s.takeBack t with
      | some s => s
      | none => s.diverge

/-- VOID on the standby. -/
def voidTxn (x : TseqIn) (s : State) : State :=
  s.frameIn 4 x.frame (ctlBody 4 x.tseq []) fun s => if s.linkUp && s.role == 2 then s.voidStaged x.tseq else s

def execVoidTxn (x : TseqIn) (s : State) : Host.Outcome State Fault Refusal := .next (voidTxn x s)

/-! ## Answers on the active (R298) -/

/-- The transaction an answer names, and the state without it. -/
def State.takeSent (s : State) (tseq : Nat) : Option (SentTxn × State) :=
  match s.pair.sent.find? fun t => t.tseq == tseq with
  | some t => some (t, s.setPair { s.pair with sent := s.pair.sent.filter fun x => x.tseq != tseq })
  | none => none

/-- The write-ahead command with an opcode. -/
def aheadOf (op : Nat) : Option Ahead :=
  if op = 0x0002 then some closeCmd else if op = 0x0005 then some grantCmd else if op = 0x0006 then some vfGrantCmd
  else if op = 0x0102 then some commitCmd else if op = 0x0103 then some armCmd else if op = 0x0104 then some parkCmd
  else if op = 0x0200 then some loadCmd else if op = 0x0201 then some stopCmd else if op = 0x0500 then some keyCmd
  else none

/-- The opcode of the command session `q` has taken, while it waits for an acknowledgement. -/
def State.ackingOp (s : State) (q : Nat) : Option Nat :=
  match (s.sess? q).bind (·.taken) with
  | some t => if t.phase = .acking then some t.op else none
  | none => none

/-- The open of a view, carried out after the ACK. -/
def State.openAcked (s : State) (view : Nat) (d : List Nat) (tseq : Nat) : State :=
  match (s.host.opens.find? fun e => e.1 == view).map Prod.snd with
  | none => (s.sendVoid tseq).dropOpening (d.getD 1 0)
  | some w =>
    let f := fun i => d.getD i 0
    let s := s.dropOpening (f 1)
    let j := s.judgeOpen view w
    let o : OpenReq := { j.2 with mask := f 3, grant := f 4 }
    if j.1 ≠ 0 then (s.sendVoid tseq).windowDone view j.1 []
    else (s.createSession (f 1) (f 8) o none).windowDone view 0 (openResult (f 1) (f 8) o)

/-- The open of a HELLO, carried out after the ACK. -/
def State.helloAcked (s : State) (d : List Nat) (tseq : Nat) : State :=
  match (s.host.hellos.find? fun e => e.1 == tseq).map Prod.snd with
  | none => (s.sendVoid tseq).dropOpening (d.getD 1 0)
  | some h =>
    let s := { s with host := { s.host with hellos := SMap.erase s.host.hellos tseq } }
    let s := s.dropOpening (d.getD 1 0)
    let j := s.judgeHello h
    if j.1 ≠ 0 then (s.sendVoid tseq).reject h j.1
    else s.acceptHello h (d.getD 1 0) { j.2 with mask := d.getD 3 0, grant := d.getD 4 0 }

/-- Who waits for a transaction learns that it was not acknowledged: PAIR_NO_ACK. -/
def State.notAcked (s : State) (t : SentTxn) : State :=
  if t.who = forSession then (if (s.ackingOp t.q).isSome then s.refuse t.q stNoAck else s)
  else if t.who = forOpen then (s.dropOpening (t.data.getD 1 0)).windowDone t.q stNoAck []
  else if t.who = forHello then
    let s := s.dropOpening (t.data.getD 1 0)
    match (s.host.hellos.find? fun e => e.1 == t.tseq).map Prod.snd with
    | some h => State.reject { s with host := { s.host with hellos := SMap.erase s.host.hellos t.tseq } } h stNoAck
    | none => s
  else if t.who = forStrike then
    match s.plan.commits.find? fun c => c.seq == t.q && c.phase == 0 with
    | some c => (s.voidCommit c.seq 1).postOwners 0x0011 (le 1 c.id)
    | none => s
  else s

/-- A transaction without an acknowledgement in time: counted and voided. -/
def State.ackMissed (s : State) (t : SentTxn) : State :=
  ((s.count Adr.PAIR_TXN Fl.PAIR_TXN_NO_ACK 1).sendVoid t.tseq).notAcked t

/-- What the active carries out on an ACK: t_ack and T_make are domain times in whole ns. -/
def State.acked (s : State) (t : SentTxn) (tAck tMake : Nat) : State :=
  let tickOf := fun (n : Nat) => s.tickFor (n / 1000000000) (n % 1000000000)
  let a : Ack := ⟨max s.tick (tickOf tAck), if tMake = 0 then none else some (strobeAt (tickOf tMake))⟩
  if t.who = forSession then
    match (s.ackingOp t.q).bind aheadOf with
    | some c => s.aheadAck t.q c a t.tseq
    | none => s.sendVoid t.tseq
  else if t.who = forOpen then s.openAcked t.q t.data t.tseq
  else if t.who = forHello then s.helloAcked t.data t.tseq
  else if t.who = forStrike then
    s.setPlan { s.plan with commits := s.plan.commits.map fun c => if c.seq = t.q then { c with ackBy := none } else c }
  else s

/-- ACK: within the timer of 3 µs the transaction is carried out; a late one is voided. -/
def ack (x : TseqIn) (tAck tMake : Nat) (s : State) : State :=
  s.frameIn 4 x.frame (ctlBody 2 x.tseq [tAck, tMake]) fun s =>
    if s.linkUp = false ∨ s.role ≠ 1 then s
    else
      match s.takeSent x.tseq with
      | none => s.sendVoid x.tseq
      | some (t, s) => if t.tick + ackTicks < s.tick then s.ackMissed t else s.acked t tAck tMake

def execAck (x : TseqIn) (tAck tMake : Nat) (s : State) : Host.Outcome State Fault Refusal := .next (ack x tAck tMake s)

/-- A NAK of a transaction sent: who waits learns it; a missing slot is sent again, a broken sequence is resynchronised. -/
def State.nakked (s : State) (t : SentTxn) (cause : Nat) : State :=
  let s := (s.count Adr.PAIR_TXN Fl.PAIR_TXN_NAK 1).notAcked t
  let id := t.data.headD 0
  if cause = 2 ∧ (t.ty = txCommit ∨ t.ty = txArm) then
    match s.slot? id with
    | some x => s.tellTxn txSlot ([id, 0] ++ x.words)
    | none => s.tellTxn txSlot [id, 1]
  else if cause = 4 then s.startRejoin
  else s

/-- NAK. -/
def nak (x : TseqIn) (cause : Nat) (s : State) : State :=
  s.frameIn 4 x.frame (ctlBody 3 x.tseq [cause]) fun s =>
    if s.linkUp = false ∨ s.role ≠ 1 then s
    else
      match s.takeSent x.tseq with
      | none => s
      | some (t, s) => s.nakked t cause

def execNak (x : TseqIn) (cause : Nat) (s : State) : Host.Outcome State Fault Refusal := .next (nak x cause s)

/-- PAIR_NO_ACK: every transaction whose 3 µs have passed; a strike is abandoned by GO_ABANDONED. -/
def pairNoAck (s : State) : State :=
  if s.pairOn = false ∨ s.gwqRuns = false then s
  else
    let due := fun (t : SentTxn) => t.who != forStrike && decide (t.tick + ackTicks < s.tick)
    let late := s.pair.sent.filter due
    let s := s.setPair { s.pair with sent := s.pair.sent.filter fun t => !due t }
    late.foldl (fun s t => s.ackMissed t) s

def execPairNoAck (s : State) : Host.Outcome State Fault Refusal := .next (pairNoAck s)

/-! ## Marks (R303) -/

/-- A shadow queue trimmed by a mark, and what is kept of the mark. -/
def State.trimTo (s : State) (q : Nat) (x : Queue) (qpos : Nat) (m : Sample) : Queue :=
  let hit := x.items.findIdx? fun i => i.r.isStamp && s.sampleMatches (sampleOf i.r) m
  let items := match hit with
    | some n => x.items.drop (n + 1)
    | none => x.items.filter fun i =>
        !(i.r.isStamp && decide ((s.matchWin : Int) < signed 32 ((m.ns32 + 2 ^ 32 - i.r.word 2) % 2 ^ 32)))
  { s.reHead q x items with mark := some (hit.isSome, m.ns32, qpos), markQpos := qpos }

/-- One mark applied to the shadow queue it names; a LOSS slot that it frees takes the LOSS record that is due (R193). -/
def State.takeMark (s : State) (p : Position) : State :=
  match s.shadowOf p.q with
  | none => s
  | some e => (s.onQueue e.1 fun x =>
      match p.mark with
      | some m => s.trimTo e.1 x p.qpos m
      | none => { x with markQpos := p.qpos }).lossFreed e.1

/-- POSITIONS: a mark per mirrored queue, once every frame of the stream has come. -/
def positions (p : PositionsIn) (s : State) : State :=
  let bodies := mirrorParts 0 0x10 true (encodeNats (positionWords p.marks))
  if p.frames.length = bodies.length then
    framesIn 2 (fun s => if s.linkUp && s.role == 2 then p.marks.foldl State.takeMark s else s) (p.frames.zip bodies) s
  else s

def execPositions (p : PositionsIn) (s : State) : Host.Outcome State Fault Refusal := .next (positions p s)

/-! ## Takeover (R301, R304, R305) -/

/-- SWARM: the partner is silent and does not own, and the standby may take over. -/
def swarm (s : State) : State :=
  if s.pairOn && s.role == 2 && !s.aliveOk && !s.ownIn && s.mayTakeOver then
    let s := s.dropPartials.applyStaged fun _ => true
    let gap := match s.pair.lastEdge with | some t => (s.tick - t) * 8 / 5 | none => 0xffffffff
    let s := s.becomeActive 1 gap
    let s := (s.pushCap 7 0).count Adr.PAIR_STAT Fl.PAIR_STAT_TAKEOVERS 1
    let s := (s.pair.shadows.map Prod.fst).foldl (fun s n => s.seamQueue n) s
    s.setPair { s.pair with resumeFrom := some s.tick, staged := [], syncing := false, silentPosted := false }
  else s

def execSwarm (s : State) : Host.Outcome State Fault Refusal := .next (swarm s)

/-- RESUME_WIN in ticks. -/
def State.resumeTicks (s : State) : Nat := msTicks (1000 * max 1 (s.get Adr.PAIR_CFG Fl.PAIR_CFG_RESUME_WIN))

/-- RESUME_WIN_EXPIRY: shadows still unbound are closed. -/
def resumeWinExpiry (s : State) : State :=
  match s.pair.resumeFrom with
  | some t =>
    if s.gwqRuns && decide (t + s.resumeTicks ≤ s.tick) then
      let s := s.pair.shadows.foldl (fun s e => s.logShadowClose e.1 e.2.role 2) s
      s.setPair { s.pair with resumeFrom := none }
    else s
  | none => s

def execResumeWinExpiry (s : State) : Host.Outcome State Fault Refusal := .next (resumeWinExpiry s)

end Sys2Proof.Machine
end

