-- ==== Sys2Proof/Machine/PairCmds.lean ====
section
/-! DEFINITION. The pair commands, enrolment and the health of the standby (spec/12_mailbox_commands.md R245,
spec/15_redundant_pair.md R294, R306 to R308). -/

namespace Sys2Proof.Machine

/-! ## Enrolment (R294) -/

/-- The 97-byte public key of a certificate: the BIT STRING that carries a P-384 point.
PRESUMED (X.509 and RFC 5480; log entry 81). -/
def certKey : List Byte → Option (List Byte)
  | [] => none
  | b :: bs =>
    if (b :: bs).take 4 = [0x03, 0x62, 0x00, 0x04] ∧ 100 ≤ bs.length then some ((bs.drop 2).take 97) else certKey bs

/-- The identity digest a certificate names. -/
def certId (c : List Byte) : Option (List Byte) := (certKey c).map fun k => (sha384 k).take 32

/-- ENROL_OFFER (R294): an ephemeral public key and its signature by the identity key; sealed where a link key stands. -/
def State.sendOffer (s : State) : State :=
  let key := tableBytes 97 (Config.nonceByte s.free)
  let r := State.sign { s with free := s.free + 1 }
  r.2.sendCtlBytes 7 (key ++ r.1) (if r.2.pair.linkKey.isEmpty then some (List.replicate 16 0) else none)

def pairEnrol (q : Nat) (s : State) : State :=
  s.actCmd q 0x0900 (fun _ t => { bad := decide (t.bufLen = 0), reads := true })
    (fun s t => firstStatus [(!s.lanesLocked, stLinkDown), (s.pair.enrol.isSome, stBusy),
      (!t.sigOk || (certId t.buf).isNone, 0x30)]) 1
    fun s t =>
      let s := s.setPhase q .waiting
      let s := s.setPair { s.pair with
        enrol := some (q, s.tick), enrolKey := (certKey t.buf).getD [], enrolId := (certId t.buf).getD [] }
      s.sendOffer

def execPairEnrol (q : Nat) (s : State) : Host.Outcome State Fault Refusal := .next (pairEnrol q s)

/-- The pair key that the exchange of offers agrees. -/
def State.newPairKey (s : State) : List Byte :=
  let other := s.pair.enrolId
  let salt := if s.boot.posB then other ++ s.idDigest else s.idDigest ++ other
  hkdf32 (tableBytes 48 (Config.ecdhByte s.free)) salt (ascii "KT-PAIR")

/-- The pair key sealed, with its entry. -/
def State.sealPairKey (s : State) (q role : Nat) : State :=
  let key := s.newPairKey
  let id := s.pair.enrolId
  let s := { s with free := s.free + 1 }
  let s := s.seal fun x => { x with pairKey := some key, partner := id }
  let s := s.putFlag Adr.SEC_STAT Fl.SEC_STAT_PAIR_KEY true
  (s.putFlag Adr.PAIR_STAT Fl.PAIR_STAT_KEY true).logPair q role 1

/-- ENROL_OFFER: its signature is verified under the certified key, while an enrolment waits. -/
def enrolOffer (key sig : List Byte) (variantOk : Bool) (s : State) : State :=
  match s.pair.enrol with
  | none => s
  | some (q, t) =>
    if s.pairOn = false ∨ s.gwqRuns = false ∨ key.length ≠ 97 ∨ t + msTicks 10000 ≤ s.tick then s
    else
      let ok := ecdsaVerify s.pair.enrolKey key sig
      let s := s.setPair { s.pair with enrol := none }
      if ok = false ∨ variantOk = false then s.complete q 0x30 []
      else if s.ledgerRoom 1 = false then s.refuse q stLedger
      else (s.sealPairKey q (s.sessRole q)).complete q 0 []

def execEnrolOffer (key sig : List Byte) (variantOk : Bool) (s : State) : Host.Outcome State Fault Refusal :=
  .next (enrolOffer key sig variantOk s)

/-- ENROL_TIMEOUT: no valid offer within 10 s. -/
def enrolTimeout (s : State) : State :=
  match s.pair.enrol with
  | none => s
  | some (q, t) =>
    if s.gwqRuns && decide (t + msTicks 10000 ≤ s.tick) then (s.setPair { s.pair with enrol := none }).complete q stLinkDown []
    else s

def execEnrolTimeout (s : State) : Host.Outcome State Fault Refusal := .next (enrolTimeout s)

/-! ## PAIR_STATUS, PAIR_HEALTH, PAIR_SOLO (R245, R308) -/

/-- The partner's health as PAIR_STATUS codes it. -/
def State.partnerHealth (s : State) : Nat :=
  let h := s.get Adr.PAIR_STAT Fl.PAIR_STAT_P_HEALTH
  if h = 3 then 0 else h

def pairStatus (q : Nat) (s : State) : State :=
  s.actCmd q 0x0901 (fun _ _ => {}) (fun _ _ => 0) 0 fun s _ =>
    s.complete q 0 (le 1 s.role ++ le 1 (b2i s.linkUp) ++ le 1 (b2i s.solo) ++ le 1 s.partnerHealth ++ le 4 s.pair.reportNs32)

def execPairStatus (q : Nat) (s : State) : Host.Outcome State Fault Refusal := .next (pairStatus q s)

def pairHealth (q : Nat) (s : State) : State :=
  s.actCmd q 0x0902 (fun _ t => { bad := decide (t.bufLen < 128) }) (fun _ _ => 0) 0 fun s t =>
    (s.writeBuf q t.bufAddr s.pair.report).complete q 0 (le 4 s.pair.report.length)

def execPairHealth (q : Nat) (s : State) : Host.Outcome State Fault Refusal := .next (pairHealth q s)

/-- SOLO set or clear on the active, with its entry; its end starts a rejoin. -/
def State.setSolo (s : State) (q role : Nat) (on : Bool) : State :=
  let was := s.solo
  let s := (s.putFlag Adr.PAIR_STAT Fl.PAIR_STAT_SOLO on).logPair q role (if on then 2 else 3)
  let s := if was && !on then (s.setPair { s.pair with rejoined := false }).tryRejoin else s
  s.refreshGo

def pairSolo (q : Nat) (s : State) : State :=
  s.actCmd q 0x0903 (fun _ _ => {}) (fun s _ => if s.role = 2 then stNotActive else 0) 1 fun s t =>
    (if s.role = 1 then s.setSolo q t.role (t.flag 0) else s).complete q 0 []

def execPairSolo (q : Nat) (s : State) : Host.Outcome State Fault Refusal := .next (pairSolo q s)

/-! ## Health (R306, R307) -/

/-- The byte of an element in the element-state hash. -/
def State.elementByte (s : State) (e : Nat) : Byte :=
  let sp := (s.lane e).sp
  let at' := fun (p : Int) => sp == wrap 16 p
  if isGate s.variant e then
    let w := wordOf s.plan.inForce (gateOut s.variant e)
    byteOf (if wCirc w && at' (phiOpen e (wAtt w)) then wAtt w else 0xff)
  else byteOf (if at' (phiBar e) then 0 else if at' (phiCross e) then 1 else 2)

def State.elementHash (s : State) : List Byte := sha384 ((List.range (numElems s.variant)).map s.elementByte)

/-- Outputs that pass light on the active and not here. -/
def State.loopFails (s : State) (passing : List Nat) : Nat := (passing.filter fun o => !s.passing o).length

/-- The plan hash of every COMPILED slot. -/
def State.slotHashes (s : State) : List (Nat × Nat) :=
  (List.range (numSlots s.variant)).filterMap fun id => (s.slot? id).map fun x => (id, planHash x.words)

/-- The hash a list gives a slot. -/
def hashOf (xs : List (Nat × Nat)) (id : Nat) : Option Nat := (xs.find? fun e => e.1 == id).map Prod.snd

/-- The slots that either module holds COMPILED, and those of them whose hashes differ. -/
def State.slotsCompared (s : State) (xs : List (Nat × Nat)) : List Nat :=
  (List.range (numSlots s.variant)).filter fun id => (hashOf xs id).isSome || (s.slot? id).isSome

def State.slotsDiffer (s : State) (xs : List (Nat × Nat)) : List Nat :=
  (s.slotsCompared xs).filter fun id => hashOf xs id != hashOf s.slotHashes id

/-- The failed checks of an interval. -/
def State.checks (s : State) (h : HealthReqIn) : Nat :=
  let p := s.pair
  let gen := s.get Adr.PLAN_STAT Fl.PLAN_STAT_GENERATION
  b2i (decide (8 < p.misses ∧ p.sampRx < 100 * p.misses))
    + 2 * b2i (gen != h.gen || !(s.slotsDiffer h.slots).isEmpty || planHash s.plan.inForce != h.plan)
    + 4 * b2i (gen == h.gen && ofLE s.elementHash != h.elements)
    + 8 * b2i (s.loopFails h.passing != 0)
    + 16 * b2i p.stale
    + 32 * b2i (s.flag Adr.PAIR_STAT Fl.PAIR_STAT_DIVERGED)
    + 64 * b2i p.syncing
    + 128 * b2i p.ledgerNak

/-- The verdict on a set of checks; a module whose FATAL reaction is latched has verdict FAIL (R311). -/
def verdictOf (checks : Nat) (fatal : Bool) : Nat :=
  if fatal then 2 else if checks = 0 then 1 else if checks = 64 then 3 else 2

/-- How many lanes satisfy `p`. -/
def State.laneCount (s : State) (p : Lane → Bool) : Nat := (s.ctl.lanes.filter fun e => p e.2).length

/-- The health report. -/
def State.healthReport (s : State) (h : HealthReqIn) (verdict checks num : Nat) : List Byte :=
  let p := s.pair
  layout 128 [(0, le 4 0x4B484C54), (4, le 1 1), (5, le 1 verdict), (6, le 2 checks), (8, le 4 num), (12, le 4 s.ns32),
    (16, le 4 p.sampRx), (20, le 4 p.sampMatch), (24, le 2 (s.get Adr.PLAN_STAT Fl.PLAN_STAT_GENERATION)), (26, le 2 h.gen),
    (28, le 2 (s.slotsCompared h.slots).length), (30, le 2 (s.slotsDiffer h.slots).length),
    (32, le 32 (planHash s.plan.inForce)),
    (64, s.elementHash.take 32), (96, le 2 (s.loopFails h.passing)),
    (98, le 2 (s.laneCount fun x => x.st == 2 && x.cause == 4)), (100, le 2 (s.laneCount fun x => x.degraded)),
    (102, le 2 p.overruns), (104, le 1 (domIx s.sdom)), (105, le 1 (s.tqOf s.sdom)), (108, le 8 p.ledgerHead),
    (116, le 4 s.led.entries.length)]

/-- A move is in progress: from a break to its make. -/
def State.moving (s : State) : Bool := s.plan.commits.any fun c => c.phase != 0

/-- What HEALTH_REQ carries as numbers. -/
def healthWords (h : HealthReqIn) : List Nat :=
  [h.gen, h.slots.length] ++ (h.slots.flatMap fun e => [e.1, e.2]) ++ [h.plan, h.elements] ++ h.passing

/-- The bodies of a HEALTH_REQ: as many CONTROL frames as its content fills (log 107). -/
def healthBodies (h : HealthReqIn) : List (List Byte) :=
  let bytes := encodeNats (healthWords h)
  (List.range (max 1 ((bytes.length + 2046) / 2047))).map fun k => le 1 5 ++ (bytes.drop (2047 * k)).take 2047

/-- What the active's HEALTH_REQ carries now. -/
def State.healthNow (s : State) : HealthReqIn :=
  ⟨[], s.get Adr.PLAN_STAT Fl.PLAN_STAT_GENERATION, s.slotHashes, planHash s.plan.inForce, ofLE s.elementHash,
    (List.range (numPorts s.variant)).filter s.passing⟩

/-- The active sends HEALTH_REQ. -/
def State.sendHealthReq (s : State) : State :=
  let s := (healthBodies s.healthNow).foldl (fun s b => s.sendFrame 4 b none) s
  s.setPair { s.pair with ctlOut := some (5, 0, []), reqTick := some s.tick }

/-- The standby judges the interval, reports, and begins the next. -/
def State.answerHealth (s : State) (h : HealthReqIn) : State :=
  let c := s.checks h
  let v := verdictOf c s.fatal
  let n := s.pair.reportNum + 1
  let rep := s.healthReport h v c n
  let s := s.put Adr.PAIR_STAT Fl.PAIR_STAT_HEALTH v
  let s := s.setPair { s.pair with
    reportNum := n, report := rep, reportNs32 := s.ns32, ledgerNak := false, reqHeld := none
    sampRx := 0, sampMatch := 0, misses := 0, overruns := 0 }
  ((s.sendCtlBytes 6 rep none).pairFault 0xE3 (v == 2)).judgeTakeover

/-- HEALTH_REQ on the standby, once all its frames have come; the element-state hash waits for the end of a move. -/
def healthReq (h : HealthReqIn) (s : State) : State :=
  if h.frames.length = (healthBodies h).length then
    framesIn 4 (fun s =>
      if s.linkUp && s.role == 2 then
        (if s.moving then s.setPair { s.pair with reqHeld := some h } else s.answerHealth h)
      else s) (h.frames.zip (healthBodies h)) s
  else s

def execHealthReq (h : HealthReqIn) (s : State) : Host.Outcome State Fault Refusal := .next (healthReq h s)

/-- What health owes at an instant without a move: the active's request of a new interval of 100 ms, the standby's answer to one it
has held. -/
def State.healthDue (s : State) : State :=
  if s.linkUp = false ∨ s.moving then s
  else if s.role = 1 then
    if (match s.pair.reqTick with | some t => decide (t + msTicks 100 ≤ s.tick) | none => true) then s.sendHealthReq else s
  else if s.role = 2 then (match s.pair.reqHeld with | some h => s.answerHealth h | none => s)
  else s

/-- WAGGLE_SEND (R292): the heartbeat of 2 µs, and what health owes at it. -/
def waggleSend (s : State) : State :=
  if s.hears then
    let w := s.waggleBody
    let s := s.sendFrame 1 w none
    (s.setPair { s.pair with wagSent := some w }).healthDue
  else s

def execWaggleSend (s : State) : Host.Outcome State Fault Refusal := .next (waggleSend s)

/-- HEALTH: the active takes the report the frame carries, with its verdict, failed checks and NS32 (R307); a standby that has
diverged is resynchronised. The report arrives as its first 8 bytes and the rest. -/
def health (h : HealthIn) (rest : List Byte) (s : State) : State :=
  let rep := h.bytes ++ rest
  s.frameIn 4 h.frame (le 1 6 ++ rep) fun s =>
    if s.linkUp && s.role == 1 then
      let verdict := rdLE rep 5 1
      let s := s.put Adr.PAIR_STAT Fl.PAIR_STAT_P_HEALTH verdict
      let s := s.setPair { s.pair with report := fit 128 rep, reportNs32 := rdLE rep 12 4 }
      let s := s.pairFault 0xE3 (verdict % 4 == 2)
      if (rdLE rep 6 2).testBit 5 then s.startRejoin else s
    else s

def execHealth (h : HealthIn) (rest : List Byte) (s : State) : Host.Outcome State Fault Refusal := .next (health h rest s)

end Sys2Proof.Machine
end

