-- ==== Sys2Proof/Machine/Boot.lean ====
section
/-! DEFINITION. Starts and resets (spec/19_power_boot_reset.md R347 to R363, spec/14_secrecy_and_ledger.md R266, R270,
R275, spec/07_comb_engine_microcode.md R145, R146). The work of stages 1 to 6 is done in the row that begins a start. -/

namespace Sys2Proof.Machine

/-! ## Flash at stage 3 (R357, R359) -/

/-- The contents of a sealed slot as the flash's. -/
def Flash.from (x : Flash) (y : Sealed) : Flash :=
  { x with
    head := y.head, owner := y.owner, pairKey := y.pairKey, partner := y.partner, digestKeys := y.digestKeys
    enrolAt := y.enrolAt, checkpoint := y.checkpoint, unsealed := true, slot := 1 - x.slot }

/-- An owner record that is not there. -/
def Flash.noOwner (x : Flash) : Flash := { x with owner := none, pairKey := none, partner := [], digestKeys := [] }

/-- The slots opened: the current one, else the other, else none; a record with a stale count is dropped (R266). -/
def Flash.open (x : Flash) (ok0 ok1 : Bool) : Flash :=
  let ok := fun (n : Nat) => if n = 0 then ok0 else ok1
  let y :=
    let none' := { x.noOwner with head := none, checkpoint := none }
    if x.seals = 0 then none'
    else if ok x.slot then x
    else
      match (if 2 ≤ x.seals ∧ ok (1 - x.slot) then x.older else none) with
      | some o => if o.secret = x.keys.secret then x.from o else none'
      | none => none'
  if y.enrolAt = y.enrolCount then y else y.noOwner

/-! ## Stage 1 and 2 -/

def State.setBootStat (s : State) (f : Field) (n : Nat) : State := s.put Adr.BOOT_STAT f n

/-- Straps, the status of the new start, and the domains of the hub. -/
def State.stage1 (s : State) (b : BootIn) (cause : Nat) : State :=
  let x := s.boot
  let x := if cause = 1 then { x with posB := b.pairPosB, cspEn := b.cspEn } else x
  let mode := if b.bootMode = 3 then 0 else b.bootMode
  let s := s.setBoot { x with cut := false, t0 := s.tick, selfCal := decide (mode = 1) }
  let s := s.resetRegs fun a => a == Adr.BOOT_STAT || a == Adr.BOOT_TIME || (decide (Adr.IMG_STAT 0 ≤ a ∧ a < Adr.IMG_STAT 2))
  let s := (s.setBootStat Fl.BOOT_STAT_MODE mode).setBootStat Fl.BOOT_STAT_CAUSE cause
  (s.putFlag Adr.FLT_GSTAT Fl.FLT_GSTAT_FATAL false).putFlag Adr.SEC_STAT Fl.SEC_STAT_CLR_DONE false

/-- Compare units 0 to 23 are disarmed (R373). -/
def State.disarm (s : State) : State :=
  let s := (List.range 24).foldl (fun s n => s.putFlag (Adr.CMP n) Fl.CMP_EN false) s
  { s with time := { s.time with
    armed := s.time.armed.filter (24 ≤ ·), late := s.time.late.filter (24 ≤ ·)
    pulses := s.time.pulses.filter fun p => decide (24 ≤ p.1) } }

/-- The domains that can power on this module (R376). -/
def State.caps32 (s : State) : Nat := if s.boot.cspEn then capDomains s.variant else capDomains s.variant % 2 ^ 31

/-- Domains 24 to 31 power, as far as present; their rails lie in range. -/
def State.stage2 (s : State) : State :=
  let caps := s.caps32
  let s := s.wr Adr.CAP_DOMAINS (BitVec.ofNat 32 caps)
  let s := s.put Adr.PWR_STAT Fl.PWR_STAT_PG (caps / 2 ^ 24 * 2 ^ 24)
  let s := s.putFlag Adr.CSP_STAT Fl.CSP_STAT_EN s.boot.cspEn
  let s := [0xC0, 0xC1, 0xC2, 0xC3, 0xC4, 0xC5].foldl (fun s n => s.faultGone n) s
  let hk := s.ctl.hk
  let s := { s with
    host := { s.host with pcieUp := !s.boot.perstLow }
    ctl := { s.ctl with hk := { hk with settleAt := s.tick + usTicks 50, scanEnd := s.tick + scanTicks false } } }
  if s.has .pairU then
    let s := s.putFlag Adr.PAIR_STAT Fl.PAIR_STAT_POS s.boot.posB
    let s := s.putFlag Adr.PAIR_STAT Fl.PAIR_STAT_POS_CONFLICT s.pair.conflict
    let s := s.putFlag Adr.PAIR_WIRE Fl.PAIR_WIRE_ALIVE_IN s.pair.aliveIn
    let s := s.putFlag Adr.PAIR_WIRE Fl.PAIR_WIRE_OWN_IN s.pair.ownIn
    s.putFlag Adr.PAIR_WIRE Fl.PAIR_WIRE_ALIVE_OK s.edgeRecent
  else s

/-! ## Stage 3 -/

/-- OWNER_CLR judged: at a start from POR_N only (R270). -/
def State.clearOwner (s : State) : State :=
  let s := s.seal fun x => { x.noOwner with enrolCount := min 64 (x.enrolCount + 1) }
  (s.putFlag Adr.SEC_STAT Fl.SEC_STAT_CLR_DONE true).setBootStat Fl.BOOT_STAT_OWNER_CLR 1

/-- SEC_STAT and PAIR_STAT as the sealed record says. -/
def State.showOwner (s : State) : State :=
  let s := s.putFlag Adr.SEC_STAT Fl.SEC_STAT_OWNER s.flash.owner.isSome
  let s := s.putFlag Adr.SEC_STAT Fl.SEC_STAT_PAIR_KEY s.flash.pairKey.isSome
  let s := s.put Adr.SEC_STAT Fl.SEC_STAT_ENROL_COUNT s.flash.enrolCount
  if s.has .pairU then s.putFlag Adr.PAIR_STAT Fl.PAIR_STAT_KEY s.flash.pairKey.isSome else s

/-- The bank of class `c` that runs (R357). -/
def State.chosen (s : State) (c : Nat) (b0 b1 : BankIn) : Option Nat := chooseBank s.flash.keys s.variant c b0 b1 (s.rbCount c)

/-- One class's banks as IMG_STAT shows them, and the level that runs. -/
def State.showImage (s : State) (c : Nat) (b0 b1 : BankIn) : State :=
  let count := s.rbCount c
  let a := Adr.IMG_STAT c
  let ok := fun (b : BankIn) => judgeBank s.flash.keys s.variant c b count == some 0
  let level := match s.chosen c b0 b1 with | some n => (pickBank b0 b1 n).level | none => 0
  let s := (s.put a Fl.IMG_STAT_LEVEL level).put a Fl.IMG_STAT_RB_COUNT count
  (s.putFlag a Fl.IMG_STAT_BANK0_OK (ok b0)).putFlag a Fl.IMG_STAT_BANK1_OK (ok b1)

/-- SHA-384 of the composed image (R267, L2), its microwords in 4 bytes each, then its nanowords in 16 (log 94). -/
def State.imageDigest (s : State) : List Byte :=
  sha384 (((List.range 4096).flatMap fun a => le 4 (s.microWord a)) ++ ((List.range 512).flatMap fun a => le 16 (s.nanoWord a)))

/-- The composed image retained in working SRAM, with its measurement. -/
def State.keepImage (s : State) (image level patch : Nat) (rs : List PatchRec) : State :=
  let x := s.boot
  let s := s.setBoot { x with
    mcImage := image, mcLevel := level, mcPatch := patch, mcMicro := patchWords false rs, mcNano := patchWords true rs }
  let y := s.boot
  s.setBoot { y with mcDigest := s.imageDigest }

/-- The microcode composed: the records of the bank chosen over the baseline, or the baseline (R145). -/
def State.compose (s : State) (b0 b1 : BankIn) : State :=
  match s.chosen 1 b0 b1 with
  | some n =>
    let k := pickBank b0 b1 n
    (s.setBootStat Fl.BOOT_STAT_M_BANK n).keepImage (1 + n) k.level (k.patch s.flash.keys) ((k.records s.flash.keys).getD [])
  | none =>
    let cause := failCause s.flash.keys s.variant 1 b0 b1 (s.rbCount 1)
    let s := s.keepImage 0 0 0 []
    if b0.empty && b1.empty then s.putFlag Adr.MC_GSTAT Fl.MC_GSTAT_PATCH_ABSENT true
    else (s.putFlag Adr.MC_GSTAT Fl.MC_GSTAT_PATCH_FAIL true).put Adr.MC_GSTAT Fl.MC_GSTAT_CAUSE cause

/-- Images verified, sealed slots opened, OWNER_CLR judged. -/
def State.stage3 (s : State) (b : BootIn) (cause : Nat) : State :=
  let f := s.flash.open b.sealSlot0Ok b.sealSlot1Ok
  let f := (((f.setBank 0 b.gwqBank0).setBank 1 b.gwqBank1).setBank 2 b.mcBank0).setBank 3 b.mcBank1
  let s := { s with flash := f }
  let s := if cause = 1 ∧ b.ownerClrHeld then s.clearOwner else s
  let s := (s.showImage 0 b.gwqBank0 b.gwqBank1).showImage 1 b.mcBank0 b.mcBank1
  s.showOwner.compose b.mcBank0 b.mcBank1

/-! ## Stage 4 -/

/-- The GENESIS or RESUME entry of a start (R274, R275). -/
def State.startEntry (s : State) (cause : Nat) : LEntry :=
  match s.flash.head with
  | none => { s.mkEntry 0x0001 0 0xffff 0 s.now.sec s.now.ns (s.idDigest ++ le 1 (variantCode s.variant) ++ le 1 0xB0) with
      seq := 0, prev := List.replicate 48 0 }
  | some (n, h) =>
    let body := bodyOf [(0, 8, n), (8, 1, cause), (9, 1, b2i s.flash.unsealed), (12, 4, s.flash.starts + 1)]
    { s.mkEntry 0x0002 0 0xffff 0 s.now.sec s.now.ns body with seq := n + 2 ^ 32, prev := h }

/-- The start entry sealed, and then written. -/
def State.openLedger (s : State) (cause : Nat) : State :=
  let e := s.startEntry cause
  let fresh := s.flash.head.isNone
  let s := if fresh then s.setCpNum 0 else s
  let s := s.seal fun x => { x with
    head := some (e.seq, sha384 e.bytes), unsealed := false, starts := if fresh then 0 else x.starts + 1 }
  let s := s.pushEntry e
  { s with flash := { s.flash with unsealed := false } }

/-- An IMAGE_LOAD entry: the outcome of stage 3 for a class. -/
def State.logImage (s : State) (c : Nat) (b0 b1 : BankIn) : State :=
  let count := s.rbCount c
  match s.chosen c b0 b1 with
  | some n =>
    let k := pickBank b0 b1 n
    s.logInvol none 0x0003 (imageBody c 0 0 k.level count k.digest)
  | none =>
    let both := b0.empty && b1.empty
    s.logInvol none 0x0003 (imageBody c (if both then 2 else 1) (failCause s.flash.keys s.variant c b0 b1 count) 0 count [])

/-- Bits burnt until the count of class `c` is the running image's RB (R357). -/
def State.burn (s : State) (c : Nat) (b0 b1 : BankIn) : State :=
  let count := s.rbCount c
  match s.chosen c b0 b1 with
  | some n =>
    let rb := min 64 (pickBank b0 b1 n).rb
    let more := SMap.find 0 s.flash.rollback c + (rb - count)
    let s := { s with flash := { s.flash with rollback := SMap.put 0 s.flash.rollback c more } }
    s.put (Adr.IMG_STAT c) Fl.IMG_STAT_RB_COUNT (s.rbCount c)
  | none => s

/-- Gwynique started: the entries of the start, and what it owes. -/
def State.stage4 (s : State) (b : BootIn) (cause erased pairErased : Nat) : State :=
  let n := (s.chosen 0 b.gwqBank0 b.gwqBank1).getD 0
  let k := pickBank b.gwqBank0 b.gwqBank1 n
  let s := s.setBootStat Fl.BOOT_STAT_G_BANK n
  let x := s.boot
  let s := s.setBoot { x with gwq := true, gwqLevel := k.level, gwqDigest := k.digest }
  let s := s.putFlag Adr.BUS_REMAP Fl.BUS_REMAP_REMAP_BOOT false
  let s := s.openLedger cause
  let s := (s.logImage 0 b.gwqBank0 b.gwqBank1).logImage 1 b.mcBank0 b.mcBank1
  let s := if s.flag Adr.BOOT_STAT Fl.BOOT_STAT_OWNER_CLR then
      s.logInvol none 0x0062 (bodyOf [(0, 1, s.flash.enrolCount), (2, 2, erased), (4, 1, pairErased)])
    else s
  (s.reportOwed.flushSafety).burn 0 b.gwqBank0 b.gwqBank1

/-! ## Stages 5 and 6 -/

/-- One powered comb loaded: its engine runs, and its first period is an aligning one (R79, R146). -/
def State.loadComb (s : State) (c : Nat) (fails : Bool) : State :=
  if fails then
    let s := (s.put (Adr.MC_STAT c) Fl.MC_STAT_STATE 4).wr (Adr.MC_VERSION c) 0
    s.assertFault c { kind := 1, detail := 0, access := 1, master := 0x13, addr := 0 } true
  else
    let s := (s.loadStores c).put (Adr.MC_STAT c) Fl.MC_STAT_STATE 1
    let s := (s.put (Adr.MC_VERSION c) Fl.MC_VERSION_BASE baseLevel).put (Adr.MC_VERSION c) Fl.MC_VERSION_PATCH s.boot.mcPatch
    s.idle c

def State.startComb (s : State) (c : Nat) (fails : Bool) : State :=
  let s := s.loadComb c fails
  let p := s.get (Adr.LOOP_STAT c) Fl.LOOP_STAT_PERIOD_ACT
  let s := s.putFlag (Adr.LOOP_STAT c) Fl.LOOP_STAT_ALIGNING true
  s.onComb c fun x => { x with boundary := alignedAfter s.tick p, refAt := s.tick + refTicks 0 }

/-- Tile domains powered, the composed microcode loaded. A start powers every tile domain in this row, so a comb that powers up while
EN = 1 makes its ramp with all the others (R50). -/
def State.stage5 (s : State) (b : BootIn) : State :=
  let s := s.put Adr.PWR_STAT Fl.PWR_STAT_PG s.caps32
  let cs := (List.range (numCombs s.variant)).filter fun c => s.powered (combDomain s.variant c)
  let s := s.armAlign (alignedAfter s.tick 0)
  let s := cs.foldl (fun s c => s.startComb c (b.loadFails.contains c)) s
  let s := (List.range (numTiles s.variant)).foldl (fun s t => s.throttleTile t (s.thermLevel t)) s
  let s := s.showLoadFails.startRamp
  if cs.any b.loadFails.contains then s else s.burn 1 b.mcBank0 b.mcBank1

/-- The path delay of an input in force: the factory record's, or 5.0 ns (R169). -/
def State.loadDelay (s : State) (p : Nat) (valid : Bool) : State :=
  let d := if valid then frDelay s.variant p else 0x500
  let tc := if valid then wrap 16 (frTc s.variant p) else 0
  let s := (s.put (Adr.SRX_PDLY p) Fl.SRX_PDLY_DELAY d).put (Adr.SRX_PTC p) Fl.SRX_PTC_TC tc
  s.putFlag (Adr.SRX_STAT p) Fl.SRX_STAT_FR_DEFAULT (!valid)

/-- The sealed digest keys that were in force since POR_N are put back in force after SYS_RST_N and a cooled restart (R373; none
after POR_N, R174). -/
def State.restoreKeys (s : State) : State :=
  let s := (s.flash.digestKeys.filter fun e => s.boot.keyed.contains e.1).foldl (fun s e =>
    (s.setSrx e.1 { s.srx e.1 with key := some e.2 }).putFlag (Adr.SRX_STAT e.1) Fl.SRX_STAT_KEY_SET true) s
  s.showKeys

/-- The factory record verified, path delays loaded. -/
def State.stage6 (s : State) (b : BootIn) (cause : Nat) : State :=
  let valid := b.frPresent && b.frSigOk && b.frIdOk
  let s := s.putFlag Adr.FR_STAT Fl.FR_STAT_PRESENT b.frPresent
  let s := s.putFlag Adr.FR_STAT Fl.FR_STAT_VALID valid
  let s := s.putFlag Adr.FR_STAT Fl.FR_STAT_SIG_FAIL (b.frPresent && !b.frSigOk)
  let s := s.putFlag Adr.FR_STAT Fl.FR_STAT_ID_MISMATCH (b.frPresent && !b.frIdOk)
  let s := s.put Adr.FR_STAT Fl.FR_STAT_FORMAT (if b.frPresent then frFormat else 0)
  let ports := if s.has .stampU then
      (List.range (numPorts s.variant)).filter fun p => s.powered (6 * (p / 128) + 4) else []
  let s := ports.foldl (fun s p => s.loadDelay p valid) s
  let s := if s.has .stampU then s.restoreKeys else s
  (s.setBootStat Fl.BOOT_STAT_STAGE 7).refreshOuts.refreshGo

/-- A start, from its first stage to the end of the sixth, or to recovery (R351, R358). -/
def State.startUp (s : State) (b : BootIn) (cause : Nat) : State :=
  let b := s.flash.banksOf b
  let s := ((s.stage1 b cause).disarm).stage2
  let keys := s.flash.digestKeys.length
  let pair := b2i s.flash.pairKey.isSome
  let s := s.stage3 b cause
  if (s.chosen 0 b.gwqBank0 b.gwqBank1).isNone ∨ b.bootMode = 2 then
    let x := s.boot
    let s := ((s.setBoot { x with recovery := true }).setBootStat Fl.BOOT_STAT_STAGE 3).setBootStat Fl.BOOT_STAT_WAIT 6
    (s.put (Adr.IMG_STAT 0) Fl.IMG_STAT_LEVEL 0).put (Adr.IMG_STAT 1) Fl.IMG_STAT_LEVEL 0
  else (((s.stage4 b cause keys pair).stage5 b).stage6 b cause)

/-! ## The rows of a start and of each reset -/

/-- POR_N low: everything but what flash, fuses and pins hold is gone (R360); ALIVE_OUT holds its level (R319). -/
def porNAssert (s : State) : State :=
  let b := s.boot
  { State.reset with
    variant := s.variant, free := s.free, flash := s.flash, pending := s.pending, led := { cpNum := s.led.cpNum }
    pair := { aliveIn := s.pair.aliveIn, ownIn := s.pair.ownIn }
    ctl := { boot := { porLow := true, sysLow := b.sysLow, perstLow := b.perstLow, alive := b.alive } } }

def execPorNAssert (s : State) : Host.Outcome State Fault Refusal := .next (porNAssert s)

/-- POR_N high: a start begins, or waits for SYS_RST_N with PAIR_POS and CSP_EN sampled; POR_N governs that start (R363). -/
def porNRelease (b : BootIn) (s : State) : State :=
  if s.boot.porLow = false ∨ s.boot.dead then s
  else
    let x := s.boot
    let s := s.setBoot { x with porLow := false }
    if s.boot.sysLow then
      let x := s.boot
      s.setBoot { x with posB := b.pairPosB, cspEn := b.cspEn, porPend := true }
    else s.startUp b 1

def execPorNRelease (b : BootIn) (s : State) : Host.Outcome State Fault Refusal := .next (porNRelease b s)

/-- SYS_RST_N low, acted on. -/
def sysRstNAssert (s : State) : State :=
  if s.boot.sysLow then s
  else
    let x := s.boot
    let s := s.setBoot { x with sysLow := true }
    if s.boot.porLow || s.boot.dead then s else s.releaseOwn.stopAlive.losePower

def execSysRstNAssert (s : State) : Host.Outcome State Fault Refusal := .next (sysRstNAssert s)

/-- SYS_RST_N high: a start begins, that of POR_N where its release waited for it, or it waits for the cooling of a thermal shutdown
(R363). The switches that a supply source opened may close again (R347). -/
def sysRstNRelease (b : BootIn) (s : State) : State :=
  if s.boot.sysLow = false then s
  else
    let x := s.boot
    let s := s.setBoot { x with sysLow := false, cut := false, porPend := false }
    if s.boot.porLow || s.boot.dead || s.flt.shutdown then s
    else if x.porPend then s.startUp { b with pairPosB := x.posB, cspEn := x.cspEn } 1
    else s.startUp b 2

def execSysRstNRelease (b : BootIn) (s : State) : Host.Outcome State Fault Refusal := .next (sysRstNRelease b s)

/-- Every photonic-die sensor has read below 100.0 °C for 1 s (R323). -/
def State.cooled (s : State) : Bool :=
  match s.flt.coolSince with
  | some t => decide (t + 625000000 ≤ s.tick)
  | none => false

/-- COOLED_RESTART. A FATAL supply source keeps the switches open until POR_N or SYS_RST_N (R347). -/
def cooledRestart (b : BootIn) (s : State) : State :=
  let x := s.boot
  if s.flt.shutdown && s.cooled && !x.sysLow && !x.porLow && !x.dead && !x.cut then
    (s.setFlt { s.flt with shutdown := false, coolSince := none }).startUp b 3
  else s

def execCooledRestart (b : BootIn) (s : State) : Host.Outcome State Fault Refusal := .next (cooledRestart b s)

/-- DRIVE_ENABLE_AT_BOOT, in stage 7 once VDD_DRV is good: the ramp begins; the references are captured from the next 1 ms average
after it, of the pilots that are OK at that average (DESIGN CHOICE, log 99). -/
def driveEnableAtBoot (s : State) : State :=
  if s.gwqRuns && s.get Adr.BOOT_STAT Fl.BOOT_STAT_STAGE == 7 && s.flag Adr.DRV_STAT Fl.DRV_STAT_DRV_PG then
    let s := s.setEn true
    { s with ctl := { s.ctl with pilot := { s.ctl.pilot with recapture := true } } }
  else s

def execDriveEnableAtBoot (s : State) : Host.Outcome State Fault Refusal := .next (driveEnableAtBoot s)

/-- Every lane of a powered comb whose active VALID is 1 is primed or in PARKED (R352). -/
def State.primed (s : State) : Bool :=
  (List.range (numElems s.variant)).all fun e =>
    !s.powered (combDomain s.variant (e / 64)) || !s.validAct e || (s.lane e).primeCnt == 2 || (s.lane e).st == 2

/-- What READY waits for. -/
def State.readyNow (s : State) : Bool := s.primed && !s.noPilot && s.frValid

/-- READY: ALIVE_OUT begins to toggle where the variant drives it (R4, R378), and the pair role is elected (R352, R285, R319). -/
def ready (s : State) : State :=
  if s.gwqRuns && s.get Adr.BOOT_STAT Fl.BOOT_STAT_STAGE == 9 && s.readyNow then
    let s := (s.setBootStat Fl.BOOT_STAT_STAGE 10).setBootStat Fl.BOOT_STAT_READY 1
    let s := s.put Adr.BOOT_TIME Fl.BOOT_TIME_READY_MS (min 0xffff ((s.tick - s.boot.t0) / 625000))
    let s := if s.fatal || !s.has .pairU then s
      else
        let x := s.boot
        let s := s.setBoot { x with aliveAt := some (s.tick + usTicks 5) }
        (s.putFlag Adr.FLT_GSTAT Fl.FLT_GSTAT_ALIVE_STOP false).putFlag Adr.PAIR_WIRE Fl.PAIR_WIRE_ALIVE_RUN true
    s.elect
  else s

def execReady (s : State) : Host.Outcome State Fault Refusal := .next (ready s)

/-- The security core reads the head of the chain that it signs: bad check bits assert SEC (R313, R318; log 38). -/
def State.headParity (s : State) : State :=
  if s.checkBad 0xA3 0 then (s.checkClear 0xA3 0).assertFault 0xA3 { access := 0, master := 4 } false else s

/-- CHECKPOINT. -/
def checkpoint (s : State) : State := if s.gwqRuns && checkpointDue s then s.headParity.formCheckpoint else s

def execCheckpoint (s : State) : Host.Outcome State Fault Refusal := .next (checkpoint s)

/-! ## Warm reset (R254, R362) -/

/-- WARM_RESET: its completion and its entry, and then the reset (R246), which waits for the commands taken (R247). -/
def warmReset (q : Nat) (s : State) : State :=
  s.actCmd q 0x0A01 (fun _ _ => {}) (fun _ _ => 0) 1 fun s t => ((s.log 0x0091 q t.role []).complete q 0 []).beginWarm

def execWarmReset (q : Nat) (s : State) : Host.Outcome State Fault Refusal := .next (warmReset q s)

/-- GWQ_WD: Gwynique has not serviced its watchdog for 100 ms. The report waits until it next runs. -/
def gwqWd (s : State) : State :=
  if s.gwqRuns then
    if s.classFor 0xF1 = 2 then
      let x := s.boot
      (s.setBoot { x with gwq := false }).assertFault 0xF1 {} false
    else s.beginWarm.assertFault 0xF1 {} false
  else s

def execGwqWd (s : State) : Host.Outcome State Fault Refusal := .next (gwqWd s)

/-- WARM_RESET_COMPLETE: Gwynique runs again and writes what the reset owes. -/
def warmResetComplete (s : State) : State :=
  if s.boot.warm.isNone then s
  else
    let x := s.boot
    let stop := x.warmStop
    let s := s.setBoot { x with warm := none, warmStop := none }
    let owed := s.sessIds.filter fun q =>
      s.sessState q == 3 && (match s.sess? q with | some y => y.closeCause == 0 | none => false)
    let s := owed.foldl (fun s q => s.logClose q 9) s
    let s := match stop with
      | some body => s.logInvol none 0x0031 body
      | none => s
    let s := (s.setPlan { s.plan with goStop := false }).refreshGo
    let s := s.reportOwed.flushSafety
    let x := s.boot
    if x.selfCal && s.frValid && s.get Adr.BOOT_STAT Fl.BOOT_STAT_STAGE == 8 then
      (s.setBoot { x with calOwed := true }).selfCalRun
    else s.endStage7

def execWarmResetComplete (s : State) : Host.Outcome State Fault Refusal := .next (warmResetComplete s)

end Sys2Proof.Machine
end

