-- ==== Sys2Proof/Machine/Registers.lean ====
section
/-! DEFINITION. Reads and writes of registers through the register bridge (spec/20_register_map.md R367 to R372,
spec/18_interconnect_and_counters.md R343 to R346, spec/11_host_sessions_mailboxes.md R204 to R206): the overlays of words
whose home is elsewhere in the state, the side effects of reads, and writes with an effect beyond what they store. -/

namespace Sys2Proof.Machine

/-! ## What a read of the privileged view returns -/

/-- WAIT: the first unmet condition of the start (R352). -/
def State.waitCode (s : State) : Nat :=
  let st := s.get Adr.BOOT_STAT Fl.BOOT_STAT_STAGE
  if st < 7 then s.get Adr.BOOT_STAT Fl.BOOT_STAT_WAIT
  else if 10 ≤ st then 0
  else if !s.frValid then 1
  else if !s.flag Adr.DRV_STAT Fl.DRV_STAT_DRV_PG then 2
  else if st ≤ 8 then 3
  else if s.noPilot then 4
  else if !s.primed then 5 else 0

/-- A field placed in a word. -/
def State.withField (s : State) (a : Nat) (f : Field) (n : Nat) : Nat := (setBits (s.rd a) f.lo f.width n).toNat

/-- LOOP_GSTAT. -/
def State.loopGstat (s : State) : Nat :=
  let d := s.laneCount fun x => x.degraded
  b2i (s.ctl.lanes.any fun e => e.2.st == 8) + 2 * b2i (d != 0) + 65536 * d

/-- ADJ_LEFT of a domain: saturates. -/
def State.adjLeft (s : State) (d : Dom) : Nat :=
  let x := s.time.dom d
  wrap 32 (clampInt (-2147483648) 2147483647 (x.adjTotal - x.adjDone))

/-- The word `k` of a comb counter block at offset `o` of the comb window. -/
def State.combCounter (s : State) (c o a : Nat) : Nat :=
  if o = 0x1A0 then (s.engOf c).steps % 2 ^ 32
  else if o = 0x1A4 then s.shadow 0 a % 65536 + 65536 * b2i (s.engOf c).sat
  else if o % 8 = 0 then s.withField a Fl.PC_CLASS (b2i (combTenant (s.get a Fl.PC_EVENT)))
  else (s.rd a).toNat

/-- A word of a comb window. -/
def State.combWord (s : State) (a : Nat) : Nat :=
  let c := combOfAdr a
  let o := a % 0x4000
  if 0x1000 ≤ o ∧ o < 0x3000 then s.laneWord (64 * c + (o - 0x1000) / 0x80) (o % 0x80 / 4)
  else if o = 0x184 then s.withField a Fl.MC_STAT_UPC (s.engOf c).upc
  else if 0x1A0 ≤ o ∧ o < 0x1D0 then s.combCounter c o a
  else (s.rd a).toNat

/-- The word a read of the privileged view finds at `a`, WO fields aside. -/
def State.wordAt (s : State) (a : Nat) : Nat :=
  if 0x400000 ≤ a then s.combWord a
  else if a = Adr.BOOT_STAT then s.withField a Fl.BOOT_STAT_WAIT s.waitCode
  else if a = Adr.LOOP_GSTAT then s.loopGstat
  else if a = Adr.CAL_GSTAT then
    (setBits (setBits (s.rd a) 0 1 (b2i (!s.ctl.cal.applies.isEmpty))) 1 1 (b2i s.procAny)).toNat
  else if decide (Adr.OUT_STAT 0 ≤ a) && decide (a < Adr.OUT_STAT (numPorts s.variant)) then
    (s.out ((a - Adr.OUT_STAT 0) / 4)).word
  else if a = Adr.TIME_RD then s.ns32
  else if a = Adr.TIME_RD + 4 then s.shadow 0 a
  else if a = tdAdr .A + 0x20 then s.adjLeft .A
  else if a = tdAdr .B + 0x20 then s.adjLeft .B
  else if a = Adr.CSP_STAT then
    s.withField a Fl.CSP_STAT_CLK_SEEN (match s.csp.clk with | some t => b2i (decide (s.tick ≤ t + msTicks 1)) | none => 0)
  else if a = Adr.PAIR_WIRE then
    s.withField a Fl.PAIR_WIRE_EDGE_AGE
      (match s.pair.lastEdge with | some t => min 0xffff ((s.tick - t) / ticksPerUs) | none => 0xffff)
  else if a = Adr.SAFE_STAT then s.safeShown.toNat
  else if decide (0x60810 ≤ a) && decide (a < 0x60830) then rdLE s.idDigest (a - 0x60810) 4
  else if a = Adr.FLT_GSTAT then
    s.withField a Fl.FLT_GSTAT_CAPTURED
      ((List.range 256).filter fun n => s.flag (Adr.FLT_SRC n) Fl.FLT_SRC_VALID).length
  else if a = Adr.FLT_INJ then
    s.withField a Fl.FLT_INJ_ARMED (b2i (s.flt.armed (s.get a Fl.FLT_INJ_SOURCE) (s.get a Fl.FLT_INJ_SUB) true))
  else if a = Adr.PERF_TICK then s.tick % 2 ^ 32
  else if a = Adr.PERF_TICK + 4 then s.shadow 0 a
  else if decide (Adr.PERF_HC 0 ≤ a) && decide (a < Adr.PERF_HC 8) then
    if a % 16 = 0 then s.withField a Fl.PERF_HC_CLASS (b2i (hubTenant (s.get a Fl.PERF_HC_EVENT)))
    else if a % 16 = 8 then s.shadow 0 a else (s.rd a).toNat
  else (s.rd a).toNat

/-- WO and W1S fields read 0. -/
def readField (w : Word) (f : FieldDesc) : Word :=
  match f.access with
  | .wo | .w1s => setBits w f.lo f.width 0
  | _ => w

/-- A read of the privileged view: zero where nothing answers (R369, R374). -/
def State.readWord (s : State) (a : Nat) : Nat :=
  match lookupWord a with
  | some (_, _, _, fs) => if s.answers a then (fs.foldl readField (BitVec.ofNat 32 (s.wordAt a))).toNat else 0
  | none => 0

/-! ## Reads beside the events of their instant (R370) -/

/-- The lane of a LANE_CNT word, whose RC fields SKIP and FROZEN have their home in the lane. -/
def laneCnt (a : Nat) : Option Nat :=
  if 0x400000 ≤ a ∧ 0x1000 ≤ a % 0x4000 ∧ a % 0x4000 < 0x3000 ∧ a % 0x80 = 0x24 then
    some (64 * combOfAdr a + (a % 0x4000 - 0x1000) / 0x80)
  else none

/-- The word at `a`, in whose RC fields events count, before the events of this instant and now. -/
def State.rcBefore (s : State) (a : Nat) : Word :=
  match laneCnt a, s.host.before with
  | some e, some b => let x := SMap.find ([], 0, 0) b.lanes e; BitVec.ofNat 32 (x.2.1 + 2 ^ 24 * x.2.2)
  | some _, none => BitVec.ofNat 32 (s.wordAt a)
  | none, _ => s.rdBefore a
def State.rcNow (s : State) (a : Nat) : Word := BitVec.ofNat 32 (s.wordAt a)

/-- The word of a queue's marks, which hold a largest value and count no event. -/
def markWord (a : Nat) : Bool := decide (Adr.QW 0 ≤ a ∧ a < Adr.QW 4096) && (a % 0x40 == 0x10 || a % 0x40 == 0x14)

/-- What a read returns of an RC field: its count without the events of this instant. -/
def rcSeen (old now : Word) (f : FieldDesc) : Nat := min (getBits old f.lo f.width) (getBits now f.lo f.width)

/-- A word with its RC fields as a read returns them, and with what the read leaves in them. -/
def asRead (old now w : Word) (f : FieldDesc) : Word :=
  match f.access with
  | .rc => setBits w f.lo f.width (rcSeen old now f)
  | _ => w
def leaveRC (old now w : Word) (f : FieldDesc) : Word :=
  match f.access with
  | .rc => setBits w f.lo f.width (getBits now f.lo f.width - rcSeen old now f)
  | _ => w

/-- The value a read of the privileged view returns. -/
def State.readSeen (s : State) (a : Nat) : Nat :=
  match lookupWord a with
  | some (_, _, _, fs) =>
    if s.answers a && s.host.before.isSome && !markWord a then
      (fs.foldl (asRead (s.rcBefore a) (s.rcNow a)) (BitVec.ofNat 32 (s.readWord a))).toNat
    else s.readWord a
  | none => 0

/-- The RC fields at `a` have been read: what is left counts the events of this instant alone. -/
def State.tookRC (s : State) (a : Nat) (fs : List FieldDesc) : State :=
  match s.host.before with
  | none => s
  | some b =>
    let b := match laneCnt a with
      | some e => { b with lanes := SMap.insert b.lanes e ((SMap.find ([], 0, 0) b.lanes e).1, 0, 0) }
      | none => { b with regs := SMap.put (resetWord s.variant a) b.regs a (fs.foldl clearRC (s.rdBefore a)) }
    { s with host := { s.host with before := some b } }

/-! ## What a read of a VF view returns (R205, R206, R345, R372) -/

/-- The marks of a queue as view `v` shows them: 0 for an FC queue; `k` = 0 depth, 1 delay. -/
def State.vfMark (s : State) (v q k : Nat) : Nat :=
  if s.isFc q then 0
  else if Variant.isSmall s.variant then (s.rd (Adr.QW q + 0x10 + 4 * k)).toNat
  else
    match s.queue? q with
    | some x => if k = 0 then (x.seen v).depth else (x.seen v).delay
    | none => 0

/-- A word of the VF's queue registers of session `q`. -/
def State.vfQueueWord (s : State) (v q k : Nat) : Nat :=
  match k with
  | 0 | 1 => s.vfMark v q k
  | 2 => (match s.queue? q with | some x => min 0xffffffff x.dropAll | none => 0)
  | _ => (s.rd (Adr.QW q + 0x20)).toNat

/-- SESS_VSTAT of session `q`, and its lost events. -/
def State.vfSessWord (s : State) (q k : Nat) : Nat :=
  let b := Adr.SESS q
  if k = 0 then s.sessState q + 8 * s.sessRole q + 32 * s.get b Fl.SESS_DB_ERR + 64 * s.get b Fl.SESS_DMA_ERR
  else s.readSeen (b + 8)

/-- HCn is released to VF views, and PCk of a comb is. -/
def State.hcOut (s : State) (n : Nat) : Bool :=
  s.flag (Adr.PERF_HC n) Fl.PERF_HC_USER_EN && !hubTenant (s.get (Adr.PERF_HC n) Fl.PERF_HC_EVENT)
def State.pcOut (s : State) (c k : Nat) : Bool :=
  s.flag (Adr.PC c k) Fl.PC_USER_EN && !combTenant (s.get (Adr.PC c k) Fl.PC_EVENT)
def State.tickOut (s : State) : Bool := s.flag Adr.PERF_CTL Fl.PERF_CTL_TICK_USER_EN

/-- A word of the released counters of a VF view. -/
def State.vfCounter (s : State) (v off : Nat) : Nat :=
  if off = 0x1000 then (if s.tickOut then s.tick % 2 ^ 32 else 0)
  else if off = 0x1004 then (if s.tickOut then s.shadow v (Adr.PERF_TICK + 4) else 0)
  else if 0x1010 ≤ off ∧ off < 0x1090 then
    let n := (off - 0x1010) / 16
    let b := Adr.PERF_HC n
    if s.hcOut n = false then 0
    else if off % 16 = 0 then s.get b Fl.PERF_HC_VAL_LO
    else if off % 16 = 4 then s.shadow v (b + 8) % 65536 + 65536 * s.get b Fl.PERF_HC_SAT
    else if off % 16 = 8 then s.get b Fl.PERF_HC_EVENT else 0
  else if 0x1100 ≤ off ∧ off < 0x1A00 then
    let i := (off - 0x1100) / 4
    if decide (i / 4 < numCombs s.variant) && s.powered (combDomain s.variant (i / 4)) && s.pcOut (i / 4) (i % 4) then
      s.get (Adr.PC (i / 4) (i % 4)) Fl.PC_VAL
    else 0
  else 0

/-- A word of view `v` ≥ 1 at offset `off`. -/
def State.vfWord (s : State) (v off : Nat) : Nat :=
  if s.viewOn v = false then 0
  else if off = 0 then v + 64 * (s.vfOf v).ceil + 256 * (s.vfSessions v).length
  else if off = 4 then s.readWord Adr.CAP_UNITS
  else if off = 8 then s.readWord Adr.GWQ_VER
  else if off = 0xC0 ∨ (0xE0 ≤ off ∧ off < 0x100) then (s.rd (vfAdr v off)).toNat
  else if off = 0x100 then s.ns32
  else if off = 0x104 then s.shadow v (Adr.TIME_RD + 4)
  else if 0x200 ≤ off ∧ off < 0x400 then
    (match s.slotSess v ((off - 0x200) / 8) with | some q => s.vfSessWord q (off % 8 / 4) | none => 0)
  else if 0x400 ≤ off ∧ off < 0x800 then
    if s.has .exportU && s.powered 30 then
      (match s.slotSess v ((off - 0x400) / 16) with | some q => s.vfQueueWord v q (off % 16 / 4) | none => 0)
    else 0
  else if 0x800 ≤ off ∧ off < 0x1000 then
    (let o := (off - 0x800) / 4
     if o < numPorts s.variant then s.outVWord (s.vfOf v).ports o else 0)
  else s.vfCounter v off

/-! ## BAR4 and configuration space (R201 to R203) -/

/-- A word of BAR4 of function `fn`: the vector's address, data and mask, 16 bytes a vector, or 32 pending bits. -/
def State.msixWord (s : State) (fn off : Nat) : Nat :=
  let vec := fun n => SMap.find {} s.host.msix (2048 * fn + n)
  if off < 16 * msixVectors fn then
    let v := vec (off / 16)
    match off % 16 / 4 with
    | 0 => v.addr % 2 ^ 32
    | 1 => v.addr / 2 ^ 32
    | 2 => v.data
    | _ => b2i v.masked
  else if msixPba fn ≤ off ∧ off < msixPba fn + msixVectors fn / 8 then
    ((List.range 32).map fun k => 2 ^ k * b2i (vec (8 * (off - msixPba fn) + k)).pend).sum
  else 0

/-- A write of a word of a vector; one that unmasks a pending vector sends its message where the device may write. -/
def State.writeMsix (s : State) (fn off : Nat) (w : Word) : State :=
  if off < 16 * msixVectors fn then
    let k := 2048 * fn + off / 16
    let v := SMap.find {} s.host.msix k
    let v : MsiVec := match off % 16 / 4 with
      | 0 => { v with addr := v.addr / 2 ^ 32 * 2 ^ 32 + w.toNat }
      | 1 => { v with addr := v.addr % 2 ^ 32 + 2 ^ 32 * w.toNat }
      | 2 => { v with data := w.toNat }
      | _ => { v with masked := bitSet w 0 }
    let s := { s with host := { s.host with msix := SMap.put {} s.host.msix k v } }
    if v.pend then s.sendPending fn else s
  else s

/-- A read of any view, as a 32-bit word; offset o of BAR4 of its function stands at 2³² + o, of its configuration space at
2³³ + o. -/
def State.readView (s : State) (view a : Nat) : Nat :=
  if cfgBase ≤ a then (if s.viewOn view then s.cfgWord view (a - cfgBase) else 0)
  else if bar4Base ≤ a then (if s.viewOn view then s.msixWord view (a - bar4Base) else 0)
  else if view = 0 then s.readWord a else s.vfWord view a

/-- A configuration read (R201 to R203, R354): served once Gwynique or its loader has started, else answered with Configuration Request
Retry Status; no answer while the link is down or where the function does not exist. -/
def State.cfgRead (s : State) (fn off : Nat) : State :=
  if s.cfgReached fn = false then s
  else if s.cfgReady = false then { s with host := { s.host with cfgRetry := true } }
  else { s with readData := s.cfgWord fn off, host := { s.host with cfgRetry := false } }

/-- What a configuration write does beyond what it stores: Bus Master Enable, Initiate Function Level Reset, VF Enable with NumVFs, and
MSI-X masks. -/
def State.cfgActs (s : State) (fn off : Nat) (v : Word) : State :=
  if off = 4 then
    if bitSet v 2 = s.host.busMaster.contains fn then s else busMasterEnable fn (bitSet v 2) (!s.host.wrBad.contains fn) s
  else if off = 0x48 then (if bitSet v 15 then functionLevelReset fn s else s)
  else if off = 0xB0 then s.sendPending fn
  else if fn ≠ 0 then s
  else if off = 0x168 then
    if bitSet v 0 then (if s.host.numVfs = 0 then vfEnable (s.cfgHeld 0 0x170 % 256) s else s) else vfRemoval 0 s
  else if off = 0x170 ∧ s.host.numVfs ≠ 0 then
    if v.toNat % 256 < s.host.numVfs then vfRemoval (v.toNat % 256) s else vfEnable (v.toNat % 256) s
  else s

/-- A configuration write, answered as a read is. -/
def State.cfgWrite (s : State) (fn off : Nat) (v : Word) : State :=
  if s.cfgReached fn = false then s
  else if s.cfgReady = false then { s with host := { s.host with cfgRetry := true } }
  else State.cfgActs (State.cfgStore { s with host := { s.host with cfgRetry := false } } fn off v.toNat) fn off v

/-! ## Side effects of reads -/

/-- The low word of a counter of the privileged view: its upper word's address and value, where `a` is one (R346). -/
def State.lowWord (s : State) (a : Nat) : Option (Nat × Nat) :=
  if a = Adr.PERF_TICK then some (a + 4, s.tick / 2 ^ 32)
  else if decide (Adr.PERF_HC 0 ≤ a) && decide (a < Adr.PERF_HC 8) && a % 16 == 4 then
    some (a + 4, s.get (a - 4) Fl.PERF_HC_VAL_HI)
  else if decide (0x400000 ≤ a ∧ a < 0x640000) && a % 0x4000 == 0x1A0 then
    some (a + 4, (s.engOf (combOfAdr a)).steps / 2 ^ 32)
  else none

/-- The same in a VF view, for released counters. -/
def State.vfLowWord (s : State) (off : Nat) : Option (Nat × Nat) :=
  if off = 0x1000 then (if s.tickOut then some (Adr.PERF_TICK + 4, s.tick / 2 ^ 32) else none)
  else if 0x1010 ≤ off ∧ off < 0x1090 ∧ off % 16 = 0 then
    let n := (off - 0x1010) / 16
    if s.hcOut n then some (Adr.PERF_HC n + 8, s.get (Adr.PERF_HC n) Fl.PERF_HC_VAL_HI) else none
  else none

/-- The upper word latched for the view that reads a low word. -/
def State.latchRead (s : State) (view a : Nat) : State :=
  match (if view = 0 then s.lowWord a else s.vfLowWord a) with
  | some (hi, n) => s.latch view hi n
  | none => s

/-- RC fields of the privileged view's word at `a`: a read leaves in them the events of this instant (R370). -/
def State.clearWord (s : State) (a : Nat) : State :=
  match lookupWord a with
  | some (_, _, _, fs) =>
    if markWord a then (if Variant.isSmall s.variant then s.wr a (fs.foldl clearRC (s.rd a)) else s)
    else
      let old := s.rcBefore a
      let now := s.rcNow a
      match laneCnt a with
      | some e =>
        let w := fs.foldl (leaveRC old now) now
        State.tookRC (s.onLane e fun x => { x with skip := getBits w 0 16, frozen := getBits w 24 8 }) a fs
      | none => State.tookRC (s.wr a (fs.foldl (leaveRC old now) (s.rd a))) a fs
  | none => s

/-- RC fields of a VF view: EV_LOST, and the marks of this view on a 512-port variant. -/
def State.clearVf (s : State) (v off : Nat) : State :=
  if 0x200 ≤ off ∧ off < 0x400 ∧ off % 8 = 4 then
    match s.slotSess v ((off - 0x200) / 8) with
    | some q => s.clearWord (Adr.SESS q + 8)
    | none => s
  else if 0x400 ≤ off ∧ off < 0x800 ∧ off % 16 < 8 ∧ Variant.isSmall s.variant = false then
    match s.slotSess v ((off - 0x400) / 16) with
    | some q => s.onQueue q fun x =>
        let m := x.seen v
        { x with marks := SMap.insert x.marks v (if off % 16 = 0 then { m with depth := 0 } else { m with delay := 0 }) }
    | none => s
  else s

/-- An offset of 8 MiB or more of PF0's view lies past the register bridge, at a hub address nothing answers (R336, R364). -/
def pastBridge (addr : Nat) : Bool := decide (0x800000 ≤ addr ∧ addr < 0x1000000)

/-- The value a read of a view returns, where an RC field shows it without the events of its instant. -/
def State.viewSeen (s : State) (view addr : Nat) : Nat :=
  if view = 0 ∧ addr < bar4Base then s.readSeen addr else s.readView view addr

/-- A read of a word of a register view, with its side effects: RC fields clear for that view, low words latch; it crosses the register
bridge, and its completion is a TLP the device sends (R335, R344). -/
def State.readBar (s : State) (view addr : Nat) : State :=
  let t := { s with readData := s.viewSeen view addr }
  let t := if view = 0 then
      if s.answers addr then
        if addr = Adr.TIME_RD then timeRdRead 0 t
        else if decide (Adr.CAP 0 ≤ addr) && decide (addr < Adr.CAP 9) && addr % 0x20 == 0x14 then
          t.popCap ((addr - Adr.CAP 0) / 0x20)
        else (t.latchRead 0 addr).clearWord addr
      else t
    else if s.viewOn view then
      if addr = 0x100 then timeRdRead view t else (t.latchRead view addr).clearVf view addr
    else t
  let t := if bar4Base ≤ addr ∨ s.viewOn view = false then t else t.barAccess addr false
  if s.host.pcieUp then t.hubEvent 0x0C 1 else t

/-- A read of a word: of configuration space, or of a BAR. -/
def readOne (view addr : Nat) (s : State) : State :=
  if cfgBase ≤ addr then
    if s.cfgReached view then (s.cfgRead view (addr - cfgBase)).hubEvent 0x0C 1 else s
  else s.readBar view addr

/-- RC_READ: a read of one word; a longer one reads successive words in ascending offset, and a narrower one returns the bytes asked for
and has every side effect of a read of its word (R368). What is read stands in `readData`, the lowest byte lowest. -/
def rcRead (view : Nat) (a : RdIn) (s : State) : State :=
  if a.len < 4 then
    let t := readOne view (a.addr / 4 * 4) s
    { t with readData := t.readData / 2 ^ (8 * (a.addr % 4)) % 2 ^ (8 * a.len) }
  else
    (List.range (a.len / 4 - 1)).foldl (fun t k =>
      let u := readOne view (a.addr + 4 * (k + 1)) t
      { u with readData := t.readData + u.readData * 2 ^ (32 * (k + 1)) }) (readOne view a.addr s)

def execRcRead (view : Nat) (a : RdIn) (s : State) : Host.Outcome State Fault Refusal := .next (rcRead view a s)

/-- COUNTER_LOW_READ: the low word of a counter, which latches its upper word for the view. -/
def counterLowRead (view addr : Nat) (s : State) : State :=
  let s := { s with readData := s.readView view addr }
  if (view == 0 && s.answers addr) || (view != 0 && s.viewOn view) then s.latchRead view addr else s

def execCounterLowRead (view addr : Nat) (s : State) : Host.Outcome State Fault Refusal := .next (counterLowRead view addr s)

/-! ## Writes -/

/-- CLR of the counter whose block holds `addr` (R343). -/
def clr (addr : Nat) (s : State) : State :=
  if s.answers addr = false then s
  else if decide (Adr.PERF_HC 0 ≤ addr) && decide (addr < Adr.PERF_HC 8) then
    let b := Adr.PERF_HC ((addr - Adr.PERF_HC 0) / 16)
    (s.putPair b Fl.PERF_HC_VAL_LO Fl.PERF_HC_VAL_HI 0).putFlag b Fl.PERF_HC_SAT false
  else if 0x400000 ≤ addr ∧ 0x1A0 ≤ addr % 0x4000 ∧ addr % 0x4000 < 0x1A8 then
    let c := combOfAdr addr
    let x := s.engOf c
    s.setEng c { x with steps := 0, sat := false }
  else if 0x400000 ≤ addr ∧ 0x1B0 ≤ addr % 0x4000 ∧ addr % 0x4000 < 0x1D0 then
    let b := Adr.PC (combOfAdr addr) ((addr % 0x4000 - 0x1B0) / 8)
    (s.put b Fl.PC_VAL 0).putFlag b Fl.PC_SAT false
  else s

def execClr (addr : Nat) (s : State) : Host.Outcome State Fault Refusal := .next (clr addr s)

/-- Word `o` of a domain's registers: writes that R155 ignores while SRC is not HOST; the words that act have rows. -/
def State.writeDomain (s : State) (d : Dom) (o : Nat) (v : Word) : State :=
  let b := tdAdr d
  if o = 0x10 then incHi d .host v s
  else if o = 0x1C then adjTicks d .host v s
  else if o = 0x2C then setGo d .host v s
  else if o = 0x30 then tqState d .host v s
  else if o = 0x34 then s.store (b + o) v
  else if o = 0x38 then
    (s.store (b + o) v).onDom d fun x => { x with maxOfs := max x.maxOfs (signed 32 v.toNat).natAbs }
  else if s.mayWrite d .host then s.store (b + o) v else s

/-- Word 0 of a queue's registers: SHARE is clamped, and setting SH_EN fills the bucket at the next refill (R192, R196). -/
def State.writeQueue (s : State) (q : Nat) (v : Word) : State :=
  let b := Adr.QW q
  let share := s.get b Fl.QW_SHARE
  let was := s.flag b Fl.QW_SH_EN
  let s := ((s.store b v).put b Fl.QW_SHARE share).writeShare q (getBits v 8 14)
  if s.flag b Fl.QW_SH_EN && !was then s.onQueue q fun x => { x with fill := true } else s

/-- The taps in force of a Haldod transmitter (R290). -/
def mainTap (pre post : Nat) : Nat :=
  let p := min 12 pre
  64 - p - min (min 24 post) (28 - p)

/-- A write of lane `n`'s taps: MAIN, the tap in force, changes at the lane's next alignment marker. Markers come every 24,030 ticks, on
the same block slot of all lanes, in a phase that nothing gives (a free value). -/
def State.writeTaps (s : State) (n : Nat) (v : Word) : State :=
  let b := Adr.HLD_LANE n
  let s := s.store (b + 0xC) v
  let main := mainTap (s.get b Fl.HLD_LANE_PRE) (s.get b Fl.HLD_LANE_POST)
  let r := match s.pair.taps.head? with
    | some x => (x.2.1, s)
    | none => (s.draw.2.tick + 1 + s.draw.1 % 24030, s.draw.2)
  r.2.setPair { r.2.pair with taps := (r.2.pair.taps.filter fun x => x.1 != n) ++ [(n, r.1, main)] }

/-- The W1C flags of LANE_STAT; `old` are those that stood before this instant, and a flag set in it stays (R370). -/
def Lane.clearFlags (x : Lane) (v : Word) (old : List Bool) : Lane :=
  let keep := fun (now : Bool) k => now && !(bitSet v (12 + k) && old.getD k false)
  { x with feTrip := keep x.feTrip 0, ovrTrip := keep x.ovrTrip 1, lowsig := keep x.lowsig 2, stale := keep x.stale 3 }

/-- The W1C flags of lane `e` before this instant. -/
def State.oldFlags (s : State) (e : Nat) : List Bool :=
  match s.host.before with
  | some b => (SMap.find ([], 0, 0) b.lanes e).1
  | none => [true, true, true, true]

/-- A write in a comb window. -/
def State.writeComb (s : State) (a : Nat) (v : Word) : State :=
  let o := a % 0x4000
  let c := combOfAdr a
  let s := if paramWord a then s.paramWrite c true [a] else s
  if o = 0x44 then refSel c v s
  else if 0x1000 ≤ o ∧ o < 0x3000 ∧ a % 0x80 = 0x20 then
    let e := 64 * c + (o - 0x1000) / 0x80
    s.onLane e fun x => x.clearFlags v (s.oldFlags e)
  else
    let s := s.store a v
    let s := if o = 0x80 then s.onComb c fun x => { x with periodSet := true } else s
    if (o = 0x1A4 ∧ bitSet v 17) ∨ (0x1B0 ≤ o ∧ o < 0x1D0 ∧ o % 8 = 0 ∧ bitSet v 8) then clr a s else s

/-- A write in the window of input `p`: EN and RATE of SRX_CFG have rows of their own. -/
def State.writePort (s : State) (a : Nat) (v : Word) : State :=
  let p := (a - 0x200000) / 0x200
  let o := a % 0x200
  if o = 0 then
    let keep := (s.rd a).toNat % 8
    let s := s.store a (setBits v 0 3 keep)
    if bitSet v 31 then srxApply p s else s
  else
    let s := s.store a v
    if o = 0x40 ∧ bitSet v 31 then polApply p s else s

/-- A write of a hub register with an effect beyond what it stores. -/
def State.writeHub (s : State) (a : Nat) (v : Word) : State :=
  if a = Adr.PILOT_CTL then s.writePilot v
  else if a = Adr.DRV_CTL then driveEn v s
  else if a = Adr.PLAN_CFG then (s.store a v).refreshGo
  else if a = Adr.TIME_CTL then
    let s := s.store a v
    let s := if bitSet v 1 then swReq s else s
    if bitSet v 4 then snap s else s
  else if decide (tdAdr .A ≤ a) && decide (a < tdAdr .A + 0x40) then s.writeDomain .A (a - tdAdr .A) v
  else if decide (tdAdr .B ≤ a) && decide (a < tdAdr .B + 0x40) then s.writeDomain .B (a - tdAdr .B) v
  else if decide (Adr.CMP 0 ≤ a) && decide (a < Adr.CMP 24) then s
  else if decide (Adr.CMP 24 ≤ a) && decide (a < Adr.CMP 32) && a % 0x20 == 0 then cmpEn ((a - Adr.CMP 0) / 0x20) v s
  else if decide (Adr.QW 0 ≤ a) && decide (a < Adr.QW 4096) && a % 0x40 == 0 then s.writeQueue ((a - Adr.QW 0) / 0x40) v
  else if a = Adr.PAIR_CFG then (s.store a v).judgeTakeover
  else if a = Adr.SAFE_CFG then (s.store a v).sendSafeCfg (s.rd a)
  else if decide (Adr.HLD_LANE 0 ≤ a) && decide (a < Adr.HLD_LANE 4) && a % 0x20 == 4 then txPat ((a - Adr.HLD_LANE 0) / 0x20) v s
  else if decide (Adr.HLD_LANE 0 ≤ a) && decide (a < Adr.HLD_LANE 4) && a % 0x20 == 0xC then
    s.writeTaps ((a - Adr.HLD_LANE 0) / 0x20) v
  else if a = Adr.FLT_REL then
    let s := s.store a v
    if bitSet v 15 = false then s
    else if bitSet v 14 then fltRelComb (getBits v 0 8) s else fltRelLane (getBits v 0 8) (getBits v 8 6) s
  else if a = Adr.FLT_INJ then (if bitSet v 13 then fltInjArm v s else s.store a v)
  else if decide (Adr.PERF_HC 0 ≤ a) && decide (a < Adr.PERF_HC 8) && a % 16 == 0 then
    let s := s.store a v
    if bitSet v 11 then clr a s else s
  else s.store a v

/-- A write in a VF view: its open window and the W1C flags of its sessions; every other offset ignores it. -/
def State.writeVf (s : State) (v off : Nat) (w : Word) : State :=
  if s.viewOn v = false then s
  else if 0x80 ≤ off ∧ off < 0xC0 then s.wr (vfAdr v off) w
  else if off = 0xC0 then s.wr (vfAdr v off) (s.rd (vfAdr v off) &&& ~~~(s.clears (vfAdr v off) w &&& 12))
  else if 0x200 ≤ off ∧ off < 0x400 ∧ off % 8 = 0 ∧ bitSet w 5 then
    match s.slotSess v ((off - 0x200) / 8) with
    | some q => if bitSet (s.clears (Adr.SESS q) 0xFFFFFFFF) Fl.SESS_DB_ERR.lo then s.putFlag (Adr.SESS q) Fl.SESS_DB_ERR false else s
    | none => s
  else s

/-- A write of a word of PF0's register view or of a VF's, past its way through the register bridge. -/
def State.writeBar (s : State) (addr : Nat) (v : Word) : State :=
  if 0x1000000 ≤ addr then s.writeVf (addr / 0x1000000) (addr % 0x1000000) v
  else if s.answers addr = false then s
  else if 0x400000 ≤ addr then s.writeComb addr v
  else if 0x200000 ≤ addr then s.writePort addr v
  else s.writeHub addr v

/-- A write of a word: of the privileged view at `addr`, of VFn's view at 0x1000000 × n + its offset, of BAR4 of function n at
2³² + 0x1000000 × n + its offset, or of its configuration space at 2³³ + 0x1000000 × n + its offset. -/
def writeOne (addr : Nat) (v : Word) (s : State) : State :=
  if cfgBase ≤ addr then s.cfgWrite ((addr - cfgBase) / 0x1000000) ((addr - cfgBase) % 0x1000000) v
  else if bar4Base ≤ addr then
    let fn := (addr - bar4Base) / 0x1000000
    if s.viewOn fn then s.writeMsix fn ((addr - bar4Base) % 0x1000000) v else s
  else if s.viewOn (addr / 0x1000000) then (s.barAccess (addr % 0x1000000) true).writeBar addr v else s

/-- REGISTER_WRITE: a write of one word, or of successive words in ascending offset; one whose byte enables are not all set is ignored
(R368). -/
def registerWrite (addr : Nat) (v : WrIn) (s : State) : State :=
  if v.full then v.words.zipIdx.foldl (fun s w => writeOne (addr + 4 * w.2) w.1 s) s else s

def execRegisterWrite (addr : Nat) (v : WrIn) (s : State) : Host.Outcome State Fault Refusal := .next (registerWrite addr v s)

end Sys2Proof.Machine
end

