-- ==== Sys2Proof/Machine/Dispatch.lean ====
section
/-! DEFINITION. exec: one arm per command, each arm one direct call of the command's meaning. -/

namespace Sys2Proof.Machine

def exec (i : Instr) (s : State) : Host.Outcome State Fault Refusal :=
  match i with
  | .sessionOpen src => Sys2Proof.Machine.execSessionOpen src s
  | .sessionClose q => Sys2Proof.Machine.execSessionClose q s
  | .sessionInfo q => Sys2Proof.Machine.execSessionInfo q s
  | .rekey q => Sys2Proof.Machine.execRekey q s
  | .sessionGrant q => Sys2Proof.Machine.execSessionGrant q s
  | .vfGrant q => Sys2Proof.Machine.execVfGrant q s
  | .netCfg q => Sys2Proof.Machine.execNetCfg q s
  | .planCompile q => Sys2Proof.Machine.execPlanCompile q s
  | .planFree q => Sys2Proof.Machine.execPlanFree q s
  | .planCommit q => Sys2Proof.Machine.execPlanCommit q s
  | .planArm q => Sys2Proof.Machine.execPlanArm q s
  | .planPark q => Sys2Proof.Machine.execPlanPark q s
  | .planRead q => Sys2Proof.Machine.execPlanRead q s
  | .outRead q => Sys2Proof.Machine.execOutRead q s
  | .schedLoad q => Sys2Proof.Machine.execSchedLoad q s
  | .schedStop q => Sys2Proof.Machine.execSchedStop q s
  | .schedRead q => Sys2Proof.Machine.execSchedRead q s
  | .loopPeriod q => Sys2Proof.Machine.execLoopPeriod q s
  | .calRun q => Sys2Proof.Machine.execCalRun q s
  | .calApply q => Sys2Proof.Machine.execCalApply q s
  | .calSave q => Sys2Proof.Machine.execCalSave q s
  | .calRestore q => Sys2Proof.Machine.execCalRestore q s
  | .digestKey q => Sys2Proof.Machine.execDigestKey q s
  | .queueStat q => Sys2Proof.Machine.execQueueStat q s
  | .exportFlush q => Sys2Proof.Machine.execExportFlush q s
  | .ptpCfg q => Sys2Proof.Machine.execPtpCfg q s
  | .ptpStats q => Sys2Proof.Machine.execPtpStats q s
  | .ledgerRead q => Sys2Proof.Machine.execLedgerRead q s
  | .ledgerCheckpoint q => Sys2Proof.Machine.execLedgerCheckpoint q s
  | .attest q => Sys2Proof.Machine.execAttest q s
  | .identity q => Sys2Proof.Machine.execIdentity q s
  | .ownerEnrol q => Sys2Proof.Machine.execOwnerEnrol q s
  | .pairEnrol q => Sys2Proof.Machine.execPairEnrol q s
  | .pairStatus q => Sys2Proof.Machine.execPairStatus q s
  | .pairHealth q => Sys2Proof.Machine.execPairHealth q s
  | .pairSolo q => Sys2Proof.Machine.execPairSolo q s
  | .combRestart x => Sys2Proof.Machine.execCombRestart x s
  | .warmReset q => Sys2Proof.Machine.execWarmReset q s
  | .imageWrite q => Sys2Proof.Machine.execImageWrite q s
  | .imageInfo q => Sys2Proof.Machine.execImageInfo q s
  | .commandFetch q f => Sys2Proof.Machine.execCommandFetch q f s
  | .sessionClosed q => Sys2Proof.Machine.execSessionClosed q s
  | .go view mem => Sys2Proof.Machine.execGo view mem s
  | .cmdTail d v => Sys2Proof.Machine.execCmdTail d v s
  | .cplHead d v => Sys2Proof.Machine.execCplHead d v s
  | .evtHead d v => Sys2Proof.Machine.execEvtHead d v s
  | .recHead d v => Sys2Proof.Machine.execRecHead d v s
  | .msixModerationEnd q ring => Sys2Proof.Machine.execMsixModerationEnd q ring s
  | .functionLevelReset fn => Sys2Proof.Machine.execFunctionLevelReset fn s
  | .vfRemoval numVfs => Sys2Proof.Machine.execVfRemoval numVfs s
  | .hello h => Sys2Proof.Machine.execHello h s
  | .cmd d => Sys2Proof.Machine.execCmd d s
  | .bulkW d => Sys2Proof.Machine.execBulkW d s
  | .bulkR d => Sys2Proof.Machine.execBulkR d s
  | .keepalive d => Sys2Proof.Machine.execKeepalive d s
  | .closeDatagram d => Sys2Proof.Machine.execCloseDatagram d s
  | .idleTimeout q => Sys2Proof.Machine.execIdleTimeout q s
  | .breakStrobe => Sys2Proof.Machine.execBreakStrobe s
  | .moveStart => Sys2Proof.Machine.execMoveStart s
  | .profileStep => Sys2Proof.Machine.execProfileStep s
  | .moveEnd => Sys2Proof.Machine.execMoveEnd s
  | .make => Sys2Proof.Machine.execMake s
  | .goOkReenable => Sys2Proof.Machine.execGoOkReenable s
  | .outputPark => Sys2Proof.Machine.execOutputPark s
  | .outputUnpark => Sys2Proof.Machine.execOutputUnpark s
  | .schedStepArm => Sys2Proof.Machine.execSchedStepArm s
  | .schedDone => Sys2Proof.Machine.execSchedDone s
  | .cspGo => Sys2Proof.Machine.execCspGo s
  | .goAbandoned => Sys2Proof.Machine.execGoAbandoned s
  | .readOut addr => Sys2Proof.Machine.execReadOut addr s
  | .readDev p => Sys2Proof.Machine.execReadDev p s
  | .cspPublication => Sys2Proof.Machine.execCspPublication s
  | .periodBoundary c => Sys2Proof.Machine.execPeriodBoundary c s
  | .prologue t => Sys2Proof.Machine.execPrologue t s
  | .iter t => Sys2Proof.Machine.execIter t s
  | .postMove t => Sys2Proof.Machine.execPostMove t s
  | .cmdRoutine t => Sys2Proof.Machine.execCmdRoutine t s
  | .calAcc t => Sys2Proof.Machine.execCalAcc t s
  | .calFit c l n => Sys2Proof.Machine.execCalFit c l n s
  | .sadc c m => Sys2Proof.Machine.execSadc c m s
  | .fullGroupSettle => Sys2Proof.Machine.execFullGroupSettle s
  | .mcRecovery c readbackOk => Sys2Proof.Machine.execMcRecovery c readbackOk s
  | .senseConversion c adcB p => Sys2Proof.Machine.execSenseConversion c adcB p s
  | .housekeepingScan vals => Sys2Proof.Machine.execHousekeepingScan vals s
  | .holdLimit c l => Sys2Proof.Machine.execHoldLimit c l s
  | .refSettled c => Sys2Proof.Machine.execRefSettled c s
  | .refSel c v => Sys2Proof.Machine.execRefSel c v s
  | .pilotLost p => Sys2Proof.Machine.execPilotLost p s
  | .switchWindowEnd => Sys2Proof.Machine.execSwitchWindowEnd s
  | .pilotOk p => Sys2Proof.Machine.execPilotOk p s
  | .pilotSwitch => Sys2Proof.Machine.execPilotSwitch s
  | .recapture => Sys2Proof.Machine.execRecapture s
  | .pilotRefCapture pwrA pwrB => Sys2Proof.Machine.execPilotRefCapture pwrA pwrB s
  | .pilotMode v => Sys2Proof.Machine.execPilotMode v s
  | .powerMonitorWindow p code => Sys2Proof.Machine.execPowerMonitorWindow p code s
  | .driveEn v => Sys2Proof.Machine.execDriveEn v s
  | .enableRampEnd => Sys2Proof.Machine.execEnableRampEnd s
  | .drvPgLoss => Sys2Proof.Machine.execDrvPgLoss s
  | .drvPgReturn => Sys2Proof.Machine.execDrvPgReturn s
  | .drvClrNAssert => Sys2Proof.Machine.execDrvClrNAssert s
  | .drvClrNRelease => Sys2Proof.Machine.execDrvClrNRelease s
  | .incHi d w v => Sys2Proof.Machine.execIncHi d w v s
  | .adjTicks d w v => Sys2Proof.Machine.execAdjTicks d w v s
  | .setGo d w v => Sys2Proof.Machine.execSetGo d w v s
  | .tqState d w v => Sys2Proof.Machine.execTqState d w v s
  | .snap => Sys2Proof.Machine.execSnap s
  | .timeRdRead view => Sys2Proof.Machine.execTimeRdRead view s
  | .swReq => Sys2Proof.Machine.execSwReq s
  | .domainSwitch => Sys2Proof.Machine.execDomainSwitch s
  | .tqWdExpiry d => Sys2Proof.Machine.execTqWdExpiry d s
  | .holdMaxExpiry d => Sys2Proof.Machine.execHoldMaxExpiry d s
  | .timeMinute => Sys2Proof.Machine.execTimeMinute s
  | .anchor => Sys2Proof.Machine.execAnchor s
  | .ptpMessage d m => Sys2Proof.Machine.execPtpMessage d m s
  | .ppsEdge inB sub => Sys2Proof.Machine.execPpsEdge inB sub s
  | .todLine inB line => Sys2Proof.Machine.execTodLine inB line s
  | .tsInCapture n rising sub => Sys2Proof.Machine.execTsInCapture n rising sub s
  | .capturePop n => Sys2Proof.Machine.execCapturePop n s
  | .cmpEn n v => Sys2Proof.Machine.execCmpEn n v s
  | .cmpFired n => Sys2Proof.Machine.execCmpFired n s
  | .tsOutPulseEnd n => Sys2Proof.Machine.execTsOutPulseEnd n s
  | .refclkLoss => Sys2Proof.Machine.execRefclkLoss s
  | .refclkRelock => Sys2Proof.Machine.execRefclkRelock s
  | .blockLockGained p delta => Sys2Proof.Machine.execBlockLockGained p delta s
  | .blockLockLost p delta bytes len => Sys2Proof.Machine.execBlockLockLost p delta bytes len s
  | .autoRateTry p => Sys2Proof.Machine.execAutoRateTry p s
  | .frameStart p lane4 delta bytes len => Sys2Proof.Machine.execFrameStart p lane4 delta bytes len s
  | .frameEnd p bytes len how delta => Sys2Proof.Machine.execFrameEnd p bytes len how delta s
  | .srxEn p v => Sys2Proof.Machine.execSrxEn p v s
  | .srxRate p v bytes len => Sys2Proof.Machine.execSrxRate p v bytes len s
  | .srxApply p => Sys2Proof.Machine.execSrxApply p s
  | .tileLinkTransfer t => Sys2Proof.Machine.execTileLinkTransfer t s
  | .recordHandoff t => Sys2Proof.Machine.execRecordHandoff t s
  | .recordAgeDrop t => Sys2Proof.Machine.execRecordAgeDrop t s
  | .lossRecord point p => Sys2Proof.Machine.execLossRecord point p s
  | .queueLossRecord q => Sys2Proof.Machine.execQueueLossRecord q s
  | .summary p => Sys2Proof.Machine.execSummary p s
  | .polApply p => Sys2Proof.Machine.execPolApply p s
  | .channelSend ch => Sys2Proof.Machine.execChannelSend ch s
  | .shaperRefill => Sys2Proof.Machine.execShaperRefill s
  | .fcSlot ch => Sys2Proof.Machine.execFcSlot ch s
  | .datagramFlush q => Sys2Proof.Machine.execDatagramFlush q s
  | .qDepthSample => Sys2Proof.Machine.execQDepthSample s
  | .checkpoint => Sys2Proof.Machine.execCheckpoint s
  | .porNAssert => Sys2Proof.Machine.execPorNAssert s
  | .porNRelease b => Sys2Proof.Machine.execPorNRelease b s
  | .driveEnableAtBoot => Sys2Proof.Machine.execDriveEnableAtBoot s
  | .ready => Sys2Proof.Machine.execReady s
  | .sysRstNAssert => Sys2Proof.Machine.execSysRstNAssert s
  | .sysRstNRelease b => Sys2Proof.Machine.execSysRstNRelease b s
  | .perstN => Sys2Proof.Machine.execPerstN s
  | .supplyFault rail => Sys2Proof.Machine.execSupplyFault rail s
  | .vddAonAbsent => Sys2Proof.Machine.execVddAonAbsent s
  | .faultRepeat n => Sys2Proof.Machine.execFaultRepeat n s
  | .gwqWd => Sys2Proof.Machine.execGwqWd s
  | .jtagTest => Sys2Proof.Machine.execJtagTest s
  | .fltRelLane c l => Sys2Proof.Machine.execFltRelLane c l s
  | .fltRelComb c => Sys2Proof.Machine.execFltRelComb c s
  | .fltInjArm v => Sys2Proof.Machine.execFltInjArm v s
  | .thermalConversion temps => Sys2Proof.Machine.execThermalConversion temps s
  | .cooledRestart b => Sys2Proof.Machine.execCooledRestart b s
  | .estopNDemand => Sys2Proof.Machine.execEstopNDemand s
  | .estopNRelease => Sys2Proof.Machine.execEstopNRelease s
  | .guardNDemand n => Sys2Proof.Machine.execGuardNDemand n s
  | .guardNRelease n => Sys2Proof.Machine.execGuardNRelease n s
  | .testPulse passed => Sys2Proof.Machine.execTestPulse passed s
  | .kfbTimeout => Sys2Proof.Machine.execKfbTimeout s
  | .kfbUnexpected n high => Sys2Proof.Machine.execKfbUnexpected n high s
  | .soReadback => Sys2Proof.Machine.execSoReadback s
  | .internalFault => Sys2Proof.Machine.execInternalFault s
  | .deliberateReset lowMs inputs readbackOk selfOk => Sys2Proof.Machine.execDeliberateReset lowMs inputs readbackOk selfOk s
  | .aliveInSilent => Sys2Proof.Machine.execAliveInSilent s
  | .aliveInEdge => Sys2Proof.Machine.execAliveInEdge s
  | .ownInChange level => Sys2Proof.Machine.execOwnInChange level s
  | .swarm => Sys2Proof.Machine.execSwarm s
  | .tieRelease => Sys2Proof.Machine.execTieRelease s
  | .posConflict => Sys2Proof.Machine.execPosConflict s
  | .startAlone => Sys2Proof.Machine.execStartAlone s
  | .linkUp => Sys2Proof.Machine.execLinkUp s
  | .linkDown d => Sys2Proof.Machine.execLinkDown d s
  | .waggleTimeout => Sys2Proof.Machine.execWaggleTimeout s
  | .waggleSend => Sys2Proof.Machine.execWaggleSend s
  | .waggle w => Sys2Proof.Machine.execWaggle w s
  | .haldodHello nonce tag id => Sys2Proof.Machine.execHaldodHello nonce tag id s
  | .mirror m => Sys2Proof.Machine.execMirror m s
  | .ack x tAck tMake => Sys2Proof.Machine.execAck x tAck tMake s
  | .nak x cause => Sys2Proof.Machine.execNak x cause s
  | .pairNoAck => Sys2Proof.Machine.execPairNoAck s
  | .voidTxn x => Sys2Proof.Machine.execVoidTxn x s
  | .stagedEffect => Sys2Proof.Machine.execStagedEffect s
  | .digestSend => Sys2Proof.Machine.execDigestSend s
  | .digestIn d => Sys2Proof.Machine.execDigestIn d s
  | .digestMiss => Sys2Proof.Machine.execDigestMiss s
  | .positions p => Sys2Proof.Machine.execPositions p s
  | .periodicMirrorSend => Sys2Proof.Machine.execPeriodicMirrorSend s
  | .healthReq h => Sys2Proof.Machine.execHealthReq h s
  | .health h rest => Sys2Proof.Machine.execHealth h rest s
  | .enrolOffer key sig variantOk => Sys2Proof.Machine.execEnrolOffer key sig variantOk s
  | .enrolTimeout => Sys2Proof.Machine.execEnrolTimeout s
  | .stale => Sys2Proof.Machine.execStale s
  | .resumeWinExpiry => Sys2Proof.Machine.execResumeWinExpiry s
  | .txPat n v => Sys2Proof.Machine.execTxPat n v s
  | .clr addr => Sys2Proof.Machine.execClr addr s
  | .counterLowRead view addr => Sys2Proof.Machine.execCounterLowRead view addr s
  | .registerWrite addr v => Sys2Proof.Machine.execRegisterWrite addr v s
  | .spineTick => Sys2Proof.Machine.execSpineTick s
  | .compileCompletion => Sys2Proof.Machine.execCompileCompletion s
  | .warmResetComplete => Sys2Proof.Machine.execWarmResetComplete s
  | .sourceLost d => Sys2Proof.Machine.execSourceLost d s
  | .busMasterEnable fn on => Sys2Proof.Machine.execBusMasterEnable fn on s
  | .vfEnable numVfs => Sys2Proof.Machine.execVfEnable numVfs s
  | .perstNRelease => Sys2Proof.Machine.execPerstNRelease s
  | .checkerLock c => Sys2Proof.Machine.execCheckerLock c s
  | .rcRead view addr => Sys2Proof.Machine.execRcRead view addr s

end Sys2Proof.Machine
end

