-- ==== Sys2Proof/Safety.lean ====
section
/-! DEFINITION. What every state of the module should satisfy, in the terms claims use: the register file in its one
canonical form, the tables of lanes, combs and outputs likewise, and the ledger ring as the hash chain of spec/14_secrecy_and_ledger.md R275. -/

namespace Sys2Proof.Machine

/-- Entry `b` stands rightly behind entry `a` in the ring: it opens the chain of a start (GENESIS 0x0001, RESUME 0x0002), or it
has the next SEQ and PREV is the SHA-384 digest of the 128 bytes of `a` (R274, R275). -/
def LEntry.follows (a b : LEntry) : Prop := b.ty = 0x0001 ∨ b.ty = 0x0002 ∨ (b.seq = a.seq + 1 ∧ b.prev = sha384 a.bytes)

/-- Every entry of a list stands rightly behind the one before it. -/
def chained : List LEntry → Prop
  | [] => True
  | [_] => True
  | a :: b :: rest => a.follows b ∧ chained (b :: rest)

/-- The entries the ring holds are chained, and `last` is the newest of them. -/
def Ledger.ok (l : Ledger) : Prop := chained l.entries ∧ (l.entries = [] ∨ l.entries.getLast? = l.last)

/-- The register file lists rising addresses, and no word that equals its reset value. -/
def State.regsWf (s : State) : Bool := SMap.wf (resetWord s.variant) s.regs

/-- The tables of lanes, combs and outputs list rising numbers, and nothing that equals what an unlisted one is. -/
def Ctl.tablesWf (x : Ctl) : Bool :=
  SMap.wf (fun _ => {}) x.lanes && SMap.wf (fun _ => {}) x.combs && SMap.wf (fun _ => {}) x.outs

/-- The keys of a table rise strictly. -/
def SMap.rising {α : Type} (m : SMap α) : Bool := decide ((m.map Prod.fst).Pairwise (· < ·))

/-- The tables of ports and tiles of the stamping and export path likewise, and the numbers of its queues rise. -/
def ExportEng.tablesWf (x : ExportEng) : Bool :=
  SMap.wf (fun _ => {}) x.srx && SMap.wf (fun _ => {}) x.tiles && SMap.rising x.queues

/-- From `s` to `t` the command that session `q` had taken completed with `status` and `result` (R214 to R216): it has left the
session, and an OPEN session (they are numbered 0 to 4095) whose DMA is allowed and does not fail holds its completion behind the
completions it held. -/
def Completed (s t : State) (q status : Nat) (result : List Byte) : Prop :=
  ∃ x y k, s.sess? q = some x ∧ x.taken = some k ∧ t.sess? q = some y ∧ y.taken = none ∧
    (q < 4096 → s.sessState q = 2 → s.dmaOk q = true → s.wrFails q = false →
      y.cpl = x.cpl ++ [completionBytes k.tag status k.op k.index s.ns32 result] ∧ y.cplTail = (x.cplTail + 1) % 2 ^ 32)

/-- Session `q` has taken the command `t` of opcode `op` and its row runs: nothing holds it, no warm reset waits for the commands
taken, and working SRAM holds it with good check bits. -/
abbrev State.runs (s : State) (q op : Nat) (t : Taken) : Prop :=
  s.taken? q op = some t ∧ s.boot.warmDue = false ∧ s.checkBad 0xA0 q = false ∧ s.checkBad 0xA2 q = false

/-- The ring takes an entry of its own: no recovery, and free space beyond what closes and parks hold back for an OVERFLOW and the
entry (R278, R358). -/
abbrev State.ringRoom (s : State) : Prop := s.boot.recovery = false ∧ s.heldBack + 2 ≤ s.ledgerFree

/-- A frame of a kind from the partner that counts: frames are heard, its tag holds and its FSEQ is not behind (R288). -/
abbrev State.takesFrame (s : State) (kind : Nat) (f : FrameIn) (body : List Byte) : Prop :=
  s.hears = true ∧ s.tagOk kind f body = true ∧ s.pair.fseqRx ≤ f.fseq

/-- Frames, each with its body, of which every one counts. -/
def State.takesFrames (s : State) (kind : Nat) : List (FrameIn × List Byte) → Prop
  | [] => True
  | x :: rest => s.takesFrame kind x.1 x.2 ∧ (s.tookFrame x.1).takesFrames kind rest

/-- The state once the FSEQ of every frame is taken. -/
def State.tookFrames (s : State) (xs : List (FrameIn × List Byte)) : State := xs.foldl (fun s x => s.tookFrame x.1) s

/-- The newest entry of the ledger ring is one of type `ty` for session `q`, written over what the ring held in `s`. -/
def Logged (s t : State) (ty q : Nat) : Prop :=
  ∃ e, t.led.entries.getLast? = some e ∧ e.ty = ty ∧ e.q = q ∧ s.led.entries.length < t.led.entries.length

/-- From `s` to `t`, an edge `k` sixteenths into the tick entered capture unit `n`: TICK and both domains behind the entries that
wait, or OVF counted where four wait (R164). -/
def EdgeCaptured (s t : State) (n k : Nat) : Prop :=
  let a := s.time.a.sub k
  let b := s.time.b.sub k
  if (s.caps n).length < 4 then
    t.caps n = s.caps n ++ [{ tick := s.tick, ns32A := a.ns32, ns32B := b.ns32, frac8A := a.frac8, frac8B := b.frac8 }]
  else t.caps n = s.caps n ∧ t.get (Adr.CAP n) Fl.CAP_OVF = min 255 (s.get (Adr.CAP n) Fl.CAP_OVF + 1)

/-- `n` steps of the routine of vector `vec` for lane `l` from the engine as it stands, up to a COMMIT (R137, R138). -/
def State.toCommit (s : State) (c vec l n : Nat) : Engine :=
  let r := s.runAt c vec l
  Engine.run (s.menv c r) (Engine.pauses false) n r.eng

/-- The engine of comb `c` is free to start the routine of vector `vec` for lane `l`, and its `n`-th step is its one COMMIT, which
writes nothing beside the routine's work (R137, R138). -/
def State.starts (s : State) (c vec l n : Nat) : Prop :=
  let m := s.toCommit c vec l n
  (s.comb c).run = none ∧ s.mayRun c vec = true ∧ m.hit = true ∧ m.final = true ∧ m.out = [] ∧ m.check = none ∧ m.steps = n

/-- The engine of comb `c` is free to start that routine, and `n` steps leave it in progress short of its COMMIT. -/
def State.onTheWay (s : State) (c vec l n : Nat) : Prop :=
  let m := s.toCommit c vec l n
  (s.comb c).run = none ∧ s.mayRun c vec = true ∧ m.hit = false ∧ m.check = none ∧ m.done = false

/-- The invariant of the module. -/
def State.Inv (s : State) : Prop := s.regsWf = true ∧ s.led.ok ∧ s.ctl.tablesWf = true ∧ s.exp.tablesWf = true

end Sys2Proof.Machine
end

