-- ==== Sys2Proof/Laws/Ledger.lean ====
section
/-! SUPPORT. Laws of the ledger chain of spec/14_secrecy_and_ledger.md R275: entries appended and released. -/

namespace Sys2Proof.Machine

theorem chained_tail {a : LEntry} {l : List LEntry} (h : chained (a :: l)) : chained l := by
  cases l with
  | nil => trivial
  | cons b l => exact h.2

theorem chained_append {l : List LEntry} {e : LEntry} (h : chained l) (he : ∀ a, l.getLast? = some a → a.follows e) :
    chained (l ++ [e]) := by
  induction l with
  | nil => trivial
  | cons a l ih =>
    cases l with
    | nil => exact ⟨he a rfl, trivial⟩
    | cons b l => exact ⟨h.1, ih h.2 fun x hx => he x (by simpa using hx)⟩

/-- Entries in rising SEQ: what is left of a chain whose first entries are gone is a chain. -/
theorem chained_dropWhile {l : List LEntry} (p : LEntry → Bool) (h : chained l) : chained (l.dropWhile p) := by
  induction l with
  | nil => trivial
  | cons a l ih =>
    rw [List.dropWhile_cons]
    split
    · exact ih (chained_tail h)
    · exact h

/-- The ring with one more entry, rightly behind the last. -/
theorem Ledger.ok_append {l l' : Ledger} {e : LEntry} (h : l.ok) (he : ∀ a, l.last = some a → a.follows e)
    (hs : l'.entries = l.entries ++ [e]) (hl : l'.last = some e) : l'.ok := by
  constructor
  · rw [hs]
    refine chained_append h.1 fun a ha => he a ?_
    rcases h.2 with h0 | h0
    · rw [h0] at ha; cases ha
    · rw [← h0]; exact ha
  · right; rw [hs, hl]; simp

/-- Only the entries and the newest of them matter. -/
theorem Ledger.ok_congr {l l' : Ledger} (h : l.ok) (hs : l'.entries = l.entries) (hl : l'.last = l.last) : l'.ok := by
  unfold Ledger.ok at *; rw [hs, hl]; exact h

end Sys2Proof.Machine
end

