-- ==== Sys2Proof/Laws/SMap.lean ====
section
/-! SUPPORT. Laws of sparse tables: what a write changes and leaves, and that every write keeps the canonical form. -/

namespace Sys2Proof.Machine

variable {α : Type} [DecidableEq α]

/-- A table in canonical form above `lo` is one above anything lower. -/
theorem SMap.wfFrom_weaken {d : Nat → α} {m : SMap α} {lo hi : Option Nat} (h : SMap.wfFrom d hi m = true)
    (hle : ∀ a, (match hi with | none => true | some b => decide (b < a)) = true →
      (match lo with | none => true | some b => decide (b < a)) = true) :
    SMap.wfFrom d lo m = true := by
  cases m with
  | nil => rfl
  | cons e m =>
    obtain ⟨a, x⟩ := e
    simp only [SMap.wfFrom, Bool.and_eq_true] at h ⊢
    exact ⟨⟨hle a h.1.1, h.1.2⟩, h.2⟩

theorem SMap.wfFrom_lower {d : Nat → α} {m : SMap α} {a b : Nat} (h : SMap.wfFrom d (some b) m = true) (hab : a ≤ b) :
    SMap.wfFrom d (some a) m = true :=
  SMap.wfFrom_weaken h fun k hk => by simp at hk ⊢; omega

theorem SMap.wfFrom_none {d : Nat → α} {m : SMap α} {b : Nat} (h : SMap.wfFrom d (some b) m = true) :
    SMap.wfFrom d none m = true := SMap.wfFrom_weaken h fun _ _ => rfl

theorem SMap.erase_wfFrom {d : Nat → α} (k : Nat) (m : SMap α) (lo : Option Nat) (h : SMap.wfFrom d lo m = true) :
    SMap.wfFrom d lo (SMap.erase m k) = true := by
  induction m generalizing lo with
  | nil => rfl
  | cons e m ih =>
    obtain ⟨a, x⟩ := e
    simp only [SMap.erase]
    simp only [SMap.wfFrom, Bool.and_eq_true] at h
    split
    · cases lo with
      | none => exact SMap.wfFrom_none h.2
      | some b => exact SMap.wfFrom_lower h.2 (by have := h.1.1; simp at this; omega)
    · split
      · simp only [SMap.wfFrom, Bool.and_eq_true]; exact h
      · simp only [SMap.wfFrom, Bool.and_eq_true]; exact ⟨h.1, ih _ h.2⟩

theorem SMap.insert_wfFrom {d : Nat → α} (k : Nat) (v : α) (hv : v ≠ d k) (m : SMap α) (lo : Option Nat)
    (hk : (match lo with | none => true | some b => decide (b < k)) = true) (h : SMap.wfFrom d lo m = true) :
    SMap.wfFrom d lo (SMap.insert m k v) = true := by
  induction m generalizing lo with
  | nil => simp [SMap.insert, SMap.wfFrom, hv]; exact hk
  | cons e m ih =>
    obtain ⟨a, x⟩ := e
    simp only [SMap.insert]
    simp only [SMap.wfFrom, Bool.and_eq_true] at h
    split
    · subst_vars; simp only [SMap.wfFrom, Bool.and_eq_true]; exact ⟨⟨hk, by simp [hv]⟩, h.2⟩
    · split
      · rename_i _ hka
        simp only [SMap.wfFrom, Bool.and_eq_true]
        exact ⟨⟨hk, by simp [hv]⟩, ⟨by simpa using hka, h.1.2⟩, h.2⟩
      · rename_i hne hka
        simp only [SMap.wfFrom, Bool.and_eq_true]
        exact ⟨h.1, ih _ (by simp; omega) h.2⟩

/-- A write of a register table keeps its canonical form. -/
theorem SMap.put_wf {d : Nat → α} (k : Nat) (v : α) (m : SMap α) (h : SMap.wf d m = true) :
    SMap.wf d (SMap.put (d k) m k v) = true := by
  unfold SMap.put
  split
  · exact SMap.erase_wfFrom k m none h
  · rename_i hv; exact SMap.insert_wfFrom k v hv m none rfl h

/-- Entries removed, the rest stays in canonical form. -/
theorem SMap.filter_wfFrom {d : Nat → α} (p : Nat × α → Bool) (m : SMap α) (lo : Option Nat)
    (h : SMap.wfFrom d lo m = true) : SMap.wfFrom d lo (m.filter p) = true := by
  induction m generalizing lo with
  | nil => rfl
  | cons e m ih =>
    obtain ⟨a, x⟩ := e
    simp only [SMap.wfFrom, Bool.and_eq_true] at h
    rw [List.filter_cons]
    split
    · simp only [SMap.wfFrom, Bool.and_eq_true]; exact ⟨h.1, ih _ h.2⟩
    · have := ih _ h.2
      cases lo with
      | none => exact SMap.wfFrom_none this
      | some b => exact SMap.wfFrom_lower this (by have := h.1.1; simp at this; omega)

/-- Entries removed or given other values that an unlisted key does not read as. -/
theorem SMap.filterMap_wfFrom {d : Nat → α} (f : Nat × α → Option (Nat × α)) (m : SMap α) (lo : Option Nat)
    (hf : ∀ e e', e.2 ≠ d e.1 → f e = some e' → e'.1 = e.1 ∧ e'.2 ≠ d e.1) (h : SMap.wfFrom d lo m = true) :
    SMap.wfFrom d lo (m.filterMap f) = true := by
  induction m generalizing lo with
  | nil => rfl
  | cons e m ih =>
    obtain ⟨a, x⟩ := e
    simp only [SMap.wfFrom, Bool.and_eq_true] at h
    have hx : x ≠ d a := by simpa using h.1.2
    have hm := ih _ h.2
    cases hv : f (a, x) with
    | none =>
      rw [List.filterMap_cons_none hv]
      cases lo with
      | none => exact SMap.wfFrom_none hm
      | some b => exact SMap.wfFrom_lower hm (by have := h.1.1; simp at this; omega)
    | some e' =>
      obtain ⟨a', x'⟩ := e'
      rw [List.filterMap_cons_some hv]
      have h2 := hf (a, x) (a', x') hx hv
      simp only at h2
      obtain ⟨rfl, h3⟩ := h2
      simp only [SMap.wfFrom, Bool.and_eq_true]
      exact ⟨⟨h.1.1, by simpa using h3⟩, hm⟩

theorem SMap.drop_wf {d : Nat → α} (p : Nat → Bool) (m : SMap α) (h : SMap.wf d m = true) :
    SMap.wf d (SMap.drop p m) = true := SMap.filter_wfFrom _ m none h

/-! ## A function applied to a range of keys -/

theorem SMap.cons_wfFrom {d v : α} {k : Nat} {m : SMap α} {lo : Option Nat}
    (hk : (match lo with | none => true | some b => decide (b < k)) = true) (h : SMap.wfFrom (fun _ => d) (some k) m = true) :
    SMap.wfFrom (fun _ => d) lo (SMap.cons d k v m) = true := by
  unfold SMap.cons
  split
  · cases lo with
    | none => exact SMap.wfFrom_none h
    | some b => exact SMap.wfFrom_lower h (by simp at hk; omega)
  · rename_i hv
    simp only [SMap.wfFrom, Bool.and_eq_true]
    exact ⟨⟨hk, by simpa using hv⟩, h⟩

theorem SMap.mapFrom_wfFrom (d : α) (f : Nat → α → α) (n a : Nat) (m : SMap α) (lo : Option Nat)
    (hlo : (match lo with | none => true | some b => decide (b < a)) = true) (ha : ∀ e ∈ m, a ≤ e.1)
    (h : SMap.wfFrom (fun _ => d) lo m = true) : SMap.wfFrom (fun _ => d) lo (SMap.mapFrom d f n a m) = true := by
  induction n generalizing a m lo with
  | zero => exact h
  | succ n ih =>
    cases m with
    | nil => exact SMap.cons_wfFrom hlo (ih (a + 1) [] (some a) (by simp) (by simp) rfl)
    | cons e m =>
      obtain ⟨b, x⟩ := e
      have hb : a ≤ b := ha (b, x) (by simp)
      have hm := h
      simp only [SMap.wfFrom, Bool.and_eq_true] at hm
      have above : ∀ {k : Nat} {l : SMap α}, SMap.wfFrom (fun _ => d) (some k) l = true → ∀ e ∈ l, k < e.1 := by
        intro k l
        induction l generalizing k with
        | nil => intro _ e he; simp at he
        | cons y l ihl =>
          intro hl e he
          simp only [SMap.wfFrom, Bool.and_eq_true] at hl
          have h1 := hl.1.1
          simp at h1
          rcases List.mem_cons.mp he with rfl | he
          · exact h1
          · exact Nat.lt_trans h1 (ihl hl.2 e he)
      simp only [SMap.mapFrom]
      split
      · subst_vars
        refine SMap.cons_wfFrom hlo (ih (b + 1) m (some b) (by simp) (fun e he => above hm.2 e he) hm.2)
      · refine SMap.cons_wfFrom hlo (ih (a + 1) _ (some a) (by simp) ?_ ?_)
        · intro e he
          rcases List.mem_cons.mp he with rfl | he
          · simp; omega
          · have := above hm.2 e he; omega
        · simp only [SMap.wfFrom, Bool.and_eq_true]
          exact ⟨⟨by simp; omega, hm.1.2⟩, hm.2⟩

/-- A function applied to the keys from 0 on keeps the canonical form. -/
theorem SMap.mapFrom_wf (d : α) (f : Nat → α → α) (n : Nat) (m : SMap α) (h : SMap.wf (fun _ => d) m = true) :
    SMap.wf (fun _ => d) (SMap.mapFrom d f n 0 m) = true := SMap.mapFrom_wfFrom d f n 0 m none rfl (by simp) h

/-- A function applied to a range of keys keeps the canonical form. -/
theorem SMap.mapRange_wfFrom (d : α) (f : Nat → α → α) (n a : Nat) (m : SMap α) (lo : Option Nat)
    (hlo : (match lo with | none => true | some b => decide (b < a)) = true) (h : SMap.wfFrom (fun _ => d) lo m = true) :
    SMap.wfFrom (fun _ => d) lo (SMap.mapRange d f n a m) = true := by
  induction m generalizing lo with
  | nil => exact SMap.mapFrom_wfFrom d f n a [] lo hlo (by simp) rfl
  | cons e m ih =>
    obtain ⟨b, x⟩ := e
    have hm := h
    simp only [SMap.wfFrom, Bool.and_eq_true] at hm
    simp only [SMap.mapRange]
    split
    · simp only [SMap.wfFrom, Bool.and_eq_true]
      exact ⟨hm.1, ih (some b) (by simpa) hm.2⟩
    · refine SMap.mapFrom_wfFrom d f n a _ lo hlo ?_ h
      have above : ∀ (l : SMap α) (k : Nat), SMap.wfFrom (fun _ => d) (some k) l = true → ∀ e ∈ l, k < e.1 := by
        intro l
        induction l with
        | nil => intro k _ e he; simp at he
        | cons y l ihl =>
          intro k hl e he
          simp only [SMap.wfFrom, Bool.and_eq_true] at hl
          have h1 := hl.1.1
          simp at h1
          rcases List.mem_cons.mp he with rfl | he
          · exact h1
          · exact Nat.lt_trans h1 (ihl _ hl.2 e he)
      intro e he
      rcases List.mem_cons.mp he with rfl | he
      · simp; omega
      · have := above m b hm.2 e he; omega

theorem SMap.mapRange_wf (d : α) (f : Nat → α → α) (n a : Nat) (m : SMap α) (h : SMap.wf (fun _ => d) m = true) :
    SMap.wf (fun _ => d) (SMap.mapRange d f n a m) = true := SMap.mapRange_wfFrom d f n a m none rfl h

/-! ## Reading after writing -/

theorem SMap.find_of_lt {d : Nat → α} {e : α} {m : SMap α} {b k : Nat} (h : SMap.wfFrom d (some b) m = true) (hk : k ≤ b) :
    SMap.find e m k = e := by
  cases m with
  | nil => rfl
  | cons x m =>
    obtain ⟨a, y⟩ := x
    simp only [SMap.wfFrom, Bool.and_eq_true] at h
    have := h.1.1
    simp at this
    simp only [SMap.find]
    rw [if_neg (by omega), if_pos (by omega)]

omit [DecidableEq α] in
theorem SMap.find_insert_same (e v : α) (m : SMap α) (k : Nat) : SMap.find e (SMap.insert m k v) k = v := by
  induction m with
  | nil => simp [SMap.insert, SMap.find]
  | cons x m ih =>
    obtain ⟨a, y⟩ := x
    simp only [SMap.insert]
    split
    · simp [SMap.find]
    · split
      · simp [SMap.find]
      · simp only [SMap.find]; rw [if_neg ‹_›, if_neg ‹_›]; exact ih

omit [DecidableEq α] in
theorem SMap.find_insert_other (e v : α) (m : SMap α) (k j : Nat) (h : j ≠ k) :
    SMap.find e (SMap.insert m k v) j = SMap.find e m j := by
  induction m with
  | nil => simp [SMap.insert, SMap.find, h]
  | cons x m ih =>
    obtain ⟨a, y⟩ := x
    simp only [SMap.insert]
    split
    · subst_vars; simp [SMap.find, h]
    · split
      · simp only [SMap.find]
        rw [if_neg h]
        split
        · rw [if_neg (by omega), if_pos (by omega)]
        · rfl
      · simp only [SMap.find]; rw [ih]

theorem SMap.find_erase_same {d : Nat → α} (e : α) (m : SMap α) (lo : Option Nat) (k : Nat) (h : SMap.wfFrom d lo m = true) :
    SMap.find e (SMap.erase m k) k = e := by
  induction m generalizing lo with
  | nil => rfl
  | cons x m ih =>
    obtain ⟨a, y⟩ := x
    simp only [SMap.wfFrom, Bool.and_eq_true] at h
    simp only [SMap.erase]
    split
    · subst_vars; exact SMap.find_of_lt h.2 (Nat.le_refl _)
    · split
      · simp only [SMap.find]; rw [if_neg ‹_›, if_pos ‹_›]
      · simp only [SMap.find]; rw [if_neg ‹_›, if_neg ‹_›]; exact ih _ h.2

theorem SMap.find_erase_other {d : Nat → α} (e : α) (m : SMap α) (lo : Option Nat) (k j : Nat) (hj : j ≠ k)
    (h : SMap.wfFrom d lo m = true) : SMap.find e (SMap.erase m k) j = SMap.find e m j := by
  induction m generalizing lo with
  | nil => rfl
  | cons x m ih =>
    obtain ⟨a, y⟩ := x
    simp only [SMap.wfFrom, Bool.and_eq_true] at h
    simp only [SMap.erase]
    split
    · subst_vars
      simp only [SMap.find]
      rw [if_neg hj]
      split
      · exact SMap.find_of_lt h.2 (by omega)
      · rfl
    · split
      · rfl
      · simp only [SMap.find]; rw [ih _ h.2]

/-- What a written key reads as. -/
theorem SMap.find_put_same {d : Nat → α} (m : SMap α) (k : Nat) (v : α) (h : SMap.wf d m = true) :
    SMap.find (d k) (SMap.put (d k) m k v) k = v := by
  unfold SMap.put
  split
  · rename_i hv; rw [SMap.find_erase_same (d k) m none k h, hv]
  · exact SMap.find_insert_same _ _ _ _

/-- Every other key reads as before. -/
theorem SMap.find_put_other {d : Nat → α} (e : α) (m : SMap α) (k j : Nat) (v : α) (hj : j ≠ k) (h : SMap.wf d m = true) :
    SMap.find e (SMap.put (d k) m k v) j = SMap.find e m j := by
  unfold SMap.put
  split
  · exact SMap.find_erase_other e m none k j hj h
  · exact SMap.find_insert_other _ _ _ _ _ hj

end Sys2Proof.Machine
end

