-- ==== Sys2Proof/Laws/Kept.lean ====
section
/-! SUPPORT. What the operations of the module keep (base). -/

namespace Sys2Proof.Machine

/-! ## Tables whose keys rise -/

theorem SMap.mem_insert_keys {α : Type} {m : SMap α} {k j : Nat} {v : α} (h : j ∈ (SMap.insert m k v).map Prod.fst) :
    j = k ∨ j ∈ m.map Prod.fst := by
  induction m with
  | nil => simpa [SMap.insert] using h
  | cons e m ih =>
    obtain ⟨a, x⟩ := e
    unfold SMap.insert at h
    split at h
    · subst_vars; simp at h ⊢; tauto
    · split at h
      · simp at h ⊢; tauto
      · simp only [List.map_cons, List.mem_cons] at h ⊢
        rcases h with h | h
        · exact Or.inr (Or.inl h)
        · rcases ih h with h | h
          · exact Or.inl h
          · exact Or.inr (Or.inr h)

theorem SMap.mem_erase_keys {α : Type} {m : SMap α} {k j : Nat} (h : j ∈ (SMap.erase m k).map Prod.fst) :
    j ∈ m.map Prod.fst := by
  induction m with
  | nil => simp [SMap.erase] at h
  | cons e m ih =>
    obtain ⟨a, x⟩ := e
    unfold SMap.erase at h
    split at h
    · exact List.mem_cons_of_mem _ h
    · split at h
      · exact h
      · rw [List.map_cons, List.mem_cons] at h ⊢
        exact h.imp id ih

theorem SMap.insert_rising {α : Type} {m : SMap α} (k : Nat) (v : α) (h : SMap.rising m = true) :
    SMap.rising (SMap.insert m k v) = true := by
  unfold SMap.rising at *
  rw [decide_eq_true_iff] at *
  induction m with
  | nil => simp [SMap.insert]
  | cons e m ih =>
    obtain ⟨a, x⟩ := e
    rw [List.map_cons, List.pairwise_cons] at h
    unfold SMap.insert
    split
    · subst_vars; rw [List.map_cons, List.pairwise_cons]; exact h
    · split
      · rw [List.map_cons, List.pairwise_cons, List.map_cons, List.pairwise_cons]
        refine ⟨fun j hj => ?_, h⟩
        rcases List.mem_cons.mp hj with rfl | hj
        · assumption
        · exact Nat.lt_trans ‹_› (h.1 j hj)
      · rw [List.map_cons, List.pairwise_cons]
        refine ⟨fun j hj => ?_, ih h.2⟩
        rcases SMap.mem_insert_keys hj with rfl | hj
        · dsimp only; omega
        · exact h.1 j hj

theorem SMap.erase_rising {α : Type} {m : SMap α} (k : Nat) (h : SMap.rising m = true) :
    SMap.rising (SMap.erase m k) = true := by
  unfold SMap.rising at *
  rw [decide_eq_true_iff] at *
  induction m with
  | nil => simp [SMap.erase]
  | cons e m ih =>
    obtain ⟨a, x⟩ := e
    rw [List.map_cons, List.pairwise_cons] at h
    unfold SMap.erase
    split
    · exact h.2
    · split
      · rw [List.map_cons, List.pairwise_cons]; exact h
      · rw [List.map_cons, List.pairwise_cons]
        exact ⟨fun j hj => h.1 j (SMap.mem_erase_keys hj), ih h.2⟩

/-- From `s` to `t` the variant and the queue of commands stay, and the invariant is kept. -/
structure Kept (s t : State) : Prop where
  variant : t.variant = s.variant
  pending : t.pending = s.pending
  regs : s.regsWf = true → t.regsWf = true
  ledger : s.led.ok → t.led.ok
  tables : s.ctl.tablesWf = true → t.ctl.tablesWf = true
  exps : s.exp.tablesWf = true → t.exp.tablesWf = true

variable {s s₀ t : State}

theorem Kept.rfl : Kept s s := ⟨Eq.refl _, Eq.refl _, id, id, id, id⟩

theorem Kept.trans (h : Kept s₀ s) (k : Kept s t) : Kept s₀ t :=
  ⟨k.variant.trans h.variant, k.pending.trans h.pending, k.regs ∘ h.regs, k.ledger ∘ h.ledger, k.tables ∘ h.tables,
    k.exps ∘ h.exps⟩

/-- An update of any field outside variant, registers, ledger, control plane, export engine and queue. -/
theorem Kept.with_iff (fr tk : Nat) (tm : TimeUnit) (ho : HostIf) (fl : Flash) (pa : PairUnit) (bs : Bus) (rd : Nat) :
    Kept s₀ ⟨t.variant, fr, tk, t.regs, tm, ho, t.exp, t.led, fl, pa, t.ctl, bs, rd, t.pending⟩ ↔ Kept s₀ t :=
  ⟨fun h => ⟨h.variant, h.pending, h.regs, h.ledger, h.tables, h.exps⟩, fun h => ⟨h.variant, h.pending, h.regs, h.ledger, h.tables, h.exps⟩⟩

theorem Kept.with (h : Kept s₀ t) (fr tk : Nat) (tm : TimeUnit) (ho : HostIf) (fl : Flash) (pa : PairUnit)
    (bs : Bus) (rd : Nat) : Kept s₀ ⟨t.variant, fr, tk, t.regs, tm, ho, t.exp, t.led, fl, pa, t.ctl, bs, rd, t.pending⟩ := (Kept.with_iff ..).mpr h

/-- An update of the export engine beside its tables. -/
theorem Kept.with_exp_iff (fr tk : Nat) (tm : TimeUnit) (ho : HostIf) (fl : Flash) (pa : PairUnit) (bs : Bus) (rd : Nat) (v0 v1 v2 : Nat) (bu : SMap Nat) (d0 d1 : Option RecDgram) (sc : Nat) (tn : Nat) (ra : Option Nat) (sa : SMap Nat) (fw : List (Nat × Nat)) (tp : SMap (Int × Nat)) :
    Kept s₀ ⟨t.variant, fr, tk, t.regs, tm, ho, ⟨t.exp.queues, t.exp.srx, t.exp.tiles, v0, v1, v2, bu, d0, d1, sc, tn, ra, sa, fw, tp⟩, t.led, fl, pa, t.ctl, bs, rd,
      t.pending⟩ ↔ Kept s₀ t :=
  ⟨fun h => ⟨h.variant, h.pending, h.regs, h.ledger, h.tables, h.exps⟩,
    fun h => ⟨h.variant, h.pending, h.regs, h.ledger, h.tables, h.exps⟩⟩

/-- An update of the export engine whose tables stay in canonical form. -/
theorem Kept.withExp (h : Kept s₀ t) (ex : ExportEng) (hc : t.exp.tablesWf = true → ex.tablesWf = true) :
    Kept s₀ { t with exp := ex } := ⟨h.variant, h.pending, h.regs, h.ledger, h.tables, hc ∘ h.exps⟩

/-- An update of the control plane beside its tables of lanes, combs and outputs. -/
theorem Kept.with_ctl_iff (fr tk : Nat) (tm : TimeUnit) (ho : HostIf) (fl : Flash) (pa : PairUnit) (bs : Bus) (rd : Nat)
    (da : SMap Dac) (pl : PlanUnit) (cs : Csp) (ca : CalUnit) (ft : FltUnit) (sa : SafeUnit) (bo : BootUnit) (pi : PilotUnit)
    (hk : HkUnit) (en : SMap Eng) (la : Latches) :
    Kept s₀ ⟨t.variant, fr, tk, t.regs, tm, ho, t.exp, t.led, fl, pa,
      ⟨t.ctl.lanes, da, t.ctl.combs, t.ctl.outs, pl, cs, ca, ft, sa, bo, pi, hk, en, la⟩, bs, rd, t.pending⟩ ↔ Kept s₀ t :=
  ⟨fun h => ⟨h.variant, h.pending, h.regs, h.ledger, h.tables, h.exps⟩, fun h => ⟨h.variant, h.pending, h.regs, h.ledger, h.tables, h.exps⟩⟩

/-- An update of the control plane whose tables stay in canonical form. -/
theorem Kept.withCtl (h : Kept s₀ t) (fr tk : Nat) (tm : TimeUnit) (ho : HostIf) (fl : Flash) (pa : PairUnit)
    (ct : Ctl) (bs : Bus) (rd : Nat) (hc : t.ctl.tablesWf = true → ct.tablesWf = true) :
    Kept s₀ ⟨t.variant, fr, tk, t.regs, tm, ho, t.exp, t.led, fl, pa, ct, bs, rd, t.pending⟩ :=
  ⟨h.variant, h.pending, h.regs, h.ledger, hc ∘ h.tables, h.exps⟩

/-- An update of the ledger that leaves its entries. -/
theorem Kept.withLed (h : Kept s₀ t) (fr tk : Nat) (tm : TimeUnit) (ho : HostIf) (l : Ledger) (fl : Flash)
    (pa : PairUnit) (bs : Bus) (rd : Nat) (he : l.entries = t.led.entries) (hl : l.last = t.led.last) :
    Kept s₀ ⟨t.variant, fr, tk, t.regs, tm, ho, t.exp, l, fl, pa, t.ctl, bs, rd, t.pending⟩ :=
  ⟨h.variant, h.pending, h.regs, fun k => Ledger.ok_congr (h.ledger k) he hl, h.tables, h.exps⟩

theorem ite_kept {c : Prop} [Decidable c] {a b : State} (ha : Kept s₀ a) (hb : Kept s₀ b) : Kept s₀ (if c then a else b) := by
  split
  · exact ha
  · exact hb

theorem foldl_kept {β : Type} {f : State → β → State} {l : List β} (h : Kept s₀ s)
    (hf : ∀ s x, Kept s₀ s → Kept s₀ (f s x)) : Kept s₀ (l.foldl f s) := by
  induction l generalizing s with
  | nil => exact h
  | cons x l ih => exact ih (hf s x h)

theorem State.wr_kept (h : Kept s₀ s) (a : Nat) (w : Word) : Kept s₀ (s.wr a w) :=
  ⟨h.variant, h.pending, fun k => SMap.put_wf a w s.regs (h.regs k), h.ledger, h.tables, h.exps⟩

theorem State.resetRegs_kept (h : Kept s₀ s) (p : Nat → Bool) : Kept s₀ (s.resetRegs p) :=
  ⟨h.variant, h.pending, fun k => SMap.drop_wf p s.regs (h.regs k), h.ledger, h.tables, h.exps⟩

end Sys2Proof.Machine
end

