-- ==== Sys2Proof/Laws/Regs.lean ====
section
/-! SUPPORT. Laws of the register file: what a write of a field changes and leaves (spec/20_register_map.md R367). -/

namespace Sys2Proof.Machine

/-! ## Bits of a word -/

theorem getBits_testBit (w : Word) (lo n k : ℕ) : (getBits w lo n).testBit k = (decide (k < n) && w.getLsbD (lo + k)) := by
  unfold getBits
  rw [Nat.testBit_mod_two_pow, Nat.testBit_div_two_pow, ← BitVec.testBit_toNat, Nat.add_comm]

theorem setBits_getLsbD (w : Word) (lo n v i : ℕ) (hi : i < 32) :
    (setBits w lo n v).getLsbD i = if lo ≤ i ∧ i < lo + n then v.testBit (i - lo) else w.getLsbD i := by
  unfold setBits
  rw [BitVec.getLsbD_or, BitVec.getLsbD_and, BitVec.getLsbD_not]
  simp only [BitVec.getLsbD_ofNat, Nat.testBit_mul_two_pow, Nat.testBit_mod_two_pow, Nat.testBit_two_pow_sub_one, hi,
    decide_true, Bool.true_and]
  by_cases h1 : lo ≤ i
  · by_cases h2 : i < lo + n
    · have : i - lo < n := by omega
      simp [h1, h2, this]
    · have : ¬ i - lo < n := by omega
      simp [h1, h2, this]
  · simp [h1]

/-- The field written reads as written. -/
theorem getBits_setBits_same (w : Word) (lo n v : ℕ) (h : lo + n ≤ 32) : getBits (setBits w lo n v) lo n = v % 2 ^ n := by
  apply Nat.eq_of_testBit_eq
  intro k
  rw [getBits_testBit, Nat.testBit_mod_two_pow]
  by_cases hk : k < n
  · rw [setBits_getLsbD _ _ _ _ _ (by omega), if_pos (by omega)]; simp
  · simp [hk]

/-- Another field of the word reads as before. -/
theorem getBits_setBits_other (w : Word) (lo n v lo' n' : ℕ) (h' : lo' + n' ≤ 32) (hd : lo' + n' ≤ lo ∨ lo + n ≤ lo') :
    getBits (setBits w lo n v) lo' n' = getBits w lo' n' := by
  apply Nat.eq_of_testBit_eq
  intro k
  rw [getBits_testBit, getBits_testBit]
  by_cases hk : k < n'
  · rw [setBits_getLsbD _ _ _ _ _ (by omega), if_neg (by omega)]
  · simp [hk]

/-! ## Words and fields of the register file -/

variable {s : State}

theorem State.wr_regsWf (a : ℕ) (w : Word) (h : s.regsWf = true) : (s.wr a w).regsWf = true := SMap.put_wf a w s.regs h

@[simp] theorem State.put_regsWf (b : ℕ) (f : Field) (n : ℕ) (h : s.regsWf = true) : (s.put b f n).regsWf = true :=
  State.wr_regsWf _ _ h
@[simp] theorem State.putFlag_regsWf (b : ℕ) (f : Field) (x : Bool) (h : s.regsWf = true) : (s.putFlag b f x).regsWf = true :=
  State.wr_regsWf _ _ h
@[simp] theorem State.count_regsWf (b : ℕ) (f : Field) (n : ℕ) (h : s.regsWf = true) : (s.count b f n).regsWf = true :=
  State.wr_regsWf _ _ h
@[simp] theorem State.countWrap_regsWf (b : ℕ) (f : Field) (n : ℕ) (h : s.regsWf = true) : (s.countWrap b f n).regsWf = true :=
  State.wr_regsWf _ _ h

/-- The register written reads as written. -/
theorem State.rd_wr_same (a : ℕ) (w : Word) (h : s.regsWf = true) : (s.wr a w).rd a = w :=
  SMap.find_put_same s.regs a w h

/-- Every other register reads as before. -/
theorem State.rd_wr_other (a b : ℕ) (w : Word) (hb : b ≠ a) (h : s.regsWf = true) : (s.wr a w).rd b = s.rd b :=
  SMap.find_put_other _ s.regs a b w hb h

/-- A field lies in its word. -/
def Field.ok (f : Field) : Prop := f.lo + f.width ≤ 32

/-- The field written reads as written, cut to its width. -/
theorem State.get_put_same (b : ℕ) (f : Field) (n : ℕ) (hf : f.lo + f.width ≤ 32) (h : s.regsWf = true) :
    (s.put b f n).get b f = n % 2 ^ f.width := by
  unfold State.get State.put
  rw [State.rd_wr_same _ _ h, getBits_setBits_same _ _ _ _ hf]

/-- A field of another word reads as before. -/
theorem State.get_put_word (b : ℕ) (f : Field) (n c : ℕ) (g : Field) (hne : c + g.off ≠ b + f.off) (h : s.regsWf = true) :
    (s.put b f n).get c g = s.get c g := by
  unfold State.get State.put
  rw [State.rd_wr_other _ _ _ hne h]

/-- Another field of the same word reads as before. -/
theorem State.get_put_field (b : ℕ) (f : Field) (n c : ℕ) (g : Field) (heq : c + g.off = b + f.off) (hg : g.lo + g.width ≤ 32)
    (hd : g.lo + g.width ≤ f.lo ∨ f.lo + f.width ≤ g.lo) (h : s.regsWf = true) : (s.put b f n).get c g = s.get c g := by
  unfold State.get State.put
  rw [heq, State.rd_wr_same _ _ h, getBits_setBits_other _ _ _ _ _ _ hg hd]

/-- A flag written reads as written. -/
theorem State.flag_putFlag_same (b : ℕ) (f : Field) (x : Bool) (hf : f.lo + f.width ≤ 32) (hw : 0 < f.width)
    (h : s.regsWf = true) : (s.putFlag b f x).flag b f = x := by
  unfold State.flag State.putFlag
  rw [State.get_put_same _ _ _ hf h]
  have h2 : 1 < 2 ^ f.width := Nat.one_lt_two_pow (by omega)
  cases x
  · simp
  · simp [Nat.mod_eq_of_lt h2]

/-- A word put or cleared elsewhere leaves a register. -/
theorem State.rd_put_word (b : ℕ) (f : Field) (n a : ℕ) (hne : a ≠ b + f.off) (h : s.regsWf = true) :
    (s.put b f n).rd a = s.rd a := State.rd_wr_other _ _ _ hne h

end Sys2Proof.Machine
end

