-- ==== Sys2Proof/Laws/Reports.lean ====
section
/-! SUPPORT. What reporting leaves alone: events, ledger entries, fault captures, and the lanes and outputs that follow a
reaction-bus action. After them every register outside a few reads as before, and time, plan, pair and boot state stay. -/

namespace Sys2Proof.Machine

/-- No report writes register `a`: it is no word +0x0 or +0x8 of a session's registers or above, no performance counter of the
hub, no word of LEDGER_STAT, no fault register, and no comb's count of abandoned routines or performance counter. -/
def quiet (a : Nat) : Bool :=
  !(decide (0xd0000 ≤ a) && (a % 16 == 0 || a % 16 == 8)) && !(decide (0x121100 ≤ a) && decide (a < 0x121180))
    && !(decide (0x60840 ≤ a) && decide (a < 0x60860)) && !(decide (0x100000 ≤ a) && decide (a < 0x103000))
    && !(decide (0x400000 ≤ a) && (a % 0x4000 == 0x190 || (decide (0x1b0 ≤ a % 0x4000) && decide (a % 0x4000 < 0x1d0))))

/-- From `s` to `t` only reports were made, and lanes and outputs settled. -/
structure Reports (s t : State) : Prop where
  variant : t.variant = s.variant
  tick : t.tick = s.tick
  time : t.time = s.time
  exp : t.exp = s.exp
  pair : t.pair = s.pair
  readData : t.readData = s.readData
  free : t.free = s.free
  plan : t.ctl.plan = s.ctl.plan
  csp : t.ctl.csp = s.ctl.csp
  cal : t.ctl.cal = s.ctl.cal
  safe : t.ctl.safe = s.ctl.safe
  boot : t.ctl.boot = s.ctl.boot
  pilot : t.ctl.pilot = s.ctl.pilot
  hk : t.ctl.hk = s.ctl.hk
  eng : t.ctl.eng = s.ctl.eng
  dacs : t.ctl.dacs = s.ctl.dacs
  latches : t.ctl.latches = s.ctl.latches
  wf : s.regsWf = true → t.regsWf = true
  rd : s.regsWf = true → ∀ a, quiet a = true → t.rd a = s.rd a

variable {s s₀ t : State}

theorem Reports.rfl : Reports s s := by constructor <;> simp
theorem Reports.trans (h : Reports s₀ s) (k : Reports s t) : Reports s₀ t where
  variant := k.variant.trans h.variant
  tick := k.tick.trans h.tick
  time := k.time.trans h.time
  exp := k.exp.trans h.exp
  pair := k.pair.trans h.pair
  readData := k.readData.trans h.readData
  free := k.free.trans h.free
  plan := k.plan.trans h.plan
  csp := k.csp.trans h.csp
  cal := k.cal.trans h.cal
  safe := k.safe.trans h.safe
  boot := k.boot.trans h.boot
  pilot := k.pilot.trans h.pilot
  hk := k.hk.trans h.hk
  eng := k.eng.trans h.eng
  dacs := k.dacs.trans h.dacs
  latches := k.latches.trans h.latches
  wf := k.wf ∘ h.wf
  rd := fun w a ha => (k.rd (h.wf w) a ha).trans (h.rd w a ha)

/-- A field of a register no report writes. -/
theorem Reports.get (h : Reports s t) (w : s.regsWf = true) (b : Nat) (f : Field) (ha : quiet (b + f.off) = true) :
    t.get b f = s.get b f := by
  unfold State.get
  rw [h.rd w _ ha]

theorem ite_reports {c : Prop} [Decidable c] {a b : State} (ha : Reports s₀ a) (hb : Reports s₀ b) :
    Reports s₀ (if c then a else b) := by
  split
  · exact ha
  · exact hb

theorem foldl_reports {β : Type} {f : State → β → State} {l : List β} (h : Reports s₀ s)
    (hf : ∀ s x, Reports s₀ s → Reports s₀ (f s x)) : Reports s₀ (l.foldl f s) := by
  induction l generalizing s with
  | nil => exact h
  | cons x l ih => exact ih (hf s x h)

/-- A write of a register that is no `quiet` one. -/
theorem State.wr_reports (h : Reports s₀ s) (a : Nat) (w : Word) (ha : quiet a = false) : Reports s₀ (s.wr a w) :=
  h.trans { (Reports.rfl (s := s)) with
    wf := fun k => State.wr_regsWf _ _ k
    rd := fun k b hb => State.rd_wr_other _ _ _ (by rintro rfl; rw [ha] at hb; exact absurd hb (by decide)) k }

theorem State.put_reports (h : Reports s₀ s) (b : Nat) (f : Field) (n : Nat) (ha : quiet (b + f.off) = false) :
    Reports s₀ (s.put b f n) := State.wr_reports h _ _ ha
theorem State.putFlag_reports (h : Reports s₀ s) (b : Nat) (f : Field) (x : Bool) (ha : quiet (b + f.off) = false) :
    Reports s₀ (s.putFlag b f x) := State.wr_reports h _ _ ha
theorem State.count_reports (h : Reports s₀ s) (b : Nat) (f : Field) (n : Nat) (ha : quiet (b + f.off) = false) :
    Reports s₀ (s.count b f n) := State.wr_reports h _ _ ha
theorem State.putPair_reports (h : Reports s₀ s) (b : Nat) (lo hi : Field) (n : Nat) (hl : quiet (b + lo.off) = false)
    (hh : quiet (b + hi.off) = false) : Reports s₀ (s.putPair b lo hi n) := State.put_reports (State.put_reports h _ _ _ hl) _ _ _ hh

/-- An update of the fields a report may change. -/
theorem Reports.with (h : Reports s₀ t) (ho : HostIf) (l : Ledger) (fl : Flash) (pe : List Instr)
    (la : SMap Lane) (co : SMap Comb) (ou : SMap Out) (ft : FltUnit) (bu : Bus) :
    Reports s₀ ⟨t.variant, t.free, t.tick, t.regs, t.time, ho, t.exp, l, fl, t.pair,
      ⟨la, t.ctl.dacs, co, ou, t.ctl.plan, t.ctl.csp, t.ctl.cal, ft, t.ctl.safe, t.ctl.boot, t.ctl.pilot, t.ctl.hk,
        t.ctl.eng, t.ctl.latches⟩, bu, t.readData, pe⟩ :=
  h.trans { (Reports.rfl (s := t)) with wf := id, rd := fun _ _ _ => Eq.refl _ }

/-! ## Events -/

theorem State.setSess_reports (h : Reports s₀ s) (q : Nat) (x : Sess) : Reports s₀ (s.setSess q x) := h.with ..
theorem State.onSess_reports (h : Reports s₀ s) (q : Nat) (f : Sess → Sess) : Reports s₀ (s.onSess q f) := by
  unfold State.onSess
  split
  · exact h.with ..
  · exact h
theorem State.hubEvent_reports (h : Reports s₀ s) (ev n : Nat) : Reports s₀ (s.hubEvent ev n) := by
  unfold State.hubEvent
  split
  · exact h
  · have key : ∀ (l : List Nat), (∀ i ∈ l, i < 8) → ∀ s, Reports s₀ s → Reports s₀ (l.foldl (fun s i =>
        let b := Adr.PERF_HC i
        if s.flag b Fl.PERF_HC_EN && s.get b Fl.PERF_HC_EVENT == ev then
          let r := satCount 48 (s.getPair b Fl.PERF_HC_VAL_LO Fl.PERF_HC_VAL_HI) n
          let s := s.putPair b Fl.PERF_HC_VAL_LO Fl.PERF_HC_VAL_HI r.1
          if r.2 then s.putFlag b Fl.PERF_HC_SAT true else s
        else s) s) := by
      intro l
      induction l with
      | nil => intro _ s h; exact h
      | cons i l ih =>
        intro hl s h
        refine ih (fun j hj => hl j (List.mem_cons_of_mem _ hj)) _ ?_
        have hi : i < 8 := hl i (List.mem_cons_self ..)
        have hb : ∀ k, k < 16 → quiet (Adr.PERF_HC i + k) = false := by
          intro k hk; unfold quiet Adr.PERF_HC; simp; omega
        dsimp only
        split
        · have h2 := State.putPair_reports h (Adr.PERF_HC i) Fl.PERF_HC_VAL_LO Fl.PERF_HC_VAL_HI
            (satCount 48 (s.getPair (Adr.PERF_HC i) Fl.PERF_HC_VAL_LO Fl.PERF_HC_VAL_HI) n).1 (hb _ (by decide)) (hb _ (by decide))
          split
          · exact State.putFlag_reports h2 _ _ _ (hb _ (by decide))
          · exact h2
        · exact h
    exact key _ (fun i hi => List.mem_range.mp hi) s h

theorem quiet_sess (q k : Nat) (hk : k = 0 ∨ k = 8) : quiet (Adr.SESS q + k) = false := by
  unfold quiet Adr.SESS
  rcases hk with rfl | rfl <;> simp <;> omega

theorem State.dmaFault_reports (h : Reports s₀ s) (q : Nat) : Reports s₀ (s.dmaFault q) := by
  unfold State.dmaFault
  exact ite_reports (State.put_reports (State.putFlag_reports h _ _ _ (quiet_sess q _ (Or.inl rfl))) _ _ _
    (quiet_sess q _ (Or.inl rfl))) h

theorem State.signal_reports (h : Reports s₀ s) (fn vec : Nat) : Reports s₀ (s.signal fn vec) := by
  unfold State.signal
  exact ite_reports h (ite_reports (State.hubEvent_reports (h.with ..) ..) (h.with ..))

theorem State.writeStat_reports (h : Reports s₀ s) (q ring : Nat) : Reports s₀ (s.writeStat q ring) := by
  unfold State.writeStat
  split
  · exact h
  · refine ite_reports h (ite_reports (State.dmaFault_reports h q) ?_)
    have k := State.hubEvent_reports h 0x0C 1
    refine ite_reports (State.setSess_reports k ..) (ite_reports (State.setSess_reports k ..) ?_)
    exact State.signal_reports (State.setSess_reports k ..) ..

theorem State.sendEth_reports (h : Reports s₀ s) (q ty count index : Nat) (body : List Byte) :
    Reports s₀ (s.sendEth q ty count index body) := by
  unfold State.sendEth
  split
  · exact h
  · split
    · exact h
    · dsimp only
      split
      · exact (State.hubEvent_reports (State.setSess_reports h ..) ..).with ..
      · exact (State.hubEvent_reports (State.setSess_reports h ..) ..).with ..

theorem State.writeCpl_reports (h : Reports s₀ s) (q : Nat) (e : List Byte) : Reports s₀ (s.writeCpl q e) := by
  unfold State.writeCpl
  split
  · exact h
  · refine ite_reports h (ite_reports (State.setSess_reports h ..) (ite_reports (State.dmaFault_reports h q)
      (ite_reports ?_ ?_)))
    · exact State.sendEth_reports (State.setSess_reports h ..) ..
    · exact State.writeStat_reports (State.hubEvent_reports (State.setSess_reports h ..) ..) ..

/-- While no warm reset waits for a command to complete, none follows. -/
theorem State.warmGoes_reports (h : Reports s₀ s) (hw : s₀.ctl.boot.warmDue = false) : Reports s₀ s.warmGoes := by
  unfold State.warmGoes
  rw [h.boot, hw]
  exact h

/-- A completion is a report, but for a warm reset that waits for it. -/
theorem State.complete_reports (h : Reports s₀ s) (hw : s₀.ctl.boot.warmDue = false) (q status : Nat) (result : List Byte) :
    Reports s₀ (s.complete q status result) := by
  unfold State.complete
  split
  · exact h
  · split
    · exact h
    · exact State.warmGoes_reports (State.writeCpl_reports (State.setSess_reports h ..) ..) hw

theorem State.completeWith_reports (h : Reports s₀ s) (hw : s₀.ctl.boot.warmDue = false) (q status : Nat) (result : List Byte) :
    Reports s₀ (s.completeWith q status result) := by
  unfold State.completeWith
  split
  · exact h
  · split
    · exact h
    · exact State.warmGoes_reports (State.writeCpl_reports (State.setSess_reports h ..) ..) hw

theorem State.pushEvts_reports (h : Reports s₀ s) (q : Nat) (es : List (List Byte)) : Reports s₀ (s.pushEvts q es) := by
  unfold State.pushEvts
  split
  · exact h
  · refine ite_reports (State.dmaFault_reports h q) (ite_reports ?_ ?_)
    · exact State.sendEth_reports (State.setSess_reports h ..) ..
    · exact State.writeStat_reports (State.hubEvent_reports (State.setSess_reports h ..) ..) ..

theorem quiet_evLost (q : Nat) : quiet (Adr.SESS q + Fl.SESS_EV_LOST.off) = false := quiet_sess q _ (Or.inr rfl)

theorem State.postAt_reports (h : Reports s₀ s) (q code dom tq ns32 frac8 : Nat) (payload : List Byte) :
    Reports s₀ (s.postAt q code dom tq ns32 frac8 payload) := by
  unfold State.postAt
  refine ite_reports h ?_
  split
  · exact h
  · refine ite_reports (State.pushEvts_reports h ..) ?_
    exact State.onSess_reports (State.count_reports h _ _ _ (quiet_evLost q)) ..

theorem State.post_reports (h : Reports s₀ s) (q code : Nat) (payload : List Byte) : Reports s₀ (s.post q code payload) :=
  State.postAt_reports h ..

theorem State.postOwnersAt_reports (h : Reports s₀ s) (code ns32 frac8 : Nat) (payload : List Byte) :
    Reports s₀ (s.postOwnersAt code ns32 frac8 payload) :=
  foldl_reports h fun _ _ k => ite_reports (State.postAt_reports k ..) k

theorem State.postOwners_reports (h : Reports s₀ s) (code : Nat) (payload : List Byte) :
    Reports s₀ (s.postOwners code payload) := State.postOwnersAt_reports h ..

theorem State.postAnchor_reports (h : Reports s₀ s) (q : Nat) : Reports s₀ (s.postAnchor q) := by
  unfold State.postAnchor
  refine ite_reports h ?_
  split
  · exact h
  · exact ite_reports (State.pushEvts_reports h ..) (State.setSess_reports h ..)

theorem State.writeBuf_reports (h : Reports s₀ s) (q addr : Nat) (bs : List Byte) : Reports s₀ (s.writeBuf q addr bs) :=
  State.onSess_reports (ite_reports (State.hubEvent_reports h ..) h) ..

/-! ## The ledger -/

theorem State.ledgerStat_reports (h : Reports s₀ s) : Reports s₀ s.ledgerStat := by
  unfold State.ledgerStat
  exact State.put_reports (State.putFlag_reports (State.put_reports (State.put_reports (State.putPair_reports h _ _ _ _
    (by decide) (by decide)) _ _ _ (by decide)) _ _ _ (by decide)) _ _ _ (by decide)) _ _ _ (by decide)

theorem State.setFlt_reports (h : Reports s₀ s) (x : FltUnit) : Reports s₀ (s.setFlt x) := h.with ..

theorem State.checkWrite_reports (h : Reports s₀ s) (n key : Nat) : Reports s₀ (s.checkWrite n key) := by
  unfold State.checkWrite
  exact ite_reports h (ite_reports (State.setFlt_reports h _) (State.setFlt_reports h _))

/-- A write of the ledger ring, which a target always takes. -/
theorem State.storeEntry_reports (h : Reports s₀ s) (sec : Bool) : Reports s₀ (s.storeEntry sec) := by
  unfold State.storeEntry State.busIssue State.busTarget
  exact h.with ..

theorem State.pushEntry_reports (h : Reports s₀ s) (e : LEntry) : Reports s₀ (s.pushEntry e) := by
  unfold State.pushEntry
  exact ite_reports h (State.storeEntry_reports
    (State.checkWrite_reports (State.checkWrite_reports (State.ledgerStat_reports (h.with ..)) ..) ..) _)

theorem State.flushOverflow_reports (h : Reports s₀ s) : Reports s₀ s.flushOverflow := by
  unfold State.flushOverflow
  exact ite_reports h (State.ledgerStat_reports ((State.pushEntry_reports h _).with ..))

theorem State.logAt_reports (h : Reports s₀ s) (ty q role sec ns : Nat) (body : List Byte) :
    Reports s₀ (s.logAt ty q role sec ns body) := State.pushEntry_reports (State.flushOverflow_reports h) _

theorem State.log_reports (h : Reports s₀ s) (ty q role : Nat) (body : List Byte) : Reports s₀ (s.log ty q role body) :=
  State.logAt_reports h ..

theorem State.logInvolAt_reports (h : Reports s₀ s) (k : Option Nat) (ty sec ns : Nat) (body : List Byte) :
    Reports s₀ (s.logInvolAt k ty sec ns body) := by
  unfold State.logInvolAt
  refine ite_reports (State.pushEntry_reports (State.flushOverflow_reports h) _) ?_
  split
  · exact State.flushOverflow_reports h
  · exact State.ledgerStat_reports ((State.flushOverflow_reports h).with ..)

theorem State.logInvol_reports (h : Reports s₀ s) (k : Option Nat) (ty : Nat) (body : List Byte) :
    Reports s₀ (s.logInvol k ty body) := State.logInvolAt_reports h ..

theorem State.ledgerRefused_reports (h : Reports s₀ s) : Reports s₀ s.ledgerRefused :=
  State.count_reports h _ _ _ (by decide)

/-! ## Lanes and outputs -/

theorem State.setLane_reports (h : Reports s₀ s) (e : Nat) (x : Lane) : Reports s₀ (s.setLane e x) := h.with ..
theorem State.onLane_reports (h : Reports s₀ s) (e : Nat) (f : Lane → Lane) : Reports s₀ (s.onLane e f) := h.with ..
theorem State.mapLanes_reports (h : Reports s₀ s) (f : Nat → Lane → Lane) : Reports s₀ (s.mapLanes f) := h.with ..
theorem State.mapComb_reports (h : Reports s₀ s) (c : Nat) (f : Nat → Lane → Lane) : Reports s₀ (s.mapComb c f) := h.with ..
theorem State.settleAll_reports (h : Reports s₀ s) : Reports s₀ s.settleAll := State.mapLanes_reports h _
theorem State.settle_reports (h : Reports s₀ s) (e : Nat) : Reports s₀ (s.settle e) := State.onLane_reports h ..
theorem State.setOut_reports (h : Reports s₀ s) (o : Nat) (x : Out) : Reports s₀ (s.setOut o x) := h.with ..

theorem State.postOut_reports (h : Reports s₀ s) (o : Nat) : Reports s₀ (s.postOut o) := by
  refine foldl_reports h fun s q k => ?_
  split
  · exact k
  · exact ite_reports (State.post_reports k ..) k

theorem State.refreshOuts_reports (h : Reports s₀ s) : Reports s₀ s.refreshOuts :=
  foldl_reports h fun _ _ k => ite_reports k (State.postOut_reports (State.setOut_reports k ..) _)

theorem quiet_pc (c k : Nat) (hk : k < 4) (o : Nat) (ho : o < 8) : quiet (Adr.PC c k + o) = false := by
  unfold quiet Adr.PC
  simp
  omega

theorem quiet_mcCnt (c : Nat) : quiet (Adr.MC_CNT c + 0) = false := by
  unfold quiet Adr.MC_CNT
  simp
  omega

theorem State.notice_reports (h : Reports s₀ s) (c : Nat) : Reports s₀ (s.notice c) := h.with ..

theorem State.combEvent_reports (h : Reports s₀ s) (c ev n : Nat) : Reports s₀ (s.combEvent c ev n) := by
  unfold State.combEvent
  refine ite_reports h ?_
  have key : ∀ (l : List Nat), (∀ i ∈ l, i < 4) → ∀ s, Reports s₀ s → Reports s₀ (l.foldl (fun s k =>
      let b := Adr.PC c k
      if s.flag b Fl.PC_EN && s.get b Fl.PC_EVENT == ev then
        let r := satCount 32 (s.get b Fl.PC_VAL) n
        let s := s.put b Fl.PC_VAL r.1
        if r.2 && !s.flag b Fl.PC_SAT then (s.putFlag b Fl.PC_SAT true).notice c else s
      else s) s) := by
    intro l
    induction l with
    | nil => intro _ s h; exact h
    | cons i l ih =>
      intro hl s h
      refine ih (fun j hj => hl j (List.mem_cons_of_mem _ hj)) _ ?_
      have hb : ∀ o, o < 8 → quiet (Adr.PC c i + o) = false := quiet_pc c i (hl i (List.mem_cons_self ..))
      dsimp only
      refine ite_reports ?_ h
      have h2 := State.put_reports h (Adr.PC c i) Fl.PC_VAL (satCount 32 (s.get (Adr.PC c i) Fl.PC_VAL) n).1 (hb _ (by decide))
      exact ite_reports (State.notice_reports (State.putFlag_reports h2 _ _ _ (hb _ (by decide))) _) h2
  exact key _ (fun i hi => List.mem_range.mp hi) s h

theorem State.onComb_reports (h : Reports s₀ s) (c : Nat) (f : Comb → Comb) : Reports s₀ (s.onComb c f) := h.with ..

theorem State.abandoned_reports (h : Reports s₀ s) (c vec : Nat) (m : Engine) : Reports s₀ (s.abandoned c vec m) :=
  State.count_reports (State.onComb_reports h ..) _ _ _ (quiet_mcCnt c)

theorem State.interrupt_reports (h : Reports s₀ s) (c : Nat) (l : List (Nat × Nat)) : Reports s₀ (s.interrupt c l) := by
  unfold State.interrupt
  split
  · exact h
  · exact ite_reports (State.onComb_reports h ..) (State.abandoned_reports h ..)

theorem State.interrupts_reports (h : Reports s₀ s) (r : State) : Reports s₀ (State.interrupts r s) := by
  unfold State.interrupts
  refine foldl_reports h fun s e k => ?_
  split
  · exact ite_reports (State.interrupt_reports k ..) (ite_reports k (State.onComb_reports k ..))
  · exact k

/-- What follows a change of a reaction-bus action or of zero drive: lanes, outputs, routines and their events alone. -/
theorem State.react_reports (h : Reports s₀ s) : Reports s₀ s.react :=
  State.refreshOuts_reports (State.interrupts_reports (State.settleAll_reports h) _)

/-! ## Faults -/

theorem quiet_flt (n : Nat) (hn : n < 256) (k : Nat) (hk : k < 32) : quiet (Adr.FLT_SRC n + k) = false := by
  unfold quiet Adr.FLT_SRC
  simp
  omega

theorem State.reportFault_reports (h : Reports s₀ s) (n count : Nat) : Reports s₀ (s.reportFault n count) := by
  unfold State.reportFault
  exact State.setFlt_reports (State.logInvol_reports (State.postOwners_reports h ..) ..) _

theorem State.noteFault_reports (h : Reports s₀ s) (n : Nat) : Reports s₀ (s.noteFault n) := by
  unfold State.noteFault
  exact ite_reports (State.reportFault_reports h ..) (State.setFlt_reports h _)

theorem State.capture_reports (h : Reports s₀ s) (n : Nat) (hn : n < 256) (r : FaultRep) : Reports s₀ (s.capture n r) := by
  unfold State.capture
  repeat' first
    | with_reducible assumption
    | with_reducible apply State.putFlag_reports
    | with_reducible apply State.put_reports
    | with_reducible apply State.setFlt_reports
    | with_reducible apply ite_reports
  all_goals first
    | exact quiet_flt n hn _ (by decide)
    | decide

/-- An assertion of a source that is neither FATAL nor a supply is a report. -/
theorem State.assertFault_reports (h : Reports s₀ s) (n : Nat) (hn : n < 256) (hs : ¬(0xC0 ≤ n ∧ n ≤ 0xC5))
    (hc : s.classFor n ≠ 2) (r : FaultRep) (active : Bool) : Reports s₀ (s.assertFault n r active) := by
  unfold State.assertFault
  dsimp only
  rw [if_neg hc, if_neg hs]
  repeat' first
    | with_reducible assumption
    | with_reducible apply State.noteFault_reports
    | with_reducible apply State.capture_reports
    | with_reducible apply State.putFlag_reports
    | with_reducible apply State.put_reports
    | with_reducible apply State.count_reports
    | with_reducible apply State.setFlt_reports
    | with_reducible apply ite_reports
  all_goals exact quiet_flt n hn _ (by decide)

theorem State.faultGone_reports (h : Reports s₀ s) (n : Nat) (hn : n < 256) : Reports s₀ (s.faultGone n) :=
  State.putFlag_reports h _ _ _ (quiet_flt n hn _ (by decide))

end Sys2Proof.Machine
end

