-- ==== Sys2Proof/Certificates/Slice0/Obligations.lean ====
section
/-! DEFINITION. The statements for the provers: what each command does, what it leaves, and what every step keeps. -/

open Sys2Proof Sys2Proof.Machine

/-! ## Pilots, power monitors (spec/02_switch_fabric.md) -/

/-- R37, R38. A SWITCH written to PILOT_CTL waits for the end of its tick, after a drop found on that tick, and changes nothing
else. There, in AUTO with the other pilot OK, it changes SEL, counts SW_COUNT, opens a switch window of 20 µs (12,500 ticks) and
ends a NO_PILOT span; towards a pilot that is not OK, or with MODE forcing one, it only sets SEL_REFUSED. -/
def Obligations.PilotSwitchIsTakenOrRefused : Prop :=
  ∀ s : State, s.regsWf = true → s.bridgeOn = true →
    (∃ t, exec .pilotSwitch s = .next t ∧ t.ctl.pilot.switch = true ∧ t.regs = s.regs ∧ t.led = s.led ∧ t.host = s.host
      ∧ t.ctl.lanes = s.ctl.lanes ∧ t.ctl.pilot.windowEnd = s.ctl.pilot.windowEnd ∧ t.tick = s.tick)
    ∧ (s.boot.porLow = false → s.boot.dead = false → exec .spineTick s = exec .spineTick s.takeSwitch)
    ∧ (s.ctl.pilot.switch = false → s.takeSwitch = s)
    ∧ (s.ctl.pilot.switch = true → s.forcedPilot = none → s.pilotIsOk (!s.pilotSel) = true →
      let t := s.takeSwitch
      t.pilotSel = !s.pilotSel ∧ t.noPilot = false ∧ t.switching = true ∧ t.ctl.pilot.switch = false
        ∧ t.get Adr.PILOT_STAT Fl.PILOT_STAT_SW_COUNT = min 65535 (s.get Adr.PILOT_STAT Fl.PILOT_STAT_SW_COUNT + 1)
        ∧ t.ctl.pilot.windowEnd = some (s.tick + 12500)
        ∧ t.flag Adr.PILOT_STAT Fl.PILOT_STAT_SEL_REFUSED = s.flag Adr.PILOT_STAT Fl.PILOT_STAT_SEL_REFUSED
        ∧ t.flag Adr.PILOT_STAT Fl.PILOT_STAT_FALLBACK = s.flag Adr.PILOT_STAT Fl.PILOT_STAT_FALLBACK
        ∧ (∀ a, a ≠ Adr.PILOT_STAT → a ≠ Adr.FLT_SRC 0xB9 → t.rd a = s.rd a) ∧ t.led = s.led ∧ t.host = s.host)
    ∧ (s.ctl.pilot.switch = true → (s.forcedPilot ≠ none ∨ s.pilotIsOk (!s.pilotSel) = false) →
      let t := s.takeSwitch
      t.flag Adr.PILOT_STAT Fl.PILOT_STAT_SEL_REFUSED = true
        ∧ t.pilotSel = s.pilotSel ∧ t.noPilot = s.noPilot ∧ t.switching = s.switching
        ∧ (∀ a, a ≠ Adr.PILOT_STAT → t.rd a = s.rd a)
        ∧ t.ctl = { s.ctl with pilot := { s.ctl.pilot with switch := false } } ∧ t.led = s.led ∧ t.host = s.host)

/-- R37, R38. A pilot is lost where its comparator reads it below its reference minus 3 dB, and OK again at or above its reference
minus 2 dB (0.1 dB steps). The loss of a pilot that is not selected only clears its OK bit. The loss of the selected pilot in
AUTO with the other OK selects the other, sets FALLBACK and opens a switch window. Powers not below change nothing. A recovery
while a pilot is in use only sets its OK bit; out of NO_PILOT in AUTO the pilot that recovers is selected, A where both are OK in
the same window, NO_PILOT ends and a window opens. A write of MODE that forces an OK pilot selects it at once. A window whose
20 µs are over closes. -/
def Obligations.PilotLossRecoveryAndMode : Prop :=
  ∀ (s : State) (b : Bool) (p : Pilots), s.regsWf = true → s.powered 24 = true →
    let low := fun (x : Bool) => Pilots.of p x < s.pilotRef x - 30
    let high := fun (x : Bool) => s.pilotRef x - 20 ≤ Pilots.of p x
    (s.pilotIsOk b = true → s.pilotSel = !b → low b → ¬ low (!b) → ∃ t, exec (.pilotLost p) s = .next t ∧ t.pilotIsOk b = false
      ∧ t.pilotIsOk (!b) = s.pilotIsOk (!b) ∧ t.pilotSel = s.pilotSel ∧ (s.pilotIsOk (!b) = true → t.noPilot = s.noPilot ∧ t.ctl = s.ctl
      ∧ (∀ a, a ≠ Adr.PILOT_STAT → t.rd a = s.rd a)))
    ∧ (s.pilotIsOk b = true → s.pilotSel = b → s.forcedPilot = none → s.pilotIsOk (!b) = true → s.classFor 0xB8 ≠ 2 →
      low b → ¬ low (!b) →
      ∃ t, exec (.pilotLost p) s = .next t ∧ t.pilotIsOk b = false ∧ t.pilotSel = !b ∧ t.noPilot = false ∧ t.switching = true
        ∧ t.flag Adr.PILOT_STAT Fl.PILOT_STAT_FALLBACK = true ∧ t.ctl.pilot.windowEnd = some (s.tick + 12500))
    ∧ (s.pilotIsOk s.pilotSel = true → ¬ low b → ¬ low (!b) → exec (.pilotLost p) s = .next s)
    ∧ (s.pilotIsOk b = false → s.noPilot = false → high b → ∃ t, exec (.pilotOk p) s = .next t ∧ t.pilotIsOk b = true
      ∧ t.pilotSel = s.pilotSel ∧ t.noPilot = false ∧ t.ctl = s.ctl ∧ (∀ a, a ≠ Adr.PILOT_STAT → t.rd a = s.rd a))
    ∧ (s.pilotIsOk b = false → s.noPilot = true → s.forcedPilot = none → high b →
      (b = true → s.pilotIsOk false = false ∧ ¬ high false) → ∃ t, exec (.pilotOk p) s = .next t
      ∧ t.pilotIsOk b = true ∧ t.pilotSel = b ∧ t.noPilot = false ∧ t.switching = true
      ∧ t.ctl.pilot.windowEnd = some (s.tick + 12500))
    ∧ (∀ v : Word, s.bridgeOn = true → getBits v 0 2 = (if b then 2 else 1) → s.pilotIsOk b = true → ∃ t, exec (.pilotMode v) s = .next t
      ∧ t.get Adr.PILOT_CTL Fl.PILOT_CTL_MODE = (if b then 2 else 1) ∧ t.pilotSel = b ∧ t.noPilot = false)
    ∧ (∀ n, s.ctl.pilot.windowEnd = some n → n ≤ s.tick → ∃ t, exec .switchWindowEnd s = .next t ∧ t.switching = false
      ∧ t.ctl.pilot.windowEnd = none ∧ t.pilotSel = s.pilotSel ∧ (∀ a, a ≠ Adr.PILOT_STAT → t.rd a = s.rd a))

/-- R39, R35, R62. RECAPTURE asks for a capture; the next pair of 1 ms averages of channels 26 and 27 then stands in PILOT_REF for
each OK pilot and in PILOT_PWR for both, and a pilot that is not OK keeps its reference; with no capture asked for only PILOT_PWR
follows. A capture that ends stage 7 of a start begins stage 8, or 9 where a CAL_APPLY of this start has completed. A 1 ms window of a present, powered input stands in PWR (at most
0x51) with the number of whole windows since POR_N in WIN, modulo 65,536, once a window, and sets OVER at 0x51; no other register
changes. -/
def Obligations.PilotCaptureAndPowerMonitor : Prop :=
  (∀ s : State, s.bridgeOn = true → ∃ t, exec .recapture s = .next t ∧ t.ctl.pilot.recapture = true ∧ t.regs = s.regs)
  ∧ (∀ (s : State) (a b : Nat), s.regsWf = true → s.powered 24 = true → s.ctl.pilot.recapture = true →
      s.get Adr.BOOT_STAT Fl.BOOT_STAT_STAGE ≠ 7 →
      let x := Config.pilotDb (s.ctl.hk.average false a) % 65536
      let y := Config.pilotDb (s.ctl.hk.average true b) % 65536
      ∃ t, exec (.pilotRefCapture a b) s = .next t ∧ t.ctl.pilot.recapture = false ∧ t.ctl.hk.scans = 0
        ∧ t.get Adr.PILOT_PWR Fl.PILOT_PWR_PWR_A = x ∧ t.get Adr.PILOT_PWR Fl.PILOT_PWR_PWR_B = y
        ∧ t.get Adr.PILOT_REF Fl.PILOT_REF_REF_A = (if s.pilotIsOk false then x else s.get Adr.PILOT_REF Fl.PILOT_REF_REF_A)
        ∧ t.get Adr.PILOT_REF Fl.PILOT_REF_REF_B = (if s.pilotIsOk true then y else s.get Adr.PILOT_REF Fl.PILOT_REF_REF_B)
        ∧ (∀ r, r ≠ Adr.PILOT_PWR → r ≠ Adr.PILOT_REF → t.rd r = s.rd r))
  ∧ (∀ (s : State) (a b : Nat), s.regsWf = true → s.powered 24 = true → s.ctl.pilot.recapture = true → s.gwqRuns = true →
      s.get Adr.BOOT_STAT Fl.BOOT_STAT_STAGE = 7 → s.flag Adr.DRV_STAT Fl.DRV_STAT_EN_DONE = true →
      ∃ t, exec (.pilotRefCapture a b) s = .next t ∧ t.ctl.pilot.recapture = false
        ∧ t.get Adr.BOOT_STAT Fl.BOOT_STAT_STAGE = (if s.boot.applied then 9 else 8))
  ∧ (∀ (s : State) (a b : Nat), s.regsWf = true → s.powered 24 = true → s.ctl.pilot.recapture = false →
      ∃ t, exec (.pilotRefCapture a b) s = .next t
        ∧ t.get Adr.PILOT_PWR Fl.PILOT_PWR_PWR_A = Config.pilotDb (s.ctl.hk.average false a) % 65536
        ∧ t.get Adr.PILOT_PWR Fl.PILOT_PWR_PWR_B = Config.pilotDb (s.ctl.hk.average true b) % 65536
        ∧ (∀ r, r ≠ Adr.PILOT_PWR → t.rd r = s.rd r))
  ∧ (∀ (s : State) (p code : Nat), s.get (Adr.IN_PWR p) Fl.IN_PWR_WIN = s.tick / 625000 % 65536 →
      exec (.powerMonitorWindow p code) s = .next s)
  ∧ (∀ (s : State) (p code : Nat), s.regsWf = true → p < numPorts s.variant → s.powered (6 * (p / 128) + 5) = true →
      s.get (Adr.IN_PWR p) Fl.IN_PWR_WIN ≠ s.tick / 625000 % 65536 →
      ∃ t, exec (.powerMonitorWindow p code) s = .next t ∧ t.get (Adr.IN_PWR p) Fl.IN_PWR_PWR = min 0x51 code
        ∧ t.get (Adr.IN_PWR p) Fl.IN_PWR_WIN = s.tick / 625000 % 65536
        ∧ t.flag (Adr.IN_PWR p) Fl.IN_PWR_OVER = (s.flag (Adr.IN_PWR p) Fl.IN_PWR_OVER || decide (0x51 ≤ code))
        ∧ (∀ a, a ≠ Adr.IN_PWR p → t.rd a = s.rd a) ∧ t.ctl = s.ctl)

/-! ## Drive enable and DRV_CLR_N, sense (spec/03_drive_and_sense.md) -/

/-- R50. EN written from 0 to 1 with VDD_DRV good starts a ramp that ends 10 µs (6,250 ticks) later, but none in recovery (R358); EN_DONE
sets at the strobe that ends it, at which every DAC converts. EN = 0, and VDD_DRV out of range, clear EN_DONE and end a ramp. VDD_DRV
back for 1 ms sets DRV_PG, its supply fault is no longer active, and with EN = 1 the ramp runs again. Outside stage 7 of a start none
of them touches a register outside DRV_CTL, DRV_STAT and those that reports write; a ramp that ends stage 7 begins stage 8 or 9. -/
def Obligations.DriveEnableRampAndPowerGood : Prop :=
  ∀ s : State, s.regsWf = true →
    (∀ v : Word, s.bridgeOn = true → v.getLsbD 0 = true → s.flag Adr.DRV_CTL Fl.DRV_CTL_EN = false →
      s.flag Adr.DRV_STAT Fl.DRV_STAT_DRV_PG = true → ∃ t, exec (.driveEn v) s = .next t
        ∧ t.flag Adr.DRV_CTL Fl.DRV_CTL_EN = true ∧ t.boot.rampEnd = (if s.boot.recovery then s.boot.rampEnd else some (s.tick + 6250))
        ∧ t.ctl.lanes = s.ctl.lanes ∧ (∀ a, a ≠ Adr.DRV_CTL → t.rd a = s.rd a))
    ∧ (∀ v : Word, s.bridgeOn = true → v.getLsbD 0 = false → ∃ t, exec (.driveEn v) s = .next t
        ∧ t.flag Adr.DRV_CTL Fl.DRV_CTL_EN = false ∧ t.flag Adr.DRV_STAT Fl.DRV_STAT_EN_DONE = false ∧ t.boot.rampEnd = none
        ∧ (∀ a, quiet a = true → a ≠ Adr.DRV_CTL → a ≠ Adr.DRV_STAT → t.rd a = s.rd a) ∧ t.time = s.time ∧ t.plan = s.plan)
    ∧ (∀ n, s.boot.rampEnd = some n → s.tick % 5 ≠ 0 → exec .enableRampEnd s = .next s)
    ∧ (∀ n, s.boot.rampEnd = some n → n ≤ s.tick → s.tick % 5 = 0 → s.get Adr.BOOT_STAT Fl.BOOT_STAT_STAGE = 7 → s.gwqRuns = true →
        s.ctl.pilot.recapture = false → ∃ t, exec .enableRampEnd s = .next t ∧ t.flag Adr.DRV_STAT Fl.DRV_STAT_EN_DONE = true
        ∧ t.boot.rampEnd = none ∧ t.get Adr.BOOT_STAT Fl.BOOT_STAT_STAGE = (if s.boot.applied then 9 else 8))
    ∧ (∀ n, s.boot.rampEnd = some n → n ≤ s.tick → s.tick % 5 = 0 → s.get Adr.BOOT_STAT Fl.BOOT_STAT_STAGE ≠ 7 →
        ∃ (t : State) (u : State), exec .enableRampEnd s = .next t ∧ t = u.strobe
        ∧ t.flag Adr.DRV_STAT Fl.DRV_STAT_EN_DONE = true ∧ t.boot.rampEnd = none
        ∧ (∀ a, quiet a = true → a ≠ Adr.DRV_STAT → t.rd a = s.rd a) ∧ t.time = s.time ∧ t.plan = s.plan)
    ∧ (∃ t, exec .drvPgLoss s = .next t ∧ t.flag Adr.DRV_STAT Fl.DRV_STAT_DRV_PG = false
        ∧ t.flag Adr.DRV_STAT Fl.DRV_STAT_EN_DONE = false ∧ t.boot.rampEnd = none
        ∧ t.flag Adr.DRV_CTL Fl.DRV_CTL_EN = s.flag Adr.DRV_CTL Fl.DRV_CTL_EN
        ∧ (∀ a, quiet a = true → a ≠ Adr.DRV_STAT → t.rd a = s.rd a))
    ∧ (s.powered 24 = true → s.flag Adr.DRV_STAT Fl.DRV_STAT_DRV_PG = false → ∃ t, exec .drvPgReturn s = .next t
        ∧ t.flag Adr.DRV_STAT Fl.DRV_STAT_DRV_PG = true
        ∧ t.flag (Adr.FLT_SRC 0xC2) Fl.FLT_SRC_ACTIVE = false
        ∧ t.boot.rampEnd = (if s.flag Adr.DRV_CTL Fl.DRV_CTL_EN ∧ s.boot.recovery = false then some (s.tick + 6250) else s.boot.rampEnd)
        ∧ t.ctl.lanes = s.ctl.lanes ∧ (∀ a, a ≠ Adr.DRV_STAT → a ≠ Adr.FLT_SRC 0xC2 → t.rd a = s.rd a))

/-- R47, R48. DRV_CLR_N acted on as low sets CLR_LOW and CLR_SEEN and counts CLR_COUNT up to 65,535; its return clears CLR_LOW
alone and keeps CLR_SEEN and the count. Loops' settings, time, plan and every register that no report writes stay. -/
def Obligations.DrvClrNLowAndReturn : Prop :=
  ∀ s : State, s.regsWf = true → s.powered 24 = true →
    (s.clrLow = false → ∃ t, exec .drvClrNAssert s = .next t ∧ t.clrLow = true
      ∧ t.flag Adr.DRV_STAT Fl.DRV_STAT_CLR_SEEN = true
      ∧ t.get Adr.DRV_STAT Fl.DRV_STAT_CLR_COUNT = min 65535 (s.get Adr.DRV_STAT Fl.DRV_STAT_CLR_COUNT + 1)
      ∧ t.flag Adr.DRV_STAT Fl.DRV_STAT_EN_DONE = s.flag Adr.DRV_STAT Fl.DRV_STAT_EN_DONE
      ∧ (∀ a, quiet a = true → a ≠ Adr.DRV_STAT → t.rd a = s.rd a) ∧ t.time = s.time ∧ t.plan = s.plan)
    ∧ (s.clrLow = true → ∃ t, exec .drvClrNRelease s = .next t ∧ t.clrLow = false
      ∧ t.flag Adr.DRV_STAT Fl.DRV_STAT_CLR_SEEN = s.flag Adr.DRV_STAT Fl.DRV_STAT_CLR_SEEN
      ∧ t.get Adr.DRV_STAT Fl.DRV_STAT_CLR_COUNT = s.get Adr.DRV_STAT Fl.DRV_STAT_CLR_COUNT
      ∧ (∀ a, quiet a = true → a ≠ Adr.DRV_STAT → t.rd a = s.rd a) ∧ t.time = s.time ∧ t.plan = s.plan)

/-- R58. REF_SETTLED sets once the reference in force has had its settling time. A write of SENSE_CFG that changes REF_SEL stores the
word's fields and sets CAL_CSTAT.REF_CHANGED; one that leaves REF_SEL changes SENSE_CFG alone. A conversion completes at the end of
its slot of 125 half-ticks and not before, into the result register of its entry, whose RESULT (the clamped converter
result with the offset and gain in force, R51, R101), VALID, URGENT, REF_UNSET, CLIP, GAIN and PSEQ are rewritten in one step (R52).
A housekeeping scan that has ended steps SCAN modulo 65,536, takes over LP (R61), and VALUE, VALID and SCAN of each channel the
variant has are written, VALUE being the input voltage over its divider and V_ref in 4,096 steps where the reference has a defined
level (R62). -/
def Obligations.SenseReferenceConversionAndScan : Prop :=
  ∀ s : State, s.regsWf = true →
    (∀ c, c < numCombs s.variant → s.powered (combDomain s.variant c) = true → (s.comb c).refAt ≤ s.tick →
      ∃ t, exec (.refSettled c) s = .next t ∧ t.flag (Adr.SENSE_STAT c) Fl.SENSE_STAT_REF_SETTLED = true
        ∧ t.ctl = s.ctl ∧ (∀ a, a ≠ Adr.SENSE_STAT c → t.rd a = s.rd a))
    ∧ (∀ c (v : Word), c < numCombs s.variant → s.answers (Adr.SENSE_CFG c) = true →
      ∃ t, exec (.refSel c v) s = .next t ∧ t.get (Adr.SENSE_CFG c) Fl.SENSE_CFG_REF_SEL = getBits v 0 2
        ∧ t.get (Adr.SENSE_CFG c) Fl.SENSE_CFG_SEQ_LEN_A = getBits v 8 7
        ∧ t.get (Adr.SENSE_CFG c) Fl.SENSE_CFG_SEQ_LEN_B = getBits v 16 7
        ∧ t.flag (Adr.CAL_CSTAT c) Fl.CAL_CSTAT_REF_CHANGED = (s.flag (Adr.CAL_CSTAT c) Fl.CAL_CSTAT_REF_CHANGED
          || decide (getBits v 0 2 ≠ s.get (Adr.SENSE_CFG c) Fl.SENSE_CFG_REF_SEL))
        ∧ t.ctl = s.ctl ∧ (∀ a, a ≠ Adr.SENSE_CFG c → a ≠ Adr.CAL_CSTAT c → t.rd a = s.rd a))
    ∧ (∀ c b p x, (s.comb c).cur b = some x → 2 * s.tick + 1 < x.ends → exec (.senseConversion c b p) s = .next s)
    ∧ (∀ c b p x, c < numCombs s.variant → s.powered (combDomain s.variant c) = true → (s.comb c).cur b = some x →
      x.entry < 96 → x.pseq < 256 → x.ends ≤ 2 * s.tick + 1 → Photo.defined p x.ref = true →
      let z := x.corrected (Photo.raw p x.gain x.ref)
      ∃ t, exec (.senseConversion c b p) s = .next t
        ∧ t.get (resAdr c b x.entry) Fl.SENSE_RES_RESULT = (max 0 (min 16383 z)).toNat
        ∧ t.flag (resAdr c b x.entry) Fl.SENSE_RES_URGENT = x.urgent
        ∧ t.flag (resAdr c b x.entry) Fl.SENSE_RES_REF_UNSET = x.unset
        ∧ t.flag (resAdr c b x.entry) Fl.SENSE_RES_CLIP = decide (16383 < z)
        ∧ t.get (resAdr c b x.entry) Fl.SENSE_RES_GAIN = x.gain % 4
        ∧ t.get (resAdr c b x.entry) Fl.SENSE_RES_PSEQ = x.pseq
        ∧ t.flag (resAdr c b x.entry) Fl.SENSE_RES_VALID = (((s.comb c).seq b).getD x.entry (127, 0) == (x.input, x.gain)))
    ∧ (∀ vals, s.powered 24 = true → s.ctl.hk.scanEnd ≤ s.tick → ∃ t, exec (.housekeepingScan vals) s = .next t
        ∧ t.get Adr.HK_STAT Fl.HK_STAT_SCAN = (s.get Adr.HK_STAT Fl.HK_STAT_SCAN + 1) % 65536
        ∧ t.flag Adr.HK_STAT Fl.HK_STAT_LP_ACT = s.flag Adr.HK_CTL Fl.HK_CTL_LP
        ∧ t.ctl.hk.ref = refEff (s.get Adr.HK_CTL Fl.HK_CTL_REF_SEL) ∧ t.ctl.lanes = s.ctl.lanes ∧ t.ctl.plan = s.ctl.plan
        ∧ ∀ n, n < 32 → (s.variant = .t256 → n ∉ [3, 4, 12, 13]) →
          t.flag (Adr.HK_RES n) Fl.HK_RES_VALID = true
          ∧ t.get (Adr.HK_RES n) Fl.HK_RES_SCAN = (s.get Adr.HK_STAT Fl.HK_STAT_SCAN + 1) % 65536
          ∧ (HkIn.defined vals s.ctl.hk.ref = true → t.get (Adr.HK_RES n) Fl.HK_RES_VALUE
              = (clampInt 0 4095 (roundDiv ((4096 * vals.volts.getD n 0 : Nat) : Int)
                  (HkIn.vRef vals s.ctl.hk.ref * hkDivider n))).toNat))

/-! ## Holding loops, calibration and the comb engine (spec/04, spec/05, spec/07) -/

/-- R53, R79, R85. At the boundary of a powered comb PSEQ steps modulo 256, PERIOD_ACT takes the period that LOOP_CFG.PERIOD selects
and the prologue of the new period is owed. The period is an aligning one exactly where PERIOD was written since the last
boundary: then the next boundary is the first multiple of the period at least one period later, else it is one period later. A
boundary that is not due changes nothing. -/
def Obligations.PeriodBoundaryOpensThePeriod : Prop :=
  ∀ (s : State) (c : Nat), s.regsWf = true → s.ctl.tablesWf = true → c < numCombs s.variant →
    (s.powered (combDomain s.variant c) = true → (s.comb c).boundary ≠ 0 → (s.comb c).boundary ≤ s.tick →
      let p := effPeriod (s.get (Adr.LOOP_CFG c) Fl.LOOP_CFG_PERIOD)
      let n := periodTicks p
      let b := (s.comb c).boundary
      ∃ t, exec (.periodBoundary c) s = .next t
        ∧ t.get (Adr.SENSE_STAT c) Fl.SENSE_STAT_PSEQ = (s.get (Adr.SENSE_STAT c) Fl.SENSE_STAT_PSEQ + 1) % 256
        ∧ t.get (Adr.LOOP_STAT c) Fl.LOOP_STAT_PERIOD_ACT = p
        ∧ t.flag (Adr.LOOP_STAT c) Fl.LOOP_STAT_ALIGNING = (s.comb c).periodSet
        ∧ ((s.comb c).periodSet = false → (t.comb c).boundary = b + n)
        ∧ ((s.comb c).periodSet = true → (t.comb c).boundary % n = 0 ∧ b + n ≤ (t.comb c).boundary ∧ (t.comb c).boundary < b + 2 * n)
        ∧ (t.comb c).prologue = true ∧ (t.comb c).periodSet = false)
    ∧ (s.tick < (s.comb c).boundary → exec (.periodBoundary c) s = .next s)

/-- R67, R70, R38, R59. ITER serves the next due lane, POST_MOVE the lowest moved lane whose readings are ready, where the engine is
free and the routine reaches its COMMIT within the steps it is given (parameter words with good check bits). With usable readings
whose sum is at least 4,096 and no trip, the lane takes what the control law gives from the readings and coefficients as they stood
when the iteration started, its code committed now. Where the source is not
usable (a switch window, NO_PILOT, REF_UNSET) the lane keeps code, integrator and state, and FROZEN counts. No other lane changes. -/
def Obligations.IterationCommitsOrHolds : Prop :=
  ∀ (s : State) (c l n : Nat) (post : Bool), s.regsWf = true → s.ctl.tablesWf = true → s.serving c = true → (s.accWaits c).isEmpty = true →
    (if post then s.nextPost c = some l else s.nextPost c = none ∧ s.nextDue c = some l) →
    s.starts c (if post then 4 else 5) l n → s.flt.badWords = [] →
    (∀ rs, s.readTaps (64 * c + l) = .ok rs →
      let e := 64 * c + l
      let v := tapValues (s.calOf e) rs
      let y := iterate (s.calOf e) (s.coeffOf e) { s.lane e with served := true, consec := 0, postMove := none } v.1 v.2.1 v.2.2
      4096 ≤ v.1 + v.2.1 → y.2 = false →
      ∃ t, exec (if post then .postMove ⟨c, n⟩ else .iter ⟨c, n⟩) s = .next t
        ∧ t.lane e = { y.1.judge (s.coeffOf e).feLim with commitTick := s.tick }
        ∧ (∀ e', e' ≠ e → t.lane e' = s.lane e'))
    ∧ (s.readTaps (64 * c + l) = .error .source →
      ∃ t, exec (if post then .postMove ⟨c, n⟩ else .iter ⟨c, n⟩) s = .next t
        ∧ (t.lane (64 * c + l)).committed = (s.lane (64 * c + l)).committed
        ∧ (t.lane (64 * c + l)).integ = (s.lane (64 * c + l)).integ
        ∧ (t.lane (64 * c + l)).st = (s.lane (64 * c + l)).st
        ∧ (t.lane (64 * c + l)).frozen = satInc8 (s.lane (64 * c + l)).frozen
        ∧ (t.lane (64 * c + l)).served = true
        ∧ (∀ e', e' ≠ 64 * c + l → t.lane e' = s.lane e') ∧ t.ctl.outs = s.ctl.outs)

/-- R137, R138. Where the engine is free and the routine reaches its COMMIT within the steps it is given, with good parameter words,
the prologue clears the owed prologue and a commanded item is taken; short of the COMMIT nothing of it is visible. R91: CAL_ACC marks
every waiting lane as accumulated. R143: a recovery whose readback is good owes a restart at the next boundary, one whose
readback fails puts the comb in LOAD_FAIL with version 0, and after three checks in 60 s Gwynique gives up. R83: a lane in
HOLD_NO_PILOT for HOLD_LIMIT becomes DEGRADED. -/
def Obligations.EngineRoutinesRecoveryAndHoldLimit : Prop :=
  ∀ (s : State) (c n : Nat), s.regsWf = true → s.ctl.tablesWf = true → c < numCombs s.variant →
    ((s.comb c).prologue = true → s.starts c 1 0 n → s.flt.badWords = [] →
      ∃ t, exec (.prologue ⟨c, n⟩) s = .next t ∧ (t.comb c).prologue = false ∧ t.ctl.lanes = s.ctl.lanes
        ∧ ∀ d, d ≠ c → t.comb d = s.comb d)
    ∧ ((s.comb c).prologue = true → s.onTheWay c 1 0 n → s.flt.badWords = [] →
      ∃ t, exec (.prologue ⟨c, n⟩) s = .next t ∧ (t.comb c).prologue = true ∧ t.ctl.lanes = s.ctl.lanes
        ∧ t.ctl.outs = s.ctl.outs ∧ (t.comb c).run.isSome = true)
    ∧ ((s.comb c).prologue = false → (s.comb c).cmd = true → s.starts c 2 0 n → s.flt.badWords = [] →
      ∃ t, exec (.cmdRoutine ⟨c, n⟩) s = .next t ∧ (t.comb c).cmd = false ∧ t.ctl.lanes = s.ctl.lanes
        ∧ ∀ d, d ≠ c → t.comb d = s.comb d)
    ∧ (s.serving c = true → s.accWaits c ≠ [] → s.starts c 3 ((s.accWaits c).headD 0) n → s.flt.badWords = [] →
      ∃ t, exec (.calAcc ⟨c, n⟩) s = .next t ∧ ∀ l ∈ s.accWaits c, (t.lane (64 * c + l)).accDone = true)
    ∧ (s.gwqRuns = true → s.engine c = 2 → (s.comb c).restart = false → (s.comb c).gaveUp = false →
      (s.recentChecks c < 3 → ∃ t, exec (.mcRecovery c true) s = .next t ∧ (t.comb c).restart = true ∧ t.engine c = 2)
      ∧ (s.recentChecks c < 3 → s.classFor c ≠ 2 → ∃ t, exec (.mcRecovery c false) s = .next t ∧ t.engine c = 4
          ∧ t.rd (Adr.MC_VERSION c) = 0)
      ∧ (∀ ok, 3 ≤ s.recentChecks c → ∃ t, exec (.mcRecovery c ok) s = .next t ∧ (t.comb c).gaveUp = true ∧ t.engine c = 2
          ∧ (t.comb c).restart = false))
    ∧ (∀ l, l < 64 → (s.lane (64 * c + l)).st = 8 → (s.lane (64 * c + l)).holdSince + s.holdTicks ≤ s.tick →
      ∃ t, exec (.holdLimit c l) s = .next t ∧ (t.lane (64 * c + l)).degraded = true ∧ (t.lane (64 * c + l)).st = 8
        ∧ ∀ e, e ≠ 64 * c + l → t.lane e = s.lane e)

/-- R92 to R94, R98 (an engine that is free and reaches the COMMIT within the steps it is given). A fit in idle time commits the lane's
results: ACCEPTED with BIAS valid and PARK_CODE staged from BIAS and FF_SLOPE where every limit holds, else REJECTED with the first
limit that fails; it ends its procedure where it was the last. A SADC segment short of 1,024 conversions is noted for its period
with its sums, and the last one commits both ADCs' results. The sweeps of a FULL group begin once it has settled for 8 s, and a
group with nothing at work is passed over to the next; while a reference of the group has not settled, or no pilot is OK, nothing
happens. The parameter words these routines read have good check bits. -/
def Obligations.FitsSelfCalibrationAndFullGroups : Prop :=
  ∀ (s : State) (c : Nat), s.regsWf = true → s.ctl.tablesWf = true →
    (∀ l n p, (s.comb c).procs.head? = some p → s.idleLoops c = true → s.fitDue c l p = true → s.starts c 6 l n → s.flt.badWords = [] →
      ∃ t, exec (.calFit c l n) s = .next t ∧ t.ctl.lanes = (s.fitWork c l).ctl.lanes
        ∧ (t.comb c).procs = ((s.fitWork c l).comb c).procs)
    ∧ (∀ l kind, c < numCombs s.variant → l < 64 → 1 ≤ kind → kind ≤ 3 →
      let e := 64 * c + l
      let r := if kind = 1 then s.fitExt e else if kind = 2 then s.fitVpi e else s.fitQuad e
      let t := s.fitCommit c l kind
      t.get (Adr.CAL_RES c l) Fl.CAL_RES_OUTCOME = (if r.limit = 0 then 1 else 2)
      ∧ t.get (Adr.CAL_RES c l) Fl.CAL_RES_PROC = kind ∧ t.get (Adr.CAL_RES c l) Fl.CAL_RES_LIMIT = r.limit % 16
      ∧ (r.limit = 0 → t.flag (Adr.CAL_BIAS c l) Fl.CAL_BIAS_VALID = true
        ∧ t.get (Adr.PARK_CODE c l) Fl.PARK_CODE_STAGED = wrap 14 (parkCodeOf s.variant e r.bias r.ffSlope))
      ∧ (r.limit ≠ 0 → t.flag (Adr.CAL_RES c l) Fl.CAL_RES_REJECTED = true
        ∧ t.get (Adr.PARK_CODE c l) Fl.PARK_CODE_STAGED = s.get (Adr.PARK_CODE c l) Fl.PARK_CODE_STAGED))
    ∧ (∀ m p, (s.comb c).procs.head? = some p → s.idleLoops c = true → p.kind = 4 → (s.comb c).segDone = false →
      s.starts c 7 0 m.steps → s.flt.badWords = [] →
      let n := s.segSize c
      ((s.comb c).accums + n < 1024 → ∃ t, exec (.sadc c m) s = .next t ∧ (t.comb c).accums = (s.comb c).accums + n
        ∧ (t.comb c).segDone = true ∧ (t.comb c).sadcSums = SadcIn.sums m (s.comb c).sadcSums (s.comb c).accums n
        ∧ (t.comb c).procs = (s.comb c).procs ∧ t.ctl.lanes = s.ctl.lanes)
      ∧ (1024 ≤ (s.comb c).accums + n → ∃ t, exec (.sadc c m) s = .next t ∧ (t.comb c).procs = ((s.segWork c m).comb c).procs))
    ∧ (∀ r, (s.ctl.cal.runs.find? fun r => r.full && r.combs.isEmpty) = some r →
      (s.tick < r.settle ∨ s.groupReady r.group = false) → exec .fullGroupSettle s = .next s)
    ∧ (∀ r, (s.ctl.cal.runs.find? fun r => r.full && r.combs.isEmpty) = some r → r.settle ≤ s.tick → s.groupReady r.group = true →
      ((s.startGroup r.group r.avg).2 ≠ [] → ∃ t, exec .fullGroupSettle s = .next t ∧ t.ctl.cal.runs
          = (s.startGroup r.group r.avg).1.ctl.cal.runs.filter (· != r) ++ [{ r with combs := (s.startGroup r.group r.avg).2 }])
      ∧ ((s.startGroup r.group r.avg).2 = [] → r.group < 3 → ∃ t, exec .fullGroupSettle s = .next t ∧ t.ctl.cal.runs
          = (s.startGroup r.group r.avg).1.ctl.cal.runs.filter (· != r)
            ++ [{ r with group := r.group + 1, settle := s.tick + 5000000000, combs := [] }]))

/-! ## The time unit (spec/08_time_unit.md) -/

/-- R148, R149, R155. A write of INC_HI by the domain's discipliner stages INC, held to the range of R148, and flags a value outside it;
one of ADJ_TICKS stages the signed ADJ over that many ticks. The running increment, the other domain and every register
outside the written words stay. A writer that is not the discipliner stages nothing. -/
def Obligations.IncrementAndAdjustmentAreStaged : Prop :=
  ∀ (s : State) (d : Dom) (w : Writer) (v : Word), s.regsWf = true →
    let raw := getBits v 0 8 * 2 ^ 32 + s.get (tdAdr d) Fl.TD_INC_LO
    let c := max 0x19930BE0E (min 0x19A027525 raw)
    (s.mayWrite d w = true →
      (∃ t, exec (.incHi d w v) s = .next t ∧ (t.time.dom d).incPend = some c ∧ (t.time.dom d).servoTick = s.tick
        ∧ (t.time.dom d).inc = (s.time.dom d).inc ∧ t.time.dom (otherDom d) = s.time.dom (otherDom d)
        ∧ t.getPair (tdAdr d) Fl.TD_INC_LO Fl.TD_INC_HI = c ∧ (c ≠ raw → t.flag (tdAdr d) Fl.TD_INC_CLAMP = true)
        ∧ (∀ a, a ≠ tdAdr d + 0xC → a ≠ tdAdr d + 0x10 → t.rd a = s.rd a) ∧ t.ctl = s.ctl ∧ t.led = s.led)
      ∧ (∃ t, exec (.adjTicks d w v) s = .next t
        ∧ (t.time.dom d).adjPend = some (signed 48 (s.getPair (tdAdr d) Fl.TD_ADJ_LO Fl.TD_ADJ_HI), v.toNat)
        ∧ (t.time.dom d).servoTick = s.tick ∧ t.time.dom (otherDom d) = s.time.dom (otherDom d)
        ∧ t.get (tdAdr d) Fl.TD_ADJ_TICKS = v.toNat
        ∧ (∀ a, a ≠ tdAdr d + 0x1C → t.rd a = s.rd a) ∧ t.ctl = s.ctl ∧ t.led = s.led))
    ∧ (s.mayWrite d w = false → exec (.adjTicks d w v) s = .next s
      ∧ ∃ t, exec (.incHi d w v) s = .next t ∧ t.time = s.time ∧ t.get (tdAdr d) Fl.TD_INC_HI = s.get (tdAdr d) Fl.TD_INC_HI
        ∧ (∀ a, a ≠ tdAdr d + 0x10 → t.rd a = s.rd a))

/-- R150, R155. SET_GO by the discipliner stores SET_SEC_HI; where the domain is not the stamping domain, no switch is pending, SET_NS
is below 10⁹ and the domain has not stamped within 2.5 s, the SET waits for the next tick; else SET_REFUSED sets and nothing is
staged. Without the SET_GO bit nothing is staged. -/
def Obligations.SetIsStagedOrRefused : Prop :=
  ∀ (s : State) (d : Dom) (w : Writer) (v : Word), s.regsWf = true → s.mayWrite d w = true →
    (v.getLsbD 16 = true → d ≠ s.sdom → s.time.switchAt = none → s.get (tdAdr d) Fl.TD_SET_NS < 1000000000 →
      (∀ n, (s.time.dom d).stampEnd = some n → n + 1562500000 ≤ s.tick) →
      ∃ t, exec (.setGo d w v) s = .next t
        ∧ (t.time.dom d).setPend = some (s.get (tdAdr d) Fl.TD_SET_SEC_LO + 2 ^ 32 * getBits v 0 16, s.get (tdAdr d) Fl.TD_SET_NS)
        ∧ t.time.dom (otherDom d) = s.time.dom (otherDom d) ∧ t.get (tdAdr d) Fl.TD_SET_SEC_HI = getBits v 0 16
        ∧ (∀ a, a ≠ tdAdr d + 0x2C → t.rd a = s.rd a) ∧ t.ctl = s.ctl ∧ t.led = s.led)
    ∧ (v.getLsbD 16 = true → (d = s.sdom ∨ s.time.switchAt ≠ none ∨ 1000000000 ≤ s.get (tdAdr d) Fl.TD_SET_NS
        ∨ ∃ n, (s.time.dom d).stampEnd = some n ∧ s.tick < n + 1562500000) →
      ∃ t, exec (.setGo d w v) s = .next t ∧ t.flag (tdAdr d) Fl.TD_SET_REFUSED = true ∧ t.time = s.time
        ∧ (∀ a, a ≠ tdAdr d + 0x2C → t.rd a = s.rd a))
    ∧ (v.getLsbD 16 = false → ∃ t, exec (.setGo d w v) s = .next t ∧ t.time = s.time
        ∧ t.get (tdAdr d) Fl.TD_SET_SEC_HI = getBits v 0 16 ∧ (∀ a, a ≠ tdAdr d + 0x2C → t.rd a = s.rd a))

/-- R151, R154. SNAP waits for the next tick. A read of TIME_RD answers NS32 of the stamping domain and latches FRAC8, DOM and TQ for
its view. SW_REQ sets SW_PEND and names a strobe at least 1 µs ahead; while a switch pends it changes nothing. At t_sw the
other domain stamps: SW_PEND clears, SW_COUNT counts, TIME_DSW shows TICK and the new domain, and no domain's time changes. -/
def Obligations.ReadingTimeAndSwitchingTheStampingDomain : Prop :=
  ∀ s : State, s.regsWf = true →
    (s.bridgeOn = true → ∃ t, exec .snap s = .next t ∧ t.time.snapPend = true ∧ t.time.a = s.time.a ∧ t.time.b = s.time.b
      ∧ t.regs = s.regs ∧ t.ctl = s.ctl)
    ∧ (∀ view, s.viewOn view = true → ∃ t, exec (.timeRdRead view) s = .next t ∧ t.readData = s.now.ns32
      ∧ t.ctl.latches = SMap.insert s.ctl.latches (shadowKey view (Adr.TIME_RD + 4)) (s.now.frac8 + 256 * domIx s.sdom + 512 * s.tq)
      ∧ t.regs = s.regs ∧ t.time = s.time ∧ t.led = s.led)
    ∧ (s.bridgeOn = true → s.time.switchAt = none → ∃ t n, exec .swReq s = .next t ∧ t.time.switchAt = some n ∧ n % 5 = 0
      ∧ s.tick + 625 ≤ n ∧ (∀ l, (s.time.dom (otherDom s.sdom)).lastSet = some l → l + 625000 ≤ n)
      ∧ t.flag Adr.TIME_CTL Fl.TIME_CTL_SW_PEND = true ∧ t.sdom = s.sdom ∧ (∀ a, a ≠ Adr.TIME_CTL → t.rd a = s.rd a))
    ∧ (∀ n, s.time.switchAt = some n → exec .swReq s = .next s)
    ∧ (∀ n, s.time.switchAt = some n → s.tick < n → exec .domainSwitch s = .next s)
    ∧ (∀ n, s.time.switchAt = some n → n ≤ s.tick → ∃ t, exec .domainSwitch s = .next t ∧ t.sdom = otherDom s.sdom
      ∧ t.flag Adr.TIME_CTL Fl.TIME_CTL_SW_PEND = false
      ∧ t.get Adr.TIME_CTL Fl.TIME_CTL_SW_COUNT = min 65535 (s.get Adr.TIME_CTL Fl.TIME_CTL_SW_COUNT + 1)
      ∧ t.getPair Adr.TIME_DSW Fl.TIME_DSW_TICK_LO Fl.TIME_DSW_TICK_HI = s.tick % 2 ^ 64
      ∧ t.get Adr.TIME_DSW Fl.TIME_DSW_TO = domIx (otherDom s.sdom) ∧ t.time.switchAt = none ∧ t.time.anchorOwed = some s.tick
      ∧ (∀ d, (t.time.dom d).total = (s.time.dom d).total ∧ (t.time.dom d).frac = (s.time.dom d).frac
          ∧ t.tqOf d = s.tqOf d)
      ∧ (t.time.dom s.sdom).stampEnd = some s.tick)

/-- R155. STATE written by the discipliner (judged against SRC as it stood) is the domain's STATE, and the host's word also sets SRC. A
LOCKED domain whose TQ_WD (10 ms units) passes without a servo write sets WD_EXP and falls to HOLDOVER; one in HOLDOVER for
HOLD_MAX seconds sets HOLD_EXP and falls to FREE. The loss of Gwynique's source takes LOCKED to HOLDOVER. Each minute the marks
of both domains begin anew (R274). No command of these moves a domain's time. -/
def Obligations.TimeQualityMovesByItsRules : Prop :=
  ∀ (s : State) (d : Dom), s.regsWf = true →
    (∀ w v, s.mayWrite d w = true → ∃ t, exec (.tqState d w v) s = .next t ∧ t.tqOf d = getBits v 0 2
      ∧ (w = .host → t.get (tdAdr d) Fl.TD_SRC = getBits v 16 3) ∧ (w = .gwynique → t.get (tdAdr d) Fl.TD_SRC = s.get (tdAdr d) Fl.TD_SRC)
      ∧ (t.time.dom d).servoTick = s.tick ∧ (t.time.dom d).total = (s.time.dom d).total)
    ∧ (∀ v, s.bridgeOn = true → s.mayWrite d .host = false → ∃ t, exec (.tqState d .host v) s = .next t ∧ t.tqOf d = s.tqOf d
      ∧ t.get (tdAdr d) Fl.TD_SRC = getBits v 16 3 ∧ t.time = s.time ∧ (∀ a, a ≠ tdAdr d + 0x30 → t.rd a = s.rd a))
    ∧ (s.tqOf d = 2 → s.get (tdAdr d) Fl.TD_TQ_WD ≠ 0 →
      (s.time.dom d).servoTick + 6250000 * s.get (tdAdr d) Fl.TD_TQ_WD ≤ s.tick → ∃ t, exec (.tqWdExpiry d) s = .next t
      ∧ t.tqOf d = 3 ∧ t.flag (tdAdr d) Fl.TD_WD_EXP = true ∧ (t.time.dom d).total = (s.time.dom d).total
      ∧ (t.time.dom d).holdTick = s.tick)
    ∧ (s.tqOf d = 3 → s.get (tdAdr d) Fl.TD_HOLD_MAX ≠ 0 →
      (s.time.dom d).holdTick + 625000000 * s.get (tdAdr d) Fl.TD_HOLD_MAX ≤ s.tick → ∃ t, exec (.holdMaxExpiry d) s = .next t
      ∧ t.tqOf d = 0 ∧ t.flag (tdAdr d) Fl.TD_HOLD_EXP = true ∧ (t.time.dom d).total = (s.time.dom d).total)
    ∧ (s.mayWrite d .gwynique = true → s.tqOf d = 2 → ∃ t, exec (.sourceLost d) s = .next t ∧ t.tqOf d = 3
      ∧ (t.time.ptp d).valid = false ∧ (t.time.dom d).total = (s.time.dom d).total)
    ∧ (s.gwqRuns = true → s.time.minuteTick + 37500000000 ≤ s.tick → ∃ t, exec .timeMinute s = .next t
      ∧ t.time.minuteTick = s.tick ∧ (t.time.dom d).held = 2 ^ s.tqOf d ∧ (t.time.dom d).sets = 0 ∧ (t.time.dom d).maxOfs = 0
      ∧ (∀ a, quiet a = true → t.rd a = s.rd a) ∧ (t.time.dom d).total = (s.time.dom d).total)

/-- R157 to R160. A PTP message of the client's own port, transport, domainNumber and masters is counted by its kind, a two-step
Sync as a Sync; another changes nothing. Where PTP is the source of the domain, a Sync or Follow_Up of the best master gives the
mean path delay and the offset corrected by the asymmetry; OFFSET shows the offset, held to its 32 bits. A PPS edge within 0.5 s
of the one before only counts EXTRA; one with no line waiting counts nothing; the first good line, whose LF came 100 ms to 1.1 s
before the edge, names it. A TOD line of bad syntax or check counts BAD and clears LINE_OK; a good one waits behind the others.
Each of these edges enters capture unit 4 or 5, or counts its OVF where four entries wait. The forms of messages, lines and edges
are the model's (logs 35 and 95). -/
def Obligations.SourcesOfTimeAreJudged : Prop :=
  ∀ s : State, s.regsWf = true →
    (∀ d m, s.gwqRuns = true → s.has .mgmtU = true → s.srcOf d ≠ 1 → m.kind ≤ 6 → (s.time.ptp d).mine m = true →
      (m.kind = 2 → (s.time.ptp d).sends s.tick m = true) →
      ∃ t, exec (.ptpMessage d m) s = .next t
      ∧ (t.time.ptp d).counts = (s.time.ptp d).counts.set (ptpCount m.kind) ((s.time.ptp d).counts.getD (ptpCount m.kind) 0 + 1)
      ∧ (m.kind < 4 ∨ m.kind = 6 → (t.time.ptp d).foreign = (s.time.ptp d).foreign)
      ∧ (m.kind = 5 → ∀ x, x ∈ (t.time.ptp d).foreign ↔ x ∈ (s.time.ptp d).foreign ∧ x.1 ≠ m.clockId)
      ∧ (m.kind = 4 → (t.time.ptp d).valid = true ∧ (m.clockId, m.ann) ∈ (t.time.ptp d).foreign)
      ∧ (m.kind = 2 → (t.time.ptp d).reqAt = some (ethStamp (s.time.dom d) m.err) ∧ (t.time.ptp d).reqTick = some s.tick)
      ∧ (∀ x t3, m.kind = 3 → (s.time.ptp d).best = some (m.clockId, x) → (s.time.ptp d).reqAt = some t3 →
          (t.time.ptp d).toMaster = some (m.time - t3) ∧ (t.time.ptp d).reqAt = none)
      ∧ (∀ x, m.kind = 6 → (s.time.ptp d).best = some (m.clockId, x) → (t.time.ptp d).syncAt = some (ethStamp (s.time.dom d) m.err))
      ∧ t.regs = s.regs ∧ t.time.a = s.time.a ∧ t.time.b = s.time.b)
    ∧ (∀ d m, (s.time.ptp d).mine m = false → exec (.ptpMessage d m) s = .next s)
    ∧ (∀ d m, m.kind = 2 → (s.time.ptp d).sends s.tick m = false → exec (.ptpMessage d m) s = .next s)
    ∧ (∀ d m x back diff, s.gwqRuns = true → s.has .mgmtU = true → s.srcOf d = 1 → (s.time.ptp d).mine m = true →
      (s.time.ptp d).valid = true → (s.time.ptp d).best = some (m.clockId, x) → (s.time.ptp d).toMaster = some back →
      (s.time.ptp d).diff (ethStamp (s.time.dom d) m.err) m = some diff →
      let delay := (diff + back) / 2
      let ofs := diff - delay - (s.time.ptp d).asym
      ∃ t, exec (.ptpMessage d m) s = .next t
        ∧ signed 32 (t.get (tdAdr d) Fl.TD_OFFSET) = max (-2147483648) (min 2147483647 ofs)
        ∧ (t.time.ptp d).offset = ofs ∧ (t.time.ptp d).delay = delay
        ∧ (t.time.dom d).total = (s.time.dom d).total
        ∧ ((s.tqOf d = 0 ∨ s.tqOf d = 3) → t.tqOf d = 1)
        ∧ (s.tqOf d = 1 → ofs.natAbs ≤ (s.time.ptp d).lockThr * 256 → 15 ≤ (s.time.ptp d).good → t.tqOf d = 2)
        ∧ (s.tqOf d = 2 → 4 * ((s.time.ptp d).lockThr * 256) < ofs.natAbs → 3 ≤ (s.time.ptp d).bad → t.tqOf d = 3))
    ∧ (∀ b sub n, (s.time.pps b).lastEdge = some n → s.tick < n + 312500000 → (s.time.pps b).lines = [] →
      ∃ t, exec (.ppsEdge b sub) s = .next t
      ∧ t.get (Adr.TOD (if b then 1 else 0)) Fl.TOD_EXTRA = min 255 (s.get (Adr.TOD (if b then 1 else 0)) Fl.TOD_EXTRA + 1)
      ∧ t.time.pps b = s.time.pps b ∧ EdgeCaptured s t (if b then 5 else 4) (min sub 15))
    ∧ (∀ b sub, (∀ n, (s.time.pps b).lastEdge = some n → n + 312500000 ≤ s.tick) → (s.time.pps b).lines = [] →
      ∃ t, exec (.ppsEdge b sub) s = .next t ∧ (t.time.pps b).lastEdge = some s.tick ∧ (t.time.pps b).edges = (s.time.pps b).edges + 1
      ∧ t.rd (Adr.TOD (if b then 1 else 0)) = s.rd (Adr.TOD (if b then 1 else 0)) ∧ EdgeCaptured s t (if b then 5 else 4) (min sub 15))
    ∧ (∀ b sub sec lf utc leap, (∀ n, (s.time.pps b).lastEdge = some n → n + 312500000 ≤ s.tick) →
      (s.time.pps b).lines = [(sec, lf, utc, leap)] → lf + 62500000 ≤ s.tick → s.tick ≤ lf + 687500000 →
      (s.time.pps b).lastSec = none → s.srcOf .A < 2 → s.srcOf .B < 2 →
      ∃ t, exec (.ppsEdge b sub) s = .next t ∧ t.flag (Adr.TOD (if b then 1 else 0)) Fl.TOD_LINE_OK = true
        ∧ t.getPair (Adr.TOD (if b then 1 else 0)) Fl.TOD_SEC_LO Fl.TOD_SEC_HI = sec % 2 ^ 48
        ∧ (t.time.pps b).lines = [] ∧ (t.time.pps b).lastSec = some sec ∧ (t.time.pps b).lastEdge = some s.tick
        ∧ t.time.a = s.time.a ∧ t.time.b = s.time.b ∧ EdgeCaptured s t (if b then 5 else 4) (min sub 15))
    ∧ (∀ b l, todParse l = none → ∃ t, exec (.todLine b l) s = .next t
      ∧ t.get (Adr.TOD (if b then 1 else 0)) Fl.TOD_BAD = min 255 (s.get (Adr.TOD (if b then 1 else 0)) Fl.TOD_BAD + 1)
      ∧ t.flag (Adr.TOD (if b then 1 else 0)) Fl.TOD_LINE_OK = false ∧ t.time = s.time
      ∧ (∀ a, a ≠ Adr.TOD (if b then 1 else 0) → t.rd a = s.rd a))
    ∧ (∀ b l x, todParse l = some x → ∃ t, exec (.todLine b l) s = .next t
      ∧ (t.time.pps b).lines = (s.time.pps b).lines ++ [(x.1, s.tick, x.2.1, x.2.2)] ∧ t.regs = s.regs
      ∧ t.time.pps (!b) = s.time.pps (!b))
    ∧ (s.gwqRuns = true → ∃ t, exec .anchor s = .next t ∧ t.time.anchorOwed = none ∧ t.time.anum = (s.time.anum + 1) % 65536
      ∧ t.time.a.setf = false ∧ t.time.b.setf = false
      ∧ t.time.a.total = s.time.a.total ∧ t.time.b.total = s.time.b.total)

/-- R161 to R164. An edge of the selected polarity enters the FIFO of TS_IN n while it holds fewer than four entries; at four it only counts OVF
up to 255; other edges change nothing. A read of word +0x14 answers that word and removes the head. EN = 1 arms an owner's
unit, EN = 0 disarms it. An armed unit whose target is reached sets FIRED; a one-shot unit is then no longer armed. A pulse
ends once its width has passed. -/
def Obligations.CaptureAndCompareUnits : Prop :=
  ∀ (s : State) (n : Nat), s.regsWf = true →
    (∀ r sub, n < 4 → s.get (Adr.CAP n) Fl.CAP_EDGE = (if r then 0 else 1) → (s.caps n).length < 4 → sub < 16 →
      ∃ t, exec (.tsInCapture n r sub) s = .next t
        ∧ t.caps n = s.caps n ++ [⟨s.tick, (s.time.a.sub sub).ns32, (s.time.b.sub sub).ns32, (s.time.a.sub sub).frac8, (s.time.b.sub sub).frac8⟩]
        ∧ t.get (Adr.CAP n) Fl.CAP_LEVEL = (s.caps n).length + 1 ∧ t.flag (Adr.CAP n) Fl.CAP_VALID = true
        ∧ t.get (Adr.CAP n) Fl.CAP_OVF = s.get (Adr.CAP n) Fl.CAP_OVF ∧ t.ctl = s.ctl
        ∧ (∀ a, a < Adr.CAP n ∨ Adr.CAP n + 0x18 ≤ a → t.rd a = s.rd a))
    ∧ (∀ r sub, n < 4 → s.get (Adr.CAP n) Fl.CAP_EDGE = 2 → 4 ≤ (s.caps n).length →
      ∃ t, exec (.tsInCapture n r sub) s = .next t ∧ t.get (Adr.CAP n) Fl.CAP_OVF = min 255 (s.get (Adr.CAP n) Fl.CAP_OVF + 1)
        ∧ t.time = s.time ∧ (∀ a, a ≠ Adr.CAP n → t.rd a = s.rd a))
    ∧ (∀ r sub, s.get (Adr.CAP n) Fl.CAP_EDGE = (if r then 1 else 0) → exec (.tsInCapture n r sub) s = .next s)
    ∧ (n < 9 → s.bridgeOn = true →
      ∃ t, exec (.capturePop n) s = .next t ∧ t.readData = (s.rd (Adr.CAP n + 0x14)).toNat ∧ t.caps n = (s.caps n).tail
        ∧ t.get (Adr.CAP n) Fl.CAP_LEVEL = ((s.caps n).length - 1) % 8 ∧ (∀ m, m ≠ n → t.caps m = s.caps m) ∧ t.ctl = s.ctl
        ∧ (∀ a, a < Adr.CAP n ∨ Adr.CAP n + 0x18 ≤ a → t.rd a = s.rd a))
    ∧ (∀ v : Word, 24 ≤ n → n < 32 → s.bridgeOn = true → ∃ t, exec (.cmpEn n v) s = .next t
      ∧ (n ∈ t.time.armed ↔ v.getLsbD 0 = true) ∧ (∀ m, m ≠ n → (m ∈ t.time.armed ↔ m ∈ s.time.armed))
      ∧ (n ∈ t.time.late ↔ v.getLsbD 0 = true ∧ (s.store (Adr.CMP n) v).cmpReached n = true)
      ∧ t.time.pulses = s.time.pulses ∧ (∀ a, a ≠ Adr.CMP n → t.rd a = s.rd a))
    ∧ (n < 32 → n ∈ s.time.armed → s.cmpReached n = true → ∃ t, exec (.cmpFired n) s = .next t
      ∧ t.flag (Adr.CMP n) Fl.CMP_FIRED = true ∧ (n ∈ s.time.late → t.flag (Adr.CMP n) Fl.CMP_LATE = true) ∧ n ∉ t.time.late
      ∧ (n ∈ t.time.armed ↔ s.flag (Adr.CMP n) Fl.CMP_PERIODIC = true ∧ s.get (Adr.CMP n) Fl.CMP_PERIOD ≠ 0)
      ∧ t.time.pulses = (if s.get (Adr.CMP n) Fl.CMP_OUT = 0 then s.time.pulses else s.time.pulses
          ++ [(n, s.get (Adr.CMP n) Fl.CMP_OUT, s.tick + max 1 (s.get (Adr.CMP n) Fl.CMP_WIDTH))])
      ∧ t.time.a = s.time.a ∧ t.time.b = s.time.b ∧ t.plan = s.plan)
    ∧ (n < 32 → n ∉ s.time.armed → exec (.cmpFired n) s = .next s)
    ∧ (∃ t, exec (.tsOutPulseEnd n) s = .next t ∧ t.regs = s.regs ∧ t.ctl = s.ctl
      ∧ ∀ p, p ∈ t.time.pulses ↔ p ∈ s.time.pulses ∧ (p.1 ≠ n ∨ s.tick < p.2.2))

/-- R16, R17, R149, R150. A tick of a running spine adds one to TICK. With no SET waiting, each domain advances as R149 says: INC and the step
of a spread adjustment added to its 2⁻³² ns, ns and seconds carried. A waiting SET puts its second and nanosecond in place and
counts SET_COUNT. A waiting snapshot stands in the SNAP words. Where nothing else falls due on the tick, no other register
changes. Held in reset the spine does not tick. The loss of REFCLK and its
return change REFCLK's fault alone. R339, R340. On a tick, a target of the bus matrix that serves nothing grants a head against which
no other of its heads wins, and serves it two ticks a beat; each head it passes over has lost once more, and waits on, from its
AGE_LIMIT-th loss at QoS 15 until it is granted. -/
def Obligations.SpineTickAdvancesTime : Prop :=
  ∀ s : State, s.regsWf = true →
    ((s.boot.porLow = true ∨ s.boot.dead = true) → exec .spineTick s = .next s)
    ∧ (s.boot.porLow = false → s.boot.dead = false → s.tick < 2 ^ 64 - 1 → s.time.a.setPend = none → s.time.b.setPend = none →
      ∃ t, exec .spineTick s = .next t ∧ t.tick = s.tick + 1
        ∧ t.time.a = (s.time.a.step (s.tick + 1)).1 ∧ t.time.b = (s.time.b.step (s.tick + 1)).1
        ∧ (s.time.snapPend = true → t.flag Adr.TIME_CTL Fl.TIME_CTL_SNAP_DONE = true
          ∧ t.getPair Adr.TIME_SNAP_TICK Fl.TIME_SNAP_TICK_TICK_LO Fl.TIME_SNAP_TICK_TICK_HI = s.tick + 1
          ∧ (∀ d, t.get (tdAdr d) Fl.TD_SNAP_NS = (t.time.dom d).ns % 2 ^ 30)
          ∧ (∀ d, t.get (tdAdr d) Fl.TD_SNAP_FRAC16 = (t.time.dom d).frac16 % 2 ^ 16))
        ∧ (s.time.snapPend = false → s.ctl.pilot.switch = false → s.flag Adr.HK_STAT Fl.HK_STAT_REF_SETTLED = true →
          s.exp.srx = [] → s.exp.fcWait = [] → (∀ b, (s.time.pps b).lines = []) → s.bus.heads = [] → s.bus.execs = [] →
          s.bus.notices = [] → s.pair.taps = [] → ∀ a, quiet a = true → t.rd a = s.rd a))
    ∧ (∀ d sec ns, s.boot.porLow = false → s.boot.dead = false → (s.time.dom d).setPend = some (sec, ns) →
        (s.time.dom (otherDom d)).setPend = none →
      ∃ t, exec .spineTick s = .next t ∧ (t.time.dom d).sec = sec ∧ (t.time.dom d).ns = ns ∧ (t.time.dom d).frac = 0
        ∧ (t.time.dom d).setPend = none ∧ t.get (tdAdr d) Fl.TD_SET_COUNT = (s.get (tdAdr d) Fl.TD_SET_COUNT + 1) % 256
        ∧ t.tqOf d = min (s.tqOf d) 1)
    ∧ (∃ t, exec .refclkLoss s = .next t ∧ t.time.refOk = false
        ∧ (s.classFor 0xB0 ≠ 2 → ∀ a, quiet a = true → t.rd a = s.rd a) ∧ t.time.a = s.time.a ∧ t.time.b = s.time.b)
    ∧ (∃ t, exec .refclkRelock s = .next t ∧ t.time.refOk = true ∧ t.flag (Adr.FLT_SRC 0xB0) Fl.FLT_SRC_ACTIVE = false
        ∧ (∀ a, a ≠ Adr.FLT_SRC 0xB0 → t.rd a = s.rd a) ∧ t.ctl = s.ctl)
    ∧ (∀ g w, SMap.find 0 s.bus.busy g ≤ s.tick → busPick (s.bus.heads.filter fun h => h.target == g) = some w →
      w ∈ s.bus.heads ∧ w.target = g ∧ (∀ h ∈ s.bus.heads, h.target = g → h.wins w = false)
        ∧ SMap.find 0 (s.busGrant g).bus.busy g = s.tick + beatTicks w.req.len
        ∧ (∀ h ∈ s.bus.heads, h ≠ w → ∃ k ∈ (s.busGrant g).bus.heads, k.req = h.req ∧ k.target = h.target ∧ k.arrive = h.arrive
          ∧ k.losses = (if h.target = g then h.losses + 1 else h.losses)
          ∧ k.raised = (h.raised || (decide (h.target = g) && decide (s.ageLimit ≤ h.losses + 1)))
          ∧ k.eff = (if k.raised then 15 else h.qos)))
    ∧ (∀ g, s.tick < SMap.find 0 s.bus.busy g → s.busGrant g = s)

/-! ## Plans, commits, parks (spec/06_reconfiguration.md, spec/12_mailbox_commands.md) -/

/-- R104 to R111, R237. A well-formed PLAN_COMPILE of an owner joins the compiles in the order taken, for the slot it names or the one that
anySlot finds, and waits. The compile at the head ends with SLOT_BUSY where its slot is in use, with COLLATERAL where forbidden collateral
exists (nothing written), else with its slot holding the compiled words. PLAN_FREE empties a slot that is not busy; PLAN_READ changes no plan, but
a slot that it, or a compile for its BASE, finds with bad check bits is EMPTY and asserts DRAM_PLAN (R313). -/
def Obligations.PlanSlotsAreCompiledReadAndFreed : Prop :=
  ∀ s : State, s.regsWf = true →
    (∀ q t id, s.runs q 0x0100 t → t.role = 1 → s.pastBulk q t.bufAddr t.bufLen = false →
      s.pastBulk q (t.p 32 8) (t.p 40 4) = false → 64 ≤ t.p 40 4 → t.bufOk = true → rdLE t.buf 0 4 = 0x4B504C54 →
      rdLE t.buf 4 2 ≤ 1024 → 16 + 4 * rdLE t.buf 4 2 ≤ t.bufLen →
      ((t.p 24 2 < numSlots s.variant ∧ id = t.p 24 2) ∨ (t.p 24 2 = 0xffff ∧ s.anySlot = some id)) → (∀ n, s.checkBad 0xA5 n = false) →
      ∃ u, exec (.planCompile q) s = .next u ∧ u.plan.compiles.map (fun x => (x.q, x.id, x.list))
          = s.plan.compiles.map (fun x => (x.q, x.id, x.list)) ++ [(q, id, t.buf)]
        ∧ u.plan.slots = s.plan.slots ∧ u.plan.inForce = s.plan.inForce ∧ u.plan.commits = s.plan.commits ∧ u.regs = s.regs ∧ u.led = s.led)
    ∧ (∀ x rest b, s.plan.compiles = x :: rest → x.base = some b → s.boot.warmDue = false →
      (∀ y, rest.head? = some y → 0x100 ≤ rdLE y.list 6 2 ∨ (s.checkBad 0xA5 (rdLE y.list 6 2) = false ∧ s.flt.inj = [])) →
      let r := compilePlan s.variant (portEntries x.list (rdLE x.list 4 2)) b.words
      let barred := (x.noColl || (rdLE x.list 8 2).testBit 0) && !r.collateral.isEmpty
      ∃ u, exec .compileCompletion s = .next u ∧ u.plan.compiles.length = rest.length ∧ u.plan.inForce = s.plan.inForce
        ∧ u.plan.commits = s.plan.commits
        ∧ (barred = false → s.slotBusy x.id = false → u.plan.slots = SMap.insert s.plan.slots x.id ⟨r.words, none⟩)
        ∧ ((barred = true ∨ s.slotBusy x.id = true) → u.plan.slots = s.plan.slots)
        ∧ (∀ y k, s.sess? x.q = some y → y.taken = some k → barred = false → s.slotBusy x.id = true → Completed s u x.q 0x14 []))
    ∧ (∀ q t, s.runs q 0x0101 t → t.role = 1 → s.pastBulk q t.bufAddr t.bufLen = false → t.p 24 1 < numSlots s.variant →
      ((s.slot? (t.p 24 1) = none ∨ s.slotBusy (t.p 24 1) = false) → ∃ u, exec (.planFree q) s = .next u ∧ Completed s u q 0 []
        ∧ u.plan.slots = SMap.erase s.plan.slots (t.p 24 1) ∧ u.plan.inForce = s.plan.inForce ∧ u.led = s.led)
      ∧ (s.slot? (t.p 24 1) ≠ none → s.slotBusy (t.p 24 1) = true → ∃ u, exec (.planFree q) s = .next u ∧ Completed s u q 0x14 []
        ∧ u.plan = s.plan))
    ∧ (∀ q t, s.runs q 0x0105 t → t.role = 1 → s.pastBulk q t.bufAddr t.bufLen = false → t.p 24 1 < numSlots s.variant →
      20480 ≤ t.bufLen → s.checkBad 0xA5 (t.p 24 1) = true → ∃ u r, exec (.planRead q) s = .next u ∧ u.slot? (t.p 24 1) = none
        ∧ u.flag (Adr.FLT_SRC 0xA5) Fl.FLT_SRC_VALID = true ∧ Completed s u q 0 (le 1 0 ++ r))
    ∧ (∀ q t, s.runs q 0x0105 t → t.role = 1 → s.pastBulk q t.bufAddr t.bufLen = false → t.p 24 1 < numSlots s.variant →
      20480 ≤ t.bufLen → s.checkBad 0xA5 (t.p 24 1) = false → ∃ u bits, exec (.planRead q) s = .next u
        ∧ Completed s u q 0 (le 1 (if (s.slot? (t.p 24 1)).isSome then 1 else 0) ++ le 1 bits)
        ∧ bits % 2 = (if s.plan.inForce ≠ [] ∧ s.plan.forceId = t.p 24 1 then 1 else 0)
        ∧ bits / 4 % 2 = (if s.armed = some (t.p 24 1) then 1 else 0) ∧ u.plan = s.plan ∧ u.led = s.led)

/-- R122, R123, R124, R237. Unpaired, a PLAN_COMMIT of a COMPILED slot whose T_req is valid, within 2 s, not too late and clear of
accepted commits is accepted behind them, with the make strobe of T_req, its break D_s + 176 ns earlier, a COMMIT entry and its
completion. PLAN_ARM arms its slot or none. PLAN_PARK reserves a ledger entry and waits. OUT_READ answers the port count. None changes
the plan in force. -/
def Obligations.CommitsArmsAndParksAreAccepted : Prop :=
  ∀ (s : State) (q : Nat) (t : Taken), s.regsWf = true → s.pairMode = false → s.role ≠ 2 → s.pastBulk q t.bufAddr t.bufLen = false →
    (∀ x, s.runs q 0x0102 t → t.role = 1 → t.p 24 1 < numSlots s.variant → s.slot? (t.p 24 1) = some x →
      s.checkBad 0xA5 (t.p 24 1) = false → t.flag 0 = false → t.ns 32 < 1000000000 →
      let k := s.costOf x.words
      let make := strobeAt (s.tickFor (t.sec 32) (t.ns 32))
      (t.sec 32 * 1000000000 + t.ns 32) * 2 ^ 32 ≤ s.now.total * 2 ^ 32 + s.now.frac + 2000000000 * 2 ^ 32 →
      s.plan.commits.length < 16 → s.overlaps make k.ds = false → s.tooLate s.tick make k.ds = false → s.ledgerRoom 1 = true →
      ∃ u c, exec (.planCommit q) s = .next u ∧ u.plan.commits = s.plan.commits ++ [c] ∧ c.id = t.p 24 1 ∧ c.words = x.words
        ∧ c.path = 0 ∧ c.tMake = make ∧ c.tBreak = make - (k.ds + 176) * 5 / 8 ∧ c.phase = 0 ∧ c.ackBy = none
        ∧ u.plan.inForce = s.plan.inForce ∧ u.plan.slots = s.plan.slots ∧ Completed s u q 0 (u.commitResult make k)
        ∧ (s.boot.recovery = false → Logged s u 0x0020 q))
    ∧ (s.runs q 0x0102 t → t.role = 1 → t.p 24 1 < numSlots s.variant → s.slot? (t.p 24 1) = none →
      (t.flag 0 = true ∨ t.ns 32 < 1000000000) → ∃ u, exec (.planCommit q) s = .next u ∧ Completed s u q 0x15 [] ∧ u.plan = s.plan)
    ∧ (s.runs q 0x0103 t → t.role = 1 → (t.p 24 2 = 0xffff ∨ (t.p 24 2 < numSlots s.variant ∧ s.slot? (t.p 24 2) ≠ none)) →
      (t.p 24 2 ≠ 0xffff → s.checkBad 0xA5 (t.p 24 2) = false) → ∃ u, exec (.planArm q) s = .next u ∧ Completed s u q 0 [] ∧ u.plan = s.plan ∧ u.led = s.led
        ∧ u.armed = (if t.p 24 2 = 0xffff then none else some (t.p 24 2 % 256)))
    ∧ (s.runs q 0x0104 t → (t.role = 1 ∨ (t.role = 2 ∧ t.grant.testBit (t.p 24 2) = true)) → t.mask.testBit 2 = true →
      t.p 24 2 < numPorts s.variant → t.p 26 1 ≤ 1 → s.ledgerRoom 1 = true →
      ∃ u, exec (.planPark q) s = .next u ∧ u.plan.parks = s.plan.parks ++
          [⟨t.p 24 2, t.p 26 1 == 1, t.role == 2, strobeAt (s.tick + s.planLead), q, t.role⟩]
        ∧ u.led.parkRes = s.led.parkRes + 1 ∧ u.led.entries = s.led.entries ∧ u.plan.inForce = s.plan.inForce
        ∧ u.ctl.lanes = s.ctl.lanes ∧ ∃ y k, u.sess? q = some y ∧ y.taken = some k ∧ k.phase = .waiting)
    ∧ (s.runs q 0x0106 t → (t.role = 1 ∨ t.role = 2) → t.mask.testBit 0 = true → 4 * numPorts s.variant ≤ t.bufLen →
      ∃ u, exec (.outRead q) s = .next u ∧ Completed s u q 0 (le 2 (numPorts s.variant)) ∧ u.plan = s.plan ∧ u.led = s.led
        ∧ ∀ y, u.sess? q = some y → s.dmaOk q = true → y.hostBuf = (t.bufAddr, (List.range (numPorts s.variant)).flatMap fun o =>
            le 4 (if t.role = 1 then (s.out o).input + 512 * (s.out o).st + 65536 * (s.out o).gen else s.outVWord t.grant o)))

/-- R112 to R117, R78, R124. At T_break the commit at the head puts its words in force and steps GENERATION; 25 ticks later its lanes
start from their set-points towards the plan's; each profile strobe places each moving lane at φ0 + Δφ·S; after D_s the lanes
stand at φ0 + Δφ and leave MOVING; at T_make the commit leaves, PLAN_LAST shows its DMAX and D_s, and GO_OK only stays clear for 1 µs.
Before its instant, and out of its turn, each of them changes nothing. That the compare unit of the break is left with EN = 0 and
FIRED = 1 is the model's reading (log 36). -/
def Obligations.CommitIsCarriedOutOnItsStrobes : Prop :=
  ∀ (s : State) (c : Commit) (rest : List Commit), s.regsWf = true → s.ctl.tablesWf = true → s.plan.commits = c :: rest →
    (c.phase = 0 → c.ackBy = none → c.tBreak ≤ s.tick → c.unit < 16 → (∀ n, s.checkBad (0x9C + n) c.seq = false) → ∃ u c', exec .breakStrobe s = .next u
      ∧ u.plan.inForce = c.words ∧ u.plan.forceId = c.id ∧ u.plan.commits = c' :: rest ∧ c'.phase = 1 ∧ c'.tMake = c.tMake
      ∧ u.get Adr.PLAN_STAT Fl.PLAN_STAT_GENERATION = (match c.setGen with
          | some g => g % 65536 | none => (s.get Adr.PLAN_STAT Fl.PLAN_STAT_GENERATION + 1) % 65536)
      ∧ u.flag (Adr.CMP c.unit) Fl.CMP_EN = false ∧ u.flag (Adr.CMP c.unit) Fl.CMP_FIRED = true ∧ u.time = s.time ∧ u.led = s.led)
    ∧ ((c.phase ≠ 0 ∨ c.ackBy ≠ none ∨ s.tick < c.tBreak) → exec .breakStrobe s = .next s)
    ∧ ((c.phase ≠ 1 ∨ s.tick < c.tBreak + 25) → exec .moveStart s = .next s)
    ∧ ((c.phase ≠ 2 ∨ c.ds / 8 ≤ c.strobe ∨ s.tick < c.tBreak + 25 + 5 * (c.strobe + 1)) → exec .profileStep s = .next s)
    ∧ ((c.phase ≠ 2 ∨ c.strobe < c.ds / 8 ∨ s.tick < c.tBreak + 25 + c.ds * 5 / 8) → exec .moveEnd s = .next s)
    ∧ ((c.phase ≠ 3 ∨ s.tick < c.tMake) → exec .make s = .next s)
    ∧ (c.phase = 1 → c.tBreak + 25 ≤ s.tick → ∃ u, exec .moveStart s = .next u
      ∧ u.plan.commits = { c with phase := 2, strobe := 0 } :: rest ∧ u.plan.inForce = s.plan.inForce
      ∧ (∀ e p, e < numElems s.variant → s.moveTarget c e (s.lane e) = some p → p ≠ wrap16 (s.lane e).sp →
          (u.lane e).st = 6 ∧ (u.lane e).phi0 = wrap16 (s.lane e).sp ∧ (u.lane e).dphi = p - wrap16 (s.lane e).sp)
      ∧ (∀ e, e < numElems s.variant → s.moveTarget c e (s.lane e) = none → u.lane e = s.lane e))
    ∧ (c.phase = 2 → c.strobe < c.ds / 8 → c.tBreak + 25 + 5 * (c.strobe + 1) ≤ s.tick → ∃ u, exec .profileStep s = .next u
      ∧ u.plan.commits = { c with strobe := c.strobe + 1 } :: rest
      ∧ (∀ e, e < numElems s.variant → (s.lane e).st = 6 → (s.lane e).stepped = false →
          (u.lane e).sp = wrap 16 ((s.lane e).phi0 + asr ((s.lane e).dphi * moveS c.lim c.dmax (c.strobe + 1) + 32768) 16))
      ∧ (∀ e, e < numElems s.variant → ((s.lane e).st ≠ 6 ∨ (s.lane e).stepped = true) → u.lane e = s.lane e))
    ∧ (c.phase = 2 → c.ds / 8 ≤ c.strobe → c.tBreak + 25 + c.ds * 5 / 8 ≤ s.tick → ∃ u, exec .moveEnd s = .next u
      ∧ u.plan.commits = { c with phase := 3 } :: rest
      ∧ (∀ e, (s.lane e).st = 6 → (s.lane e).stepped = false → (u.lane e).st ≠ 6
        ∧ (u.lane e).sp = wrap 16 ((s.lane e).phi0 + (s.lane e).dphi)
        ∧ (u.lane e).committed = s.codeFor e ((s.lane e).phi0 + (s.lane e).dphi) (s.lane e).integ)
      ∧ (∀ e, (s.lane e).st ≠ 6 → u.lane e = s.lane e))
    ∧ (c.phase = 3 → c.tMake ≤ s.tick → ∃ u, exec .make s = .next u ∧ u.plan.commits = rest ∧ u.plan.goHold = s.tick + 625
      ∧ u.plan.inForce = s.plan.inForce ∧ u.get Adr.PLAN_LAST Fl.PLAN_LAST_DMAX = c.dmax % 2 ^ Fl.PLAN_LAST_DMAX.width
      ∧ u.get Adr.PLAN_LAST Fl.PLAN_LAST_DUR = c.ds % 2 ^ Fl.PLAN_LAST_DUR.width
      ∧ u.flag Adr.PLAN_STAT Fl.PLAN_STAT_GO_OK = false
      ∧ (∀ e, (∀ o, o ∈ c.affected → e ≠ gateIx s.variant o) → u.lane e = s.lane e))
    ∧ (∃ u, exec .goOkReenable s = .next u ∧ u.flag Adr.PLAN_STAT Fl.PLAN_STAT_GO_OK = false ∧ u.plan = s.plan
      ∧ (∀ a, a ≠ Adr.PLAN_STAT → u.rd a = s.rd a))

/-- R121, R237, R124. A park whose instant has come leaves the list, its gate lane under a plan park, and its reserved entry is written.
An unpark whose conditions hold ends the plan park; where they do not hold no lane changes. A park before its instant waits. With
no commit accepted and the microsecond past, GO_OK sets where a plan is armed, CSP_GO_EN is set, no list waits or runs and the ledger
has room. -/
def Obligations.ParksTakeTheirInstantsAndGoReturns : Prop :=
  ∀ s : State, s.regsWf = true → s.ctl.tablesWf = true →
    (∀ p, s.plan.parks = [p] → p.unpark = false → p.tick ≤ s.tick → (s.lane (gateIx s.variant p.output)).planPark = false →
      ∃ u, exec .outputPark s = .next u ∧ u.plan.parks = [] ∧ (u.lane (gateIx s.variant p.output)).planPark = true
        ∧ (u.lane (gateIx s.variant p.output)).byTenant = p.tenant ∧ u.led.parkRes = s.led.parkRes - 1
        ∧ (∀ e, e ≠ gateIx s.variant p.output → u.lane e = s.lane e) ∧ u.plan.inForce = s.plan.inForce
        ∧ (s.boot.recovery = false → 1 ≤ s.led.parkRes → s.heldBack ≤ s.ledgerFree → Logged s u 0x0022 p.q))
    ∧ (∀ p, s.plan.parks = [p] → (p.unpark = true ∨ s.tick < p.tick) → exec .outputPark s = .next s)
    ∧ (∀ p, s.plan.parks = [p] → p.unpark = true → p.tick ≤ s.tick → s.unparkAllowed p = true → s.unparkOk p.output = true →
      (s.noPilot = false ∨ (s.lane (gateIx s.variant p.output)).st ≠ 2) →
      ∃ u, exec .outputUnpark s = .next u ∧ u.plan.parks = [] ∧ (u.lane (gateIx s.variant p.output)).planPark = false
        ∧ (∀ e, e ≠ gateIx s.variant p.output → u.lane e = s.lane e) ∧ u.led.parkRes = s.led.parkRes - 1)
    ∧ (∀ p, s.plan.parks = [p] → p.unpark = true → p.tick ≤ s.tick → (s.unparkAllowed p = false ∨ s.unparkOk p.output = false) →
      ∃ u, exec .outputUnpark s = .next u ∧ u.plan.parks = [] ∧ u.ctl.lanes = s.ctl.lanes ∧ u.ctl.outs = s.ctl.outs)
    ∧ (∀ p, s.plan.parks = [p] → s.unparkWaits p = true → exec .outputUnpark s = .next s)
    ∧ (s.plan.commits = [] → s.plan.goHold ≤ s.tick → s.plan.goStop = false → s.role = 0 →
      ∃ u, exec .goOkReenable s = .next u ∧ (u.flag Adr.PLAN_STAT Fl.PLAN_STAT_GO_OK = true ↔
          s.powered 31 = true ∧ s.armed ≠ none ∧ s.flag Adr.PLAN_CFG Fl.PLAN_CFG_CSP_GO_EN = true ∧ s.listRuns = false
            ∧ s.ledgerRoom 1 = true)
        ∧ (u.csp.goHub = true ↔ u.flag Adr.PLAN_STAT Fl.PLAN_STAT_GO_OK = true) ∧ u.csp.goOk = s.csp.goOk
        ∧ (∀ a, a ≠ Adr.PLAN_STAT → u.rd a = s.rd a) ∧ u.plan = s.plan ∧ u.led = s.led)

/-- R126 to R128, R239. Unpaired, a good SCHED_LOAD is loaded and WAITS, with its entry and completion; a bad list is refused. SCHED_STOP ends
a running list and keeps it loaded. SCHED_READ answers what is loaded. A due step advances the list: its COMPILED slot becomes an accepted
commit of path 1, an EMPTY one accepts nothing, and a step that cannot be armed counts SKIPS. A one-pass list past its last HOLD is DONE. -/
def Obligations.ScheduleListRuns : Prop :=
  ∀ (s : State), s.regsWf = true →
    (∀ q t, s.pairMode = false → s.role ≠ 2 → s.pastBulk q t.bufAddr t.bufLen = false → t.role = 1 →
      (s.runs q 0x0200 t → 24 + 8 * rdLE t.buf 4 2 ≤ t.bufLen → t.bufOk = true →
        (badList s.variant t.buf = false → s.ledgerRoom 1 = true → ∃ u, exec (.schedLoad q) s = .next u
          ∧ u.plan.sched = some (s.loadStart t.buf s.tick).list ∧ u.get Adr.SCHED_STAT Fl.SCHED_STAT_STATE = 1
          ∧ u.plan.inForce = s.plan.inForce ∧ u.plan.slots = s.plan.slots ∧ (∃ r, Completed s u q 0 r))
        ∧ (badList s.variant t.buf = true → ∃ u, exec (.schedLoad q) s = .next u ∧ Completed s u q 0x19 [] ∧ u.plan = s.plan))
      ∧ (s.runs q 0x0201 t → s.ledgerRoom 1 = true → ∃ u, exec (.schedStop q) s = .next u ∧ u.plan.sched = s.plan.sched
          ∧ (s.listRuns = true → u.get Adr.SCHED_STAT Fl.SCHED_STAT_STATE = 0 ∧ u.plan.oldSched = none)
          ∧ (s.listRuns = false → u.plan = s.plan)
          ∧ Completed s u q 0 (layout 16 [(0, le 2 s.lastArmed.1), (4, le 4 s.lastArmed.2)])
          ∧ (s.boot.recovery = false → Logged s u 0x0031 q))
      ∧ (s.runs q 0x0202 t → 24 ≤ t.bufLen → s.plan.sched = none → ∃ u, exec (.schedRead q) s = .next u
          ∧ Completed s u q 0 (le 16 0) ∧ u.plan = s.plan)
      ∧ (∀ l, s.runs q 0x0202 t → s.plan.sched = some l → 24 + 8 * l.entries.length ≤ t.bufLen →
          ∃ u, exec (.schedRead q) s = .next u ∧ u.plan = s.plan ∧ Completed s u q 0
            (layout 16 [(0, le 1 s.schedState), (2, le 2 l.entries.length), (4, le 4 s.lastArmed.2)])))
    ∧ (∀ l, s.gwqRuns = true → s.listRuns = true → s.plan.oldSched = none → s.plan.sched = some l → s.stepDue l = true →
      let id := (l.entries.getD l.next (0, 0)).1
      ∃ u, exec .schedStepArm s = .next u ∧ u.plan.sched = some l.advance ∧ u.plan.inForce = s.plan.inForce
        ∧ (s.slot? id = none → s.checkBad 0xA5 id = false → u.plan.commits = s.plan.commits)
        ∧ (∀ x, s.slot? id = some x → s.checkBad 0xA5 id = false →
            (s.skipCause (s.stepTick l) (s.costOf x.words).ds = 0 → ∃ c, u.plan.commits = s.plan.commits ++ [c] ∧ c.id = id
              ∧ c.path = 1 ∧ c.words = x.words ∧ c.tMake = s.stepTick l)
            ∧ (s.skipCause (s.stepTick l) (s.costOf x.words).ds ≠ 0 → u.plan.commits = s.plan.commits
              ∧ u.get Adr.SCHED_STAT Fl.SCHED_STAT_SKIPS = min (2 ^ Fl.SCHED_STAT_SKIPS.width - 1) (s.get Adr.SCHED_STAT Fl.SCHED_STAT_SKIPS + 1))))
    ∧ (∀ l, s.gwqRuns = true → s.listRuns = true → s.plan.sched = some l → l.cycle = 0 → l.entries.length ≤ l.next →
      s.tickTo l.makeAt ≤ s.tick → ∃ u, exec .schedDone s = .next u
        ∧ u.get Adr.SCHED_STAT Fl.SCHED_STAT_STATE = 3 ∧ u.plan = s.plan ∧ u.led = s.led)
    ∧ (s.listRuns = false → exec .schedStepArm s = .next s ∧ exec .schedDone s = .next s)

/-- R250 to R254, R124, R313. A read answers the published word (0 above the port count, and at an edge whose CSP_OP is no read) and
changes no register; an entry with bad check bits asserts CSP_PAR. A flip is taken at the second edge after it at the latest, and
an output with no flip waiting keeps its word. Publication gives every output with no flip waiting its present word, and device
words that changed count PUBSEQ with their flip. A strike, an edge with CSP_GO high after one with it low, is accepted with CSP_ACK where the
port's copy of GO_OK is set: with a COMPILED armed slot it is a commit of path 2, disarms, and counts STRIKES; with GO_OK clear it
sets GO_REFUSED alone. A paired strike without its acknowledgement in time leaves the accepted commits. -/
def Obligations.CircuitStatusPort : Prop :=
  ∀ (s : State), s.regsWf = true → s.powered 31 = true →
    (∀ a, s.checkBad 0xAB a = false → ∃ u, exec (.readOut a) s = .next u
      ∧ u.readData = (if a < numPorts s.variant then SMap.find 0 s.cspEdge.csp.outs a else 0) ∧ u.regs = s.regs ∧ u.plan = s.plan ∧ u.led = s.led)
    ∧ (∀ a, s.checkBad 0xAB a = true → ∃ u, exec (.readOut a) s = .next u ∧ u.checkBad 0xAB a = false
      ∧ u.flag (Adr.FLT_SRC 0xAB) Fl.FLT_SRC_VALID = true
      ∧ u.readData = (if a < numPorts s.variant then SMap.find 0 s.cspEdge.csp.outs a else 0))
    ∧ (∀ p, (p.op = 1 → s.checkBad 0xAB p.addr = false) → ∃ u, exec (.readDev p) s = .next u
      ∧ u.readData = (if p.op = 1 then (if p.addr < numPorts s.variant then SMap.find 0 s.cspEdge.csp.outs p.addr else 0)
          else if p.op = 2 then s.cspEdge.csp.dev.getD p.addr 0 else 0)
      ∧ u.regs = s.regs ∧ u.plan = s.plan ∧ u.led = s.led)
    ∧ (∀ a w n, s.csp.clk ≠ some s.tick → SMap.wf (fun _ => 0) s.csp.outs = true → (a, w, n) ∈ s.csp.outsNext → 1 ≤ n →
      (∀ e ∈ s.csp.outsNext, e.1 = a → e = (a, w, n)) →
      SMap.find 0 s.cspEdge.csp.outs a = w ∧ ∀ e ∈ s.cspEdge.csp.outsNext, e.1 ≠ a)
    ∧ (∀ a, SMap.wf (fun _ => 0) s.csp.outs = true → (∀ e ∈ s.csp.outsNext, e.1 ≠ a) →
      SMap.find 0 s.cspEdge.csp.outs a = SMap.find 0 s.csp.outs a)
    ∧ (∀ w n, s.csp.clk ≠ some s.tick → s.csp.devNext = some (w, n) → 1 ≤ n → s.cspEdge.csp.dev = w ∧ s.cspEdge.csp.devNext = none)
    ∧ (∃ u, exec .cspPublication s = .next u ∧ u.regs = s.regs ∧ u.plan = s.plan ∧ u.csp.outs = s.csp.outs ∧ u.csp.dev = s.csp.dev
      ∧ (∀ o, o < numPorts s.variant → SMap.rising s.csp.outsNext = true → u.csp.shown o =
          if s.csp.outsNext.any (fun e => e.1 == o) then s.csp.shown o
          else (s.out o).input + 512 * (s.out o).st + 4096 * ((s.out o).gen % 16))
      ∧ u.csp.devNext = (if s.csp.devNext.isSome then s.csp.devNext else if s.csp.dev.take 6 = s.cspDev then none
          else some (s.cspDev ++ [(s.csp.dev.getD 6 0 + 1) % 65536], 0)))
    ∧ (let e := s.refreshGo.cspEdge
      e.csp.goNow = false → e.csp.goPrev = false →
      (∀ id x, e.csp.goOk = true → s.pairMode = false → s.armed = some id → s.slot? id = some x → s.checkBad 0xA5 id = false →
        ∃ u c, exec .cspGo s = .next u ∧ u.csp.ack = true ∧ u.csp.goOk = false
          ∧ u.plan.commits = s.plan.commits ++ [c] ∧ c.id = id ∧ c.words = x.words ∧ c.path = 2
          ∧ c.tMake % 5 = 0 ∧ s.tick + 42 + ((s.costOf x.words).ds + 176) * 5 / 8 ≤ c.tMake ∧ u.armed = none
          ∧ u.get Adr.CSP_STAT Fl.CSP_STAT_STRIKES = min (2 ^ Fl.CSP_STAT_STRIKES.width - 1) (s.get Adr.CSP_STAT Fl.CSP_STAT_STRIKES + 1)
          ∧ u.plan.inForce = s.plan.inForce ∧ (s.ringRoom → Logged s u 0x0020 0xffff))
      ∧ (e.csp.goOk = false → ∃ u, exec .cspGo s = .next u ∧ u.flag Adr.CSP_STAT Fl.CSP_STAT_GO_REFUSED = true
        ∧ u.plan = s.plan ∧ u.led = s.led ∧ (∀ a, a ≠ Adr.CSP_STAT → a ≠ Adr.PLAN_STAT → u.rd a = s.rd a)))
    ∧ (let e := s.refreshGo.cspEdge
      (e.csp.goNow = true ∨ e.csp.goPrev = true) →
      ∃ u, exec .cspGo s = .next u ∧ u.regs = s.refreshGo.regs ∧ u.plan = s.plan ∧ u.led = s.led ∧ u.csp.goNow = true)
    ∧ (∀ c n, s.plan.commits.find? (fun c => c.phase == 0 && (match c.ackBy with | some t => decide (t ≤ s.tick) | none => false)) = some c →
      c.ackBy = some n → ∃ u, exec .goAbandoned s = .next u ∧ u.plan.commits = s.plan.commits.filter (fun x => x.seq != c.seq)
        ∧ u.plan.inForce = s.plan.inForce ∧ u.ctl.lanes = s.ctl.lanes ∧ (s.ringRoom → Logged s u 0x0021 0xffff))

/-! ## Sessions, doorbells, functions, Ethernet (spec/11_host_sessions_mailboxes.md, spec/12_mailbox_commands.md) -/

/-- R207, R209, R211, R234. GO with BUSY clear sets BUSY and submits the descriptor; with BUSY set it only sets GO_IGNORED. Outside pair mode an
open judged OK makes a session OPEN with the role, mask and grant judged, writes its SESSION_OPEN entry, and the window shows DONE; a
refused one makes no session and the window shows DONE with its status; while a warm reset waits none is carried out. A SESSION_OPEN in a command ring is BAD_FIELD. -/
def Obligations.OpensAreSubmittedAndCarriedOut : Prop :=
  ∀ s : State, s.regsWf = true →
    (∀ v mem, s.viewOn v = true → s.flag (winBase v + 0x40) Fl.OPEN_CTL_BUSY = false → ∃ u, exec (.go v mem) s = .next u
      ∧ u.flag (winBase v + 0x40) Fl.OPEN_CTL_BUSY = true ∧ (∃ w, (u.host.opens.find? fun e => e.1 == v) = some (v, w) ∧ w.mem = mem
        ∧ w.acking = false) ∧ u.host.sess = s.host.sess ∧ (∀ a, a ≠ winBase v + 0x40 → u.rd a = s.rd a))
    ∧ (∀ v mem, s.viewOn v = true → s.flag (winBase v + 0x40) Fl.OPEN_CTL_BUSY = true → ∃ u, exec (.go v mem) s = .next u
      ∧ u.flag (winBase v + 0x40) Fl.OPEN_CTL_GO_IGNORED = true ∧ u.host = s.host ∧ (∀ a, a ≠ winBase v + 0x40 → u.rd a = s.rd a))
    ∧ (∀ v w, (s.host.opens.find? fun e => e.1 == v) = some (v, w) → s.serves = true → s.boot.warmDue = false → s.fnDma v = true → w.acking = false →
      s.pairMode = false → v ∉ s.host.wrBad → (s.judgeOpen v w).1 = 0 → ∃ u q x, exec (.sessionOpen (.window v)) s = .next u
        ∧ u.sess? q = some x
        ∧ (q < 4096 → u.sessState q = 2 ∧ u.sessRole q = rdLE w.desc 32 1 % 4 ∧ u.sessCarrier q = (if v = 0 then 0 else 1))
        ∧ (s.bindShadow (s.judgeOpen v w).2 = none → q < 4096 ∧ s.sess? q = none ∧ x.mask = (s.judgeOpen v w).2.mask
          ∧ x.grant = (s.judgeOpen v w).2.grant)
        ∧ x.taken = none ∧ u.flag (winBase v + 0x40) Fl.OPEN_CTL_DONE = true ∧ u.flag (winBase v + 0x40) Fl.OPEN_CTL_BUSY = false
        ∧ (s.boot.recovery = false → Logged s u 0x0010 q))
    ∧ (∀ v w, (s.host.opens.find? fun e => e.1 == v) = some (v, w) → s.serves = true → s.boot.warmDue = false → s.fnDma v = true → w.acking = false →
      (s.judgeOpen v w).1 ≠ 0 → ∃ u, exec (.sessionOpen (.window v)) s = .next u ∧ u.host.sess = s.host.sess ∧ u.led = s.led
        ∧ u.flag (winBase v + 0x40) Fl.OPEN_CTL_DONE = true ∧ u.flag (winBase v + 0x40) Fl.OPEN_CTL_BUSY = false
        ∧ getBits (u.rd (winBase v + 0x64)) 0 8 = (s.judgeOpen v w).1 % 256)
    ∧ (∀ v, s.boot.warmDue = true → exec (.sessionOpen (.window v)) s = .next s)
    ∧ (∀ q t, s.runs q 0x0001 t → ∃ u, exec (.sessionOpen (.ring q)) s = .next u ∧ Completed s u q 4 [] ∧ u.led = s.led)

/-- R201, R212, R213, R221. A valid doorbell write sets CMD_TAIL, or passes its ring's head and drops what the head passed; an invalid one leaves
every ring and sets DB_ERR. A doorbell of no OPEN or FAULTED session changes nothing. A message delayed by moderation is raised at the end of
its interval where the device may write for the session: sent with its vector's address and data, or left pending while the
vector or the function is masked, and not at all while MSI-X is not enabled. -/
def Obligations.DoorbellsMoveRings : Prop :=
  ∀ (s : State) (d : Doorbell) (v : Word), s.regsWf = true →
    (∀ q x, q < 4096 → s.doorOpen d = some (q, x) →
      ((v.toNat + 2 ^ 32 - s.get (Adr.SESS q) Fl.SESS_CMD_HEAD) % 2 ^ 32 ≤ 2 ^ x.rings.cmdLog2 →
        ∃ u, exec (.cmdTail d v) s = .next u ∧ u.sess? q = some { x with cmdTail := v.toNat } ∧ u.regs = s.regs ∧ u.led = s.led)
      ∧ (2 ^ x.rings.cmdLog2 < (v.toNat + 2 ^ 32 - s.get (Adr.SESS q) Fl.SESS_CMD_HEAD) % 2 ^ 32 →
        ∃ u y, exec (.cmdTail d v) s = .next u ∧ u.flag (Adr.SESS q) Fl.SESS_DB_ERR = true ∧ u.sess? q = some y ∧ y.cmdTail = x.cmdTail)
      ∧ (headOk x.cplHead x.cplTail v.toNat = true → ∃ u, exec (.cplHead d v) s = .next u ∧ u.regs = s.regs
          ∧ u.sess? q = some { x with cplHead := v.toNat, cpl := x.cpl.drop ((v.toNat + 2 ^ 32 - x.cplHead) % 2 ^ 32) })
      ∧ (headOk x.cplHead x.cplTail v.toNat = false → ∃ u y, exec (.cplHead d v) s = .next u ∧ u.flag (Adr.SESS q) Fl.SESS_DB_ERR = true
          ∧ u.sess? q = some y ∧ y.cplHead = x.cplHead ∧ y.cpl = x.cpl)
      ∧ (headOk x.evtHead x.evtTail v.toNat = true → ∃ u y, exec (.evtHead d v) s = .next u ∧ u.sess? q = some y ∧ y.evtHead = v.toNat
          ∧ (x.lostPend = 0 → x.anchorHeld = [] → y.evt = x.evt.drop ((v.toNat + 2 ^ 32 - x.evtHead) % 2 ^ 32)))
      ∧ (headOk x.evtHead x.evtTail v.toNat = false → ∃ u y, exec (.evtHead d v) s = .next u ∧ u.flag (Adr.SESS q) Fl.SESS_DB_ERR = true
          ∧ u.sess? q = some y ∧ y.evtHead = x.evtHead)
      ∧ (headOk x.recHead x.recTail v.toNat = true → ∃ u, exec (.recHead d v) s = .next u ∧ u.regs = s.regs
          ∧ u.sess? q = some { x with recHead := v.toNat, recs := x.recs.drop ((v.toNat + 2 ^ 32 - x.recHead) % 2 ^ 32) })
      ∧ (headOk x.recHead x.recTail v.toNat = false → ∃ u y, exec (.recHead d v) s = .next u ∧ u.flag (Adr.SESS q) Fl.SESS_DB_ERR = true
          ∧ u.sess? q = some y ∧ y.recHead = x.recHead ∧ y.recs = x.recs))
    ∧ (s.doorOpen d = none → exec (.cmdTail d v) s = .next s ∧ exec (.cplHead d v) s = .next s ∧ exec (.evtHead d v) s = .next s
      ∧ exec (.recHead d v) s = .next s)
    ∧ (∀ q x ring n, s.sess? q = some x → ring < 3 → (x.moder ring).pend = true → (x.moder ring).last = some n →
      n + 625 * x.rings.mod ≤ s.tick → s.dmaOk q = true → s.sessState q ≠ 4 →
      let k := 2048 * s.sessFn q + x.vec ring
      let m := SMap.find {} s.host.msix k
      ∃ u y, exec (.msixModerationEnd q ring) s = .next u ∧ u.sess? q = some y
        ∧ y.moder ring = ⟨some s.tick, false, (x.moder ring).raised + 1⟩ ∧ y.cpl = x.cpl ∧ y.evt = x.evt
        ∧ (s.msixOn (s.sessFn q) = false → u.host.msi = s.host.msi ∧ u.host.msix = s.host.msix)
        ∧ (s.msixOn (s.sessFn q) = true → s.canSignal (s.sessFn q) (x.vec ring) = true →
            u.host.msi = some (m.addr, m.data) ∧ u.host.msix = SMap.put {} s.host.msix k { m with pend := false })
        ∧ (s.msixOn (s.sessFn q) = true → s.canSignal (s.sessFn q) (x.vec ring) = false →
            u.host.msi = s.host.msi ∧ u.host.msix = SMap.put {} s.host.msix k { m with pend := true })
        ∧ ∀ a, quiet a = true → u.rd a = s.rd a)
    ∧ (∀ q x ring, s.sess? q = some x → ((x.moder ring).pend = false ∨ s.dmaOk q = false ∨ s.sessState q = 4) →
      exec (.msixModerationEnd q ring) s = .next s)

/-- R209, R210, R214, R215, R220, R234. A fetch takes the command at CMD_HEAD and steps CMD_HEAD, and with a TLP
found uncorrectable faults the session (R313); an opcode of no command completes with UNKNOWN_OP; a
failed read faults the session. SESSION_CLOSE completes and the session named enters CLOSING; a CLOSED one is NO_SESSION. A CLOSING
session with nothing taken and its close entry written leaves, and its number is free. SESSION_INFO describes the session. -/
def Obligations.CommandsAreTakenAndSessionsClose : Prop :=
  ∀ (s : State) (q : Nat), s.regsWf = true → q < 4096 →
    (∀ x desc buf ok, s.sess? q = some x → x.eth = none → s.canTake q x = true → s.turnOver q = false → s.boot.recovery = false →
      s.wrFails q = false → s.flt.armed 0xA9 0 false = false → ∃ u y, exec (.commandFetch q (.entry desc buf ok)) s = .next u ∧ u.sess? q = some y
        ∧ u.get (Adr.SESS q) Fl.SESS_CMD_HEAD = (s.get (Adr.SESS q) Fl.SESS_CMD_HEAD + 1) % 2 ^ 32
        ∧ (State.judgeOpen.commandKnown (rdLE (fit 64 desc) 0 2) = true → ∃ t, y.taken = some t ∧ t.op = rdLE (fit 64 desc) 0 2
            ∧ t.flags = rdLE (fit 64 desc) 2 2 ∧ t.tag = rdLE (fit 64 desc) 4 4 ∧ t.index = s.get (Adr.SESS q) Fl.SESS_CMD_HEAD
            ∧ t.phase = .ready ∧ t.role = s.sessRole q ∧ t.mask = x.mask ∧ t.grant = x.grant ∧ y.cpl = x.cpl)
        ∧ (State.judgeOpen.commandKnown (rdLE (fit 64 desc) 0 2) = false → y.taken = none ∧ y.cpl = x.cpl ++
            [completionBytes (rdLE (fit 64 desc) 4 4) 1 (rdLE (fit 64 desc) 0 2) (s.get (Adr.SESS q) Fl.SESS_CMD_HEAD) s.ns32 []]))
    ∧ (∀ x desc buf ok, s.sess? q = some x → x.eth = none → s.canTake q x = true → s.turnOver q = false →
      s.flt.armed 0xA9 0 false = true → s.classFor 0xA9 = 1 → ∃ u, exec (.commandFetch q (.entry desc buf ok)) s = .next u
        ∧ u.sessState q = 4 ∧ u.flag (Adr.FLT_SRC 0xA9) Fl.FLT_SRC_VALID = true)
    ∧ (∀ x, s.sess? q = some x → x.eth = none → s.canTake q x = true → s.turnOver q = false →
      ∃ u, exec (.commandFetch q .failed) s = .next u ∧ u.sessState q = 4 ∧ u.flag (Adr.SESS q) Fl.SESS_DMA_ERR = true
        ∧ u.sess? q = some x ∧ u.get (Adr.SESS q) Fl.SESS_CMD_HEAD = s.get (Adr.SESS q) Fl.SESS_CMD_HEAD)
    ∧ (∀ x f, s.sess? q = some x → (s.canTake q x = false ∨ s.turnOver q = true) → exec (.commandFetch q f) s = .next s)
    ∧ (∀ t n, s.runs q 0x0002 t → n = (if t.p 24 2 = 0xffff then q else t.p 24 2) → s.pastBulk q t.bufAddr t.bufLen = false →
      n < 4096 → (t.role = 1 ∨ ((t.role = 2 ∨ t.role = 3) ∧ n = q)) → (s.localSess n = true ∨ (s.pairMode = false ∧ s.role ≠ 2)) →
      (s.sessState n ≠ 0 → (s.sess? n).isSome = true → ∃ u, exec (.sessionClose q) s = .next u ∧ Completed s u q 0 [] ∧ u.sessState n = 3
        ∧ (s.host.wrBad = [] → ∀ m, m < 4096 → m ≠ n → u.sessState m = s.sessState m) ∧ (s.sessState n ≠ 3 → s.boot.recovery = false →
          (∀ y, s.sess? n = some y → y.closeCause = 0) → s.heldBack ≤ s.ledgerFree → Logged s u 0x0011 n))
      ∧ (s.sessState n = 0 → ∃ u, exec (.sessionClose q) s = .next u ∧ Completed s u q 0x43 [] ∧ (∀ a, quiet a = true → u.rd a = s.rd a) ∧ u.led = s.led))
    ∧ (∀ x, s.sess? q = some x → s.sessState q = 3 → x.taken = none → x.closeCause ≠ 0 → ∃ u, exec (.sessionClosed q) s = .next u
      ∧ u.host.sess = SMap.erase s.host.sess q ∧ u.sessState q = 0 ∧ u.led = s.led)
    ∧ (∀ t, s.runs q 0x0003 t → (t.role = 1 ∨ t.role = 2 ∨ t.role = 3) → s.pastBulk q t.bufAddr t.bufLen = false →
      (t.bufLen = 0 ∨ 64 ≤ t.bufLen) → ∃ u, exec (.sessionInfo q) s = .next u ∧ (∀ a, quiet a = true → u.rd a = s.rd a) ∧ u.led = s.led
        ∧ Completed s u q 0 (layout 16 [(0, le 2 (s.ownName q)), (2, le 1 (s.sessRole q)), (3, le 1 (s.sessCarrier q)), (4, le 4 t.mask),
            (8, le 2 (popCount (numPorts s.variant) t.grant)), (10, le 2 (s.epochOf q))]))

/-- R210, R257, R260, R361, R372. A function-level reset, the removal of VFs and PERST_N put every session of the functions they name in CLOSING. VF
Enable presents VFs 1 to NumVFs; Bus Master Enable is set or clear as written. SESSION_GRANT replaces a session's mask and grant as its
role allows; VF_GRANT replaces a VF's grant and narrows its open sessions. -/
def Obligations.FunctionsAndGrants : Prop :=
  ∀ (s : State), s.regsWf = true →
    (∀ fn, fn ≠ 0 → s.viewOn fn = true → ∃ u, exec (.functionLevelReset fn) s = .next u ∧ (∀ q ∈ s.fnSessions fn, q < 4096 → u.sessState q = 3)
      ∧ (s.host.wrBad = [] → ∀ q, q < 4096 → q ∉ s.fnSessions fn → u.sessState q = s.sessState q) ∧ fn ∉ u.host.busMaster
      ∧ u.host.numVfs = s.host.numVfs ∧ ∀ v, v < 2048 → SMap.find {} u.host.msix (2048 * fn + v) = {})
    ∧ (s.viewOn 0 = true → ∃ u, exec (.functionLevelReset 0) s = .next u ∧ (∀ q ∈ s.fnSessions 0, q < 4096 → u.sessState q = 3)
      ∧ 0 ∉ u.host.busMaster ∧ u.host.numVfs = 0)
    ∧ (∀ n, n < s.host.numVfs → ∃ u, exec (.vfRemoval n) s = .next u ∧ u.host.numVfs = n
      ∧ (∀ f q, q < 4096 → n < f → f ≤ s.host.numVfs → q ∈ s.fnSessions f → u.sessState q = 3) ∧ (s.host.wrBad = [] → ∀ q ∈ s.fnSessions 0, q < 4096 → u.sessState q = s.sessState q))
    ∧ (∀ n, s.host.pcieUp = true → s.bridgeOn = true → s.boot.recovery = false → s.host.numVfs < n → n ≤ 63 →
      ∃ u, exec (.vfEnable n) s = .next u ∧ u.host.numVfs = n ∧ u.host.vfs = s.host.vfs ∧ u.host.sess = s.host.sess ∧ u.regs = s.regs)
    ∧ (∀ fn (b : BusMaster), s.viewOn fn = true → ∃ u, exec (.busMasterEnable fn b) s = .next u
      ∧ (fn ∈ u.host.busMaster ↔ b.enable = true) ∧ (fn ∈ u.host.wrBad ↔ b.wrOk = false)
      ∧ (∀ f, f ≠ fn → (f ∈ u.host.busMaster ↔ f ∈ s.host.busMaster) ∧ (f ∈ u.host.wrBad ↔ f ∈ s.host.wrBad))
      ∧ (b.wrOk = true → ∀ q, q < 4096 → u.sessState q = s.sessState q))
    ∧ (∃ u, exec .perstN s = .next u ∧ u.boot.perstLow = true ∧ u.host.pcieUp = false ∧ u.host.busMaster = [] ∧ u.host.numVfs = 0
      ∧ (∀ f q, q < 4096 → f ≤ s.host.numVfs → q ∈ s.fnSessions f → u.sessState q = 3))
    ∧ (∃ u, exec .perstNRelease s = .next u ∧ u.boot.perstLow = false ∧ (s.powered 26 = true → u.host.pcieUp = true) ∧ u.regs = s.regs)
    ∧ (∀ q t x, s.runs q 0x0005 t → t.role = 1 → s.pastBulk q t.bufAddr t.bufLen = false → 64 ≤ t.bufLen → t.bufOk = true →
      t.p 24 2 < 4096 → s.sess? (t.p 24 2) = some x → s.sessState (t.p 24 2) ≠ 0 → s.ledgerRoom 1 = true →
      (s.localSess (t.p 24 2) = true ∨ (s.pairMode = false ∧ s.role ≠ 2)) →
      ∃ u y, exec (.sessionGrant q) s = .next u ∧ Completed s u q 0 [] ∧ u.sess? (t.p 24 2) = some y
        ∧ y.mask = maskFor (s.sessRole (t.p 24 2)) (t.p 28 4) ∧ y.grant = s.newGrant (t.p 24 2) (portBits s.variant t.buf)
        ∧ (s.boot.recovery = false → Logged s u 0x0012 q))
    ∧ (∀ q t, s.runs q 0x0006 t → t.role = 1 → s.pastBulk q t.bufAddr t.bufLen = false → 64 ≤ t.bufLen → t.bufOk = true →
      1 ≤ t.p 24 1 → t.p 24 1 ≤ 63 → (t.p 25 1 = 0 ∨ t.p 25 1 = 2 ∨ t.p 25 1 = 3) → s.ledgerRoom 1 = true → s.pairMode = false →
      s.role ≠ 2 → ∃ u, exec (.vfGrant q) s = .next u ∧ Completed s u q 0 []
        ∧ u.host.vfs = SMap.put {} s.host.vfs (t.p 24 1) ⟨t.p 25 1, portBits s.variant t.buf⟩
        ∧ (∀ n x y, n < 4096 → n ∈ s.vfSessions (t.p 24 1) → s.sess? n = some x → u.sess? n = some y → y.grant = x.grant &&& portBits s.variant t.buf))

/-- R222 to R225, R235. Outside pair mode a HELLO judged OK makes an OPEN Ethernet session and is answered with ACCEPT; another is answered with
REJECT and its status; one to another UDP port, or whose header is no HELLO's, is discarded. A datagram that the session does not accept changes nothing; one whose
parity a MAC finds bad is dropped and reported (R313); CMD puts its descriptors in the command ring, BULK_W
writes the bulk window, BULK_R is answered with the bytes, KEEPALIVE is noted, CLOSE closes. 10 s of silence closes. REKEY steps the
epoch; NET_CFG stores its block and closes the port's sessions only where its address changes. -/
def Obligations.EthernetTransport : Prop :=
  ∀ (s : State), s.regsWf = true →
    (∀ h : Hello, s.gwqRuns = true → s.boot.warmDue = false → s.flt.armed 0xAA 0 false = false → s.has .mgmtU = true → s.powered 27 = true → h.port < 2 →
      (hostHeadOk h.head 1 h.port = true → h.head.q = 0 → h.dstPort = s.udpPort h.port →
        ((s.judgeHello h).1 = 0 → s.pairMode = false → ∃ u q x e, exec (.hello h) s = .next u ∧ u.sess? q = some x ∧ x.eth = some e
          ∧ e.port = h.port ∧ e.epoch = 0 ∧ e.hostAddr = h.srcAddr ∧ e.hostUdp = h.srcPort
          ∧ (q < 4096 → u.sessState q = 2 ∧ u.sessCarrier q = 2 + h.port)
          ∧ (s.bindShadow (s.judgeHello h).2 = none → q < 4096 ∧ s.sess? q = none)
          ∧ (∃ r, (if h.port = 0 then u.host.reply0 else u.host.reply1) = some r ∧ r.ty = 2 ∧ r.q = q ∧ r.addr = h.srcAddr)
          ∧ (s.boot.recovery = false → Logged s u 0x0010 q))
        ∧ ((s.judgeHello h).1 ≠ 0 → ∃ u r, exec (.hello h) s = .next u ∧ u.host.sess = s.host.sess ∧ u.led = s.led
          ∧ (if h.port = 0 then u.host.reply0 else u.host.reply1) = some r ∧ r.ty = 3 ∧ r.body = le 1 (s.judgeHello h).1))
      ∧ ((hostHeadOk h.head 1 h.port = false ∨ h.head.q ≠ 0 ∨ h.dstPort ≠ s.udpPort h.port) → exec (.hello h) s = .next s))
    ∧ (∀ h : Hello, s.boot.warmDue = true → s.flt.armed 0xAA 0 false = false → exec (.hello h) s = .next s)
    ∧ (∀ d h, s.flt.armed 0xAA 0 false = true → s.classFor 0xAA ≠ 2 → ∀ c ∈ [Instr.cmd d, .bulkW d, .bulkR d, .keepalive d, .closeDatagram d, .hello h],
      ∃ u, exec c s = .next u ∧ u.flag (Adr.FLT_SRC 0xAA) Fl.FLT_SRC_VALID = true ∧ u.ctl.lanes = s.ctl.lanes
        ∧ ∀ n x, s.sess? n = some x → ∃ y, u.sess? n = some y ∧ y.taken = x.taken ∧ y.cpl = x.cpl ∧ y.cmdTail = x.cmdTail
          ∧ (y.eth.map fun e => (e.rxSeq, e.cmds, e.bulk)) = x.eth.map fun e => (e.rxSeq, e.cmds, e.bulk))
    ∧ (∀ d, s.flt.armed 0xAA 0 false = false → (s.rxOk d 0x04 = none → exec (.cmd d) s = .next s) ∧ (s.rxOk d 0x07 = none → exec (.bulkW d) s = .next s)
      ∧ (s.rxOk d 0x08 = none → exec (.bulkR d) s = .next s) ∧ (s.rxOk d 0x0A = none → exec (.keepalive d) s = .next s)
      ∧ (s.rxOk d 0x0B = none → exec (.closeDatagram d) s = .next s))
    ∧ (∀ d x e body behind, s.rxOk d 0x04 = some (x, e, body) → s.flt.armed 0xAA 0 false = false →
      behind = (s.get (Adr.SESS d.q) Fl.SESS_CMD_HEAD + 2 ^ 32 - d.head.index % 2 ^ 32) % 2 ^ 32 → behind < 2 ^ 31 →
      e.cmds.length < (((descsOf d.head.count body).drop behind).take (2 ^ x.rings.cmdLog2)).length →
      ∃ u y f, exec (.cmd d) s = .next u ∧ u.sess? d.q = some y ∧ y.eth = some f ∧ f.rxSeq = some d.head.dgramSeq
        ∧ f.lastRx = s.tick ∧ f.cmds = ((descsOf d.head.count body).drop behind).take (2 ^ x.rings.cmdLog2))
    ∧ (∀ d x e body, s.rxOk d 0x07 = some (x, e, body) → s.flt.armed 0xAA 0 false = false →
      ∃ u y f, exec (.bulkW d) s = .next u ∧ u.sess? d.q = some y ∧ y.eth = some f ∧ f.rxSeq = some d.head.dgramSeq
        ∧ f.lastRx = s.tick ∧ y.cpl = x.cpl ∧ u.regs = s.regs
        ∧ f.bulk = ((body.take d.head.count).zipIdx.filter fun b => decide (d.head.index + b.2 < 524288)).foldl
            (fun m b => SMap.put 0 m (d.head.index + b.2) b.1) e.bulk)
    ∧ (∀ d x e body, s.rxOk d 0x08 = some (x, e, body) → s.checkBad 0xA7 d.q = false → s.flt.armed 0xAA 0 false = false →
      ∃ u o, exec (.bulkR d) s = .next u ∧ (if e.port = 0 then u.host.out0 else u.host.out1) = some o ∧ o.ty = 9 ∧ o.q = d.q
        ∧ o.index = d.head.index ∧ o.addr = e.hostAddr ∧ o.udp = e.hostUdp
        ∧ o.body = e.read d.head.index (min (rdLE body 8 4) (524288 - d.head.index)))
    ∧ (∀ d x e body, s.rxOk d 0x0A = some (x, e, body) → s.flt.armed 0xAA 0 false = false →
      ∃ u y f, exec (.keepalive d) s = .next u ∧ u.sess? d.q = some y ∧ y.eth = some f ∧ f.rxSeq = some d.head.dgramSeq
        ∧ f.lastRx = s.tick ∧ f.bulk = e.bulk ∧ f.cmds = e.cmds)
    ∧ (∀ d x e body, s.rxOk d 0x0B = some (x, e, body) → s.flt.armed 0xAA 0 false = false → d.q < 4096 → ∃ u, exec (.closeDatagram d) s = .next u
      ∧ u.sessState d.q = 3 ∧ (s.host.wrBad = [] → ∀ m, m < 4096 → m ≠ d.q → u.sessState m = s.sessState m))
    ∧ (∀ q x e, s.sess? q = some x → x.eth = some e → (s.sessState q = 2 ∨ s.sessState q = 4) →
      (q < 4096 → e.lastRx + 6250000000 ≤ s.tick → ∃ u, exec (.idleTimeout q) s = .next u ∧ u.sessState q = 3)
      ∧ (s.tick < e.lastRx + 6250000000 → exec (.idleTimeout q) s = .next s))
    ∧ (∀ q t x e, s.runs q 0x0004 t → s.sess? q = some x → x.eth = some e → s.has .mgmtU = true → 2 ≤ s.sessCarrier q →
      (t.role = 1 ∨ t.role = 2 ∨ t.role = 3) → s.pastBulk q t.bufAddr t.bufLen = false →
      ∃ u y f, exec (.rekey q) s = .next u ∧ Completed s u q 0 (le 4 (e.epoch + 1)) ∧ u.sess? q = some y ∧ y.eth = some f
        ∧ f.epoch = e.epoch + 1 ∧ f.oldKey = e.key ∧ f.key = hkdf32 e.key [] (ascii "KT-REKEY" ++ le 4 (e.epoch + 1)))
    ∧ (∀ q t, s.runs q 0x0007 t → s.has .mgmtU = true → t.role = 1 → s.pastBulk q t.bufAddr t.bufLen = false →
      (t.p 24 1 = 1 ∨ t.p 24 1 = 2) → 64 ≤ t.bufLen → t.bufOk = true → ∃ u, exec (.netCfg q) s = .next u ∧ Completed s u q 0 []
        ∧ (if t.p 24 1 = 1 then u.host.net0 else u.host.net1) = fit 64 t.buf
        ∧ (netAddr (if t.p 24 1 = 1 then s.host.net0 else s.host.net1) = netAddr (fit 64 t.buf) → s.host.wrBad = [] →
            ∀ m, m < 4096 → u.sessState m = s.sessState m)
        ∧ (netAddr (if t.p 24 1 = 1 then s.host.net0 else s.host.net1) ≠ netAddr (fit 64 t.buf) → s.host.wrBad = [] → ∀ m ∈ s.sessIds, m < 4096 →
            u.sessState m = (if s.sessCarrier m = t.p 24 1 + 1 then 3 else s.sessState m)))

/-! ## Further mailbox commands (spec/12_mailbox_commands.md) -/

/-- R238 to R240, R90, R99, R102, R103. LOOP_PERIOD stores PERIOD for every powered comb named. A CAL_RUN that no code refuses completes, and with FULL it
joins the runs. CAL_APPLY writes its entry, sets APPLY_PEND and waits for its instant. CAL_SAVE completes with the image's length, its
image written. CAL_RESTORE of an image with a good signature, this module's identity and its variant completes; with a bad signature it is
BAD_SIGNATURE. -/
def Obligations.LoopAndCalibrationCommands : Prop :=
  ∀ (s : State) (q : Nat) (t : Taken), s.regsWf = true → t.role = 1 → s.pastBulk q t.bufAddr t.bufLen = false →
    (s.runs q 0x0300 t → t.p 42 2 ≤ 0x1ff → ∃ u, exec (.loopPeriod q) s = .next u
      ∧ Completed s u q 0 (le 1 (((t.combs s.variant 24).filter fun c => s.powered (combDomain s.variant c)).length))
      ∧ (∀ c, c < numCombs s.variant → (t.p 24 18).testBit c = true → s.powered (combDomain s.variant c) = true →
          u.get (Adr.LOOP_CFG c) Fl.LOOP_CFG_PERIOD = t.p 42 2)
      ∧ (∀ a, quiet a = true → (∀ c, c < numCombs s.variant → a ≠ Adr.LOOP_CFG c) → u.rd a = s.rd a) ∧ u.led = s.led)
    ∧ (s.runs q 0x0400 t → 1 ≤ t.proc → t.proc ≤ 6 → 16 ≤ t.avg → t.avg ≤ 1024 → (t.lanesFlag = true → t.proc ≠ 6 →
        t.bufOk = true ∧ ∀ e ∈ t.elems, e < numElems s.variant) → (t.proc = 4 ∨ s.frValid = true) →
        (∀ c ∈ t.calCombs s.variant, s.get (Adr.DRV_CFG c) Fl.DRV_CFG_GAIN = s.get (Adr.DRV_CFG c) Fl.DRV_CFG_GAIN_ACT ∧ (s.comb c).procs = []) →
        (∀ r ∈ s.ctl.cal.runs, r.full = false) →
      (∃ u a b n, exec (.calRun q) s = .next u ∧ Completed s u q 0 (le 2 a ++ le 2 b ++ le 1 n) ∧ u.plan = s.plan ∧ u.led = s.led)
      ∧ (t.proc = 6 → ∃ u, exec (.calRun q) s = .next u
          ∧ u.ctl.cal.runs = s.ctl.cal.runs ++ [⟨[], true, 0, s.tick + 5000000000, t.flag 1, q, t.avg⟩] ∧ u.ctl.lanes = s.ctl.lanes))
    ∧ (∀ x c, s.runs q 0x0401 t → s.sess? q = some x → (t.flag 0 = true ∨ t.ns 24 < 1000000000) → s.calBusy = false →
      (s.boot.recovery = true ∨ s.ledgerRoom 1 = true) → c < numCombs s.variant → s.powered (combDomain s.variant c) = true → s.engine c ≠ 4 →
      ∃ u a, exec (.calApply q) s = .next u ∧ u.flag Adr.CAL_GSTAT Fl.CAL_GSTAT_APPLY_PEND = true ∧ a ∈ u.ctl.cal.applies ∧ a.q = q
        ∧ a.tick = (if t.flag 0 then s.tick + s.planLead else max (s.tick + s.planLead) (s.tickFor (t.sec 24) (t.ns 24))) ∧ c ∈ a.combs
        ∧ u.ctl.lanes = s.ctl.lanes ∧ (s.boot.recovery = false → Logged s u 0x0040 q))
    ∧ (s.runs q 0x0402 t → imageLen s.variant ≤ t.bufLen → ∃ u, exec (.calSave q) s = .next u
      ∧ Completed s u q 0 (le 4 (imageLen s.variant)) ∧ u.led = s.led ∧ u.ctl.lanes = s.ctl.lanes
      ∧ ∀ y, u.sess? q = some y → s.dmaOk q = true → y.hostBuf.1 = t.bufAddr ∧ y.hostBuf.2.take s.calImage.length = s.calImage)
    ∧ (s.runs q 0x0403 t → imageLen s.variant ≤ t.bufLen → t.bufOk = true → t.flag 1 = false →
      (t.sigOk = true → (t.buf.drop 12).take 32 = s.idDigest → rdLE t.buf 6 2 = variantCode s.variant →
        ∃ u a b n, exec (.calRestore q) s = .next u ∧ Completed s u q 0 (le 2 a ++ le 2 b ++ le 1 n) ∧ u.plan = s.plan ∧ u.led = s.led
          ∧ u.ctl.lanes = s.ctl.lanes)
      ∧ (t.sigOk = false → ∃ u, exec (.calRestore q) s = .next u ∧ Completed s u q 0x23 [] ∧ u.ctl = s.ctl ∧ u.led = s.led))

/-- R241 to R243, R174. Outside pair mode DIGEST_KEY writes its entry and sends the key, or its removal, on its way to the port's
receiver behind any sent before it, and answers the KEYSEQ it will have; arrived, it is in force, KEY_SET shows it and KEYSEQ has
stepped modulo 256. QUEUE_STAT completes and starts the reader's marks anew. EXPORT_FLUSH marks the records that wait in a weighted
queue on an Ethernet channel: what the channel serves next and has time for leaves at once, and it touches no other queue (log 96). PTP_CFG configures the
domain's client, restarts it where PTP is the source, and takes LOCKED to HOLDOVER then. PTP_STATS answers the client's state. -/
def Obligations.StampExportAndTimeCommands : Prop :=
  ∀ (s : State) (q : Nat) (t : Taken), s.regsWf = true → s.pastBulk q t.bufAddr t.bufLen = false →
    (s.runs q 0x0500 t → t.role = 1 → s.has .stampU = true → t.port < numPorts s.variant → t.p 26 1 ≤ 1 → s.ledgerRoom 1 = true →
      s.pairMode = false → s.role ≠ 2 → ∃ u due, exec (.digestKey q) s = .next u
        ∧ (u.srx t.port).keyAt = (s.srx t.port).keyAt ++ [(due, t.key)] ∧ s.tick < due ∧ (u.srx t.port).key = (s.srx t.port).key
        ∧ (t.p 26 1 = 0 → SMap.find [] u.flash.digestKeys t.port = (t.params.drop 8).take 16)
        ∧ Completed s u q 0 (le 1 ((s.get (Adr.SRX_STAT t.port) Fl.SRX_STAT_KEYSEQ + (s.srx t.port).keyAt.length + 1) % 256))
        ∧ (s.boot.recovery = false → Logged s u 0x0060 q))
    ∧ (∀ p k, p < numPorts s.variant → s.exp.tablesWf = true →
        ((s.takeKey p k).srx p).key = k ∧ (∀ n, n ≠ p → (s.takeKey p k).srx n = s.srx n)
        ∧ (s.takeKey p k).flag (Adr.SRX_STAT p) Fl.SRX_STAT_KEY_SET = k.isSome
        ∧ (s.takeKey p k).get (Adr.SRX_STAT p) Fl.SRX_STAT_KEYSEQ = (s.get (Adr.SRX_STAT p) Fl.SRX_STAT_KEYSEQ + 1) % 256)
    ∧ (∀ n, s.runs q 0x0600 t → s.has .exportU = true → t.mask.testBit 3 = true → n = (if t.p 24 2 = 0xffff then q else t.p 24 2) →
      (t.role = 1 ∨ ((t.role = 2 ∨ t.role = 3) ∧ n = q)) → n < 4096 → s.sessState n ≠ 0 →
      ∃ u a b c d, exec (.queueStat q) s = .next u ∧ Completed s u q 0 (le 4 a ++ le 4 b ++ le 4 c ++ le 4 d) ∧ u.led = s.led
        ∧ d = s.get (Adr.QW n) Fl.QW_QPOS_LO ∧ (∀ x y, s.queue? n = some x → u.queue? n = some y → y.items = x.items
            ∧ (y.seen (1000 + q)).depth = 0 ∧ (y.seen (1000 + q)).delay = 0 ∧ (y.seen (1000 + q)).drops = 0))
    ∧ (∀ n, s.runs q 0x0601 t → s.has .exportU = true → s.has .mgmtU = true → t.mask.testBit 1 = true →
      n = (if t.p 24 2 = 0xffff then q else t.p 24 2) → (t.role = 1 ∨ (t.role = 2 ∧ n = q)) → n < 4096 → s.sessState n ≠ 0 →
      ∃ u, exec (.exportFlush q) s = .next u ∧ Completed s u q 0 [] ∧ u.led = s.led
        ∧ ((s.chan n = 0 ∨ s.isFc n = true) → u.exp = (shaperRefill s).exp)
        ∧ (∀ x, (shaperRefill s).queue? n = some x → s.chan n ≠ 0 → s.isFc n = false → x.items ≠ [] →
            let r := (shaperRefill s).setQueue n { x with flushPos := ((x.items.getLast?.map (·.qpos)).getD 0) + 1 }
            (r.wfqPick (s.chan n) ≠ some n → u.exp = r.exp)
            ∧ (∀ i, x.items = [i] → i.r.bad = false → x.lost = 0 → s.flag (Adr.QW n) Fl.QW_SH_EN = false →
                r.wfqPick (s.chan n) = some n → r.fits (s.chan n) (sendTicks (s.chan n) 1) = true →
                ∃ y, u.queue? n = some y ∧ y.items = [] ∧ y.dseq = x.dseq + 1)
            ∧ (∀ i, x.items = [i] → i.r.bad = false → r.fits (s.chan n) (sendTicks (s.chan n) 1) = false →
                s.flag (Adr.QW n) Fl.QW_SH_EN = false → u.exp = r.exp)))
    ∧ (s.runs q 0x0700 t → t.role = 1 → s.has .mgmtU = true → t.p 24 1 ≤ 1 → (t.p 25 1 = 1 ∨ t.p 25 1 = 2) → 1 ≤ t.p 27 1 →
      t.p 27 1 ≤ 3 → -7 ≤ signed 8 (t.p 29 1) → signed 8 (t.p 29 1) ≤ 4 → t.p 36 2 ≤ 1000 → t.p 38 1 ≤ 8 → 24 * t.p 38 1 ≤ t.bufLen →
      (t.p 38 1 = 0 ∨ t.bufOk = true) → ∃ u, exec (.ptpCfg q) s = .next u ∧ Completed s u q 0 []
        ∧ (s.get (tdAdr t.dom) Fl.TD_SRC ≠ 1 → u.time.ptp t.dom = (s.time.ptp t.dom).configured t.client ∧ u.tqOf t.dom = s.tqOf t.dom)
        ∧ (s.get (tdAdr t.dom) Fl.TD_SRC = 1 → u.time.ptp t.dom = t.client
            ∧ u.tqOf t.dom = (if s.tqOf t.dom = 2 then 3 else s.tqOf t.dom))
        ∧ (u.time.dom t.dom).total = (s.time.dom t.dom).total)
    ∧ (s.runs q 0x0701 t → t.role = 1 → s.has .mgmtU = true → t.p 24 1 ≤ 1 → 64 ≤ t.bufLen → ∃ u, exec (.ptpStats q) s = .next u
      ∧ Completed s u q 0 (layout 16 [(0, le 1 (s.tqOf t.dom)), (1, le 1 (s.time.ptp t.dom).heard),
          (4, le 4 (wrap 32 (s.time.ptp t.dom).offset)), (8, le 4 (wrap 32 (s.time.ptp t.dom).delay))])
      ∧ u.time = s.time ∧ (∀ a, quiet a = true → u.rd a = s.rd a) ∧ u.led = s.led)

/-- R244, R265 to R269, R276. LEDGER_READ returns entries from SRC_SEQ on and, with RELEASE, drops what it returned from the oldest on.
LEDGER_CHECKPOINT answers the checkpoint asked for. ATTEST and IDENTITY write the evidence and the chain. An enrolment block that names this
module and its count, signed by the owner where there is one, makes its key the owner, steps ENROL_COUNT, and every other session enters CLOSING. -/
def Obligations.LedgerAndIdentityCommands : Prop :=
  ∀ (s : State) (q : Nat) (t : Taken), s.regsWf = true → s.pastBulk q t.bufAddr t.bufLen = false →
    (s.runs q 0x0800 t → (t.role = 1 ∨ t.role = 3) → t.mask.testBit 4 = true → 128 ≤ t.bufLen → s.ctl.flt.badItems = [] →
      s.ovTotal = 0 →
      let es := s.readEntries (t.p 24 8) (t.p 32 4) t.bufLen
      ∃ u gap, exec (.ledgerRead q) s = .next u ∧ Completed s u q 0 (le 8 ((es.head?.map (·.seq)).getD 0) ++ le 4 es.length ++ le 1 gap)
        ∧ (t.flag 0 = false → u.led = s.led)
        ∧ (∀ e, t.flag 0 = true → es.getLast? = some e → u.led.entries = s.led.entries.dropWhile fun x => decide (x.seq ≤ e.seq))
        ∧ (∀ y, u.sess? q = some y → s.dmaOk q = true → y.hostBuf = (t.bufAddr, es.flatMap LEntry.bytes)) ∧ u.plan = s.plan)
    ∧ (s.runs q 0x0801 t → (t.role = 1 ∨ t.role = 3) → t.mask.testBit 4 = true → 224 ≤ t.bufLen →
      ∃ u, exec (.ledgerCheckpoint q) s = .next u ∧ u.led = s.led ∧ u.plan = s.plan
        ∧ (∀ c, s.checkpointFor (t.p 24 8) = some c → Completed s u q 0 (le 8 c.last))
        ∧ (s.checkpointFor (t.p 24 8) = none → Completed s u q 0 []))
    ∧ (s.runs q 0x0802 t → (t.role = 1 ∨ t.role = 2 ∨ t.role = 3) → t.mask.testBit 5 = true → 536 ≤ t.bufLen →
      ∃ u, exec (.attest q) s = .next u ∧ Completed s u q 0 (le 4 536) ∧ u.led = s.led
        ∧ ∀ y, u.sess? q = some y → s.dmaOk q = true → y.hostBuf.1 = t.bufAddr ∧ y.hostBuf.2.take 440 = s.evidence (t.params.take 32))
    ∧ (s.runs q 0x0803 t → (t.role = 1 ∨ t.role = 2 ∨ t.role = 3) → t.mask.testBit 5 = true → Config.chainLen ≤ t.bufLen →
      ∃ u, exec (.identity q) s = .next u ∧ Completed s u q 0 (le 4 Config.chainLen) ∧ u.led = s.led)
    ∧ (s.runs q 0x0804 t → q < 4096 → 256 ≤ t.bufLen → t.bufOk = true → badEnrol s t.buf = false →
      s.get Adr.SEC_STAT Fl.SEC_STAT_ENROL_COUNT < 64 → s.ledgerRoom 1 = true →
      ((s.flash.owner = none ∧ s.sessCarrier q = 0 ∧ 1 ≤ t.role ∧ t.role ≤ 3) ∨ (∃ k, s.flash.owner = some k ∧ t.role = 1
        ∧ ecdsaVerify k (t.buf.take 160) ((t.buf.drop 160).take 96) = true)) →
      ∃ u, exec (.ownerEnrol q) s = .next u ∧ Completed s u q 0 [] ∧ u.flash.owner = some ((t.buf.drop 40).take 97)
        ∧ u.flag Adr.SEC_STAT Fl.SEC_STAT_OWNER = true ∧ u.flash.enrolCount = s.flash.enrolCount + 1
        ∧ (∀ n ∈ s.sessIds, n ≠ q → n < 4096 → u.sessState n = 3) ∧ (s.host.wrBad = [] → u.sessState q = s.sessState q)
        ∧ (s.boot.recovery = false → ∃ e ∈ u.led.entries, e.ty = 0x0061 ∧ e.q = q))

/-- R143, R146, R246, R356, R357. COMB_RESTART of a comb in MCHECK begins its count of machine checks anew; with a good readback it
owes its restart and answers 1, with a bad one the comb is in LOAD_FAIL and it answers 4; of another comb it only answers its state.
IMAGE_WRITE of an image of its class that Karioten signed, with the payload its header digests, puts it, and its level, into the bank that does not run, where a later start finds it,
with its entry; any other image is BAD_SIGNATURE. IMAGE_INFO answers levels and anti-rollback count. No other command than the
owner's does these. -/
def Obligations.MaintenanceCommands : Prop :=
  ∀ (s : State) (q : Nat) (t : Taken), s.regsWf = true → s.ctl.tablesWf = true → s.pastBulk q t.bufAddr t.bufLen = false →
    (∀ ok, s.runs q 0x0A00 t → t.role = 1 → t.p 24 1 < numCombs s.variant →
      (s.engine (t.p 24 1) = 2 → s.ledgerRoom 1 = true → (s.comb (t.p 24 1)).restart = false →
        ∃ u, exec (.combRestart ⟨q, ok⟩) s = .next u ∧ Completed s u q 0 (le 1 (if ok then 1 else 4))
          ∧ (u.comb (t.p 24 1)).restart = ok ∧ (u.comb (t.p 24 1)).checks = [] ∧ (u.comb (t.p 24 1)).gaveUp = false
          ∧ u.engine (t.p 24 1) = (if ok then 2 else 4) ∧ (ok = true → ∀ c, c ≠ t.p 24 1 → u.comb c = s.comb c)
          ∧ (ok = true → u.plan = s.plan))
      ∧ (s.engine (t.p 24 1) ≠ 2 → ∃ u, exec (.combRestart ⟨q, ok⟩) s = .next u ∧ Completed s u q 0 (le 1 (s.engine (t.p 24 1)))
        ∧ u.ctl = s.ctl ∧ u.led = s.led))
    ∧ (s.runs q 0x0B00 t → t.role = 1 → t.cls ≤ 1 → 256 ≤ t.bufLen → t.bufOk = true →
      let k := 2 * t.cls + (1 - s.bankOf t.cls)
      (BankIn.signed ⟨t.buf⟩ s.flash.keys = true → rdLE t.buf 0 4 = 0x4B434E4B → rdLE t.buf 5 1 = t.cls → (s.boot.recovery = true ∨ s.ledgerRoom 1 = true) →
        ∃ u, exec (.imageWrite q) s = .next u ∧ Completed s u q 0 (le 4 (rdLE t.buf 8 4))
          ∧ SMap.find 0 u.flash.levels k = rdLE t.buf 8 4
          ∧ (∀ b, b ≠ k → SMap.find 0 u.flash.levels b = SMap.find 0 s.flash.levels b)
          ∧ (∀ b, u.flash.bank k b = ⟨t.buf⟩)
          ∧ (s.boot.recovery = false → Logged s u 0x0004 q))
      ∧ ((BankIn.signed ⟨t.buf⟩ s.flash.keys = false ∨ rdLE t.buf 0 4 ≠ 0x4B434E4B ∨ rdLE t.buf 5 1 ≠ t.cls) → ∃ u, exec (.imageWrite q) s = .next u
          ∧ Completed s u q 0x23 [] ∧ u.flash = s.flash ∧ u.led = s.led))
    ∧ (s.runs q 0x0B01 t → (t.role = 1 ∨ t.role = 3) → t.cls ≤ 1 → ∃ u, exec (.imageInfo q) s = .next u ∧ u.flash = s.flash
      ∧ Completed s u q 0 (le 4 (max (SMap.find 0 s.flash.levels (2 * t.cls)) (SMap.find 0 s.flash.levels (2 * t.cls + 1)))
          ++ le 4 (s.get (Adr.IMG_STAT t.cls) Fl.IMG_STAT_LEVEL) ++ le 2 (s.rbCount t.cls)) ∧ u.led = s.led)
    ∧ (∀ c ok, t.role ≠ 1 →
      (c = Instr.combRestart ⟨q, ok⟩ ∧ s.runs q 0x0A00 t ∨ c = Instr.imageWrite q ∧ s.runs q 0x0B00 t) →
      ∃ u, exec c s = .next u ∧ Completed s u q 3 [] ∧ u.led = s.led)

/-! ## Stamping, policing and export (spec/09_arrival_stamping.md, spec/10_record_policing_and_export.md) -/

/-- R166, R167, R172, R178, R182. An acquiring receiver locks at the rate tried, LOCKSEQ steps and a LINK record of the new epoch waits in the tile FIFO.
A lost lock ends the open frame, counts LOCK_LOSS and BLK_ERR, forms a LINK record and acquires at the rate that was lost. AUTO tries the other rate after
4 ms. EN = 1 acquires; EN = 0 ends the lock at once, or waits for the open frame. A rate that excludes the locked one loses the lock. APPLY
sets APPLY_PEND and crosses in 2 to 3 cycles of the receiver's clock, one write joining another on its way; arrived, it brings the
staged rules and digest range into force and clears APPLY_PEND. An absent or unpowered receiver changes nothing. -/
def Obligations.ReceiversLockLoseAndAcquire : Prop :=
  ∀ (s : State) (p : Nat), s.regsWf = true → s.exp.tablesWf = true →
    (s.srxOn p = true →
      (∀ delta, s.flag (Adr.SRX_STAT p) Fl.SRX_STAT_ACQ = true → ∃ u, exec (.blockLockGained p delta) s = .next u
        ∧ u.flag (Adr.SRX_STAT p) Fl.SRX_STAT_LOCK = true ∧ u.flag (Adr.SRX_STAT p) Fl.SRX_STAT_ACQ = false
        ∧ u.get (Adr.SRX_STAT p) Fl.SRX_STAT_RATE_ACT = (s.srx p).tryRate % 2 ∧ (u.srx p).lastRate = some (s.srx p).tryRate
        ∧ u.get (Adr.SRX_STAT p) Fl.SRX_STAT_LOCKSEQ = (s.get (Adr.SRX_STAT p) Fl.SRX_STAT_LOCKSEQ + 1) % 65536
        ∧ (∃ r ∈ (u.tile (p / 128)).fifo, r.kind = 6 ∧ r.port = p ∧ (r.word 0).testBit 16 = true ∧ r.word 2 = (s.stampOf p delta).1
            ∧ r.word 4 = u.get (Adr.SRX_STAT p) Fl.SRX_STAT_LOCKSEQ)
        ∧ (∀ a, a ≠ Adr.SRX_STAT p → u.rd a = s.rd a) ∧ (∀ n, n ≠ p → u.srx n = s.srx n) ∧ u.exp.queues = s.exp.queues)
      ∧ (∀ delta, s.flag (Adr.SRX_STAT p) Fl.SRX_STAT_ACQ = false → exec (.blockLockGained p delta) s = .next s)
      ∧ (∀ delta bytes len, s.flag (Adr.SRX_STAT p) Fl.SRX_STAT_LOCK = true → (s.srx p).disablePend = false →
        ∃ u, exec (.blockLockLost p delta bytes len) s = .next u
        ∧ u.flag (Adr.SRX_STAT p) Fl.SRX_STAT_LOCK = false ∧ u.flag (Adr.SRX_STAT p) Fl.SRX_STAT_ACQ = true ∧ (u.srx p).frame = none
        ∧ u.get (Adr.SRX_ERR p) Fl.SRX_ERR_LOCK_LOSS = min 0xffff (s.get (Adr.SRX_ERR p) Fl.SRX_ERR_LOCK_LOSS + 1)
        ∧ u.get (Adr.SRX_ERR p) Fl.SRX_ERR_BLK_ERR = min 0xffff (s.get (Adr.SRX_ERR p) Fl.SRX_ERR_BLK_ERR + 16)
        ∧ (u.srx p).tryRate = (s.srx p).lastRate.getD 1 ∧ (u.srx p).tryTick = s.tick
        ∧ (∃ r ∈ (u.tile (p / 128)).fifo, r.kind = 6 ∧ r.port = p ∧ (r.word 0).testBit 16 = false ∧ r.word 2 = (s.stampOf p delta).1)
        ∧ (∀ a, quiet a = true → a ∉ [Adr.SRX_STAT p, Adr.SRX_ERR p, Adr.SRX_UNM p, Adr.SRX_DROP p, Adr.BR_DROP (p / 128)] → u.rd a = s.rd a))
      ∧ (∀ delta bytes len, s.flag (Adr.SRX_STAT p) Fl.SRX_STAT_LOCK = false → exec (.blockLockLost p delta bytes len) s = .next s)
      ∧ (s.flag (Adr.SRX_STAT p) Fl.SRX_STAT_ACQ = true → 2 ≤ s.get (Adr.SRX_CFG p) Fl.SRX_CFG_RATE →
        ((s.srx p).tryTick + msTicks 4 ≤ s.tick → ∃ u, exec (.autoRateTry p) s = .next u ∧ u.regs = s.regs
          ∧ u.srx p = { s.srx p with tryRate := 1 - (s.srx p).tryRate, tryTick := s.tick } ∧ (∀ n, n ≠ p → u.srx n = s.srx n))
        ∧ (s.tick < (s.srx p).tryTick + msTicks 4 → exec (.autoRateTry p) s = .next s))
      ∧ (∀ v : Word, v.getLsbD 0 = true → s.flag (Adr.SRX_CFG p) Fl.SRX_CFG_EN = false → s.flag (Adr.SRX_STAT p) Fl.SRX_STAT_LOCK = false →
        ∃ u, exec (.srxEn p v) s = .next u ∧ u.flag (Adr.SRX_CFG p) Fl.SRX_CFG_EN = true ∧ u.flag (Adr.SRX_STAT p) Fl.SRX_STAT_ACQ = true
          ∧ (u.srx p).tryTick = s.tick ∧ (∀ a, a ≠ Adr.SRX_CFG p → a ≠ Adr.SRX_STAT p → u.rd a = s.rd a))
      ∧ (∀ v : Word, v.getLsbD 0 = false → (s.srx p).frame = none → ∃ u, exec (.srxEn p v) s = .next u
          ∧ u.flag (Adr.SRX_CFG p) Fl.SRX_CFG_EN = false ∧ u.flag (Adr.SRX_STAT p) Fl.SRX_STAT_LOCK = false
          ∧ u.flag (Adr.SRX_STAT p) Fl.SRX_STAT_ACQ = false ∧ (∀ a, a ≠ Adr.SRX_CFG p → a ≠ Adr.SRX_STAT p → u.rd a = s.rd a))
      ∧ (∀ (v : Word) f, v.getLsbD 0 = false → (s.srx p).frame = some f → ∃ u, exec (.srxEn p v) s = .next u
          ∧ u.flag (Adr.SRX_CFG p) Fl.SRX_CFG_EN = false ∧ (u.srx p).disablePend = true ∧ (u.srx p).frame = some f
          ∧ (∀ a, a ≠ Adr.SRX_CFG p → u.rd a = s.rd a))
      ∧ (∀ (v : Word) bytes len, s.flag (Adr.SRX_STAT p) Fl.SRX_STAT_LOCK = true → (s.srx p).disablePend = false → getBits v 1 2 < 2 →
        getBits v 1 2 ≠ s.get (Adr.SRX_STAT p) Fl.SRX_STAT_RATE_ACT → ∃ u, exec (.srxRate p v bytes len) s = .next u
          ∧ u.get (Adr.SRX_CFG p) Fl.SRX_CFG_RATE = getBits v 1 2 ∧ u.flag (Adr.SRX_STAT p) Fl.SRX_STAT_LOCK = false
          ∧ u.flag (Adr.SRX_STAT p) Fl.SRX_STAT_ACQ = true ∧ (u.srx p).tryRate = getBits v 1 2
          ∧ u.get (Adr.SRX_ERR p) Fl.SRX_ERR_LOCK_LOSS = min 0xffff (s.get (Adr.SRX_ERR p) Fl.SRX_ERR_LOCK_LOSS + 1))
      ∧ (∀ (v : Word) bytes len, s.flag (Adr.SRX_STAT p) Fl.SRX_STAT_LOCK = false → s.flag (Adr.SRX_STAT p) Fl.SRX_STAT_ACQ = false →
        ∃ u, exec (.srxRate p v bytes len) s = .next u ∧ u.get (Adr.SRX_CFG p) Fl.SRX_CFG_RATE = getBits v 1 2
          ∧ (∀ a, a ≠ Adr.SRX_CFG p → u.rd a = s.rd a) ∧ u.exp = s.exp)
      ∧ ((s.srx p).applyAt = none → ∃ u due, exec (.srxApply p) s = .next u ∧ (u.srx p).applyAt = some due ∧ s.tick < due
          ∧ due ≤ s.tick + 13 ∧ u.flag (Adr.SRX_STAT p) Fl.SRX_STAT_APPLY_PEND = true ∧ (u.srx p).rules = (s.srx p).rules
          ∧ (u.srx p).digOff = (s.srx p).digOff ∧ (u.srx p).digLen = (s.srx p).digLen ∧ (u.srx p).frame = (s.srx p).frame
          ∧ (∀ a, a ≠ Adr.SRX_STAT p → u.rd a = s.rd a) ∧ (∀ n, n ≠ p → u.srx n = s.srx n))
      ∧ ((s.srx p).applyAt ≠ none → exec (.srxApply p) s = .next s)
      ∧ (∀ u, u = s.takeStaged p → (u.srx p).rules = (List.range 8).map (s.stagedRule p)
          ∧ (u.srx p).digOff = s.get (Adr.SRX_CFG p) Fl.SRX_CFG_DIG_OFF
          ∧ (u.srx p).digLen = min 64 (s.get (Adr.SRX_CFG p) Fl.SRX_CFG_DIG_LEN) ∧ (u.srx p).applyAt = none
          ∧ u.flag (Adr.SRX_STAT p) Fl.SRX_STAT_APPLY_PEND = false ∧ (u.srx p).frame = (s.srx p).frame
          ∧ (∀ a, a ≠ Adr.SRX_STAT p → u.rd a = s.rd a) ∧ (∀ n, n ≠ p → u.srx n = s.srx n)))
    ∧ (s.srxOn p = false → ∀ delta v bytes len, exec (.blockLockGained p delta) s = .next s ∧ exec (.blockLockLost p delta bytes len) s = .next s
      ∧ exec (.autoRateTry p) s = .next s ∧ exec (.srxEn p v) s = .next s ∧ exec (.srxRate p v bytes len) s = .next s
      ∧ exec (.srxApply p) s = .next s)

/-- R167, R168, R171, R176, R177, R181, R183, R184. A frame start on a locked receiver is stamped at its tick and takes SEQ32, which steps; the start that takes 0
after 0xFFFF_FFFF steps EPOCH and forms a WRAP record. A frame end with no matching rule counts UNMATCHED; with one its STAMP record, of the frame's SEQ32
and stamp, is the newest of the tile FIFO, or is dropped and counted there when 4,096 wait: in the LOSS record of its port that waits there,
or else for the next one. -/
def Obligations.FramesAreStampedAndRecorded : Prop :=
  ∀ (s : State) (p : Nat), s.regsWf = true → s.exp.tablesWf = true →
    (s.srxOn p = true →
      (∀ l4 delta bytes len, s.flag (Adr.SRX_STAT p) Fl.SRX_STAT_LOCK = true → (s.srx p).disablePend = false → ∃ u f,
        exec (.frameStart p l4 delta bytes len) s = .next u ∧ (u.srx p).frame = some f
        ∧ f.seq = s.get (Adr.SRX_SEQ p) Fl.SRX_SEQ_NEXT ∧ f.tick = s.tick ∧ f.ns32 = (s.stampOf p delta).1 ∧ f.frac8 = (s.stampOf p delta).2.1
        ∧ f.dom = domIx s.sdom ∧ f.tq = s.tq ∧ f.l4 = l4 ∧ f.rules = (s.srx p).rules ∧ f.key = (s.srx p).key
        ∧ f.lockseq = s.get (Adr.SRX_STAT p) Fl.SRX_STAT_LOCKSEQ
        ∧ u.get (Adr.SRX_SEQ p) Fl.SRX_SEQ_NEXT = (s.get (Adr.SRX_SEQ p) Fl.SRX_SEQ_NEXT + 1) % 2 ^ 32
        ∧ (u.srx p).wrapPend = (s.get (Adr.SRX_SEQ p) Fl.SRX_SEQ_NEXT == 0xffffffff)
        ∧ ((s.srx p).wrapPend = true → s.get (Adr.SRX_SEQ p) Fl.SRX_SEQ_NEXT = 0 →
            u.get (Adr.SRX_EPOCH p) Fl.SRX_EPOCH_EPOCH = (s.get (Adr.SRX_EPOCH p) Fl.SRX_EPOCH_EPOCH + 1) % 2 ^ 32
            ∧ ∃ r ∈ (u.tile (p / 128)).fifo, r.kind = 1 ∧ r.port = p ∧ r.word 4 = u.get (Adr.SRX_EPOCH p) Fl.SRX_EPOCH_EPOCH)
        ∧ ((s.srx p).wrapPend = false → u.rd (Adr.SRX_EPOCH p) = s.rd (Adr.SRX_EPOCH p))
        ∧ ((s.srx p).frame = none → ∀ a, a ∉ [Adr.SRX_SEQ p, Adr.SRX_EPOCH p] → u.rd a = s.rd a))
      ∧ (∀ l4 delta bytes len, s.flag (Adr.SRX_STAT p) Fl.SRX_STAT_LOCK = false → exec (.frameStart p l4 delta bytes len) s = .next s)
      ∧ (∀ f bytes len how delta, (s.srx p).frame = some f → (s.srx p).disablePend = false → ∃ u, exec (.frameEnd p bytes len how delta) s = .next u
        ∧ (u.srx p).frame = none
        ∧ (firstRule f.rules bytes (min len 65535) = none → u.get (Adr.SRX_UNM p) Fl.SRX_UNM_UNMATCHED
              = min 0xffffffff (s.get (Adr.SRX_UNM p) Fl.SRX_UNM_UNMATCHED + 1) ∧ u.exp.tiles = s.exp.tiles
            ∧ (∀ a, a ≠ Adr.SRX_UNM p → u.rd a = s.rd a))
        ∧ (∀ rule n, firstRule f.rules bytes (min len 65535) = some (rule, n) → n < 8 → f.dom < 2 → f.tq < 2 →
            (stampCount (s.tile (p / 128)).fifo < 4096 → u.regs = s.regs ∧ ∃ r, (u.tile (p / 128)).fifo.getLast? = some r ∧ r.kind = 0
              ∧ r.port = p ∧ r.word 0 / 64 % 512 = p % 512 ∧ r.seq = f.seq ∧ r.word 2 = f.ns32 ∧ r.tick = f.tick)
            ∧ (4096 ≤ stampCount (s.tile (p / 128)).fifo → ((s.tile (p / 128)).fifo.map Rec.kind = (u.tile (p / 128)).fifo.map Rec.kind)
              ∧ u.get (Adr.SRX_DROP p) Fl.SRX_DROP_DROPPED = min 0xffffffff (s.get (Adr.SRX_DROP p) Fl.SRX_DROP_DROPPED + 1)
              ∧ u.get (Adr.BR_DROP (p / 128)) Fl.BR_DROP_COUNT = min 0xffffffff (s.get (Adr.BR_DROP (p / 128)) Fl.BR_DROP_COUNT + 1)
              ∧ ((∀ y ∈ (s.tile (p / 128)).fifo, y.lossOf 0 p = false) → (u.tile (p / 128)).fifo = (s.tile (p / 128)).fifo
                  ∧ (u.srx p).drop0 = (s.srx p).drop0.add f.seq s.tick)
              ∧ (∀ y, (s.tile (p / 128)).fifo.find? (fun y => y.lossOf 0 p) = some y → (u.srx p).drop0 = (s.srx p).drop0
                  ∧ (u.tile (p / 128)).fifo = mergeLoss 0 p (if seqBefore (y.word 4) f.seq then f.seq else y.word 4) 1
                      (s.tile (p / 128)).fifo))))
      ∧ (∀ bytes len how delta, (s.srx p).frame = none → exec (.frameEnd p bytes len how delta) s = .next s))
    ∧ (s.srxOn p = false → ∀ l4 delta bytes len how, exec (.frameStart p l4 delta bytes len) s = .next s
      ∧ exec (.frameEnd p bytes len how delta) s = .next s)

/-- R183, R184, R187, R192. The oldest record leaves the tile FIFO and becomes the newest of the intake; a STAMP record that finds 1,024 is dropped and counted at
point 0x1, one with bad parity at point 0x0; other records always stay. A code error on the link is repaired and reported; a failed retry leaves the record (R313). The tiles' intakes are served in turn, one record at a time. A handed record without
destination counts NODEST; one with a destination is queued with the next QPOS, or dropped when its queue holds its share. STAMP records older than 1 s are
dropped. A LOSS record of a port is formed 100 µs after the first drop it counts. -/
def Obligations.RecordsTravelInOrder : Prop :=
  ∀ s : State, s.regsWf = true → s.exp.tablesWf = true →
    (∀ t r rest, t < 4 → (s.tile t).fifo = r :: rest → s.flt.armed (0x94 + t) 0 false = true → faultExists s.variant (0x94 + t) = true →
      ∃ u, exec (.tileLinkTransfer t) s = .next u ∧ u.exp.tiles = s.exp.tiles ∧ u.flag (Adr.FLT_SRC (0x94 + t)) Fl.FLT_SRC_VALID = true)
    ∧ (∀ t r rest, t < 4 → (s.tile t).fifo = r :: rest → s.flt.armed (0x94 + t) 0 false = false → r.bad = false →
      s.flt.armed (0x90 + t) 0 false = true → faultExists s.variant (0x90 + t) = true →
      ∃ u, exec (.tileLinkTransfer t) s = .next u ∧ (u.tile t).fifo = rest ∧ u.flag (Adr.FLT_SRC (0x90 + t)) Fl.FLT_SRC_VALID = true)
    ∧ (∀ t r rest, t < 4 → (s.tile t).fifo = r :: rest → s.flt.armed (0x94 + t) 0 false = false → s.flt.armed (0x90 + t) 0 false = false →
      ∃ u, exec (.tileLinkTransfer t) s = .next u ∧ u.exp.queues = s.exp.queues
      ∧ ((r.bad = false ∨ ∀ y ∈ rest, y.lossOf 0 r.port = false) → (u.tile t).fifo = rest)
      ∧ (r.bad = false → r.isStamp = true → stampCount (s.tile t).intake < 1024 → (u.tile t).intake.getLast? = some r ∧ u.regs = s.regs)
      ∧ (r.bad = false → r.isStamp = true → 1024 ≤ stampCount (s.tile t).intake →
          ((∀ y ∈ (s.tile t).intake, y.lossOf 1 r.port = false) → (u.tile t).intake = (s.tile t).intake)
          ∧ u.get (Adr.SRX_DROP r.port) Fl.SRX_DROP_DROPPED = min 0xffffffff (s.get (Adr.SRX_DROP r.port) Fl.SRX_DROP_DROPPED + 1)
          ∧ u.get Adr.AGG_DROP Fl.AGG_DROP_COUNT = min 0xffffffff (s.get Adr.AGG_DROP Fl.AGG_DROP_COUNT + 1))
      ∧ (r.bad = false → r.isStamp = false → (∃ k ∈ (u.tile t).intake, k.kind = r.kind ∧ k.port = r.port) ∧ u.regs = s.regs)
      ∧ (r.bad = true → r.port < 512 → (u.tile t).intake = (s.tile t).intake ∧ u.get (Adr.BR_DROP (r.port / 128)) Fl.BR_DROP_COUNT
          = min 0xffffffff (s.get (Adr.BR_DROP (r.port / 128)) Fl.BR_DROP_COUNT + 1)))
    ∧ (∀ t, (s.tile t).fifo = [] → exec (.tileLinkTransfer t) s = .next s)
    ∧ (∀ t, s.nextTile ≠ some t → exec (.recordHandoff t) s = .next s)
    ∧ (∀ t r rest, s.nextTile = some t → (s.tile t).intake = r :: rest → ∃ u, exec (.recordHandoff t) s = .next u ∧ u.exp.turn = t
      ∧ (u.tile t).fifo = (s.tile t).fifo
      ∧ ((agedOut s r = false ∨ ∀ y ∈ rest, y.lossOf 1 r.port = false) → (u.tile t).intake = rest)
      ∧ (agedOut s r = true → u.exp.queues = s.exp.queues ∧ u.get Adr.AGG_DROP Fl.AGG_DROP_COUNT
          = min 0xffffffff (s.get Adr.AGG_DROP Fl.AGG_DROP_COUNT + 1))
      ∧ (r.isStamp = false → s.dests r.port = [] → u.exp.queues = s.exp.queues ∧ u.get Adr.EXP Fl.EXP_NODEST
          = min 0xffffffff (s.get Adr.EXP Fl.EXP_NODEST + 1))
      ∧ (∀ q x, r.isStamp = false → s.dests r.port = [q] → q < 4096 → s.queue? q = some x →
          (x.normal < s.share q * 32768 → ∃ y pre k, u.queue? q = some y ∧ y.items = x.items ++ pre ++ [k] ∧ pre.length ≤ 1
            ∧ (x.lost = 0 → pre = []) ∧ k.r.w = r.w ∧ k.r.port = r.port ∧ k.enter = s.tick ∧ k.slot = 0
            ∧ (x.lost = 0 → k.qpos = s.getPair (Adr.QW q) Fl.QW_QPOS_LO Fl.QW_QPOS_HI % 2 ^ 64)
            ∧ u.getPair (Adr.QW q) Fl.QW_QPOS_LO Fl.QW_QPOS_HI
              = (s.getPair (Adr.QW q) Fl.QW_QPOS_LO Fl.QW_QPOS_HI + pre.length + 1) % 2 ^ 64)
          ∧ (s.share q * 32768 ≤ x.normal → ∃ y, u.queue? q = some y ∧ y.items = x.items ∧ y.lost = x.lost + 1 ∧ y.ctlLost = true
            ∧ u.get (Adr.QW q) Fl.QW_Q_DROP = min 0xffffffff (s.get (Adr.QW q) Fl.QW_Q_DROP + 1))))
    ∧ (∀ t, s.exp.turn < 4 → t = (s.exp.turn + 1) % 4 → (s.tile t).intake ≠ [] → s.nextTile = some t)
    ∧ (∀ t, t < 4 → (s.tile t).intake ≠ [] → (∀ n, n < 4 → n ≠ t → (s.tile n).intake = []) → s.nextTile = some t)
    ∧ (∀ t, ∃ u, exec (.recordAgeDrop t) s = .next u ∧ (u.tile t).fifo = (s.tile t).fifo.filter (fun r => !agedOut s r)
      ∧ (u.tile t).intake.filter Rec.isStamp = (s.tile t).intake.filter (fun r => r.isStamp && !agedOut s r)
      ∧ u.exp.queues = s.exp.queues ∧ ((∀ n, ∀ y ∈ (s.tile n).intake, y.kind = 2 → y.point ≠ 1) → ∀ n, n ≠ t → u.tile n = s.tile n))
    ∧ (∀ p, 0 < (s.srx p).drop0.count → (s.srx p).drop0.tick + usTicks 100 ≤ s.tick → ∃ u, exec (.lossRecord 0 p) s = .next u
      ∧ (u.srx p).drop0 = {} ∧ (∃ r ∈ (u.tile (p / 128)).fifo, r.kind = 2 ∧ r.port = p) ∧ u.regs = s.regs ∧ (∀ n, n ≠ p → u.srx n = s.srx n))
    ∧ (∀ p, 0 < (s.srx p).drop1.count → (s.srx p).drop1.tick + usTicks 100 ≤ s.tick → ∃ u, exec (.lossRecord 1 p) s = .next u
      ∧ (u.srx p).drop1 = {} ∧ (∃ r ∈ (u.tile (p / 128)).intake, r.kind = 2 ∧ r.port = p) ∧ u.regs = s.regs ∧ (∀ n, n ≠ p → u.srx n = s.srx n))
    ∧ (∀ p, ((s.srx p).drop0.count = 0 ∨ s.tick < (s.srx p).drop0.tick + usTicks 100) → exec (.lossRecord 0 p) s = .next s)
    ∧ (∀ p, ((s.srx p).drop1.count = 0 ∨ s.tick < (s.srx p).drop1.tick + usTicks 100) → exec (.lossRecord 1 p) s = .next s)

/-- R188, R189, R191. APPLY copies the staged set of a policer and marks it FIRST. A STAMP record that its policer judges RED is tallied and not queued. A window
that ended 1 s ago or more leaves the policer, and where its port has no destination its SUMMARY counts in NODEST. -/
def Obligations.PolicersMeterAndSummarise : Prop :=
  ∀ (s : State) (p : Nat), s.regsWf = true → s.exp.tablesWf = true →
    (s.has .exportU = true → p < numPorts s.variant → ∃ u, exec (.polApply p) s = .next u ∧ (u.srx p).pol.first = true
      ∧ (u.srx p).pol.set.meter = s.get (Adr.POL p) Fl.POL_METER ∧ (u.srx p).pol.set.aware = s.flag (Adr.POL p) Fl.POL_AWARE
      ∧ (u.srx p).pol.set.cir = s.get (Adr.POL p) Fl.POL_CIR ∧ (u.srx p).pol.set.pir = s.get (Adr.POL p) Fl.POL_PIR
      ∧ (u.srx p).pol.set.cbs = s.get (Adr.POL p) Fl.POL_CBS ∧ (u.srx p).pol.set.ebs = s.get (Adr.POL p) Fl.POL_EBS_PBS
      ∧ (u.srx p).pol.tc = (s.srx p).pol.tc ∧ u.regs = s.regs ∧ (∀ n, n ≠ p → u.srx n = s.srx n) ∧ u.exp.queues = s.exp.queues)
    ∧ ((s.has .exportU = false ∨ numPorts s.variant ≤ p) → exec (.polApply p) s = .next s)
    ∧ (∃ u, exec (.summary p) s = .next u
      ∧ (u.srx p).pol.wins = (s.srx p).pol.wins.filter (fun w => !(w.ended && decide ((w.wnum + 1) * windowTicks + 625000000 ≤ s.tick)))
      ∧ (∀ n, n ≠ p → u.srx n = s.srx n) ∧ u.exp.tiles = s.exp.tiles
      ∧ (∀ w, (s.srx p).pol.wins = [w] → w.ended = true → (w.wnum + 1) * windowTicks + 625000000 ≤ s.tick → s.dests p = [] →
          u.get Adr.EXP Fl.EXP_NODEST = min 0xffffffff (s.get Adr.EXP Fl.EXP_NODEST + 1) ∧ u.exp.queues = s.exp.queues))
    ∧ (∀ t r rest pre, s.nextTile = some t → (s.tile t).intake = r :: rest → r.isStamp = true → agedOut s r = false → r.port = p →
      (∀ w ∈ (s.srx p).pol.wins, w.ended = true → r.tick / windowTicks ≤ w.wnum) →
      pre = (if (s.srx p).pol.set.aware && (r.word 0).testBit 19 then 1 else 0) → ((s.srx p).pol.meter r.tick pre).1 = 2 →
      ∃ u w, exec (.recordHandoff t) s = .next u ∧ u.exp.queues = s.exp.queues ∧ (u.tile t).intake = rest
        ∧ w ∈ (u.srx p).pol.wins ∧ w.wnum = r.tick / windowTicks ∧ 0 < w.red)

/-- R193 to R200, R220. A channel that may start sends from the queue that weighted fair queueing picks: on PCIe its oldest record into the session's record ring
(a failed write faults the session), on Ethernet a datagram of up to MAX_REC of its oldest, by FLUSH with flag 1 where fewer wait; a refill due on the tick comes
first, and adds SH_RATE to every enabled bucket up to its size, once. At a slot instant the FC queues of the channel reserve in ascending order: the first, where
no reservation still runs, releases up to FC_BURST of its oldest records now, the others wait, and FC_LATE counts where one still runs. A queue's LOSS record enters
100 µs after the first drop. Every 1 ms the DX256-T samples depth and age. -/
def Obligations.ChannelsSendInOrder : Prop :=
  ∀ s : State, s.regsWf = true → s.exp.tablesWf = true → (∀ q ∈ s.queueIds, q < 4096) →
    (∀ e ∈ s.exp.queues, ∀ i ∈ e.2.items, i.r.bad = false) →
    (∀ ch q, exec (.channelSend ch) s = exec (.channelSend ch) (shaperRefill s)
      ∧ exec (.datagramFlush q) s = exec (.datagramFlush q) (shaperRefill s) ∧ shaperRefill (shaperRefill s) = shaperRefill s)
    ∧ (∀ q x i rest z, shaperRefill s = s → s.mayStart 0 1 = true → s.wfqPick 0 = some q → s.queue? q = some x → x.items = i :: rest →
      s.sess? q = some z →
      ∃ u y pre, exec (.channelSend 0) s = .next u ∧ u.queue? q = some y ∧ y.items = rest ++ pre ∧ pre.length ≤ 1
        ∧ (x.lost = 0 → pre = []) ∧ y.lastQpos = i.qpos ∧ (∀ n, n ≠ q → u.queue? n = s.queue? n)
        ∧ (s.wrFails q = false → ∃ w, u.sess? q = some w ∧ w.recs = z.recs ++ [i.r.bytes] ∧ w.recTail = (z.recTail + 1) % 2 ^ 32)
        ∧ (s.wrFails q = true → u.sessState q = 4 ∧ u.sess? q = some z))
    ∧ (∀ q x k, shaperRefill s = s → s.wfqPick 1 = some q → s.queue? q = some x → x.lost = 0 →
      k = s.dgramLen q x s.maxRec true → s.mayStart 1 k = true →
      ∃ u y d, exec (.channelSend 1) s = .next u ∧ u.queue? q = some y ∧ 1 ≤ k ∧ k ≤ s.maxRec
        ∧ y.items = x.items.drop k ∧ y.dseq = x.dseq + 1
        ∧ u.exp.dg0 = some d ∧ d.q = q ∧ d.flags = (if x.items.length < s.maxRec ∨ x.told = true then 1 else 0) ∧ d.seq = x.dseq
        ∧ d.recs = (x.items.take k).map (fun i => i.r.bytes) ∧ (∀ i, x.items.head? = some i → d.qpos = i.qpos)
        ∧ (∀ n, n ≠ q → u.queue? n = s.queue? n) ∧ u.host = s.host)
    ∧ (∀ ch, shaperRefill s = s →
      (s.wfqPick ch = none
        ∨ ∃ q x, s.wfqPick ch = some q ∧ s.queue? q = some x
            ∧ s.mayStart ch (if ch = 0 then 1 else s.dgramLen q x s.maxRec true) = false) →
      exec (.channelSend ch) s = .next s)
    ∧ (s.tick % 625 = 0 → s.exp.refillAt ≠ some s.tick → ∃ u, exec .shaperRefill s = .next u ∧ u.regs = s.regs ∧ u.queueIds = s.queueIds
      ∧ (∀ q x, s.queue? q = some x → (s.flag (Adr.QW q) Fl.QW_SH_EN = false → u.queue? q = some x)
        ∧ (s.flag (Adr.QW q) Fl.QW_SH_EN = true → ∃ y, u.queue? q = some y ∧ y.items = x.items ∧ y.fill = false
          ∧ (x.fill = true → y.bucket = (s.get (Adr.QW q) Fl.QW_SH_SIZE * 65536 : Nat))
          ∧ (x.fill = false → y.bucket = min (x.bucket + (s.get (Adr.QW q) Fl.QW_SH_RATE : Nat)) (s.get (Adr.QW q) Fl.QW_SH_SIZE * 65536 : Nat)))))
    ∧ ((s.tick % 625 ≠ 0 ∨ s.exp.refillAt = some s.tick) → exec .shaperRefill s = .next s)
    ∧ (∀ ch, s.slotsServed ch = true → exec (.fcSlot ch) s = .next s)
    ∧ (∀ ch, s.slotsServed ch = false → ∃ u, exec (.fcSlot ch) s = .next u ∧ u.slotsServed ch = true
      ∧ (∀ q x, s.queue? q = some x → s.chan q = ch →
        (s.isFc q = false ∨ s.tick % s.fcTicks q ≠ 0 ∨ x.shadow = true → u.queue? q = some x ∧ u.rd (Adr.QW q + 0xc) = s.rd (Adr.QW q + 0xc))
        ∧ (s.isFc q = true → s.tick % s.fcTicks q = 0 → x.shadow = false →
          u.get (Adr.QW q) Fl.QW_FC_LATE = min 255 (s.get (Adr.QW q) Fl.QW_FC_LATE + (if s.tick < SMap.find 0 s.exp.busy ch then 1 else 0))
          ∧ (s.tick < SMap.find 0 s.exp.busy ch → u.queue? q = some x ∧ ∃ n, s.tick < n ∧ (n, q) ∈ u.exp.fcWait)
          ∧ (SMap.find 0 s.exp.busy ch ≤ s.tick → x.lost = 0 →
            (∀ p y, p < q → s.queue? p = some y → s.chan p = ch → s.isFc p = true → s.tick % s.fcTicks p = 0 → y.shadow = true) →
            ∃ y k, u.queue? q = some y ∧ y.items = x.items.drop k ∧ k ≤ s.fcBurst q
              ∧ (ch ≠ 0 → k = s.dgramLen q x (s.fcBurst q) false)
              ∧ (ch = 0 → s.ringOpen q = true → 1 ≤ k)))))
    ∧ (∀ q x i rest, shaperRefill s = s → s.queue? q = some x → x.items = i :: rest → s.chan q = 1 → i.enter + usTicks s.flushUs ≤ s.tick →
      s.mayStart 1 (s.dgramLen q x s.maxRec true) = true → s.wfqPick 1 = some q → x.items.length < s.maxRec → x.lost = 0 →
      ∃ u y d, exec (.datagramFlush q) s = .next u ∧ u.queue? q = some y ∧ y.items = x.items.drop (s.dgramLen q x s.maxRec true)
        ∧ u.exp.dg0 = some d ∧ d.q = q ∧ d.flags = 1 ∧ d.seq = x.dseq
        ∧ d.recs = (x.items.take (s.dgramLen q x s.maxRec true)).map (fun i => i.r.bytes) ∧ u.host = s.host)
    ∧ (∀ q x, shaperRefill s = s → s.queue? q = some x → x.items = [] → exec (.datagramFlush q) s = .next s)
    ∧ (∀ q x, s.queue? q = some x → 0 < x.lost → x.lostTick + usTicks 100 ≤ s.tick → x.hasSlot 1 = false → ∃ u y k,
      exec (.queueLossRecord q) s = .next u ∧ u.queue? q = some y ∧ y.lost = 0 ∧ y.ctlLost = false ∧ y.items = x.items ++ [k] ∧ k.r.kind = 2
        ∧ k.slot = 1 ∧ k.r.word 5 = min 0xffffffff x.lost ∧ (∀ n, n ≠ q → u.queue? n = s.queue? n))
    ∧ (∀ q x, s.queue? q = some x → (x.lost = 0 ∨ s.tick < x.lostTick + usTicks 100) → exec (.queueLossRecord q) s = .next s)
    ∧ (s.variant = .t256 → s.tick % 625000 = 0 → ∃ u, exec .qDepthSample s = .next u ∧ u.exp = s.exp ∧ (∀ q x, s.queue? q = some x →
        u.get (Adr.QW q) Fl.QW_Q_DEPTH = x.items.length % 2 ^ 32 ∧ (x.items = [] → u.get (Adr.QW q) Fl.QW_Q_DELAY = 0)
        ∧ (∀ i, x.items.head? = some i → u.get (Adr.QW q) Fl.QW_Q_DELAY = min 0xffffffff ((s.tick - i.enter) / 625))))
    ∧ ((s.variant ≠ .t256 ∨ s.tick % 625000 ≠ 0) → exec .qDepthSample s = .next s)

/-! ## Faults and temperature (spec/16_faults_and_thermal.md, spec/14_secrecy_and_ledger.md R272) -/

/-- R272, R311, R313, R316, R317, R347. A test-mode entry on JTAG asserts source 0xF0: FATAL latches, ALIVE_OUT stops, OWN_OUT and SEL_OUT are released, and the
capture holds the instant, or COUNT counts where one is held. A supply source does the same for its own number and opens every power switch. While the
condition goes on, a source whose COUNT gained is reported again after 1 s, with its ledger entry. -/
def Obligations.FatalSourcesLatchAndReport : Prop :=
  ∀ s : State, s.regsWf = true →
    (s.boot.porLow = false → s.boot.dead = false → ∃ u, exec .jtagTest s = .next u ∧ u.fatal = true
      ∧ u.flag (Adr.FLT_SRC 0xF0) Fl.FLT_SRC_VALID = true ∧ u.get (Adr.FLT_SRC 0xF0) Fl.FLT_SRC_CLASS = 2
      ∧ u.flag (Adr.FLT_SRC 0xF0) Fl.FLT_SRC_ACTIVE = true
      ∧ (s.flag (Adr.FLT_SRC 0xF0) Fl.FLT_SRC_VALID = false → u.get (Adr.FLT_SRC 0xF0) Fl.FLT_SRC_NS32 = s.ns32
          ∧ u.get (Adr.FLT_SRC 0xF0) Fl.FLT_SRC_COUNT = s.get (Adr.FLT_SRC 0xF0) Fl.FLT_SRC_COUNT
          ∧ (s.flag Adr.FLT_GSTAT Fl.FLT_GSTAT_FIRST_VALID = false → u.get Adr.FLT_GSTAT Fl.FLT_GSTAT_FIRST = 0xF0))
      ∧ (s.flag (Adr.FLT_SRC 0xF0) Fl.FLT_SRC_VALID = true → u.get (Adr.FLT_SRC 0xF0) Fl.FLT_SRC_COUNT
          = min 0xffffffff (s.get (Adr.FLT_SRC 0xF0) Fl.FLT_SRC_COUNT + 1) ∧ u.get (Adr.FLT_SRC 0xF0) Fl.FLT_SRC_NS32 = s.get (Adr.FLT_SRC 0xF0) Fl.FLT_SRC_NS32)
      ∧ (s.fatal = false → u.flag Adr.FLT_GSTAT Fl.FLT_GSTAT_ALIVE_STOP = true ∧ u.boot.aliveAt = none
          ∧ ((∀ q ∈ s.sessIds, q < 4096) → u.ownOut = false ∧ u.flag Adr.PAIR_WIRE Fl.PAIR_WIRE_SEL_OUT = false))
      ∧ u.plan.inForce = s.plan.inForce ∧ u.tick = s.tick)
    ∧ ((s.boot.porLow = true ∨ s.boot.dead = true) → exec .jtagTest s = .next s)
    ∧ (∀ rail, rail ≤ 5 → s.boot.porLow = false → s.boot.dead = false → ∃ u, exec (.supplyFault rail) s = .next u ∧ u.fatal = true
      ∧ u.boot.cut = true ∧ u.get Adr.PWR_STAT Fl.PWR_STAT_PG = 0 ∧ u.host.sess = [] ∧ u.exp.queues = [] ∧ u.ctl.lanes = []
      ∧ u.flag (Adr.FLT_SRC (0xC0 + rail)) Fl.FLT_SRC_VALID = true ∧ u.get (Adr.FLT_SRC (0xC0 + rail)) Fl.FLT_SRC_CLASS = 2
      ∧ u.flash = s.flash ∧ u.time.a = s.time.a ∧ u.time.b = s.time.b)
    ∧ (∀ rail, (5 < rail ∨ s.boot.porLow = true ∨ s.boot.dead = true) → exec (.supplyFault rail) s = .next s)
    ∧ (∀ n r, (s.flt.reports.find? fun e => e.1 == n) = some (n, r) →
      (s.gwqRuns = true → r.owed = false → r.count < SMap.find 0 s.flt.totals n → r.tick + 625000000 ≤ s.tick → ∃ u, exec (.faultRepeat n) s = .next u
        ∧ SMap.find r u.flt.reports n = ⟨s.tick, SMap.find 0 s.flt.totals n, false⟩ ∧ u.flt.totals = s.flt.totals
        ∧ (s.involRoom = true → s.ovTotal = 0 → s.boot.recovery = false → Logged s u 0x0080 0xffff)
        ∧ (∀ a, quiet a = true → u.rd a = s.rd a) ∧ u.exp = s.exp)
      ∧ ((s.gwqRuns = false ∨ r.owed = true ∨ SMap.find 0 s.flt.totals n ≤ r.count ∨ s.tick < r.tick + 625000000) → exec (.faultRepeat n) s = .next s))
    ∧ (∀ n, (s.flt.reports.find? fun e => e.1 == n) = none → exec (.faultRepeat n) s = .next s)

/-- R315, R318. FLT_REL writes its fields; where no FATAL reaction and no KIND 0x1 hold forbid it, a fault-parked lane, or a comb held for KIND 0x4, is
marked for release at the next boundary, and every other lane stays. FLT_INJ with ARM holds the source and checker named, and arms it where such a checker
exists. With the bridge off nothing changes. -/
def Obligations.ReleasesAndInjections : Prop :=
  ∀ s : State, s.regsWf = true → s.ctl.tablesWf = true →
    (∀ c l, s.bridgeOn = true → s.relAllowed c = true → l < 64 → ∃ u, exec (.fltRelLane c l) s = .next u
      ∧ u.get Adr.FLT_REL Fl.FLT_REL_COMB = c % 256 ∧ u.get Adr.FLT_REL Fl.FLT_REL_LANE = l ∧ u.flag Adr.FLT_REL Fl.FLT_REL_WHOLE = false
      ∧ ((s.lane (64 * c + l)).faultPark = true → u.lane (64 * c + l) = { s.lane (64 * c + l) with release := true })
      ∧ ((s.lane (64 * c + l)).faultPark = false → u.lane (64 * c + l) = s.lane (64 * c + l))
      ∧ (∀ e, e ≠ 64 * c + l → u.lane e = s.lane e) ∧ (∀ a, a ≠ Adr.FLT_REL → u.rd a = s.rd a))
    ∧ (∀ c l, s.bridgeOn = true → (s.relAllowed c = false ∨ 64 ≤ l) → ∃ u, exec (.fltRelLane c l) s = .next u ∧ u.ctl = s.ctl
      ∧ (∀ a, a ≠ Adr.FLT_REL → u.rd a = s.rd a))
    ∧ (∀ c, s.bridgeOn = true → s.relAllowed c = true → ∃ u, exec (.fltRelComb c) s = .next u
      ∧ u.get Adr.FLT_REL Fl.FLT_REL_COMB = c % 256 ∧ u.flag Adr.FLT_REL Fl.FLT_REL_WHOLE = true
      ∧ ((s.comb c).holdPar = true → u.comb c = { s.comb c with release := true }) ∧ ((s.comb c).holdPar = false → u.comb c = s.comb c)
      ∧ (∀ k, k ≠ c → u.comb k = s.comb k) ∧ u.ctl.lanes = s.ctl.lanes ∧ (∀ a, a ≠ Adr.FLT_REL → u.rd a = s.rd a))
    ∧ (∀ c, s.bridgeOn = true → s.relAllowed c = false → ∃ u, exec (.fltRelComb c) s = .next u ∧ u.ctl = s.ctl
      ∧ (∀ a, a ≠ Adr.FLT_REL → u.rd a = s.rd a))
    ∧ (∀ v, s.bridgeOn = true → ∃ u, exec (.fltInjArm v) s = .next u ∧ u.get Adr.FLT_INJ Fl.FLT_INJ_SOURCE = getBits v 0 8
      ∧ u.get Adr.FLT_INJ Fl.FLT_INJ_SUB = getBits v 8 4 ∧ (∀ a, a ≠ Adr.FLT_INJ → u.rd a = s.rd a) ∧ u.ctl.lanes = s.ctl.lanes
      ∧ (injectable s.variant (getBits v 0 8) (getBits v 8 4) = true → u.flt.armed (getBits v 0 8) (getBits v 8 4) true = true
        ∧ u.flt.armed (getBits v 0 8) (getBits v 8 4) false = !v.getLsbD 12)
      ∧ (injectable s.variant (getBits v 0 8) (getBits v 8 4) = false → u.flt = s.flt))
    ∧ (s.bridgeOn = false → ∀ c l v, exec (.fltRelLane c l) s = .next s ∧ exec (.fltRelComb c) s = .next s ∧ exec (.fltInjArm v) s = .next s)

/-- R320, R321, R323. A conversion publishes TEMP and VALID of every sensor whose domain is powered. A tile with a valid reading of 119 °C or more is throttled at level 2; where
every reading is below 45 °C no warning and no throttle stands. A valid reading of 120 °C or more at two conversions in turn shuts the module
down: FATAL, every switched domain off, SHUT_SEEN, SHUTDOWNS counted. -/
def Obligations.ConversionsPublishThrottleAndShutDown : Prop :=
  ∀ (s : State) (temps : Temps), s.regsWf = true → s.boot.porLow = false → s.boot.dead = false →
    (∃ u, exec (.thermalConversion temps) s = .next u ∧ u.tick = s.tick
      ∧ (∀ n, n < 80 → s.sensorOn n = true → u.get (Adr.THERM_T n) Fl.THERM_T_TEMP = wrap 16 (temps.getD n (0, false)).1
        ∧ u.flag (Adr.THERM_T n) Fl.THERM_T_VALID = (temps.getD n (0, false)).2)
      ∧ (∀ n, n < 80 → s.sensorOn n = false → u.flag (Adr.THERM_T n) Fl.THERM_T_VALID = false
        ∧ u.get (Adr.THERM_T n) Fl.THERM_T_TEMP = s.get (Adr.THERM_T n) Fl.THERM_T_TEMP)
      ∧ (∀ t n x, t < numTiles s.variant → n ∈ tileSensors t → n < 80 → s.sensorOn n = true → temps.getD n (0, false) = (x, true) → 952 ≤ x → x < 32768 →
          u.thermLevel t = 2)
      ∧ ((∀ n, n < 80 → s.sensorOn n = true → (temps.getD n (0, false)).2 = true → -32768 ≤ (temps.getD n (0, false)).1 ∧ (temps.getD n (0, false)).1 < 360) →
          u.flag Adr.THERM_STAT Fl.THERM_STAT_WARN = false ∧ (∀ t, t < numTiles s.variant → u.thermLevel t = 0)
          ∧ u.flag (Adr.FLT_SRC 0xD1) Fl.FLT_SRC_ACTIVE = false ∧ u.flt.shutdown = s.flt.shutdown ∧ u.flt.hot = false)
      ∧ (∀ n x, s.flt.hot = true → s.flt.shutdown = false → n < 80 → s.sensorOn n = true → temps.getD n (0, false) = (x, true) → 960 ≤ x → x < 32768 →
          u.flt.shutdown = true ∧ u.fatal = true ∧ u.get Adr.PWR_STAT Fl.PWR_STAT_PG = 0 ∧ u.host.sess = []
          ∧ u.flag Adr.THERM_STAT Fl.THERM_STAT_SHUT_SEEN = true ∧ u.flag Adr.FLT_GSTAT Fl.FLT_GSTAT_ALIVE_STOP = true
          ∧ u.get Adr.THERM_CNT Fl.THERM_CNT_SHUTDOWNS = min 0xffff (s.get Adr.THERM_CNT Fl.THERM_CNT_SHUTDOWNS + 1))
      ∧ (s.flt.hot = false → u.flt.shutdown = s.flt.shutdown ∧ u.get Adr.PWR_STAT Fl.PWR_STAT_PG = s.get Adr.PWR_STAT Fl.PWR_STAT_PG))

/-! ## Starts, resets, checkpoints (spec/19_power_boot_reset.md, spec/14_secrecy_and_ledger.md) -/

/-- R270, R347, R350, R351, R357, R358, R360, R373. POR_N low leaves the flash, the pins and the waiting commands alone. SYS_RST_N low removes every switched domain and what lived there; time
and flash stay. A release starts the module: with no bank passing, or in RECOVERY, it stops at stage 3 in recovery; else Gwynique runs, every
present domain is powered, and stage 7 begins. OWNER_CLR held at POR_N removes the owner record and the pair key. A start that POR_N and SYS_RST_N both
held back is POR_N's (R363). -/
def Obligations.ResetsClearAndReleasesStart : Prop :=
  ∀ s : State, s.regsWf = true →
    (∃ u, exec .porNAssert s = .next u ∧ u.regs = [] ∧ u.tick = 0 ∧ u.flash = s.flash ∧ u.pending = s.pending ∧ u.variant = s.variant
      ∧ u.host.sess = [] ∧ u.led.entries = [] ∧ u.led.cpNum = s.led.cpNum ∧ u.ctl.lanes = [] ∧ u.boot.porLow = true
      ∧ u.boot.sysLow = s.boot.sysLow ∧ u.boot.dead = false)
    ∧ (∃ u, exec .vddAonAbsent s = .next u ∧ u.regs = [] ∧ u.flash = s.flash ∧ u.pending = s.pending ∧ u.host.sess = [] ∧ u.boot.dead = true
      ∧ u.boot.porLow = s.boot.porLow ∧ u.boot.sysLow = s.boot.sysLow ∧ u.boot.gwq = false)
    ∧ (s.boot.sysLow = true → exec .sysRstNAssert s = .next s)
    ∧ (s.boot.sysLow = false → (s.boot.porLow = true ∨ s.boot.dead = true) → ∃ u, exec .sysRstNAssert s = .next u ∧ u.boot.sysLow = true ∧ u.regs = s.regs)
    ∧ (s.boot.sysLow = false → s.boot.porLow = false → s.boot.dead = false → ∃ u, exec .sysRstNAssert s = .next u ∧ u.boot.sysLow = true
      ∧ u.get Adr.PWR_STAT Fl.PWR_STAT_PG = 0 ∧ u.host.sess = [] ∧ u.exp.queues = [] ∧ u.ctl.lanes = [] ∧ u.plan.commits = [] ∧ u.boot.gwq = false
      ∧ u.boot.posB = s.boot.posB ∧ u.flash = s.flash ∧ u.time.a = s.time.a ∧ u.time.b = s.time.b ∧ u.tick = s.tick ∧ u.ownOut = false
      ∧ u.flag Adr.FLT_GSTAT Fl.FLT_GSTAT_ALIVE_STOP = true ∧ (∀ a, alwaysOnAdr a = true → a ∉ [Adr.PWR_STAT, Adr.FLT_GSTAT] → u.rd a = s.rd a))
    ∧ (∀ b, (s.boot.porLow = false ∨ s.boot.dead = true) → exec (.porNRelease b) s = .next s)
    ∧ (∀ b, s.boot.porLow = true → s.boot.dead = false → s.boot.sysLow = true → ∃ u, exec (.porNRelease b) s = .next u ∧ u.boot.porLow = false
      ∧ u.boot.posB = b.pairPosB ∧ u.boot.cspEn = b.cspEn ∧ u.boot.porPend = true ∧ u.regs = s.regs)
    ∧ (∀ b caps bank, s.boot.porLow = true → s.boot.dead = false → s.boot.sysLow = false →
      caps = (if b.cspEn then capDomains s.variant else capDomains s.variant % 2 ^ 31) →
      bank = chooseBank s.flash.keys s.variant 0 (s.flash.banksOf b).gwqBank0 (s.flash.banksOf b).gwqBank1 (s.rbCount 0) → ∃ u, exec (.porNRelease b) s = .next u
      ∧ u.boot.porLow = false ∧ u.boot.posB = b.pairPosB ∧ u.get Adr.BOOT_STAT Fl.BOOT_STAT_CAUSE = 1 ∧ u.boot.t0 = s.tick
      ∧ (b.ownerClrHeld = true → u.flash.owner = none ∧ u.flash.pairKey = none ∧ u.flag Adr.BOOT_STAT Fl.BOOT_STAT_OWNER_CLR = true)
      ∧ ((bank = none ∨ b.bootMode = 2) → u.boot.recovery = true ∧ u.boot.gwq = s.boot.gwq
          ∧ u.get Adr.BOOT_STAT Fl.BOOT_STAT_STAGE = 3 ∧ u.get Adr.BOOT_STAT Fl.BOOT_STAT_WAIT = 6 ∧ u.led = s.led
          ∧ u.get Adr.PWR_STAT Fl.PWR_STAT_PG = caps / 2 ^ 24 * 2 ^ 24)
      ∧ (∀ n, bank = some n → b.bootMode ≠ 2 → u.boot.gwq = true
          ∧ u.get Adr.BOOT_STAT Fl.BOOT_STAT_STAGE = 7 ∧ u.get Adr.BOOT_STAT Fl.BOOT_STAT_G_BANK = n ∧ u.get Adr.PWR_STAT Fl.PWR_STAT_PG = caps))
    ∧ (∀ b, s.boot.sysLow = false → exec (.sysRstNRelease b) s = .next s)
    ∧ (∀ b, s.boot.sysLow = true → (s.boot.porLow = true ∨ s.boot.dead = true ∨ s.flt.shutdown = true) → ∃ u, exec (.sysRstNRelease b) s = .next u
      ∧ u.boot.sysLow = false ∧ u.boot.cut = false ∧ u.regs = s.regs ∧ u.flash = s.flash)
    ∧ (∀ b, s.boot.sysLow = true → s.boot.porLow = false → s.boot.dead = false → s.flt.shutdown = false → ∃ u, exec (.sysRstNRelease b) s = .next u
      ∧ u.boot.sysLow = false ∧ u.boot.posB = s.boot.posB ∧ u.get Adr.BOOT_STAT Fl.BOOT_STAT_CAUSE = (if s.boot.porPend then 1 else 2) ∧ u.boot.t0 = s.tick ∧ u.fatal = false
      ∧ (∀ n, b.loadFails = [] →
          chooseBank s.flash.keys s.variant 0 (s.flash.banksOf b).gwqBank0 (s.flash.banksOf b).gwqBank1 (s.rbCount 0) = some n → b.bootMode ≠ 2 → u.boot.gwq = true
          ∧ u.get Adr.BOOT_STAT Fl.BOOT_STAT_STAGE = 7 ∧ u.get Adr.PWR_STAT Fl.PWR_STAT_PG = s.caps32))
    ∧ (∀ b, s.flt.shutdown = true → s.cooled = true → s.boot.sysLow = false → s.boot.porLow = false → s.boot.dead = false → s.boot.cut = false →
      ∃ u, exec (.cooledRestart b) s = .next u ∧ u.flt.shutdown = false ∧ u.get Adr.BOOT_STAT Fl.BOOT_STAT_CAUSE = 3 ∧ u.boot.posB = s.boot.posB
        ∧ u.boot.t0 = s.tick)
    ∧ (∀ b, (s.flt.shutdown = false ∨ s.cooled = false ∨ s.boot.sysLow = true ∨ s.boot.porLow = true ∨ s.boot.dead = true ∨ s.boot.cut = true) →
      exec (.cooledRestart b) s = .next s)

/-- R246, R247, R275, R276, R319, R351, R352, R359, R362. At stage 7 with VDD_DRV good, EN sets and a capture is asked for; stage 7 ends once the ramp has ended
and the references are captured. At stage 9 with what READY waits for, the module is READY and ALIVE_OUT,
on a variant that drives it, toggles unless FATAL is latched. A checkpoint due covers every entry since the last, and is sealed with the head at most once
per second. WARM_RESET, or the watchdog as a CONTAINED source, closes every session at once, keeps the plan in force and its commits, and waits for the
commands taken, whose completions to CLOSING sessions are discarded; a command read with bad check bits starts one too (R313). The end of a warm reset writes the
close entries owed; a full ring takes no entry (R273). -/
def Obligations.StartEndsWarmResetsAndCheckpoints : Prop :=
  ∀ s : State, s.regsWf = true →
    (s.gwqRuns = true → s.get Adr.BOOT_STAT Fl.BOOT_STAT_STAGE = 7 → s.flag Adr.DRV_STAT Fl.DRV_STAT_DRV_PG = true → s.boot.recovery = false →
      ∃ u, exec .driveEnableAtBoot s = .next u ∧ u.flag Adr.DRV_CTL Fl.DRV_CTL_EN = true ∧ u.ctl.pilot.recapture = true
      ∧ (s.flag Adr.DRV_CTL Fl.DRV_CTL_EN = false → u.boot.rampEnd = some (s.tick + usTicks 10)) ∧ u.ctl.lanes = s.ctl.lanes
      ∧ u.ctl.cal = s.ctl.cal ∧ (∀ a, a ≠ Adr.DRV_CTL → u.rd a = s.rd a))
    ∧ (∀ a b, s.gwqRuns = true → s.get Adr.BOOT_STAT Fl.BOOT_STAT_STAGE = 7 → s.flag Adr.DRV_STAT Fl.DRV_STAT_EN_DONE = true →
      s.ctl.pilot.recapture = true → s.powered 24 = true → ∃ u, exec (.pilotRefCapture a b) s = .next u
      ∧ u.get Adr.BOOT_STAT Fl.BOOT_STAT_STAGE = (if s.boot.applied then 9 else 8)
      ∧ (s.boot.selfCal = true → s.frValid = true → s.boot.applied = false → s.procAny = false → u.ctl.cal.runs.length = s.ctl.cal.runs.length + 1)
      ∧ ((s.boot.selfCal = false ∨ s.frValid = false ∨ s.boot.applied = true) → u.ctl.cal = s.ctl.cal))
    ∧ ((s.gwqRuns = false ∨ s.get Adr.BOOT_STAT Fl.BOOT_STAT_STAGE ≠ 7 ∨ s.flag Adr.DRV_STAT Fl.DRV_STAT_DRV_PG = false) → exec .driveEnableAtBoot s = .next s)
    ∧ (s.gwqRuns = true → s.get Adr.BOOT_STAT Fl.BOOT_STAT_STAGE = 9 → s.readyNow = true → ∃ u, exec .ready s = .next u
      ∧ u.get Adr.BOOT_STAT Fl.BOOT_STAT_STAGE = 10 ∧ u.flag Adr.BOOT_STAT Fl.BOOT_STAT_READY = true
      ∧ u.get Adr.BOOT_TIME Fl.BOOT_TIME_READY_MS = min 0xffff ((s.tick - s.boot.t0) / 625000)
      ∧ (s.fatal = false → s.has .pairU = true → u.boot.aliveAt = some (s.tick + 3125))
      ∧ (s.has .pairU = false → u.boot.aliveAt = s.boot.aliveAt)
      ∧ ((s.pairOn = false ∨ s.flash.pairKey = none ∨ s.pair.conflict = true) → u.role = s.role ∧ u.led = s.led
          ∧ (s.fatal = false → s.has .pairU = true → u.flag Adr.PAIR_WIRE Fl.PAIR_WIRE_ALIVE_RUN = true ∧ u.flag Adr.FLT_GSTAT Fl.FLT_GSTAT_ALIVE_STOP = false)))
    ∧ ((s.gwqRuns = false ∨ s.get Adr.BOOT_STAT Fl.BOOT_STAT_STAGE ≠ 9 ∨ s.readyNow = false) → exec .ready s = .next s)
    ∧ (∀ e, s.gwqRuns = true → checkpointDue s = true → s.led.last = some e → s.checkBad 0xA3 0 = false → ∃ u c, exec .checkpoint s = .next u
      ∧ u.led.cps = s.led.cps ++ [c] ∧ c.first = s.led.uncovFirst ∧ c.last = e.seq ∧ u.led.cpNum = s.led.cpNum + 1 ∧ u.led.uncov = 0
      ∧ u.led.entries = s.led.entries
      ∧ ((∀ k, s.led.sealTick = some k → k + 625000000 ≤ s.tick) → u.flash.head = some (e.seq, sha384 e.bytes) ∧ u.flash.unsealed = false
        ∧ u.flash.seals = s.flash.seals + 1 ∧ u.flash.checkpoint = some c.bytes ∧ u.led.sealTick = some s.tick)
      ∧ (∀ k, s.led.sealTick = some k → s.tick < k + 625000000 → u.flash.head = s.flash.head ∧ u.flash.checkpoint = s.flash.checkpoint
        ∧ u.flash.seals = s.flash.seals)
      ∧ u.getPair Adr.LEDGER_STAT Fl.LEDGER_STAT_CP_LO Fl.LEDGER_STAT_CP_HI = e.seq % 2 ^ 64)
    ∧ (s.gwqRuns = true → checkpointDue s = true → s.checkBad 0xA3 0 = true → ∃ u, exec .checkpoint s = .next u
      ∧ u.flag (Adr.FLT_SRC 0xA3) Fl.FLT_SRC_VALID = true)
    ∧ ((s.gwqRuns = false ∨ checkpointDue s = false ∨ (s.led.last = none ∧ s.checkBad 0xA3 0 = false)) → exec .checkpoint s = .next s)
    ∧ (∀ q t, SMap.rising s.host.sess = true → (∀ n ∈ s.sessIds, n < 4096) → (∀ n ∈ s.host.opening, s.sess? n = none) → s.runs q 0x0A01 t →
      t.role = 1 → s.pastBulk q t.bufAddr t.bufLen = false → (s.boot.recovery = true ∨ s.ledgerRoom 1 = true) →
      ∃ u, exec (.warmReset q) s = .next u ∧ Completed s u q 0 []
      ∧ (∀ n, (u.sess? n).isSome = true → u.sessState n = 3) ∧ u.host.opens = [] ∧ u.plan.commits = s.plan.commits ∧ u.plan.inForce = s.plan.inForce
      ∧ u.plan.goStop = true ∧ u.ctl.lanes = s.ctl.lanes ∧ (s.boot.recovery = false → Logged s u 0x0091 q)
      ∧ ((∀ e ∈ s.host.sess, e.1 ≠ q → ∀ k, e.2.taken = some k → k.kept = true) → u.boot.warm = some s.tick ∧ u.boot.warmDue = false
          ∧ u.plan.compiles = [] ∧ u.get Adr.BOOT_TIME Fl.BOOT_TIME_WARM
            = min (2 ^ Fl.BOOT_TIME_WARM.width - 1) (s.get Adr.BOOT_TIME Fl.BOOT_TIME_WARM + 1))
      ∧ (∀ e ∈ s.host.sess, e.1 ≠ q → ∀ k, e.2.taken = some k → k.kept = false → u.boot.warmDue = true ∧ u.boot.warm = s.boot.warm
          ∧ u.plan.compiles = s.plan.compiles))
    ∧ (∀ q x t st r, SMap.rising s.host.sess = true → s.boot.warmDue = true → s.sess? q = some x → x.taken = some t → s.sessState q = 3 →
      (s.complete q st r).sess? q = some { x with taken := none }
      ∧ ((∀ e ∈ s.host.sess, e.1 ≠ q → ∀ k, e.2.taken = some k → k.kept = true) → (s.complete q st r).boot.warm = some s.tick
          ∧ (s.complete q st r).boot.warmDue = false))
    ∧ (∀ q, s.taken? q 0x0A01 = none → exec (.warmReset q) s = .next s)
    ∧ (s.gwqRuns = true → s.boot.warmDue = false → s.classFor 0xF1 = 1 → (∀ n ∈ s.sessIds, n < 4096) → (∀ n ∈ s.host.opening, s.sess? n = none) →
      ∃ u, exec .gwqWd s = .next u ∧ u.boot.warm = (if s.cmdsTaken then none else some s.tick) ∧ u.boot.warmDue = s.cmdsTaken
      ∧ u.flag (Adr.FLT_SRC 0xF1) Fl.FLT_SRC_VALID = true ∧ (∀ n, (u.sess? n).isSome = true → u.sessState n = 3)
      ∧ u.plan.commits = s.plan.commits ∧ u.plan.inForce = s.plan.inForce ∧ u.led = s.led)
    ∧ (∀ q t, s.taken? q 0x0B01 = some t → s.checkBad 0xA0 q = true → s.classFor 0xA0 = 1 → faultExists s.variant 0xA0 = true →
      ∃ u, exec (.imageInfo q) s = .next u ∧ u.flag (Adr.FLT_SRC 0xA0) Fl.FLT_SRC_VALID = true
        ∧ (u.boot.warmDue = true ∨ u.boot.warm = some s.tick))
    ∧ (∀ e, ringSize s.variant ≤ s.led.entries.length → s.pushEntry e = s)
    ∧ (s.gwqRuns = true → s.classFor 0xF1 = 2 → ∃ u, exec .gwqWd s = .next u ∧ u.boot.gwq = false ∧ u.fatal = true ∧ u.boot.warm = none)
    ∧ (s.gwqRuns = false → exec .gwqWd s = .next s)
    ∧ (∀ k, s.boot.warm = some k → ∃ u, exec .warmResetComplete s = .next u ∧ u.boot.warm = none ∧ u.boot.warmStop = none ∧ u.plan.goStop = false
      ∧ u.plan.commits = s.plan.commits ∧ (∀ q x, q < 4096 → s.sess? q = some x → s.sessState q = 3 → x.closeCause = 0 →
          ∃ y, u.sess? q = some y ∧ y.closeCause = 9 ∧ u.sessState q = 3))
    ∧ (s.boot.warm = none → exec .warmResetComplete s = .next s)

/-! ## Laser safety (spec/17_laser_safety.md) -/

/-- R325 to R330. With POR_N high: a demand on ESTOP_N parks every panel, switches SO off and trips; its release leaves the state. A demand on an enabled guard parks its panel, and trips
where the guard has its SO bit; its release withdraws the panel park only without that bit. Every lock-out cause is counted; the first enters LOCKOUT, keeps
its cause, switches SO off and parks every panel. A passing pulse changes no state. The block asleep changes nothing. -/
def Obligations.DemandsParkTripAndLockOut : Prop :=
  ∀ s : State, s.regsWf = true →
    (s.safeOn = true → s.safe.estop = false → ∃ u, exec .estopNDemand s = .next u ∧ u.safe.estop = true ∧ u.safe.allGates = true
      ∧ u.flag Adr.SAFE_STAT Fl.SAFE_STAT_ESTOP = false ∧ u.safeGet Fl.SAFE_STAT_SO = 0 ∧ u.safeGet Fl.SAFE_STAT_PANEL_PARK = 15
      ∧ u.safeGet Fl.SAFE_STAT_STATE = (if s.safeGet Fl.SAFE_STAT_STATE = 0 then 1 else s.safeGet Fl.SAFE_STAT_STATE)
      ∧ u.get Adr.SAFE_CNT Fl.SAFE_CNT_TRIPS = min 255 (s.get Adr.SAFE_CNT Fl.SAFE_CNT_TRIPS + 1)
      ∧ u.flag (Adr.FLT_SRC 0xD8) Fl.FLT_SRC_VALID = true ∧ (s.safeGet Fl.SAFE_STAT_SO ≠ 0 → u.safe.soChange = some s.tick)
      ∧ u.safeGet Fl.SAFE_STAT_GUARD_EN_ACT = s.safeGet Fl.SAFE_STAT_GUARD_EN_ACT)
    ∧ (s.safeOn = true → s.safe.estop = true → exec .estopNDemand s = .next s)
    ∧ (s.safeOn = true → s.safe.estop = true → ∃ u, exec .estopNRelease s = .next u ∧ u.safe.estop = false
      ∧ u.flag Adr.SAFE_STAT Fl.SAFE_STAT_ESTOP = true ∧ u.safeGet Fl.SAFE_STAT_STATE = s.safeGet Fl.SAFE_STAT_STATE
      ∧ u.safeGet Fl.SAFE_STAT_SO = s.safeGet Fl.SAFE_STAT_SO ∧ u.safeGet Fl.SAFE_STAT_PANEL_PARK = s.safeGet Fl.SAFE_STAT_PANEL_PARK
      ∧ u.safe.allGates = s.safe.allGates ∧ u.ctl.lanes = s.ctl.lanes ∧ (∀ a, quiet a = true → a ≠ Adr.SAFE_STAT → u.rd a = s.rd a))
    ∧ (s.safeOn = true → s.safe.estop = false → exec .estopNRelease s = .next s)
    ∧ (∀ n, s.safeOn = true → n < 4 → s.guardOn n = true → s.safe.guards.getD n false = false → ∃ u, exec (.guardNDemand n) s = .next u
      ∧ (u.safeGet Fl.SAFE_STAT_GUARD).testBit n = false ∧ (u.safeGet Fl.SAFE_STAT_PANEL_PARK).testBit n = true ∧ u.safe.panels.testBit n = true
      ∧ u.flag (Adr.FLT_SRC 0xD8) Fl.FLT_SRC_VALID = true
      ∧ (s.guardSo n = true → u.safeGet Fl.SAFE_STAT_SO = 0 ∧ u.safeGet Fl.SAFE_STAT_STATE ≠ 0
          ∧ u.get Adr.SAFE_CNT Fl.SAFE_CNT_TRIPS = min 255 (s.get Adr.SAFE_CNT Fl.SAFE_CNT_TRIPS + 1))
      ∧ (s.guardSo n = false → u.safeGet Fl.SAFE_STAT_SO = s.safeGet Fl.SAFE_STAT_SO ∧ u.safeGet Fl.SAFE_STAT_STATE = s.safeGet Fl.SAFE_STAT_STATE
          ∧ u.rd Adr.SAFE_CNT = s.rd Adr.SAFE_CNT))
    ∧ (∀ n, s.safeOn = true → (4 ≤ n ∨ s.guardOn n = false ∨ s.safe.guards.getD n false = true) → exec (.guardNDemand n) s = .next s)
    ∧ (∀ n, s.safeOn = true → n < 4 → s.guardOn n = true → s.safe.guards.getD n false = true → ∃ u, exec (.guardNRelease n) s = .next u
      ∧ (u.safeGet Fl.SAFE_STAT_GUARD).testBit n = true ∧ u.safeGet Fl.SAFE_STAT_STATE = s.safeGet Fl.SAFE_STAT_STATE
      ∧ u.safeGet Fl.SAFE_STAT_SO = s.safeGet Fl.SAFE_STAT_SO ∧ u.safe.allGates = s.safe.allGates
      ∧ (s.guardSo n = false → u.safe.panels.testBit n = false ∧ (s.safe.allGates = false → (u.safeGet Fl.SAFE_STAT_PANEL_PARK).testBit n = false))
      ∧ (s.guardSo n = true → u.safe.panels = s.safe.panels ∧ u.safeGet Fl.SAFE_STAT_PANEL_PARK = s.safeGet Fl.SAFE_STAT_PANEL_PARK))
    ∧ (∀ n, s.safeOn = true → (4 ≤ n ∨ s.guardOn n = false ∨ s.safe.guards.getD n false = false) → exec (.guardNRelease n) s = .next s)
    ∧ (∀ i cause, s.safeOn = true →
      ((i = .soReadback ∧ cause = 5) ∨ (i = .internalFault ∧ cause = 6)
        ∨ (i = .kfbTimeout ∧ cause = 3 ∧ s.kfbMatches = false ∧ ∃ t, s.safe.soChange = some t ∧ t + msTicks 50 ≤ s.tick)
        ∨ (∃ n high, i = .kfbUnexpected n high ∧ cause = 4 ∧ n < 2 ∧ s.soUsed n = true ∧ (s.safeGet Fl.SAFE_STAT_KFB).testBit n ≠ high
            ∧ s.safe.soChange = none)
        ∨ (∃ c j, i = .testPulse c ∧ cause = 2 ∧ j < 8 ∧ (inputsOf s.evaluated).getD j false = true ∧ (inputsOf (s.levels c)).getD j false = true
            ∧ (inputsOf c).getD j false = false ∧ (inputsOf s.safe.failed).getD j false = true)) →
      ∃ u, exec i s = .next u ∧ u.safeGet Fl.SAFE_STAT_STATE = 2
        ∧ u.get Adr.SAFE_CNT Fl.SAFE_CNT_LOCKOUTS = min 255 (s.get Adr.SAFE_CNT Fl.SAFE_CNT_LOCKOUTS + 1)
        ∧ (s.safeGet Fl.SAFE_STAT_STATE ≠ 2 → u.safeGet Fl.SAFE_STAT_CAUSE = cause ∧ u.safeGet Fl.SAFE_STAT_SO = 0
            ∧ u.safeGet Fl.SAFE_STAT_PANEL_PARK = 15 ∧ u.safe.allGates = true ∧ u.flag (Adr.FLT_SRC 0xD9) Fl.FLT_SRC_VALID = true)
        ∧ (s.safeGet Fl.SAFE_STAT_STATE = 2 → u.safeGet Fl.SAFE_STAT_CAUSE = s.safeGet Fl.SAFE_STAT_CAUSE ∧ u.safeGet Fl.SAFE_STAT_SO = s.safeGet Fl.SAFE_STAT_SO))
    ∧ (s.safeOn = false → ∀ n high c, exec .estopNDemand s = .next s ∧ exec .estopNRelease s = .next s ∧ exec (.guardNDemand n) s = .next s
      ∧ exec (.guardNRelease n) s = .next s ∧ exec (.testPulse c) s = .next s ∧ exec .kfbTimeout s = .next s
      ∧ exec (.kfbUnexpected n high) s = .next s ∧ exec .soReadback s = .next s ∧ exec .internalFault s = .next s)

/-- R325, R329, R331, R332. A pulse that every evaluated input passes marks them passed and leaves the state; one failure marks the input and leaves it. Feedback that follows a change of SO
ends the wait. A reset of 0.1 s to 2 s with every needed input high and passed, and both self-checks good, brings SAFE_CFG into force, returns to RUN and conducts
the drivers in use; any other only counts. -/
def Obligations.PulsesFeedbackAndDeliberateReset : Prop :=
  ∀ s : State, s.regsWf = true → s.safeOn = true →
    (∀ c, (∀ j, j < 8 → (inputsOf s.evaluated).getD j false = true → (inputsOf c).getD j false = true) → ∃ u, exec (.testPulse c) s = .next u
      ∧ (∀ j, j < 8 → (inputsOf s.evaluated).getD j false = true → (inputsOf u.safe.failed).getD j false = false
          ∧ (inputsOf u.safe.passed).getD j false = ((inputsOf (s.levels c)).getD j false || (inputsOf s.safe.passed).getD j false))
      ∧ u.safeGet Fl.SAFE_STAT_STATE = s.safeGet Fl.SAFE_STAT_STATE ∧ u.safeGet Fl.SAFE_STAT_SO = s.safeGet Fl.SAFE_STAT_SO
      ∧ u.rd Adr.SAFE_CNT = s.rd Adr.SAFE_CNT ∧ u.ctl.lanes = s.ctl.lanes ∧ u.led = s.led)
    ∧ (∀ c, c.estop = false → s.flag Adr.SAFE_STAT Fl.SAFE_STAT_ESTOP = true → s.safe.failed.estop = false →
      (∀ j, 1 ≤ j → j < 8 → (inputsOf s.evaluated).getD j false = true → (inputsOf c).getD j false = true) → ∃ u, exec (.testPulse c) s = .next u
        ∧ u.safe.failed.estop = true ∧ u.safe.passed.estop = false ∧ u.safeGet Fl.SAFE_STAT_STATE = s.safeGet Fl.SAFE_STAT_STATE
        ∧ u.flag Adr.SAFE_STAT Fl.SAFE_STAT_ESTOP = true ∧ u.rd Adr.SAFE_CNT = s.rd Adr.SAFE_CNT)
    ∧ (∀ t, s.safe.soChange = some t → t + msTicks 50 ≤ s.tick → s.kfbMatches = true → ∃ u, exec .kfbTimeout s = .next u ∧ u.safe.soChange = none
      ∧ u.regs = s.regs ∧ u.ctl.lanes = s.ctl.lanes)
    ∧ (∀ t, s.safe.soChange = some t → s.tick < t + msTicks 50 → exec .kfbTimeout s = .next s)
    ∧ (s.safe.soChange = none → exec .kfbTimeout s = .next s)
    ∧ (∀ n high t, n < 2 → s.soUsed n = true → (s.safeGet Fl.SAFE_STAT_KFB).testBit n ≠ high → s.safe.soChange = some t →
      ∃ u, exec (.kfbUnexpected n high) s = .next u ∧ (u.safeGet Fl.SAFE_STAT_KFB).testBit n = high
        ∧ u.safeGet Fl.SAFE_STAT_STATE = s.safeGet Fl.SAFE_STAT_STATE ∧ (u.kfbMatches = true → u.safe.soChange = none)
        ∧ (u.kfbMatches = false → u.safe.soChange = some t) ∧ (∀ a, a ≠ Adr.SAFE_STAT → u.rd a = s.rd a))
    ∧ (∀ n high, (2 ≤ n ∨ s.soUsed n = false ∨ (s.safeGet Fl.SAFE_STAT_KFB).testBit n = high) → exec (.kfbUnexpected n high) s = .next s)
    ∧ (∀ ms c, 100 ≤ ms → ms ≤ 2000 → s.resetOk c = true → ∃ u, exec (.deliberateReset ms c true true) s = .next u
      ∧ u.safeGet Fl.SAFE_STAT_STATE = 0 ∧ u.safeGet Fl.SAFE_STAT_CAUSE = 0 ∧ u.safe.estop = false ∧ u.safe.allGates = false
      ∧ u.safeGet Fl.SAFE_STAT_GUARD_EN_ACT = getBits s.safeCfg 0 4 ∧ u.safeGet Fl.SAFE_STAT_GUARD_SO_ACT = getBits s.safeCfg 4 4
      ∧ u.safeGet Fl.SAFE_STAT_SO_USE_ACT = getBits s.safeCfg 8 2 ∧ u.safeGet Fl.SAFE_STAT_SO = getBits s.safeCfg 8 2
      ∧ (∀ n, n < 4 → u.safe.panels.testBit n = (s.safe.panels.testBit n && !c.guards.getD n false)
          ∧ (u.safeGet Fl.SAFE_STAT_PANEL_PARK).testBit n = u.safe.panels.testBit n)
      ∧ u.get Adr.SAFE_CNT Fl.SAFE_CNT_RST_OK = min 255 (s.get Adr.SAFE_CNT Fl.SAFE_CNT_RST_OK + 1)
      ∧ u.flag (Adr.FLT_SRC 0xD8) Fl.FLT_SRC_ACTIVE = false ∧ u.flag (Adr.FLT_SRC 0xD9) Fl.FLT_SRC_ACTIVE = false)
    ∧ (∀ ms c r f, (ms < 100 ∨ 2000 < ms ∨ s.resetOk c = false ∨ r = false ∨ f = false) → ∃ u, exec (.deliberateReset ms c r f) s = .next u
      ∧ u.get Adr.SAFE_CNT Fl.SAFE_CNT_RST_BAD = min 255 (s.get Adr.SAFE_CNT Fl.SAFE_CNT_RST_BAD + 1) ∧ u.safe = s.safe
      ∧ u.ctl = s.ctl ∧ u.led = s.led
      ∧ (∀ a, a ≠ Adr.SAFE_CNT → u.rd a = s.rd a))

/-! ## The redundant pair (spec/15_redundant_pair.md) -/

/-- R282 to R285, R301, R304, R305. Edges and silence of ALIVE_IN, and OWN_IN, are followed and judged by a standby. READY elects the role; a tie, a position conflict
and 10 s without OWN_IN end as R285 says; a latched FATAL reaction bars the last. A silent, not owning partner is taken over by a standby that may: it asserts OWN_OUT, counts, and puts a SEAM
record first in every shadow queue. The end of RESUME_WIN removes unbound shadows. Where a rule does not hold nothing changes. -/
def Obligations.PairSignalsRolesAndTakeover : Prop :=
  ∀ s : State, s.regsWf = true → s.exp.tablesWf = true →
    (s.pairPins = true → ∃ u, exec .aliveInEdge s = .next u ∧ u.pair.lastEdge = some s.tick ∧ u.pair.aliveIn = !s.pair.aliveIn ∧ u.role = s.role
      ∧ (s.pairOn = false → u.regs = s.regs)
      ∧ (s.pairOn = true → (∀ q ∈ s.sessIds, q < 4096) → u.aliveOk = true)
      ∧ (s.pairOn = true → s.role = 2 → u.flag Adr.PAIR_STAT Fl.PAIR_STAT_SILENT_OWNING = false
          ∧ (s.ownIn = false → u.flag Adr.PAIR_STAT Fl.PAIR_STAT_OWN_LOST = true ∧ u.flag (Adr.FLT_SRC 0xE1) Fl.FLT_SRC_ACTIVE = true)))
    ∧ (s.pairPins = false → ∀ level, exec .aliveInEdge s = .next s ∧ exec (.ownInChange level) s = .next s)
    ∧ (s.pairOn = true → s.edgeRecent = false → ∃ u, exec .aliveInSilent s = .next u ∧ u.role = s.role
      ∧ ((∀ q ∈ s.sessIds, q < 4096) → u.aliveOk = false)
      ∧ (s.role = 2 → s.ownIn = true → u.flag Adr.PAIR_STAT Fl.PAIR_STAT_SILENT_OWNING = true)
      ∧ (s.role = 2 → s.ownIn = false → s.mayTakeOver = false → u.flag (Adr.FLT_SRC 0xE2) Fl.FLT_SRC_ACTIVE = true))
    ∧ ((s.pairOn = false ∨ s.edgeRecent = true) → exec .aliveInSilent s = .next s)
    ∧ (∀ level, s.pairPins = true → ∃ u, exec (.ownInChange level) s = .next u ∧ u.pair.ownIn = level ∧ u.pair.ownInTick = s.tick
      ∧ (s.pairOn = true → (∀ q ∈ s.sessIds, q < 4096) → u.ownIn = level)
      ∧ (s.pairOn = true → level = true → s.pair.waitTick.isSome = true → u.role = 2 ∧ u.pair.waitTick = none)
      ∧ ((level = false ∨ s.pair.waitTick = none) → u.role = s.role) ∧ (s.pairOn = false → u.regs = s.regs))
    ∧ (s.gwqRuns = true → s.get Adr.BOOT_STAT Fl.BOOT_STAT_STAGE = 9 → s.readyNow = true → s.pairOn = true → s.flash.pairKey.isSome = true →
      s.pair.conflict = false → ∃ u, exec .ready s = .next u
      ∧ (s.fatal = true → u.role = 2 ∧ u.get Adr.PAIR_STAT Fl.PAIR_STAT_HEALTH = 2) ∧ (s.fatal = false → s.ownIn = true → u.role = 2)
      ∧ (s.fatal = false → s.ownIn = false → (s.boot.posB = false ∨ s.aliveOk = false) → u.role = 1 ∧ u.ownOut = true)
      ∧ (s.fatal = false → s.ownIn = false → s.boot.posB = true → s.aliveOk = true → u.role = s.role ∧ u.pair.waitTick = some s.tick))
    ∧ (s.pairOn = true → s.boot.posB = true → s.role = 1 → s.ownOut = true → s.ownIn = true → s.pair.ownInTick + usTicks 2 ≤ s.tick →
      ∃ u, exec .tieRelease s = .next u ∧ u.role = 2 ∧ u.ownOut = false ∧ u.get Adr.PAIR_STAT Fl.PAIR_STAT_HEALTH = (if s.fatal then 2 else 0)
        ∧ (s.involRoom = true → s.ovTotal = 0 → s.boot.recovery = false → Logged s u 0x0051 0xffff) ∧ u.plan.inForce = s.plan.inForce)
    ∧ ((s.pairOn = false ∨ s.boot.posB = false ∨ s.role ≠ 1 ∨ s.ownOut = false ∨ s.ownIn = false ∨ s.tick < s.pair.ownInTick + usTicks 2) →
      exec .tieRelease s = .next s)
    ∧ (s.pairOn = true → s.boot.posB = false → s.role = 1 → s.ownOut = true → s.ownIn = true → s.pair.ownTick + usTicks 10 ≤ s.tick →
      s.pair.ownInTick ≤ s.pair.ownTick + usTicks 10 → ∃ u, exec .posConflict s = .next u ∧ u.role = 0 ∧ u.pair.conflict = true
        ∧ u.flag Adr.PAIR_STAT Fl.PAIR_STAT_POS_CONFLICT = true ∧ u.flag (Adr.FLT_SRC 0xE0) Fl.FLT_SRC_VALID = true
        ∧ ((∀ q ∈ s.sessIds, q < 4096) → u.ownOut = false))
    ∧ ((s.pairOn = false ∨ s.boot.posB = true ∨ s.role ≠ 1 ∨ s.ownOut = false ∨ s.ownIn = false ∨ s.tick < s.pair.ownTick + usTicks 10
      ∨ s.pair.ownTick + usTicks 10 < s.pair.ownInTick) → exec .posConflict s = .next s)
    ∧ (∀ t, s.pair.waitTick = some t → s.pairOn = true → s.ownIn = false → s.fatal = false → t + msTicks 10000 ≤ s.tick → ∃ u, exec .startAlone s = .next u
      ∧ u.role = 1 ∧ u.ownOut = true ∧ u.pair.waitTick = none ∧ u.get Adr.PAIR_STAT Fl.PAIR_STAT_HEALTH = 0
      ∧ (s.involRoom = true → s.ovTotal = 0 → s.boot.recovery = false → Logged s u 0x0051 0xffff))
    ∧ ((s.pair.waitTick = none ∨ s.pairOn = false ∨ s.ownIn = true ∨ s.fatal = true ∨ ∃ t, s.pair.waitTick = some t ∧ s.tick < t + msTicks 10000) →
      exec .startAlone s = .next s)
    ∧ (s.pairOn = true → s.role = 2 → s.aliveOk = false → s.ownIn = false → s.mayTakeOver = true → ∃ u, exec .swarm s = .next u
      ∧ u.role = 1 ∧ u.ownOut = true ∧ u.get Adr.PAIR_STAT Fl.PAIR_STAT_HEALTH = 0 ∧ u.pair.resumeFrom = some s.tick ∧ u.pair.staged = []
      ∧ u.pair.partials = [] ∧ (s.pair.staged = [] → u.get Adr.PAIR_STAT Fl.PAIR_STAT_TAKEOVERS = min 255 (s.get Adr.PAIR_STAT Fl.PAIR_STAT_TAKEOVERS + 1)
        ∧ u.pair.shadows = s.pair.shadows ∧ ∀ n x, n ∈ s.pair.shadows.map Prod.fst → (s.pair.shadows.map Prod.fst).Nodup → s.queue? n = some x → x.shadow = true →
          ∃ y k rest, u.queue? n = some y ∧ y.items = k :: rest ∧ k.r.kind = 5 ∧ rest.map (fun i => i.r) = x.items.map (fun i => i.r)))
    ∧ ((s.pairOn = false ∨ s.role ≠ 2 ∨ s.aliveOk = true ∨ s.ownIn = true ∨ s.mayTakeOver = false) → exec .swarm s = .next s)
    ∧ (∀ t, s.pair.resumeFrom = some t → s.gwqRuns = true → t + s.resumeTicks ≤ s.tick → ∃ u, exec .resumeWinExpiry s = .next u
      ∧ u.pair.resumeFrom = none ∧ (∀ n, n ∈ s.pair.shadows.map Prod.fst → u.queue? n = none)
      ∧ (s.pair.shadows ≠ [] → SMap.rising s.pair.shadows = true → s.boot.recovery = false → s.heldBack ≤ s.ledgerFree → ∃ q, Logged s u 0x0011 q) ∧ u.host.sess = s.host.sess)
    ∧ ((s.pair.resumeFrom = none ∨ s.gwqRuns = false ∨ ∃ t, s.pair.resumeFrom = some t ∧ s.tick < t + s.resumeTicks) → exec .resumeWinExpiry s = .next s)
    ∧ (s.pairOn = true → s.role = 2 → s.linkUp = false → s.pair.downTick + msTicks 1 < s.tick → ∃ u, exec .stale s = .next u ∧ u.pair.stale = true
      ∧ u.role = 2 ∧ u.exp = s.exp ∧ u.plan = s.plan)
    ∧ ((s.pairOn = false ∨ s.role ≠ 2 ∨ s.linkUp = true ∨ s.tick ≤ s.pair.downTick + msTicks 1) → exec .stale s = .next s)

/-- R287 to R290, R292. Locked lanes make the module send HELLO; a HELLO with a good tag and identity forms the link key; with both and a WAGGLE the link is up. A bad HELLO leaves DOWN_CAUSE 4. A
seen cause, 8 µs without a valid WAGGLE, eight bad tags in a row or a PRBS generator take it down; DOWN_CAUSE keeps what took it down first. A WAGGLE whose tag holds under
the link key and whose FSEQ is not behind is taken with its health. One is sent while HELLO stands, sealed, and after it what health owes. A checker locks at the 64th
right bit in a row and then counts those in error. -/
def Obligations.HaldodLinkUpAndDown : Prop :=
  ∀ s : State, s.regsWf = true →
    (s.pairOn = true → s.prbsOn = false → ∃ u, exec .linkUp s = .next u ∧ u.lanesLocked = true
      ∧ (s.linkUp = true → u.linkUp = true) ∧ (s.pair.helloOk = true → s.pair.wagGot.isSome = true → u.linkUp = true)
      ∧ ((s.pair.helloOk = false ∨ s.pair.wagGot = none) → u.linkUp = s.linkUp)
      ∧ (s.pair.helloSent = false → s.flash.pairKey.isSome = true → s.gwqRuns = true → u.pair.helloSent = true ∧ u.pair.nonceMine.length = 32)
      ∧ u.pair.helloOk = s.pair.helloOk)
    ∧ ((s.pairOn = false ∨ s.prbsOn = true) → exec .linkUp s = .next s)
    ∧ (∀ d, s.pairOn = true → 1 ≤ d.cause → d.cause ≤ 5 → d.lane < 4 → (s.linkUp = true ∨ s.lanesLocked = true) →
      ((d.cause = 1 ∧ (d.amLost = true ∨ (16 ≤ d.blkErr ∧ s.flag (Adr.HLD_LANE d.lane) Fl.HLD_LANE_BLOCK_LOCK = true))
          ∨ d.cause = 2 ∧ 25 < d.skew ∨ 3 ≤ d.cause) → ∃ u, exec (.linkDown d) s = .next u
        ∧ u.linkUp = false ∧ u.pair.helloOk = false ∧ u.pair.partials = [] ∧ u.pair.linkKey = [] ∧ u.pair.wagGot = none
        ∧ u.get Adr.PAIR_STAT Fl.PAIR_STAT_DOWN_CAUSE = (if s.linkUp then d.cause else s.get Adr.PAIR_STAT Fl.PAIR_STAT_DOWN_CAUSE)
        ∧ (d.cause ≤ 2 → u.lanesLocked = false) ∧ u.pair.downTick = (if s.linkUp then s.tick else s.pair.downTick)
        ∧ u.role = s.role ∧ u.pair.shadows = s.pair.shadows)
      ∧ (d.cause = 1 → d.amLost = false → (d.blkErr < 16 ∨ s.flag (Adr.HLD_LANE d.lane) Fl.HLD_LANE_BLOCK_LOCK = false) →
        ∃ u, exec (.linkDown d) s = .next u ∧ u.linkUp = s.linkUp ∧ u.pair = s.pair
        ∧ (s.flag (Adr.HLD_LANE d.lane) Fl.HLD_LANE_BLOCK_LOCK = true → u.get (Adr.HLD_LANE d.lane) Fl.HLD_LANE_BLK_ERR
            = min 0xffff (s.get (Adr.HLD_LANE d.lane) Fl.HLD_LANE_BLK_ERR + d.blkErr)) ∧ (∀ a, a ≠ Adr.HLD_LANE d.lane → u.rd a = s.rd a))
      ∧ (d.cause = 2 → d.skew ≤ 25 → ∃ u, exec (.linkDown d) s = .next u ∧ u.linkUp = s.linkUp ∧ u.pair = s.pair
        ∧ u.get (Adr.HLD_LANE d.lane) Fl.HLD_LANE_SKEW = d.skew ∧ (∀ a, a ≠ Adr.HLD_LANE d.lane → u.rd a = s.rd a)))
    ∧ (∀ d, (s.pairOn = false ∨ d.cause = 0 ∨ 5 < d.cause ∨ 4 ≤ d.lane ∨ (s.linkUp = false ∧ s.lanesLocked = false)) →
      exec (.linkDown d) s = .next s)
    ∧ (s.pairOn = true → s.linkUp = true → s.pair.lastWaggle + usTicks 8 ≤ s.tick → ∃ u, exec .waggleTimeout s = .next u ∧ u.linkUp = false
      ∧ u.get Adr.PAIR_STAT Fl.PAIR_STAT_DOWN_CAUSE = 3 ∧ u.pair.downTick = s.tick ∧ u.pair.helloOk = false ∧ u.role = s.role)
    ∧ ((s.pairOn = false ∨ s.linkUp = false ∨ s.tick < s.pair.lastWaggle + usTicks 8) → exec .waggleTimeout s = .next s)
    ∧ (s.hears = true → ∃ u, exec .waggleSend s = .next u ∧ u.pair.wagSent = some s.waggleBody
      ∧ (⟨1, s.pair.fseqTx, s.waggleBody, frameBlocks (frameText s.pair.linkKey s.boot.posB 1 s.pair.fseqTx s.waggleBody)⟩ : HFrame) ∈ u.pair.frames
      ∧ ((s.linkUp = false ∨ s.moving = true ∨ (s.role ≠ 1 ∧ s.role ≠ 2) ∨ (s.role = 2 ∧ s.pair.reqHeld = none)
          ∨ (s.role = 1 ∧ ∃ t, s.pair.reqTick = some t ∧ s.tick < t + msTicks 100)) →
        u.pair.fseqTx = s.pair.fseqTx + 1 ∧ u.pair.sent = s.pair.sent ∧ u.exp = s.exp ∧ u.led = s.led ∧ (∀ a, quiet a = true → u.rd a = s.rd a))
      ∧ (s.linkUp = true → s.moving = false → s.role = 1 → (∀ t, s.pair.reqTick = some t → t + msTicks 100 ≤ s.tick) →
        u.pair.reqTick = some s.tick ∧ u.pair.ctlOut = some (5, 0, []) ∧ s.pair.fseqTx + 2 ≤ u.pair.fseqTx ∧ u.pair.sent = s.pair.sent)
      ∧ (∀ h, s.linkUp = true → s.moving = false → s.role = 2 → s.pair.reqHeld = some h →
        u.pair.reqHeld = none ∧ u.pair.reportNum = s.pair.reportNum + 1 ∧ u.pair.fseqTx = s.pair.fseqTx + 2))
    ∧ (s.hears = false → ∀ w, exec .waggleSend s = .next s ∧ exec (.waggle w) s = .next s)
    ∧ (∀ w, s.takesFrame 1 w.frame w.body → ∃ u, exec (.waggle w) s = .next u ∧ u.pair.fseqRx = w.frame.fseq + 1 ∧ u.pair.lastWaggle = s.tick
        ∧ u.pair.wagGot = some w.body ∧ u.pair.badRun = 0 ∧ u.get Adr.PAIR_STAT Fl.PAIR_STAT_P_HEALTH = rdLE w.body 2 1 % 4
        ∧ (s.role = 2 → u.solo = (rdLE w.body 1 1).testBit 1) ∧ (s.role ≠ 2 → u.solo = s.solo) ∧ (s.linkUp = true → u.linkUp = true)
        ∧ (s.lanesLocked = true → s.prbsOn = false → u.linkUp = true))
    ∧ (∀ w, s.hears = true → (s.tagOk 1 w.frame w.body = false ∨ w.frame.fseq < s.pair.fseqRx) → ∃ u, exec (.waggle w) s = .next u
        ∧ u.pair.fseqRx = s.pair.fseqRx
        ∧ u.get (Adr.HLD_LANE 0) Fl.HLD_LANE_AUTH_ERR = min 0xffff (s.get (Adr.HLD_LANE 0) Fl.HLD_LANE_AUTH_ERR + 1)
        ∧ (s.tagOk 1 w.frame w.body = true → u.pair.badRun = 0 ∧ u.linkUp = s.linkUp ∧ u.pair.wagGot = s.pair.wagGot)
        ∧ (s.tagOk 1 w.frame w.body = false → s.linkUp = true → 7 ≤ s.pair.badRun → u.linkUp = false
            ∧ u.get Adr.PAIR_STAT Fl.PAIR_STAT_DOWN_CAUSE = 4)
        ∧ (s.tagOk 1 w.frame w.body = false → s.pair.badRun < 7 → u.linkUp = s.linkUp ∧ u.pair.badRun = s.pair.badRun + 1
            ∧ u.pair.wagGot = s.pair.wagGot))
    ∧ (∀ k nonce tag id, s.flash.pairKey = some k → s.pairOn = true → s.linkUp = false → s.prbsOn = false → s.gwqRuns = true →
      (tag = helloTag k nonce id → id = s.flash.partner → ∃ u, exec (.haldodHello nonce tag id) s = .next u ∧ u.pair.helloOk = true ∧ u.pair.fseqRx = 0
        ∧ u.pair.linkKey = hkdf32 k (if s.boot.posB then nonce ++ u.pair.nonceMine else u.pair.nonceMine ++ nonce) (ascii "KT-HLD")
        ∧ u.lanesLocked = true ∧ (s.pair.wagGot = none → u.linkUp = false) ∧ (s.pair.wagGot.isSome = true → u.linkUp = true))
      ∧ (tag ≠ helloTag k nonce id → ∃ u, exec (.haldodHello nonce tag id) s = .next u ∧ u.pair = s.pair ∧ u.linkUp = false
        ∧ u.get Adr.PAIR_STAT Fl.PAIR_STAT_DOWN_CAUSE = 4
        ∧ u.get (Adr.HLD_LANE 0) Fl.HLD_LANE_AUTH_ERR = min 0xffff (s.get (Adr.HLD_LANE 0) Fl.HLD_LANE_AUTH_ERR + 1)
        ∧ (∀ a, a ≠ Adr.PAIR_STAT → a ≠ Adr.HLD_LANE 0 + 0x10 → u.rd a = s.rd a))
      ∧ (tag = helloTag k nonce id → id ≠ s.flash.partner → ∃ u, exec (.haldodHello nonce tag id) s = .next u ∧ u.pair = s.pair
        ∧ u.get Adr.PAIR_STAT Fl.PAIR_STAT_DOWN_CAUSE = 4 ∧ (∀ a, a ≠ Adr.PAIR_STAT → u.rd a = s.rd a)))
    ∧ (∀ nonce tag id, (s.flash.pairKey = none ∨ s.pairOn = false ∨ s.linkUp = true ∨ s.prbsOn = true ∨ s.gwqRuns = false) →
      exec (.haldodHello nonce tag id) s = .next s)
    ∧ (∀ n v, s.bridgeOn = true → s.pairOn = true → n < 4 → ∃ u, exec (.txPat n v) s = .next u
      ∧ u.get (Adr.HLD_LANE n) Fl.HLD_LANE_TX_PAT = getBits v 0 2 ∧ u.get (Adr.HLD_LANE n) Fl.HLD_LANE_RX_PAT = getBits v 2 2
      ∧ (getBits v 2 2 ≠ s.get (Adr.HLD_LANE n) Fl.HLD_LANE_RX_PAT → u.flag (Adr.HLD_LANE n) Fl.HLD_LANE_RX_LOCK = false
          ∧ u.pair.prbs = SMap.erase s.pair.prbs n)
      ∧ (getBits v 0 2 ≠ 0 → (s.linkUp = true ∨ s.lanesLocked = true) → u.linkUp = false ∧ u.pair.helloOk = false)
      ∧ (getBits v 0 2 ≠ 0 → s.linkUp = true → u.get Adr.PAIR_STAT Fl.PAIR_STAT_DOWN_CAUSE = 5))
    ∧ (∀ n v, (s.bridgeOn = false ∨ s.pairOn = false ∨ 4 ≤ n) → exec (.txPat n v) s = .next s)
    ∧ (∀ n bits, s.pairOn = true → n < 4 → s.get (Adr.HLD_LANE n) Fl.HLD_LANE_RX_PAT ≠ 0 → ∃ u, exec (.checkerLock ⟨n, bits⟩) s = .next u
      ∧ (∀ a, a ≠ Adr.HLD_LANE n + 4 → a ≠ Adr.HLD_LANE n + 8 → u.rd a = s.rd a) ∧ { u.pair with prbs := s.pair.prbs } = s.pair
      ∧ (∀ b, bits = [b] → s.flag (Adr.HLD_LANE n) Fl.HLD_LANE_RX_LOCK = true → u.flag (Adr.HLD_LANE n) Fl.HLD_LANE_RX_LOCK = true
          ∧ u.get (Adr.HLD_LANE n) Fl.HLD_LANE_PRBS_ERR = min 0xffffffff (s.get (Adr.HLD_LANE n) Fl.HLD_LANE_PRBS_ERR
            + (if b = prbsNext (s.get (Adr.HLD_LANE n) Fl.HLD_LANE_RX_PAT) (SMap.find {} s.pair.prbs n).reg then 0 else 1)))
      ∧ (∀ b, bits = [b] → s.flag (Adr.HLD_LANE n) Fl.HLD_LANE_RX_LOCK = false →
          u.get (Adr.HLD_LANE n) Fl.HLD_LANE_PRBS_ERR = s.get (Adr.HLD_LANE n) Fl.HLD_LANE_PRBS_ERR
          ∧ ((SMap.find {} s.pair.prbs n).run = 63 → (SMap.find {} s.pair.prbs n).reg ≠ 0 →
              (SMap.find {} s.pair.prbs n).fill = (prbsPowers (s.get (Adr.HLD_LANE n) Fl.HLD_LANE_RX_PAT)).1 →
              b = prbsNext (s.get (Adr.HLD_LANE n) Fl.HLD_LANE_RX_PAT) (SMap.find {} s.pair.prbs n).reg →
              u.flag (Adr.HLD_LANE n) Fl.HLD_LANE_RX_LOCK = true)
          ∧ (b ≠ prbsNext (s.get (Adr.HLD_LANE n) Fl.HLD_LANE_RX_PAT) (SMap.find {} s.pair.prbs n).reg →
              u.flag (Adr.HLD_LANE n) Fl.HLD_LANE_RX_LOCK = false ∧ (SMap.find {} u.pair.prbs n).run = 0)))
    ∧ (∀ n bits, (s.pairOn = false ∨ 4 ≤ n ∨ s.get (Adr.HLD_LANE n) Fl.HLD_LANE_RX_PAT = 0) → exec (.checkerLock ⟨n, bits⟩) s = .next s)

/-- R288, R293, R297, R303. The active sends up to 64 waiting samples in a DIGEST frame. The standby counts each sample received, matches those it holds, and keeps the rest 1 ms,
when it counts those for which no record came that matches. The active sends POSITIONS, TIME and LEDGER_HEAD in turn. A POSITIONS mark trims the shadow queue of its session; a
queue of no mirrored session stays. A frame that counts takes its FSEQ and does no more while the link is down or the module is no standby. -/
def Obligations.SamplesStreamsAndMarks : Prop :=
  ∀ s : State, s.regsWf = true →
    (s.pairOn = true → s.linkUp = true → s.gwqRuns = true → s.role = 1 →
      (s.pair.samples ≠ [] → ∃ u, exec .digestSend s = .next u ∧ u.pair.samples = s.pair.samples.drop 64 ∧ u.pair.fseqTx = s.pair.fseqTx + 1
        ∧ (∃ x ∈ u.pair.frames, x.kind = 3 ∧ x.fseq = s.pair.fseqTx ∧ x.body = (s.pair.samples.take 64).flatMap sampleBytes)
        ∧ u.exp = s.exp ∧ u.led = s.led ∧ (∀ a, quiet a = true → u.rd a = s.rd a))
      ∧ (s.pair.samples = [] → exec .digestSend s = .next s)
      ∧ (∃ u, exec .periodicMirrorSend s = .next u ∧ s.pair.fseqTx + 3 ≤ u.pair.fseqTx ∧ u.pair.sent = s.pair.sent ∧ u.tseq = s.tseq
        ∧ (∀ b, (b ∈ mirrorParts 0 0x10 true (encodeNats (positionWords s.positionsNow)) ∨ b ∈ mirrorParts 0 0x11 true (encodeNats s.timeWords)
            ∨ b ∈ mirrorParts 0 0x12 true (encodeNats s.headWords)) → ∃ x ∈ u.pair.frames, x.kind = 2 ∧ x.body = b)
        ∧ (∀ e, s.led.last = some e → s.headWords.take 1 = [e.seq]) ∧ u.exp = s.exp ∧ u.led = s.led ∧ u.host = s.host
        ∧ (∀ a, quiet a = true → u.rd a = s.rd a)))
    ∧ ((s.pairOn = false ∨ s.linkUp = false ∨ s.gwqRuns = false ∨ s.role ≠ 1) → exec .digestSend s = .next s ∧ exec .periodicMirrorSend s = .next s)
    ∧ (∀ d, s.takesFrame 3 d.frame (d.samples.flatMap sampleBytes) →
      (s.linkUp = true → s.role = 2 → ∃ u, exec (.digestIn d) s = .next u ∧ u.pair.sampRx = s.pair.sampRx + (d.samples.take 64).length
        ∧ u.pair.sampMatch = s.pair.sampMatch + ((d.samples.take 64).filter s.sampleHeld).length
        ∧ u.pair.waitSamples = s.pair.waitSamples ++ ((d.samples.take 64).filter fun x => !s.sampleHeld x).map (fun x => (s.tick, x))
        ∧ u.pair.fseqRx = d.frame.fseq + 1 ∧ u.regs = s.regs ∧ u.exp = s.exp)
      ∧ ((s.linkUp = false ∨ s.role ≠ 2) → exec (.digestIn d) s = .next (s.tookFrame d.frame)))
    ∧ (∀ p bodies, bodies = mirrorParts 0 0x10 true (encodeNats (positionWords p.marks)) → p.frames.length = bodies.length →
      s.takesFrames 2 (p.frames.zip bodies) →
      (s.linkUp = true → s.role = 2 → ∃ u, exec (.positions p) s = .next u ∧ ((∀ n x, s.queue? n = some x → x.lost = 0) → u.regs = s.regs)
        ∧ u.pair = (s.tookFrames (p.frames.zip bodies)).pair ∧ u.led = s.led
        ∧ (∀ m q e x, p.marks = [m] → s.shadowOf m.q = some (q, e) → s.queue? q = some x → x.lost = 0 →
            (∀ n, m.mark = some n → u.queue? q = some (s.trimTo q x m.qpos n)) ∧ (m.mark = none → u.queue? q = some { x with markQpos := m.qpos }))
        ∧ (∀ n, (∀ m ∈ p.marks, ∀ e, s.shadowOf m.q = some e → e.1 ≠ n) → u.queue? n = s.queue? n))
      ∧ ((s.linkUp = false ∨ s.role ≠ 2) → exec (.positions p) s = .next (s.tookFrames (p.frames.zip bodies))))
    ∧ (∀ p, (s.hears = false ∨ p.frames.length ≠ (mirrorParts 0 0x10 true (encodeNats (positionWords p.marks))).length) →
      exec (.positions p) s = .next s)
    ∧ (s.hears = false → ∀ d, exec (.digestIn d) s = .next s)
    ∧ (s.pairOn = true → s.role = 2 → ∃ u, exec .digestMiss s = .next u
      ∧ u.pair.waitSamples = s.pair.waitSamples.filter (fun x => decide (s.tick < x.1 + msTicks 1))
      ∧ u.pair.misses = s.pair.misses + (s.pair.waitSamples.filter fun x => decide (x.1 + msTicks 1 ≤ s.tick) && !s.sampleMet x).length
      ∧ u.pair.misses + u.pair.sampMatch = s.pair.misses + s.pair.sampMatch + (s.pair.waitSamples.filter fun x => decide (x.1 + msTicks 1 ≤ s.tick)).length
      ∧ u.regs = s.regs)
    ∧ ((s.pairOn = false ∨ s.role ≠ 2) → exec .digestMiss s = .next s)

/-- R288, R297 to R300. A part waits for the others of its transaction. A complete transaction next in sequence that no rule refuses is staged and acknowledged, a commit joining the
commits and an ARM arming its slot; a refused one is answered NAK with its cause; one that does not follow the last staged is NAKed and the standby has diverged. SLOT
content takes effect 10 µs after the ACK. VOID removes a part or a staged transaction; of one that took effect before, it makes the standby diverge; one never staged leaves
nothing to undo. A frame with a wrong tag or an old FSEQ is counted and does nothing. -/
def Obligations.StandbyJudgesAndStages : Prop :=
  ∀ s : State, s.regsWf = true →
    (∀ m, s.takesFrame 2 m.frame (mirrorBody m.tseq m.ty m.flags m.part m.length m.data) →
      ((s.linkUp = false ∨ s.role ≠ 2) → exec (.mirror m) s = .next (s.tookFrame m.frame))
      ∧ (s.linkUp = true → s.role = 2 →
        (m.ty = 0x12 → ∃ u, exec (.mirror m) s = .next u ∧ u.pair.ledgerHead = (decodeNats m.data.length m.data).headD 0
            ∧ u.pair.fseqRx = m.frame.fseq + 1 ∧ u.pair.staged = s.pair.staged ∧ u.regs = s.regs ∧ u.led = s.led)
        ∧ (0x10 ≤ m.ty → m.ty ≠ 0x12 → exec (.mirror m) s = .next (s.tookFrame m.frame))
        ∧ (m.ty < 0x10 → (m.flags.testBit 1 = false ∨ (s.joinPart m).next = none ∨ (s.joinPart m).bytes.length ≠ m.length) →
            ∃ u, exec (.mirror m) s = .next u ∧ u.pair.partials = SMap.insert s.pair.partials m.tseq (s.joinPart m) ∧ u.pair.staged = s.pair.staged
              ∧ u.regs = s.regs ∧ u.plan = s.plan)
        ∧ (∀ d, m.ty < 0x10 → m.flags.testBit 1 = true → (s.joinPart m).next.isSome = true → (s.joinPart m).bytes.length = m.length →
            d = decodeNats (s.joinPart m).bytes.length (s.joinPart m).bytes →
            (m.tseq ≠ s.tseq + 1 → (m.ty ≠ txResync ∨ d.headD 0 ≠ 0) → ∃ u, exec (.mirror m) s = .next u
              ∧ u.pair.ctlOut = some (3, m.tseq, [4]) ∧ u.flag Adr.PAIR_STAT Fl.PAIR_STAT_DIVERGED = true ∧ u.pair.staged = s.pair.staged
              ∧ u.tseq = s.tseq ∧ u.plan = s.plan
              ∧ (s.flag Adr.PAIR_STAT Fl.PAIR_STAT_DIVERGED = false → u.get Adr.PAIR_STAT Fl.PAIR_STAT_HEALTH = 2))
            ∧ (∀ c, (m.tseq = s.tseq + 1 ∨ (m.ty = txResync ∧ d.headD 0 = 0)) → s.judgeTxn m.ty d = c → c ≠ 0 → ∃ u, exec (.mirror m) s = .next u
              ∧ u.pair.ctlOut = some (3, m.tseq, [c]) ∧ u.tseq = s.tseq ∧ u.pair.staged = s.pair.staged ∧ u.plan = s.plan ∧ u.led = s.led
              ∧ u.get Adr.PAIR_TXN Fl.PAIR_TXN_NAK = min 0xffff (s.get Adr.PAIR_TXN Fl.PAIR_TXN_NAK + 1))
            ∧ ((m.tseq = s.tseq + 1 ∨ (m.ty = txResync ∧ d.headD 0 = 0)) → s.judgeTxn m.ty d = 0 → ∃ u t make, exec (.mirror m) s = .next u
              ∧ u.pair.staged = s.pair.staged ++ [t] ∧ t.tseq = m.tseq ∧ t.ty = m.ty ∧ t.data = d ∧ t.tick = s.tick ∧ u.tseq = m.tseq % 2 ^ 64
              ∧ u.pair.ctlOut = some (2, m.tseq, [s.nsAt s.tick, make])
              ∧ (m.ty = txCommit → u.plan.commits.length = s.plan.commits.length + 1 ∧ (d.getD 5 0 = 2 → u.armed = none))
              ∧ (m.ty = txArm → d.getD 0 0 ≠ 0xffff → u.armed = some (d.getD 0 0 % 256))
              ∧ (m.ty = txResync → d.headD 0 = 0 → u.pair.syncing = true)
              ∧ (m.ty = txSlot → u.plan.slots = s.plan.slots ∧ u.led = s.led)))))
    ∧ (∀ m b, b = mirrorBody m.tseq m.ty m.flags m.part m.length m.data → s.hears = true → (s.tagOk 2 m.frame b = false ∨ m.frame.fseq < s.pair.fseqRx) →
      ∃ u, exec (.mirror m) s = .next u ∧ u.pair.staged = s.pair.staged ∧ u.tseq = s.tseq ∧ u.plan = s.plan
        ∧ u.get (Adr.HLD_LANE 0) Fl.HLD_LANE_AUTH_ERR = min 0xffff (s.get (Adr.HLD_LANE 0) Fl.HLD_LANE_AUTH_ERR + 1))
    ∧ (s.hears = false → ∀ m x, exec (.mirror m) s = .next s ∧ exec (.voidTxn x) s = .next s)
    ∧ (s.pairOn = true → s.gwqRuns = true → s.role = 2 → ∃ u, exec .stagedEffect s = .next u
      ∧ ((∀ t ∈ s.pair.staged, delayed t.ty = false ∨ s.tick < t.tick + usTicks 10) → u.pair.staged = s.pair.staged ∧ u.plan = s.plan ∧ u.regs = s.regs)
      ∧ (∀ t, s.pair.staged = [t] → t.ty = txSlot → t.tick + usTicks 10 ≤ s.tick → u.pair.staged = []
          ∧ (t.data.getD 1 0 ≠ 1 → u.slot? (t.data.headD 0) = some ⟨t.data.drop 2, none⟩)
          ∧ (∀ n, n ≠ t.data.headD 0 → t.data.getD 1 0 ≠ 1 → u.slot? n = s.slot? n)))
    ∧ ((s.pairOn = false ∨ s.gwqRuns = false ∨ s.role ≠ 2) → exec .stagedEffect s = .next s)
    ∧ (∀ x, s.takesFrame 4 x.frame (ctlBody 4 x.tseq []) →
      ((s.linkUp = false ∨ s.role ≠ 2) → exec (.voidTxn x) s = .next (s.tookFrame x.frame))
      ∧ (s.linkUp = true → s.role = 2 →
        ((s.pair.partials.any fun e => e.1 == x.tseq) = true → ∃ u, exec (.voidTxn x) s = .next u
          ∧ u.pair.partials = SMap.erase s.pair.partials x.tseq ∧ u.pair.staged = s.pair.staged
          ∧ u.get Adr.PAIR_TXN Fl.PAIR_TXN_VOID = min 0xffff (s.get Adr.PAIR_TXN Fl.PAIR_TXN_VOID + 1) ∧ u.plan = s.plan)
        ∧ (∀ t, (s.pair.partials.any fun e => e.1 == x.tseq) = false → (s.pair.staged.find? fun y => y.tseq == x.tseq) = some t →
          delayed t.ty = true → ∃ u, exec (.voidTxn x) s = .next u
          ∧ u.pair.staged = s.pair.staged.filter (fun y => y.tseq != x.tseq) ∧ u.plan = s.plan ∧ u.led = s.led
          ∧ u.flag Adr.PAIR_STAT Fl.PAIR_STAT_DIVERGED = s.flag Adr.PAIR_STAT Fl.PAIR_STAT_DIVERGED)
        ∧ ((s.pair.partials.any fun e => e.1 == x.tseq) = false → (s.pair.staged.find? fun y => y.tseq == x.tseq) = none →
          ∃ u, exec (.voidTxn x) s = .next u ∧ u.pair.staged = s.pair.staged ∧ u.plan = s.plan
          ∧ (s.pair.base ≤ x.tseq → x.tseq ≤ s.tseq → u.flag Adr.PAIR_STAT Fl.PAIR_STAT_DIVERGED = true)
          ∧ ((x.tseq < s.pair.base ∨ s.tseq < x.tseq) → (∀ a, a ≠ Adr.PAIR_TXN → u.rd a = s.rd a) ∧ u.led = s.led
              ∧ u.get Adr.PAIR_TXN Fl.PAIR_TXN_VOID = min 0xffff (s.get Adr.PAIR_TXN Fl.PAIR_TXN_VOID + 1)))))

/-- R231, R288, R298, R299, R124. An ACK within 3 µs carries out the PLAN_ARM that waits for it, or lets a strike go on; a late one is counted, voided and its command completes with PAIR_NO_ACK; one that
names nothing sent is answered VOID. A NAK refuses the command; cause SLOT sends the slot again, cause SEQUENCE starts a rejoin. Without an answer in time every
transaction is counted, voided and refused. An answer that counts takes its FSEQ and does no more while the link is down or the module is no active. -/
def Obligations.ActiveTakesAnswers : Prop :=
  ∀ s : State, s.regsWf = true →
    (∀ x a m, s.takesFrame 4 x.frame (ctlBody 2 x.tseq [a, m]) → s.linkUp = true → s.role = 1 →
      ((s.pair.sent.find? fun t => t.tseq == x.tseq) = none → ∃ u, exec (.ack x a m) s = .next u ∧ u.pair.ctlOut = some (4, x.tseq, [])
          ∧ u.pair.sent = s.pair.sent ∧ u.pair.fseqRx = x.frame.fseq + 1
          ∧ u.get Adr.PAIR_TXN Fl.PAIR_TXN_VOID = min 0xffff (s.get Adr.PAIR_TXN Fl.PAIR_TXN_VOID + 1) ∧ u.plan = s.plan)
      ∧ (∀ t, (s.pair.sent.find? fun y => y.tseq == x.tseq) = some t → s.tick ≤ t.tick + ackTicks →
          (t.who = forNobody → ∃ u, exec (.ack x a m) s = .next u ∧ u.pair.sent = s.pair.sent.filter (fun y => y.tseq != x.tseq) ∧ u.regs = s.regs
              ∧ u.plan = s.plan)
          ∧ (t.who = forStrike → ∃ u, exec (.ack x a m) s = .next u ∧ u.regs = s.regs ∧ (∀ c ∈ u.plan.commits, c.seq = t.q → c.ackBy = none)
              ∧ u.plan.commits.length = s.plan.commits.length)
          ∧ (∀ y k, t.who = forSession → s.sess? t.q = some y → y.taken = some k → k.phase = .acking → k.op = 0x0103 → k.p 24 2 ≠ 0xffff →
              (s.slot? (k.p 24 2)).isSome = true → s.checkBad 0xA5 (k.p 24 2) = false → s.boot.warmDue = false →
              ∃ u, exec (.ack x a m) s = .next u ∧ u.armed = some (k.p 24 2 % 256) ∧ Completed s u t.q 0 [] ∧ u.plan = s.plan))
      ∧ (∀ t y k, (s.pair.sent.find? fun y => y.tseq == x.tseq) = some t → t.tick + ackTicks < s.tick → t.who = forSession → s.sess? t.q = some y →
          y.taken = some k → k.phase = .acking → s.boot.warmDue = false → ∃ u, exec (.ack x a m) s = .next u ∧ Completed s u t.q stNoAck []
            ∧ u.pair.ctlOut = some (4, t.tseq, []) ∧ u.pair.sent = s.pair.sent.filter (fun y => y.tseq != x.tseq) ∧ u.plan = s.plan ∧ u.led = s.led
            ∧ u.get Adr.PAIR_TXN Fl.PAIR_TXN_NO_ACK = min 0xffff (s.get Adr.PAIR_TXN Fl.PAIR_TXN_NO_ACK + 1)))
    ∧ (∀ x a m, s.takesFrame 4 x.frame (ctlBody 2 x.tseq [a, m]) → (s.linkUp = false ∨ s.role ≠ 1) → exec (.ack x a m) s = .next (s.tookFrame x.frame))
    ∧ (∀ x c, s.takesFrame 4 x.frame (ctlBody 3 x.tseq [c]) → (s.linkUp = false ∨ s.role ≠ 1) → exec (.nak x c) s = .next (s.tookFrame x.frame))
    ∧ (s.hears = false → ∀ x a m c, exec (.ack x a m) s = .next s ∧ exec (.nak x c) s = .next s)
    ∧ (∀ x c, s.takesFrame 4 x.frame (ctlBody 3 x.tseq [c]) → s.linkUp = true → s.role = 1 →
      ((s.pair.sent.find? fun t => t.tseq == x.tseq) = none → exec (.nak x c) s = .next (s.tookFrame x.frame))
      ∧ (∀ t y k, (s.pair.sent.find? fun y => y.tseq == x.tseq) = some t → t.who = forSession → s.sess? t.q = some y → y.taken = some k →
          k.phase = .acking → c ≠ 2 → c ≠ 4 → s.boot.warmDue = false → ∃ u, exec (.nak x c) s = .next u ∧ Completed s u t.q stNoAck []
            ∧ u.pair.sent = s.pair.sent.filter (fun y => y.tseq != x.tseq)
            ∧ u.get Adr.PAIR_TXN Fl.PAIR_TXN_NAK = min 0xffff (s.get Adr.PAIR_TXN Fl.PAIR_TXN_NAK + 1) ∧ u.plan = s.plan ∧ u.led = s.led)
      ∧ (∀ t, (s.pair.sent.find? fun y => y.tseq == x.tseq) = some t → t.ty = txArm → t.who = forNobody → s.solo = false → c = 2 →
          ∃ u y, exec (.nak x c) s = .next u ∧ u.pair.sent = s.pair.sent.filter (fun z => z.tseq != x.tseq) ++ [y] ∧ y.ty = txSlot
            ∧ y.data.headD 0 = t.data.headD 0 ∧ y.who = forNobody)
      ∧ (∀ t, (s.pair.sent.find? fun y => y.tseq == x.tseq) = some t → t.who = forNobody → c = 4 → ∃ u, exec (.nak x c) s = .next u
          ∧ u.pair.rejoined = true ∧ u.plan = s.plan ∧ ∃ y ∈ u.pair.sent, y.ty = txResync))
    ∧ (s.pairOn = true → s.gwqRuns = true → s.boot.warmDue = false →
      (∃ u, exec .pairNoAck s = .next u ∧ u.pair.sent = s.pair.sent.filter (fun t => !(t.who != forStrike && decide (t.tick + ackTicks < s.tick)))
        ∧ u.plan = s.plan)
      ∧ (∀ t x k, s.pair.sent = [t] → t.who = forSession → t.tick + ackTicks < s.tick → s.sess? t.q = some x → x.taken = some k → k.phase = .acking →
        ∃ u, exec .pairNoAck s = .next u ∧ Completed s u t.q stNoAck [] ∧ u.pair.ctlOut = some (4, t.tseq, []) ∧ u.led = s.led))
    ∧ ((s.pairOn = false ∨ s.gwqRuns = false) → exec .pairNoAck s = .next s)

/-! ## Pair commands and health, registers (spec/12_mailbox_commands.md, spec/15_redundant_pair.md, spec/20_register_map.md) -/

/-- R245, R294, R306 to R308. PAIR_ENROL with locked lanes and a good certificate sends an offer and waits; a good offer in time seals the pair key with its entry and completes, a bad one is
PAIR_ID_MISMATCH, none in 10 s LINK_DOWN. PAIR_STATUS and PAIR_HEALTH answer; PAIR_SOLO sets SOLO on an active and is NOT_ACTIVE on a standby. A standby judges HEALTH_REQ by its checks, reports and
starts a new interval, but while a move is in progress it waits; the active takes the verdict, and a diverged standby is resynchronised. -/
def Obligations.PairCommandsEnrolmentAndHealth : Prop :=
  ∀ s : State, s.regsWf = true →
    (∀ q t id, s.runs q 0x0900 t → t.role = 1 → s.has .pairU = true → t.bufLen ≠ 0 → s.pastBulk q t.bufAddr t.bufLen = false → t.bufOk = true →
      s.lanesLocked = true → s.pair.enrol = none → t.sigOk = true → certId t.buf = some id → (s.boot.recovery = true ∨ s.ledgerRoom 1 = true) →
      ∃ u x k, exec (.pairEnrol q) s = .next u ∧ u.pair.enrol = some (q, s.tick) ∧ u.pair.enrolId = id ∧ u.pair.enrolKey = (certKey t.buf).getD [] ∧ u.pair.ctlOut = some (7, 0, [])
        ∧ u.sess? q = some x ∧ x.taken = some k ∧ k.phase = .waiting ∧ k.tag = t.tag ∧ u.led = s.led ∧ u.flash = s.flash)
    ∧ (∀ q t, s.runs q 0x0900 t → t.role = 1 → s.has .pairU = true → t.bufLen ≠ 0 → s.pastBulk q t.bufAddr t.bufLen = false → t.bufOk = true →
      (s.lanesLocked = false → ∃ u, exec (.pairEnrol q) s = .next u ∧ Completed s u q stLinkDown [] ∧ u.pair = s.pair)
      ∧ (s.lanesLocked = true → s.pair.enrol = none → t.sigOk = false → ∃ u, exec (.pairEnrol q) s = .next u ∧ Completed s u q 0x30 [] ∧ u.pair = s.pair))
    ∧ (∀ q t0 key sig v x k, s.pair.enrol = some (q, t0) → s.pairOn = true → s.gwqRuns = true → key.length = 97 → s.tick < t0 + msTicks 10000 →
      s.sess? q = some x → x.taken = some k → s.boot.warmDue = false →
      (ecdsaVerify s.pair.enrolKey key sig = true → v = true → s.ledgerRoom 1 = true → ∃ u, exec (.enrolOffer key sig v) s = .next u
        ∧ u.pair.enrol = none ∧ u.flash.pairKey = some s.newPairKey ∧ u.flash.partner = s.pair.enrolId ∧ u.flash.seals = s.flash.seals + 1
        ∧ u.flag Adr.PAIR_STAT Fl.PAIR_STAT_KEY = true ∧ u.flag Adr.SEC_STAT Fl.SEC_STAT_PAIR_KEY = true ∧ Completed s u q 0 []
        ∧ (s.boot.recovery = false → Logged s u 0x0052 q))
      ∧ ((ecdsaVerify s.pair.enrolKey key sig = false ∨ v = false) → ∃ u, exec (.enrolOffer key sig v) s = .next u ∧ u.pair.enrol = none
        ∧ u.flash = s.flash ∧ Completed s u q 0x30 [] ∧ u.led = s.led))
    ∧ (∀ key sig v, (s.pair.enrol = none ∨ s.pairOn = false ∨ s.gwqRuns = false ∨ key.length ≠ 97
      ∨ ∃ q t0, s.pair.enrol = some (q, t0) ∧ t0 + msTicks 10000 ≤ s.tick) → exec (.enrolOffer key sig v) s = .next s)
    ∧ (∀ q t0 x k, s.pair.enrol = some (q, t0) → s.gwqRuns = true → t0 + msTicks 10000 ≤ s.tick → s.sess? q = some x → x.taken = some k →
      s.boot.warmDue = false → ∃ u, exec .enrolTimeout s = .next u ∧ u.pair.enrol = none ∧ Completed s u q stLinkDown [] ∧ u.flash = s.flash ∧ u.led = s.led)
    ∧ ((s.pair.enrol = none ∨ s.gwqRuns = false ∨ ∃ q t0, s.pair.enrol = some (q, t0) ∧ s.tick < t0 + msTicks 10000) → exec .enrolTimeout s = .next s)
    ∧ (∀ q t, s.runs q 0x0901 t → t.role = 1 → s.has .pairU = true → s.pastBulk q t.bufAddr t.bufLen = false → ∃ u, exec (.pairStatus q) s = .next u
      ∧ Completed s u q 0 (le 1 s.role ++ le 1 (b2i s.linkUp) ++ le 1 (b2i s.solo) ++ le 1 s.partnerHealth ++ le 4 s.pair.reportNs32) ∧ u.pair = s.pair
      ∧ u.led = s.led ∧ (∀ a, quiet a = true → u.rd a = s.rd a))
    ∧ (∀ q t, s.runs q 0x0902 t → t.role = 1 → s.has .pairU = true → 128 ≤ t.bufLen → s.pastBulk q t.bufAddr t.bufLen = false →
      ∃ u, exec (.pairHealth q) s = .next u ∧ Completed s u q 0 (le 4 s.pair.report.length) ∧ u.pair = s.pair ∧ u.led = s.led)
    ∧ (∀ q t, s.runs q 0x0903 t → t.role = 1 → s.has .pairU = true → s.pastBulk q t.bufAddr t.bufLen = false →
      (s.role = 2 → ∃ u, exec (.pairSolo q) s = .next u ∧ Completed s u q stNotActive [] ∧ u.led = s.led ∧ u.pair = s.pair)
      ∧ (s.role = 1 → (s.boot.recovery = true ∨ s.ledgerRoom 1 = true) → t.flag 0 = true → ∃ u, exec (.pairSolo q) s = .next u ∧ u.solo = true
          ∧ Completed s u q 0 [] ∧ u.role = 1 ∧ (s.ledgerRoom 1 = true → s.boot.recovery = false → Logged s u 0x0052 q))
      ∧ (s.role = 1 → (s.boot.recovery = true ∨ s.ledgerRoom 1 = true) → t.flag 0 = false → ∃ u, exec (.pairSolo q) s = .next u ∧ u.solo = false
          ∧ Completed s u q 0 [] ∧ u.role = 1))
    ∧ (∀ h fs, fs = h.frames.zip (healthBodies h) → h.frames.length = (healthBodies h).length → s.takesFrames 4 fs →
      (∀ c v, s.linkUp = true → s.role = 2 → s.moving = false → c = s.checks h → v = verdictOf c s.fatal → ∃ u, exec (.healthReq h) s = .next u
        ∧ u.get Adr.PAIR_STAT Fl.PAIR_STAT_HEALTH = v ∧ u.pair.report = s.healthReport h v c (s.pair.reportNum + 1)
        ∧ u.pair.reportNum = s.pair.reportNum + 1 ∧ u.pair.sampRx = 0 ∧ u.pair.sampMatch = 0 ∧ u.pair.misses = 0 ∧ u.pair.ledgerNak = false
        ∧ u.pair.reqHeld = none ∧ u.pair.reportNs32 = s.ns32 ∧ u.pair.ctlOut = some (6, 0, []) ∧ u.role = 2
        ∧ (∃ x ∈ u.pair.frames, x.kind = 4 ∧ x.body = le 1 6 ++ u.pair.report)
        ∧ u.flag (Adr.FLT_SRC 0xE3) Fl.FLT_SRC_ACTIVE = (v == 2))
      ∧ (s.linkUp = true → s.role = 2 → s.moving = true → ∃ u, exec (.healthReq h) s = .next u ∧ u.pair.reqHeld = some h
        ∧ u.pair.reportNum = s.pair.reportNum ∧ u.regs = s.regs)
      ∧ ((s.linkUp = false ∨ s.role ≠ 2) → exec (.healthReq h) s = .next (s.tookFrames fs)))
    ∧ (∀ h, (s.hears = false ∨ h.frames.length ≠ (healthBodies h).length) → exec (.healthReq h) s = .next s)
    ∧ (∀ h rest rep, rep = h.bytes ++ rest → s.takesFrame 4 h.frame (le 1 6 ++ rep) →
      (s.linkUp = true → s.role = 1 → ∃ u, exec (.health h rest) s = .next u
        ∧ u.get Adr.PAIR_STAT Fl.PAIR_STAT_P_HEALTH = rdLE rep 5 1 % 4 ∧ u.pair.reportNs32 = rdLE rep 12 4 ∧ u.pair.report = fit 128 rep ∧ u.role = 1
        ∧ u.flag (Adr.FLT_SRC 0xE3) Fl.FLT_SRC_ACTIVE = (rdLE rep 5 1 % 4 == 2) ∧ ((rdLE rep 6 2).testBit 5 = true → u.pair.rejoined = true)
        ∧ ((rdLE rep 6 2).testBit 5 = false → u.pair.sent = s.pair.sent ∧ u.pair.rejoined = s.pair.rejoined))
      ∧ ((s.linkUp = false ∨ s.role ≠ 1) → exec (.health h rest) s = .next (s.tookFrame h.frame)))
    ∧ (s.hears = false → ∀ h rest, exec (.health h rest) s = .next s)

/-- R192, R202, R343, R346, R354, R367 to R370, R372, R374. A write of a hub register that only stores takes the RW and WO fields, clears W1C bits written 1 that no event of its instant set, and leaves every
other register; SHARE of an open queue is clamped; one without all byte enables is ignored, one of two words writes them in order. A read returns the word, clears its RC fields
but for the events of its instant, and of a low word latches the upper one for that view; a narrower one returns the bytes asked for. CLR clears the counter and SAT. A word that
does not answer reads 0 and ignores writes; a view that is absent changes nothing. An access past the register bridge is an error response that BUS_ERR records and counts.
Configuration space is served once Gwynique or its loader has started, and answered with a retry before. -/
def Obligations.RegisterAccesses : Prop :=
  ∀ s : State, s.regsWf = true →
    (∀ a v b i j fs, a < 0x200000 → s.answers a = true → lookupWord a = some (b, i, j, fs) →
      a ∉ [Adr.PILOT_CTL, Adr.DRV_CTL, Adr.PLAN_CFG, Adr.TIME_CTL, Adr.PAIR_CFG, Adr.FLT_REL, Adr.FLT_INJ, Adr.SAFE_CFG] →
      ¬(tdAdr .A ≤ a ∧ a < tdAdr .B + 0x40) →
      ¬(Adr.CMP 0 ≤ a ∧ a < Adr.CMP 32) → ¬(Adr.QW 0 ≤ a ∧ a < Adr.QW 4096 ∧ a % 0x40 = 0) → ¬(Adr.HLD_LANE 0 ≤ a ∧ a < Adr.HLD_LANE 4) →
      ¬(Adr.PERF_HC 0 ≤ a ∧ a < Adr.PERF_HC 8) → ∃ u, exec (.registerWrite a (.one v)) s = .next u
        ∧ u.rd a = fs.foldl (fun w f => writeField (if f.access = .w1c then s.clears a v else v) w f) (s.rd a)
        ∧ (s.host.before = none → u.rd a = fs.foldl (writeField v) (s.rd a))
        ∧ (∀ k, k ≠ a → u.rd k = s.rd k) ∧ u.ctl = s.ctl ∧ u.host = s.host ∧ u.exp = s.exp ∧ u.led = s.led ∧ u.time = s.time)
    ∧ (∀ q v x, q < 4096 → s.answers (Adr.QW q) = true → s.queue? q = some x → ∃ u, exec (.registerWrite (Adr.QW q) (.one v)) s = .next u
      ∧ u.share q = min (getBits v 8 14) (bufferMiB s.variant - s.reserved + s.share q) % 2 ^ 14
      ∧ u.get (Adr.QW q) Fl.QW_WEIGHT = getBits v 0 8 ∧ u.flag (Adr.QW q) Fl.QW_SH_EN = v.getLsbD 22
      ∧ (∀ y, u.queue? q = some y → y.items = x.items ∧ (v.getLsbD 22 = true → s.flag (Adr.QW q) Fl.QW_SH_EN = false → y.fill = true)))
    ∧ (∀ p v, p < numPorts s.variant → s.answers (Adr.SRX_CFG p) = true → v.getLsbD 31 = false →
      ∃ u, exec (.registerWrite (Adr.SRX_CFG p) (.one v)) s = .next u
      ∧ u.get (Adr.SRX_CFG p) Fl.SRX_CFG_DIG_OFF = getBits v 8 8 ∧ u.get (Adr.SRX_CFG p) Fl.SRX_CFG_DIG_LEN = getBits v 16 7
      ∧ (∀ k, k ≠ Adr.SRX_CFG p → u.rd k = s.rd k) ∧ u.exp = s.exp)
    ∧ (∀ a ws, exec (.registerWrite a ⟨ws, false⟩) s = .next s)
    ∧ (∀ a v w, ∃ t u, exec (.registerWrite a (.one v)) s = .next t ∧ exec (.registerWrite (a + 4) (.one w)) t = .next u
      ∧ exec (.registerWrite a ⟨[v, w], true⟩) s = .next u)
    ∧ (∀ a v, a + 4 ≤ 0x800000 → s.answers a = false → ∃ u, exec (.registerWrite a (.one v)) s = .next u ∧ { u with bus := s.bus } = s)
    ∧ (∀ a v, 0x800000 ≤ a → a < 0x1000000 → s.bridgeOn = true → ∃ u, exec (.registerWrite a (.one v)) s = .next u
      ∧ u.get Adr.BUS_ERR Fl.BUS_ERR_COUNT = min 0xffff (s.get Adr.BUS_ERR Fl.BUS_ERR_COUNT + 1) ∧ u.flag Adr.BUS_ERR Fl.BUS_ERR_VALID = true
      ∧ (s.flag Adr.BUS_ERR Fl.BUS_ERR_VALID = false → u.get Adr.BUS_ERR Fl.BUS_ERR_MASTER = 5 ∧ u.flag Adr.BUS_ERR Fl.BUS_ERR_WRITE = true
          ∧ u.get Adr.BUS_ERR Fl.BUS_ERR_ADDR_LO = 0x2000000 + a)
      ∧ (s.flag Adr.BUS_ERR Fl.BUS_ERR_VALID = true → u.rd (Adr.BUS_ERR + 4) = s.rd (Adr.BUS_ERR + 4)
          ∧ u.get Adr.BUS_ERR Fl.BUS_ERR_MASTER = s.get Adr.BUS_ERR Fl.BUS_ERR_MASTER)
      ∧ (∀ k, quiet k = true → k ∉ [Adr.BUS_ERR, Adr.BUS_ERR + 4, Adr.BUS_ERR + 8] → u.rd k = s.rd k) ∧ u.ctl = s.ctl ∧ u.exp = s.exp)
    ∧ (∀ a v, 0x1000000 ≤ a → a < bar4Base → s.viewOn (a / 0x1000000) = false → exec (.registerWrite a (.one v)) s = .next s)
    ∧ (∀ a v, 0x1000000 ≤ a → a < bar4Base → s.viewOn (a / 0x1000000) = true → 0x80 ≤ a % 0x1000000 → a % 0x1000000 < 0xC0 →
      ∃ u, exec (.registerWrite a (.one v)) s = .next u ∧ u.rd a = v ∧ (∀ k, k ≠ a → u.rd k = s.rd k) ∧ u.ctl = s.ctl)
    ∧ (∀ fn off v, off < 0x1000 →
      (s.cfgReached fn = false → exec (.registerWrite (cfgBase + 0x1000000 * fn + off) (.one v)) s = .next s)
      ∧ (s.cfgReached fn = true → s.cfgReady = false → ∃ u, exec (.registerWrite (cfgBase + 0x1000000 * fn + off) (.one v)) s = .next u
          ∧ u.host.cfgRetry = true ∧ u.host.cfg = s.host.cfg ∧ u.regs = s.regs)
      ∧ (s.cfgReached fn = true → s.cfgReady = true → off ∉ [4, 0x48, 0xB0, 0x168, 0x170] → SMap.rising s.host.cfg = true →
          ∃ u, exec (.registerWrite (cfgBase + 0x1000000 * fn + off) (.one v)) s = .next u ∧ u.host.cfgRetry = false
          ∧ u.cfgHeld fn off = (v.toNat &&& (cfgWordOf s.variant fn off).mask) ∧ u.regs = s.regs
          ∧ (∀ f o, o < 0x1000 → (f ≠ fn ∨ o ≠ off) → u.cfgHeld f o = s.cfgHeld f o)))
    ∧ (∀ view off, (s.cfgReached view = false → exec (.rcRead view (.word (cfgBase + off))) s = .next s)
      ∧ (s.cfgReached view = true → ∃ u, exec (.rcRead view (.word (cfgBase + off))) s = .next u ∧ u.host.cfgRetry = !s.cfgReady
          ∧ u.readData = (if s.cfgReady then s.cfgWord view off else s.readData) ∧ u.host.cfg = s.host.cfg))
    ∧ (∀ view a n, n < 4 → ∃ t, exec (.rcRead view (.word (a / 4 * 4))) s = .next t
      ∧ exec (.rcRead view ⟨a, n⟩) s = .next { t with readData := t.readData / 2 ^ (8 * (a % 4)) % 2 ^ (8 * n) })
    ∧ (∀ view a, ∃ t u, exec (.rcRead view (.word a)) s = .next t ∧ exec (.rcRead view (.word (a + 4))) t = .next u
      ∧ exec (.rcRead view ⟨a, 8⟩) s = .next { u with readData := t.readData + u.readData * 2 ^ 32 })
    ∧ (∀ view a, a < cfgBase → ∃ u, exec (.rcRead view (.word a)) s = .next u ∧ (a ≠ Adr.TIME_RD → a ≠ 0x100 → u.readData = s.viewSeen view a
          ∧ (s.host.before = none → u.readData = s.readView view a))
      ∧ u.ctl.plan = s.ctl.plan ∧ u.led = s.led ∧ u.pair = s.pair
      ∧ (view = 0 → a + 4 ≤ 0x800000 → s.answers a = false → u.readData = 0
          ∧ (∀ k, ¬(Adr.PERF_HC 0 ≤ k ∧ k < Adr.PERF_HC 8) → u.rd k = s.rd k))
      ∧ (view = 0 → 0x800000 ≤ a → a < 0x1000000 → s.bridgeOn = true → u.readData = 0
          ∧ u.get Adr.BUS_ERR Fl.BUS_ERR_COUNT = min 0xffff (s.get Adr.BUS_ERR Fl.BUS_ERR_COUNT + 1))
      ∧ (∀ b i j fs, view = 0 → a < 0x200000 → s.answers a = true → lookupWord a = some (b, i, j, fs) → a ≠ Adr.TIME_RD → ¬(Adr.CAP 0 ≤ a ∧ a < Adr.CAP 9) →
          ¬(Adr.QW 0 ≤ a ∧ a < Adr.QW 4096) → ¬(Adr.PERF_HC 0 ≤ a ∧ a < Adr.PERF_HC 8) →
          u.rd a = fs.foldl (leaveRC (s.rcBefore a) (s.rcNow a)) (s.rd a) ∧ (s.host.before = none → u.rd a = fs.foldl clearRC (s.rd a))
          ∧ (∀ k, k ≠ a → ¬(Adr.PERF_HC 0 ≤ k ∧ k < Adr.PERF_HC 8) → u.rd k = s.rd k))
      ∧ (∀ n, view = 0 → n < 9 → a = Adr.CAP n + 0x14 → s.answers a = true → u.caps n = (s.caps n).tail ∧ (∀ k, k ≠ n → u.caps k = s.caps k))
      ∧ (view ≠ 0 → s.viewOn view = false → u.exp = s.exp ∧ u.ctl.latches = s.ctl.latches
          ∧ (∀ k, ¬(Adr.PERF_HC 0 ≤ k ∧ k < Adr.PERF_HC 8) → u.rd k = s.rd k)))
    ∧ (∀ view a, ∃ u, exec (.counterLowRead view a) s = .next u ∧ u.readData = s.readView view a ∧ u.regs = s.regs ∧ u.exp = s.exp ∧ u.time = s.time
      ∧ (view = 0 → a = Adr.PERF_TICK → s.answers a = true → u.readData = s.tick % 2 ^ 32
          ∧ u.ctl.latches = SMap.insert s.ctl.latches (shadowKey 0 (Adr.PERF_TICK + 4)) (s.tick / 2 ^ 32))
      ∧ (∀ n, view = 0 → n < 8 → a = Adr.PERF_HC n + 4 → s.answers a = true → u.readData = s.get (Adr.PERF_HC n) Fl.PERF_HC_VAL_LO
          ∧ u.ctl.latches = SMap.insert s.ctl.latches (shadowKey 0 (Adr.PERF_HC n + 8)) (s.get (Adr.PERF_HC n) Fl.PERF_HC_VAL_HI))
      ∧ (view = 0 → a < 2 ^ 32 → s.answers a = false → u.readData = 0 ∧ u.ctl.latches = s.ctl.latches))
    ∧ (∀ n a, n < 8 → Adr.PERF_HC n ≤ a → a < Adr.PERF_HC n + 16 → s.answers a = true → ∃ u, exec (.clr a) s = .next u
      ∧ u.getPair (Adr.PERF_HC n) Fl.PERF_HC_VAL_LO Fl.PERF_HC_VAL_HI = 0 ∧ u.flag (Adr.PERF_HC n) Fl.PERF_HC_SAT = false
      ∧ u.flag (Adr.PERF_HC n) Fl.PERF_HC_EN = s.flag (Adr.PERF_HC n) Fl.PERF_HC_EN
      ∧ (∀ k, k ∉ [Adr.PERF_HC n, Adr.PERF_HC n + 4, Adr.PERF_HC n + 8] → u.rd k = s.rd k))
    ∧ (∀ c k a, c < 144 → k < 4 → Adr.PC c k ≤ a → a < Adr.PC c k + 8 → s.answers a = true → ∃ u, exec (.clr a) s = .next u
      ∧ u.get (Adr.PC c k) Fl.PC_VAL = 0 ∧ u.flag (Adr.PC c k) Fl.PC_SAT = false ∧ (∀ n, n ∉ [Adr.PC c k, Adr.PC c k + 4] → u.rd n = s.rd n))
    ∧ (∀ a, s.answers a = false → exec (.clr a) s = .next s)

/-! ## Rules stated whole -/

/-- R346. A read of the low word of TICK, HCn or STEP in the privileged view, or of a released TICK or HCn in a VF view, returns the low word and latches the upper word of the same instant for
that view alone; the following read of the upper word by that view returns the shadow. A 32-bit comb counter is read in one access. -/
def Obligations.LowWordReadsLatchTheUpperWord : Prop :=
  ∀ s : State,
    (s.answers Adr.PERF_TICK = true → ∃ u, exec (.counterLowRead 0 Adr.PERF_TICK) s = .next u ∧ u.readData = s.tick % 2 ^ 32
      ∧ u.readView 0 (Adr.PERF_TICK + 4) = s.tick / 2 ^ 32 % 2 ^ 32 ∧ (∀ w a, 1 ≤ w → u.shadow w a = s.shadow w a))
    ∧ (∀ n, n < 8 → s.answers (Adr.PERF_HC n + 4) = true → ∃ u, exec (.counterLowRead 0 (Adr.PERF_HC n + 4)) s = .next u
      ∧ u.readData = s.get (Adr.PERF_HC n) Fl.PERF_HC_VAL_LO ∧ u.readView 0 (Adr.PERF_HC n + 8) = s.get (Adr.PERF_HC n) Fl.PERF_HC_VAL_HI
      ∧ (∀ w a, 1 ≤ w → u.shadow w a = s.shadow w a))
    ∧ (∀ c, c < 144 → s.answers (Adr.STEP c) = true → ∃ u, exec (.counterLowRead 0 (Adr.STEP c)) s = .next u
      ∧ u.readData = (s.engOf c).steps % 2 ^ 32 ∧ u.readView 0 (Adr.STEP c + 4) % 2 ^ 16 = (s.engOf c).steps / 2 ^ 32 % 2 ^ 16
      ∧ (∀ w a, 1 ≤ w → u.shadow w a = s.shadow w a))
    ∧ (∀ v, 1 ≤ v → s.viewOn v = true → s.tickOut = true → ∃ u, exec (.counterLowRead v 0x1000) s = .next u ∧ u.readData = s.tick % 2 ^ 32
      ∧ u.readView v 0x1004 = s.tick / 2 ^ 32 ∧ (∀ w a, w ≠ v → a < 2 ^ 32 → u.shadow w a = s.shadow w a))
    ∧ (∀ v n, 1 ≤ v → n < 8 → s.viewOn v = true → s.hcOut n = true → ∃ u, exec (.counterLowRead v (0x1010 + 16 * n)) s = .next u
      ∧ u.readData = s.get (Adr.PERF_HC n) Fl.PERF_HC_VAL_LO ∧ u.readView v (0x1014 + 16 * n) % 2 ^ 16 = s.get (Adr.PERF_HC n) Fl.PERF_HC_VAL_HI
      ∧ (∀ w a, w ≠ v → a < 2 ^ 32 → u.shadow w a = s.shadow w a))
    ∧ (∀ c k, c < 144 → k < 4 → s.answers (Adr.PC c k + 4) = true → ∃ u, exec (.rcRead 0 (.word (Adr.PC c k + 4))) s = .next u
      ∧ u.readData = s.get (Adr.PC c k) Fl.PC_VAL)

/-- R109. A PLAN_COMPILE is under NO_COLLATERAL where PLAN_CFG or the header of its list says so. When such a compile ends having found collateral circuits, it completes with COLLATERAL, every slot is left
unchanged, and the report written where REPORT_ADDR points lists the collateral outputs after its 64-byte head, cut to REPORT_LEN. -/
def Obligations.NoCollateralCompilesLeaveTheirSlot : Prop :=
  ∀ s : State, s.regsWf = true →
    (∀ q t, s.runs q 0x0100 t → t.role = 1 → s.pastBulk q t.bufAddr t.bufLen = false → s.pastBulk q (t.p 32 8) (t.p 40 4) = false → 64 ≤ t.p 40 4 →
      t.bufOk = true → rdLE t.buf 0 4 = 0x4B504C54 → rdLE t.buf 4 2 ≤ 1024 → 16 + 4 * rdLE t.buf 4 2 ≤ t.bufLen → t.p 24 2 < numSlots s.variant →
      ∃ u x, exec (.planCompile q) s = .next u ∧ u.plan.compiles.getLast? = some x ∧ x.noColl = s.flag Adr.PLAN_CFG Fl.PLAN_CFG_NO_COLLATERAL
        ∧ x.list = t.buf ∧ x.id = t.p 24 2 ∧ x.repAddr = t.p 32 8 ∧ x.repLen = t.p 40 4)
    ∧ (∀ x rest b y k outs, s.plan.compiles = x :: rest → x.base = some b → (x.noColl = true ∨ (rdLE x.list 8 2).testBit 0 = true) →
      outs = (compilePlan s.variant (portEntries x.list (rdLE x.list 4 2)) b.words).collateral → outs ≠ [] → s.sess? x.q = some y → y.taken = some k →
      s.boot.warmDue = false → (∀ y, rest.head? = some y → 0x100 ≤ rdLE y.list 6 2 ∨ (s.checkBad 0xA5 (rdLE y.list 6 2) = false ∧ s.flt.inj = [])) →
      ∃ u z res, exec .compileCompletion s = .next u ∧ u.plan.slots = s.plan.slots ∧ u.sess? x.q = some z ∧ z.taken = none
        ∧ (x.q < 4096 → s.sessState x.q = 2 → s.dmaOk x.q = true → s.wrFails x.q = false → z.cpl = y.cpl ++ [completionBytes k.tag 0x12 k.op k.index s.ns32 res])
        ∧ (y.eth = none → s.dmaOk x.q = true → z.report.1 = x.repAddr ∧ rdLE z.report.2 0 2 = 0x12
          ∧ (64 + 2 * outs.length ≤ x.repLen → (z.report.2.drop 64).take (2 * outs.length) = (outs.map (le 2)).flatten)))

/-- R156. The source in force of a domain is what its SRC field says for 0 to 4, NONE for 5 to 7, and NONE for PTP where MGMT is absent; each domain's depends on its own SRC alone, so both may
name the same source. -/
def Obligations.SrcSelectsTheSource : Prop :=
  ∀ (s : State) (d : Dom),
    (5 ≤ s.get (tdAdr d) Fl.TD_SRC → s.srcOf d = 0)
    ∧ (s.get (tdAdr d) Fl.TD_SRC = 1 → s.srcOf d = (if s.has .mgmtU then 1 else 0))
    ∧ (s.get (tdAdr d) Fl.TD_SRC ≤ 4 → s.get (tdAdr d) Fl.TD_SRC ≠ 1 → s.srcOf d = s.get (tdAdr d) Fl.TD_SRC)
    ∧ (s.get (tdAdr .A) Fl.TD_SRC = s.get (tdAdr .B) Fl.TD_SRC → s.srcOf .A = s.srcOf .B)

/-! ## The whole module -/

/-- The block's own rule (the model's choice, log entry 1): for every command and state, the step of a state with that command at the front of its queue is the command's effect on the state with the
queue's rest, and a step on an empty queue changes nothing. -/
def Obligations.StepRunsTheFrontCommand : Prop :=
  (∀ (c : Instr) (s : State) (rest : List Instr), s.pending = c :: rest → step s = exec c { s with pending := rest })
  ∧ (∀ s : State, s.pending = [] → step s = .next s)

/-- Every command, in every state, answers a next state, never a fault or a refusal; that state has the queue and the variant it had. -/
def Obligations.EveryCommandAnswersAndKeepsTheQueue : Prop :=
  ∀ (c : Instr) (s : State), ∃ t, exec c s = .next t ∧ t.pending = s.pending ∧ t.variant = s.variant

/-- At reset the register file and the tables are in canonical form and the ledger is empty, so the invariant of the module holds. -/
def Obligations.ResetMeetsTheInvariant : Prop := State.reset.Inv

/-- R274 to R276. From every state that meets it, a step keeps the invariant: the register file and the tables of lanes, combs, outputs, ports, tiles and queues stay in their one canonical form, and every
entry the ledger holds opens a start or follows the one before it, by its SEQ and by the SHA-384 of its 128 bytes. -/
def Obligations.EveryStepKeepsTheInvariant : Prop :=
  ∀ s t : State, s.Inv → step s = .next t → t.Inv

/-- From a state that meets the invariant with at least n commands waiting, n steps complete, carry out exactly the first n commands, leave the rest in order, and end in a state of the same variant that
meets the invariant. -/
def Obligations.RunsTakeCommandsInOrder : Prop :=
  ∀ (n : Nat) (s : State), s.Inv → n ≤ s.pending.length →
    ∃ t, (List.range n).foldl (fun o _ => match o with | some x => (match step x with | .next y => some y | _ => none) | none => none) (some s) = some t
      ∧ t.pending = s.pending.drop n ∧ t.variant = s.variant ∧ t.Inv

/-! ## Forms whose completion stands among much else above -/

/-- R83, R91, R112, R114, R117, R124, R137, R143, R183, R184, R239, R246. Each form that runs the schedule list, the strobes of a commit, the
comb engine, the way of the records or the upkeep of combs and images completes, under conditions on the state and its operands alone, with its
central effect: the list loaded, stopped, read, advanced or done; the head commit one phase on; GO_OK set again; a waiting routine's commit made
visible; the recovery, hold limit and settled group carried out; a record one place further; a comb or an image taken in hand. -/
def Obligations.ListStrobeEngineRecordAndUpkeepFormsComplete : Prop :=
  ∀ s : State, s.regsWf = true → s.ctl.tablesWf = true → s.exp.tablesWf = true →
    (∀ q t, t.role = 1 → s.pastBulk q t.bufAddr t.bufLen = false → s.pairMode = false → s.role ≠ 2 → s.ledgerRoom 1 = true →
      (s.runs q 0x0200 t → 24 + 8 * rdLE t.buf 4 2 ≤ t.bufLen → t.bufOk = true → badList s.variant t.buf = false →
        ∃ u r, exec (.schedLoad q) s = .next u ∧ u.plan.sched.isSome = true ∧ Completed s u q 0 r)
      ∧ (s.runs q 0x0201 t → s.listRuns = true →
        ∃ u r, exec (.schedStop q) s = .next u ∧ u.get Adr.SCHED_STAT Fl.SCHED_STAT_STATE = 0 ∧ Completed s u q 0 r)
      ∧ (s.runs q 0x0202 t → 24 ≤ t.bufLen → s.plan.sched = none →
        ∃ u r, exec (.schedRead q) s = .next u ∧ u.plan = s.plan ∧ Completed s u q 0 r)
      ∧ (s.runs q 0x0A00 t → t.p 24 1 < numCombs s.variant → s.engine (t.p 24 1) = 2 → (s.comb (t.p 24 1)).restart = false →
        ∃ u r, exec (.combRestart ⟨q, true⟩) s = .next u ∧ (u.comb (t.p 24 1)).restart = true ∧ Completed s u q 0 r)
      ∧ (s.runs q 0x0B00 t → t.cls ≤ 1 → 256 ≤ t.bufLen → t.bufOk = true → BankIn.signed ⟨t.buf⟩ s.flash.keys = true → rdLE t.buf 0 4 = 0x4B434E4B →
          rdLE t.buf 5 1 = t.cls →
        ∃ u r, exec (.imageWrite q) s = .next u ∧ SMap.find 0 u.flash.levels (2 * t.cls + (1 - s.bankOf t.cls)) = rdLE t.buf 8 4
          ∧ Completed s u q 0 r)
      ∧ (s.runs q 0x0B01 t → t.cls ≤ 1 → ∃ u r, exec (.imageInfo q) s = .next u ∧ u.flash = s.flash ∧ Completed s u q 0 r))
    ∧ (∀ l, s.gwqRuns = true → s.listRuns = true → s.plan.oldSched = none → s.plan.sched = some l →
      (s.stepDue l = true → s.slot? (l.entries.getD l.next (0, 0)).1 = none → s.checkBad 0xA5 (l.entries.getD l.next (0, 0)).1 = false →
        ∃ u, exec .schedStepArm s = .next u ∧ u.plan.sched = some l.advance)
      ∧ (l.cycle = 0 → l.entries.length ≤ l.next → s.tickTo l.makeAt ≤ s.tick →
        ∃ u, exec .schedDone s = .next u ∧ u.get Adr.SCHED_STAT Fl.SCHED_STAT_STATE = 3))
    ∧ (∀ c rest, s.plan.commits = c :: rest →
      (c.phase = 0 → c.ackBy = none → c.tBreak ≤ s.tick → c.unit < 16 → (∀ n, s.checkBad (0x9C + n) c.seq = false) → ∃ u, exec .breakStrobe s = .next u ∧ u.plan.inForce = c.words)
      ∧ (c.phase = 1 → c.tBreak + 25 ≤ s.tick → ∃ u, exec .moveStart s = .next u
          ∧ u.plan.commits = { c with phase := 2, strobe := 0 } :: rest)
      ∧ (c.phase = 2 → c.strobe < c.ds / 8 → c.tBreak + 25 + 5 * (c.strobe + 1) ≤ s.tick → ∃ u, exec .profileStep s = .next u
          ∧ u.plan.commits = { c with strobe := c.strobe + 1 } :: rest)
      ∧ (c.phase = 2 → c.ds / 8 ≤ c.strobe → c.tBreak + 25 + c.ds * 5 / 8 ≤ s.tick → ∃ u, exec .moveEnd s = .next u
          ∧ u.plan.commits = { c with phase := 3 } :: rest)
      ∧ (c.phase = 3 → c.tMake ≤ s.tick → ∃ u, exec .make s = .next u ∧ u.plan.commits = rest))
    ∧ (s.plan.commits = [] → s.plan.goHold ≤ s.tick → s.plan.goStop = false → s.role = 0 → s.powered 31 = true → s.armed ≠ none →
      s.flag Adr.PLAN_CFG Fl.PLAN_CFG_CSP_GO_EN = true → s.listRuns = false → s.ledgerRoom 1 = true →
      ∃ u, exec .goOkReenable s = .next u ∧ u.flag Adr.PLAN_STAT Fl.PLAN_STAT_GO_OK = true)
    ∧ (∀ c l n (post : Bool), s.serving c = true → (s.accWaits c).isEmpty = true →
      (if post then s.nextPost c = some l else s.nextPost c = none ∧ s.nextDue c = some l) → s.starts c (if post then 4 else 5) l n →
      s.flt.badWords = [] → s.readTaps (64 * c + l) = .error .source →
      ∃ u, exec (if post then .postMove ⟨c, n⟩ else .iter ⟨c, n⟩) s = .next u ∧ (u.lane (64 * c + l)).served = true
        ∧ (u.lane (64 * c + l)).frozen = satInc8 (s.lane (64 * c + l)).frozen)
    ∧ (∀ c n, c < numCombs s.variant →
      ((s.comb c).prologue = false → (s.comb c).cmd = true → s.starts c 2 0 n → s.flt.badWords = [] → ∃ u, exec (.cmdRoutine ⟨c, n⟩) s = .next u
        ∧ (u.comb c).cmd = false)
      ∧ (s.serving c = true → s.accWaits c ≠ [] → s.starts c 3 ((s.accWaits c).headD 0) n → s.flt.badWords = [] → ∃ u, exec (.calAcc ⟨c, n⟩) s = .next u
          ∧ ∀ l ∈ s.accWaits c, (u.lane (64 * c + l)).accDone = true)
      ∧ (∀ l p, (s.comb c).procs.head? = some p → s.idleLoops c = true → s.fitDue c l p = true → s.starts c 6 l n → s.flt.badWords = [] →
          ∃ u, exec (.calFit c l n) s = .next u ∧ (u.comb c).procs = ((s.fitWork c l).comb c).procs)
      ∧ (∀ m p, (s.comb c).procs.head? = some p → s.idleLoops c = true → p.kind = 4 → (s.comb c).segDone = false →
          s.starts c 7 0 m.steps → s.flt.badWords = [] → (s.comb c).accums + s.segSize c < 1024 → ∃ u, exec (.sadc c m) s = .next u
          ∧ (u.comb c).accums = (s.comb c).accums + s.segSize c)
      ∧ (s.gwqRuns = true → s.engine c = 2 → (s.comb c).restart = false → (s.comb c).gaveUp = false → s.recentChecks c < 3 →
          ∃ u, exec (.mcRecovery c true) s = .next u ∧ (u.comb c).restart = true)
      ∧ (∀ l, l < 64 → (s.lane (64 * c + l)).st = 8 → (s.lane (64 * c + l)).holdSince + s.holdTicks ≤ s.tick →
          ∃ u, exec (.holdLimit c l) s = .next u ∧ (u.lane (64 * c + l)).degraded = true))
    ∧ (∀ r, (s.ctl.cal.runs.find? fun r => r.full && r.combs.isEmpty) = some r → r.settle ≤ s.tick → s.groupReady r.group = true →
      (s.startGroup r.group r.avg).2 ≠ [] →
      ∃ u, exec .fullGroupSettle s = .next u ∧ { r with combs := (s.startGroup r.group r.avg).2 } ∈ u.ctl.cal.runs)
    ∧ (∀ t r rest, t < 4 → r.bad = false →
      ((s.tile t).fifo = r :: rest → (s.checkPass (0x94 + t)).1 = false → ∃ u, exec (.tileLinkTransfer t) s = .next u ∧ (u.tile t).fifo = rest)
      ∧ (s.nextTile = some t → (s.tile t).intake = r :: rest → agedOut s r = false →
          ∃ u, exec (.recordHandoff t) s = .next u ∧ u.exp.turn = t ∧ (u.tile t).intake = rest)
      ∧ ∃ u, exec (.recordAgeDrop t) s = .next u ∧ (u.tile t).fifo = (s.tile t).fifo.filter (fun r => !agedOut s r))
    ∧ (∀ p, (0 < (s.srx p).drop0.count → (s.srx p).drop0.tick + usTicks 100 ≤ s.tick → ∃ u, exec (.lossRecord 0 p) s = .next u
        ∧ (u.srx p).drop0 = {})
      ∧ (0 < (s.srx p).drop1.count → (s.srx p).drop1.tick + usTicks 100 ≤ s.tick → ∃ u, exec (.lossRecord 1 p) s = .next u
        ∧ (u.srx p).drop1 = {}))
end

