-- ==== Sys2Proof/Laws/Aead.lean ====
section
/-! SUPPORT. AES-256-GCM undoes itself: what is sealed under a key opens under it, and gives the text back. -/

namespace Sys2Proof.Machine

@[simp] theorem le_length (n x : Nat) : (le n x).length = n := by
  induction n generalizing x with
  | zero => rfl
  | succ n ih => simp [le, ih]

theorem xorBytes_length (a b : List Byte) : (xorBytes a b).length = min a.length b.length := by simp [xorBytes]

theorem xorBytes_twice (m k : List Byte) (h : m.length ≤ k.length) : xorBytes (xorBytes m k) k = m := by
  induction m generalizing k with
  | nil => simp [xorBytes]
  | cons a m ih =>
    cases k with
    | nil => simp at h
    | cons b k =>
      have := ih k (by simpa using h)
      simp only [xorBytes, List.zipWith_cons_cons] at this ⊢
      rw [this, BitVec.xor_assoc, BitVec.xor_self, BitVec.xor_zero]

theorem xorBytes_append (m a b : List Byte) : xorBytes m (a ++ b) = xorBytes m a ++ xorBytes (m.drop a.length) b := by
  induction a generalizing m with
  | nil => simp [xorBytes]
  | cons x a ih =>
    cases m with
    | nil => simp [xorBytes]
    | cons y m => simpa [xorBytes] using ih m

theorem xorBytes_take (m k : List Byte) (n : Nat) (h : k.length ≤ n) : xorBytes (m.take n) k = xorBytes m k := by
  induction m generalizing k n with
  | nil => simp
  | cons a m ih =>
    cases k with
    | nil => simp [xorBytes]
    | cons b k =>
      obtain ⟨n, rfl⟩ : ∃ j, n = j + 1 := ⟨n - 1, by simp at h; omega⟩
      simpa [xorBytes] using ih k n (by simpa using h)

/-- Every key word has four bytes. -/
theorem aesGrow_words (n i : Nat) (l : List (List Byte)) (h : ∀ w ∈ l, w.length = 4) (h8 : 8 ≤ l.length) :
    (∀ w ∈ aesGrow n i l, w.length = 4) ∧ (aesGrow n i l).length = l.length + n := by
  induction n generalizing i l with
  | zero => exact ⟨h, rfl⟩
  | succ n ih =>
    have hd : (l.headD []).length = 4 := by
      cases l with
      | nil => simp at h8
      | cons a l => exact h a (by simp)
    have h7 : (l.getD 7 []).length = 4 := by
      rw [List.getD_eq_getElem?_getD, List.getElem?_eq_getElem (by omega), Option.getD_some]
      exact h _ (List.getElem_mem _)
    have hn : (xorBytes (l.getD 7 []) (if i % 8 = 0 then xorBytes ((l.headD []).rotateLeft 1 |>.map aesSub) (aesConst (i / 8 - 1))
        else if i % 8 = 4 then (l.headD []).map aesSub else l.headD [])).length = 4 := by
      generalize l.headD [] = w at hd ⊢
      have hr : (w.rotateLeft 1).length = 4 := by
        simp only [List.rotateLeft]
        split
        · exact hd
        · simp [hd]
      rw [xorBytes_length, h7]
      split
      · simp [xorBytes_length, hr, aesConst]
      · split <;> simp [hd]
    simp only [aesGrow]
    obtain ⟨a, b⟩ := ih (i + 1) (_ :: l) (List.forall_mem_cons.mpr ⟨hn, h⟩) (by simp; omega)
    exact ⟨a, by rw [b]; simp; omega⟩

theorem aesKeys_last (key : List Byte) : ((aesKeys key).getD 14 []).length = 16 := by
  obtain ⟨a, b⟩ := aesGrow_words 52 8 ((List.range 8).map fun i => fit 4 (key.drop (4 * i))).reverse
    (by intro w hw; simp only [List.mem_reverse, List.mem_map] at hw; obtain ⟨i, -, rfl⟩ := hw; simp [fit]; omega) (by simp)
  have hl : (((aesKeys key).getD 14 [])) = ((((aesGrow 52 8 ((List.range 8).map fun i => fit 4 (key.drop (4 * i))).reverse).reverse.drop 56).take 4).flatten) := rfl
  rw [hl]
  generalize aesGrow 52 8 ((List.range 8).map fun i => fit 4 (key.drop (4 * i))).reverse = w at a b
  have hw : ∀ (l : List (List Byte)), (∀ x ∈ l, x.length = 4) → l.flatten.length = 4 * l.length := by
    intro l
    induction l with
    | nil => simp
    | cons x l ih =>
      intro h
      simp only [List.flatten_cons, List.length_append, List.length_cons, h x (by simp), ih fun y hy => h y (by simp [hy])]
      omega
  rw [hw _ fun x hx => a x (by simpa using List.mem_of_mem_drop (List.mem_of_mem_take hx))]
  simp only [List.length_reverse, List.length_map, List.length_range] at b
  simp [b]

theorem aesBlock_length (key b : List Byte) : (aesBlock (aesKeys key) b).length = 16 := by
  simp only [aesBlock, xorBytes_length, aesKeys_last]
  simp [aesMove]

/-- The key stream of a nonce: `n` blocks of it. -/
theorem gcmStream_eq (key nonce m : List Byte) (n : Nat) :
    ((List.range n).flatMap fun i => xorBytes ((m.drop (16 * i)).take 16) (aesBlock (aesKeys key) (nonce ++ be 4 (i + 2))))
      = xorBytes m ((List.range n).flatMap fun i => aesBlock (aesKeys key) (nonce ++ be 4 (i + 2)))
    ∧ ((List.range n).flatMap fun i => aesBlock (aesKeys key) (nonce ++ be 4 (i + 2))).length = 16 * n := by
  induction n with
  | zero => simp [xorBytes]
  | succ n ih =>
    simp only [List.range_succ, List.flatMap_append, List.flatMap_cons, List.flatMap_nil, List.append_nil]
    refine ⟨?_, by simp only [List.length_append, ih.2, aesBlock_length]; omega⟩
    rw [ih.1, xorBytes_append, ih.2, xorBytes_take _ _ _ (by rw [aesBlock_length])]

@[simp] theorem gcmStream_length (key nonce m : List Byte) : (gcmStream (aesKeys key) nonce m).length = m.length := by
  obtain ⟨a, b⟩ := gcmStream_eq key nonce m ((m.length + 15) / 16)
  rw [gcmStream, a, xorBytes_length, b]
  omega

theorem gcmStream_twice (key nonce m : List Byte) : gcmStream (aesKeys key) nonce (gcmStream (aesKeys key) nonce m) = m := by
  obtain ⟨a, b⟩ := gcmStream_eq key nonce m ((m.length + 15) / 16)
  have c := (gcmStream_eq key nonce (gcmStream (aesKeys key) nonce m) ((m.length + 15) / 16)).1
  rw [gcmStream, gcmStream_length, c, gcmStream, a]
  exact xorBytes_twice _ _ (by rw [b]; omega)

@[simp] theorem gcmTag_length (key nonce aad c : List Byte) : (gcmTag (aesKeys key) nonce aad c).length = 16 := by
  simp [gcmTag, xorBytes_length, aesBlock_length, be, le]

/-- What AES-256-GCM seals under a key, nonce and associated data, it opens under the same. -/
theorem gcmOpen_gcmSeal (key nonce aad m : List Byte) : gcmOpen key nonce aad (gcmSeal key nonce aad m) = some m := by
  simp [gcmOpen, gcmSeal, gcmStream_twice]

/-- A datagram an OPEN Ethernet session expects, sealed under its key, is accepted with its body. -/
theorem State.rxOk_sealed {s : State} {q port ty : Nat} {x : Sess} {e : EthSide} {h : DgHead} {key body : List Byte}
    (hx : s.sess? q = some x) (he : x.eth = some e) (ho : s.sessState q = 2) (hp : port = e.port) (hh : hostHeadOk h ty port = true)
    (hq : h.q = q) (hf : (match e.rxSeq with | some n => decide (n < h.dgramSeq) | none => true) = true)
    (hr : s.gwqRuns = true) (hk : e.keyFor h.epoch s.tick = some key) :
    s.rxOk ⟨port, h, gcmSeal key (sessNonce h.q h.channel h.dir h.dgramSeq) (headBytes h) body⟩ ty = some (x, e, body) := by
  subst hq
  simp only [State.rxOk, Datagram.q, hx, he, clearBody, hk, Option.bind_some, gcmOpen_gcmSeal, Option.map_some]
  rw [if_pos ⟨ho, hp, hh, hf, hr⟩]

end Sys2Proof.Machine
end

