-- ==== Sys2Proof/Laws/KeepOps.lean ====
section
/-! SUPPORT. What the functions of Machine/Ops.lean keep: variant, queue of commands, register file in canonical form,
ledger chain. -/

namespace Sys2Proof.Machine

theorem State.put_kept {s₀ s : State} (h : Kept s₀ s) (b : ℕ) (f : Field) (n : ℕ) :
    Kept s₀ (s.put b f n) := by
  unfold State.put
  repeat' first
    | with_reducible assumption
    | with_reducible apply State.wr_kept

theorem State.putFlag_kept {s₀ s : State} (h : Kept s₀ s) (b : ℕ) (f : Field) (x : Bool) :
    Kept s₀ (s.putFlag b f x) := by
  unfold State.putFlag
  repeat' first
    | with_reducible assumption
    | with_reducible apply State.put_kept

theorem State.count_kept {s₀ s : State} (h : Kept s₀ s) (b : ℕ) (f : Field) (n : ℕ) :
    Kept s₀ (s.count b f n) := by
  unfold State.count
  repeat' first
    | with_reducible assumption
    | with_reducible apply State.put_kept

theorem State.countWrap_kept {s₀ s : State} (h : Kept s₀ s) (b : ℕ) (f : Field) (n : ℕ) :
    Kept s₀ (s.countWrap b f n) := by
  unfold State.countWrap
  repeat' first
    | with_reducible assumption
    | with_reducible apply State.put_kept

theorem State.putPair_kept {s₀ s : State} (h : Kept s₀ s) (b : ℕ) (lo : Field) (hi : Field) (n : ℕ) :
    Kept s₀ (s.putPair b lo hi n) := by
  unfold State.putPair
  repeat' first
    | with_reducible assumption
    | with_reducible apply State.put_kept

theorem State.draw_kept {s₀ s : State} (h : Kept s₀ s) : Kept s₀ s.draw.2 := h.with ..

theorem State.sign_kept {s₀ s : State} (h : Kept s₀ s) : Kept s₀ s.sign.2 := h.with ..

theorem State.setSess_kept {s₀ s : State} (h : Kept s₀ s) (q : ℕ) (x : Sess) :
    Kept s₀ (s.setSess q x) := by
  unfold State.setSess
  repeat' first
    | with_reducible assumption
    | simp only [Kept.with_iff]
    | simp only [Kept.with_ctl_iff]

theorem State.dropSess_kept {s₀ s : State} (h : Kept s₀ s) (q : ℕ) :
    Kept s₀ (s.dropSess q) := by
  unfold State.dropSess
  repeat' first
    | with_reducible assumption
    | simp only [Kept.with_iff]
    | simp only [Kept.with_ctl_iff]

theorem State.onSess_kept {s₀ s : State} (h : Kept s₀ s) (q : ℕ) (f : Sess → Sess) :
    Kept s₀ (s.onSess q f) := by
  unfold State.onSess
  repeat' first
    | with_reducible assumption
    | with_reducible apply State.setSess_kept
    | split

theorem State.setFlt_kept {s₀ s : State} (h : Kept s₀ s) (x : FltUnit) :
    Kept s₀ (s.setFlt x) := by
  unfold State.setFlt
  repeat' first
    | with_reducible assumption
    | simp only [Kept.with_iff]
    | simp only [Kept.with_ctl_iff]

theorem State.checkWrite_kept {s₀ s : State} (h : Kept s₀ s) (n : ℕ) (key : ℕ) :
    Kept s₀ (s.checkWrite n key) := by
  unfold State.checkWrite
  repeat' first
    | with_reducible assumption
    | with_reducible apply State.setFlt_kept
    | with_reducible apply ite_kept

theorem State.checkClear_kept {s₀ s : State} (h : Kept s₀ s) (n : ℕ) (key : ℕ) :
    Kept s₀ (s.checkClear n key) := by
  unfold State.checkClear
  repeat' first
    | with_reducible assumption
    | with_reducible apply State.setFlt_kept
    | with_reducible apply ite_kept

theorem State.checkPass_kept {s₀ s : State} (h : Kept s₀ s) (n : ℕ) : Kept s₀ (s.checkPass n).2 := by
  unfold State.checkPass
  split
  · exact State.setFlt_kept h _
  · exact h

theorem State.checkRec_kept {s₀ s : State} (h : Kept s₀ s) (n : ℕ) (r : Rec) : Kept s₀ (s.checkRec n r).2 := by
  unfold State.checkRec
  split
  · exact State.setFlt_kept h _
  · exact h

end Sys2Proof.Machine
end

