-- ==== Sys2Proof/Laws/KeepCounters.lean ====
section
/-! SUPPORT. What the functions of Machine/Counters.lean keep: variant, queue of commands, register file in canonical form,
ledger chain. -/

namespace Sys2Proof.Machine

theorem State.hubEvent_kept {s₀ s : State} (h : Kept s₀ s) (ev : ℕ) (n : ℕ) :
    Kept s₀ (s.hubEvent ev n) := by
  unfold State.hubEvent
  repeat' first
    | with_reducible assumption
    | with_reducible apply State.putPair_kept
    | with_reducible apply State.putFlag_kept
    | with_reducible apply foldl_kept
    | intro _ _ _
    | with_reducible apply ite_kept

theorem State.notice_kept {s₀ s : State} (h : Kept s₀ s) (c : ℕ) :
    Kept s₀ (s.notice c) := by
  unfold State.notice
  repeat' first
    | with_reducible assumption
    | with_reducible apply State.put_kept
    | simp only [Kept.with_iff]

theorem State.combEvent_kept {s₀ s : State} (h : Kept s₀ s) (c : ℕ) (ev : ℕ) (n : ℕ) :
    Kept s₀ (s.combEvent c ev n) := by
  unfold State.combEvent
  repeat' first
    | with_reducible assumption
    | with_reducible apply State.notice_kept
    | with_reducible apply State.put_kept
    | with_reducible apply State.putFlag_kept
    | with_reducible apply foldl_kept
    | intro _ _ _
    | with_reducible apply ite_kept
    | split

theorem State.combsEvent_kept {s₀ s : State} (h : Kept s₀ s) (cs : List ℕ) (ev : ℕ) (n : ℕ) :
    Kept s₀ (s.combsEvent cs ev n) := by
  unfold State.combsEvent
  repeat' first
    | with_reducible assumption
    | with_reducible apply State.combEvent_kept
    | with_reducible apply foldl_kept
    | intro _ _ _

theorem State.setEng_kept {s₀ s : State} (h : Kept s₀ s) (c : ℕ) (x : Eng) :
    Kept s₀ (s.setEng c x) := by
  unfold State.setEng
  repeat' first
    | with_reducible assumption
    | simp only [Kept.with_iff]
    | simp only [Kept.with_ctl_iff]

end Sys2Proof.Machine
end

