-- ==== Sys2Proof/Laws/KeepBus.lean ====
section
/-! SUPPORT. What the functions of Machine/Bus.lean keep: variant, queue of commands, register file in canonical form,
ledger chain. -/

namespace Sys2Proof.Machine

theorem State.busError_kept {s₀ s : State} (h : Kept s₀ s) (r : BusReq) :
    Kept s₀ (s.busError r) := by
  unfold State.busError
  repeat' first
    | with_reducible assumption
    | with_reducible apply State.hubEvent_kept
    | with_reducible apply State.count_kept
    | with_reducible apply State.put_kept
    | with_reducible apply State.putFlag_kept
    | with_reducible apply ite_kept
    | split

theorem State.execHead_kept {s₀ s : State} (h : Kept s₀ s) (t : ℕ) :
    Kept s₀ (s.execHead t) := by
  unfold State.execHead
  repeat' first
    | with_reducible assumption
    | with_reducible apply State.busError_kept
    | intro _ _ _
    | simp only [Kept.with_iff]
    | with_reducible apply ite_kept
    | split

theorem State.combHead_kept {s₀ s : State} (h : Kept s₀ s) (t : ℕ) :
    Kept s₀ (s.combHead t) := by
  unfold State.combHead
  repeat' first
    | with_reducible assumption
    | with_reducible apply State.put_kept
    | intro _ _ _
    | simp only [Kept.with_iff]
    | with_reducible apply ite_kept
    | split

theorem State.bridgeHead_kept {s₀ s : State} (h : Kept s₀ s) (t : ℕ) :
    Kept s₀ (s.bridgeHead t) := by
  unfold State.bridgeHead
  repeat' first
    | with_reducible assumption
    | with_reducible apply State.execHead_kept
    | with_reducible apply State.combHead_kept

theorem State.busIssue_kept {s₀ s : State} (h : Kept s₀ s) (r : BusReq) :
    Kept s₀ (s.busIssue r) := by
  unfold State.busIssue
  repeat' first
    | with_reducible assumption
    | with_reducible apply State.busError_kept
    | simp only [Kept.with_iff]
    | split

theorem State.busGrant_kept {s₀ s : State} (h : Kept s₀ s) (g : ℕ) :
    Kept s₀ (s.busGrant g) := by
  unfold State.busGrant
  repeat' first
    | with_reducible assumption
    | with_reducible apply State.hubEvent_kept
    | with_reducible apply State.notice_kept
    | intro _ _ _
    | simp only [Kept.with_iff]
    | with_reducible apply ite_kept
    | split

theorem State.busTick_kept {s₀ s : State} (h : Kept s₀ s)  :
    Kept s₀ (s.busTick) := by
  unfold State.busTick
  repeat' first
    | with_reducible assumption
    | with_reducible apply State.bridgeHead_kept
    | with_reducible apply State.busGrant_kept
    | with_reducible apply foldl_kept
    | intro _ _ _
    | with_reducible apply ite_kept
    | split

theorem State.readSlots_kept {s₀ s : State} (h : Kept s₀ s)  :
    Kept s₀ (s.readSlots) := by
  unfold State.readSlots
  repeat' first
    | with_reducible assumption
    | intro _ _ _
    | simp only [Kept.with_iff]

theorem State.storeRecord_kept {s₀ s : State} (h : Kept s₀ s)  :
    Kept s₀ (s.storeRecord) := by
  unfold State.storeRecord
  repeat' first
    | with_reducible assumption
    | with_reducible apply State.busIssue_kept

theorem State.fetchRecords_kept {s₀ s : State} (h : Kept s₀ s) (master : ℕ) (n : ℕ) :
    Kept s₀ (s.fetchRecords master n) := by
  unfold State.fetchRecords
  repeat' first
    | with_reducible assumption
    | with_reducible apply State.busIssue_kept
    | with_reducible apply foldl_kept
    | intro _ _ _

theorem State.storeCommand_kept {s₀ s : State} (h : Kept s₀ s)  :
    Kept s₀ (s.storeCommand) := by
  unfold State.storeCommand
  repeat' first
    | with_reducible assumption
    | with_reducible apply State.busIssue_kept

theorem State.storeSlot_kept {s₀ s : State} (h : Kept s₀ s)  :
    Kept s₀ (s.storeSlot) := by
  unfold State.storeSlot
  repeat' first
    | with_reducible assumption
    | with_reducible apply State.busIssue_kept
    | with_reducible apply foldl_kept
    | intro _ _ _

theorem State.storeEntry_kept {s₀ s : State} (h : Kept s₀ s) (sec : Bool) :
    Kept s₀ (s.storeEntry sec) := by
  unfold State.storeEntry
  repeat' first
    | with_reducible assumption
    | with_reducible apply State.busIssue_kept
    | with_reducible apply ite_kept
    | split

theorem State.fetchFrame_kept {s₀ s : State} (h : Kept s₀ s) (len : ℕ) :
    Kept s₀ (s.fetchFrame len) := by
  unfold State.fetchFrame
  repeat' first
    | with_reducible assumption
    | with_reducible apply State.busIssue_kept

theorem State.barAccess_kept {s₀ s : State} (h : Kept s₀ s) (addr : ℕ) (write : Bool) :
    Kept s₀ (s.barAccess addr write) := by
  unfold State.barAccess
  repeat' first
    | with_reducible assumption
    | with_reducible apply State.busIssue_kept
    | simp only [Kept.with_ctl_iff]
    | with_reducible apply ite_kept
    | split

end Sys2Proof.Machine
end

