-- ==== Sys2Proof/Laws/KeepLedgerOps.lean ====
section
/-! SUPPORT. What the functions of Machine/LedgerOps.lean keep: variant, queue of commands, register file in canonical form,
ledger chain. -/

namespace Sys2Proof.Machine

theorem State.setParkRes_kept {s₀ s : State} (h : Kept s₀ s) (n : ℕ) : Kept s₀ (s.setParkRes n) :=
  h.withLed _ _ _ _ _ _ _ _ _ rfl rfl

theorem State.setCpNum_kept {s₀ s : State} (h : Kept s₀ s) (n : ℕ) : Kept s₀ (s.setCpNum n) :=
  h.withLed _ _ _ _ _ _ _ _ _ rfl rfl

theorem State.ledgerStat_kept {s₀ s : State} (h : Kept s₀ s)  :
    Kept s₀ (s.ledgerStat) := by
  unfold State.ledgerStat
  repeat' first
    | with_reducible assumption
    | with_reducible apply State.putPair_kept
    | with_reducible apply State.put_kept
    | with_reducible apply State.putFlag_kept

theorem mkEntry_follows (s : State) (ty flags q role sec ns : ℕ) (body : List Byte) :
    ∀ a, s.led.last = some a → a.follows (s.mkEntry ty flags q role sec ns body) := by
  intro a h; right; right; simp [State.mkEntry, h]

/-- An entry written rightly behind the last. -/
theorem State.pushEntry_kept {s₀ s : State} {e : LEntry} (h : Kept s₀ s)
    (he : ∀ a, s.led.last = some a → a.follows e) : Kept s₀ (s.pushEntry e) := by
  unfold State.pushEntry
  split
  · exact h
  · apply State.storeEntry_kept
    apply State.checkWrite_kept
    apply State.checkWrite_kept
    apply State.ledgerStat_kept
    exact ⟨h.variant, h.pending, h.regs, fun k => Ledger.ok_append (h.ledger k) he rfl rfl, h.tables, h.exps⟩

theorem State.flushOverflow_kept {s₀ s : State} (h : Kept s₀ s)  : Kept s₀ (s.flushOverflow) := by
  unfold State.flushOverflow
  split
  · exact h
  · have k := State.pushEntry_kept (e := s.mkEntry 0x00F0 0 0xffff 0 s.now.sec s.now.ns
      (layout 52 [(0, (s.led.ov.map (le 4)).flatten), (24, le 4 s.led.ovFirst), (28, le 4 s.led.ovLast)])) h (mkEntry_follows _ _ _ _ _ _ _ _)
    exact State.ledgerStat_kept (k.withLed _ _ _ _ _ _ _ _ _ rfl rfl)

theorem State.logAt_kept {s₀ s : State} (h : Kept s₀ s) (ty : ℕ) (q : ℕ) (role : ℕ) (sec : ℕ) (ns : ℕ) (body : List Byte) :
    Kept s₀ (s.logAt ty q role sec ns body) := by
  unfold State.logAt
  repeat' first
    | with_reducible assumption
    | with_reducible apply State.flushOverflow_kept
    | (with_reducible refine State.pushEntry_kept ?_ (mkEntry_follows _ _ _ _ _ _ _ _))

theorem State.log_kept {s₀ s : State} (h : Kept s₀ s) (ty : ℕ) (q : ℕ) (role : ℕ) (body : List Byte) :
    Kept s₀ (s.log ty q role body) := by
  unfold State.log
  repeat' first
    | with_reducible assumption
    | with_reducible apply State.logAt_kept

theorem State.logInvolAt_kept {s₀ s : State} (h : Kept s₀ s) (k : Option ℕ) (ty sec ns : ℕ) (body : List Byte) : Kept s₀ (s.logInvolAt k ty sec ns body) := by
  unfold State.logInvolAt
  have h' := State.flushOverflow_kept h
  dsimp only
  split
  · exact State.pushEntry_kept h' (mkEntry_follows _ _ _ _ _ _ _ _)
  · split
    · exact h'
    · exact State.ledgerStat_kept (h'.withLed _ _ _ _ _ _ _ _ _ rfl rfl)

theorem State.logInvol_kept {s₀ s : State} (h : Kept s₀ s) (k : Option ℕ) (ty : ℕ) (body : List Byte) :
    Kept s₀ (s.logInvol k ty body) := by
  unfold State.logInvol
  repeat' first
    | with_reducible assumption
    | with_reducible apply State.logInvolAt_kept

theorem State.ledgerRefused_kept {s₀ s : State} (h : Kept s₀ s)  :
    Kept s₀ (s.ledgerRefused) := by
  unfold State.ledgerRefused
  repeat' first
    | with_reducible assumption
    | with_reducible apply State.count_kept

theorem State.seal_kept {s₀ s : State} (h : Kept s₀ s) (f : Flash → Flash) :
    Kept s₀ (s.seal f) := by
  unfold State.seal
  repeat' first
    | with_reducible assumption
    | simp only [Kept.with_iff]
    | simp only [Kept.with_ctl_iff]

theorem State.sealCheckpoint_kept {s₀ s : State} (h : Kept s₀ s) (seq : ℕ) (hash cp : List Byte) :
    Kept s₀ (s.sealCheckpoint seq hash cp) := by
  unfold State.sealCheckpoint
  refine ite_kept h ?_
  dsimp only
  apply State.put_kept
  exact Kept.withLed (State.seal_kept h _) _ _ _ _ _ _ _ _ _ rfl rfl

theorem State.formCheckpoint_kept {s₀ s : State} (h : Kept s₀ s)  : Kept s₀ (s.formCheckpoint) := by
  unfold State.formCheckpoint
  split
  · exact h
  · split
    · exact h
    · dsimp only
      have k := State.sign_kept h
      apply State.sealCheckpoint_kept
      apply State.putPair_kept
      exact k.withLed _ _ _ _ _ _ _ _ _ rfl rfl

theorem State.release_kept {s₀ s : State} (h : Kept s₀ s) (n : ℕ) : Kept s₀ (s.release n) := by
  refine State.flushOverflow_kept (State.ledgerStat_kept ⟨h.variant, h.pending, h.regs, fun k => ?_, h.tables, h.exps⟩)
  refine ⟨chained_dropWhile _ (h.ledger k).1, ?_⟩
  rcases (h.ledger k).2 with h0 | h0
  · left; simp [h0]
  · by_cases he : s.led.entries.dropWhile (fun e => decide (e.seq ≤ n)) = []
    · left; exact he
    · right
      obtain ⟨l, hl⟩ := List.dropWhile_suffix (l := s.led.entries) (fun e => decide (e.seq ≤ n))
      show (s.led.entries.dropWhile (fun e => decide (e.seq ≤ n))).getLast? = s.led.last
      rw [← h0]
      conv_rhs => rw [← hl]
      rw [List.getLast?_append_of_ne_nil _ he]

end Sys2Proof.Machine
end

