-- ==== Sys2Proof/Laws/KeepPciCfg.lean ====
section
/-! SUPPORT. What the functions of Machine/PciCfg.lean keep: variant, queue of commands, register file in canonical form,
ledger chain. -/

namespace Sys2Proof.Machine

theorem State.cfgStore_kept {s₀ s : State} (h : Kept s₀ s) (fn : ℕ) (off : ℕ) (n : ℕ) :
    Kept s₀ (s.cfgStore fn off n) := by
  unfold State.cfgStore
  repeat' first
    | with_reducible assumption
    | with_reducible apply State.put_kept
    | simp only [Kept.with_iff]

theorem State.resetCfg_kept {s₀ s : State} (h : Kept s₀ s) (p : ℕ → Bool) :
    Kept s₀ (s.resetCfg p) := by
  unfold State.resetCfg
  repeat' first
    | with_reducible assumption
    | intro _ _ _
    | simp only [Kept.with_iff]

end Sys2Proof.Machine
end

