-- ==== Sys2Proof/Laws/KeepEventOps.lean ====
section
/-! SUPPORT. What the functions of Machine/EventOps.lean keep: variant, queue of commands, register file in canonical form,
ledger chain. -/

namespace Sys2Proof.Machine

theorem State.dmaFault_kept {s₀ s : State} (h : Kept s₀ s) (q : ℕ) :
    Kept s₀ (s.dmaFault q) := by
  unfold State.dmaFault
  repeat' first
    | with_reducible assumption
    | with_reducible apply State.putFlag_kept
    | with_reducible apply State.put_kept
    | with_reducible apply ite_kept
    | split

theorem State.sendMsi_kept {s₀ s : State} (h : Kept s₀ s) (fn : ℕ) (vec : ℕ) :
    Kept s₀ (s.sendMsi fn vec) := by
  unfold State.sendMsi
  repeat' first
    | with_reducible assumption
    | with_reducible apply State.hubEvent_kept
    | with_reducible apply State.put_kept
    | simp only [Kept.with_iff]

theorem State.signal_kept {s₀ s : State} (h : Kept s₀ s) (fn : ℕ) (vec : ℕ) :
    Kept s₀ (s.signal fn vec) := by
  unfold State.signal
  repeat' first
    | with_reducible assumption
    | with_reducible apply State.sendMsi_kept
    | with_reducible apply State.put_kept
    | simp only [Kept.with_iff]
    | with_reducible apply ite_kept
    | split

theorem State.sendPending_kept {s₀ s : State} (h : Kept s₀ s) (fn : ℕ) :
    Kept s₀ (s.sendPending fn) := by
  unfold State.sendPending
  repeat' first
    | with_reducible assumption
    | with_reducible apply State.sendMsi_kept
    | with_reducible apply foldl_kept
    | intro _ _ _
    | with_reducible apply ite_kept
    | split

theorem State.writeStat_kept {s₀ s : State} (h : Kept s₀ s) (q : ℕ) (ring : ℕ) :
    Kept s₀ (s.writeStat q ring) := by
  unfold State.writeStat
  repeat' first
    | with_reducible assumption
    | with_reducible apply State.dmaFault_kept
    | with_reducible apply State.hubEvent_kept
    | with_reducible apply State.setSess_kept
    | with_reducible apply State.signal_kept
    | with_reducible apply ite_kept
    | split

theorem State.sendEth_kept {s₀ s : State} (h : Kept s₀ s) (q : ℕ) (ty : ℕ) (count : ℕ) (index : ℕ) (body : List Byte) :
    Kept s₀ (s.sendEth q ty count index body) := by
  unfold State.sendEth
  repeat' first
    | with_reducible assumption
    | with_reducible apply State.hubEvent_kept
    | with_reducible apply State.setSess_kept
    | simp only [Kept.with_iff]
    | simp only [Kept.with_ctl_iff]
    | with_reducible apply ite_kept
    | split

theorem State.writeCpl_kept {s₀ s : State} (h : Kept s₀ s) (q : ℕ) (e : List Byte) :
    Kept s₀ (s.writeCpl q e) := by
  unfold State.writeCpl
  repeat' first
    | with_reducible assumption
    | with_reducible apply State.setSess_kept
    | with_reducible apply State.dmaFault_kept
    | with_reducible apply State.sendEth_kept
    | with_reducible apply State.hubEvent_kept
    | with_reducible apply State.writeStat_kept
    | simp only [Kept.with_iff]
    | with_reducible apply ite_kept
    | split

theorem State.resetCores_kept {s₀ s : State} (h : Kept s₀ s)  :
    Kept s₀ (s.resetCores) := by
  unfold State.resetCores
  repeat' first
    | with_reducible assumption
    | with_reducible apply State.put_kept
    | with_reducible apply State.count_kept
    | simp only [Kept.with_iff]
    | simp only [Kept.with_ctl_iff]
    | with_reducible apply ite_kept
    | split

theorem State.warmGoes_kept {s₀ s : State} (h : Kept s₀ s)  :
    Kept s₀ (s.warmGoes) := by
  unfold State.warmGoes
  repeat' first
    | with_reducible assumption
    | with_reducible apply State.resetCores_kept
    | simp only [Kept.with_ctl_iff]
    | with_reducible apply ite_kept
    | split

theorem State.complete_kept {s₀ s : State} (h : Kept s₀ s) (q : ℕ) (status : ℕ) (result : List Byte) :
    Kept s₀ (s.complete q status result) := by
  unfold State.complete
  repeat' first
    | with_reducible assumption
    | with_reducible apply State.setSess_kept
    | with_reducible apply State.writeCpl_kept
    | with_reducible apply State.warmGoes_kept
    | simp only [Kept.with_iff]
    | with_reducible apply ite_kept
    | split

theorem State.completeWith_kept {s₀ s : State} (h : Kept s₀ s) (q : ℕ) (status : ℕ) (result : List Byte) :
    Kept s₀ (s.completeWith q status result) := by
  unfold State.completeWith
  repeat' first
    | with_reducible assumption
    | with_reducible apply State.setSess_kept
    | with_reducible apply State.writeCpl_kept
    | with_reducible apply State.warmGoes_kept
    | simp only [Kept.with_iff]
    | split

theorem State.pushEvts_kept {s₀ s : State} (h : Kept s₀ s) (q : ℕ) (es : List (List Byte)) :
    Kept s₀ (s.pushEvts q es) := by
  unfold State.pushEvts
  repeat' first
    | with_reducible assumption
    | with_reducible apply State.dmaFault_kept
    | with_reducible apply State.setSess_kept
    | with_reducible apply State.sendEth_kept
    | with_reducible apply State.hubEvent_kept
    | with_reducible apply State.writeStat_kept
    | intro _ _ _
    | with_reducible apply ite_kept
    | split

theorem State.flushEvts_kept {s₀ s : State} (h : Kept s₀ s) (q : ℕ) :
    Kept s₀ (s.flushEvts q) := by
  unfold State.flushEvts
  repeat' first
    | with_reducible assumption
    | with_reducible apply State.pushEvts_kept
    | with_reducible apply State.onSess_kept
    | with_reducible apply ite_kept
    | split
    | dsimp only

theorem State.postAt_kept {s₀ s : State} (h : Kept s₀ s) (q : ℕ) (code : ℕ) (dom : ℕ) (tq : ℕ) (ns32 : ℕ) (frac8 : ℕ) (payload : List Byte) :
    Kept s₀ (s.postAt q code dom tq ns32 frac8 payload) := by
  unfold State.postAt
  repeat' first
    | with_reducible assumption
    | with_reducible apply State.pushEvts_kept
    | with_reducible apply State.count_kept
    | with_reducible apply State.onSess_kept
    | with_reducible apply ite_kept
    | split

theorem State.post_kept {s₀ s : State} (h : Kept s₀ s) (q : ℕ) (code : ℕ) (payload : List Byte) :
    Kept s₀ (s.post q code payload) := by
  unfold State.post
  repeat' first
    | with_reducible assumption
    | with_reducible apply State.postAt_kept

theorem State.postOwnersAt_kept {s₀ s : State} (h : Kept s₀ s) (code : ℕ) (ns32 : ℕ) (frac8 : ℕ) (payload : List Byte) :
    Kept s₀ (s.postOwnersAt code ns32 frac8 payload) := by
  unfold State.postOwnersAt
  repeat' first
    | with_reducible assumption
    | with_reducible apply State.postAt_kept
    | with_reducible apply foldl_kept
    | intro _ _ _
    | with_reducible apply ite_kept

theorem State.postOwners_kept {s₀ s : State} (h : Kept s₀ s) (code : ℕ) (payload : List Byte) :
    Kept s₀ (s.postOwners code payload) := by
  unfold State.postOwners
  repeat' first
    | with_reducible assumption
    | with_reducible apply State.postOwnersAt_kept

theorem State.postAnchor_kept {s₀ s : State} (h : Kept s₀ s) (q : ℕ) :
    Kept s₀ (s.postAnchor q) := by
  unfold State.postAnchor
  repeat' first
    | with_reducible assumption
    | with_reducible apply State.pushEvts_kept
    | with_reducible apply State.setSess_kept
    | with_reducible apply ite_kept
    | split

theorem State.writeBuf_kept {s₀ s : State} (h : Kept s₀ s) (q : ℕ) (addr : ℕ) (bs : List Byte) :
    Kept s₀ (s.writeBuf q addr bs) := by
  unfold State.writeBuf
  repeat' first
    | with_reducible assumption
    | with_reducible apply State.hubEvent_kept
    | with_reducible apply State.onSess_kept
    | with_reducible apply State.put_kept
    | with_reducible apply foldl_kept
    | intro _ _ _
    | simp only [Kept.with_iff]
    | with_reducible apply ite_kept
    | split

theorem State.doorbellErr_kept {s₀ s : State} (h : Kept s₀ s) (q : ℕ) (off : ℕ) (v : ℕ) :
    Kept s₀ (s.doorbellErr q off v) := by
  unfold State.doorbellErr
  repeat' first
    | with_reducible assumption
    | with_reducible apply State.putFlag_kept
    | with_reducible apply State.post_kept

end Sys2Proof.Machine
end

