-- ==== Sys2Proof/Laws/KeepLanes.lean ====
section
/-! SUPPORT. What the functions of Machine/Lanes.lean keep: variant, queue of commands, register file in canonical form,
ledger chain, tables in canonical form. -/

namespace Sys2Proof.Machine

theorem State.setLane_kept {s₀ s : State} (h : Kept s₀ s) (e : ℕ) (x : Lane) :
    Kept s₀ (s.setLane e x) := by
  unfold State.setLane
  refine h.withCtl _ _ _ _ _ _ _ _ _ fun w => ?_
  unfold Ctl.tablesWf at w ⊢
  simp only [Bool.and_eq_true] at w ⊢
  exact ⟨⟨SMap.put_wf (d := fun _ => ({} : Lane)) _ _ _ w.1.1, w.1.2⟩, w.2⟩

theorem State.onLane_kept {s₀ s : State} (h : Kept s₀ s) (e : ℕ) (f : Lane → Lane) :
    Kept s₀ (s.onLane e f) := by
  unfold State.onLane
  repeat' first
    | with_reducible assumption
    | with_reducible apply State.setLane_kept

theorem State.mapLanes_kept {s₀ s : State} (h : Kept s₀ s) (f : ℕ → Lane → Lane) :
    Kept s₀ (s.mapLanes f) := by
  unfold State.mapLanes
  refine h.withCtl _ _ _ _ _ _ _ _ _ fun w => ?_
  unfold Ctl.tablesWf at w ⊢
  simp only [Bool.and_eq_true] at w ⊢
  exact ⟨⟨SMap.mapFrom_wf _ _ _ _ (w.1.1), w.1.2⟩, w.2⟩

theorem State.mapComb_kept {s₀ s : State} (h : Kept s₀ s) (c : ℕ) (f : ℕ → Lane → Lane) :
    Kept s₀ (s.mapComb c f) := by
  unfold State.mapComb
  refine h.withCtl _ _ _ _ _ _ _ _ _ fun w => ?_
  unfold Ctl.tablesWf at w ⊢
  simp only [Bool.and_eq_true] at w ⊢
  exact ⟨⟨SMap.mapRange_wf _ _ _ _ _ (w.1.1), w.1.2⟩, w.2⟩

theorem State.setComb_kept {s₀ s : State} (h : Kept s₀ s) (c : ℕ) (x : Comb) :
    Kept s₀ (s.setComb c x) := by
  unfold State.setComb
  refine h.withCtl _ _ _ _ _ _ _ _ _ fun w => ?_
  unfold Ctl.tablesWf at w ⊢
  simp only [Bool.and_eq_true] at w ⊢
  exact ⟨⟨w.1.1, SMap.put_wf (d := fun _ => ({} : Comb)) _ _ _ w.1.2⟩, w.2⟩

theorem State.onComb_kept {s₀ s : State} (h : Kept s₀ s) (c : ℕ) (f : Comb → Comb) :
    Kept s₀ (s.onComb c f) := by
  unfold State.onComb
  repeat' first
    | with_reducible assumption
    | with_reducible apply State.setComb_kept

theorem State.mapCombs_kept {s₀ s : State} (h : Kept s₀ s) (f : ℕ → Comb → Comb) :
    Kept s₀ (s.mapCombs f) := by
  unfold State.mapCombs
  refine h.withCtl _ _ _ _ _ _ _ _ _ fun w => ?_
  unfold Ctl.tablesWf at w ⊢
  simp only [Bool.and_eq_true] at w ⊢
  exact ⟨⟨w.1.1, SMap.mapFrom_wf _ _ _ _ (w.1.2)⟩, w.2⟩

theorem State.setOut_kept {s₀ s : State} (h : Kept s₀ s) (o : ℕ) (x : Out) :
    Kept s₀ (s.setOut o x) := by
  unfold State.setOut
  refine h.withCtl _ _ _ _ _ _ _ _ _ fun w => ?_
  unfold Ctl.tablesWf at w ⊢
  simp only [Bool.and_eq_true] at w ⊢
  exact ⟨⟨w.1.1, w.1.2⟩, SMap.put_wf (d := fun _ => ({} : Out)) _ _ _ w.2⟩

theorem State.setPlan_kept {s₀ s : State} (h : Kept s₀ s) (p : PlanUnit) :
    Kept s₀ (s.setPlan p) := by
  unfold State.setPlan
  repeat' first
    | with_reducible assumption
    | simp only [Kept.with_iff]
    | simp only [Kept.with_ctl_iff]

theorem State.setBoot_kept {s₀ s : State} (h : Kept s₀ s) (b : BootUnit) :
    Kept s₀ (s.setBoot b) := by
  unfold State.setBoot
  repeat' first
    | with_reducible assumption
    | simp only [Kept.with_iff]
    | simp only [Kept.with_ctl_iff]

theorem State.settleAll_kept {s₀ s : State} (h : Kept s₀ s)  :
    Kept s₀ (s.settleAll) := by
  unfold State.settleAll
  repeat' first
    | with_reducible assumption
    | with_reducible apply State.mapLanes_kept

theorem State.settle_kept {s₀ s : State} (h : Kept s₀ s) (e : ℕ) :
    Kept s₀ (s.settle e) := by
  unfold State.settle
  repeat' first
    | with_reducible assumption
    | with_reducible apply State.onLane_kept

theorem State.abandoned_kept {s₀ s : State} (h : Kept s₀ s) (c : ℕ) (vec : ℕ) (m : Engine) :
    Kept s₀ (s.abandoned c vec m) := by
  unfold State.abandoned
  repeat' first
    | with_reducible assumption
    | with_reducible apply State.onComb_kept
    | with_reducible apply State.count_kept
    | intro _ _ _
    | with_reducible apply ite_kept
    | split

theorem State.interrupt_kept {s₀ s : State} (h : Kept s₀ s) (c : ℕ) (shown : List (ℕ × ℕ)) :
    Kept s₀ (s.interrupt c shown) := by
  unfold State.interrupt
  repeat' first
    | with_reducible assumption
    | with_reducible apply State.onComb_kept
    | with_reducible apply State.abandoned_kept
    | intro _ _ _
    | simp only [Kept.with_iff]
    | with_reducible apply ite_kept
    | split

/-- What a change of lane states since any state `r` reaches. -/
theorem State.interrupts_kept {s₀ r s : State} (h : Kept s₀ s) : Kept s₀ (State.interrupts r s) := by
  unfold State.interrupts
  refine foldl_kept h fun s _ k => ?_
  split
  · exact ite_kept (State.interrupt_kept k ..) (ite_kept k (State.onComb_kept k ..))
  · exact k

theorem State.beginHold_kept {s₀ s : State} (h : Kept s₀ s) (c : ℕ) :
    Kept s₀ (s.beginHold c) := by
  unfold State.beginHold
  repeat' first
    | with_reducible assumption
    | with_reducible apply State.interrupt_kept
    | with_reducible apply State.mapComb_kept
    | with_reducible apply State.settleAll_kept
    | intro _ _ _
    | simp only [Kept.with_iff]
    | with_reducible apply ite_kept
    | split

theorem State.strobe_kept {s₀ s : State} (h : Kept s₀ s)  :
    Kept s₀ (s.strobe) := by
  unfold State.strobe
  repeat' first
    | with_reducible assumption
    | simp only [Kept.with_iff]
    | simp only [Kept.with_ctl_iff]

theorem State.postOut_kept {s₀ s : State} (h : Kept s₀ s) (o : ℕ) :
    Kept s₀ (s.postOut o) := by
  unfold State.postOut
  repeat' first
    | with_reducible assumption
    | with_reducible apply State.post_kept
    | with_reducible apply foldl_kept
    | intro _ _ _
    | with_reducible apply ite_kept
    | split

theorem State.refreshOuts_kept {s₀ s : State} (h : Kept s₀ s)  :
    Kept s₀ (s.refreshOuts) := by
  unfold State.refreshOuts
  repeat' first
    | with_reducible assumption
    | with_reducible apply State.postOut_kept
    | with_reducible apply State.setOut_kept
    | with_reducible apply foldl_kept
    | intro _ _ _
    | with_reducible apply ite_kept

theorem State.react_kept {s₀ s : State} (h : Kept s₀ s)  :
    Kept s₀ (s.react) := by
  unfold State.react
  repeat' first
    | with_reducible assumption
    | with_reducible apply State.interrupts_kept
    | with_reducible apply State.refreshOuts_kept
    | with_reducible apply State.settleAll_kept

theorem State.refreshGo_kept {s₀ s : State} (h : Kept s₀ s)  :
    Kept s₀ (s.refreshGo) := by
  unfold State.refreshGo
  repeat' first
    | with_reducible assumption
    | with_reducible apply State.put_kept
    | with_reducible apply State.putFlag_kept
    | simp only [Kept.with_iff]
    | simp only [Kept.with_ctl_iff]
    | with_reducible apply ite_kept
    | split

theorem State.clearGo_kept {s₀ s : State} (h : Kept s₀ s)  :
    Kept s₀ (s.clearGo) := by
  unfold State.clearGo
  repeat' first
    | with_reducible assumption
    | simp only [Kept.with_iff]
    | simp only [Kept.with_ctl_iff]

theorem State.goExpire_kept {s₀ s : State} (h : Kept s₀ s)  :
    Kept s₀ (s.goExpire) := by
  unfold State.goExpire
  repeat' first
    | with_reducible assumption
    | with_reducible apply State.clearGo_kept
    | simp only [Kept.with_ctl_iff]
    | with_reducible apply ite_kept
    | split

theorem State.replan_kept {s₀ s : State} (h : Kept s₀ s)  :
    Kept s₀ (s.replan) := by
  unfold State.replan
  repeat' first
    | with_reducible assumption
    | with_reducible apply State.refreshGo_kept
    | with_reducible apply State.refreshOuts_kept

end Sys2Proof.Machine
end

