-- ==== Sys2Proof/Laws/KeepFaultOps.lean ====
section
/-! SUPPORT. What the functions of Machine/FaultOps.lean keep: variant, queue of commands, register file in canonical form,
ledger chain. -/

namespace Sys2Proof.Machine

theorem State.stopAlive_kept {s₀ s : State} (h : Kept s₀ s)  :
    Kept s₀ (s.stopAlive) := by
  unfold State.stopAlive
  repeat' first
    | with_reducible assumption
    | with_reducible apply State.setBoot_kept
    | with_reducible apply State.putFlag_kept

theorem State.releaseOwn_kept {s₀ s : State} (h : Kept s₀ s)  :
    Kept s₀ (s.releaseOwn) := by
  unfold State.releaseOwn
  repeat' first
    | with_reducible assumption
    | with_reducible apply State.putFlag_kept

theorem State.dropSwitched_kept {s₀ s : State} (h : Kept s₀ s)  : Kept s₀ (s.dropSwitched) := by
  refine ⟨h.variant, h.pending, fun k => SMap.filterMap_wfFrom _ s.regs none (fun e e' he hf => ?_) (h.regs k), h.ledger, h.tables, h.exps⟩
  dsimp only at hf
  split at hf
  · cases hf; exact ⟨rfl, he⟩
  · split at hf
    · cases hf
    · cases hf; exact ⟨rfl, ‹_›⟩

theorem State.losePower_kept {s₀ s : State} (h : Kept s₀ s)  : Kept s₀ (s.losePower) := by
  have k := State.dropSwitched_kept (State.put_kept h Adr.PWR_STAT Fl.PWR_STAT_PG 0)
  refine ⟨k.variant, k.pending, k.regs, fun _ => ⟨trivial, Or.inl rfl⟩, fun w => ?_, fun w => ?_⟩
  · have h3 := k.tables w
    unfold Ctl.tablesWf at h3 ⊢
    rw [Bool.and_eq_true] at h3 ⊢
    refine ⟨rfl, SMap.filterMap_wfFrom _ _ none (fun e e' _ hf => ?_) h3.2⟩
    split at hf
    · cases hf
    · rename_i hc
      cases hf
      exact ⟨rfl, fun hd => hc (congrArg Out.chg hd)⟩
  · have h3 := k.exps w
    unfold ExportEng.tablesWf at h3 ⊢
    simp only [Bool.and_eq_true] at h3 ⊢
    refine ⟨⟨SMap.filterMap_wfFrom _ _ none (fun e e' _ hf => ?_) h3.1.1, rfl⟩, rfl⟩
    split at hf
    · cases hf
      exact ⟨rfl, fun hd => nomatch congrArg Srx.lastRate hd⟩
    · cases hf

theorem State.reportFault_kept {s₀ s : State} (h : Kept s₀ s) (n : ℕ) (count : ℕ) :
    Kept s₀ (s.reportFault n count) := by
  unfold State.reportFault
  repeat' first
    | with_reducible assumption
    | with_reducible apply State.postOwners_kept
    | with_reducible apply State.logInvol_kept
    | with_reducible apply State.setFlt_kept

theorem State.noteFault_kept {s₀ s : State} (h : Kept s₀ s) (n : ℕ) :
    Kept s₀ (s.noteFault n) := by
  unfold State.noteFault
  repeat' first
    | with_reducible assumption
    | with_reducible apply State.reportFault_kept
    | with_reducible apply State.setFlt_kept
    | with_reducible apply ite_kept

theorem State.reportOwed_kept {s₀ s : State} (h : Kept s₀ s)  :
    Kept s₀ (s.reportOwed) := by
  unfold State.reportOwed
  repeat' first
    | with_reducible assumption
    | with_reducible apply State.reportFault_kept
    | with_reducible apply foldl_kept
    | intro _ _ _
    | with_reducible apply ite_kept

theorem State.capture_kept {s₀ s : State} (h : Kept s₀ s) (n : ℕ) (r : FaultRep) :
    Kept s₀ (s.capture n r) := by
  unfold State.capture
  repeat' first
    | with_reducible assumption
    | with_reducible apply State.putFlag_kept
    | with_reducible apply State.put_kept
    | with_reducible apply State.setFlt_kept
    | with_reducible apply ite_kept

theorem State.fatalReaction_kept {s₀ s : State} (h : Kept s₀ s)  :
    Kept s₀ (s.fatalReaction) := by
  unfold State.fatalReaction
  repeat' first
    | with_reducible assumption
    | with_reducible apply State.putFlag_kept
    | with_reducible apply State.stopAlive_kept
    | with_reducible apply State.releaseOwn_kept
    | with_reducible apply State.put_kept
    | with_reducible apply State.react_kept
    | with_reducible apply State.refreshGo_kept
    | simp only [Kept.with_iff]
    | with_reducible apply ite_kept
    | split

theorem State.cutSupply_kept {s₀ s : State} (h : Kept s₀ s)  :
    Kept s₀ (s.cutSupply) := by
  unfold State.cutSupply
  repeat' first
    | with_reducible assumption
    | with_reducible apply State.losePower_kept
    | with_reducible apply State.setBoot_kept

theorem State.assertFault_kept {s₀ s : State} (h : Kept s₀ s) (n : ℕ) (r : FaultRep) (active : Bool) :
    Kept s₀ (s.assertFault n r active) := by
  unfold State.assertFault
  repeat' first
    | with_reducible assumption
    | with_reducible apply State.putFlag_kept
    | with_reducible apply State.put_kept
    | with_reducible apply State.capture_kept
    | with_reducible apply State.setFlt_kept
    | with_reducible apply State.count_kept
    | with_reducible apply State.fatalReaction_kept
    | with_reducible apply State.cutSupply_kept
    | with_reducible apply State.noteFault_kept
    | with_reducible apply ite_kept

theorem State.faultGone_kept {s₀ s : State} (h : Kept s₀ s) (n : ℕ) :
    Kept s₀ (s.faultGone n) := by
  unfold State.faultGone
  repeat' first
    | with_reducible assumption
    | with_reducible apply State.putFlag_kept

theorem State.holdComb_kept {s₀ s : State} (h : Kept s₀ s) (c : ℕ) (mc : Bool) :
    Kept s₀ (s.holdComb c mc) := by
  unfold State.holdComb
  repeat' first
    | with_reducible assumption
    | with_reducible apply State.onComb_kept
    | with_reducible apply State.replan_kept
    | with_reducible apply State.beginHold_kept

theorem State.forceGates_kept {s₀ s : State} (h : Kept s₀ s) (e : ℕ) :
    Kept s₀ (s.forceGates e) := by
  unfold State.forceGates
  repeat' first
    | with_reducible assumption
    | with_reducible apply State.onLane_kept
    | with_reducible apply foldl_kept
    | intro _ _ _

theorem State.laneFault_kept {s₀ s : State} (h : Kept s₀ s) (e : ℕ) :
    Kept s₀ (s.laneFault e) := by
  unfold State.laneFault
  repeat' first
    | with_reducible assumption
    | with_reducible apply postMove_kept
    | with_reducible apply State.interrupts_kept
    | with_reducible apply State.forceGates_kept
    | with_reducible apply State.setPlan_kept
    | with_reducible apply State.react_kept
    | with_reducible apply State.refreshOuts_kept
    | with_reducible apply State.settle_kept
    | with_reducible apply State.onLane_kept
    | with_reducible apply ite_kept
    | intro _ _ _
    | simp only [Kept.with_iff]
    | split

theorem State.parkLate_kept {s₀ s : State} (h : Kept s₀ s)  :
    Kept s₀ (s.parkLate) := by
  unfold State.parkLate
  repeat' first
    | with_reducible assumption
    | with_reducible apply State.interrupts_kept
    | with_reducible apply State.setPlan_kept
    | with_reducible apply State.refreshOuts_kept
    | with_reducible apply State.settle_kept
    | with_reducible apply State.onLane_kept
    | with_reducible apply foldl_kept
    | intro _ _ _
    | with_reducible apply ite_kept
    | simp only [Kept.with_iff]
    | split

theorem State.combFault_kept {s₀ s : State} (h : Kept s₀ s) (c : ℕ) (kind : ℕ) (lane : Option ℕ) (r : FaultRep) :
    Kept s₀ (s.combFault c kind lane r) := by
  unfold State.combFault
  repeat' first
    | with_reducible assumption
    | with_reducible apply State.notice_kept
    | with_reducible apply State.assertFault_kept
    | with_reducible apply State.holdComb_kept
    | with_reducible apply State.laneFault_kept
    | with_reducible apply ite_kept
    | split
    | simp only [Kept.with_iff]

theorem State.withdrawFault_kept {s₀ s : State} (h : Kept s₀ s) (e : ℕ) :
    Kept s₀ (s.withdrawFault e) := by
  unfold State.withdrawFault
  repeat' first
    | with_reducible assumption
    | with_reducible apply State.onLane_kept
    | with_reducible apply State.mapLanes_kept
    | with_reducible apply ite_kept

end Sys2Proof.Machine
end

