-- ==== Sys2Proof/Laws/KeepBridge.lean ====
section
/-! SUPPORT. What the functions of Machine/Bridge.lean keep: variant, queue of commands, register file in canonical form,
ledger chain. -/

namespace Sys2Proof.Machine

theorem State.store_kept {s₀ s : State} (h : Kept s₀ s) (a : ℕ) (v : Word) :
    Kept s₀ (s.store a v) := by
  unfold State.store
  repeat' first
    | with_reducible assumption
    | with_reducible apply State.wr_kept
    | with_reducible apply foldl_kept
    | intro _ _ _
    | with_reducible apply ite_kept
    | split

theorem State.latch_kept {s₀ s : State} (h : Kept s₀ s) (view : ℕ) (a : ℕ) (n : ℕ) :
    Kept s₀ (s.latch view a n) := by
  unfold State.latch
  repeat' first
    | with_reducible assumption
    | simp only [Kept.with_iff]
    | simp only [Kept.with_ctl_iff]

end Sys2Proof.Machine
end

