-- ==== Sys2Proof/Laws/KeepSense.lean ====
section
/-! SUPPORT. What the functions of Machine/Sense.lean keep: variant, queue of commands, register file in canonical form,
ledger chain. -/

namespace Sys2Proof.Machine

theorem State.takeRef_kept {s₀ s : State} (h : Kept s₀ s) (c : ℕ) :
    Kept s₀ (s.takeRef c) := by
  unfold State.takeRef
  repeat' first
    | with_reducible assumption
    | with_reducible apply State.onComb_kept
    | with_reducible apply State.putFlag_kept
    | with_reducible apply ite_kept

theorem State.showUrg_kept {s₀ s : State} (h : Kept s₀ s) (c : ℕ) (b : Bool) :
    Kept s₀ (s.showUrg c b) := by
  unfold State.showUrg
  repeat' first
    | with_reducible assumption
    | with_reducible apply State.putFlag_kept

theorem State.takeEntry_kept {s₀ s : State} (h : Kept s₀ s) (c : ℕ) (b : Bool) (h : ℕ) (k : ℕ) (urgent : Bool) :
    Kept s₀ (s.takeEntry c b h k urgent) := by
  unfold State.takeEntry
  repeat' first
    | with_reducible assumption
    | with_reducible apply State.takeRef_kept
    | with_reducible apply State.onComb_kept
    | intro _ _ _
    | with_reducible apply ite_kept
    | split

theorem State.startSlot_kept {s₀ s : State} (h : Kept s₀ s) (c : ℕ) (b : Bool) (h : ℕ) :
    Kept s₀ (s.startSlot c b h) := by
  unfold State.startSlot
  repeat' first
    | with_reducible assumption
    | with_reducible apply State.takeEntry_kept
    | with_reducible apply State.takeRef_kept
    | with_reducible apply State.onComb_kept
    | with_reducible apply State.showUrg_kept
    | split
    | intro _ _ _

theorem State.urgent_kept {s₀ s : State} (h : Kept s₀ s) (c : ℕ) (b : Bool) (i : ℕ) :
    Kept s₀ (s.urgent c b i) := by
  unfold State.urgent
  repeat' first
    | with_reducible assumption
    | with_reducible apply State.count_kept
    | with_reducible apply State.onComb_kept
    | with_reducible apply State.startSlot_kept
    | with_reducible apply State.showUrg_kept
    | with_reducible apply ite_kept

theorem State.urgentLane_kept {s₀ s : State} (h : Kept s₀ s) (e : ℕ) :
    Kept s₀ (s.urgentLane e) := by
  unfold State.urgentLane
  repeat' first
    | with_reducible assumption
    | with_reducible apply State.urgent_kept
    | with_reducible apply foldl_kept
    | intro _ _ _

theorem State.senseBoundary_kept {s₀ s : State} (h : Kept s₀ s) (c t : ℕ) : Kept s₀ (s.senseBoundary c t) := by
  unfold State.senseBoundary
  lift_lets
  intro x trunc copy clear a b la lb s1 s2 s3 go
  have ht : ∀ s b, Kept s₀ s → Kept s₀ (trunc s b) := by
    intro s b k
    simp only [trunc]
    split
    · exact State.count_kept k ..
    · exact k
  have hc : ∀ s b new, Kept s₀ s → Kept s₀ (clear s b new) := by
    intro s b new k
    simp only [clear]
    refine foldl_kept k fun s y k => ?_
    repeat' split
    all_goals first | exact k | exact State.putFlag_kept k ..
  have hg : ∀ s b, Kept s₀ s → Kept s₀ (go s b) := by
    intro s b k
    simp only [go]
    split
    · exact State.startSlot_kept k ..
    · exact k
  have h1 : Kept s₀ s1 := hc _ _ _ (hc _ _ _ (ht _ _ (ht _ _ h)))
  have h3 : Kept s₀ s3 := State.countWrap_kept (State.onComb_kept h1 ..) ..
  exact hg _ _ (hg _ _ h3)

theorem senseConversion_kept {s₀ s : State} (h : Kept s₀ s) (c : ℕ) (adcB : Bool) (p : Photo) :
    Kept s₀ (senseConversion c adcB p s) := by
  unfold senseConversion
  repeat' first
    | with_reducible assumption
    | with_reducible apply State.draw_kept
    | with_reducible apply State.combEvent_kept
    | with_reducible apply State.startSlot_kept
    | with_reducible apply State.wr_kept
    | with_reducible apply ite_kept
    | split

theorem refSettled_kept {s₀ s : State} (h : Kept s₀ s) (c : ℕ) :
    Kept s₀ (refSettled c s) := by
  unfold refSettled
  repeat' first
    | with_reducible assumption
    | with_reducible apply State.putFlag_kept
    | with_reducible apply ite_kept

theorem refSel_kept {s₀ s : State} (h : Kept s₀ s) (c : ℕ) (v : Word) :
    Kept s₀ (refSel c v s) := by
  unfold refSel
  repeat' first
    | with_reducible assumption
    | with_reducible apply State.store_kept
    | with_reducible apply State.putFlag_kept
    | with_reducible apply ite_kept

theorem housekeepingScan_kept {s₀ s : State} (h : Kept s₀ s) (vals : HkIn) :
    Kept s₀ (housekeepingScan vals s) := by
  unfold housekeepingScan
  repeat' first
    | with_reducible assumption
    | with_reducible apply State.hubEvent_kept
    | with_reducible apply State.countWrap_kept
    | with_reducible apply State.putFlag_kept
    | with_reducible apply State.put_kept
    | with_reducible apply foldl_kept
    | intro _ _ _
    | simp only [Kept.with_iff]
    | simp only [Kept.with_ctl_iff]
    | with_reducible apply ite_kept
    | split

theorem State.hkSettled_kept {s₀ s : State} (h : Kept s₀ s)  :
    Kept s₀ (s.hkSettled) := by
  unfold State.hkSettled
  repeat' first
    | with_reducible assumption
    | with_reducible apply State.putFlag_kept
    | simp only [Kept.with_ctl_iff]
    | with_reducible apply ite_kept
    | split

end Sys2Proof.Machine
end

