-- ==== Sys2Proof/Laws/KeepLaneRegs.lean ====
section
/-! SUPPORT. What the functions of Machine/LaneRegs.lean keep: variant, queue of commands, register file in canonical form,
ledger chain. -/

namespace Sys2Proof.Machine

theorem State.paramWrite_kept {s₀ s : State} (h : Kept s₀ s) (c : ℕ) (host : Bool) (ws : List ℕ) :
    Kept s₀ (s.paramWrite c host ws) := by
  unfold State.paramWrite
  repeat' first
    | with_reducible assumption
    | with_reducible apply State.setFlt_kept
    | with_reducible apply ite_kept
    | split

theorem State.paramError_kept {s₀ s : State} (h : Kept s₀ s) (c : ℕ) (a : ℕ) :
    Kept s₀ (s.paramError c a) := by
  unfold State.paramError
  repeat' first
    | with_reducible assumption
    | with_reducible apply State.combFault_kept

theorem State.readBad_kept {s₀ s : State} (h : Kept s₀ s) (c : ℕ) (vec : ℕ) (a : ℕ) :
    Kept s₀ (s.readBad c vec a) := by
  unfold State.readBad
  repeat' first
    | with_reducible assumption
    | with_reducible apply State.onComb_kept
    | with_reducible apply State.count_kept
    | with_reducible apply State.paramError_kept
    | intro _ _ _
    | simp only [Kept.with_iff]
    | with_reducible apply ite_kept
    | split

theorem State.applyLaneWord_kept {s₀ s : State} (h : Kept s₀ s) (e : ℕ) (k : ℕ) (z : Int) :
    Kept s₀ (s.applyLaneWord e k z) := by
  unfold State.applyLaneWord
  repeat' first
    | with_reducible assumption
    | with_reducible apply State.onLane_kept
    | with_reducible apply State.put_kept
    | with_reducible apply stale_kept
    | with_reducible apply State.wr_kept
    | intro _ _ _
    | simp only [Kept.with_iff]
    | with_reducible apply ite_kept
    | split

theorem State.applyCombWord_kept {s₀ s : State} (h : Kept s₀ s) (c : ℕ) (k : ℕ) (z : Int) :
    Kept s₀ (s.applyCombWord c k z) := by
  unfold State.applyCombWord
  repeat' first
    | with_reducible assumption
    | with_reducible apply State.wr_kept
    | with_reducible apply ite_kept
    | split

theorem State.applyBuf_kept {s₀ s : State} (h : Kept s₀ s) (c : ℕ) (ws : List (ℕ × ℕ × Int)) :
    Kept s₀ (s.applyBuf c ws) := by
  unfold State.applyBuf
  repeat' first
    | with_reducible assumption
    | with_reducible apply State.applyCombWord_kept
    | with_reducible apply State.applyLaneWord_kept
    | with_reducible apply State.paramWrite_kept
    | with_reducible apply foldl_kept
    | intro _ _ _
    | with_reducible apply ite_kept
    | split

theorem State.machineCheck_kept {s₀ s : State} (h : Kept s₀ s) (c : ℕ) (k : MCheck) :
    Kept s₀ (s.machineCheck c k) := by
  unfold State.machineCheck
  repeat' first
    | with_reducible assumption
    | with_reducible apply State.put_kept
    | with_reducible apply State.wr_kept
    | with_reducible apply State.onComb_kept
    | with_reducible apply State.combFault_kept
    | with_reducible apply ite_kept

theorem State.countSteps_kept {s₀ s : State} (h : Kept s₀ s) (c : ℕ) (m : Engine) :
    Kept s₀ (s.countSteps c m) := by
  unfold State.countSteps
  repeat' first
    | with_reducible assumption
    | with_reducible apply State.notice_kept
    | with_reducible apply State.setEng_kept
    | with_reducible apply State.combEvent_kept
    | with_reducible apply foldl_kept
    | intro _ _ _
    | with_reducible apply ite_kept
    | split

theorem State.settleRun_kept {s₀ s : State} (h : Kept s₀ s) (c : ℕ) (r : Run) (m : Engine) :
    Kept s₀ (s.settleRun c r m) := by
  unfold State.settleRun
  repeat' first
    | with_reducible assumption
    | with_reducible apply State.machineCheck_kept
    | with_reducible apply State.onComb_kept
    | with_reducible apply State.abandoned_kept
    | intro _ _ _
    | simp only [Kept.with_iff]
    | with_reducible apply ite_kept
    | split

/-- The COMMITs of a routine keep what its work keeps. -/
theorem State.turns_kept {s₀ : State} (c : ℕ) (r : Run) (n : ℕ) (work : IterIn → State → State)
    (hw : ∀ i s, Kept s₀ s → Kept s₀ (work i s)) (k : ℕ) :
    ∀ (s : State) (m : Engine), Kept s₀ s → Kept s₀ (State.turns c r n work k s m).1 := by
  induction k with
  | zero => exact fun _ _ h => h
  | succ k ih =>
    intro s m h
    unfold State.turns
    extract_lets m' s1 s2
    split
    · refine ih _ _ ?_
      have h1 : Kept s₀ s1 := State.applyBuf_kept h ..
      exact ite_kept (hw _ _ h1) h1
    · exact h

theorem State.turn_kept {s₀ s : State} (h : Kept s₀ s) (c vec l n : ℕ) (work : IterIn → State → State)
    (hw : ∀ i s, Kept s₀ s → Kept s₀ (work i s)) : Kept s₀ (s.turn c vec l n work).1 := by
  unfold State.turn
  exact State.settleRun_kept (State.countSteps_kept (State.turns_kept _ _ _ _ hw _ _ _ h) ..) ..

/-- A routine keeps what its work keeps. -/
theorem State.routine_kept {s₀ s : State} (h : Kept s₀ s) (c vec l n : ℕ) (work : IterIn → State → State)
    (hw : ∀ i s, Kept s₀ s → Kept s₀ (work i s)) : Kept s₀ (s.routine c vec l n work) := State.turn_kept h c vec l n work hw

theorem State.idle_kept {s₀ s : State} (h : Kept s₀ s) (c : ℕ) : Kept s₀ (s.idle c) := State.onComb_kept h ..

/-- IDLE's steps keep what the rest keeps. -/
theorem State.afterIdle_kept {s₀ s : State} (h : Kept s₀ s) (c n : ℕ) (go : ℕ → State → State)
    (hg : ∀ n s, Kept s₀ s → Kept s₀ (go n s)) : Kept s₀ (s.afterIdle c n go) := by
  unfold State.afterIdle
  have ht : Kept s₀ (s.turn c 0 0 n fun _ s => s).1 := State.turn_kept h _ _ _ _ _ fun _ _ k => k
  exact ite_kept (ite_kept (hg _ _ ht) ht) (hg _ _ h)

end Sys2Proof.Machine
end

