-- ==== Sys2Proof/Laws/KeepCalOps.lean ====
section
/-! SUPPORT. What the functions of Machine/CalOps.lean keep: variant, queue of commands, register file in canonical form,
ledger chain. -/

namespace Sys2Proof.Machine

theorem State.orIdle_kept {s₀ s : State} (h : Kept s₀ s) (c : ℕ) (n : ℕ) :
    Kept s₀ (s.orIdle c n) := by
  unfold State.orIdle
  repeat' first
    | with_reducible assumption
    | with_reducible refine State.routine_kept ?_ _ _ _ _ _ fun _ _ _ => ?_
    | intro _ _ _
    | with_reducible apply ite_kept
    | split

theorem State.calRes_kept {s₀ s : State} (h : Kept s₀ s) (e : ℕ) (kind : ℕ) (outcome : ℕ) (oneSided : Bool) (limit : ℕ) :
    Kept s₀ (s.calRes e kind outcome oneSided limit) := by
  unfold State.calRes
  repeat' first
    | with_reducible assumption
    | with_reducible apply State.put_kept
    | with_reducible apply State.putFlag_kept
    | with_reducible apply ite_kept

theorem State.showProcs_kept {s₀ s : State} (h : Kept s₀ s) (c : ℕ) :
    Kept s₀ (s.showProcs c) := by
  unfold State.showProcs
  repeat' first
    | with_reducible assumption
    | with_reducible apply State.put_kept
    | with_reducible apply State.putFlag_kept

theorem State.clearPoints_kept {s₀ s : State} (h : Kept s₀ s) (c : ℕ) :
    Kept s₀ (s.clearPoints c) := by
  unfold State.clearPoints
  repeat' first
    | with_reducible assumption
    | with_reducible apply State.onComb_kept
    | with_reducible apply State.mapComb_kept
    | intro _ _ _
    | simp only [Kept.with_iff]

theorem State.startProcs_kept {s₀ s : State} (h : Kept s₀ s) (c : ℕ) (procs : List Proc) (lanes : List ℕ) (avg : ℕ) :
    Kept s₀ (s.startProcs c procs lanes avg) := by
  unfold State.startProcs
  repeat' first
    | with_reducible assumption
    | with_reducible apply cmd_kept
    | with_reducible apply State.clearPoints_kept
    | with_reducible apply State.mapComb_kept
    | with_reducible apply State.interrupt_kept
    | with_reducible apply State.onComb_kept
    | with_reducible apply State.showProcs_kept
    | with_reducible apply State.put_kept
    | with_reducible apply ite_kept
    | intro _ _ _
    | simp only [Kept.with_iff]
    | split

theorem State.nextProc_kept {s₀ s : State} (h : Kept s₀ s) (c : ℕ) :
    Kept s₀ (s.nextProc c) := by
  unfold State.nextProc
  repeat' first
    | with_reducible assumption
    | with_reducible apply State.clearPoints_kept
    | with_reducible apply State.onComb_kept
    | with_reducible apply State.put_kept
    | with_reducible apply State.showProcs_kept
    | with_reducible apply ite_kept
    | intro _ _ _
    | split

theorem State.dropEmpty_kept {s₀ s : State} (h : Kept s₀ s) (c n : ℕ) : Kept s₀ (s.dropEmpty c n) := by
  induction n generalizing s with
  | zero => exact h
  | succ n ih =>
    unfold State.dropEmpty
    repeat' split
    all_goals first | exact h | exact ih (State.nextProc_kept h ..)

theorem State.endFits_kept {s₀ s : State} (h : Kept s₀ s) (c : ℕ) :
    Kept s₀ (s.endFits c) := by
  unfold State.endFits
  repeat' first
    | with_reducible assumption
    | with_reducible apply State.dropEmpty_kept
    | with_reducible apply State.nextProc_kept
    | with_reducible apply ite_kept
    | split
    | dsimp only

theorem State.calSweep_kept {s₀ s : State} (h : Kept s₀ s) (c : ℕ) : Kept s₀ (s.calSweep c) := by
  unfold State.calSweep
  lift_lets
  intro x kind gone s1 s2 s3
  split
  · exact h
  · have h1 : Kept s₀ s1 := foldl_kept h fun _ _ k => State.calRes_kept k ..
    have h2 : Kept s₀ s2 := State.onComb_kept h1 ..
    have h3 : Kept s₀ s3 := by
      simp only [s3]
      split
      · exact State.nextProc_kept (State.put_kept h2 ..) ..
      · exact h2
    exact State.endFits_kept (State.dropEmpty_kept h3 ..) ..

/-- A fold that carries data beside the state. -/
theorem foldl_kept_fst {s₀ : State} {β γ : Type} {f : State × β → γ → State × β} {l : List γ} {i : State × β} (h : Kept s₀ i.1)
    (hf : ∀ acc x, Kept s₀ acc.1 → Kept s₀ (f acc x).1) : Kept s₀ (l.foldl f i).1 := by
  induction l generalizing i with
  | nil => exact h
  | cons x l ih => exact ih (hf i x h)

theorem State.startGroup_kept {s₀ s : State} (h : Kept s₀ s) (g avg : ℕ) : Kept s₀ (s.startGroup g avg).1 := by
  refine foldl_kept_fst h fun acc c k => ?_
  dsimp only
  split
  · dsimp only
    apply State.startProcs_kept
    refine foldl_kept k fun s l k => ?_
    split
    · exact k
    · exact State.calRes_kept k ..
  · exact k

theorem State.applyDone_kept {s₀ s : State} (h : Kept s₀ s) (a : ApplyItem) :
    Kept s₀ (s.applyDone a) := by
  unfold State.applyDone
  repeat' first
    | with_reducible assumption
    | with_reducible apply State.count_kept
    | with_reducible apply State.put_kept
    | with_reducible apply State.setBoot_kept
    | with_reducible apply State.complete_kept
    | simp only [Kept.with_iff]
    | with_reducible apply ite_kept
    | split

theorem State.stampApplies_kept {s₀ s : State} (h : Kept s₀ s)  :
    Kept s₀ (s.stampApplies) := by
  unfold State.stampApplies
  repeat' first
    | with_reducible assumption
    | intro _ _ _
    | simp only [Kept.with_iff]
    | simp only [Kept.with_ctl_iff]
    | with_reducible apply ite_kept
    | split

theorem State.flushApplies_kept {s₀ s : State} (h : Kept s₀ s)  :
    Kept s₀ (s.flushApplies) := by
  unfold State.flushApplies
  repeat' first
    | with_reducible assumption
    | with_reducible apply State.putFlag_kept
    | with_reducible apply State.applyDone_kept
    | with_reducible apply foldl_kept
    | intro _ _ _
    | simp only [Kept.with_iff]
    | simp only [Kept.with_ctl_iff]
    | with_reducible apply ite_kept

theorem State.dropFromApplies_kept {s₀ s : State} (h : Kept s₀ s) (c : ℕ) :
    Kept s₀ (s.dropFromApplies c) := by
  unfold State.dropFromApplies
  repeat' first
    | with_reducible assumption
    | with_reducible apply State.flushApplies_kept
    | intro _ _ _
    | simp only [Kept.with_iff]
    | simp only [Kept.with_ctl_iff]

theorem State.issueApply_kept {s₀ s : State} (h : Kept s₀ s) (q : ℕ) (eq : ℕ) (role : ℕ) (source : ℕ) (t : ℕ) :
    Kept s₀ (s.issueApply q eq role source t) := by
  unfold State.issueApply
  repeat' first
    | with_reducible assumption
    | with_reducible apply State.logAt_kept
    | with_reducible apply State.flushApplies_kept
    | with_reducible apply State.putFlag_kept
    | simp only [Kept.with_iff]
    | simp only [Kept.with_ctl_iff]

theorem State.applyAfter_kept {s₀ s : State} (h : Kept s₀ s) (q : ℕ) (source : ℕ) :
    Kept s₀ (s.applyAfter q source) := by
  unfold State.applyAfter
  repeat' first
    | with_reducible assumption
    | with_reducible apply State.ledgerRefused_kept
    | with_reducible apply State.issueApply_kept
    | with_reducible apply ite_kept

theorem State.setRuns_kept {s₀ s : State} (h : Kept s₀ s) (rs : List RunItem) :
    Kept s₀ (s.setRuns rs) := by
  unfold State.setRuns
  repeat' first
    | with_reducible assumption
    | simp only [Kept.with_iff]
    | simp only [Kept.with_ctl_iff]

theorem State.startFull_kept {s₀ s : State} (h : Kept s₀ s) (avg : ℕ) (q : ℕ) (apply : Bool) :
    Kept s₀ (s.startFull avg q apply) := by
  unfold State.startFull
  repeat' first
    | with_reducible assumption
    | with_reducible apply State.setRuns_kept

theorem State.selfCalRun_kept {s₀ s : State} (h : Kept s₀ s)  :
    Kept s₀ (s.selfCalRun) := by
  unfold State.selfCalRun
  repeat' first
    | with_reducible assumption
    | with_reducible apply State.startFull_kept
    | with_reducible apply State.setBoot_kept
    | with_reducible apply ite_kept

theorem State.endStage7_kept {s₀ s : State} (h : Kept s₀ s)  :
    Kept s₀ (s.endStage7) := by
  unfold State.endStage7
  repeat' first
    | with_reducible assumption
    | with_reducible apply State.put_kept
    | with_reducible apply State.setBoot_kept
    | with_reducible apply State.selfCalRun_kept
    | simp only [Kept.with_iff]
    | simp only [Kept.with_ctl_iff]
    | with_reducible apply ite_kept
    | split

theorem State.calProgress_kept {s₀ s : State} (h : Kept s₀ s)  :
    Kept s₀ (s.calProgress) := by
  unfold State.calProgress
  repeat' first
    | with_reducible assumption
    | with_reducible apply State.selfCalRun_kept
    | with_reducible apply State.setRuns_kept
    | with_reducible apply State.applyAfter_kept
    | with_reducible apply foldl_kept
    | intro _ _ _
    | with_reducible apply ite_kept

theorem State.copyLane_kept {s₀ s : State} (h : Kept s₀ s) (e : ℕ) :
    Kept s₀ (s.copyLane e) := by
  unfold State.copyLane
  repeat' first
    | with_reducible assumption
    | with_reducible apply State.wr_kept
    | with_reducible apply State.putFlag_kept
    | with_reducible apply State.put_kept
    | with_reducible apply foldl_kept
    | intro _ _ _
    | with_reducible apply ite_kept

theorem State.copyComb_kept {s₀ s : State} (h : Kept s₀ s) (c : ℕ) :
    Kept s₀ (s.copyComb c) := by
  unfold State.copyComb
  repeat' first
    | with_reducible assumption
    | with_reducible apply State.copyLane_kept
    | with_reducible apply State.wr_kept
    | with_reducible apply State.put_kept
    | with_reducible apply foldl_kept
    | intro _ _ _

theorem State.applyStates_kept {s₀ s : State} (h : Kept s₀ s) (c : ℕ) :
    Kept s₀ (s.applyStates c) := by
  unfold State.applyStates
  repeat' first
    | with_reducible assumption
    | with_reducible apply State.forceGates_kept
    | with_reducible apply State.mapComb_kept
    | with_reducible apply State.settleAll_kept
    | with_reducible apply foldl_kept
    | intro _ _ _
    | with_reducible apply ite_kept

theorem State.applyBoundary_kept {s₀ s : State} (h : Kept s₀ s) (c : ℕ) :
    Kept s₀ (s.applyBoundary c) := by
  unfold State.applyBoundary
  repeat' first
    | with_reducible assumption
    | with_reducible apply cmd_kept
    | with_reducible apply State.copyComb_kept
    | with_reducible apply State.applyStates_kept
    | with_reducible apply State.onComb_kept
    | with_reducible apply State.flushApplies_kept
    | simp only [Kept.with_iff]
    | simp only [Kept.with_ctl_iff]
    | with_reducible apply ite_kept
    | intro _ _ _
    | split

end Sys2Proof.Machine
end

