-- ==== Sys2Proof/Laws/KeepPlanOps.lean ====
section
/-! SUPPORT. What the functions of Machine/PlanOps.lean keep: variant, queue of commands, register file in canonical form,
ledger chain. -/

namespace Sys2Proof.Machine

theorem State.setSlot_kept {s₀ s : State} (h : Kept s₀ s) (id : ℕ) (x : Slot) :
    Kept s₀ (s.setSlot id x) := by
  unfold State.setSlot
  repeat' first
    | with_reducible assumption
    | with_reducible apply State.checkWrite_kept
    | with_reducible apply State.setPlan_kept

theorem State.freeSlot_kept {s₀ s : State} (h : Kept s₀ s) (id : ℕ) :
    Kept s₀ (s.freeSlot id) := by
  unfold State.freeSlot
  repeat' first
    | with_reducible assumption
    | with_reducible apply State.checkClear_kept
    | with_reducible apply State.setPlan_kept

theorem State.setArmed_kept {s₀ s : State} (h : Kept s₀ s) (id : Option ℕ) :
    Kept s₀ (s.setArmed id) := by
  unfold State.setArmed
  repeat' first
    | with_reducible assumption
    | with_reducible apply State.put_kept
    | with_reducible apply State.putFlag_kept

theorem State.slotParity_kept {s₀ s : State} (h : Kept s₀ s) (id : ℕ) (master : ℕ) :
    Kept s₀ (s.slotParity id master) := by
  unfold State.slotParity
  repeat' first
    | with_reducible assumption
    | with_reducible apply State.assertFault_kept
    | with_reducible apply State.freeSlot_kept
    | with_reducible apply State.refreshGo_kept
    | with_reducible apply State.setArmed_kept
    | with_reducible apply ite_kept

theorem State.acceptCommit_kept {s₀ s : State} (h : Kept s₀ s) (id : ℕ) (ws : List ℕ) (path : ℕ) (tMake : ℕ) (k : Cost) (q : ℕ) (role : ℕ) (ackBy : Option ℕ) (setGen : Option ℕ) :
    Kept s₀ (s.acceptCommit id ws path tMake k q role ackBy setGen) := by
  unfold State.acceptCommit
  repeat' first
    | with_reducible assumption
    | with_reducible apply State.logAt_kept
    | with_reducible apply State.putFlag_kept
    | with_reducible apply State.put_kept
    | with_reducible apply State.putPair_kept
    | with_reducible apply State.setPlan_kept
    | with_reducible apply State.refreshGo_kept
    | with_reducible apply State.clearGo_kept
    | with_reducible apply State.readSlots_kept
    | with_reducible apply State.checkWrite_kept
    | with_reducible apply foldl_kept
    | intro _ _ _
    | simp only [Kept.with_iff]
    | split

theorem State.endSync_kept {s₀ s : State} (h : Kept s₀ s)  :
    Kept s₀ (s.endSync) := by
  unfold State.endSync
  repeat' first
    | with_reducible assumption
    | with_reducible apply State.putFlag_kept
    | simp only [Kept.with_iff]

theorem State.execParity_kept {s₀ s : State} (h : Kept s₀ s) (c : Commit) :
    Kept s₀ (s.execParity c) := by
  unfold State.execParity
  repeat' first
    | with_reducible assumption
    | with_reducible apply State.checkClear_kept
    | with_reducible apply State.assertFault_kept
    | with_reducible apply foldl_kept
    | intro _ _ _
    | with_reducible apply ite_kept
    | split

theorem State.voidCommit_kept {s₀ s : State} (h : Kept s₀ s) (seq : ℕ) (cause : ℕ) :
    Kept s₀ (s.voidCommit seq cause) := by
  unfold State.voidCommit
  repeat' first
    | with_reducible assumption
    | with_reducible apply State.setPlan_kept
    | with_reducible apply State.putFlag_kept
    | with_reducible apply State.logInvol_kept
    | with_reducible apply State.refreshGo_kept
    | intro _ _ _
    | simp only [Kept.with_iff]
    | split

theorem State.convert_kept {s₀ s : State} (h : Kept s₀ s) (es : List ℕ) :
    Kept s₀ (s.convert es) := by
  unfold State.convert
  repeat' first
    | with_reducible assumption
    | with_reducible apply foldl_kept
    | intro _ _ _
    | simp only [Kept.with_iff]
    | simp only [Kept.with_ctl_iff]
    | with_reducible apply ite_kept

end Sys2Proof.Machine
end

