-- ==== Sys2Proof/Laws/KeepPlans.lean ====
section
/-! SUPPORT. What the functions of Machine/Plans.lean keep: variant, queue of commands, register file in canonical form,
ledger chain. -/

namespace Sys2Proof.Machine

theorem State.breakOut_kept {s₀ s : State} (h : Kept s₀ s) (gen : ℕ) (new : List ℕ) (affected : List ℕ) (notMade : List ℕ) (o : ℕ) :
    Kept s₀ (s.breakOut gen new affected notMade o) := by
  unfold State.breakOut
  repeat' first
    | with_reducible assumption
    | with_reducible apply State.setOut_kept

theorem breakStrobe_kept {s₀ s : State} (h : Kept s₀ s)  :
    Kept s₀ (breakStrobe s) := by
  unfold breakStrobe
  repeat' first
    | with_reducible assumption
    | with_reducible apply State.execParity_kept
    | with_reducible apply State.put_kept
    | with_reducible apply State.breakOut_kept
    | with_reducible apply State.mapLanes_kept
    | with_reducible apply State.setPlan_kept
    | with_reducible apply State.putFlag_kept
    | with_reducible apply State.hubEvent_kept
    | with_reducible apply State.interrupts_kept
    | with_reducible apply State.settleAll_kept
    | with_reducible apply State.replan_kept
    | with_reducible apply State.convert_kept
    | with_reducible apply foldl_kept
    | intro _ _ _
    | simp only [Kept.with_iff]
    | with_reducible apply ite_kept
    | split

theorem moveStart_kept {s₀ s : State} (h : Kept s₀ s)  :
    Kept s₀ (moveStart s) := by
  unfold moveStart
  repeat' first
    | with_reducible assumption
    | with_reducible apply State.interrupts_kept
    | with_reducible apply State.mapLanes_kept
    | with_reducible apply State.setPlan_kept
    | with_reducible apply State.combsEvent_kept
    | with_reducible apply State.convert_kept
    | with_reducible apply State.replan_kept
    | with_reducible apply ite_kept
    | split
    | simp only [Kept.with_iff]

theorem profileStep_kept {s₀ s : State} (h : Kept s₀ s)  :
    Kept s₀ (profileStep s) := by
  unfold profileStep
  repeat' first
    | with_reducible assumption
    | with_reducible apply State.mapLanes_kept
    | with_reducible apply State.setPlan_kept
    | with_reducible apply State.combsEvent_kept
    | with_reducible apply State.convert_kept
    | with_reducible apply ite_kept
    | split

theorem moveEnd_kept {s₀ s : State} (h : Kept s₀ s)  :
    Kept s₀ (moveEnd s) := by
  unfold moveEnd
  repeat' first
    | with_reducible assumption
    | with_reducible apply State.onLane_kept
    | with_reducible apply State.urgentLane_kept
    | with_reducible apply State.setPlan_kept
    | with_reducible apply State.replan_kept
    | with_reducible apply foldl_kept
    | intro _ _ _
    | with_reducible apply ite_kept
    | split

theorem State.withhold_kept {s₀ s : State} (h : Kept s₀ s) (ws : List ℕ) (os : List ℕ) :
    Kept s₀ (s.withhold ws os) := by
  unfold State.withhold
  repeat' first
    | with_reducible assumption
    | with_reducible apply State.setOut_kept
    | with_reducible apply foldl_kept
    | intro _ _ _
    | simp only [Kept.with_iff]

theorem make_kept {s₀ s : State} (h : Kept s₀ s)  :
    Kept s₀ (make s) := by
  unfold make
  repeat' first
    | with_reducible assumption
    | with_reducible apply State.withhold_kept
    | with_reducible apply State.onLane_kept
    | with_reducible apply State.urgentLane_kept
    | with_reducible apply State.setPlan_kept
    | with_reducible apply State.endSync_kept
    | with_reducible apply State.put_kept
    | with_reducible apply State.hubEvent_kept
    | with_reducible apply State.replan_kept
    | with_reducible apply State.convert_kept
    | with_reducible apply State.postOwnersAt_kept
    | with_reducible apply foldl_kept
    | intro _ _ _
    | simp only [Kept.with_iff]
    | with_reducible apply ite_kept
    | split

theorem goOkReenable_kept {s₀ s : State} (h : Kept s₀ s)  :
    Kept s₀ (goOkReenable s) := by
  unfold goOkReenable
  repeat' first
    | with_reducible assumption
    | with_reducible apply State.refreshGo_kept

theorem State.parkDone_kept {s₀ s : State} (h : Kept s₀ s) (p : ParkItem) (done : Bool) :
    Kept s₀ (s.parkDone p done) := by
  unfold State.parkDone
  repeat' first
    | with_reducible assumption
    | with_reducible apply State.setPlan_kept
    | with_reducible apply State.setParkRes_kept
    | with_reducible apply State.logAt_kept
    | with_reducible apply State.ledgerStat_kept
    | with_reducible apply State.flushOverflow_kept
    | with_reducible apply State.refreshGo_kept
    | with_reducible apply State.complete_kept
    | with_reducible apply ite_kept

theorem State.parkNow_kept {s₀ s : State} (h : Kept s₀ s) (p : ParkItem) :
    Kept s₀ (s.parkNow p) := by
  unfold State.parkNow
  repeat' first
    | with_reducible assumption
    | with_reducible apply State.onComb_kept
    | with_reducible apply cmd_kept
    | with_reducible apply planPark_kept
    | with_reducible apply State.interrupts_kept
    | with_reducible apply State.parkDone_kept
    | with_reducible apply State.onLane_kept
    | with_reducible apply State.convert_kept
    | with_reducible apply State.refreshOuts_kept
    | with_reducible apply State.settle_kept
    | with_reducible apply ite_kept
    | intro _ _ _
    | simp only [Kept.with_iff]
    | split

theorem outputPark_kept {s₀ s : State} (h : Kept s₀ s)  :
    Kept s₀ (outputPark s) := by
  unfold outputPark
  repeat' first
    | with_reducible assumption
    | with_reducible apply State.parkNow_kept
    | with_reducible apply foldl_kept
    | intro _ _ _

theorem State.dropAffected_kept {s₀ s : State} (h : Kept s₀ s) (o : ℕ) :
    Kept s₀ (s.dropAffected o) := by
  unfold State.dropAffected
  repeat' first
    | with_reducible assumption
    | with_reducible apply State.setPlan_kept
    | simp only [Kept.with_iff]
    | with_reducible apply ite_kept
    | split

theorem State.unparkNow_kept {s₀ s : State} (h : Kept s₀ s) (p : ParkItem) :
    Kept s₀ (s.unparkNow p) := by
  unfold State.unparkNow
  repeat' first
    | with_reducible assumption
    | with_reducible apply planPark_kept
    | with_reducible apply State.dropAffected_kept
    | with_reducible apply State.onComb_kept
    | with_reducible apply cmd_kept
    | with_reducible apply State.onLane_kept
    | with_reducible apply State.setOut_kept
    | with_reducible apply State.convert_kept
    | with_reducible apply State.refreshOuts_kept
    | with_reducible apply State.parkDone_kept
    | with_reducible apply ite_kept
    | intro _ _ _
    | simp only [Kept.with_iff]
    | split

theorem outputUnpark_kept {s₀ s : State} (h : Kept s₀ s)  :
    Kept s₀ (outputUnpark s) := by
  unfold outputUnpark
  repeat' first
    | with_reducible assumption
    | with_reducible apply State.unparkNow_kept
    | with_reducible apply foldl_kept
    | intro _ _ _

end Sys2Proof.Machine
end

