-- ==== Sys2Proof/Laws/KeepLoops.lean ====
section
/-! SUPPORT. What the functions of Machine/Loops.lean keep: variant, queue of commands, register file in canonical form,
ledger chain. -/

namespace Sys2Proof.Machine

theorem State.commitIter_kept {s₀ s : State} (h : Kept s₀ s) (e : ℕ) (inp : IterIn) :
    Kept s₀ (s.commitIter e inp) := by
  unfold State.commitIter
  repeat' first
    | with_reducible assumption
    | with_reducible apply State.setLane_kept
    | with_reducible apply State.paramWrite_kept
    | with_reducible apply State.combEvent_kept
    | with_reducible apply State.combFault_kept
    | with_reducible apply State.refreshOuts_kept
    | with_reducible apply ite_kept

theorem State.loopRun_kept {s₀ s : State} (h : Kept s₀ s) (post : Bool) (c : ℕ) (l : ℕ) (n : ℕ) :
    Kept s₀ (s.loopRun post c l n) := by
  unfold State.loopRun
  repeat' first
    | with_reducible assumption
    | with_reducible refine State.routine_kept ?_ _ _ _ _ _ fun _ _ _ => ?_
    | with_reducible apply State.commitIter_kept
    | intro _ _ _
    | with_reducible apply ite_kept
    | split

theorem State.loopIter_kept {s₀ s : State} (h : Kept s₀ s) (post : Bool) (c : ℕ) (l : ℕ) (n : ℕ) :
    Kept s₀ (s.loopIter post c l n) := by
  unfold State.loopIter
  repeat' first
    | with_reducible assumption
    | with_reducible apply State.readBad_kept
    | with_reducible apply State.loopRun_kept
    | with_reducible apply State.paramError_kept
    | with_reducible apply State.combEvent_kept
    | with_reducible apply State.count_kept
    | with_reducible refine State.routine_kept ?_ _ _ _ _ _ fun _ _ _ => ?_
    | with_reducible apply State.commitIter_kept
    | intro _ _ _
    | with_reducible apply ite_kept
    | split

theorem iter_kept {s₀ s : State} (h : Kept s₀ s) (c : ℕ) (n : ℕ) :
    Kept s₀ (iter c n s) := by
  unfold iter
  repeat' first
    | with_reducible assumption
    | with_reducible refine State.afterIdle_kept ?_ _ _ _ fun _ _ _ => ?_
    | with_reducible apply State.orIdle_kept
    | with_reducible apply State.loopRun_kept
    | with_reducible apply State.loopIter_kept
    | with_reducible apply ite_kept
    | split
    | intro _ _ _

theorem postMove_kept {s₀ s : State} (h : Kept s₀ s) (c : ℕ) (n : ℕ) :
    Kept s₀ (postMove c n s) := by
  unfold postMove
  repeat' first
    | with_reducible assumption
    | with_reducible refine State.afterIdle_kept ?_ _ _ _ fun _ _ _ => ?_
    | with_reducible apply State.orIdle_kept
    | with_reducible apply State.loopRun_kept
    | with_reducible apply State.loopIter_kept
    | with_reducible apply ite_kept
    | split
    | intro _ _ _

theorem prologue_kept {s₀ s : State} (h : Kept s₀ s) (c : ℕ) (n : ℕ) :
    Kept s₀ (prologue c n s) := by
  unfold prologue
  repeat' first
    | with_reducible assumption
    | with_reducible refine State.afterIdle_kept ?_ _ _ _ fun _ _ _ => ?_
    | with_reducible apply State.readBad_kept
    | with_reducible apply State.orIdle_kept
    | with_reducible apply State.paramError_kept
    | with_reducible apply State.combEvent_kept
    | with_reducible apply State.count_kept
    | with_reducible refine State.routine_kept ?_ _ _ _ _ _ fun _ _ _ => ?_
    | with_reducible apply State.paramWrite_kept
    | with_reducible apply State.onComb_kept
    | intro _ _ _
    | with_reducible apply ite_kept
    | split
    | simp only [Kept.with_iff]

theorem cmdRoutine_kept {s₀ s : State} (h : Kept s₀ s) (c : ℕ) (n : ℕ) :
    Kept s₀ (cmdRoutine c n s) := by
  unfold cmdRoutine
  repeat' first
    | with_reducible assumption
    | with_reducible apply cmd_kept
    | with_reducible refine State.afterIdle_kept ?_ _ _ _ fun _ _ _ => ?_
    | with_reducible apply State.readBad_kept
    | with_reducible apply State.orIdle_kept
    | with_reducible refine State.routine_kept ?_ _ _ _ _ _ fun _ _ _ => ?_
    | with_reducible apply State.combEvent_kept
    | with_reducible apply State.onComb_kept
    | intro _ _ _
    | with_reducible apply ite_kept
    | simp only [Kept.with_iff]
    | split

theorem State.armAlign_kept {s₀ s : State} (h : Kept s₀ s) (t : ℕ) :
    Kept s₀ (s.armAlign t) := by
  unfold State.armAlign
  repeat' first
    | with_reducible assumption
    | with_reducible apply State.putFlag_kept
    | with_reducible apply State.put_kept
    | with_reducible apply State.putPair_kept
    | intro _ _ _
    | simp only [Kept.with_iff]

theorem State.skipAccount_kept {s₀ s : State} (h : Kept s₀ s) (c : ℕ) (late : List ℕ) :
    Kept s₀ (s.skipAccount c late) := by
  unfold State.skipAccount
  repeat' first
    | with_reducible assumption
    | with_reducible apply State.mapComb_kept
    | with_reducible apply State.onComb_kept
    | with_reducible apply State.put_kept
    | with_reducible apply State.count_kept
    | with_reducible apply State.combEvent_kept
    | with_reducible apply State.combFault_kept
    | with_reducible apply State.onLane_kept
    | with_reducible apply foldl_kept
    | intro _ _ _
    | simp only [Kept.with_iff]
    | simp only [Kept.with_ctl_iff]
    | with_reducible apply ite_kept
    | split

theorem State.noPilotStep_kept {s₀ s : State} (h : Kept s₀ s) (c : ℕ) :
    Kept s₀ (s.noPilotStep c) := by
  unfold State.noPilotStep
  repeat' first
    | with_reducible assumption
    | with_reducible apply State.onComb_kept
    | with_reducible apply State.mapComb_kept
    | with_reducible apply ite_kept

theorem State.releases_kept {s₀ s : State} (h : Kept s₀ s) (c : ℕ) :
    Kept s₀ (s.releases c) := by
  unfold State.releases
  repeat' first
    | with_reducible assumption
    | with_reducible apply cmd_kept
    | with_reducible apply State.release_kept
    | with_reducible apply State.idle_kept
    | with_reducible apply State.withdrawFault_kept
    | with_reducible apply State.onComb_kept
    | with_reducible apply State.count_kept
    | with_reducible apply State.put_kept
    | with_reducible apply State.mapComb_kept
    | with_reducible apply foldl_kept
    | intro _ _ _
    | with_reducible apply ite_kept
    | simp only [Kept.with_iff]
    | split

theorem State.takeLanes_kept {s₀ s : State} (h : Kept s₀ s) (c : ℕ) :
    Kept s₀ (s.takeLanes c) := by
  unfold State.takeLanes
  repeat' first
    | with_reducible assumption
    | with_reducible apply State.mapComb_kept
    | with_reducible apply State.onComb_kept
    | with_reducible apply ite_kept

theorem State.dropForced_kept {s₀ s : State} (h : Kept s₀ s) (c : ℕ) :
    Kept s₀ (s.dropForced c) := by
  unfold State.dropForced
  repeat' first
    | with_reducible assumption
    | with_reducible apply State.mapLanes_kept
    | with_reducible apply ite_kept

theorem State.guardUncal_kept {s₀ s : State} (h : Kept s₀ s) (c : ℕ) (before : List ℕ) :
    Kept s₀ (s.guardUncal c before) := by
  unfold State.guardUncal
  repeat' first
    | with_reducible assumption
    | with_reducible apply State.forceGates_kept
    | with_reducible apply foldl_kept
    | intro _ _ _

theorem State.leaveAll_kept {s₀ s : State} (h : Kept s₀ s) (c : ℕ) :
    Kept s₀ (s.leaveAll c) := by
  unfold State.leaveAll
  repeat' first
    | with_reducible assumption
    | with_reducible apply State.guardUncal_kept
    | with_reducible apply State.calSweep_kept
    | with_reducible apply State.mapComb_kept
    | with_reducible apply State.settleAll_kept
    | with_reducible apply State.takeLanes_kept
    | with_reducible apply State.dropForced_kept
    | intro _ _ _

theorem State.nextPeriod_kept {s₀ s : State} (h : Kept s₀ s) (c : ℕ) (t : ℕ) :
    Kept s₀ (s.nextPeriod c t) := by
  unfold State.nextPeriod
  repeat' first
    | with_reducible assumption
    | with_reducible apply State.armAlign_kept
    | with_reducible apply State.put_kept
    | with_reducible apply State.putFlag_kept
    | with_reducible apply State.onComb_kept
    | intro _ _ _
    | simp only [Kept.with_iff]
    | with_reducible apply ite_kept
    | split

theorem State.repeatPoint_kept {s₀ s : State} (h : Kept s₀ s) (c : ℕ) :
    Kept s₀ (s.repeatPoint c) := by
  unfold State.repeatPoint
  repeat' first
    | with_reducible assumption
    | with_reducible apply State.onComb_kept
    | with_reducible apply State.mapComb_kept
    | with_reducible apply State.put_kept
    | intro _ _ _
    | simp only [Kept.with_iff]
    | with_reducible apply ite_kept
    | split

theorem State.unserve_kept {s₀ s : State} (h : Kept s₀ s) (c : ℕ) :
    Kept s₀ (s.unserve c) := by
  unfold State.unserve
  repeat' first
    | with_reducible assumption
    | with_reducible apply State.mapComb_kept
    | with_reducible apply State.onComb_kept
    | intro _ _ _
    | simp only [Kept.with_iff]

theorem State.moveFirst_kept {s₀ s : State} (h : Kept s₀ s) (t : ℕ) :
    Kept s₀ (s.moveFirst t) := by
  unfold State.moveFirst
  repeat' first
    | with_reducible assumption
    | with_reducible apply moveStart_kept
    | with_reducible apply ite_kept
    | split

theorem State.dropIter_kept {s₀ s : State} (h : Kept s₀ s) (c : ℕ) :
    Kept s₀ (s.dropIter c) := by
  unfold State.dropIter
  repeat' first
    | with_reducible assumption
    | with_reducible apply State.onComb_kept
    | with_reducible apply State.count_kept
    | intro _ _ _
    | simp only [Kept.with_iff]
    | with_reducible apply ite_kept
    | split

theorem periodBoundary_kept {s₀ s : State} (h : Kept s₀ s) (c : ℕ) :
    Kept s₀ (periodBoundary c s) := by
  unfold periodBoundary
  repeat' first
    | with_reducible assumption
    | with_reducible apply State.repeatPoint_kept
    | with_reducible apply State.dropIter_kept
    | with_reducible apply State.unserve_kept
    | with_reducible apply State.moveFirst_kept
    | with_reducible apply prologue_kept
    | with_reducible apply State.combEvent_kept
    | with_reducible apply State.senseBoundary_kept
    | with_reducible apply State.skipAccount_kept
    | with_reducible apply State.applyBoundary_kept
    | with_reducible apply State.applyStates_kept
    | with_reducible apply State.onComb_kept
    | with_reducible apply State.releases_kept
    | with_reducible apply State.leaveAll_kept
    | with_reducible apply State.noPilotStep_kept
    | with_reducible apply State.calSweep_kept
    | with_reducible apply State.nextPeriod_kept
    | with_reducible apply State.replan_kept
    | with_reducible apply State.calProgress_kept
    | with_reducible apply ite_kept
    | intro _ _ _
    | simp only [Kept.with_iff]
    | split

theorem holdLimit_kept {s₀ s : State} (h : Kept s₀ s) (c : ℕ) (l : ℕ) :
    Kept s₀ (holdLimit c l s) := by
  unfold holdLimit
  repeat' first
    | with_reducible assumption
    | with_reducible apply State.refreshOuts_kept
    | with_reducible apply State.setLane_kept
    | with_reducible apply ite_kept

end Sys2Proof.Machine
end

