-- ==== Sys2Proof/Laws/KeepCalib.lean ====
section
/-! SUPPORT. What the functions of Machine/Calib.lean keep: variant, queue of commands, register file in canonical form,
ledger chain. -/

namespace Sys2Proof.Machine

theorem State.accCommit_kept {s₀ s : State} (h : Kept s₀ s) (c : ℕ) (ls : List ℕ) :
    Kept s₀ (s.accCommit c ls) := by
  unfold State.accCommit
  repeat' first
    | with_reducible assumption
    | with_reducible apply State.notice_kept
    | with_reducible apply State.draw_kept
    | with_reducible apply State.onLane_kept
    | with_reducible apply State.paramWrite_kept
    | with_reducible apply State.combEvent_kept
    | with_reducible apply State.onComb_kept
    | with_reducible apply State.put_kept
    | with_reducible apply foldl_kept
    | intro _ _ _
    | with_reducible apply ite_kept
    | split
    | simp only [Kept.with_iff]

theorem calAcc_kept {s₀ s : State} (h : Kept s₀ s) (c : ℕ) (n : ℕ) :
    Kept s₀ (calAcc c n s) := by
  unfold calAcc
  repeat' first
    | with_reducible assumption
    | with_reducible refine State.afterIdle_kept ?_ _ _ _ fun _ _ _ => ?_
    | with_reducible apply State.readBad_kept
    | with_reducible apply State.orIdle_kept
    | with_reducible refine State.routine_kept ?_ _ _ _ _ _ fun _ _ _ => ?_
    | with_reducible apply State.accCommit_kept
    | intro _ _ _
    | with_reducible apply ite_kept
    | split

theorem State.fitCommit_kept {s₀ s : State} (h : Kept s₀ s) (c : ℕ) (l : ℕ) (kind : ℕ) :
    Kept s₀ (s.fitCommit c l kind) := by
  unfold State.fitCommit
  repeat' first
    | with_reducible assumption
    | with_reducible apply State.onLane_kept
    | with_reducible apply State.calRes_kept
    | with_reducible apply State.onComb_kept
    | with_reducible apply State.put_kept
    | with_reducible apply State.putFlag_kept
    | with_reducible apply State.paramWrite_kept
    | with_reducible apply foldl_kept
    | intro _ _ _
    | with_reducible apply ite_kept
    | simp only [Kept.with_iff]
    | split

theorem State.fitWork_kept {s₀ s : State} (h : Kept s₀ s) (c : ℕ) (l : ℕ) :
    Kept s₀ (s.fitWork c l) := by
  unfold State.fitWork
  repeat' first
    | with_reducible assumption
    | with_reducible apply State.fitCommit_kept
    | with_reducible apply State.notice_kept
    | with_reducible apply State.endFits_kept
    | with_reducible apply State.calProgress_kept
    | with_reducible apply ite_kept
    | split

theorem calFit_kept {s₀ s : State} (h : Kept s₀ s) (c : ℕ) (l : ℕ) (n : ℕ) :
    Kept s₀ (calFit c l n s) := by
  unfold calFit
  repeat' first
    | with_reducible assumption
    | with_reducible refine State.afterIdle_kept ?_ _ _ _ fun _ _ _ => ?_
    | with_reducible apply State.readBad_kept
    | with_reducible apply State.orIdle_kept
    | with_reducible apply State.fitWork_kept
    | with_reducible refine State.routine_kept ?_ _ _ _ _ _ fun _ _ _ => ?_
    | with_reducible apply State.calProgress_kept
    | with_reducible apply State.endFits_kept
    | with_reducible apply State.fitCommit_kept
    | intro _ _ _
    | with_reducible apply ite_kept
    | split
    | simp only [Kept.with_iff]

theorem State.stageAdc_kept {s₀ s : State} (h : Kept s₀ s) (c k : ℕ) (blank cal : ℤ) : Kept s₀ ((s.stageAdc c k blank cal).1) := by
  unfold State.stageAdc
  repeat' first
    | with_reducible assumption
    | with_reducible apply State.paramWrite_kept
    | with_reducible apply State.put_kept
    | with_reducible apply foldl_kept
    | intro _ _ _
    | simp only [Kept.with_iff]
    | simp only [Kept.with_ctl_iff]
    | with_reducible apply ite_kept
    | split
    | dsimp only

theorem State.adcCommit_kept {s₀ s : State} (h : Kept s₀ s) (c : ℕ) : Kept s₀ (s.adcCommit c) :=
  State.calProgress_kept (State.dropEmpty_kept (State.nextProc_kept (State.putFlag_kept (State.put_kept
    (State.stageAdc_kept (State.stageAdc_kept h ..) ..) ..) ..) ..) ..)

theorem State.segWork_kept {s₀ s : State} (h : Kept s₀ s) (c : ℕ) (m : SadcIn) :
    Kept s₀ (s.segWork c m) := by
  unfold State.segWork
  repeat' first
    | with_reducible assumption
    | with_reducible apply State.notice_kept
    | with_reducible apply State.onComb_kept
    | with_reducible apply State.adcCommit_kept
    | intro _ _ _
    | with_reducible apply ite_kept
    | split

theorem sadc_kept {s₀ s : State} (h : Kept s₀ s) (c : ℕ) (m : SadcIn) :
    Kept s₀ (sadc c m s) := by
  unfold sadc
  repeat' first
    | with_reducible assumption
    | with_reducible refine State.afterIdle_kept ?_ _ _ _ fun _ _ _ => ?_
    | with_reducible apply State.readBad_kept
    | with_reducible apply State.orIdle_kept
    | with_reducible apply State.segWork_kept
    | with_reducible refine State.routine_kept ?_ _ _ _ _ _ fun _ _ _ => ?_
    | with_reducible apply State.onComb_kept
    | with_reducible apply State.adcCommit_kept
    | intro _ _ _
    | with_reducible apply ite_kept
    | split

theorem fullGroupSettle_kept {s₀ s : State} (h : Kept s₀ s) : Kept s₀ (fullGroupSettle s) := by
  unfold fullGroupSettle
  split
  · exact h
  · split
    · rename_i r _ _
      have k := State.startGroup_kept h r.group r.avg
      dsimp only
      repeat' split
      all_goals first
        | exact State.setRuns_kept k ..
        | exact State.applyAfter_kept (State.setRuns_kept k ..) ..
    · exact h

theorem State.showLoadFails_kept {s₀ s : State} (h : Kept s₀ s)  :
    Kept s₀ (s.showLoadFails) := by
  unfold State.showLoadFails
  repeat' first
    | with_reducible assumption
    | with_reducible apply State.put_kept

theorem State.loadFail_kept {s₀ s : State} (h : Kept s₀ s) (c : ℕ) :
    Kept s₀ (s.loadFail c) := by
  unfold State.loadFail
  repeat' first
    | with_reducible assumption
    | with_reducible apply State.dropFromApplies_kept
    | with_reducible apply State.wr_kept
    | with_reducible apply State.put_kept
    | with_reducible apply State.showLoadFails_kept
    | with_reducible apply State.combFault_kept

theorem State.loadStores_kept {s₀ s : State} (h : Kept s₀ s) (c : ℕ) :
    Kept s₀ (s.loadStores c) := by
  unfold State.loadStores
  repeat' first
    | with_reducible assumption
    | with_reducible apply State.onComb_kept
    | with_reducible apply State.setFlt_kept
    | with_reducible apply foldl_kept
    | intro _ _ _
    | with_reducible apply ite_kept

theorem State.recover_kept {s₀ s : State} (h : Kept s₀ s) (c : ℕ) (ok : Bool) (q : ℕ) (role : ℕ) :
    Kept s₀ (s.recover c ok q role) := by
  unfold State.recover
  repeat' first
    | with_reducible assumption
    | with_reducible apply State.loadStores_kept
    | with_reducible apply State.onComb_kept
    | with_reducible apply State.logInvol_kept
    | with_reducible apply State.log_kept
    | with_reducible apply State.loadFail_kept
    | with_reducible apply ite_kept

theorem mcRecovery_kept {s₀ s : State} (h : Kept s₀ s) (c : ℕ) (readbackOk : Bool) :
    Kept s₀ (mcRecovery c readbackOk s) := by
  unfold mcRecovery
  repeat' first
    | with_reducible assumption
    | with_reducible apply State.postOwners_kept
    | with_reducible apply State.onComb_kept
    | with_reducible apply State.recover_kept
    | with_reducible apply ite_kept

end Sys2Proof.Machine
end

