-- ==== Sys2Proof/Laws/KeepFaultCmds.lean ====
section
/-! SUPPORT. What the functions of Machine/FaultCmds.lean keep: variant, queue of commands, register file in canonical form,
ledger chain. -/

namespace Sys2Proof.Machine

theorem faultRepeat_kept {s₀ s : State} (h : Kept s₀ s) (n : ℕ) :
    Kept s₀ (faultRepeat n s) := by
  unfold faultRepeat
  repeat' first
    | with_reducible assumption
    | with_reducible apply State.reportFault_kept
    | with_reducible apply ite_kept
    | split

theorem jtagTest_kept {s₀ s : State} (h : Kept s₀ s)  :
    Kept s₀ (jtagTest s) := by
  unfold jtagTest
  repeat' first
    | with_reducible assumption
    | with_reducible apply State.assertFault_kept
    | with_reducible apply ite_kept

theorem supplyFault_kept {s₀ s : State} (h : Kept s₀ s) (rail : ℕ) :
    Kept s₀ (supplyFault rail s) := by
  unfold supplyFault
  repeat' first
    | with_reducible assumption
    | with_reducible apply State.assertFault_kept
    | with_reducible apply ite_kept

theorem vddAonAbsent_kept {s₀ s : State} (h : Kept s₀ s) : Kept s₀ (vddAonAbsent s) :=
  ⟨h.variant, h.pending, fun _ => rfl, fun _ => ⟨trivial, Or.inl rfl⟩, fun _ => rfl, fun _ => rfl⟩

theorem State.writeRel_kept {s₀ s : State} (h : Kept s₀ s) (c : ℕ) (l : ℕ) (whole : Bool) :
    Kept s₀ (s.writeRel c l whole) := by
  unfold State.writeRel
  repeat' first
    | with_reducible assumption
    | with_reducible apply State.putFlag_kept
    | with_reducible apply State.put_kept
    | with_reducible apply ite_kept

theorem fltRelLane_kept {s₀ s : State} (h : Kept s₀ s) (c : ℕ) (l : ℕ) :
    Kept s₀ (fltRelLane c l s) := by
  unfold fltRelLane
  repeat' first
    | with_reducible assumption
    | with_reducible apply State.writeRel_kept
    | with_reducible apply State.onLane_kept
    | with_reducible apply ite_kept

theorem fltRelComb_kept {s₀ s : State} (h : Kept s₀ s) (c : ℕ) :
    Kept s₀ (fltRelComb c s) := by
  unfold fltRelComb
  repeat' first
    | with_reducible assumption
    | with_reducible apply State.writeRel_kept
    | with_reducible apply State.onComb_kept
    | with_reducible apply ite_kept

theorem fltInjArm_kept {s₀ s : State} (h : Kept s₀ s) (v : Word) :
    Kept s₀ (fltInjArm v s) := by
  unfold fltInjArm
  repeat' first
    | with_reducible assumption
    | with_reducible apply State.store_kept
    | with_reducible apply State.setFlt_kept
    | with_reducible apply ite_kept

theorem State.convertSensor_kept {s₀ s : State} (h : Kept s₀ s) (n : ℕ) (r : ℤ × Bool) :
    Kept s₀ (s.convertSensor n r) := by
  unfold State.convertSensor
  repeat' first
    | with_reducible assumption
    | with_reducible apply State.putFlag_kept
    | with_reducible apply State.put_kept
    | with_reducible apply ite_kept

theorem State.judgeWarn_kept {s₀ s : State} (h : Kept s₀ s)  :
    Kept s₀ (s.judgeWarn) := by
  unfold State.judgeWarn
  repeat' first
    | with_reducible assumption
    | with_reducible apply State.putFlag_kept
    | with_reducible apply State.assertFault_kept
    | with_reducible apply State.faultGone_kept
    | with_reducible apply ite_kept

theorem State.throttleTile_kept {s₀ s : State} (h : Kept s₀ s) (t : ℕ) (n : ℕ) :
    Kept s₀ (s.throttleTile t n) := by
  unfold State.throttleTile
  repeat' first
    | with_reducible assumption
    | with_reducible apply State.put_kept
    | with_reducible apply State.putFlag_kept
    | with_reducible apply foldl_kept
    | intro _ _ _
    | with_reducible apply ite_kept

theorem State.judgeTile_kept {s₀ s : State} (h : Kept s₀ s) (t : ℕ) :
    Kept s₀ (s.judgeTile t) := by
  unfold State.judgeTile
  repeat' first
    | with_reducible assumption
    | with_reducible apply State.throttleTile_kept
    | with_reducible apply State.assertFault_kept
    | with_reducible apply State.count_kept
    | with_reducible apply ite_kept

theorem State.judgeTiles_kept {s₀ s : State} (h : Kept s₀ s)  :
    Kept s₀ (s.judgeTiles) := by
  unfold State.judgeTiles
  repeat' first
    | with_reducible assumption
    | with_reducible apply State.judgeTile_kept
    | with_reducible apply State.faultGone_kept
    | with_reducible apply foldl_kept
    | intro _ _ _
    | with_reducible apply ite_kept

theorem State.shutDown_kept {s₀ s : State} (h : Kept s₀ s)  :
    Kept s₀ (s.shutDown) := by
  unfold State.shutDown
  repeat' first
    | with_reducible assumption
    | with_reducible apply State.setBoot_kept
    | with_reducible apply State.assertFault_kept
    | with_reducible apply State.putFlag_kept
    | with_reducible apply State.count_kept
    | with_reducible apply State.stopAlive_kept
    | with_reducible apply State.releaseOwn_kept
    | with_reducible apply State.losePower_kept
    | with_reducible apply State.setFlt_kept
    | simp only [Kept.with_iff]

theorem State.judgeSensors_kept {s₀ s : State} (h : Kept s₀ s)  :
    Kept s₀ (s.judgeSensors) := by
  unfold State.judgeSensors
  repeat' first
    | with_reducible assumption
    | with_reducible apply State.assertFault_kept
    | with_reducible apply State.faultGone_kept
    | with_reducible apply ite_kept
    | split

theorem State.showHottest_kept {s₀ s : State} (h : Kept s₀ s)  :
    Kept s₀ (s.showHottest) := by
  unfold State.showHottest
  repeat' first
    | with_reducible assumption
    | with_reducible apply State.put_kept
    | with_reducible apply foldl_kept
    | intro _ _ _
    | with_reducible apply ite_kept
    | split
    | dsimp only

theorem State.judgeCool_kept {s₀ s : State} (h : Kept s₀ s)  :
    Kept s₀ (s.judgeCool) := by
  unfold State.judgeCool
  repeat' first
    | with_reducible assumption
    | with_reducible apply State.setFlt_kept

theorem thermalConversion_kept {s₀ s : State} (h : Kept s₀ s) (temps : Temps) :
    Kept s₀ (thermalConversion temps s) := by
  unfold thermalConversion
  repeat' first
    | with_reducible assumption
    | with_reducible apply State.convertSensor_kept
    | with_reducible apply State.showHottest_kept
    | with_reducible apply State.judgeWarn_kept
    | with_reducible apply State.judgeTiles_kept
    | with_reducible apply State.setFlt_kept
    | with_reducible apply State.shutDown_kept
    | with_reducible apply State.faultGone_kept
    | with_reducible apply State.judgeSensors_kept
    | with_reducible apply State.judgeCool_kept
    | with_reducible apply foldl_kept
    | intro _ _ _
    | simp only [Kept.with_iff]
    | with_reducible apply ite_kept
    | split

end Sys2Proof.Machine
end

