-- ==== Sys2Proof/Laws/KeepDrive.lean ====
section
/-! SUPPORT. What the functions of Machine/Drive.lean keep: variant, queue of commands, register file in canonical form,
ledger chain. -/

namespace Sys2Proof.Machine

theorem State.overlapAll_kept {s₀ s : State} (h : Kept s₀ s)  :
    Kept s₀ (s.overlapAll) := by
  unfold State.overlapAll
  repeat' first
    | with_reducible assumption
    | with_reducible apply State.mapCombs_kept

theorem State.openWindow_kept {s₀ s : State} (h : Kept s₀ s)  :
    Kept s₀ (s.openWindow) := by
  unfold State.openWindow
  repeat' first
    | with_reducible assumption
    | with_reducible apply State.putFlag_kept
    | with_reducible apply State.overlapAll_kept
    | simp only [Kept.with_iff]
    | simp only [Kept.with_ctl_iff]

theorem State.selectPilot_kept {s₀ s : State} (h : Kept s₀ s) (b : Bool) :
    Kept s₀ (s.selectPilot b) := by
  unfold State.selectPilot
  repeat' first
    | with_reducible assumption
    | with_reducible apply State.openWindow_kept
    | with_reducible apply State.count_kept
    | with_reducible apply State.putFlag_kept
    | with_reducible apply ite_kept

theorem State.setNoPilot_kept {s₀ s : State} (h : Kept s₀ s)  :
    Kept s₀ (s.setNoPilot) := by
  unfold State.setNoPilot
  repeat' first
    | with_reducible assumption
    | with_reducible apply State.overlapAll_kept
    | with_reducible apply State.assertFault_kept
    | with_reducible apply State.putFlag_kept
    | with_reducible apply ite_kept

theorem State.endNoPilot_kept {s₀ s : State} (h : Kept s₀ s)  :
    Kept s₀ (s.endNoPilot) := by
  unfold State.endNoPilot
  repeat' first
    | with_reducible assumption
    | with_reducible apply State.openWindow_kept
    | with_reducible apply State.faultGone_kept
    | with_reducible apply State.putFlag_kept
    | with_reducible apply ite_kept

theorem State.pilotGone_kept {s₀ s : State} (h : Kept s₀ s)  :
    Kept s₀ (s.pilotGone) := by
  unfold State.pilotGone
  repeat' first
    | with_reducible assumption
    | with_reducible apply State.putFlag_kept
    | with_reducible apply State.selectPilot_kept
    | with_reducible apply State.endNoPilot_kept
    | with_reducible apply State.assertFault_kept
    | with_reducible apply State.setNoPilot_kept
    | with_reducible apply ite_kept

theorem State.setPilotOk_kept {s₀ s : State} (h : Kept s₀ s) (b : Bool) (ok : Bool) :
    Kept s₀ (s.setPilotOk b ok) := by
  unfold State.setPilotOk
  repeat' first
    | with_reducible assumption
    | with_reducible apply State.putFlag_kept
    | with_reducible apply ite_kept
    | split

theorem State.judgeLost_kept {s₀ s : State} (h : Kept s₀ s) (p : Pilots) (b : Bool) :
    Kept s₀ (s.judgeLost p b) := by
  unfold State.judgeLost
  repeat' first
    | with_reducible assumption
    | with_reducible apply State.setPilotOk_kept
    | with_reducible apply ite_kept
    | split

theorem State.judgeOk_kept {s₀ s : State} (h : Kept s₀ s) (p : Pilots) (b : Bool) :
    Kept s₀ (s.judgeOk p b) := by
  unfold State.judgeOk
  repeat' first
    | with_reducible assumption
    | with_reducible apply State.setPilotOk_kept
    | with_reducible apply ite_kept
    | split

theorem pilotLost_kept {s₀ s : State} (h : Kept s₀ s) (p : Pilots) :
    Kept s₀ (pilotLost p s) := by
  unfold pilotLost
  repeat' first
    | with_reducible assumption
    | with_reducible apply State.judgeLost_kept
    | with_reducible apply State.putFlag_kept
    | with_reducible apply State.pilotGone_kept
    | with_reducible apply ite_kept
    | split

theorem pilotOk_kept {s₀ s : State} (h : Kept s₀ s) (p : Pilots) :
    Kept s₀ (pilotOk p s) := by
  unfold pilotOk
  repeat' first
    | with_reducible assumption
    | with_reducible apply State.judgeOk_kept
    | with_reducible apply State.putFlag_kept
    | with_reducible apply State.endNoPilot_kept
    | with_reducible apply State.selectPilot_kept
    | with_reducible apply ite_kept
    | split

theorem switchWindowEnd_kept {s₀ s : State} (h : Kept s₀ s)  :
    Kept s₀ (switchWindowEnd s) := by
  unfold switchWindowEnd
  repeat' first
    | with_reducible assumption
    | with_reducible apply State.putFlag_kept
    | simp only [Kept.with_iff]
    | simp only [Kept.with_ctl_iff]
    | with_reducible apply ite_kept
    | split

theorem State.switchPilot_kept {s₀ s : State} (h : Kept s₀ s)  :
    Kept s₀ (s.switchPilot) := by
  unfold State.switchPilot
  repeat' first
    | with_reducible assumption
    | with_reducible apply State.selectPilot_kept
    | with_reducible apply State.endNoPilot_kept
    | with_reducible apply State.putFlag_kept
    | with_reducible apply ite_kept
    | split

theorem pilotSwitch_kept {s₀ s : State} (h : Kept s₀ s)  :
    Kept s₀ (pilotSwitch s) := by
  unfold pilotSwitch
  repeat' first
    | with_reducible assumption
    | with_reducible apply State.endNoPilot_kept
    | with_reducible apply State.selectPilot_kept
    | with_reducible apply State.putFlag_kept
    | with_reducible apply ite_kept
    | simp only [Kept.with_iff]
    | simp only [Kept.with_ctl_iff]
    | split

theorem State.takeSwitch_kept {s₀ s : State} (h : Kept s₀ s)  :
    Kept s₀ (s.takeSwitch) := by
  unfold State.takeSwitch
  repeat' first
    | with_reducible assumption
    | with_reducible apply State.switchPilot_kept
    | simp only [Kept.with_iff]
    | simp only [Kept.with_ctl_iff]
    | with_reducible apply ite_kept
    | split

theorem recapture_kept {s₀ s : State} (h : Kept s₀ s)  :
    Kept s₀ (recapture s) := by
  unfold recapture
  repeat' first
    | with_reducible assumption
    | simp only [Kept.with_iff]
    | simp only [Kept.with_ctl_iff]
    | with_reducible apply ite_kept

theorem State.writePilot_kept {s₀ s : State} (h : Kept s₀ s) (v : Word) :
    Kept s₀ (s.writePilot v) := by
  unfold State.writePilot
  repeat' first
    | with_reducible assumption
    | with_reducible apply pilotSwitch_kept
    | with_reducible apply State.put_kept
    | with_reducible apply State.selectPilot_kept
    | with_reducible apply State.endNoPilot_kept
    | with_reducible apply State.pilotGone_kept
    | with_reducible apply State.switchPilot_kept
    | with_reducible apply recapture_kept
    | with_reducible apply ite_kept
    | split

theorem pilotRefCapture_kept {s₀ s : State} (h : Kept s₀ s) (pwrA : ℕ) (pwrB : ℕ) :
    Kept s₀ (pilotRefCapture pwrA pwrB s) := by
  unfold pilotRefCapture
  repeat' first
    | with_reducible assumption
    | with_reducible apply State.put_kept
    | with_reducible apply recapture_kept
    | with_reducible apply State.endStage7_kept
    | simp only [Kept.with_iff]
    | simp only [Kept.with_ctl_iff]
    | with_reducible apply ite_kept
    | split

theorem powerMonitorWindow_kept {s₀ s : State} (h : Kept s₀ s) (p : ℕ) (code : ℕ) :
    Kept s₀ (powerMonitorWindow p code s) := by
  unfold powerMonitorWindow
  repeat' first
    | with_reducible assumption
    | with_reducible apply State.countWrap_kept
    | with_reducible apply State.put_kept
    | with_reducible apply State.putFlag_kept
    | with_reducible apply ite_kept

theorem State.startRamp_kept {s₀ s : State} (h : Kept s₀ s)  :
    Kept s₀ (s.startRamp) := by
  unfold State.startRamp
  repeat' first
    | with_reducible assumption
    | with_reducible apply State.setBoot_kept
    | with_reducible apply ite_kept

theorem State.zeroAll_kept {s₀ s : State} (h : Kept s₀ s)  :
    Kept s₀ (s.zeroAll) := by
  unfold State.zeroAll
  repeat' first
    | with_reducible assumption
    | with_reducible apply State.react_kept
    | with_reducible apply State.setBoot_kept
    | with_reducible apply State.putFlag_kept

theorem State.setEn_kept {s₀ s : State} (h : Kept s₀ s) (en : Bool) :
    Kept s₀ (s.setEn en) := by
  unfold State.setEn
  repeat' first
    | with_reducible assumption
    | with_reducible apply State.putFlag_kept
    | with_reducible apply State.zeroAll_kept
    | with_reducible apply State.startRamp_kept
    | with_reducible apply ite_kept

theorem driveEn_kept {s₀ s : State} (h : Kept s₀ s) (v : Word) :
    Kept s₀ (driveEn v s) := by
  unfold driveEn
  repeat' first
    | with_reducible assumption
    | with_reducible apply State.setEn_kept
    | with_reducible apply ite_kept

theorem enableRampEnd_kept {s₀ s : State} (h : Kept s₀ s)  :
    Kept s₀ (enableRampEnd s) := by
  unfold enableRampEnd
  repeat' first
    | with_reducible assumption
    | with_reducible apply State.putFlag_kept
    | with_reducible apply State.setBoot_kept
    | with_reducible apply State.react_kept
    | with_reducible apply State.strobe_kept
    | with_reducible apply State.endStage7_kept
    | simp only [Kept.with_iff]
    | with_reducible apply ite_kept
    | split

theorem drvPgLoss_kept {s₀ s : State} (h : Kept s₀ s)  :
    Kept s₀ (drvPgLoss s) := by
  unfold drvPgLoss
  repeat' first
    | with_reducible assumption
    | with_reducible apply State.zeroAll_kept
    | with_reducible apply State.putFlag_kept

theorem drvPgReturn_kept {s₀ s : State} (h : Kept s₀ s)  :
    Kept s₀ (drvPgReturn s) := by
  unfold drvPgReturn
  repeat' first
    | with_reducible assumption
    | with_reducible apply State.putFlag_kept
    | with_reducible apply State.faultGone_kept
    | with_reducible apply State.startRamp_kept
    | with_reducible apply ite_kept
    | split

theorem State.setSafe_kept {s₀ s : State} (h : Kept s₀ s) (x : SafeUnit) :
    Kept s₀ (s.setSafe x) := by
  unfold State.setSafe
  repeat' first
    | with_reducible assumption
    | simp only [Kept.with_iff]
    | simp only [Kept.with_ctl_iff]

theorem State.logSafety_kept {s₀ s : State} (h : Kept s₀ s) (source : ℕ) (assert : ℕ) (panels : ℕ) :
    Kept s₀ (s.logSafety source assert panels) := by
  unfold State.logSafety
  repeat' first
    | with_reducible assumption
    | with_reducible apply State.logInvol_kept
    | with_reducible apply State.setSafe_kept
    | with_reducible apply ite_kept

theorem State.flushSafety_kept {s₀ s : State} (h : Kept s₀ s)  :
    Kept s₀ (s.flushSafety) := by
  unfold State.flushSafety
  repeat' first
    | with_reducible assumption
    | with_reducible apply State.logInvolAt_kept
    | with_reducible apply State.setSafe_kept
    | with_reducible apply foldl_kept
    | intro _ _ _

theorem drvClrNAssert_kept {s₀ s : State} (h : Kept s₀ s)  :
    Kept s₀ (drvClrNAssert s) := by
  unfold drvClrNAssert
  repeat' first
    | with_reducible assumption
    | with_reducible apply State.putFlag_kept
    | with_reducible apply State.count_kept
    | with_reducible apply State.logSafety_kept
    | with_reducible apply State.react_kept
    | with_reducible apply ite_kept

theorem drvClrNRelease_kept {s₀ s : State} (h : Kept s₀ s)  :
    Kept s₀ (drvClrNRelease s) := by
  unfold drvClrNRelease
  repeat' first
    | with_reducible assumption
    | with_reducible apply State.putFlag_kept
    | with_reducible apply State.mapLanes_kept
    | with_reducible apply State.logSafety_kept
    | with_reducible apply State.react_kept
    | with_reducible apply ite_kept

end Sys2Proof.Machine
end

