-- ==== Sys2Proof/Laws/KeepTimeOps.lean ====
section
/-! SUPPORT. What the functions of Machine/TimeOps.lean keep: variant, queue of commands, register file in canonical form,
ledger chain. -/

namespace Sys2Proof.Machine

theorem State.onDom_kept {s₀ s : State} (h : Kept s₀ s) (d : Dom) (f : Domain → Domain) :
    Kept s₀ (s.onDom d f) := by
  unfold State.onDom
  repeat' first
    | with_reducible assumption
    | simp only [Kept.with_iff]
    | simp only [Kept.with_ctl_iff]

theorem State.showCap_kept {s₀ s : State} (h : Kept s₀ s) (n : ℕ) :
    Kept s₀ (s.showCap n) := by
  unfold State.showCap
  repeat' first
    | with_reducible assumption
    | with_reducible apply State.put_kept
    | with_reducible apply State.putPair_kept
    | with_reducible apply State.putFlag_kept

theorem State.pushCap_kept {s₀ s : State} (h : Kept s₀ s) (n : ℕ) (k : ℕ) :
    Kept s₀ (s.pushCap n k) := by
  unfold State.pushCap
  repeat' first
    | with_reducible assumption
    | with_reducible apply State.count_kept
    | with_reducible apply State.showCap_kept
    | simp only [Kept.with_iff]
    | simp only [Kept.with_ctl_iff]
    | with_reducible apply ite_kept

theorem State.popCap_kept {s₀ s : State} (h : Kept s₀ s) (n : ℕ) :
    Kept s₀ (s.popCap n) := by
  unfold State.popCap
  repeat' first
    | with_reducible assumption
    | with_reducible apply State.showCap_kept
    | simp only [Kept.with_iff]
    | simp only [Kept.with_ctl_iff]

theorem State.requestSwitch_kept {s₀ s : State} (h : Kept s₀ s)  :
    Kept s₀ (s.requestSwitch) := by
  unfold State.requestSwitch
  repeat' first
    | with_reducible assumption
    | with_reducible apply State.putFlag_kept
    | simp only [Kept.with_iff]
    | simp only [Kept.with_ctl_iff]
    | with_reducible apply ite_kept

theorem State.setTq_kept {s₀ s : State} (h : Kept s₀ s) (d : Dom) (st : ℕ) :
    Kept s₀ (s.setTq d st) := by
  unfold State.setTq
  repeat' first
    | with_reducible assumption
    | with_reducible apply State.put_kept
    | with_reducible apply State.onDom_kept
    | with_reducible apply State.faultGone_kept
    | with_reducible apply State.assertFault_kept
    | with_reducible apply State.requestSwitch_kept
    | with_reducible apply ite_kept

theorem State.onPtp_kept {s₀ s : State} (h : Kept s₀ s) (d : Dom) (f : PtpClient → PtpClient) :
    Kept s₀ (s.onPtp d f) := by
  unfold State.onPtp
  repeat' first
    | with_reducible assumption
    | simp only [Kept.with_iff]
    | simp only [Kept.with_ctl_iff]
    | split

theorem State.servo_kept {s₀ s : State} (h : Kept s₀ s) (d : Dom) :
    Kept s₀ (s.servo d) := by
  unfold State.servo
  repeat' first
    | with_reducible assumption
    | with_reducible apply State.draw_kept
    | with_reducible apply State.put_kept
    | with_reducible apply State.onDom_kept

theorem State.offsetSeen_kept {s₀ s : State} (h : Kept s₀ s) (d : Dom) (ofs : ℤ) :
    Kept s₀ (s.offsetSeen d ofs) := by
  unfold State.offsetSeen
  repeat' first
    | with_reducible assumption
    | with_reducible apply State.put_kept
    | with_reducible apply State.onDom_kept
    | with_reducible apply State.onPtp_kept
    | with_reducible apply State.servo_kept
    | with_reducible apply State.setTq_kept
    | with_reducible apply ite_kept

theorem State.lostSource_kept {s₀ s : State} (h : Kept s₀ s) (d : Dom) :
    Kept s₀ (s.lostSource d) := by
  unfold State.lostSource
  repeat' first
    | with_reducible assumption
    | with_reducible apply State.onPtp_kept
    | with_reducible apply State.setTq_kept
    | with_reducible apply ite_kept

theorem State.onPps_kept {s₀ s : State} (h : Kept s₀ s) (inB : Bool) (f : PpsIn → PpsIn) :
    Kept s₀ (s.onPps inB f) := by
  unfold State.onPps
  repeat' first
    | with_reducible assumption
    | simp only [Kept.with_iff]
    | simp only [Kept.with_ctl_iff]
    | with_reducible apply ite_kept

end Sys2Proof.Machine
end

