-- ==== Sys2Proof/Laws/KeepLaserSafety.lean ====
section
/-! SUPPORT. What the functions of Machine/LaserSafety.lean keep: variant, queue of commands, register file in canonical form,
ledger chain. -/

namespace Sys2Proof.Machine

theorem State.sendSafeCfg_kept {s₀ s : State} (h : Kept s₀ s) (old : Word) :
    Kept s₀ (s.sendSafeCfg old) := by
  unfold State.sendSafeCfg
  repeat' first
    | with_reducible assumption
    | with_reducible apply State.setSafe_kept
    | with_reducible apply State.draw_kept
    | simp only [Kept.with_iff]

theorem State.safePut_kept {s₀ s : State} (h : Kept s₀ s) (f : Field) (n : ℕ) :
    Kept s₀ (s.safePut f n) := by
  unfold State.safePut
  repeat' first
    | with_reducible assumption
    | with_reducible apply State.put_kept
    | with_reducible apply State.setSafe_kept
    | with_reducible apply State.draw_kept
    | simp only [Kept.with_iff]
    | with_reducible apply ite_kept
    | split

theorem State.putEstop_kept {s₀ s : State} (h : Kept s₀ s) (x : Bool) :
    Kept s₀ (s.putEstop x) := by
  unfold State.putEstop
  repeat' first
    | with_reducible assumption
    | with_reducible apply State.safePut_kept

theorem State.putGuard_kept {s₀ s : State} (h : Kept s₀ s) (n : ℕ) (x : Bool) :
    Kept s₀ (s.putGuard n x) := by
  unfold State.putGuard
  repeat' first
    | with_reducible assumption
    | with_reducible apply State.safePut_kept

theorem State.putKfb_kept {s₀ s : State} (h : Kept s₀ s) (n : ℕ) (x : Bool) :
    Kept s₀ (s.putKfb n x) := by
  unfold State.putKfb
  repeat' first
    | with_reducible assumption
    | with_reducible apply State.setSafe_kept
    | with_reducible apply State.safePut_kept
    | simp only [Kept.with_iff]

theorem State.putSo_kept {s₀ s : State} (h : Kept s₀ s) (n : ℕ) :
    Kept s₀ (s.putSo n) := by
  unfold State.putSo
  repeat' first
    | with_reducible assumption
    | with_reducible apply State.setSafe_kept
    | with_reducible apply State.safePut_kept
    | with_reducible apply ite_kept

theorem State.putPanels_kept {s₀ s : State} (h : Kept s₀ s) (all : Bool) (panels : ℕ) :
    Kept s₀ (s.putPanels all panels) := by
  unfold State.putPanels
  repeat' first
    | with_reducible assumption
    | with_reducible apply State.setSafe_kept
    | with_reducible apply State.react_kept
    | with_reducible apply State.safePut_kept

theorem State.demand_kept {s₀ s : State} (h : Kept s₀ s)  :
    Kept s₀ (s.demand) := by
  unfold State.demand
  repeat' first
    | with_reducible assumption
    | with_reducible apply State.setSafe_kept
    | with_reducible apply State.pushCap_kept
    | with_reducible apply State.assertFault_kept
    | simp only [Kept.with_iff]

theorem State.trip_kept {s₀ s : State} (h : Kept s₀ s)  :
    Kept s₀ (s.trip) := by
  unfold State.trip
  repeat' first
    | with_reducible assumption
    | with_reducible apply State.count_kept
    | with_reducible apply State.safePut_kept
    | with_reducible apply State.putSo_kept
    | with_reducible apply ite_kept

theorem State.lockOut_kept {s₀ s : State} (h : Kept s₀ s) (cause : ℕ) :
    Kept s₀ (s.lockOut cause) := by
  unfold State.lockOut
  repeat' first
    | with_reducible assumption
    | with_reducible apply State.count_kept
    | with_reducible apply State.safePut_kept
    | with_reducible apply State.putPanels_kept
    | with_reducible apply State.putSo_kept
    | with_reducible apply State.logSafety_kept
    | with_reducible apply State.assertFault_kept
    | with_reducible apply ite_kept

theorem estopNDemand_kept {s₀ s : State} (h : Kept s₀ s)  :
    Kept s₀ (estopNDemand s) := by
  unfold estopNDemand
  repeat' first
    | with_reducible assumption
    | with_reducible apply State.putEstop_kept
    | with_reducible apply State.setSafe_kept
    | with_reducible apply State.demand_kept
    | with_reducible apply State.trip_kept
    | with_reducible apply State.putPanels_kept
    | with_reducible apply State.logSafety_kept
    | with_reducible apply ite_kept

theorem estopNRelease_kept {s₀ s : State} (h : Kept s₀ s)  :
    Kept s₀ (estopNRelease s) := by
  unfold estopNRelease
  repeat' first
    | with_reducible assumption
    | with_reducible apply State.logSafety_kept
    | with_reducible apply State.putEstop_kept
    | with_reducible apply State.setSafe_kept
    | with_reducible apply ite_kept

theorem guardNDemand_kept {s₀ s : State} (h : Kept s₀ s) (n : ℕ) :
    Kept s₀ (guardNDemand n s) := by
  unfold guardNDemand
  repeat' first
    | with_reducible assumption
    | with_reducible apply State.putGuard_kept
    | with_reducible apply State.setSafe_kept
    | with_reducible apply State.putPanels_kept
    | with_reducible apply State.trip_kept
    | with_reducible apply State.logSafety_kept
    | with_reducible apply State.demand_kept
    | with_reducible apply ite_kept

theorem guardNRelease_kept {s₀ s : State} (h : Kept s₀ s) (n : ℕ) :
    Kept s₀ (guardNRelease n s) := by
  unfold guardNRelease
  repeat' first
    | with_reducible assumption
    | with_reducible apply State.putGuard_kept
    | with_reducible apply State.setSafe_kept
    | with_reducible apply State.putPanels_kept
    | with_reducible apply State.logSafety_kept
    | with_reducible apply ite_kept

theorem State.putLevels_kept {s₀ s : State} (h : Kept s₀ s) (c : Contacts) :
    Kept s₀ (s.putLevels c) := by
  unfold State.putLevels
  repeat' first
    | with_reducible assumption
    | with_reducible apply State.putEstop_kept
    | with_reducible apply State.putGuard_kept
    | with_reducible apply State.putKfb_kept
    | with_reducible apply foldl_kept
    | intro _ _ _

theorem State.firstLevels_kept {s₀ s : State} (h : Kept s₀ s) (l : List Bool) :
    Kept s₀ (s.firstLevels l) := by
  unfold State.firstLevels
  repeat' first
    | with_reducible assumption
    | with_reducible apply State.putEstop_kept
    | with_reducible apply State.putGuard_kept
    | with_reducible apply State.putKfb_kept
    | with_reducible apply foldl_kept
    | intro _ _ _
    | with_reducible apply ite_kept
    | split

theorem testPulse_kept {s₀ s : State} (h : Kept s₀ s) (passed : Contacts) :
    Kept s₀ (testPulse passed s) := by
  unfold testPulse
  repeat' first
    | with_reducible assumption
    | with_reducible apply State.setSafe_kept
    | with_reducible apply State.firstLevels_kept
    | with_reducible apply State.lockOut_kept
    | intro _ _ _
    | simp only [Kept.with_iff]
    | with_reducible apply ite_kept
    | split

theorem kfbTimeout_kept {s₀ s : State} (h : Kept s₀ s)  :
    Kept s₀ (kfbTimeout s) := by
  unfold kfbTimeout
  repeat' first
    | with_reducible assumption
    | with_reducible apply State.setSafe_kept
    | with_reducible apply State.lockOut_kept
    | with_reducible apply ite_kept
    | split

theorem kfbUnexpected_kept {s₀ s : State} (h : Kept s₀ s) (n : ℕ) (high : Bool) :
    Kept s₀ (kfbUnexpected n high s) := by
  unfold kfbUnexpected
  repeat' first
    | with_reducible assumption
    | with_reducible apply State.putKfb_kept
    | with_reducible apply State.setSafe_kept
    | with_reducible apply State.lockOut_kept
    | with_reducible apply ite_kept

theorem soReadback_kept {s₀ s : State} (h : Kept s₀ s)  :
    Kept s₀ (soReadback s) := by
  unfold soReadback
  repeat' first
    | with_reducible assumption
    | with_reducible apply State.lockOut_kept
    | with_reducible apply ite_kept

theorem internalFault_kept {s₀ s : State} (h : Kept s₀ s)  :
    Kept s₀ (internalFault s) := by
  unfold internalFault
  repeat' first
    | with_reducible assumption
    | with_reducible apply State.lockOut_kept
    | with_reducible apply ite_kept

theorem State.takeSafeCfg_kept {s₀ s : State} (h : Kept s₀ s)  :
    Kept s₀ (s.takeSafeCfg) := by
  unfold State.takeSafeCfg
  repeat' first
    | with_reducible assumption
    | with_reducible apply State.safePut_kept

theorem State.logReturns_kept {s₀ s : State} (h : Kept s₀ s) (c : Contacts) :
    Kept s₀ (s.logReturns c) := by
  unfold State.logReturns
  repeat' first
    | with_reducible assumption
    | with_reducible apply State.logSafety_kept
    | with_reducible apply foldl_kept
    | intro _ _ _
    | with_reducible apply ite_kept
    | split

theorem deliberateReset_kept {s₀ s : State} (h : Kept s₀ s) (lowMs : ℕ) (inputs : Contacts) (readbackOk : Bool) (selfOk : Bool) :
    Kept s₀ (deliberateReset lowMs inputs readbackOk selfOk s) := by
  unfold deliberateReset
  repeat' first
    | with_reducible assumption
    | with_reducible apply State.putLevels_kept
    | with_reducible apply State.logReturns_kept
    | with_reducible apply State.takeSafeCfg_kept
    | with_reducible apply State.count_kept
    | with_reducible apply State.setSafe_kept
    | with_reducible apply State.safePut_kept
    | with_reducible apply State.putSo_kept
    | with_reducible apply State.putPanels_kept
    | with_reducible apply State.faultGone_kept
    | with_reducible apply State.logSafety_kept
    | with_reducible apply foldl_kept
    | intro _ _ _
    | with_reducible apply ite_kept
    | split

end Sys2Proof.Machine
end

