-- ==== Sys2Proof/Laws/KeepStamp.lean ====
section
/-! SUPPORT. What the functions of Machine/Stamp.lean keep: variant, queue of commands, register file in canonical form,
ledger chain. -/

namespace Sys2Proof.Machine

theorem State.setSrx_kept {s₀ s : State} (h : Kept s₀ s) (p : ℕ) (x : Srx) :
    Kept s₀ (s.setSrx p x) := by
  refine h.withExp _ fun w => ?_
  unfold ExportEng.tablesWf at w ⊢
  simp only [Bool.and_eq_true] at w ⊢
  exact ⟨⟨SMap.put_wf (d := fun _ => ({} : Srx)) p x _ w.1.1, w.1.2⟩, w.2⟩

theorem State.setTile_kept {s₀ s : State} (h : Kept s₀ s) (t : ℕ) (x : TilePath) :
    Kept s₀ (s.setTile t x) := by
  refine h.withExp _ fun w => ?_
  unfold ExportEng.tablesWf at w ⊢
  simp only [Bool.and_eq_true] at w ⊢
  exact ⟨⟨w.1.1, SMap.put_wf (d := fun _ => ({} : TilePath)) t x _ w.1.2⟩, w.2⟩

theorem State.dropRec_kept {s₀ s : State} (h : Kept s₀ s) (point : ℕ) (r : Rec) :
    Kept s₀ (s.dropRec point r) := by
  unfold State.dropRec
  repeat' first
    | with_reducible assumption
    | with_reducible apply State.setTile_kept
    | with_reducible apply State.put_kept
    | with_reducible apply State.hubEvent_kept
    | with_reducible apply State.count_kept
    | with_reducible apply State.setSrx_kept
    | with_reducible apply ite_kept
    | intro _ _ _
    | simp only [Kept.with_iff]
    | split

theorem State.formLoss_kept {s₀ s : State} (h : Kept s₀ s) (point : ℕ) (p : ℕ) :
    Kept s₀ (s.formLoss point p) := by
  unfold State.formLoss
  repeat' first
    | with_reducible assumption
    | with_reducible apply State.setSrx_kept
    | with_reducible apply State.setTile_kept
    | with_reducible apply ite_kept

theorem State.toFifo_kept {s₀ s : State} (h : Kept s₀ s) (r : Rec) :
    Kept s₀ (s.toFifo r) := by
  unfold State.toFifo
  repeat' first
    | with_reducible assumption
    | with_reducible apply State.dropRec_kept
    | with_reducible apply State.formLoss_kept
    | with_reducible apply State.checkRec_kept
    | with_reducible apply State.setTile_kept
    | with_reducible apply ite_kept

theorem State.toIntake_kept {s₀ s : State} (h : Kept s₀ s) (t : ℕ) (r : Rec) :
    Kept s₀ (s.toIntake t r) := by
  unfold State.toIntake
  repeat' first
    | with_reducible assumption
    | with_reducible apply State.dropRec_kept
    | with_reducible apply State.formLoss_kept
    | with_reducible apply State.setTile_kept
    | with_reducible apply ite_kept

theorem State.endFrame_kept {s₀ s : State} (h : Kept s₀ s) (p : ℕ) (bs : List Byte) (len : ℕ) (how : FrameEnd) :
    Kept s₀ (s.endFrame p bs len how) := by
  unfold State.endFrame
  repeat' first
    | with_reducible assumption
    | with_reducible apply State.setSrx_kept
    | with_reducible apply State.count_kept
    | with_reducible apply State.toFifo_kept
    | split
    | dsimp only

theorem State.acquire_kept {s₀ s : State} (h : Kept s₀ s) (p : ℕ) :
    Kept s₀ (s.acquire p) := by
  unfold State.acquire
  repeat' first
    | with_reducible assumption
    | with_reducible apply State.putFlag_kept
    | with_reducible apply State.setSrx_kept

theorem State.unlock_kept {s₀ s : State} (h : Kept s₀ s) (p : ℕ) (ns32 : ℕ) (frac8 : ℕ) (bs : List Byte) (len : ℕ) (counted : Bool) :
    Kept s₀ (s.unlock p ns32 frac8 bs len counted) := by
  unfold State.unlock
  repeat' first
    | with_reducible assumption
    | with_reducible apply State.endFrame_kept
    | with_reducible apply State.putFlag_kept
    | with_reducible apply State.count_kept
    | with_reducible apply State.toFifo_kept
    | with_reducible apply ite_kept

theorem State.disableSrx_kept {s₀ s : State} (h : Kept s₀ s) (p : ℕ) (ns32 : ℕ) (frac8 : ℕ) :
    Kept s₀ (s.disableSrx p ns32 frac8) := by
  unfold State.disableSrx
  repeat' first
    | with_reducible assumption
    | with_reducible apply State.unlock_kept
    | with_reducible apply State.putFlag_kept
    | with_reducible apply State.setSrx_kept
    | with_reducible apply ite_kept

theorem State.noteWindow_kept {s₀ s : State} (h : Kept s₀ s) (p : ℕ) :
    Kept s₀ (s.noteWindow p) := by
  unfold State.noteWindow
  repeat' first
    | with_reducible assumption
    | with_reducible apply State.setSrx_kept

theorem blockLockGained_kept {s₀ s : State} (h : Kept s₀ s) (p : ℕ) (delta : ℕ) :
    Kept s₀ (blockLockGained p delta s) := by
  unfold blockLockGained
  repeat' first
    | with_reducible assumption
    | with_reducible apply State.setSrx_kept
    | with_reducible apply State.putFlag_kept
    | with_reducible apply State.put_kept
    | with_reducible apply State.countWrap_kept
    | with_reducible apply State.toFifo_kept
    | with_reducible apply ite_kept

theorem blockLockLost_kept {s₀ s : State} (h : Kept s₀ s) (p : ℕ) (delta : ℕ) (bytes : List Byte) (len : ℕ) :
    Kept s₀ (blockLockLost p delta bytes len s) := by
  unfold blockLockLost
  repeat' first
    | with_reducible assumption
    | with_reducible apply State.count_kept
    | with_reducible apply State.unlock_kept
    | with_reducible apply State.disableSrx_kept
    | with_reducible apply State.putFlag_kept
    | with_reducible apply State.setSrx_kept
    | with_reducible apply ite_kept

theorem autoRateTry_kept {s₀ s : State} (h : Kept s₀ s) (p : ℕ) :
    Kept s₀ (autoRateTry p s) := by
  unfold autoRateTry
  repeat' first
    | with_reducible assumption
    | with_reducible apply State.setSrx_kept
    | with_reducible apply ite_kept

theorem frameStart_kept {s₀ s : State} (h : Kept s₀ s) (p : ℕ) (lane4 : Bool) (delta : ℕ) (bytes : List Byte) (len : ℕ) :
    Kept s₀ (frameStart p lane4 delta bytes len s) := by
  unfold frameStart
  repeat' first
    | with_reducible assumption
    | with_reducible apply State.endFrame_kept
    | with_reducible apply State.disableSrx_kept
    | with_reducible apply State.countWrap_kept
    | with_reducible apply State.setSrx_kept
    | with_reducible apply State.toFifo_kept
    | with_reducible apply ite_kept

theorem frameEnd_kept {s₀ s : State} (h : Kept s₀ s) (p : ℕ) (bytes : List Byte) (len : ℕ) (how : FrameEnd) (delta : ℕ) :
    Kept s₀ (frameEnd p bytes len how delta s) := by
  unfold frameEnd
  repeat' first
    | with_reducible assumption
    | with_reducible apply State.endFrame_kept
    | with_reducible apply State.disableSrx_kept
    | with_reducible apply ite_kept

theorem srxEn_kept {s₀ s : State} (h : Kept s₀ s) (p : ℕ) (v : Word) :
    Kept s₀ (srxEn p v s) := by
  unfold srxEn
  repeat' first
    | with_reducible assumption
    | with_reducible apply State.noteWindow_kept
    | with_reducible apply State.putFlag_kept
    | with_reducible apply State.setSrx_kept
    | with_reducible apply State.acquire_kept
    | with_reducible apply State.disableSrx_kept
    | with_reducible apply ite_kept

theorem srxRate_kept {s₀ s : State} (h : Kept s₀ s) (p : ℕ) (v : Word) (bytes : List Byte) (len : ℕ) :
    Kept s₀ (srxRate p v bytes len s) := by
  unfold srxRate
  repeat' first
    | with_reducible assumption
    | with_reducible apply State.put_kept
    | with_reducible apply State.unlock_kept
    | with_reducible apply State.disableSrx_kept
    | with_reducible apply State.acquire_kept
    | with_reducible apply ite_kept
    | split

theorem State.takeStaged_kept {s₀ s : State} (h : Kept s₀ s) (p : ℕ) :
    Kept s₀ (s.takeStaged p) := by
  unfold State.takeStaged
  repeat' first
    | with_reducible assumption
    | with_reducible apply State.putFlag_kept
    | with_reducible apply State.setSrx_kept

theorem srxApply_kept {s₀ s : State} (h : Kept s₀ s) (p : ℕ) :
    Kept s₀ (srxApply p s) := by
  unfold srxApply
  repeat' first
    | with_reducible assumption
    | with_reducible apply State.draw_kept
    | with_reducible apply State.putFlag_kept
    | with_reducible apply State.setSrx_kept
    | with_reducible apply ite_kept
    | simp only [Kept.with_iff]
    | split

theorem State.showKeys_kept {s₀ s : State} (h : Kept s₀ s)  :
    Kept s₀ (s.showKeys) := by
  unfold State.showKeys
  repeat' first
    | with_reducible assumption
    | with_reducible apply State.put_kept

theorem State.takeKey_kept {s₀ s : State} (h : Kept s₀ s) (p : ℕ) (k : Option (List Byte)) :
    Kept s₀ (s.takeKey p k) := by
  unfold State.takeKey
  repeat' first
    | with_reducible assumption
    | with_reducible apply State.setSrx_kept
    | with_reducible apply State.putFlag_kept
    | with_reducible apply State.countWrap_kept
    | with_reducible apply State.showKeys_kept
    | simp only [Kept.with_iff]

theorem State.setKey_kept {s₀ s : State} (h : Kept s₀ s) (p : ℕ) (k : Option (List Byte)) :
    Kept s₀ (s.setKey p k) := by
  unfold State.setKey
  repeat' first
    | with_reducible assumption
    | with_reducible apply State.draw_kept
    | with_reducible apply State.setBoot_kept
    | with_reducible apply State.setSrx_kept
    | with_reducible apply State.putFlag_kept
    | with_reducible apply State.countWrap_kept
    | with_reducible apply State.seal_kept
    | with_reducible apply State.showKeys_kept
    | intro _ _ _
    | simp only [Kept.with_iff]
    | with_reducible apply ite_kept
    | split

theorem State.crossings_kept {s₀ s : State} (h : Kept s₀ s)  :
    Kept s₀ (s.crossings) := by
  unfold State.crossings
  repeat' first
    | with_reducible assumption
    | with_reducible apply State.takeStaged_kept
    | with_reducible apply State.setSrx_kept
    | with_reducible apply State.takeKey_kept
    | with_reducible apply foldl_kept
    | intro _ _ _
    | simp only [Kept.with_iff]
    | with_reducible apply ite_kept
    | split

theorem tileLinkTransfer_kept {s₀ s : State} (h : Kept s₀ s) (t : ℕ) :
    Kept s₀ (tileLinkTransfer t s) := by
  unfold tileLinkTransfer
  repeat' first
    | with_reducible assumption
    | with_reducible apply State.checkPass_kept
    | with_reducible apply State.assertFault_kept
    | with_reducible apply State.setTile_kept
    | with_reducible apply State.dropRec_kept
    | with_reducible apply State.toIntake_kept
    | simp only [Kept.with_iff]
    | with_reducible apply ite_kept
    | split

theorem recordAgeDrop_kept {s₀ s : State} (h : Kept s₀ s) (t : ℕ) :
    Kept s₀ (recordAgeDrop t s) := by
  unfold recordAgeDrop
  repeat' first
    | with_reducible assumption
    | with_reducible apply State.setTile_kept
    | with_reducible apply State.dropRec_kept
    | with_reducible apply foldl_kept
    | intro _ _ _

theorem lossRecord_kept {s₀ s : State} (h : Kept s₀ s) (point : ℕ) (p : ℕ) :
    Kept s₀ (lossRecord point p s) := by
  unfold lossRecord
  repeat' first
    | with_reducible assumption
    | with_reducible apply State.formLoss_kept
    | with_reducible apply ite_kept

end Sys2Proof.Machine
end

