-- ==== Sys2Proof/Laws/KeepExportOps.lean ====
section
/-! SUPPORT. What the functions of Machine/ExportOps.lean keep: variant, queue of commands, register file in canonical form,
ledger chain. -/

namespace Sys2Proof.Machine

theorem State.setQueue_kept {s₀ s : State} (h : Kept s₀ s) (q : ℕ) (x : Queue) :
    Kept s₀ (s.setQueue q x) := by
  refine h.withExp _ fun w => ?_
  unfold ExportEng.tablesWf at w ⊢
  rw [Bool.and_eq_true] at w ⊢
  exact ⟨w.1, SMap.insert_rising q x w.2⟩

theorem State.onQueue_kept {s₀ s : State} (h : Kept s₀ s) (q : ℕ) (f : Queue → Queue) :
    Kept s₀ (s.onQueue q f) := by
  unfold State.onQueue
  repeat' first
    | with_reducible assumption
    | with_reducible apply State.setQueue_kept
    | split

theorem State.poolStat_kept {s₀ s : State} (h : Kept s₀ s)  :
    Kept s₀ (s.poolStat) := by
  unfold State.poolStat
  repeat' first
    | with_reducible assumption
    | with_reducible apply State.put_kept

theorem State.setVtime_kept {s₀ s : State} (h : Kept s₀ s) (ch : ℕ) (v : ℕ) :
    Kept s₀ (s.setVtime ch v) := by
  unfold State.setVtime
  repeat' first
    | with_reducible assumption
    | simp only [Kept.with_iff]
    | simp only [Kept.with_exp_iff]
    | simp only [Kept.with_ctl_iff]
    | with_reducible apply ite_kept

theorem State.openQueue_kept {s₀ s : State} (h : Kept s₀ s) (q : ℕ) (ch : ℕ) (shadow : Bool) :
    Kept s₀ (s.openQueue q ch shadow) := by
  unfold State.openQueue
  repeat' first
    | with_reducible assumption
    | with_reducible apply State.resetRegs_kept
    | with_reducible apply State.put_kept
    | with_reducible apply State.poolStat_kept
    | with_reducible apply State.setQueue_kept
    | with_reducible apply ite_kept

theorem State.closeQueue_kept {s₀ s : State} (h : Kept s₀ s) (q : ℕ) :
    Kept s₀ (s.closeQueue q) := by
  unfold State.closeQueue
  split
  · exact h
  · refine State.poolStat_kept (Kept.withExp (State.put_kept h ..) _ fun w => ?_)
    unfold ExportEng.tablesWf at w ⊢
    rw [Bool.and_eq_true] at w ⊢
    exact ⟨w.1, SMap.erase_rising q w.2⟩

theorem State.dropMarks_kept {s₀ s : State} (h : Kept s₀ s) (r : ℕ) :
    Kept s₀ (s.dropMarks r) := by
  refine h.withExp _ fun w => ?_
  unfold ExportEng.tablesWf at w ⊢
  rw [Bool.and_eq_true] at w ⊢
  refine ⟨w.1, ?_⟩
  unfold SMap.rising at w ⊢
  rw [List.map_map]
  exact w.2

theorem State.regMark_kept {s₀ s : State} (h : Kept s₀ s) (q : ℕ) (depth : ℕ) (delay : ℕ) :
    Kept s₀ (s.regMark q depth delay) := by
  unfold State.regMark
  repeat' first
    | with_reducible assumption
    | with_reducible apply State.put_kept
    | with_reducible apply ite_kept

theorem State.accept_kept {s₀ s : State} (h : Kept s₀ s) (q : ℕ) (slot : ℕ) (r : Rec) :
    Kept s₀ (s.accept q slot r) := by
  unfold State.accept
  repeat' first
    | with_reducible assumption
    | with_reducible apply State.putPair_kept
    | with_reducible apply State.regMark_kept
    | with_reducible apply State.setQueue_kept
    | with_reducible apply ite_kept
    | split

theorem State.queueLoss_kept {s₀ s : State} (h : Kept s₀ s) (q : ℕ) :
    Kept s₀ (s.queueLoss q) := by
  unfold State.queueLoss
  repeat' first
    | with_reducible assumption
    | with_reducible apply State.accept_kept
    | with_reducible apply State.setQueue_kept
    | with_reducible apply ite_kept
    | split

theorem State.lossFreed_kept {s₀ s : State} (h : Kept s₀ s) (q : ℕ) :
    Kept s₀ (s.lossFreed q) := by
  unfold State.lossFreed
  repeat' first
    | with_reducible assumption
    | with_reducible apply State.queueLoss_kept
    | with_reducible apply ite_kept
    | split

theorem State.dropAtQueue_kept {s₀ s : State} (h : Kept s₀ s) (q : ℕ) (r : Rec) :
    Kept s₀ (s.dropAtQueue q r) := by
  unfold State.dropAtQueue
  repeat' first
    | with_reducible assumption
    | with_reducible apply State.hubEvent_kept
    | with_reducible apply State.count_kept
    | with_reducible apply State.onQueue_kept

theorem State.purge_kept {s₀ s : State} (h : Kept s₀ s) (q : ℕ) (n : ℕ) :
    Kept s₀ (s.purge q n) := by
  unfold State.purge
  repeat' first
    | with_reducible assumption
    | with_reducible apply State.lossFreed_kept
    | with_reducible apply State.dropAtQueue_kept
    | with_reducible apply State.setQueue_kept
    | with_reducible apply State.onQueue_kept
    | with_reducible apply State.assertFault_kept
    | with_reducible apply foldl_kept
    | intro _ _ _
    | with_reducible apply ite_kept
    | split
    | simp only [Kept.with_iff]
    | simp only [Kept.with_ctl_iff]

theorem State.enqueue_kept {s₀ s : State} (h : Kept s₀ s) (q : ℕ) (r : Rec) :
    Kept s₀ (s.enqueue q r) := by
  unfold State.enqueue
  repeat' first
    | with_reducible assumption
    | with_reducible apply State.dropAtQueue_kept
    | with_reducible apply State.accept_kept
    | with_reducible apply State.queueLoss_kept
    | with_reducible apply ite_kept
    | split

theorem State.anchorQueue_kept {s₀ s : State} (h : Kept s₀ s) (q : ℕ) :
    Kept s₀ (s.anchorQueue q) := by
  unfold State.anchorQueue
  repeat' first
    | with_reducible assumption
    | with_reducible apply State.accept_kept
    | with_reducible apply State.queueLoss_kept
    | with_reducible apply State.setQueue_kept
    | with_reducible apply ite_kept
    | split

theorem State.anchorAll_kept {s₀ s : State} (h : Kept s₀ s)  :
    Kept s₀ (s.anchorAll) := by
  unfold State.anchorAll
  repeat' first
    | with_reducible assumption
    | with_reducible apply State.anchorQueue_kept
    | with_reducible apply State.postAnchor_kept
    | with_reducible apply foldl_kept
    | intro _ _ _
    | simp only [Kept.with_iff]
    | simp only [Kept.with_exp_iff]
    | simp only [Kept.with_ctl_iff]

theorem State.anchorOpen_kept {s₀ s : State} (h : Kept s₀ s) (q : ℕ) :
    Kept s₀ (s.anchorOpen q) := by
  unfold State.anchorOpen
  repeat' first
    | with_reducible assumption
    | with_reducible apply State.postAnchor_kept
    | with_reducible apply State.anchorQueue_kept
    | simp only [Kept.with_iff]
    | simp only [Kept.with_exp_iff]
    | simp only [Kept.with_ctl_iff]

theorem State.deliver_kept {s₀ s : State} (h : Kept s₀ s) (p : ℕ) (r : Rec) :
    Kept s₀ (s.deliver p r) := by
  unfold State.deliver
  repeat' first
    | with_reducible assumption
    | with_reducible apply State.storeRecord_kept
    | with_reducible apply State.count_kept
    | with_reducible apply State.checkRec_kept
    | with_reducible apply State.enqueue_kept
    | with_reducible apply foldl_kept
    | intro _ _ _
    | split

end Sys2Proof.Machine
end

