-- ==== Sys2Proof/Laws/KeepExport.lean ====
section
/-! SUPPORT. What the functions of Machine/Export.lean keep: variant, queue of commands, register file in canonical form,
ledger chain. -/

namespace Sys2Proof.Machine

theorem State.summaries_kept {s₀ s : State} (h : Kept s₀ s) (p : ℕ) (due : PolWin → Bool) :
    Kept s₀ (s.summaries p due) := by
  unfold State.summaries
  repeat' first
    | with_reducible assumption
    | with_reducible apply State.setSrx_kept
    | with_reducible apply State.deliver_kept
    | with_reducible apply foldl_kept
    | intro _ _ _

theorem State.policeStamp_kept {s₀ s : State} (h : Kept s₀ s) (r : Rec) :
    Kept s₀ (s.policeStamp r) := by
  unfold State.policeStamp
  repeat' first
    | with_reducible assumption
    | with_reducible apply State.summaries_kept
    | with_reducible apply State.setSrx_kept
    | with_reducible apply State.deliver_kept
    | with_reducible apply ite_kept

theorem State.takeSample_kept {s₀ s : State} (h : Kept s₀ s) (r : Rec) :
    Kept s₀ (s.takeSample r) := by
  unfold State.takeSample
  repeat' first
    | with_reducible assumption
    | simp only [Kept.with_iff]
    | simp only [Kept.with_exp_iff]
    | simp only [Kept.with_ctl_iff]
    | with_reducible apply ite_kept

theorem recordHandoff_kept {s₀ s : State} (h : Kept s₀ s) (t : ℕ) :
    Kept s₀ (recordHandoff t s) := by
  unfold recordHandoff
  repeat' first
    | with_reducible assumption
    | with_reducible apply State.setTile_kept
    | with_reducible apply State.dropRec_kept
    | with_reducible apply State.hubEvent_kept
    | with_reducible apply State.policeStamp_kept
    | with_reducible apply State.takeSample_kept
    | with_reducible apply State.deliver_kept
    | with_reducible apply ite_kept
    | split
    | dsimp only
    | simp only [Kept.with_iff]
    | simp only [Kept.with_exp_iff]

theorem summary_kept {s₀ s : State} (h : Kept s₀ s) (p : ℕ) :
    Kept s₀ (summary p s) := by
  unfold summary
  repeat' first
    | with_reducible assumption
    | with_reducible apply State.summaries_kept

theorem State.endWindows_kept {s₀ s : State} (h : Kept s₀ s)  :
    Kept s₀ (s.endWindows) := by
  unfold State.endWindows
  repeat' first
    | with_reducible assumption
    | with_reducible apply State.setSrx_kept
    | with_reducible apply foldl_kept
    | intro _ _ _
    | with_reducible apply ite_kept

theorem polApply_kept {s₀ s : State} (h : Kept s₀ s) (p : ℕ) :
    Kept s₀ (polApply p s) := by
  unfold polApply
  repeat' first
    | with_reducible assumption
    | with_reducible apply State.setSrx_kept
    | with_reducible apply ite_kept

theorem State.takeHead_kept {s₀ s t : State} {i : QItem} (h : Kept s₀ s) {q : ℕ} {w : Bool} (e : s.takeHead q w = some (i, t)) :
    Kept s₀ t := by
  unfold State.takeHead at e
  split at e
  · cases e
  · split at e
    · cases e
    · cases e
      apply State.lossFreed_kept
      apply State.regMark_kept
      apply State.setQueue_kept
      split
      · exact State.setVtime_kept h ..
      · exact h

theorem State.toRing_kept {s₀ s : State} (h : Kept s₀ s) (q : ℕ) (r : Rec) :
    Kept s₀ (s.toRing q r) := by
  unfold State.toRing
  repeat' first
    | with_reducible assumption
    | with_reducible apply State.hubEvent_kept
    | with_reducible apply State.dmaFault_kept
    | with_reducible apply State.fetchRecords_kept
    | with_reducible apply State.writeStat_kept
    | with_reducible apply State.setSess_kept
    | split
    | with_reducible apply ite_kept

theorem State.sendDgram_kept {s₀ s : State} (h : Kept s₀ s) (q n flags : ℕ) (weighted : Bool) :
    Kept s₀ (s.sendDgram q n flags weighted) := by
  have hfold : ∀ (l : List ℕ) (acc : List (List Byte) × State), Kept s₀ acc.2 →
      Kept s₀ (l.foldl (fun acc _ =>
        match State.takeHead acc.2 q weighted with
        | some (i, s') => (acc.1 ++ [i.r.bytes], s')
        | none => acc) acc).2 := by
    intro l
    induction l with
    | nil => exact fun _ k => k
    | cons x l ih =>
      intro acc k
      refine ih _ ?_
      dsimp only
      split
      · exact State.takeHead_kept k ‹_›
      · exact k
  unfold State.sendDgram
  split
  · exact h
  · lift_lets
    intro k qpos r e d0 d s1
    split
    · exact h
    · have h1 : Kept s₀ s1 :=
        State.hubEvent_kept (State.fetchRecords_kept (State.onQueue_kept (hfold _ ([], s) h) ..) ..) ..
      split
      · exact h1.withExp _ id
      · exact h1.withExp _ id

theorem State.refill_kept {s₀ s : State} (h : Kept s₀ s)  :
    Kept s₀ (s.refill) := by
  unfold State.refill
  repeat' first
    | with_reducible assumption
    | with_reducible apply State.onQueue_kept
    | with_reducible apply foldl_kept
    | intro _ _ _
    | simp only [Kept.with_iff]
    | simp only [Kept.with_exp_iff]
    | with_reducible apply ite_kept
    | split

theorem shaperRefill_kept {s₀ s : State} (h : Kept s₀ s)  :
    Kept s₀ (shaperRefill s) := by
  unfold shaperRefill
  repeat' first
    | with_reducible assumption
    | with_reducible apply State.refill_kept
    | with_reducible apply State.onQueue_kept
    | with_reducible apply foldl_kept
    | intro _ _ _
    | with_reducible apply ite_kept
    | split

theorem State.sendWeighted_kept {s₀ s : State} (h : Kept s₀ s) (q : ℕ) :
    Kept s₀ (s.sendWeighted q) := by
  unfold State.sendWeighted
  repeat' first
    | with_reducible assumption
    | (with_reducible refine State.takeHead_kept ?_ (by assumption))
    | with_reducible apply State.toRing_kept
    | with_reducible apply State.purge_kept
    | with_reducible apply State.sendDgram_kept
    | with_reducible apply ite_kept
    | split

theorem channelSend_kept {s₀ s : State} (h : Kept s₀ s) (ch : ℕ) : Kept s₀ (channelSend ch s) := by
  unfold channelSend
  have k := shaperRefill_kept h
  dsimp only
  split
  · exact k
  · exact State.sendWeighted_kept k _

theorem State.fcRelease_kept {s₀ s : State} (h : Kept s₀ s) (q : ℕ) :
    Kept s₀ (s.fcRelease q) := by
  unfold State.fcRelease
  repeat' first
    | with_reducible assumption
    | (with_reducible refine State.takeHead_kept ?_ (by assumption))
    | with_reducible apply State.count_kept
    | with_reducible apply State.sendDgram_kept
    | with_reducible apply State.toRing_kept
    | with_reducible apply State.purge_kept
    | with_reducible apply foldl_kept
    | intro _ _ _
    | simp only [Kept.with_iff]
    | simp only [Kept.with_exp_iff]
    | simp only [Kept.with_ctl_iff]
    | with_reducible apply ite_kept
    | split
    | dsimp only

theorem State.reserve_kept {s₀ s : State} (h : Kept s₀ s) (ch : ℕ) (q : ℕ) (late : Bool) :
    Kept s₀ (s.reserve ch q late) := by
  unfold State.reserve
  repeat' first
    | with_reducible assumption
    | with_reducible apply State.count_kept
    | with_reducible apply State.fcRelease_kept
    | simp only [Kept.with_iff]
    | simp only [Kept.with_exp_iff]
    | with_reducible apply ite_kept
    | split

theorem fcSlot_kept {s₀ s : State} (h : Kept s₀ s) (ch : ℕ) : Kept s₀ (fcSlot ch s) := by
  unfold fcSlot
  refine ite_kept h ?_
  dsimp only
  exact foldl_kept (h.withExp _ id) fun s q k => State.reserve_kept k ..

theorem State.fcStart_kept {s₀ s : State} (h : Kept s₀ s)  :
    Kept s₀ (s.fcStart) := by
  unfold State.fcStart
  repeat' first
    | with_reducible assumption
    | with_reducible apply State.fcRelease_kept
    | with_reducible apply foldl_kept
    | intro _ _ _
    | simp only [Kept.with_iff]
    | simp only [Kept.with_exp_iff]
    | with_reducible apply ite_kept
    | split

theorem datagramFlush_kept {s₀ s : State} (h : Kept s₀ s) (q : ℕ) : Kept s₀ (datagramFlush q s) := by
  unfold datagramFlush
  have k := shaperRefill_kept h
  dsimp only
  split
  · exact k
  · exact ite_kept (State.sendWeighted_kept k _) k

theorem queueLossRecord_kept {s₀ s : State} (h : Kept s₀ s) (q : ℕ) :
    Kept s₀ (queueLossRecord q s) := by
  unfold queueLossRecord
  repeat' first
    | with_reducible assumption
    | with_reducible apply State.queueLoss_kept
    | with_reducible apply ite_kept
    | split

theorem qDepthSample_kept {s₀ s : State} (h : Kept s₀ s)  :
    Kept s₀ (qDepthSample s) := by
  unfold qDepthSample
  repeat' first
    | with_reducible assumption
    | with_reducible apply State.put_kept
    | with_reducible apply foldl_kept
    | intro _ _ _
    | with_reducible apply ite_kept
    | split

theorem State.writeShare_kept {s₀ s : State} (h : Kept s₀ s) (q : ℕ) (n : ℕ) :
    Kept s₀ (s.writeShare q n) := by
  unfold State.writeShare
  repeat' first
    | with_reducible assumption
    | with_reducible apply State.poolStat_kept
    | with_reducible apply State.put_kept

end Sys2Proof.Machine
end

