-- ==== Sys2Proof/Laws/KeepPairOps.lean ====
section
/-! SUPPORT. What the functions of Machine/PairOps.lean keep: variant, queue of commands, register file in canonical form,
ledger chain. -/

namespace Sys2Proof.Machine

theorem State.setPair_kept {s₀ s : State} (h : Kept s₀ s) (p : PairUnit) :
    Kept s₀ (s.setPair p) := by
  unfold State.setPair
  repeat' first
    | with_reducible assumption
    | simp only [Kept.with_iff]
    | simp only [Kept.with_ctl_iff]

theorem State.setTseq_kept {s₀ s : State} (h : Kept s₀ s) (n : ℕ) :
    Kept s₀ (s.setTseq n) := by
  unfold State.setTseq
  repeat' first
    | with_reducible assumption
    | with_reducible apply State.putPair_kept

theorem State.sendFrame_kept {s₀ s : State} (h : Kept s₀ s) (kind : ℕ) (body : List Byte) (clear : Option (List Byte)) :
    Kept s₀ (s.sendFrame kind body clear) := by
  unfold State.sendFrame
  repeat' first
    | with_reducible assumption
    | with_reducible apply State.hubEvent_kept
    | with_reducible apply State.fetchFrame_kept
    | with_reducible apply State.setPair_kept
    | with_reducible apply ite_kept
    | split

theorem State.sendTxn_kept {s₀ s : State} (h : Kept s₀ s) (ty : ℕ) (data : List ℕ) (who : ℕ) (q : ℕ) :
    Kept s₀ (s.sendTxn ty data who q) := by
  unfold State.sendTxn
  repeat' first
    | with_reducible assumption
    | with_reducible apply State.sendFrame_kept
    | with_reducible apply State.setTseq_kept
    | with_reducible apply State.setPair_kept
    | with_reducible apply foldl_kept
    | intro _ _ _
    | simp only [Kept.with_iff]

theorem State.sendStream_kept {s₀ s : State} (h : Kept s₀ s) (ty : ℕ) (data : List ℕ) :
    Kept s₀ (s.sendStream ty data) := by
  unfold State.sendStream
  repeat' first
    | with_reducible assumption
    | with_reducible apply State.sendFrame_kept
    | with_reducible apply foldl_kept
    | intro _ _ _

theorem State.tellTxn_kept {s₀ s : State} (h : Kept s₀ s) (ty : ℕ) (data : List ℕ) :
    Kept s₀ (s.tellTxn ty data) := by
  unfold State.tellTxn
  repeat' first
    | with_reducible assumption
    | with_reducible apply State.sendTxn_kept
    | with_reducible apply ite_kept

theorem State.sendCtl_kept {s₀ s : State} (h : Kept s₀ s) (sub : ℕ) (tseq : ℕ) (ws : List ℕ) :
    Kept s₀ (s.sendCtl sub tseq ws) := by
  unfold State.sendCtl
  repeat' first
    | with_reducible assumption
    | with_reducible apply State.sendFrame_kept
    | with_reducible apply State.setPair_kept
    | simp only [Kept.with_iff]
    | simp only [Kept.with_ctl_iff]

theorem State.sendCtlBytes_kept {s₀ s : State} (h : Kept s₀ s) (sub : ℕ) (bytes : List Byte) (clear : Option (List Byte)) :
    Kept s₀ (s.sendCtlBytes sub bytes clear) := by
  unfold State.sendCtlBytes
  repeat' first
    | with_reducible assumption
    | with_reducible apply State.sendFrame_kept
    | with_reducible apply State.setPair_kept
    | simp only [Kept.with_iff]
    | simp only [Kept.with_ctl_iff]

theorem State.sendVoid_kept {s₀ s : State} (h : Kept s₀ s) (tseq : ℕ) :
    Kept s₀ (s.sendVoid tseq) := by
  unfold State.sendVoid
  repeat' first
    | with_reducible assumption
    | with_reducible apply State.sendCtl_kept
    | with_reducible apply State.count_kept

theorem State.logPair_kept {s₀ s : State} (h : Kept s₀ s) (q : ℕ) (role : ℕ) (kind : ℕ) :
    Kept s₀ (s.logPair q role kind) := by
  unfold State.logPair
  repeat' first
    | with_reducible assumption
    | with_reducible apply State.log_kept
    | with_reducible apply State.ledgerRefused_kept
    | with_reducible apply ite_kept

end Sys2Proof.Machine
end

