-- ==== Sys2Proof/Laws/KeepSessionOps.lean ====
section
/-! SUPPORT. What the functions of Machine/SessionOps.lean keep: variant, queue of commands, register file in canonical form,
ledger chain. -/

namespace Sys2Proof.Machine

theorem State.showTotals_kept {s₀ s : State} (h : Kept s₀ s)  :
    Kept s₀ (s.showTotals) := by
  unfold State.showTotals
  repeat' first
    | with_reducible assumption
    | with_reducible apply State.put_kept

theorem State.shut_kept {s₀ s : State} (h : Kept s₀ s) (q : ℕ) :
    Kept s₀ (s.shut q) := by
  unfold State.shut
  repeat' first
    | with_reducible assumption
    | with_reducible apply State.setSess_kept
    | with_reducible apply State.closeQueue_kept
    | with_reducible apply State.put_kept
    | with_reducible apply State.sendEth_kept
    | with_reducible apply State.writeStat_kept
    | split

theorem State.logClose_kept {s₀ s : State} (h : Kept s₀ s) (q : ℕ) (cause : ℕ) :
    Kept s₀ (s.logClose q cause) := by
  unfold State.logClose
  repeat' first
    | with_reducible assumption
    | with_reducible apply State.log_kept
    | with_reducible apply State.onSess_kept
    | with_reducible apply State.ledgerStat_kept
    | intro _ _ _
    | simp only [Kept.with_iff]

theorem State.beginClose_kept {s₀ s : State} (h : Kept s₀ s) (q : ℕ) (cause : ℕ) :
    Kept s₀ (s.beginClose q cause) := by
  unfold State.beginClose
  repeat' first
    | with_reducible assumption
    | with_reducible apply State.logClose_kept
    | with_reducible apply State.shut_kept
    | with_reducible apply State.tellTxn_kept
    | with_reducible apply ite_kept
    | split

theorem State.endClose_kept {s₀ s : State} (h : Kept s₀ s) (q : ℕ) :
    Kept s₀ (s.endClose q) := by
  unfold State.endClose
  repeat' first
    | with_reducible assumption
    | with_reducible apply State.dropMarks_kept
    | with_reducible apply State.writeStat_kept
    | with_reducible apply State.put_kept
    | with_reducible apply State.resetRegs_kept
    | with_reducible apply State.dropSess_kept
    | with_reducible apply State.showTotals_kept
    | simp only [Kept.with_iff]
    | simp only [Kept.with_ctl_iff]
    | with_reducible apply ite_kept
    | intro _ _ _
    | split

theorem sessionClosed_kept {s₀ s : State} (h : Kept s₀ s) (q : ℕ) :
    Kept s₀ (sessionClosed q s) := by
  unfold sessionClosed
  repeat' first
    | with_reducible assumption
    | with_reducible apply State.endClose_kept
    | with_reducible apply ite_kept
    | split

theorem State.openingRegs_kept {s₀ s : State} (h : Kept s₀ s) (q : ℕ) (j : ℕ) (o : OpenReq) :
    Kept s₀ (s.openingRegs q j o) := by
  unfold State.openingRegs
  repeat' first
    | with_reducible assumption
    | with_reducible apply State.resetRegs_kept
    | with_reducible apply State.put_kept
    | intro _ _ _
    | with_reducible apply ite_kept
    | split

theorem State.beginOpening_kept {s₀ s : State} (h : Kept s₀ s) (q : ℕ) (j : ℕ) (o : OpenReq) :
    Kept s₀ (s.beginOpening q j o) := by
  unfold State.beginOpening
  repeat' first
    | with_reducible assumption
    | with_reducible apply State.openingRegs_kept
    | with_reducible apply State.showTotals_kept
    | simp only [Kept.with_iff]

theorem State.dropOpening_kept {s₀ s : State} (h : Kept s₀ s) (q : ℕ) :
    Kept s₀ (s.dropOpening q) := by
  unfold State.dropOpening
  repeat' first
    | with_reducible assumption
    | with_reducible apply State.resetRegs_kept
    | with_reducible apply State.showTotals_kept
    | intro _ _ _
    | simp only [Kept.with_iff]
    | with_reducible apply ite_kept
    | split

theorem State.freeId_kept {s₀ s : State} (h : Kept s₀ s) : Kept s₀ s.freeId.2 := State.draw_kept h

theorem State.chooseOpen_kept {s₀ s : State} (h : Kept s₀ s) (o : OpenReq) : Kept s₀ (s.chooseOpen o).2 := by
  unfold State.chooseOpen
  dsimp only
  split
  · exact h
  · exact State.freeId_kept h

theorem State.createSession_kept {s₀ s : State} (h : Kept s₀ s) (q : ℕ) (j : ℕ) (o : OpenReq) (eth : Option EthSide) :
    Kept s₀ (s.createSession q j o eth) := by
  unfold State.createSession
  repeat' first
    | with_reducible assumption
    | with_reducible apply State.openingRegs_kept
    | with_reducible apply State.resetRegs_kept
    | with_reducible apply State.put_kept
    | with_reducible apply State.setSess_kept
    | with_reducible apply State.setPair_kept
    | with_reducible apply State.log_kept
    | with_reducible apply State.onQueue_kept
    | with_reducible apply State.openQueue_kept
    | with_reducible apply State.postAnchor_kept
    | with_reducible apply State.anchorOpen_kept
    | with_reducible apply State.showTotals_kept
    | with_reducible apply ite_kept
    | intro _ _ _
    | simp only [Kept.with_iff]
    | split

theorem State.windowDone_kept {s₀ s : State} (h : Kept s₀ s) (view : ℕ) (status : ℕ) (result : List Byte) :
    Kept s₀ (s.windowDone view status result) := by
  unfold State.windowDone
  repeat' first
    | with_reducible assumption
    | with_reducible apply State.wr_kept
    | with_reducible apply State.putFlag_kept
    | with_reducible apply State.ledgerRefused_kept
    | with_reducible apply foldl_kept
    | intro _ _ _
    | simp only [Kept.with_iff]
    | simp only [Kept.with_ctl_iff]
    | with_reducible apply ite_kept
    | split

theorem State.submitOpen_kept {s₀ s : State} (h : Kept s₀ s) (view : ℕ) (w : Submitted) : Kept s₀ (s.submitOpen view w) := by
  unfold State.submitOpen
  have k := State.chooseOpen_kept h (s.judgeOpen view w).2
  dsimp only
  split
  · exact State.windowDone_kept h ..
  · split
    · split
      · exact (State.beginOpening_kept (State.sendTxn_kept k ..) ..).with ..
      · exact State.windowDone_kept h ..
    · exact State.windowDone_kept (State.createSession_kept k ..) ..

theorem go_kept {s₀ s : State} (h : Kept s₀ s) (view : ℕ) (mem : OpenMem) :
    Kept s₀ (go view mem s) := by
  unfold go
  repeat' first
    | with_reducible assumption
    | with_reducible apply State.putFlag_kept
    | simp only [Kept.with_iff]
    | simp only [Kept.with_ctl_iff]
    | with_reducible apply ite_kept

theorem cmdTail_kept {s₀ s : State} (h : Kept s₀ s) (d : Doorbell) (v : Word) :
    Kept s₀ (cmdTail d v s) := by
  unfold cmdTail
  repeat' first
    | with_reducible assumption
    | with_reducible apply State.setSess_kept
    | with_reducible apply State.doorbellErr_kept
    | with_reducible apply ite_kept
    | split

theorem cplHead_kept {s₀ s : State} (h : Kept s₀ s) (d : Doorbell) (v : Word) :
    Kept s₀ (cplHead d v s) := by
  unfold cplHead
  repeat' first
    | with_reducible assumption
    | with_reducible apply State.setSess_kept
    | with_reducible apply State.doorbellErr_kept
    | with_reducible apply ite_kept
    | split

theorem evtHead_kept {s₀ s : State} (h : Kept s₀ s) (d : Doorbell) (v : Word) :
    Kept s₀ (evtHead d v s) := by
  unfold evtHead
  repeat' first
    | with_reducible assumption
    | with_reducible apply State.flushEvts_kept
    | with_reducible apply State.setSess_kept
    | with_reducible apply State.doorbellErr_kept
    | with_reducible apply ite_kept
    | split

theorem recHead_kept {s₀ s : State} (h : Kept s₀ s) (d : Doorbell) (v : Word) :
    Kept s₀ (recHead d v s) := by
  unfold recHead
  repeat' first
    | with_reducible assumption
    | with_reducible apply State.setSess_kept
    | with_reducible apply State.doorbellErr_kept
    | with_reducible apply ite_kept
    | split

theorem msixModerationEnd_kept {s₀ s : State} (h : Kept s₀ s) (q : ℕ) (ring : ℕ) :
    Kept s₀ (msixModerationEnd q ring s) := by
  unfold msixModerationEnd
  repeat' first
    | with_reducible assumption
    | with_reducible apply State.signal_kept
    | with_reducible apply State.setSess_kept
    | with_reducible apply ite_kept
    | split
    | simp only [Kept.with_iff]

theorem State.pcieParity_kept {s₀ s : State} (h : Kept s₀ s) (q : ℕ) :
    Kept s₀ (s.pcieParity q) := by
  unfold State.pcieParity
  repeat' first
    | with_reducible assumption
    | with_reducible apply State.checkPass_kept
    | with_reducible apply State.assertFault_kept
    | with_reducible apply State.dmaFault_kept
    | with_reducible apply foldl_kept
    | intro _ _ _
    | with_reducible apply ite_kept
    | split

theorem State.bulkParity_kept {s₀ s : State} (h : Kept s₀ s) (q : ℕ) :
    Kept s₀ (s.bulkParity q) := by
  unfold State.bulkParity
  repeat' first
    | with_reducible assumption
    | with_reducible apply State.checkClear_kept
    | with_reducible apply State.assertFault_kept
    | with_reducible apply State.put_kept
    | with_reducible apply ite_kept
    | split

theorem State.takeCmd_kept {s₀ s : State} (h : Kept s₀ s) (q : ℕ) (x : Sess) (desc : List Byte) (buf : Option (List Byte)) (sigOk : Bool) :
    Kept s₀ (s.takeCmd q x desc buf sigOk) := by
  unfold State.takeCmd
  repeat' first
    | with_reducible assumption
    | with_reducible apply State.setSess_kept
    | with_reducible apply State.put_kept
    | with_reducible apply State.checkWrite_kept
    | with_reducible apply State.bulkParity_kept
    | with_reducible apply State.storeCommand_kept
    | with_reducible apply State.hubEvent_kept
    | with_reducible apply State.pcieParity_kept
    | with_reducible apply State.writeStat_kept
    | with_reducible apply State.complete_kept
    | intro _ _ _
    | simp only [Kept.with_iff]
    | with_reducible apply ite_kept
    | split

theorem commandFetch_kept {s₀ s : State} (h : Kept s₀ s) (q : ℕ) (f : Fetch) :
    Kept s₀ (commandFetch q f s) := by
  unfold commandFetch
  repeat' first
    | with_reducible assumption
    | with_reducible apply State.takeCmd_kept
    | with_reducible apply State.dmaFault_kept
    | with_reducible apply State.setSess_kept
    | intro _ _ _
    | with_reducible apply ite_kept
    | split

theorem State.beginWarm_kept {s₀ s : State} (h : Kept s₀ s)  :
    Kept s₀ (s.beginWarm) := by
  unfold State.beginWarm
  repeat' first
    | with_reducible assumption
    | with_reducible apply State.setPlan_kept
    | with_reducible apply State.shut_kept
    | with_reducible apply State.putFlag_kept
    | with_reducible apply State.dropOpening_kept
    | with_reducible apply State.setBoot_kept
    | with_reducible apply State.refreshGo_kept
    | with_reducible apply State.warmGoes_kept
    | with_reducible apply foldl_kept
    | intro _ _ _
    | simp only [Kept.with_iff]
    | with_reducible apply ite_kept
    | split

theorem State.closeFn_kept {s₀ s : State} (h : Kept s₀ s) (fn : ℕ) (cause : ℕ) (stop : Bool) :
    Kept s₀ (s.closeFn fn cause stop) := by
  unfold State.closeFn
  repeat' first
    | with_reducible assumption
    | with_reducible apply State.putFlag_kept
    | with_reducible apply State.beginClose_kept
    | with_reducible apply foldl_kept
    | intro _ _ _
    | simp only [Kept.with_iff]
    | simp only [Kept.with_ctl_iff]
    | with_reducible apply ite_kept

theorem State.setNumVfs_kept {s₀ s : State} (h : Kept s₀ s) (n : ℕ) :
    Kept s₀ (s.setNumVfs n) := by
  unfold State.setNumVfs
  repeat' first
    | with_reducible assumption
    | with_reducible apply State.resetRegs_kept
    | simp only [Kept.with_iff]
    | simp only [Kept.with_ctl_iff]

theorem State.removeVfs_kept {s₀ s : State} (h : Kept s₀ s) (n : ℕ) (cause : ℕ) :
    Kept s₀ (s.removeVfs n cause) := by
  unfold State.removeVfs
  repeat' first
    | with_reducible assumption
    | with_reducible apply State.setNumVfs_kept
    | with_reducible apply State.closeFn_kept
    | with_reducible apply foldl_kept
    | intro _ _ _

theorem State.resetMsix_kept {s₀ s : State} (h : Kept s₀ s) (p : ℕ → Bool) :
    Kept s₀ (s.resetMsix p) := by
  unfold State.resetMsix
  repeat' first
    | with_reducible assumption
    | intro _ _ _
    | simp only [Kept.with_iff]

theorem functionLevelReset_kept {s₀ s : State} (h : Kept s₀ s) (fn : ℕ) :
    Kept s₀ (functionLevelReset fn s) := by
  unfold functionLevelReset
  repeat' first
    | with_reducible assumption
    | with_reducible apply State.closeFn_kept
    | with_reducible apply State.resetMsix_kept
    | with_reducible apply State.resetCfg_kept
    | with_reducible apply State.removeVfs_kept
    | simp only [Kept.with_iff]
    | with_reducible apply ite_kept
    | split

theorem vfRemoval_kept {s₀ s : State} (h : Kept s₀ s) (numVfs : ℕ) :
    Kept s₀ (vfRemoval numVfs s) := by
  unfold vfRemoval
  repeat' first
    | with_reducible assumption
    | with_reducible apply State.removeVfs_kept
    | with_reducible apply ite_kept

theorem vfEnable_kept {s₀ s : State} (h : Kept s₀ s) (numVfs : ℕ) :
    Kept s₀ (vfEnable numVfs s) := by
  unfold vfEnable
  repeat' first
    | with_reducible assumption
    | simp only [Kept.with_iff]
    | simp only [Kept.with_ctl_iff]
    | with_reducible apply ite_kept

theorem State.resumeDma_kept {s₀ s : State} (h : Kept s₀ s) (q : ℕ) :
    Kept s₀ (s.resumeDma q) := by
  unfold State.resumeDma
  repeat' first
    | with_reducible assumption
    | with_reducible apply State.setSess_kept
    | with_reducible apply State.flushEvts_kept
    | with_reducible apply State.writeCpl_kept
    | with_reducible apply foldl_kept
    | intro _ _ _
    | split

theorem busMasterEnable_kept {s₀ s : State} (h : Kept s₀ s) (fn : ℕ) (on : Bool) (wrOk : Bool) :
    Kept s₀ (busMasterEnable fn on wrOk s) := by
  unfold busMasterEnable
  repeat' first
    | with_reducible assumption
    | with_reducible apply State.resumeDma_kept
    | with_reducible apply State.sendPending_kept
    | with_reducible apply foldl_kept
    | intro _ _ _
    | simp only [Kept.with_iff]
    | with_reducible apply ite_kept
    | split

theorem perstN_kept {s₀ s : State} (h : Kept s₀ s)  :
    Kept s₀ (perstN s) := by
  unfold perstN
  repeat' first
    | with_reducible assumption
    | with_reducible apply State.setBoot_kept
    | with_reducible apply State.closeFn_kept
    | with_reducible apply State.setNumVfs_kept
    | with_reducible apply State.resetMsix_kept
    | with_reducible apply State.resetCfg_kept
    | with_reducible apply foldl_kept
    | intro _ _ _
    | simp only [Kept.with_iff]

theorem perstNRelease_kept {s₀ s : State} (h : Kept s₀ s)  :
    Kept s₀ (perstNRelease s) := by
  unfold perstNRelease
  repeat' first
    | with_reducible assumption
    | with_reducible apply State.setBoot_kept
    | simp only [Kept.with_iff]
    | simp only [Kept.with_ctl_iff]
    | with_reducible apply ite_kept

end Sys2Proof.Machine
end

