-- ==== Sys2Proof/Laws/KeepEthernet.lean ====
section
/-! SUPPORT. What the functions of Machine/Ethernet.lean keep: variant, queue of commands, register file in canonical form,
ledger chain. -/

namespace Sys2Proof.Machine

theorem State.macBuffer_kept {s₀ s : State} (h : Kept s₀ s) (port : ℕ) {f : State → State} (hf : ∀ t, Kept s₀ t → Kept s₀ (f t)) :
    Kept s₀ (s.macBuffer port f) := by
  unfold State.macBuffer
  dsimp only
  split
  · exact State.assertFault_kept (State.checkPass_kept h _) ..
  · exact hf _ h

theorem State.reply_kept {s₀ s : State} (h : Kept s₀ s) (port : ℕ) (d : Sent) :
    Kept s₀ (s.reply port d) := by
  unfold State.reply
  repeat' first
    | with_reducible assumption
    | with_reducible apply State.hubEvent_kept
    | simp only [Kept.with_iff]
    | simp only [Kept.with_ctl_iff]
    | with_reducible apply ite_kept

theorem State.reject_kept {s₀ s : State} (h : Kept s₀ s) (h : Hello) (status : ℕ) :
    Kept s₀ (s.reject h status) := by
  unfold State.reject
  repeat' first
    | with_reducible assumption
    | with_reducible apply State.ledgerRefused_kept
    | with_reducible apply State.reply_kept
    | with_reducible apply ite_kept

theorem State.acceptHello_kept {s₀ s : State} (h : Kept s₀ s) (h : Hello) (q : ℕ) (o : OpenReq) :
    Kept s₀ (s.acceptHello h q o) := by
  unfold State.acceptHello
  repeat' first
    | with_reducible assumption
    | with_reducible apply State.reply_kept
    | with_reducible apply State.createSession_kept
    | simp only [Kept.with_iff]
    | simp only [Kept.with_ctl_iff]

theorem hello_kept {s₀ s : State} (h : Kept s₀ s) (x : Hello) : Kept s₀ (hello x s) := by
  unfold hello
  have k := State.chooseOpen_kept h (s.judgeHello x).2
  dsimp only
  split
  · split
    · exact State.reject_kept h ..
    · split
      · split
        · exact (State.beginOpening_kept (State.sendTxn_kept k ..) ..).with ..
        · exact State.reject_kept h ..
      · exact State.acceptHello_kept k ..
  · exact h

theorem State.rxTake_kept {s₀ s : State} (h : Kept s₀ s) (d : Datagram) (x : Sess) (e : EthSide) :
    Kept s₀ (s.rxTake d x e) := by
  unfold State.rxTake
  repeat' first
    | with_reducible assumption
    | with_reducible apply State.setSess_kept

theorem State.rxAck_kept {s₀ s : State} (h : Kept s₀ s) (q : ℕ) (body : List Byte) :
    Kept s₀ (s.rxAck q body) := by
  unfold State.rxAck
  repeat' first
    | with_reducible assumption
    | with_reducible apply State.setSess_kept
    | with_reducible apply State.onSess_kept
    | with_reducible apply State.sendEth_kept
    | with_reducible apply State.flushEvts_kept
    | with_reducible apply ite_kept
    | split

theorem cmd_kept {s₀ s : State} (h : Kept s₀ s) (d : Datagram) :
    Kept s₀ (cmd d s) := by
  unfold cmd
  repeat' first
    | with_reducible assumption
    | with_reducible apply State.rxAck_kept
    | with_reducible apply State.rxTake_kept
    | with_reducible apply State.onSess_kept
    | with_reducible apply ite_kept
    | split

theorem bulkW_kept {s₀ s : State} (h : Kept s₀ s) (d : Datagram) :
    Kept s₀ (bulkW d s) := by
  unfold bulkW
  repeat' first
    | with_reducible assumption
    | with_reducible apply State.checkWrite_kept
    | with_reducible apply State.count_kept
    | with_reducible apply State.rxTake_kept
    | with_reducible apply State.put_kept
    | with_reducible apply foldl_kept
    | intro _ _ _
    | simp only [Kept.with_iff]
    | split

theorem bulkR_kept {s₀ s : State} (h : Kept s₀ s) (d : Datagram) :
    Kept s₀ (bulkR d s) := by
  unfold bulkR
  repeat' first
    | with_reducible assumption
    | with_reducible apply State.rxTake_kept
    | with_reducible apply State.rxAck_kept
    | with_reducible apply State.bulkParity_kept
    | with_reducible apply State.sendEth_kept
    | split

theorem keepalive_kept {s₀ s : State} (h : Kept s₀ s) (d : Datagram) :
    Kept s₀ (keepalive d s) := by
  unfold keepalive
  repeat' first
    | with_reducible assumption
    | with_reducible apply State.rxAck_kept
    | with_reducible apply State.rxTake_kept
    | split

theorem closeDatagram_kept {s₀ s : State} (h : Kept s₀ s) (d : Datagram) :
    Kept s₀ (closeDatagram d s) := by
  unfold closeDatagram
  repeat' first
    | with_reducible assumption
    | with_reducible apply State.beginClose_kept
    | with_reducible apply State.rxTake_kept
    | with_reducible apply State.tellTxn_kept
    | with_reducible apply ite_kept
    | split

theorem idleTimeout_kept {s₀ s : State} (h : Kept s₀ s) (q : ℕ) :
    Kept s₀ (idleTimeout q s) := by
  unfold idleTimeout
  repeat' first
    | with_reducible assumption
    | with_reducible apply State.beginClose_kept
    | with_reducible apply ite_kept
    | split

end Sys2Proof.Machine
end

