-- ==== Sys2Proof/Laws/KeepMailbox.lean ====
section
/-! SUPPORT. What the functions of Machine/Mailbox.lean keep: variant, queue of commands, register file in canonical form,
ledger chain. -/

namespace Sys2Proof.Machine

theorem State.cmdParity_kept {s₀ s : State} (h : Kept s₀ s) (q : ℕ) :
    Kept s₀ (s.cmdParity q) := by
  unfold State.cmdParity
  repeat' first
    | with_reducible assumption
    | with_reducible apply State.checkClear_kept
    | with_reducible apply State.beginWarm_kept
    | with_reducible apply State.assertFault_kept
    | with_reducible apply ite_kept
    | split

/-- What runs on a taken command keeps what its effect keeps. -/
theorem State.runCmd_kept {s₀ s : State} (h : Kept s₀ s) (q op : ℕ) (f : State → Taken → State)
    (hf : ∀ s t, Kept s₀ s → Kept s₀ (f s t)) : Kept s₀ (s.runCmd q op f) := by
  unfold State.runCmd
  split
  · exact hf _ _ (State.cmdParity_kept h _)
  · exact h

theorem State.setPhase_kept {s₀ s : State} (h : Kept s₀ s) (q : ℕ) (p : Phase) :
    Kept s₀ (s.setPhase q p) := by
  unfold State.setPhase
  repeat' first
    | with_reducible assumption
    | with_reducible apply State.onSess_kept

theorem State.refuse_kept {s₀ s : State} (h : Kept s₀ s) (q : ℕ) (status : ℕ) :
    Kept s₀ (s.refuse q status) := by
  unfold State.refuse
  repeat' first
    | with_reducible assumption
    | with_reducible apply State.complete_kept
    | with_reducible apply State.ledgerRefused_kept
    | with_reducible apply ite_kept

theorem State.actCmd_kept {s₀ s : State} (h : Kept s₀ s) (q op : ℕ) (needs : State → Taken → Needs)
    (own : State → Taken → ℕ) (entries : ℕ) (act : State → Taken → State) (hf : ∀ s t, Kept s₀ s → Kept s₀ (act s t)) :
    Kept s₀ (s.actCmd q op needs own entries act) := by
  refine State.runCmd_kept h q op _ fun s t k => ?_
  dsimp only
  repeat' split
  all_goals first | exact State.refuse_kept k .. | exact hf _ _ k

theorem State.aheadCmd_kept {s₀ s : State} (h : Kept s₀ s) (q : ℕ) (c : Ahead)
    (hf : ∀ s q t a, Kept s₀ s → Kept s₀ (c.act s q t a)) : Kept s₀ (s.aheadCmd q c) := by
  refine State.runCmd_kept h q _ _ fun s t k => ?_
  dsimp only
  repeat' split
  all_goals first
    | exact State.refuse_kept k ..
    | exact hf _ _ _ _ k
    | exact State.setPhase_kept (State.sendTxn_kept k ..) ..

theorem State.aheadAck_kept {s₀ s : State} (h : Kept s₀ s) (q : ℕ) (c : Ahead) (a : Ack) (tseq : ℕ)
    (hf : ∀ s q t a, Kept s₀ s → Kept s₀ (c.act s q t a)) : Kept s₀ (s.aheadAck q c a tseq) := by
  unfold State.aheadAck
  dsimp only
  repeat' split
  all_goals first
    | exact State.sendVoid_kept h ..
    | exact State.refuse_kept (State.sendVoid_kept h ..) ..
    | exact hf _ _ _ _ h

end Sys2Proof.Machine
end

