-- ==== Sys2Proof/Laws/KeepCompile.lean ====
section
/-! SUPPORT. What the functions of Machine/Compile.lean keep: variant, queue of commands, register file in canonical form,
ledger chain. -/

namespace Sys2Proof.Machine

theorem State.startCompile_kept {s₀ s : State} (h : Kept s₀ s)  :
    Kept s₀ (s.startCompile) := by
  unfold State.startCompile
  repeat' first
    | with_reducible assumption
    | with_reducible apply State.setPlan_kept
    | with_reducible apply State.slotParity_kept
    | split

theorem State.queueCompile_kept {s₀ s : State} (h : Kept s₀ s) (x : Compile) :
    Kept s₀ (s.queueCompile x) := by
  unfold State.queueCompile
  repeat' first
    | with_reducible assumption
    | with_reducible apply State.startCompile_kept
    | with_reducible apply State.setPlan_kept

theorem State.writeReport_kept {s₀ s : State} (h : Kept s₀ s) (q : ℕ) (addr : ℕ) (bs : List Byte) :
    Kept s₀ (s.writeReport q addr bs) := by
  unfold State.writeReport
  repeat' first
    | with_reducible assumption
    | with_reducible apply State.onSess_kept

theorem State.writeSlot_kept {s₀ s : State} (h : Kept s₀ s) (id : ℕ) (ws : List ℕ) :
    Kept s₀ (s.writeSlot id ws) := by
  unfold State.writeSlot
  repeat' first
    | with_reducible assumption
    | with_reducible apply State.setSlot_kept
    | with_reducible apply State.storeSlot_kept
    | with_reducible apply State.tellTxn_kept

theorem State.endCompile_kept {s₀ s : State} (h : Kept s₀ s) (x : Compile) (b : Base) :
    Kept s₀ (s.endCompile x b) := by
  unfold State.endCompile
  repeat' first
    | with_reducible assumption
    | with_reducible apply State.complete_kept
    | with_reducible apply State.draw_kept
    | with_reducible apply State.writeReport_kept
    | with_reducible apply State.writeSlot_kept
    | with_reducible apply State.completeWith_kept
    | with_reducible apply ite_kept

theorem compileCompletion_kept {s₀ s : State} (h : Kept s₀ s)  :
    Kept s₀ (compileCompletion s) := by
  unfold compileCompletion
  repeat' first
    | with_reducible assumption
    | with_reducible apply State.startCompile_kept
    | with_reducible apply State.endCompile_kept
    | with_reducible apply State.setPlan_kept
    | split

end Sys2Proof.Machine
end

