-- ==== Sys2Proof/Laws/KeepSchedule.lean ====
section
/-! SUPPORT. What the functions of Machine/Schedule.lean keep: variant, queue of commands, register file in canonical form,
ledger chain. -/

namespace Sys2Proof.Machine

theorem State.skipStep_kept {s₀ s : State} (h : Kept s₀ s) (l : Sched) (cause : ℕ) :
    Kept s₀ (s.skipStep l cause) := by
  unfold State.skipStep
  repeat' first
    | with_reducible assumption
    | with_reducible apply State.count_kept
    | with_reducible apply State.ledgerRefused_kept
    | with_reducible apply State.postOwners_kept
    | with_reducible apply ite_kept

theorem State.armStep_kept {s₀ s : State} (h : Kept s₀ s) (l : Sched) :
    Kept s₀ (s.armStep l) := by
  unfold State.armStep
  repeat' first
    | with_reducible assumption
    | with_reducible apply State.put_kept
    | with_reducible apply State.slotParity_kept
    | with_reducible apply State.postOwners_kept
    | with_reducible apply State.skipStep_kept
    | with_reducible apply State.acceptCommit_kept
    | with_reducible apply ite_kept
    | split
    | dsimp only

theorem schedStepArm_kept {s₀ s : State} (h : Kept s₀ s)  :
    Kept s₀ (schedStepArm s) := by
  unfold schedStepArm
  repeat' first
    | with_reducible assumption
    | with_reducible apply State.setPlan_kept
    | with_reducible apply State.armStep_kept
    | with_reducible apply ite_kept
    | split

theorem schedDone_kept {s₀ s : State} (h : Kept s₀ s)  :
    Kept s₀ (schedDone s) := by
  unfold schedDone
  repeat' first
    | with_reducible assumption
    | with_reducible apply State.postOwners_kept
    | with_reducible apply State.refreshGo_kept
    | with_reducible apply State.put_kept
    | with_reducible apply ite_kept
    | split

theorem State.takeList_kept {s₀ s : State} (h : Kept s₀ s) (x : Started) :
    Kept s₀ (s.takeList x) := by
  unfold State.takeList
  repeat' first
    | with_reducible assumption
    | with_reducible apply State.voidCommit_kept
    | with_reducible apply State.setPlan_kept
    | with_reducible apply State.put_kept
    | with_reducible apply State.postOwners_kept
    | with_reducible apply State.putFlag_kept
    | with_reducible apply State.refreshGo_kept
    | with_reducible apply foldl_kept
    | intro _ _ _
    | with_reducible apply ite_kept

theorem State.haltList_kept {s₀ s : State} (h : Kept s₀ s)  :
    Kept s₀ (s.haltList) := by
  unfold State.haltList
  repeat' first
    | with_reducible assumption
    | with_reducible apply State.setPlan_kept
    | with_reducible apply State.refreshGo_kept
    | with_reducible apply State.put_kept
    | with_reducible apply ite_kept

end Sys2Proof.Machine
end

