-- ==== Sys2Proof/Laws/KeepCmdPlan.lean ====
section
/-! SUPPORT. What the functions of Machine/CmdPlan.lean keep: variant, queue of commands, register file in canonical form,
ledger chain. -/

namespace Sys2Proof.Machine

theorem planCompile_kept {s₀ s : State} (h : Kept s₀ s) (q : ℕ) :
    Kept s₀ (planCompile q s) := by
  unfold planCompile
  repeat' first
    | with_reducible assumption
    | with_reducible apply State.actCmd_kept
    | with_reducible apply State.queueCompile_kept
    | with_reducible apply State.setPhase_kept
    | intro _ _ _

theorem planFree_kept {s₀ s : State} (h : Kept s₀ s) (q : ℕ) :
    Kept s₀ (planFree q s) := by
  unfold planFree
  repeat' first
    | with_reducible assumption
    | with_reducible apply State.actCmd_kept
    | with_reducible apply State.complete_kept
    | with_reducible apply State.tellTxn_kept
    | with_reducible apply State.freeSlot_kept
    | intro _ _ _

theorem planRead_kept {s₀ s : State} (h : Kept s₀ s) (q : ℕ) :
    Kept s₀ (planRead q s) := by
  unfold planRead
  repeat' first
    | with_reducible assumption
    | with_reducible apply State.actCmd_kept
    | with_reducible apply State.slotParity_kept
    | with_reducible apply State.writeBuf_kept
    | with_reducible apply State.complete_kept
    | intro _ _ _
    | simp only [Kept.with_iff]
    | split

theorem outRead_kept {s₀ s : State} (h : Kept s₀ s) (q : ℕ) :
    Kept s₀ (outRead q s) := by
  unfold outRead
  repeat' first
    | with_reducible assumption
    | with_reducible apply State.actCmd_kept
    | with_reducible apply State.complete_kept
    | with_reducible apply State.writeBuf_kept
    | intro _ _ _

theorem commitCmd_acts {s₀ : State} (s : State) (q : ℕ) (t : Taken) (a : Ack) (h : Kept s₀ s) : Kept s₀ (commitCmd.act s q t a) := by
  unfold commitCmd
  dsimp only
  repeat' first
    | with_reducible assumption
    | with_reducible apply State.complete_kept
    | with_reducible apply State.acceptCommit_kept
    | with_reducible apply State.slotParity_kept
    | with_reducible apply State.refuse_kept
    | with_reducible apply foldl_kept
    | intro _ _ _
    | simp only [Kept.with_iff]
    | simp only [Kept.with_ctl_iff]
    | with_reducible apply ite_kept
    | split
    | dsimp only

theorem planCommit_kept {s₀ s : State} (h : Kept s₀ s) (q : ℕ) : Kept s₀ (planCommit q s) := State.aheadCmd_kept h q commitCmd commitCmd_acts

theorem armCmd_acts {s₀ : State} (s : State) (q : ℕ) (t : Taken) (a : Ack) (h : Kept s₀ s) : Kept s₀ (armCmd.act s q t a) := by
  unfold armCmd
  dsimp only
  repeat' first
    | with_reducible assumption
    | with_reducible apply State.complete_kept
    | with_reducible apply State.refuse_kept
    | with_reducible apply State.slotParity_kept
    | with_reducible apply State.refreshGo_kept
    | with_reducible apply State.setArmed_kept
    | with_reducible apply foldl_kept
    | intro _ _ _
    | simp only [Kept.with_iff]
    | simp only [Kept.with_ctl_iff]
    | with_reducible apply ite_kept
    | split
    | dsimp only

theorem planArm_kept {s₀ s : State} (h : Kept s₀ s) (q : ℕ) : Kept s₀ (planArm q s) := State.aheadCmd_kept h q armCmd armCmd_acts

theorem State.acceptPark_kept {s₀ s : State} (h : Kept s₀ s) (p : ParkItem) :
    Kept s₀ (s.acceptPark p) := by
  unfold State.acceptPark
  repeat' first
    | with_reducible assumption
    | with_reducible apply State.setPlan_kept
    | with_reducible apply State.refreshGo_kept
    | with_reducible apply State.ledgerStat_kept
    | with_reducible apply State.setParkRes_kept

theorem parkCmd_acts {s₀ : State} (s : State) (q : ℕ) (t : Taken) (a : Ack) (h : Kept s₀ s) : Kept s₀ (parkCmd.act s q t a) := by
  unfold parkCmd
  dsimp only
  repeat' first
    | with_reducible assumption
    | with_reducible apply State.setPhase_kept
    | with_reducible apply State.acceptPark_kept
    | with_reducible apply foldl_kept
    | intro _ _ _
    | simp only [Kept.with_iff]
    | simp only [Kept.with_ctl_iff]
    | with_reducible apply ite_kept
    | split
    | dsimp only

theorem planPark_kept {s₀ s : State} (h : Kept s₀ s) (q : ℕ) : Kept s₀ (planPark q s) := State.aheadCmd_kept h q parkCmd parkCmd_acts

theorem loadCmd_acts {s₀ : State} (s : State) (q : ℕ) (t : Taken) (a : Ack) (h : Kept s₀ s) : Kept s₀ (loadCmd.act s q t a) := by
  unfold loadCmd
  dsimp only
  repeat' first
    | with_reducible assumption
    | with_reducible apply State.complete_kept
    | with_reducible apply State.takeList_kept
    | with_reducible apply State.log_kept
    | with_reducible apply foldl_kept
    | intro _ _ _
    | simp only [Kept.with_iff]
    | simp only [Kept.with_ctl_iff]
    | with_reducible apply ite_kept
    | split
    | dsimp only

theorem schedLoad_kept {s₀ s : State} (h : Kept s₀ s) (q : ℕ) : Kept s₀ (schedLoad q s) := State.aheadCmd_kept h q loadCmd loadCmd_acts

theorem State.logStop_kept {s₀ s : State} (h : Kept s₀ s) (q : ℕ) (role : ℕ) :
    Kept s₀ (s.logStop q role) := by
  unfold State.logStop
  repeat' first
    | with_reducible assumption
    | with_reducible apply State.log_kept

theorem stopCmd_acts {s₀ : State} (s : State) (q : ℕ) (t : Taken) (a : Ack) (h : Kept s₀ s) : Kept s₀ (stopCmd.act s q t a) := by
  unfold stopCmd
  dsimp only
  repeat' first
    | with_reducible assumption
    | with_reducible apply State.complete_kept
    | with_reducible apply State.haltList_kept
    | with_reducible apply State.logStop_kept
    | with_reducible apply foldl_kept
    | intro _ _ _
    | simp only [Kept.with_iff]
    | simp only [Kept.with_ctl_iff]
    | with_reducible apply ite_kept
    | split
    | dsimp only

theorem schedStop_kept {s₀ s : State} (h : Kept s₀ s) (q : ℕ) : Kept s₀ (schedStop q s) := State.aheadCmd_kept h q stopCmd stopCmd_acts

theorem schedRead_kept {s₀ s : State} (h : Kept s₀ s) (q : ℕ) :
    Kept s₀ (schedRead q s) := by
  unfold schedRead
  repeat' first
    | with_reducible assumption
    | with_reducible apply State.actCmd_kept
    | with_reducible apply State.complete_kept
    | with_reducible apply State.writeBuf_kept
    | intro _ _ _
    | split

theorem loopPeriod_kept {s₀ s : State} (h : Kept s₀ s) (q : ℕ) :
    Kept s₀ (loopPeriod q s) := by
  unfold loopPeriod
  repeat' first
    | with_reducible assumption
    | with_reducible apply State.onComb_kept
    | with_reducible apply State.actCmd_kept
    | with_reducible apply State.paramWrite_kept
    | with_reducible apply State.put_kept
    | with_reducible apply State.complete_kept
    | with_reducible apply foldl_kept
    | intro _ _ _
    | simp only [Kept.with_iff]

end Sys2Proof.Machine
end

