-- ==== Sys2Proof/Laws/KeepCmdCal.lean ====
section
/-! SUPPORT. What the functions of Machine/CmdCal.lean keep: variant, queue of commands, register file in canonical form,
ledger chain. -/

namespace Sys2Proof.Machine

theorem State.runComb_kept {s₀ s : State} (h : Kept s₀ s) (t : Taken) (c : ℕ) : Kept s₀ ((s.runComb t c).1) := by
  unfold State.runComb
  repeat' first
    | with_reducible assumption
    | with_reducible apply State.startProcs_kept
    | with_reducible apply State.calRes_kept
    | with_reducible apply foldl_kept
    | intro _ _ _
    | simp only [Kept.with_iff]
    | simp only [Kept.with_ctl_iff]
    | with_reducible apply ite_kept
    | split
    | dsimp only

theorem calRun_kept {s₀ s : State} (h : Kept s₀ s) (q : ℕ) : Kept s₀ (calRun q s) := by
  refine State.actCmd_kept h q _ _ _ _ _ fun s t k => ?_
  lift_lets
  intro one n m r cs s1 s2
  refine ite_kept (State.refuse_kept (foldl_kept k fun _ _ k => foldl_kept k fun _ _ k => State.calRes_kept k ..) ..) ?_
  split
  · exact State.complete_kept (State.startFull_kept k ..) ..
  · have h1 : Kept s₀ s1 := foldl_kept_fst (f := fun (acc : State × ℕ × ℕ × List ℕ) c =>
      ((acc.1.runComb t c).1, acc.2.1 + (acc.1.runComb t c).2.1, acc.2.2.1 + (acc.1.runComb t c).2.2.1,
        if (acc.1.runComb t c).2.2.2 then acc.2.2.2 ++ [c] else acc.2.2.2)) k fun acc c k => State.runComb_kept k ..
    have h2 : Kept s₀ s2 := by
      simp only [s2]
      split
      · exact h1
      · exact State.setRuns_kept h1 ..
    exact State.complete_kept h2 ..

theorem calApply_kept {s₀ s : State} (h : Kept s₀ s) (q : ℕ) :
    Kept s₀ (calApply q s) := by
  unfold calApply
  repeat' first
    | with_reducible assumption
    | with_reducible apply State.actCmd_kept
    | with_reducible apply State.issueApply_kept
    | with_reducible apply State.setPhase_kept
    | intro _ _ _

theorem calSave_kept {s₀ s : State} (h : Kept s₀ s) (q : ℕ) :
    Kept s₀ (calSave q s) := by
  unfold calSave
  repeat' first
    | with_reducible assumption
    | with_reducible apply State.actCmd_kept
    | with_reducible apply State.sign_kept
    | with_reducible apply State.complete_kept
    | with_reducible apply State.writeBuf_kept
    | intro _ _ _

theorem State.restoreAdc_kept {s₀ s : State} (h : Kept s₀ s) (c k ofs gain : ℕ) : Kept s₀ ((s.restoreAdc c k ofs gain).1) := by
  unfold State.restoreAdc
  repeat' first
    | with_reducible assumption
    | with_reducible apply State.paramWrite_kept
    | with_reducible apply State.put_kept
    | with_reducible apply foldl_kept
    | intro _ _ _
    | simp only [Kept.with_iff]
    | simp only [Kept.with_ctl_iff]
    | with_reducible apply ite_kept
    | split
    | dsimp only

theorem State.restoreComb_kept {s₀ s : State} (h : Kept s₀ s) (c : ℕ) (r : List Byte) : Kept s₀ (s.restoreComb c r).1 :=
  State.put_kept (State.restoreAdc_kept (State.restoreAdc_kept h ..) ..) ..

theorem State.restoreLane_kept {s₀ s : State} (h : Kept s₀ s) (e : ℕ) (r : List Byte) : Kept s₀ ((s.restoreLane e r).1) := by
  unfold State.restoreLane
  repeat' first
    | with_reducible assumption
    | with_reducible apply State.calRes_kept
    | with_reducible apply State.paramWrite_kept
    | with_reducible apply State.put_kept
    | with_reducible apply State.wr_kept
    | with_reducible apply foldl_kept
    | intro _ _ _
    | simp only [Kept.with_iff]
    | simp only [Kept.with_ctl_iff]
    | with_reducible apply ite_kept
    | split
    | dsimp only

theorem State.restoreAll_kept {s₀ s : State} (h : Kept s₀ s) (img : List Byte) : Kept s₀ ((s.restoreAll img).1) := by
  unfold State.restoreAll
  repeat' first
    | with_reducible assumption
    | with_reducible apply foldl_kept_fst
    | with_reducible apply State.restoreComb_kept
    | with_reducible apply State.restoreLane_kept
    | with_reducible apply foldl_kept
    | intro _ _ _
    | simp only [Kept.with_iff]
    | simp only [Kept.with_ctl_iff]
    | with_reducible apply ite_kept
    | split
    | dsimp only

theorem calRestore_kept {s₀ s : State} (h : Kept s₀ s) (q : ℕ) : Kept s₀ (calRestore q s) := by
  refine State.actCmd_kept h q _ _ _ _ _ fun s t k => ?_
  have k1 := State.restoreAll_kept k t.buf
  dsimp only
  split
  · exact State.issueApply_kept (State.complete_kept k1 ..) ..
  · exact State.complete_kept k1 ..

end Sys2Proof.Machine
end

