-- ==== Sys2Proof/Laws/KeepCmdSession.lean ====
section
/-! SUPPORT. What the functions of Machine/CmdSession.lean keep: variant, queue of commands, register file in canonical form,
ledger chain. -/

namespace Sys2Proof.Machine

theorem sessionOpen_kept {s₀ s : State} (h : Kept s₀ s) (src : OpenSrc) :
    Kept s₀ (sessionOpen src s) := by
  unfold sessionOpen
  repeat' first
    | with_reducible assumption
    | with_reducible apply State.runCmd_kept
    | with_reducible apply State.refuse_kept
    | with_reducible apply State.submitOpen_kept
    | intro _ _ _
    | with_reducible apply ite_kept
    | split

theorem closeCmd_acts {s₀ : State} (s : State) (q : ℕ) (t : Taken) (a : Ack) (h : Kept s₀ s) : Kept s₀ (closeCmd.act s q t a) := by
  unfold closeCmd
  dsimp only
  repeat' first
    | with_reducible assumption
    | with_reducible apply State.beginClose_kept
    | with_reducible apply State.complete_kept
    | with_reducible apply foldl_kept
    | intro _ _ _
    | simp only [Kept.with_iff]
    | simp only [Kept.with_ctl_iff]
    | with_reducible apply ite_kept
    | split
    | dsimp only

theorem sessionClose_kept {s₀ s : State} (h : Kept s₀ s) (q : ℕ) : Kept s₀ (sessionClose q s) := State.aheadCmd_kept h q closeCmd closeCmd_acts

theorem sessionInfo_kept {s₀ s : State} (h : Kept s₀ s) (q : ℕ) :
    Kept s₀ (sessionInfo q s) := by
  unfold sessionInfo
  repeat' first
    | with_reducible assumption
    | with_reducible apply State.actCmd_kept
    | with_reducible apply State.writeBuf_kept
    | with_reducible apply State.complete_kept
    | intro _ _ _
    | with_reducible apply ite_kept

theorem rekey_kept {s₀ s : State} (h : Kept s₀ s) (q : ℕ) :
    Kept s₀ (rekey q s) := by
  unfold rekey
  repeat' first
    | with_reducible assumption
    | with_reducible apply State.actCmd_kept
    | with_reducible apply State.onSess_kept
    | with_reducible apply State.complete_kept
    | intro _ _ _

theorem grantCmd_acts {s₀ : State} (s : State) (q : ℕ) (t : Taken) (a : Ack) (h : Kept s₀ s) : Kept s₀ (grantCmd.act s q t a) := by
  unfold grantCmd
  dsimp only
  repeat' first
    | with_reducible assumption
    | with_reducible apply State.complete_kept
    | with_reducible apply State.onSess_kept
    | with_reducible apply State.log_kept
    | with_reducible apply foldl_kept
    | intro _ _ _
    | simp only [Kept.with_iff]
    | simp only [Kept.with_ctl_iff]
    | with_reducible apply ite_kept
    | split
    | dsimp only

theorem sessionGrant_kept {s₀ s : State} (h : Kept s₀ s) (q : ℕ) : Kept s₀ (sessionGrant q s) := State.aheadCmd_kept h q grantCmd grantCmd_acts

theorem State.setVf_kept {s₀ s : State} (h : Kept s₀ s) (n : ℕ) (ceil : ℕ) (ports : ℕ) :
    Kept s₀ (s.setVf n ceil ports) := by
  unfold State.setVf
  repeat' first
    | with_reducible assumption
    | with_reducible apply State.onSess_kept
    | with_reducible apply State.beginClose_kept
    | with_reducible apply foldl_kept
    | intro _ _ _
    | simp only [Kept.with_iff]
    | simp only [Kept.with_ctl_iff]

theorem vfGrantCmd_acts {s₀ : State} (s : State) (q : ℕ) (t : Taken) (a : Ack) (h : Kept s₀ s) : Kept s₀ (vfGrantCmd.act s q t a) := by
  unfold vfGrantCmd
  dsimp only
  repeat' first
    | with_reducible assumption
    | with_reducible apply State.setVf_kept
    | with_reducible apply State.complete_kept
    | with_reducible apply State.log_kept
    | with_reducible apply foldl_kept
    | intro _ _ _
    | simp only [Kept.with_iff]
    | simp only [Kept.with_ctl_iff]
    | with_reducible apply ite_kept
    | split
    | dsimp only

theorem vfGrant_kept {s₀ s : State} (h : Kept s₀ s) (q : ℕ) : Kept s₀ (vfGrant q s) := State.aheadCmd_kept h q vfGrantCmd vfGrantCmd_acts

theorem netCfg_kept {s₀ s : State} (h : Kept s₀ s) (q : ℕ) :
    Kept s₀ (netCfg q s) := by
  unfold netCfg
  repeat' first
    | with_reducible assumption
    | with_reducible apply State.actCmd_kept
    | with_reducible apply State.complete_kept
    | with_reducible apply State.beginClose_kept
    | with_reducible apply foldl_kept
    | intro _ _ _
    | simp only [Kept.with_iff]
    | simp only [Kept.with_ctl_iff]
    | with_reducible apply ite_kept

end Sys2Proof.Machine
end

