-- ==== Sys2Proof/Laws/KeepTime.lean ====
section
/-! SUPPORT. What the functions of Machine/Time.lean keep: variant, queue of commands, register file in canonical form,
ledger chain. -/

namespace Sys2Proof.Machine

theorem incHi_kept {s₀ s : State} (h : Kept s₀ s) (d : Dom) (w : Sys2Proof.Writer) (v : Word) :
    Kept s₀ (incHi d w v s) := by
  unfold incHi
  repeat' first
    | with_reducible assumption
    | with_reducible apply State.putFlag_kept
    | with_reducible apply State.put_kept
    | with_reducible apply State.onDom_kept
    | with_reducible apply ite_kept

theorem adjTicks_kept {s₀ s : State} (h : Kept s₀ s) (d : Dom) (w : Sys2Proof.Writer) (v : Word) :
    Kept s₀ (adjTicks d w v s) := by
  unfold adjTicks
  repeat' first
    | with_reducible assumption
    | with_reducible apply State.put_kept
    | with_reducible apply State.onDom_kept
    | with_reducible apply ite_kept

theorem setGo_kept {s₀ s : State} (h : Kept s₀ s) (d : Dom) (w : Sys2Proof.Writer) (v : Word) :
    Kept s₀ (setGo d w v s) := by
  unfold setGo
  repeat' first
    | with_reducible assumption
    | with_reducible apply State.putFlag_kept
    | with_reducible apply State.put_kept
    | with_reducible apply State.onDom_kept
    | with_reducible apply ite_kept

theorem tqState_kept {s₀ s : State} (h : Kept s₀ s) (d : Dom) (w : Sys2Proof.Writer) (v : Word) :
    Kept s₀ (tqState d w v s) := by
  unfold tqState
  repeat' first
    | with_reducible assumption
    | with_reducible apply State.putFlag_kept
    | with_reducible apply State.put_kept
    | with_reducible apply State.setTq_kept
    | with_reducible apply State.onDom_kept
    | with_reducible apply ite_kept

theorem snap_kept {s₀ s : State} (h : Kept s₀ s)  :
    Kept s₀ (snap s) := by
  unfold snap
  repeat' first
    | with_reducible assumption
    | simp only [Kept.with_iff]
    | simp only [Kept.with_exp_iff]
    | simp only [Kept.with_ctl_iff]
    | with_reducible apply ite_kept

theorem State.takeSnap_kept {s₀ s : State} (h : Kept s₀ s)  :
    Kept s₀ (s.takeSnap) := by
  unfold State.takeSnap
  repeat' first
    | with_reducible assumption
    | with_reducible apply State.putPair_kept
    | with_reducible apply State.put_kept
    | with_reducible apply State.putFlag_kept
    | simp only [Kept.with_iff]
    | simp only [Kept.with_exp_iff]
    | simp only [Kept.with_ctl_iff]

theorem timeRdRead_kept {s₀ s : State} (h : Kept s₀ s) (view : ℕ) :
    Kept s₀ (timeRdRead view s) := by
  unfold timeRdRead
  repeat' first
    | with_reducible assumption
    | with_reducible apply State.latch_kept
    | simp only [Kept.with_iff]
    | simp only [Kept.with_exp_iff]
    | simp only [Kept.with_ctl_iff]
    | with_reducible apply ite_kept

theorem swReq_kept {s₀ s : State} (h : Kept s₀ s)  :
    Kept s₀ (swReq s) := by
  unfold swReq
  repeat' first
    | with_reducible assumption
    | with_reducible apply State.requestSwitch_kept
    | with_reducible apply ite_kept

theorem domainSwitch_kept {s₀ s : State} (h : Kept s₀ s)  :
    Kept s₀ (domainSwitch s) := by
  unfold domainSwitch
  repeat' first
    | with_reducible assumption
    | with_reducible apply State.putFlag_kept
    | with_reducible apply State.count_kept
    | with_reducible apply State.putPair_kept
    | with_reducible apply State.put_kept
    | with_reducible apply State.pushCap_kept
    | with_reducible apply State.onDom_kept
    | with_reducible apply State.logInvol_kept
    | simp only [Kept.with_iff]
    | simp only [Kept.with_exp_iff]
    | simp only [Kept.with_ctl_iff]
    | with_reducible apply ite_kept
    | split

theorem tqWdExpiry_kept {s₀ s : State} (h : Kept s₀ s) (d : Dom) :
    Kept s₀ (tqWdExpiry d s) := by
  unfold tqWdExpiry
  repeat' first
    | with_reducible assumption
    | with_reducible apply State.setTq_kept
    | with_reducible apply State.putFlag_kept
    | with_reducible apply ite_kept

theorem holdMaxExpiry_kept {s₀ s : State} (h : Kept s₀ s) (d : Dom) :
    Kept s₀ (holdMaxExpiry d s) := by
  unfold holdMaxExpiry
  repeat' first
    | with_reducible assumption
    | with_reducible apply State.setTq_kept
    | with_reducible apply State.putFlag_kept
    | with_reducible apply ite_kept

theorem sourceLost_kept {s₀ s : State} (h : Kept s₀ s) (d : Dom) :
    Kept s₀ (sourceLost d s) := by
  unfold sourceLost
  repeat' first
    | with_reducible assumption
    | with_reducible apply State.lostSource_kept
    | with_reducible apply ite_kept

theorem timeMinute_kept {s₀ s : State} (h : Kept s₀ s)  :
    Kept s₀ (timeMinute s) := by
  unfold timeMinute
  repeat' first
    | with_reducible assumption
    | with_reducible apply State.logInvol_kept
    | with_reducible apply State.onDom_kept
    | simp only [Kept.with_iff]
    | simp only [Kept.with_exp_iff]
    | simp only [Kept.with_ctl_iff]
    | with_reducible apply ite_kept

theorem anchor_kept {s₀ s : State} (h : Kept s₀ s)  :
    Kept s₀ (anchor s) := by
  unfold anchor
  repeat' first
    | with_reducible assumption
    | with_reducible apply State.anchorAll_kept
    | with_reducible apply ite_kept

theorem ptpMessage_kept {s₀ s : State} (h : Kept s₀ s) (d : Dom) (m : PtpMsg) :
    Kept s₀ (ptpMessage d m s) := by
  unfold ptpMessage
  repeat' first
    | with_reducible assumption
    | with_reducible apply State.onPtp_kept
    | with_reducible apply State.lostSource_kept
    | with_reducible apply State.offsetSeen_kept
    | with_reducible apply State.setTq_kept
    | with_reducible apply ite_kept
    | intro _ _ _
    | simp only [Kept.with_iff]
    | split

theorem State.badLines_kept {s₀ s : State} (h : Kept s₀ s) (inB : Bool) (n : ℕ) :
    Kept s₀ (s.badLines inB n) := by
  unfold State.badLines
  repeat' first
    | with_reducible assumption
    | with_reducible apply State.count_kept
    | with_reducible apply State.putFlag_kept
    | with_reducible apply ite_kept
    | split

theorem State.expireLines_kept {s₀ s : State} (h : Kept s₀ s) (inB : Bool) :
    Kept s₀ (s.expireLines inB) := by
  unfold State.expireLines
  repeat' first
    | with_reducible assumption
    | with_reducible apply State.onPps_kept
    | with_reducible apply State.badLines_kept
    | intro _ _ _
    | simp only [Kept.with_iff]
    | with_reducible apply ite_kept
    | split

theorem State.nameEdge_kept {s₀ s : State} (h : Kept s₀ s) (inB : Bool) (sub : ℕ) (l : ℕ × ℕ × Int × ℕ) :
    Kept s₀ (s.nameEdge inB sub l) := by
  unfold State.nameEdge
  repeat' first
    | with_reducible assumption
    | with_reducible apply State.onPps_kept
    | with_reducible apply State.count_kept
    | with_reducible apply State.putFlag_kept
    | with_reducible apply State.putPair_kept
    | with_reducible apply State.put_kept
    | with_reducible apply State.offsetSeen_kept
    | intro _ _ _
    | with_reducible apply ite_kept
    | split

theorem ppsEdge_kept {s₀ s : State} (h : Kept s₀ s) (inB : Bool) (sub : ℕ) :
    Kept s₀ (ppsEdge inB sub s) := by
  unfold ppsEdge
  repeat' first
    | with_reducible assumption
    | with_reducible apply State.expireLines_kept
    | with_reducible apply State.nameEdge_kept
    | with_reducible apply State.pushCap_kept
    | with_reducible apply State.count_kept
    | with_reducible apply State.onPps_kept
    | with_reducible apply State.putFlag_kept
    | with_reducible apply State.putPair_kept
    | with_reducible apply State.put_kept
    | with_reducible apply State.offsetSeen_kept
    | with_reducible apply ite_kept
    | split
    | dsimp only
    | with_reducible apply foldl_kept
    | intro _ _ _
    | simp only [Kept.with_iff]

theorem todLine_kept {s₀ s : State} (h : Kept s₀ s) (inB : Bool) (line : List Byte) :
    Kept s₀ (todLine inB line s) := by
  unfold todLine
  repeat' first
    | with_reducible assumption
    | with_reducible apply State.badLines_kept
    | with_reducible apply State.putFlag_kept
    | with_reducible apply State.count_kept
    | with_reducible apply State.onPps_kept
    | with_reducible apply ite_kept
    | split
    | intro _ _ _
    | simp only [Kept.with_iff]

theorem tsInCapture_kept {s₀ s : State} (h : Kept s₀ s) (n : ℕ) (rising : Bool) (sub : ℕ) :
    Kept s₀ (tsInCapture n rising sub s) := by
  unfold tsInCapture
  repeat' first
    | with_reducible assumption
    | with_reducible apply State.pushCap_kept
    | with_reducible apply ite_kept

theorem capturePop_kept {s₀ s : State} (h : Kept s₀ s) (n : ℕ) :
    Kept s₀ (capturePop n s) := by
  unfold capturePop
  repeat' first
    | with_reducible assumption
    | with_reducible apply State.popCap_kept
    | simp only [Kept.with_iff]
    | simp only [Kept.with_exp_iff]
    | simp only [Kept.with_ctl_iff]
    | with_reducible apply ite_kept

theorem cmpEn_kept {s₀ s : State} (h : Kept s₀ s) (n : ℕ) (v : Word) :
    Kept s₀ (cmpEn n v s) := by
  unfold cmpEn
  repeat' first
    | with_reducible assumption
    | with_reducible apply State.store_kept
    | simp only [Kept.with_iff]
    | simp only [Kept.with_exp_iff]
    | simp only [Kept.with_ctl_iff]
    | with_reducible apply ite_kept

theorem State.cmpNext_kept {s₀ s : State} (h : Kept s₀ s) (n : ℕ) :
    Kept s₀ (s.cmpNext n) := by
  unfold State.cmpNext
  repeat' first
    | with_reducible assumption
    | with_reducible apply State.putPair_kept
    | with_reducible apply State.put_kept
    | split

theorem cmpFired_kept {s₀ s : State} (h : Kept s₀ s) (n : ℕ) :
    Kept s₀ (cmpFired n s) := by
  unfold cmpFired
  repeat' first
    | with_reducible assumption
    | with_reducible apply State.putFlag_kept
    | with_reducible apply State.hubEvent_kept
    | with_reducible apply State.cmpNext_kept
    | with_reducible apply State.postOwners_kept
    | simp only [Kept.with_iff]
    | simp only [Kept.with_exp_iff]
    | simp only [Kept.with_ctl_iff]
    | with_reducible apply ite_kept

theorem tsOutPulseEnd_kept {s₀ s : State} (h : Kept s₀ s) (n : ℕ) :
    Kept s₀ (tsOutPulseEnd n s) := by
  unfold tsOutPulseEnd
  repeat' first
    | with_reducible assumption
    | simp only [Kept.with_iff]
    | simp only [Kept.with_exp_iff]
    | simp only [Kept.with_ctl_iff]

theorem refclkLoss_kept {s₀ s : State} (h : Kept s₀ s)  :
    Kept s₀ (refclkLoss s) := by
  unfold refclkLoss
  repeat' first
    | with_reducible assumption
    | with_reducible apply State.assertFault_kept
    | simp only [Kept.with_iff]
    | simp only [Kept.with_exp_iff]
    | simp only [Kept.with_ctl_iff]

theorem refclkRelock_kept {s₀ s : State} (h : Kept s₀ s)  :
    Kept s₀ (refclkRelock s) := by
  unfold refclkRelock
  repeat' first
    | with_reducible assumption
    | with_reducible apply State.faultGone_kept
    | simp only [Kept.with_iff]
    | simp only [Kept.with_exp_iff]
    | simp only [Kept.with_ctl_iff]

theorem State.afterSet_kept {s₀ s : State} (h : Kept s₀ s) (d : Dom) (before : ℕ) :
    Kept s₀ (s.afterSet d before) := by
  unfold State.afterSet
  repeat' first
    | with_reducible assumption
    | with_reducible apply State.countWrap_kept
    | with_reducible apply State.setTq_kept
    | simp only [Kept.with_iff]
    | simp only [Kept.with_exp_iff]
    | simp only [Kept.with_ctl_iff]
    | with_reducible apply ite_kept

theorem State.tickDomains_kept {s₀ s : State} (h : Kept s₀ s)  :
    Kept s₀ (s.tickDomains) := by
  unfold State.tickDomains
  repeat' first
    | with_reducible assumption
    | with_reducible apply State.afterSet_kept
    | simp only [Kept.with_iff]
    | simp only [Kept.with_exp_iff]
    | simp only [Kept.with_ctl_iff]
    | with_reducible apply ite_kept

theorem State.tickAlive_kept {s₀ s : State} (h : Kept s₀ s)  :
    Kept s₀ (s.tickAlive) := by
  unfold State.tickAlive
  repeat' first
    | with_reducible assumption
    | with_reducible apply State.setBoot_kept
    | with_reducible apply ite_kept
    | split

theorem State.refreshTpd_kept {s₀ s : State} (h : Kept s₀ s)  :
    Kept s₀ (s.refreshTpd) := by
  unfold State.refreshTpd
  repeat' first
    | with_reducible assumption
    | with_reducible apply foldl_kept
    | intro _ _ _
    | simp only [Kept.with_iff]
    | simp only [Kept.with_exp_iff]
    | simp only [Kept.with_ctl_iff]
    | with_reducible apply ite_kept

theorem State.takeTaps_kept {s₀ s : State} (h : Kept s₀ s)  :
    Kept s₀ (s.takeTaps) := by
  unfold State.takeTaps
  repeat' first
    | with_reducible assumption
    | with_reducible apply State.put_kept
    | with_reducible apply foldl_kept
    | intro _ _ _
    | simp only [Kept.with_iff]

theorem State.markInstant_kept {s₀ s : State} (h : Kept s₀ s)  :
    Kept s₀ (s.markInstant) := by
  unfold State.markInstant
  repeat' first
    | with_reducible assumption
    | intro _ _ _
    | simp only [Kept.with_iff]
    | simp only [Kept.with_ctl_iff]

theorem spineTick_kept {s₀ s : State} (h : Kept s₀ s)  :
    Kept s₀ (spineTick s) := by
  unfold spineTick
  repeat' first
    | with_reducible assumption
    | with_reducible apply State.markInstant_kept
    | with_reducible apply State.takeSwitch_kept
    | with_reducible apply State.tickDomains_kept
    | with_reducible apply State.stampApplies_kept
    | with_reducible apply State.takeSnap_kept
    | with_reducible apply State.tickAlive_kept
    | with_reducible apply State.refreshTpd_kept
    | with_reducible apply State.endWindows_kept
    | with_reducible apply State.parkLate_kept
    | with_reducible apply State.hkSettled_kept
    | with_reducible apply State.takeTaps_kept
    | with_reducible apply State.crossings_kept
    | with_reducible apply State.goExpire_kept
    | with_reducible apply State.fcStart_kept
    | with_reducible apply State.busTick_kept
    | with_reducible apply State.expireLines_kept
    | with_reducible apply State.strobe_kept
    | with_reducible apply State.hubEvent_kept
    | simp only [Kept.with_iff]
    | with_reducible apply ite_kept
    | split

end Sys2Proof.Machine
end

