-- ==== Sys2Proof/Laws/KeepCmdMisc.lean ====
section
/-! SUPPORT. What the functions of Machine/CmdMisc.lean keep: variant, queue of commands, register file in canonical form,
ledger chain. -/

namespace Sys2Proof.Machine

theorem State.changeKey_kept {s₀ s : State} (h : Kept s₀ s) (q : ℕ) (role : ℕ) (p : ℕ) (op : ℕ) (key : Option (List Byte)) :
    Kept s₀ (s.changeKey q role p op key) := by
  unfold State.changeKey
  repeat' first
    | with_reducible assumption
    | with_reducible apply State.setKey_kept
    | with_reducible apply State.log_kept

theorem keyCmd_acts {s₀ : State} (s : State) (q : ℕ) (t : Taken) (a : Ack) (h : Kept s₀ s) : Kept s₀ (keyCmd.act s q t a) := by
  unfold keyCmd
  dsimp only
  repeat' first
    | with_reducible assumption
    | with_reducible apply State.complete_kept
    | with_reducible apply State.changeKey_kept
    | with_reducible apply foldl_kept
    | intro _ _ _
    | simp only [Kept.with_iff]
    | simp only [Kept.with_ctl_iff]
    | with_reducible apply ite_kept
    | split
    | dsimp only

theorem digestKey_kept {s₀ s : State} (h : Kept s₀ s) (q : ℕ) : Kept s₀ (digestKey q s) := State.aheadCmd_kept h q keyCmd keyCmd_acts

theorem queueStat_kept {s₀ s : State} (h : Kept s₀ s) (q : ℕ) :
    Kept s₀ (queueStat q s) := by
  unfold queueStat
  repeat' first
    | with_reducible assumption
    | with_reducible apply State.actCmd_kept
    | with_reducible apply State.onQueue_kept
    | with_reducible apply State.complete_kept
    | intro _ _ _

theorem State.flushQueue_kept {s₀ s : State} (h : Kept s₀ s) (n : ℕ) :
    Kept s₀ (s.flushQueue n) := by
  unfold State.flushQueue
  have k := shaperRefill_kept h
  dsimp only
  split
  · exact k
  · refine ite_kept k (foldl_kept_fst (State.setQueue_kept k ..) fun acc _ h' => ?_)
    split
    · exact State.sendDgram_kept (State.purge_kept h' ..) ..
    · exact h'

theorem exportFlush_kept {s₀ s : State} (h : Kept s₀ s) (q : ℕ) :
    Kept s₀ (exportFlush q s) := by
  unfold exportFlush
  repeat' first
    | with_reducible assumption
    | with_reducible apply State.actCmd_kept
    | with_reducible apply State.complete_kept
    | with_reducible apply State.flushQueue_kept
    | intro _ _ _

theorem ptpCfg_kept {s₀ s : State} (h : Kept s₀ s) (q : ℕ) :
    Kept s₀ (ptpCfg q s) := by
  unfold ptpCfg
  repeat' first
    | with_reducible assumption
    | with_reducible apply State.actCmd_kept
    | with_reducible apply State.complete_kept
    | with_reducible apply State.onPtp_kept
    | with_reducible apply State.setTq_kept
    | intro _ _ _
    | with_reducible apply ite_kept

theorem ptpStats_kept {s₀ s : State} (h : Kept s₀ s) (q : ℕ) :
    Kept s₀ (ptpStats q s) := by
  unfold ptpStats
  repeat' first
    | with_reducible assumption
    | with_reducible apply State.actCmd_kept
    | with_reducible apply State.complete_kept
    | with_reducible apply State.writeBuf_kept
    | intro _ _ _

theorem State.ledgerParity_kept {s₀ s : State} (h : Kept s₀ s) (seq : ℕ) :
    Kept s₀ (s.ledgerParity seq) := by
  unfold State.ledgerParity
  repeat' first
    | with_reducible assumption
    | with_reducible apply State.assertFault_kept
    | with_reducible apply ite_kept

theorem ledgerRead_kept {s₀ s : State} (h : Kept s₀ s) (q : ℕ) :
    Kept s₀ (ledgerRead q s) := by
  unfold ledgerRead
  repeat' first
    | with_reducible assumption
    | with_reducible apply State.actCmd_kept
    | with_reducible apply State.writeBuf_kept
    | with_reducible apply State.ledgerParity_kept
    | with_reducible apply State.release_kept
    | with_reducible apply State.complete_kept
    | with_reducible apply foldl_kept
    | intro _ _ _
    | with_reducible apply ite_kept
    | split

theorem ledgerCheckpoint_kept {s₀ s : State} (h : Kept s₀ s) (q : ℕ) :
    Kept s₀ (ledgerCheckpoint q s) := by
  unfold ledgerCheckpoint
  repeat' first
    | with_reducible assumption
    | with_reducible apply State.actCmd_kept
    | with_reducible apply State.complete_kept
    | with_reducible apply State.writeBuf_kept
    | intro _ _ _
    | split

theorem attest_kept {s₀ s : State} (h : Kept s₀ s) (q : ℕ) :
    Kept s₀ (attest q s) := by
  unfold attest
  repeat' first
    | with_reducible assumption
    | with_reducible apply State.actCmd_kept
    | with_reducible apply State.sign_kept
    | with_reducible apply State.complete_kept
    | with_reducible apply State.writeBuf_kept
    | intro _ _ _

theorem identity_kept {s₀ s : State} (h : Kept s₀ s) (q : ℕ) :
    Kept s₀ (identity q s) := by
  unfold identity
  repeat' first
    | with_reducible assumption
    | with_reducible apply State.actCmd_kept
    | with_reducible apply State.complete_kept
    | with_reducible apply State.writeBuf_kept
    | intro _ _ _

theorem State.enrolOwner_kept {s₀ s : State} (h : Kept s₀ s) (key : List Byte) :
    Kept s₀ (s.enrolOwner key) := by
  unfold State.enrolOwner
  repeat' first
    | with_reducible assumption
    | with_reducible apply State.seal_kept
    | with_reducible apply State.put_kept
    | with_reducible apply State.putFlag_kept

theorem ownerEnrol_kept {s₀ s : State} (h : Kept s₀ s) (q : ℕ) :
    Kept s₀ (ownerEnrol q s) := by
  unfold ownerEnrol
  repeat' first
    | with_reducible assumption
    | with_reducible apply State.actCmd_kept
    | with_reducible apply State.log_kept
    | with_reducible apply State.complete_kept
    | with_reducible apply State.enrolOwner_kept
    | with_reducible apply State.beginClose_kept
    | with_reducible apply foldl_kept
    | intro _ _ _

theorem combRestart_kept {s₀ s : State} (h : Kept s₀ s) (q : ℕ) (readbackOk : Bool) :
    Kept s₀ (combRestart q readbackOk s) := by
  unfold combRestart
  repeat' first
    | with_reducible assumption
    | with_reducible apply State.actCmd_kept
    | with_reducible apply State.onComb_kept
    | with_reducible apply State.complete_kept
    | with_reducible apply State.recover_kept
    | intro _ _ _
    | with_reducible apply ite_kept

theorem imageWrite_kept {s₀ s : State} (h : Kept s₀ s) (q : ℕ) :
    Kept s₀ (imageWrite q s) := by
  unfold imageWrite
  repeat' first
    | with_reducible assumption
    | with_reducible apply State.actCmd_kept
    | with_reducible apply State.log_kept
    | with_reducible apply State.complete_kept
    | intro _ _ _
    | simp only [Kept.with_iff]
    | simp only [Kept.with_ctl_iff]

theorem imageInfo_kept {s₀ s : State} (h : Kept s₀ s) (q : ℕ) :
    Kept s₀ (imageInfo q s) := by
  unfold imageInfo
  repeat' first
    | with_reducible assumption
    | with_reducible apply State.actCmd_kept
    | with_reducible apply State.complete_kept
    | intro _ _ _

end Sys2Proof.Machine
end

