-- ==== Sys2Proof/Laws/KeepCsp.lean ====
section
/-! SUPPORT. What the functions of Machine/Csp.lean keep: variant, queue of commands, register file in canonical form,
ledger chain. -/

namespace Sys2Proof.Machine

theorem State.setCsp_kept {s₀ s : State} (h : Kept s₀ s) (x : Csp) :
    Kept s₀ (s.setCsp x) := by
  unfold State.setCsp
  repeat' first
    | with_reducible assumption
    | simp only [Kept.with_iff]
    | simp only [Kept.with_ctl_iff]

theorem State.followGo_kept {s₀ s : State} (h : Kept s₀ s)  :
    Kept s₀ (s.followGo) := by
  unfold State.followGo
  repeat' first
    | with_reducible assumption
    | with_reducible apply State.setCsp_kept
    | with_reducible apply State.draw_kept
    | simp only [Kept.with_iff]
    | with_reducible apply ite_kept
    | split

theorem State.takeFlips_kept {s₀ s : State} (h : Kept s₀ s)  :
    Kept s₀ (s.takeFlips) := by
  unfold State.takeFlips
  repeat' first
    | with_reducible assumption
    | with_reducible apply State.put_kept
    | with_reducible apply State.setCsp_kept
    | with_reducible apply State.draw_kept
    | with_reducible apply foldl_kept
    | intro _ _ _
    | simp only [Kept.with_iff]
    | with_reducible apply ite_kept
    | split

theorem State.cspEdge_kept {s₀ s : State} (h : Kept s₀ s)  :
    Kept s₀ (s.cspEdge) := by
  unfold State.cspEdge
  repeat' first
    | with_reducible assumption
    | with_reducible apply State.setCsp_kept
    | with_reducible apply ack_kept
    | with_reducible apply State.followGo_kept
    | with_reducible apply State.takeFlips_kept
    | simp only [Kept.with_iff]
    | with_reducible apply ite_kept
    | split

theorem State.cspParity_kept {s₀ s : State} (h : Kept s₀ s) (op : ℕ) (addr : ℕ) :
    Kept s₀ (s.cspParity op addr) := by
  unfold State.cspParity
  repeat' first
    | with_reducible assumption
    | with_reducible apply State.checkClear_kept
    | with_reducible apply State.assertFault_kept
    | with_reducible apply ite_kept
    | split

theorem State.cspRead_kept {s₀ s : State} (h : Kept s₀ s) (op : ℕ) (addr : ℕ) :
    Kept s₀ (s.cspRead op addr) := by
  unfold State.cspRead
  repeat' first
    | with_reducible assumption
    | with_reducible apply State.cspEdge_kept
    | with_reducible apply State.cspParity_kept
    | simp only [Kept.with_iff]

theorem readOut_kept {s₀ s : State} (h : Kept s₀ s) (addr : ℕ) :
    Kept s₀ (readOut addr s) := by
  unfold readOut
  repeat' first
    | with_reducible assumption
    | with_reducible apply State.cspRead_kept
    | with_reducible apply ite_kept
    | split

theorem readDev_kept {s₀ s : State} (h : Kept s₀ s) (op : ℕ) (addr : ℕ) :
    Kept s₀ (readDev op addr s) := by
  unfold readDev
  repeat' first
    | with_reducible assumption
    | with_reducible apply State.cspRead_kept
    | with_reducible apply ite_kept
    | split

theorem cspPublication_kept {s₀ s : State} (h : Kept s₀ s)  :
    Kept s₀ (cspPublication s) := by
  unfold cspPublication
  repeat' first
    | with_reducible assumption
    | with_reducible apply State.checkWrite_kept
    | with_reducible apply State.setCsp_kept
    | with_reducible apply foldl_kept
    | intro _ _ _
    | with_reducible apply ite_kept
    | split

theorem State.strike_kept {s₀ s : State} (h : Kept s₀ s) (id : ℕ) (x : Slot) :
    Kept s₀ (s.strike id x) := by
  unfold State.strike
  repeat' first
    | with_reducible assumption
    | with_reducible apply State.draw_kept
    | with_reducible apply State.setArmed_kept
    | with_reducible apply State.acceptCommit_kept
    | with_reducible apply State.sendTxn_kept
    | with_reducible apply ite_kept

theorem State.testStrike_kept {s₀ s : State} (h : Kept s₀ s)  :
    Kept s₀ (s.testStrike) := by
  unfold State.testStrike
  repeat' first
    | with_reducible assumption
    | with_reducible apply State.putFlag_kept
    | with_reducible apply State.setCsp_kept
    | with_reducible apply ack_kept
    | with_reducible apply State.count_kept
    | with_reducible apply State.slotParity_kept
    | with_reducible apply State.strike_kept
    | intro _ _ _
    | simp only [Kept.with_iff]
    | with_reducible apply ite_kept
    | split

theorem cspGo_kept {s₀ s : State} (h : Kept s₀ s)  :
    Kept s₀ (cspGo s) := by
  unfold cspGo
  repeat' first
    | with_reducible assumption
    | with_reducible apply State.refreshGo_kept
    | with_reducible apply State.cspEdge_kept
    | with_reducible apply State.setCsp_kept
    | with_reducible apply State.testStrike_kept
    | simp only [Kept.with_iff]
    | with_reducible apply ite_kept
    | split

theorem State.abandon_kept {s₀ s : State} (h : Kept s₀ s) (c : Commit) :
    Kept s₀ (s.abandon c) := by
  unfold State.abandon
  repeat' first
    | with_reducible assumption
    | with_reducible apply State.setPair_kept
    | with_reducible apply State.sendVoid_kept
    | with_reducible apply State.count_kept
    | with_reducible apply State.postOwners_kept
    | with_reducible apply State.voidCommit_kept
    | split

theorem goAbandoned_kept {s₀ s : State} (h : Kept s₀ s)  :
    Kept s₀ (goAbandoned s) := by
  unfold goAbandoned
  repeat' first
    | with_reducible assumption
    | with_reducible apply State.abandon_kept
    | split

end Sys2Proof.Machine
end

