-- ==== Sys2Proof/Laws/KeepPairRole.lean ====
section
/-! SUPPORT. What the functions of Machine/PairRole.lean keep: variant, queue of commands, register file in canonical form,
ledger chain. -/

namespace Sys2Proof.Machine

theorem State.assertOwn_kept {s₀ s : State} (h : Kept s₀ s)  :
    Kept s₀ (s.assertOwn) := by
  unfold State.assertOwn
  repeat' first
    | with_reducible assumption
    | with_reducible apply State.putFlag_kept
    | with_reducible apply State.setPair_kept

theorem State.logTakeover_kept {s₀ s : State} (h : Kept s₀ s) (role : ℕ) (cause : ℕ) (gap : ℕ) :
    Kept s₀ (s.logTakeover role cause gap) := by
  unfold State.logTakeover
  repeat' first
    | with_reducible assumption
    | with_reducible apply State.logInvol_kept

theorem State.setRole_kept {s₀ s : State} (h : Kept s₀ s) (n : ℕ) :
    Kept s₀ (s.setRole n) := by
  unfold State.setRole
  repeat' first
    | with_reducible assumption
    | with_reducible apply State.put_kept
    | with_reducible apply State.refreshGo_kept
    | with_reducible apply State.setPair_kept

theorem State.becomeActive_kept {s₀ s : State} (h : Kept s₀ s) (cause : ℕ) (gap : ℕ) :
    Kept s₀ (s.becomeActive cause gap) := by
  unfold State.becomeActive
  repeat' first
    | with_reducible assumption
    | with_reducible apply State.logTakeover_kept
    | with_reducible apply State.put_kept
    | with_reducible apply State.setRole_kept
    | with_reducible apply State.assertOwn_kept

theorem State.becomeStandby_kept {s₀ s : State} (h : Kept s₀ s) (cause : ℕ) :
    Kept s₀ (s.becomeStandby cause) := by
  unfold State.becomeStandby
  repeat' first
    | with_reducible assumption
    | with_reducible apply State.put_kept
    | with_reducible apply State.setRole_kept
    | with_reducible apply State.releaseOwn_kept
    | with_reducible apply State.logTakeover_kept
    | with_reducible apply State.setPair_kept

theorem State.pairFault_kept {s₀ s : State} (h : Kept s₀ s) (n : ℕ) (on : Bool) :
    Kept s₀ (s.pairFault n on) := by
  unfold State.pairFault
  repeat' first
    | with_reducible assumption
    | with_reducible apply State.assertFault_kept
    | with_reducible apply State.faultGone_kept
    | with_reducible apply ite_kept

theorem State.judgeTakeover_kept {s₀ s : State} (h : Kept s₀ s)  :
    Kept s₀ (s.judgeTakeover) := by
  unfold State.judgeTakeover
  repeat' first
    | with_reducible assumption
    | with_reducible apply State.putFlag_kept
    | with_reducible apply State.postOwners_kept
    | with_reducible apply State.setPair_kept
    | with_reducible apply State.pairFault_kept
    | with_reducible apply ite_kept

theorem aliveInEdge_kept {s₀ s : State} (h : Kept s₀ s)  :
    Kept s₀ (aliveInEdge s) := by
  unfold aliveInEdge
  repeat' first
    | with_reducible assumption
    | with_reducible apply State.setPair_kept
    | with_reducible apply State.putFlag_kept
    | with_reducible apply State.judgeTakeover_kept
    | with_reducible apply ite_kept

theorem aliveInSilent_kept {s₀ s : State} (h : Kept s₀ s)  :
    Kept s₀ (aliveInSilent s) := by
  unfold aliveInSilent
  repeat' first
    | with_reducible assumption
    | with_reducible apply State.judgeTakeover_kept
    | with_reducible apply State.putFlag_kept
    | with_reducible apply ite_kept

theorem ownInChange_kept {s₀ s : State} (h : Kept s₀ s) (level : Bool) :
    Kept s₀ (ownInChange level s) := by
  unfold ownInChange
  repeat' first
    | with_reducible assumption
    | with_reducible apply State.setPair_kept
    | with_reducible apply State.putFlag_kept
    | with_reducible apply State.becomeStandby_kept
    | with_reducible apply State.judgeTakeover_kept
    | with_reducible apply ite_kept

theorem State.elect_kept {s₀ s : State} (h : Kept s₀ s)  :
    Kept s₀ (s.elect) := by
  unfold State.elect
  repeat' first
    | with_reducible assumption
    | with_reducible apply State.put_kept
    | with_reducible apply State.becomeStandby_kept
    | with_reducible apply State.judgeTakeover_kept
    | with_reducible apply State.becomeActive_kept
    | with_reducible apply State.setPair_kept
    | with_reducible apply ite_kept

theorem tieRelease_kept {s₀ s : State} (h : Kept s₀ s)  :
    Kept s₀ (tieRelease s) := by
  unfold tieRelease
  repeat' first
    | with_reducible assumption
    | with_reducible apply State.becomeStandby_kept
    | with_reducible apply ite_kept

theorem posConflict_kept {s₀ s : State} (h : Kept s₀ s)  :
    Kept s₀ (posConflict s) := by
  unfold posConflict
  repeat' first
    | with_reducible assumption
    | with_reducible apply State.putFlag_kept
    | with_reducible apply State.setRole_kept
    | with_reducible apply State.releaseOwn_kept
    | with_reducible apply State.assertFault_kept
    | with_reducible apply State.logTakeover_kept
    | with_reducible apply State.setPair_kept
    | with_reducible apply ite_kept

theorem startAlone_kept {s₀ s : State} (h : Kept s₀ s)  :
    Kept s₀ (startAlone s) := by
  unfold startAlone
  repeat' first
    | with_reducible assumption
    | with_reducible apply State.becomeActive_kept
    | with_reducible apply ite_kept
    | split

theorem State.seamQueue_kept {s₀ s : State} (h : Kept s₀ s) (q : ℕ) :
    Kept s₀ (s.seamQueue q) := by
  unfold State.seamQueue
  repeat' first
    | with_reducible assumption
    | with_reducible apply State.regMark_kept
    | with_reducible apply State.putPair_kept
    | with_reducible apply State.setQueue_kept
    | with_reducible apply ite_kept
    | split
    | intro _ _ _
    | simp only [Kept.with_iff]

end Sys2Proof.Machine
end

