-- ==== Sys2Proof/Laws/KeepPairLink.lean ====
section
/-! SUPPORT. What the functions of Machine/PairLink.lean keep: variant, queue of commands, register file in canonical form,
ledger chain. -/

namespace Sys2Proof.Machine

theorem State.lockLanes_kept {s₀ s : State} (h : Kept s₀ s)  :
    Kept s₀ (s.lockLanes) := by
  unfold State.lockLanes
  repeat' first
    | with_reducible assumption
    | with_reducible apply State.putFlag_kept
    | with_reducible apply State.put_kept
    | with_reducible apply foldl_kept
    | intro _ _ _
    | simp only [Kept.with_iff]
    | with_reducible apply ite_kept
    | split

theorem State.startRejoin_kept {s₀ s : State} (h : Kept s₀ s)  :
    Kept s₀ (s.startRejoin) := by
  unfold State.startRejoin
  repeat' first
    | with_reducible assumption
    | with_reducible apply State.draw_kept
    | with_reducible apply State.setPair_kept
    | with_reducible apply State.sendTxn_kept
    | with_reducible apply State.logPair_kept
    | with_reducible apply foldl_kept
    | intro _ _ _

theorem State.beginSync_kept {s₀ s : State} (h : Kept s₀ s)  :
    Kept s₀ (s.beginSync) := by
  unfold State.beginSync
  repeat' first
    | with_reducible assumption
    | with_reducible apply State.setPair_kept
    | with_reducible apply State.put_kept
    | with_reducible apply State.logPair_kept
    | simp only [Kept.with_iff]
    | with_reducible apply ite_kept
    | split

theorem State.tryRejoin_kept {s₀ s : State} (h : Kept s₀ s)  :
    Kept s₀ (s.tryRejoin) := by
  unfold State.tryRejoin
  repeat' first
    | with_reducible assumption
    | with_reducible apply State.startRejoin_kept
    | with_reducible apply State.beginSync_kept
    | simp only [Kept.with_iff]
    | with_reducible apply ite_kept
    | split

theorem State.tryUp_kept {s₀ s : State} (h : Kept s₀ s)  :
    Kept s₀ (s.tryUp) := by
  unfold State.tryUp
  repeat' first
    | with_reducible assumption
    | with_reducible apply State.setTseq_kept
    | with_reducible apply State.putFlag_kept
    | with_reducible apply State.setPair_kept
    | with_reducible apply State.tryRejoin_kept
    | with_reducible apply State.refreshGo_kept
    | with_reducible apply ite_kept

theorem State.dropPartials_kept {s₀ s : State} (h : Kept s₀ s)  :
    Kept s₀ (s.dropPartials) := by
  unfold State.dropPartials
  repeat' first
    | with_reducible assumption
    | with_reducible apply State.setPair_kept
    | with_reducible apply State.count_kept

theorem State.goDown_kept {s₀ s : State} (h : Kept s₀ s) (cause : ℕ) :
    Kept s₀ (s.goDown cause) := by
  unfold State.goDown
  repeat' first
    | with_reducible assumption
    | with_reducible apply State.put_kept
    | with_reducible apply State.dropPartials_kept
    | with_reducible apply State.putFlag_kept
    | with_reducible apply State.setPair_kept
    | with_reducible apply State.refreshGo_kept
    | with_reducible apply State.postOwners_kept
    | with_reducible apply ite_kept

theorem State.sendHello_kept {s₀ s : State} (h : Kept s₀ s)  :
    Kept s₀ (s.sendHello) := by
  unfold State.sendHello
  repeat' first
    | with_reducible assumption
    | with_reducible apply State.setPair_kept
    | with_reducible apply State.sendCtlBytes_kept
    | simp only [Kept.with_iff]
    | with_reducible apply ite_kept
    | split

theorem linkUp_kept {s₀ s : State} (h : Kept s₀ s)  :
    Kept s₀ (linkUp s) := by
  unfold linkUp
  repeat' first
    | with_reducible assumption
    | with_reducible apply State.lockLanes_kept
    | with_reducible apply State.sendHello_kept
    | with_reducible apply State.tryUp_kept
    | with_reducible apply ite_kept
    | split

theorem State.laneLoss_kept {s₀ s : State} (h : Kept s₀ s) (n bad : ℕ) (amLost : Bool) : Kept s₀ (s.laneLoss n bad amLost).2 := by
  unfold State.laneLoss
  dsimp only
  repeat' first
    | with_reducible assumption
    | with_reducible apply State.putFlag_kept
    | with_reducible apply State.count_kept
    | with_reducible apply ite_kept

theorem linkDown_kept {s₀ s : State} (h : Kept s₀ s) (d : LinkDownIn) :
    Kept s₀ (linkDown d s) := by
  unfold linkDown
  repeat' first
    | with_reducible assumption
    | with_reducible apply State.laneLoss_kept
    | with_reducible apply State.goDown_kept
    | with_reducible apply State.put_kept
    | with_reducible apply ite_kept
    | split

theorem waggleTimeout_kept {s₀ s : State} (h : Kept s₀ s)  :
    Kept s₀ (waggleTimeout s) := by
  unfold waggleTimeout
  repeat' first
    | with_reducible assumption
    | with_reducible apply State.goDown_kept
    | with_reducible apply ite_kept

theorem haldodHello_kept {s₀ s : State} (h : Kept s₀ s) (nonce : List Byte) (tag : List Byte) (id : List Byte) :
    Kept s₀ (haldodHello nonce tag id s) := by
  unfold haldodHello
  repeat' first
    | with_reducible assumption
    | with_reducible apply State.count_kept
    | with_reducible apply State.put_kept
    | with_reducible apply State.lockLanes_kept
    | with_reducible apply State.sendHello_kept
    | with_reducible apply State.setPair_kept
    | with_reducible apply State.tryUp_kept
    | simp only [Kept.with_iff]
    | with_reducible apply ite_kept
    | split

theorem State.badFrame_kept {s₀ s : State} (h : Kept s₀ s) (tagOk : Bool) :
    Kept s₀ (s.badFrame tagOk) := by
  unfold State.badFrame
  repeat' first
    | with_reducible assumption
    | with_reducible apply State.count_kept
    | with_reducible apply State.setPair_kept
    | with_reducible apply State.goDown_kept
    | with_reducible apply ite_kept

theorem State.tookFrame_kept {s₀ s : State} (h : Kept s₀ s) (f : FrameIn) :
    Kept s₀ (s.tookFrame f) := by
  unfold State.tookFrame
  repeat' first
    | with_reducible assumption
    | with_reducible apply State.setPair_kept
    | simp only [Kept.with_iff]

/-- What a frame does keeps what every state it may find keeps. -/
theorem State.frameIn_kept {s₀ s : State} (h : Kept s₀ s) (kind : ℕ) (f : FrameIn) (body : List Byte) {act : State → State}
    (ha : ∀ t, Kept s₀ t → Kept s₀ (act t)) : Kept s₀ (s.frameIn kind f body act) := by
  unfold State.frameIn
  split
  · exact h
  · split
    · exact State.badFrame_kept h _
    · exact ha _ (State.tookFrame_kept h _)

theorem framesIn_kept {s₀ s : State} (h : Kept s₀ s) (kind : ℕ) {act : State → State} (ha : ∀ t, Kept s₀ t → Kept s₀ (act t))
    (fs : List (FrameIn × List Byte)) : Kept s₀ (framesIn kind act fs s) := by
  induction fs generalizing s with
  | nil => exact ha _ h
  | cons x fs ih => exact State.frameIn_kept h _ _ _ fun _ k => ih k

theorem State.heardSolo_kept {s₀ s : State} (h : Kept s₀ s) (solo : Bool) :
    Kept s₀ (s.heardSolo solo) := by
  unfold State.heardSolo
  repeat' first
    | with_reducible assumption
    | with_reducible apply State.logPair_kept
    | with_reducible apply State.putFlag_kept
    | with_reducible apply State.setPair_kept
    | with_reducible apply ite_kept

theorem waggle_kept {s₀ s : State} (h : Kept s₀ s) (w : WaggleIn) :
    Kept s₀ (waggle w s) := by
  unfold waggle
  repeat' first
    | with_reducible assumption
    | with_reducible refine State.frameIn_kept ?_ _ _ _ fun _ _ => ?_
    | with_reducible apply State.setPair_kept
    | with_reducible apply State.put_kept
    | with_reducible apply State.tryUp_kept
    | with_reducible apply State.heardSolo_kept
    | with_reducible apply State.tryRejoin_kept
    | with_reducible apply State.judgeTakeover_kept
    | intro _ _ _
    | simp only [Kept.with_iff]

theorem stale_kept {s₀ s : State} (h : Kept s₀ s)  :
    Kept s₀ (stale s) := by
  unfold stale
  repeat' first
    | with_reducible assumption
    | with_reducible apply State.judgeTakeover_kept
    | with_reducible apply State.setPair_kept
    | with_reducible apply ite_kept

theorem txPat_kept {s₀ s : State} (h : Kept s₀ s) (n : ℕ) (v : Word) :
    Kept s₀ (txPat n v s) := by
  unfold txPat
  repeat' first
    | with_reducible assumption
    | with_reducible apply State.store_kept
    | with_reducible apply State.putFlag_kept
    | with_reducible apply State.setPair_kept
    | with_reducible apply State.goDown_kept
    | simp only [Kept.with_iff]
    | with_reducible apply ite_kept
    | split

theorem checkerLock_kept {s₀ s : State} (h : Kept s₀ s) (c : CheckIn) :
    Kept s₀ (checkerLock c s) := by
  unfold checkerLock
  repeat' first
    | with_reducible assumption
    | with_reducible apply State.putFlag_kept
    | with_reducible apply State.count_kept
    | with_reducible apply State.setPair_kept
    | with_reducible apply foldl_kept
    | intro _ _ _
    | simp only [Kept.with_iff]
    | with_reducible apply ite_kept
    | split

theorem digestSend_kept {s₀ s : State} (h : Kept s₀ s)  :
    Kept s₀ (digestSend s) := by
  unfold digestSend
  repeat' first
    | with_reducible assumption
    | with_reducible apply State.sendFrame_kept
    | with_reducible apply State.setPair_kept
    | simp only [Kept.with_iff]
    | with_reducible apply ite_kept
    | split

theorem digestIn_kept {s₀ s : State} (h : Kept s₀ s) (d : DigestIn) :
    Kept s₀ (digestIn d s) := by
  unfold digestIn
  repeat' first
    | with_reducible assumption
    | with_reducible refine State.frameIn_kept ?_ _ _ _ fun _ _ => ?_
    | with_reducible apply State.setPair_kept
    | intro _ _ _
    | with_reducible apply ite_kept
    | split

theorem digestMiss_kept {s₀ s : State} (h : Kept s₀ s)  :
    Kept s₀ (digestMiss s) := by
  unfold digestMiss
  repeat' first
    | with_reducible assumption
    | with_reducible apply State.setPair_kept
    | with_reducible apply ite_kept

theorem periodicMirrorSend_kept {s₀ s : State} (h : Kept s₀ s)  :
    Kept s₀ (periodicMirrorSend s) := by
  unfold periodicMirrorSend
  repeat' first
    | with_reducible assumption
    | with_reducible apply State.sendStream_kept
    | with_reducible apply ite_kept
    | split

end Sys2Proof.Machine
end

