-- ==== Sys2Proof/Laws/KeepPairTxn.lean ====
section
/-! SUPPORT. What the functions of Machine/PairTxn.lean keep: variant, queue of commands, register file in canonical form,
ledger chain. -/

namespace Sys2Proof.Machine

theorem State.shadowId_kept {s₀ s : State} (h : Kept s₀ s) (q : ℕ) : Kept s₀ (s.shadowId q).2 := by
  unfold State.shadowId
  split
  · exact State.freeId_kept h
  · exact h

theorem State.addShadow_kept {s₀ s : State} (h : Kept s₀ s) (n : ℕ) (x : Shadow) : Kept s₀ (s.addShadow n x) :=
  State.anchorOpen_kept (State.openQueue_kept (State.setPair_kept h ..) ..) ..

theorem State.dropShadow_kept {s₀ s : State} (h : Kept s₀ s) (n : ℕ) :
    Kept s₀ (s.dropShadow n) := by
  unfold State.dropShadow
  repeat' first
    | with_reducible assumption
    | with_reducible apply State.setPair_kept
    | with_reducible apply State.closeQueue_kept

theorem State.logShadowClose_kept {s₀ s : State} (h : Kept s₀ s) (n : ℕ) (role : ℕ) (cause : ℕ) :
    Kept s₀ (s.logShadowClose n role cause) := by
  unfold State.logShadowClose
  repeat' first
    | with_reducible assumption
    | with_reducible apply State.log_kept
    | with_reducible apply State.dropShadow_kept
    | with_reducible apply State.ledgerStat_kept

theorem State.logSessionTxn_kept {s₀ s : State} (h : Kept s₀ s) (d : List ℕ) (n : ℕ) :
    Kept s₀ (s.logSessionTxn d n) := by
  unfold State.logSessionTxn
  repeat' first
    | with_reducible assumption
    | with_reducible apply State.log_kept
    | with_reducible apply ite_kept

theorem State.stage_kept {s₀ s : State} (h : Kept s₀ s) (ty : ℕ) (d : List ℕ) : Kept s₀ (s.stage ty d).1 := by
  unfold State.stage
  dsimp only
  split
  · exact State.acceptCommit_kept (ite_kept (State.setArmed_kept h ..) h) ..
  · split
    · exact State.refreshGo_kept (State.setArmed_kept h ..)
    · split
      · exact State.acceptPark_kept h ..
      · split
        · exact State.takeList_kept (State.log_kept h ..) ..
        · split
          · exact State.haltList_kept (State.logStop_kept h ..)
          · split
            · refine State.logSessionTxn_kept ?_ ..
              split
              · exact State.shadowId_kept h _
              · exact h
            · split
              · exact State.log_kept h ..
              · exact h

theorem State.diverge_kept {s₀ s : State} (h : Kept s₀ s)  :
    Kept s₀ (s.diverge) := by
  unfold State.diverge
  repeat' first
    | with_reducible assumption
    | with_reducible apply State.put_kept
    | with_reducible apply State.putFlag_kept
    | with_reducible apply State.judgeTakeover_kept
    | with_reducible apply State.logPair_kept
    | with_reducible apply ite_kept

theorem State.sendNak_kept {s₀ s : State} (h : Kept s₀ s) (tseq : ℕ) (cause : ℕ) :
    Kept s₀ (s.sendNak tseq cause) := by
  unfold State.sendNak
  repeat' first
    | with_reducible assumption
    | with_reducible apply State.sendCtl_kept
    | with_reducible apply State.count_kept
    | with_reducible apply State.setPair_kept
    | with_reducible apply State.diverge_kept
    | with_reducible apply ite_kept

theorem State.judgeEnd_kept {s₀ s : State} (h : Kept s₀ s) (tseq : ℕ) (ty : ℕ) (d : List ℕ) :
    Kept s₀ (s.judgeEnd tseq ty d) := by
  unfold State.judgeEnd
  dsimp only
  refine ite_kept (State.sendNak_kept h ..) (ite_kept (State.sendNak_kept h ..) ?_)
  refine State.sendCtl_kept (State.setPair_kept (State.setTseq_kept (State.stage_kept ?_ ..) ..) ..) ..
  refine ite_kept (State.beginSync_kept ?_) ?_ <;> exact ite_kept (State.setPair_kept h ..) h

theorem State.takePart_kept {s₀ s : State} (h : Kept s₀ s) (m : Mirrored) :
    Kept s₀ (s.takePart m) := by
  unfold State.takePart
  repeat' first
    | with_reducible assumption
    | with_reducible apply State.setPair_kept
    | with_reducible apply State.judgeEnd_kept
    | simp only [Kept.with_iff]
    | with_reducible apply ite_kept
    | split

theorem mirror_kept {s₀ s : State} (h : Kept s₀ s) (m : Mirrored) :
    Kept s₀ (mirror m s) := by
  unfold mirror
  repeat' first
    | with_reducible assumption
    | with_reducible refine State.frameIn_kept ?_ _ _ _ fun _ _ => ?_
    | with_reducible apply State.takePart_kept
    | intro _ _ _

theorem State.applySession_kept {s₀ s : State} (h : Kept s₀ s) (d : List ℕ) (n : ℕ) :
    Kept s₀ (s.applySession d n) := by
  unfold State.applySession
  repeat' first
    | with_reducible assumption
    | with_reducible apply State.addShadow_kept
    | with_reducible apply State.logShadowClose_kept
    | with_reducible apply State.setPair_kept
    | with_reducible apply State.setVf_kept
    | with_reducible apply foldl_kept
    | intro _ _ _
    | simp only [Kept.with_iff]
    | with_reducible apply ite_kept
    | split

theorem State.applySlot_kept {s₀ s : State} (h : Kept s₀ s) (d : List ℕ) :
    Kept s₀ (s.applySlot d) := by
  unfold State.applySlot
  repeat' first
    | with_reducible assumption
    | with_reducible apply State.freeSlot_kept
    | with_reducible apply State.setSlot_kept
    | with_reducible apply ite_kept

theorem State.applyList_kept {s₀ s : State} (h : Kept s₀ s) (d : List ℕ) :
    Kept s₀ (s.applyList d) := by
  unfold State.applyList
  repeat' first
    | with_reducible assumption
    | with_reducible apply State.put_kept
    | with_reducible apply State.setPlan_kept
    | with_reducible apply State.refreshGo_kept
    | with_reducible apply ite_kept

theorem State.applyForce_kept {s₀ s : State} (h : Kept s₀ s) (d : List ℕ) :
    Kept s₀ (s.applyForce d) := by
  unfold State.applyForce
  repeat' first
    | with_reducible assumption
    | with_reducible apply State.endSync_kept
    | with_reducible apply State.put_kept
    | with_reducible apply State.ledgerRefused_kept
    | with_reducible apply make_kept
    | with_reducible apply State.acceptCommit_kept
    | intro _ _ _
    | simp only [Kept.with_iff]
    | with_reducible apply ite_kept
    | split

theorem State.applyResync_kept {s₀ s : State} (h : Kept s₀ s) (d : List ℕ) :
    Kept s₀ (s.applyResync d) := by
  unfold State.applyResync
  repeat' first
    | with_reducible assumption
    | with_reducible apply State.dropShadow_kept
    | with_reducible apply State.setPair_kept
    | with_reducible apply State.shadowId_kept
    | with_reducible apply State.addShadow_kept
    | with_reducible apply State.setVf_kept
    | with_reducible apply State.setKey_kept
    | with_reducible apply State.applySlot_kept
    | with_reducible apply State.setArmed_kept
    | with_reducible apply State.refreshGo_kept
    | with_reducible apply State.applyList_kept
    | with_reducible apply State.applyForce_kept
    | with_reducible apply foldl_kept
    | intro _ _ _
    | simp only [Kept.with_iff]
    | with_reducible apply ite_kept
    | split

theorem State.applyTxn_kept {s₀ s : State} (h : Kept s₀ s) (t : StagedTxn) :
    Kept s₀ (s.applyTxn t) := by
  unfold State.applyTxn
  repeat' first
    | with_reducible assumption
    | with_reducible apply State.applySession_kept
    | with_reducible apply State.setKey_kept
    | with_reducible apply State.applySlot_kept
    | with_reducible apply State.applyResync_kept
    | with_reducible apply ite_kept

theorem State.applyStaged_kept {s₀ s : State} (h : Kept s₀ s) (p : StagedTxn → Bool) :
    Kept s₀ (s.applyStaged p) := by
  unfold State.applyStaged
  repeat' first
    | with_reducible assumption
    | with_reducible apply State.setPair_kept
    | with_reducible apply State.applyTxn_kept
    | with_reducible apply foldl_kept
    | intro _ _ _

theorem stagedEffect_kept {s₀ s : State} (h : Kept s₀ s)  :
    Kept s₀ (stagedEffect s) := by
  unfold stagedEffect
  repeat' first
    | with_reducible assumption
    | with_reducible apply State.applyStaged_kept
    | with_reducible apply ite_kept

theorem State.takeBack_kept {s₀ s t : State} {x : StagedTxn} (h : Kept s₀ s) (e : s.takeBack x = some t) : Kept s₀ t := by
  unfold State.takeBack at e
  dsimp only at e
  repeat' split at e
  all_goals cases e
  all_goals repeat' first
    | with_reducible assumption
    | with_reducible apply State.voidCommit_kept
    | with_reducible apply State.refreshGo_kept
    | with_reducible apply State.setArmed_kept
    | with_reducible apply State.parkDone_kept
    | with_reducible apply State.put_kept
    | with_reducible apply State.setPlan_kept
    | with_reducible apply State.haltList_kept
    | with_reducible apply foldl_kept
    | intro _ _ _
    | simp only [Kept.with_iff]
    | simp only [Kept.with_ctl_iff]
    | with_reducible apply ite_kept
    | split
    | dsimp only

theorem State.voidStaged_kept {s₀ s : State} (h : Kept s₀ s) (tseq : ℕ) :
    Kept s₀ (s.voidStaged tseq) := by
  unfold State.voidStaged
  have k := State.count_kept h Adr.PAIR_TXN Fl.PAIR_TXN_VOID 1
  dsimp only
  split
  · exact State.setPair_kept k ..
  · split
    · exact ite_kept (State.diverge_kept k) k
    · split
      · exact State.takeBack_kept (State.setPair_kept k ..) ‹_›
      · exact State.diverge_kept (State.setPair_kept k ..)

theorem voidTxn_kept {s₀ s : State} (h : Kept s₀ s) (x : TseqIn) :
    Kept s₀ (voidTxn x s) := by
  unfold voidTxn
  repeat' first
    | with_reducible assumption
    | with_reducible refine State.frameIn_kept ?_ _ _ _ fun _ _ => ?_
    | with_reducible apply State.voidStaged_kept
    | intro _ _ _
    | simp only [Kept.with_ctl_iff]
    | with_reducible apply ite_kept
    | split

theorem State.takeSent_kept {s₀ s t : State} {x : SentTxn} (h : Kept s₀ s) {tseq : ℕ} (e : s.takeSent tseq = some (x, t)) :
    Kept s₀ t := by
  unfold State.takeSent at e
  split at e
  · cases e; exact State.setPair_kept h ..
  · cases e

theorem State.openAcked_kept {s₀ s : State} (h : Kept s₀ s) (view : ℕ) (d : List ℕ) (tseq : ℕ) :
    Kept s₀ (s.openAcked view d tseq) := by
  unfold State.openAcked
  repeat' first
    | with_reducible assumption
    | with_reducible apply State.dropOpening_kept
    | with_reducible apply State.sendVoid_kept
    | with_reducible apply State.windowDone_kept
    | with_reducible apply State.createSession_kept
    | with_reducible apply ite_kept
    | split
    | intro _ _ _
    | simp only [Kept.with_iff]

theorem State.helloAcked_kept {s₀ s : State} (h : Kept s₀ s) (d : List ℕ) (tseq : ℕ) :
    Kept s₀ (s.helloAcked d tseq) := by
  unfold State.helloAcked
  repeat' first
    | with_reducible assumption
    | with_reducible apply State.dropOpening_kept
    | with_reducible apply State.sendVoid_kept
    | with_reducible apply State.reject_kept
    | with_reducible apply State.acceptHello_kept
    | simp only [Kept.with_iff]
    | simp only [Kept.with_ctl_iff]
    | with_reducible apply ite_kept
    | split
    | intro _ _ _

theorem State.notAcked_kept {s₀ s : State} (h : Kept s₀ s) (t : SentTxn) :
    Kept s₀ (s.notAcked t) := by
  unfold State.notAcked
  repeat' first
    | with_reducible assumption
    | with_reducible apply State.dropOpening_kept
    | with_reducible apply State.refuse_kept
    | with_reducible apply State.windowDone_kept
    | with_reducible apply State.reject_kept
    | with_reducible apply State.postOwners_kept
    | with_reducible apply State.voidCommit_kept
    | simp only [Kept.with_iff]
    | simp only [Kept.with_ctl_iff]
    | with_reducible apply ite_kept
    | split
    | intro _ _ _

theorem State.ackMissed_kept {s₀ s : State} (h : Kept s₀ s) (t : SentTxn) :
    Kept s₀ (s.ackMissed t) := by
  unfold State.ackMissed
  repeat' first
    | with_reducible assumption
    | with_reducible apply State.notAcked_kept
    | with_reducible apply State.sendVoid_kept
    | with_reducible apply State.count_kept

theorem aheadOf_acts {s₀ : State} {op : ℕ} {c : Ahead} (hc : aheadOf op = some c) (s : State) (q : ℕ) (t : Taken) (a : Ack)
    (h : Kept s₀ s) : Kept s₀ (c.act s q t a) := by
  unfold aheadOf at hc
  repeat' split at hc
  all_goals cases hc
  · exact closeCmd_acts _ _ _ _ h
  · exact grantCmd_acts _ _ _ _ h
  · exact vfGrantCmd_acts _ _ _ _ h
  · exact commitCmd_acts _ _ _ _ h
  · exact armCmd_acts _ _ _ _ h
  · exact parkCmd_acts _ _ _ _ h
  · exact loadCmd_acts _ _ _ _ h
  · exact stopCmd_acts _ _ _ _ h
  · exact keyCmd_acts _ _ _ _ h

theorem State.acked_kept {s₀ s : State} (h : Kept s₀ s) (t : SentTxn) (tAck tMake : ℕ) : Kept s₀ (s.acked t tAck tMake) := by
  unfold State.acked
  dsimp only
  split
  · split
    · rename_i c hc
      obtain ⟨op, -, ho⟩ := Option.bind_eq_some_iff.mp hc
      exact State.aheadAck_kept h _ _ _ _ (aheadOf_acts ho)
    · exact State.sendVoid_kept h ..
  · split
    · exact State.openAcked_kept h ..
    · split
      · exact State.helloAcked_kept h ..
      · split
        · exact State.setPlan_kept h ..
        · exact h

theorem ack_kept {s₀ s : State} (h : Kept s₀ s) (x : TseqIn) (tAck tMake : ℕ) : Kept s₀ (ack x tAck tMake s) := by
  unfold ack
  refine State.frameIn_kept h _ _ _ fun t h => ?_
  split
  · exact h
  · split
    · exact State.sendVoid_kept h ..
    · have k := State.takeSent_kept h ‹_›
      split
      · exact State.ackMissed_kept k ..
      · exact State.acked_kept k ..

theorem State.nakked_kept {s₀ s : State} (h : Kept s₀ s) (t : SentTxn) (cause : ℕ) :
    Kept s₀ (s.nakked t cause) := by
  unfold State.nakked
  repeat' first
    | with_reducible assumption
    | with_reducible apply State.count_kept
    | with_reducible apply State.notAcked_kept
    | with_reducible apply State.tellTxn_kept
    | with_reducible apply State.startRejoin_kept
    | with_reducible apply ite_kept
    | split

theorem nak_kept {s₀ s : State} (h : Kept s₀ s) (x : TseqIn) (cause : ℕ) :
    Kept s₀ (nak x cause s) := by
  unfold nak
  refine State.frameIn_kept h _ _ _ fun t h => ?_
  split
  · exact h
  · split
    · exact h
    · exact State.nakked_kept (State.takeSent_kept h ‹_›) ..

theorem pairNoAck_kept {s₀ s : State} (h : Kept s₀ s)  :
    Kept s₀ (pairNoAck s) := by
  unfold pairNoAck
  repeat' first
    | with_reducible assumption
    | with_reducible apply State.setPair_kept
    | with_reducible apply State.ackMissed_kept
    | with_reducible apply foldl_kept
    | intro _ _ _
    | with_reducible apply ite_kept

theorem State.takeMark_kept {s₀ s : State} (h : Kept s₀ s) (p : Position) :
    Kept s₀ (s.takeMark p) := by
  unfold State.takeMark
  repeat' first
    | with_reducible assumption
    | with_reducible apply State.onQueue_kept
    | with_reducible apply State.lossFreed_kept
    | intro _ _ _
    | simp only [Kept.with_iff]
    | split

theorem positions_kept {s₀ s : State} (h : Kept s₀ s) (p : PositionsIn) :
    Kept s₀ (positions p s) := by
  unfold positions
  dsimp only
  refine ite_kept (framesIn_kept h _ (fun t k => ?_) _) h
  exact ite_kept (foldl_kept k fun _ _ k => State.takeMark_kept k _) k

theorem swarm_kept {s₀ s : State} (h : Kept s₀ s)  :
    Kept s₀ (swarm s) := by
  unfold swarm
  repeat' first
    | with_reducible assumption
    | with_reducible apply State.applyStaged_kept
    | with_reducible apply State.dropPartials_kept
    | with_reducible apply State.becomeActive_kept
    | with_reducible apply State.count_kept
    | with_reducible apply State.pushCap_kept
    | with_reducible apply State.seamQueue_kept
    | with_reducible apply State.setPair_kept
    | with_reducible apply foldl_kept
    | intro _ _ _
    | with_reducible apply ite_kept

theorem resumeWinExpiry_kept {s₀ s : State} (h : Kept s₀ s)  :
    Kept s₀ (resumeWinExpiry s) := by
  unfold resumeWinExpiry
  repeat' first
    | with_reducible assumption
    | with_reducible apply State.logShadowClose_kept
    | with_reducible apply State.setPair_kept
    | with_reducible apply foldl_kept
    | intro _ _ _
    | with_reducible apply ite_kept
    | split

end Sys2Proof.Machine
end

