-- ==== Sys2Proof/Laws/KeepPairCmds.lean ====
section
/-! SUPPORT. What the functions of Machine/PairCmds.lean keep: variant, queue of commands, register file in canonical form,
ledger chain. -/

namespace Sys2Proof.Machine

theorem State.sendOffer_kept {s₀ s : State} (h : Kept s₀ s)  :
    Kept s₀ (s.sendOffer) := by
  unfold State.sendOffer
  dsimp only
  apply State.sendCtlBytes_kept
  apply State.sign_kept
  simpa only [Kept.with_iff] using h

theorem pairEnrol_kept {s₀ s : State} (h : Kept s₀ s) (q : ℕ) :
    Kept s₀ (pairEnrol q s) := by
  unfold pairEnrol
  repeat' first
    | with_reducible assumption
    | with_reducible apply State.actCmd_kept
    | with_reducible apply State.setPhase_kept
    | with_reducible apply State.setPair_kept
    | with_reducible apply State.sendOffer_kept
    | intro _ _ _

theorem State.sealPairKey_kept {s₀ s : State} (h : Kept s₀ s) (q : ℕ) (role : ℕ) :
    Kept s₀ (s.sealPairKey q role) := by
  unfold State.sealPairKey
  repeat' first
    | with_reducible assumption
    | with_reducible apply State.seal_kept
    | with_reducible apply State.putFlag_kept
    | with_reducible apply State.logPair_kept
    | simp only [Kept.with_iff]
    | simp only [Kept.with_ctl_iff]

theorem enrolOffer_kept {s₀ s : State} (h : Kept s₀ s) (key : List Byte) (sig : List Byte) (variantOk : Bool) :
    Kept s₀ (enrolOffer key sig variantOk s) := by
  unfold enrolOffer
  repeat' first
    | with_reducible assumption
    | with_reducible apply State.setPair_kept
    | with_reducible apply State.complete_kept
    | with_reducible apply State.refuse_kept
    | with_reducible apply State.sealPairKey_kept
    | with_reducible apply ite_kept
    | split

theorem enrolTimeout_kept {s₀ s : State} (h : Kept s₀ s)  :
    Kept s₀ (enrolTimeout s) := by
  unfold enrolTimeout
  repeat' first
    | with_reducible assumption
    | with_reducible apply State.complete_kept
    | with_reducible apply State.setPair_kept
    | with_reducible apply ite_kept
    | split

theorem pairStatus_kept {s₀ s : State} (h : Kept s₀ s) (q : ℕ) :
    Kept s₀ (pairStatus q s) := by
  unfold pairStatus
  repeat' first
    | with_reducible assumption
    | with_reducible apply State.actCmd_kept
    | with_reducible apply State.complete_kept
    | intro _ _ _

theorem pairHealth_kept {s₀ s : State} (h : Kept s₀ s) (q : ℕ) :
    Kept s₀ (pairHealth q s) := by
  unfold pairHealth
  repeat' first
    | with_reducible assumption
    | with_reducible apply State.actCmd_kept
    | with_reducible apply State.complete_kept
    | with_reducible apply State.writeBuf_kept
    | intro _ _ _

theorem State.setSolo_kept {s₀ s : State} (h : Kept s₀ s) (q : ℕ) (role : ℕ) (on : Bool) :
    Kept s₀ (s.setSolo q role on) := by
  unfold State.setSolo
  repeat' first
    | with_reducible assumption
    | with_reducible apply State.logPair_kept
    | with_reducible apply State.putFlag_kept
    | with_reducible apply State.tryRejoin_kept
    | with_reducible apply State.setPair_kept
    | with_reducible apply State.refreshGo_kept
    | with_reducible apply ite_kept

theorem pairSolo_kept {s₀ s : State} (h : Kept s₀ s) (q : ℕ) :
    Kept s₀ (pairSolo q s) := by
  unfold pairSolo
  repeat' first
    | with_reducible assumption
    | with_reducible apply State.actCmd_kept
    | with_reducible apply State.complete_kept
    | with_reducible apply State.setSolo_kept
    | intro _ _ _
    | with_reducible apply ite_kept

theorem State.sendHealthReq_kept {s₀ s : State} (h : Kept s₀ s)  :
    Kept s₀ (s.sendHealthReq) := by
  unfold State.sendHealthReq
  repeat' first
    | with_reducible assumption
    | with_reducible apply State.sendFrame_kept
    | with_reducible apply State.setPair_kept
    | with_reducible apply foldl_kept
    | intro _ _ _
    | simp only [Kept.with_iff]
    | simp only [Kept.with_ctl_iff]

theorem State.answerHealth_kept {s₀ s : State} (h : Kept s₀ s) (h : HealthReqIn) :
    Kept s₀ (s.answerHealth h) := by
  unfold State.answerHealth
  repeat' first
    | with_reducible assumption
    | with_reducible apply State.put_kept
    | with_reducible apply State.setPair_kept
    | with_reducible apply State.sendCtlBytes_kept
    | with_reducible apply State.pairFault_kept
    | with_reducible apply State.judgeTakeover_kept

theorem healthReq_kept {s₀ s : State} (k : Kept s₀ s) (h : HealthReqIn) :
    Kept s₀ (healthReq h s) := by
  unfold healthReq
  refine ite_kept (framesIn_kept k _ (fun t k => ?_) _) k
  exact ite_kept (ite_kept (State.setPair_kept k _) (State.answerHealth_kept k _)) k

theorem State.healthDue_kept {s₀ s : State} (h : Kept s₀ s)  :
    Kept s₀ (s.healthDue) := by
  unfold State.healthDue
  repeat' first
    | with_reducible assumption
    | with_reducible apply State.sendHealthReq_kept
    | with_reducible apply State.answerHealth_kept
    | simp only [Kept.with_iff]
    | with_reducible apply ite_kept
    | split

theorem waggleSend_kept {s₀ s : State} (h : Kept s₀ s)  :
    Kept s₀ (waggleSend s) := by
  unfold waggleSend
  repeat' first
    | with_reducible assumption
    | with_reducible apply State.sendFrame_kept
    | with_reducible apply State.setPair_kept
    | with_reducible apply State.healthDue_kept
    | simp only [Kept.with_iff]
    | with_reducible apply ite_kept
    | split

theorem health_kept {s₀ s : State} (h : Kept s₀ s) (h : HealthIn) (rest : List Byte) :
    Kept s₀ (health h rest s) := by
  unfold health
  repeat' first
    | with_reducible assumption
    | with_reducible refine State.frameIn_kept ?_ _ _ _ fun _ _ => ?_
    | with_reducible apply State.put_kept
    | with_reducible apply State.setPair_kept
    | with_reducible apply State.pairFault_kept
    | with_reducible apply State.startRejoin_kept
    | intro _ _ _
    | simp only [Kept.with_iff]
    | with_reducible apply ite_kept
    | split

end Sys2Proof.Machine
end

