-- ==== Sys2Proof/Laws/KeepBoot.lean ====
section
/-! SUPPORT. What the functions of Machine/Boot.lean keep: variant, queue of commands, register file in canonical form,
ledger chain. -/

namespace Sys2Proof.Machine

theorem State.setBootStat_kept {s₀ s : State} (h : Kept s₀ s) (f : Field) (n : ℕ) :
    Kept s₀ (s.setBootStat f n) := by
  unfold State.setBootStat
  repeat' first
    | with_reducible assumption
    | with_reducible apply State.put_kept

theorem State.stage1_kept {s₀ s : State} (h : Kept s₀ s) (b : BootIn) (cause : ℕ) :
    Kept s₀ (s.stage1 b cause) := by
  unfold State.stage1
  repeat' first
    | with_reducible assumption
    | with_reducible apply State.setBoot_kept
    | with_reducible apply State.resetRegs_kept
    | with_reducible apply State.setBootStat_kept
    | with_reducible apply State.putFlag_kept

theorem State.disarm_kept {s₀ s : State} (h : Kept s₀ s)  :
    Kept s₀ (s.disarm) := by
  unfold State.disarm
  repeat' first
    | with_reducible assumption
    | with_reducible apply State.putFlag_kept
    | with_reducible apply foldl_kept
    | intro _ _ _
    | simp only [Kept.with_iff]
    | simp only [Kept.with_ctl_iff]

theorem State.stage2_kept {s₀ s : State} (h : Kept s₀ s)  :
    Kept s₀ (s.stage2) := by
  unfold State.stage2
  repeat' first
    | with_reducible assumption
    | with_reducible apply State.wr_kept
    | with_reducible apply State.put_kept
    | with_reducible apply State.putFlag_kept
    | with_reducible apply State.faultGone_kept
    | with_reducible apply foldl_kept
    | intro _ _ _
    | simp only [Kept.with_iff]
    | simp only [Kept.with_ctl_iff]
    | with_reducible apply ite_kept
    | split

theorem State.clearOwner_kept {s₀ s : State} (h : Kept s₀ s)  :
    Kept s₀ (s.clearOwner) := by
  unfold State.clearOwner
  repeat' first
    | with_reducible assumption
    | with_reducible apply State.seal_kept
    | with_reducible apply State.setBootStat_kept
    | with_reducible apply State.putFlag_kept

theorem State.showOwner_kept {s₀ s : State} (h : Kept s₀ s)  :
    Kept s₀ (s.showOwner) := by
  unfold State.showOwner
  repeat' first
    | with_reducible assumption
    | with_reducible apply State.putFlag_kept
    | with_reducible apply State.put_kept
    | with_reducible apply ite_kept

theorem State.showImage_kept {s₀ s : State} (h : Kept s₀ s) (c : ℕ) (b0 : BankIn) (b1 : BankIn) :
    Kept s₀ (s.showImage c b0 b1) := by
  unfold State.showImage
  repeat' first
    | with_reducible assumption
    | with_reducible apply State.put_kept
    | with_reducible apply State.putFlag_kept

theorem State.keepImage_kept {s₀ s : State} (h : Kept s₀ s) (image : ℕ) (level : ℕ) (patch : ℕ) (rs : List PatchRec) :
    Kept s₀ (s.keepImage image level patch rs) := by
  unfold State.keepImage
  repeat' first
    | with_reducible assumption
    | with_reducible apply State.setBoot_kept
    | simp only [Kept.with_iff]

theorem State.compose_kept {s₀ s : State} (h : Kept s₀ s) (b0 : BankIn) (b1 : BankIn) :
    Kept s₀ (s.compose b0 b1) := by
  unfold State.compose
  repeat' first
    | with_reducible assumption
    | with_reducible apply State.keepImage_kept
    | with_reducible apply State.setBootStat_kept
    | with_reducible apply State.setBoot_kept
    | with_reducible apply State.putFlag_kept
    | with_reducible apply State.put_kept
    | with_reducible apply ite_kept
    | split
    | dsimp only

theorem State.stage3_kept {s₀ s : State} (h : Kept s₀ s) (b : BootIn) (cause : ℕ) :
    Kept s₀ (s.stage3 b cause) := by
  unfold State.stage3
  repeat' first
    | with_reducible assumption
    | with_reducible apply State.clearOwner_kept
    | with_reducible apply State.showImage_kept
    | with_reducible apply State.compose_kept
    | with_reducible apply State.showOwner_kept
    | simp only [Kept.with_iff]
    | simp only [Kept.with_ctl_iff]
    | with_reducible apply ite_kept

theorem startEntry_follows (s : State) (cause : ℕ) (a : LEntry) : a.follows (s.startEntry cause) := by
  unfold State.startEntry
  split
  · left; rfl
  · right; left; rfl

theorem State.openLedger_kept {s₀ s : State} (h : Kept s₀ s) (cause : ℕ) : Kept s₀ (s.openLedger cause) := by
  unfold State.openLedger
  repeat' first
    | with_reducible assumption
    | (with_reducible refine State.pushEntry_kept ?_ (fun a _ => startEntry_follows _ _ a))
    | with_reducible apply State.seal_kept
    | with_reducible apply State.setCpNum_kept
    | with_reducible apply foldl_kept
    | intro _ _ _
    | simp only [Kept.with_iff]
    | simp only [Kept.with_ctl_iff]
    | with_reducible apply ite_kept
    | split
    | dsimp only

theorem State.logImage_kept {s₀ s : State} (h : Kept s₀ s) (c : ℕ) (b0 : BankIn) (b1 : BankIn) :
    Kept s₀ (s.logImage c b0 b1) := by
  unfold State.logImage
  repeat' first
    | with_reducible assumption
    | with_reducible apply State.logInvol_kept
    | with_reducible apply ite_kept
    | split
    | dsimp only

theorem State.burn_kept {s₀ s : State} (h : Kept s₀ s) (c : ℕ) (b0 : BankIn) (b1 : BankIn) :
    Kept s₀ (s.burn c b0 b1) := by
  unfold State.burn
  repeat' first
    | with_reducible assumption
    | with_reducible apply State.put_kept
    | simp only [Kept.with_iff]
    | simp only [Kept.with_ctl_iff]
    | split

theorem State.stage4_kept {s₀ s : State} (h : Kept s₀ s) (b : BootIn) (cause : ℕ) (erased : ℕ) (pairErased : ℕ) :
    Kept s₀ (s.stage4 b cause erased pairErased) := by
  unfold State.stage4
  repeat' first
    | with_reducible assumption
    | with_reducible apply State.setBootStat_kept
    | with_reducible apply State.setBoot_kept
    | with_reducible apply State.putFlag_kept
    | with_reducible apply State.openLedger_kept
    | with_reducible apply State.logImage_kept
    | with_reducible apply State.logInvol_kept
    | with_reducible apply State.burn_kept
    | with_reducible apply State.flushSafety_kept
    | with_reducible apply State.reportOwed_kept
    | with_reducible apply ite_kept

theorem State.loadComb_kept {s₀ s : State} (h : Kept s₀ s) (c : ℕ) (fails : Bool) :
    Kept s₀ (s.loadComb c fails) := by
  unfold State.loadComb
  repeat' first
    | with_reducible assumption
    | with_reducible apply State.idle_kept
    | with_reducible apply State.wr_kept
    | with_reducible apply State.put_kept
    | with_reducible apply State.assertFault_kept
    | with_reducible apply State.loadStores_kept
    | with_reducible apply ite_kept
    | split

theorem State.startComb_kept {s₀ s : State} (h : Kept s₀ s) (c : ℕ) (fails : Bool) :
    Kept s₀ (s.startComb c fails) := by
  unfold State.startComb
  repeat' first
    | with_reducible assumption
    | with_reducible apply State.loadComb_kept
    | with_reducible apply State.putFlag_kept
    | with_reducible apply State.onComb_kept

theorem State.stage5_kept {s₀ s : State} (h : Kept s₀ s) (b : BootIn) :
    Kept s₀ (s.stage5 b) := by
  unfold State.stage5
  repeat' first
    | with_reducible assumption
    | with_reducible apply State.startRamp_kept
    | with_reducible apply State.armAlign_kept
    | with_reducible apply State.put_kept
    | with_reducible apply State.startComb_kept
    | with_reducible apply State.throttleTile_kept
    | with_reducible apply State.showLoadFails_kept
    | with_reducible apply State.burn_kept
    | with_reducible apply foldl_kept
    | intro _ _ _
    | with_reducible apply ite_kept
    | split

theorem State.loadDelay_kept {s₀ s : State} (h : Kept s₀ s) (p : ℕ) (valid : Bool) :
    Kept s₀ (s.loadDelay p valid) := by
  unfold State.loadDelay
  repeat' first
    | with_reducible assumption
    | with_reducible apply State.put_kept
    | with_reducible apply State.putFlag_kept

theorem State.restoreKeys_kept {s₀ s : State} (h : Kept s₀ s)  :
    Kept s₀ (s.restoreKeys) := by
  unfold State.restoreKeys
  repeat' first
    | with_reducible assumption
    | with_reducible apply State.putFlag_kept
    | with_reducible apply State.setSrx_kept
    | with_reducible apply State.showKeys_kept
    | with_reducible apply foldl_kept
    | intro _ _ _

theorem State.stage6_kept {s₀ s : State} (h : Kept s₀ s) (b : BootIn) (cause : ℕ) :
    Kept s₀ (s.stage6 b cause) := by
  unfold State.stage6
  repeat' first
    | with_reducible assumption
    | with_reducible apply State.putFlag_kept
    | with_reducible apply State.put_kept
    | with_reducible apply State.loadDelay_kept
    | with_reducible apply State.restoreKeys_kept
    | with_reducible apply State.refreshGo_kept
    | with_reducible apply State.refreshOuts_kept
    | with_reducible apply State.setBootStat_kept
    | with_reducible apply foldl_kept
    | intro _ _ _
    | with_reducible apply ite_kept

theorem State.startUp_kept {s₀ s : State} (h : Kept s₀ s) (b : BootIn) (cause : ℕ) :
    Kept s₀ (s.startUp b cause) := by
  unfold State.startUp
  repeat' first
    | with_reducible assumption
    | with_reducible apply State.stage1_kept
    | with_reducible apply State.disarm_kept
    | with_reducible apply State.stage2_kept
    | with_reducible apply State.stage3_kept
    | with_reducible apply State.setBoot_kept
    | with_reducible apply State.setBootStat_kept
    | with_reducible apply State.put_kept
    | with_reducible apply State.stage4_kept
    | with_reducible apply State.stage5_kept
    | with_reducible apply State.stage6_kept
    | simp only [Kept.with_iff]
    | with_reducible apply ite_kept
    | split

theorem porNAssert_kept {s₀ s : State} (h : Kept s₀ s) : Kept s₀ (porNAssert s) :=
  ⟨h.variant, h.pending, fun _ => rfl, fun _ => ⟨trivial, Or.inl rfl⟩, fun _ => rfl, fun _ => rfl⟩

theorem porNRelease_kept {s₀ s : State} (h : Kept s₀ s) (b : BootIn) :
    Kept s₀ (porNRelease b s) := by
  unfold porNRelease
  repeat' first
    | with_reducible assumption
    | with_reducible apply State.setBoot_kept
    | with_reducible apply State.startUp_kept
    | with_reducible apply ite_kept

theorem sysRstNAssert_kept {s₀ s : State} (h : Kept s₀ s)  :
    Kept s₀ (sysRstNAssert s) := by
  unfold sysRstNAssert
  repeat' first
    | with_reducible assumption
    | with_reducible apply State.setBoot_kept
    | with_reducible apply State.losePower_kept
    | with_reducible apply State.stopAlive_kept
    | with_reducible apply State.releaseOwn_kept
    | with_reducible apply ite_kept

theorem sysRstNRelease_kept {s₀ s : State} (h : Kept s₀ s) (b : BootIn) :
    Kept s₀ (sysRstNRelease b s) := by
  unfold sysRstNRelease
  repeat' first
    | with_reducible assumption
    | with_reducible apply State.setBoot_kept
    | with_reducible apply State.startUp_kept
    | with_reducible apply ite_kept

theorem cooledRestart_kept {s₀ s : State} (h : Kept s₀ s) (b : BootIn) :
    Kept s₀ (cooledRestart b s) := by
  unfold cooledRestart
  repeat' first
    | with_reducible assumption
    | with_reducible apply State.startUp_kept
    | with_reducible apply State.setFlt_kept
    | with_reducible apply ite_kept

theorem driveEnableAtBoot_kept {s₀ s : State} (h : Kept s₀ s)  :
    Kept s₀ (driveEnableAtBoot s) := by
  unfold driveEnableAtBoot
  repeat' first
    | with_reducible assumption
    | with_reducible apply State.setEn_kept
    | with_reducible apply State.setBootStat_kept
    | with_reducible apply State.startFull_kept
    | simp only [Kept.with_iff]
    | simp only [Kept.with_ctl_iff]
    | with_reducible apply ite_kept

theorem ready_kept {s₀ s : State} (h : Kept s₀ s)  :
    Kept s₀ (ready s) := by
  unfold ready
  repeat' first
    | with_reducible assumption
    | with_reducible apply State.setBootStat_kept
    | with_reducible apply State.put_kept
    | with_reducible apply State.setBoot_kept
    | with_reducible apply State.putFlag_kept
    | with_reducible apply State.elect_kept
    | with_reducible apply ite_kept

theorem State.headParity_kept {s₀ s : State} (h : Kept s₀ s)  :
    Kept s₀ (s.headParity) := by
  unfold State.headParity
  repeat' first
    | with_reducible assumption
    | with_reducible apply State.checkClear_kept
    | with_reducible apply State.assertFault_kept
    | with_reducible apply ite_kept
    | split

theorem checkpoint_kept {s₀ s : State} (h : Kept s₀ s)  :
    Kept s₀ (checkpoint s) := by
  unfold checkpoint
  repeat' first
    | with_reducible assumption
    | with_reducible apply State.headParity_kept
    | with_reducible apply State.formCheckpoint_kept
    | with_reducible apply ite_kept
    | split

theorem warmReset_kept {s₀ s : State} (h : Kept s₀ s) (q : ℕ) :
    Kept s₀ (warmReset q s) := by
  unfold warmReset
  repeat' first
    | with_reducible assumption
    | with_reducible apply State.actCmd_kept
    | with_reducible apply State.beginWarm_kept
    | with_reducible apply State.complete_kept
    | with_reducible apply State.log_kept
    | intro _ _ _
    | with_reducible apply ite_kept

theorem gwqWd_kept {s₀ s : State} (h : Kept s₀ s)  :
    Kept s₀ (gwqWd s) := by
  unfold gwqWd
  repeat' first
    | with_reducible assumption
    | with_reducible apply State.assertFault_kept
    | with_reducible apply State.setBoot_kept
    | with_reducible apply State.beginWarm_kept
    | with_reducible apply ite_kept

theorem warmResetComplete_kept {s₀ s : State} (h : Kept s₀ s)  :
    Kept s₀ (warmResetComplete s) := by
  unfold warmResetComplete
  repeat' first
    | with_reducible assumption
    | with_reducible apply State.setBoot_kept
    | with_reducible apply State.logClose_kept
    | with_reducible apply State.logInvol_kept
    | with_reducible apply State.setPlan_kept
    | with_reducible apply State.refreshGo_kept
    | with_reducible apply State.reportOwed_kept
    | with_reducible apply State.flushSafety_kept
    | with_reducible apply State.selfCalRun_kept
    | with_reducible apply State.endStage7_kept
    | with_reducible apply foldl_kept
    | intro _ _ _
    | simp only [Kept.with_iff]
    | with_reducible apply ite_kept
    | split

end Sys2Proof.Machine
end

