-- ==== Sys2Proof/Laws/KeepRegisters.lean ====
section
/-! SUPPORT. What the functions of Machine/Registers.lean keep: variant, queue of commands, register file in canonical form,
ledger chain. -/

namespace Sys2Proof.Machine

theorem State.tookRC_kept {s₀ s : State} (h : Kept s₀ s) (a : ℕ) (fs : List FieldDesc) :
    Kept s₀ (s.tookRC a fs) := by
  unfold State.tookRC
  repeat' first
    | with_reducible assumption
    | with_reducible apply State.put_kept
    | with_reducible apply foldl_kept
    | intro _ _ _
    | simp only [Kept.with_iff]
    | split

theorem State.writeMsix_kept {s₀ s : State} (h : Kept s₀ s) (fn : ℕ) (off : ℕ) (w : Word) :
    Kept s₀ (s.writeMsix fn off w) := by
  unfold State.writeMsix
  repeat' first
    | with_reducible assumption
    | with_reducible apply State.put_kept
    | with_reducible apply State.sendPending_kept
    | simp only [Kept.with_iff]
    | with_reducible apply ite_kept
    | split

theorem State.cfgRead_kept {s₀ s : State} (h : Kept s₀ s) (fn : ℕ) (off : ℕ) :
    Kept s₀ (s.cfgRead fn off) := by
  unfold State.cfgRead
  repeat' first
    | with_reducible assumption
    | simp only [Kept.with_iff]
    | with_reducible apply ite_kept
    | split

theorem State.cfgActs_kept {s₀ s : State} (h : Kept s₀ s) (fn : ℕ) (off : ℕ) (v : Word) :
    Kept s₀ (s.cfgActs fn off v) := by
  unfold State.cfgActs
  repeat' first
    | with_reducible assumption
    | with_reducible apply busMasterEnable_kept
    | with_reducible apply functionLevelReset_kept
    | with_reducible apply State.sendPending_kept
    | with_reducible apply vfEnable_kept
    | with_reducible apply vfRemoval_kept
    | intro _ _ _
    | with_reducible apply ite_kept
    | split

theorem State.cfgWrite_kept {s₀ s : State} (h : Kept s₀ s) (fn : ℕ) (off : ℕ) (v : Word) :
    Kept s₀ (s.cfgWrite fn off v) := by
  unfold State.cfgWrite
  repeat' first
    | with_reducible assumption
    | with_reducible apply State.cfgActs_kept
    | with_reducible apply State.cfgStore_kept
    | simp only [Kept.with_iff]
    | with_reducible apply ite_kept
    | split

theorem State.latchRead_kept {s₀ s : State} (h : Kept s₀ s) (view : ℕ) (a : ℕ) :
    Kept s₀ (s.latchRead view a) := by
  unfold State.latchRead
  repeat' first
    | with_reducible assumption
    | with_reducible apply State.latch_kept
    | with_reducible apply ite_kept
    | split

theorem State.clearWord_kept {s₀ s : State} (h : Kept s₀ s) (a : ℕ) :
    Kept s₀ (s.clearWord a) := by
  unfold State.clearWord
  repeat' first
    | with_reducible assumption
    | with_reducible apply State.wr_kept
    | with_reducible apply State.tookRC_kept
    | with_reducible apply State.onLane_kept
    | with_reducible apply foldl_kept
    | intro _ _ _
    | simp only [Kept.with_iff]
    | with_reducible apply ite_kept
    | split

theorem State.clearVf_kept {s₀ s : State} (h : Kept s₀ s) (v : ℕ) (off : ℕ) :
    Kept s₀ (s.clearVf v off) := by
  unfold State.clearVf
  repeat' first
    | with_reducible assumption
    | with_reducible apply State.clearWord_kept
    | with_reducible apply State.onQueue_kept
    | intro _ _ _
    | simp only [Kept.with_iff]
    | with_reducible apply ite_kept
    | split

theorem State.readBar_kept {s₀ s : State} (h : Kept s₀ s) (view : ℕ) (addr : ℕ) :
    Kept s₀ (s.readBar view addr) := by
  unfold State.readBar
  repeat' first
    | with_reducible assumption
    | with_reducible apply timeRdRead_kept
    | with_reducible apply State.popCap_kept
    | with_reducible apply State.latchRead_kept
    | with_reducible apply State.clearWord_kept
    | with_reducible apply State.clearVf_kept
    | with_reducible apply State.barAccess_kept
    | with_reducible apply State.hubEvent_kept
    | simp only [Kept.with_iff]
    | with_reducible apply ite_kept
    | split

theorem readOne_kept {s₀ s : State} (h : Kept s₀ s) (view : ℕ) (addr : ℕ) :
    Kept s₀ (readOne view addr s) := by
  unfold readOne
  repeat' first
    | with_reducible assumption
    | with_reducible apply State.cfgRead_kept
    | with_reducible apply State.hubEvent_kept
    | with_reducible apply State.readBar_kept
    | with_reducible apply ite_kept
    | split

theorem rcRead_kept {s₀ s : State} (h : Kept s₀ s) (view : ℕ) (a : RdIn) :
    Kept s₀ (rcRead view a s) := by
  unfold rcRead
  repeat' first
    | with_reducible assumption
    | with_reducible apply readOne_kept
    | with_reducible apply foldl_kept
    | intro _ _ _
    | simp only [Kept.with_iff]
    | with_reducible apply ite_kept
    | split

theorem counterLowRead_kept {s₀ s : State} (h : Kept s₀ s) (view : ℕ) (addr : ℕ) :
    Kept s₀ (counterLowRead view addr s) := by
  unfold counterLowRead
  repeat' first
    | with_reducible assumption
    | with_reducible apply State.latchRead_kept
    | simp only [Kept.with_iff]
    | simp only [Kept.with_ctl_iff]
    | with_reducible apply ite_kept

theorem clr_kept {s₀ s : State} (h : Kept s₀ s) (addr : ℕ) :
    Kept s₀ (clr addr s) := by
  unfold clr
  repeat' first
    | with_reducible assumption
    | with_reducible apply State.putFlag_kept
    | with_reducible apply State.putPair_kept
    | with_reducible apply State.setEng_kept
    | with_reducible apply State.put_kept
    | with_reducible apply ite_kept

theorem State.writeDomain_kept {s₀ s : State} (h : Kept s₀ s) (d : Dom) (o : ℕ) (v : Word) :
    Kept s₀ (s.writeDomain d o v) := by
  unfold State.writeDomain
  repeat' first
    | with_reducible assumption
    | with_reducible apply incHi_kept
    | with_reducible apply adjTicks_kept
    | with_reducible apply setGo_kept
    | with_reducible apply tqState_kept
    | with_reducible apply State.store_kept
    | with_reducible apply State.onDom_kept
    | with_reducible apply ite_kept

theorem State.writeQueue_kept {s₀ s : State} (h : Kept s₀ s) (q : ℕ) (v : Word) :
    Kept s₀ (s.writeQueue q v) := by
  unfold State.writeQueue
  repeat' first
    | with_reducible assumption
    | with_reducible apply State.writeShare_kept
    | with_reducible apply State.put_kept
    | with_reducible apply State.store_kept
    | with_reducible apply State.onQueue_kept
    | with_reducible apply ite_kept

theorem State.writeTaps_kept {s₀ s : State} (h : Kept s₀ s) (n : ℕ) (v : Word) :
    Kept s₀ (s.writeTaps n v) := by
  unfold State.writeTaps
  repeat' first
    | with_reducible assumption
    | with_reducible apply State.store_kept
    | with_reducible apply State.setPair_kept
    | with_reducible apply State.draw_kept
    | intro _ _ _
    | simp only [Kept.with_iff]
    | split

theorem State.writeComb_kept {s₀ s : State} (h : Kept s₀ s) (a : ℕ) (v : Word) :
    Kept s₀ (s.writeComb a v) := by
  unfold State.writeComb
  repeat' first
    | with_reducible assumption
    | with_reducible apply State.onComb_kept
    | with_reducible apply State.paramWrite_kept
    | with_reducible apply refSel_kept
    | with_reducible apply State.onLane_kept
    | with_reducible apply State.store_kept
    | with_reducible apply clr_kept
    | with_reducible apply ite_kept
    | intro _ _ _
    | simp only [Kept.with_iff]
    | split

theorem State.writePort_kept {s₀ s : State} (h : Kept s₀ s) (a : ℕ) (v : Word) :
    Kept s₀ (s.writePort a v) := by
  unfold State.writePort
  repeat' first
    | with_reducible assumption
    | with_reducible apply State.store_kept
    | with_reducible apply srxApply_kept
    | with_reducible apply polApply_kept
    | with_reducible apply ite_kept

theorem State.writeHub_kept {s₀ s : State} (h : Kept s₀ s) (a : ℕ) (v : Word) :
    Kept s₀ (s.writeHub a v) := by
  unfold State.writeHub
  repeat' first
    | with_reducible assumption
    | with_reducible apply State.writePilot_kept
    | with_reducible apply driveEn_kept
    | with_reducible apply State.store_kept
    | with_reducible apply State.refreshGo_kept
    | with_reducible apply swReq_kept
    | with_reducible apply snap_kept
    | with_reducible apply State.writeDomain_kept
    | with_reducible apply cmpEn_kept
    | with_reducible apply State.writeQueue_kept
    | with_reducible apply State.judgeTakeover_kept
    | with_reducible apply State.sendSafeCfg_kept
    | with_reducible apply txPat_kept
    | with_reducible apply State.writeTaps_kept
    | with_reducible apply fltRelComb_kept
    | with_reducible apply fltRelLane_kept
    | with_reducible apply fltInjArm_kept
    | with_reducible apply clr_kept
    | with_reducible apply ite_kept
    | split

theorem State.writeVf_kept {s₀ s : State} (h : Kept s₀ s) (v : ℕ) (off : ℕ) (w : Word) :
    Kept s₀ (s.writeVf v off w) := by
  unfold State.writeVf
  repeat' first
    | with_reducible assumption
    | with_reducible apply State.wr_kept
    | with_reducible apply State.putFlag_kept
    | with_reducible apply ite_kept
    | split

theorem State.writeBar_kept {s₀ s : State} (h : Kept s₀ s) (addr : ℕ) (v : Word) :
    Kept s₀ (s.writeBar addr v) := by
  unfold State.writeBar
  repeat' first
    | with_reducible assumption
    | with_reducible apply State.writeVf_kept
    | with_reducible apply State.writeComb_kept
    | with_reducible apply State.writePort_kept
    | with_reducible apply State.writeHub_kept
    | with_reducible apply ite_kept
    | split

theorem writeOne_kept {s₀ s : State} (h : Kept s₀ s) (addr : ℕ) (v : Word) :
    Kept s₀ (writeOne addr v s) := by
  unfold writeOne
  repeat' first
    | with_reducible assumption
    | with_reducible apply State.cfgWrite_kept
    | with_reducible apply State.writeMsix_kept
    | with_reducible apply State.barAccess_kept
    | with_reducible apply State.writeBar_kept
    | with_reducible apply ite_kept
    | split

theorem registerWrite_kept {s₀ s : State} (h : Kept s₀ s) (addr : ℕ) (v : WrIn) :
    Kept s₀ (registerWrite addr v s) := by
  unfold registerWrite
  repeat' first
    | with_reducible assumption
    | with_reducible apply writeOne_kept
    | with_reducible apply foldl_kept
    | intro _ _ _
    | with_reducible apply ite_kept
    | split

end Sys2Proof.Machine
end

