-- ==== Sys2Proof/WellFormed.lean ====
section
/-! DEFINITION. Commands whose operands lie in the ranges the spec gives them: numbers of sessions, functions, combs,
lanes, ports, tiles, units and pins on the largest variant, field widths, and lengths of byte strings. A command outside
its range has a meaning too (most change nothing); this check says which commands the outside world can send. -/

namespace Sys2Proof

/-! ## Ranges -/

/-- Session and queue numbers (R207). -/
def okSess (q : Nat) : Bool := decide (q < 4096)
/-- Views: PF0 and VF1 to VF63 (R201, R366). -/
def okView (v : Nat) : Bool := decide (v < 64)
/-- Combs, lanes of a comb, ports and tiles of the largest variant (R2). -/
def okComb (c : Nat) : Bool := decide (c < 144)
def okLane (l : Nat) : Bool := decide (l < 64)
def okPort (p : Nat) : Bool := decide (p < 512)
def okTile (t : Nat) : Bool := decide (t < 4)
/-- A crossing found within the tick of its sample, in sixteenths of a tick. -/
def okSub (n : Nat) : Bool := decide (n < 16)
/-- The first bytes of a frame of `len` bytes. -/
def okBytes (bs : List Byte) (len : Nat) : Bool := decide (bs.length ≤ len)
/-- Register addresses and window offsets: whole words (R366). -/
def okAdr (a : Nat) : Bool := decide (a % 4 = 0)
/-- A read of whole words, or of bytes within one (R368). -/
def okRead (a : RdIn) : Bool :=
  decide (1 ≤ a.len ∧ a.len ≤ 4096)
    && (if a.len < 4 then decide (a.addr % 4 + a.len ≤ 4) else decide (a.addr % 4 = 0 ∧ a.len % 4 = 0))
/-- Four guards and two contactors. -/
def okContacts (c : Contacts) : Bool := c.guards.length == 4 && c.kfb.length == 2
/-- The fields of a session transport header fit (R223). -/
def okHead (h : DgHead) : Bool :=
  [h.version, h.ty, h.channel, h.dir].all (fun n => decide (n < 2 ^ 8)) && [h.count, h.q].all (fun n => decide (n < 2 ^ 16))
    && [h.magic, h.epoch].all (fun n => decide (n < 2 ^ 32)) && [h.dgramSeq, h.index].all (fun n => decide (n < 2 ^ 64))
def okDgram (d : Datagram) : Bool := decide (d.port < 2) && okHead d.head && okSess d.q
def okHello (h : Hello) : Bool := decide (h.port < 2) && okHead h.head && decide (h.dstPort < 2 ^ 16) && h.hostKey.length == 97 && h.nonce.length == 32
def okBoot (b : BootIn) : Bool := decide (b.bootMode < 4) && b.loadFails.all okComb
/-- A frame's tag has 16 bytes (R288). -/
def okFrame (f : FrameIn) : Bool := f.tag.length == 16

def okSample (x : Sample) : Bool := okPort x.port && decide (x.len < 2 ^ 16)

/-- The pages of doorbells: a session of PF0, or a page of VFn (R212). -/
def okDoorbell (d : Doorbell) : Bool := okView d.view && okSess d.page

/-! ## Commands -/

/-- The command's operands lie in their ranges. -/
def Instr.wf : Instr → Bool
  | .sessionOpen (.window v) => okView v
  | .sessionOpen (.ring q) => okSess q
  | .sessionClose q | .sessionInfo q | .rekey q | .sessionGrant q | .vfGrant q | .netCfg q => okSess q
  | .planCompile q | .planFree q | .planCommit q | .planArm q | .planPark q | .planRead q | .outRead q => okSess q
  | .schedLoad q | .schedStop q | .schedRead q | .loopPeriod q | .calRun q | .calApply q | .calSave q | .calRestore q => okSess q
  | .digestKey q | .queueStat q | .exportFlush q | .ptpCfg q | .ptpStats q | .ledgerRead q | .ledgerCheckpoint q => okSess q
  | .attest q | .identity q | .ownerEnrol q | .pairEnrol q | .pairStatus q | .pairHealth q | .pairSolo q => okSess q
  | .combRestart x => okSess x.q
  | .warmReset q | .imageWrite q | .imageInfo q => okSess q
  | .commandFetch q (.entry d _ _) => okSess q && d.length == 64
  | .commandFetch q .failed => okSess q
  | .sessionClosed q => okSess q
  | .go v _ => okView v
  | .cmdTail d _ | .cplHead d _ | .evtHead d _ | .recHead d _ => okDoorbell d
  | .msixModerationEnd q r => okSess q && decide (r < 3)
  | .functionLevelReset f | .busMasterEnable f _ => okView f
  | .vfRemoval n | .vfEnable n => okView n
  | .hello h => okHello h
  | .cmd d | .bulkW d | .bulkR d | .keepalive d | .closeDatagram d => okDgram d
  | .idleTimeout q => okSess q
  | .breakStrobe | .moveStart | .profileStep | .moveEnd | .make | .goOkReenable | .outputPark | .outputUnpark => true
  | .schedStepArm | .schedDone | .cspGo | .goAbandoned | .cspPublication => true
  | .readOut a => decide (a < 1024)
  | .readDev p => decide (p.op < 4 ∧ p.addr < 1024)
  | .periodBoundary c | .refSettled c => okComb c
  | .prologue t | .iter t | .postMove t | .cmdRoutine t | .calAcc t => okComb t.comb
  | .calFit c l _ => okComb c && okLane l
  | .sadc c _ => okComb c
  | .fullGroupSettle => true
  | .mcRecovery c _ => okComb c
  | .senseConversion c _ _ => okComb c
  | .housekeepingScan m => m.volts.length == 32
  | .holdLimit c l => okComb c && okLane l
  | .refSel c _ => okComb c
  | .pilotLost _ | .switchWindowEnd | .pilotOk _ | .pilotSwitch | .recapture | .pilotMode _ => true
  | .pilotRefCapture a b => decide (a < 2 ^ 32) && decide (b < 2 ^ 32)
  | .powerMonitorWindow p code => okPort p && decide (code < 2 ^ 8)
  | .driveEn _ | .enableRampEnd | .drvPgLoss | .drvPgReturn | .drvClrNAssert | .drvClrNRelease => true
  | .incHi _ _ _ | .adjTicks _ _ _ | .setGo _ _ _ | .tqState _ _ _ => true
  | .snap | .swReq | .domainSwitch | .tqWdExpiry _ | .holdMaxExpiry _ | .timeMinute | .anchor => true
  | .timeRdRead v => okView v
  | .ptpMessage _ m => decide (m.kind < 7) && decide (m.err.natAbs ≤ 512)
  | .ppsEdge _ n => okSub n
  | .todLine _ bs => decide (bs.length ≤ 64)
  | .tsInCapture n _ sub => decide (n < 4) && okSub sub
  | .capturePop n => decide (n < 9)
  | .cmpEn n _ | .cmpFired n | .tsOutPulseEnd n => decide (n < 32)
  | .refclkLoss | .refclkRelock => true
  | .blockLockGained p d => okPort p && okSub d
  | .blockLockLost p d bs n => okPort p && okSub d && okBytes bs n
  | .autoRateTry p => okPort p
  | .frameStart p _ d bs n => okPort p && okSub d && okBytes bs n
  | .frameEnd p bs n _ d => okPort p && okSub d && okBytes bs n
  | .srxEn p _ => okPort p
  | .srxRate p _ bs n => okPort p && okBytes bs n
  | .srxApply p | .summary p | .polApply p => okPort p
  | .tileLinkTransfer t | .recordHandoff t | .recordAgeDrop t => okTile t
  | .lossRecord k p => decide (k < 2) && okPort p
  | .queueLossRecord q | .datagramFlush q => okSess q
  | .channelSend ch | .fcSlot ch => decide (ch < 3)
  | .shaperRefill | .qDepthSample | .checkpoint => true
  | .porNAssert | .driveEnableAtBoot | .ready | .sysRstNAssert | .perstN | .perstNRelease => true
  | .porNRelease b | .sysRstNRelease b | .cooledRestart b => okBoot b
  | .supplyFault r => decide (r < 6)
  | .vddAonAbsent | .gwqWd | .jtagTest | .warmResetComplete => true
  | .faultRepeat n => decide (n < 256)
  | .fltRelLane c l => okComb c && okLane l
  | .fltRelComb c => okComb c
  | .fltInjArm _ => true
  | .thermalConversion ts => ts.length == 80
  | .estopNDemand | .estopNRelease | .kfbTimeout | .soReadback | .internalFault => true
  | .guardNDemand n | .guardNRelease n => decide (n < 4)
  | .testPulse c => okContacts c
  | .kfbUnexpected n _ => decide (n < 2)
  | .deliberateReset _ c _ _ => okContacts c
  | .aliveInSilent | .aliveInEdge | .ownInChange _ | .swarm | .tieRelease | .posConflict | .startAlone | .linkUp => true
  | .linkDown d => decide (1 ≤ d.cause ∧ d.cause ≤ 5 ∧ d.lane < 4 ∧ d.blkErr ≤ 64)
  | .waggleTimeout | .waggleSend => true
  | .waggle w => okFrame w.frame && w.body.length == 32
  | .haldodHello n t i => n.length == 32 && t.length == 16 && i.length == 32
  | .mirror m => okFrame m.frame && decide (m.ty < 256 ∧ m.part < 16 ∧ m.data.length ≤ 2032)
  | .ack _ _ _ | .nak _ _ | .voidTxn _ => true
  | .pairNoAck | .stagedEffect | .digestSend | .digestMiss | .periodicMirrorSend | .enrolTimeout | .stale => true
  | .digestIn d => okFrame d.frame && d.samples.all okSample && decide (d.samples.length ≤ 64)
  | .positions p => p.frames.all okFrame && p.marks.all fun m => okSess m.q
  | .healthReq h => h.frames.all okFrame && h.passing.all okPort
  | .health h rest => okFrame h.frame && h.bytes.length == 8 && rest.length == 120
  | .enrolOffer k g _ => k.length == 97 && g.length == 96
  | .resumeWinExpiry => true
  | .txPat n _ => decide (n < 4)
  | .checkerLock c => decide (c.lane < 4)
  | .clr a => okAdr a
  | .counterLowRead v a => okView v && okAdr a
  | .rcRead v a => okView v && okRead a
  | .registerWrite a w => okAdr a && decide (1 ≤ w.words.length ∧ w.words.length ≤ 1024)
  | .spineTick | .compileCompletion | .sourceLost _ => true

end Sys2Proof
end

