-- ==== Sys2Proof/Laws/PerInstr.lean ====
section
/-! SUPPORT. One fact about every command as syntax: the session a well-formed command names exists among the 4,096 numbers
of spec/11_host_sessions_mailboxes.md R207. -/

namespace Sys2Proof

/-- The session a command names by its number, where it names one. -/
def Instr.session? : Instr → Option Nat
  | .sessionClose q => some q
  | .sessionInfo q => some q
  | .rekey q => some q
  | .sessionGrant q => some q
  | .vfGrant q => some q
  | .netCfg q => some q
  | .planCompile q => some q
  | .planFree q => some q
  | .planCommit q => some q
  | .planArm q => some q
  | .planPark q => some q
  | .planRead q => some q
  | .outRead q => some q
  | .schedLoad q => some q
  | .schedStop q => some q
  | .schedRead q => some q
  | .loopPeriod q => some q
  | .calRun q => some q
  | .calApply q => some q
  | .calSave q => some q
  | .calRestore q => some q
  | .digestKey q => some q
  | .queueStat q => some q
  | .exportFlush q => some q
  | .ptpCfg q => some q
  | .ptpStats q => some q
  | .ledgerRead q => some q
  | .ledgerCheckpoint q => some q
  | .attest q => some q
  | .identity q => some q
  | .ownerEnrol q => some q
  | .pairEnrol q => some q
  | .pairStatus q => some q
  | .pairHealth q => some q
  | .pairSolo q => some q
  | .combRestart x => some x.q
  | .warmReset q => some q
  | .imageWrite q => some q
  | .imageInfo q => some q
  | .commandFetch q _ => some q
  | .sessionClosed q => some q
  | .msixModerationEnd q _ => some q
  | .idleTimeout q => some q
  | .queueLossRecord q => some q
  | .datagramFlush q => some q
  | .cmd d | .bulkW d | .bulkR d | .keepalive d | .closeDatagram d => some d.q
  | _ => none

end Sys2Proof

namespace Sys2Proof.Laws.SessionScoped

/-- A well-formed command that names a session names one of 0 to 4,095. -/
def Statement (i : Instr) : Prop := i.wf = true → ∀ q, i.session? = some q → q < 4096

theorem all (i : Instr) : Statement i := by
  intro h q hq
  cases i <;> simp only [Instr.session?, Option.some.injEq, reduceCtorEq] at hq <;> subst hq <;>
    simp only [Instr.wf, okDgram, Bool.and_eq_true] at h
  case commandFetch q f => cases f <;> simp_all [okSess]
  all_goals simp_all [okSess]

theorem sessionOpen (src : OpenSrc) : Statement (.sessionOpen src) := all _
theorem sessionClose (q : Nat) : Statement (.sessionClose q) := all _
theorem sessionInfo (q : Nat) : Statement (.sessionInfo q) := all _
theorem rekey (q : Nat) : Statement (.rekey q) := all _
theorem sessionGrant (q : Nat) : Statement (.sessionGrant q) := all _
theorem vfGrant (q : Nat) : Statement (.vfGrant q) := all _
theorem netCfg (q : Nat) : Statement (.netCfg q) := all _
theorem planCompile (q : Nat) : Statement (.planCompile q) := all _
theorem planFree (q : Nat) : Statement (.planFree q) := all _
theorem planCommit (q : Nat) : Statement (.planCommit q) := all _
theorem planArm (q : Nat) : Statement (.planArm q) := all _
theorem planPark (q : Nat) : Statement (.planPark q) := all _
theorem planRead (q : Nat) : Statement (.planRead q) := all _
theorem outRead (q : Nat) : Statement (.outRead q) := all _
theorem schedLoad (q : Nat) : Statement (.schedLoad q) := all _
theorem schedStop (q : Nat) : Statement (.schedStop q) := all _
theorem schedRead (q : Nat) : Statement (.schedRead q) := all _
theorem loopPeriod (q : Nat) : Statement (.loopPeriod q) := all _
theorem calRun (q : Nat) : Statement (.calRun q) := all _
theorem calApply (q : Nat) : Statement (.calApply q) := all _
theorem calSave (q : Nat) : Statement (.calSave q) := all _
theorem calRestore (q : Nat) : Statement (.calRestore q) := all _
theorem digestKey (q : Nat) : Statement (.digestKey q) := all _
theorem queueStat (q : Nat) : Statement (.queueStat q) := all _
theorem exportFlush (q : Nat) : Statement (.exportFlush q) := all _
theorem ptpCfg (q : Nat) : Statement (.ptpCfg q) := all _
theorem ptpStats (q : Nat) : Statement (.ptpStats q) := all _
theorem ledgerRead (q : Nat) : Statement (.ledgerRead q) := all _
theorem ledgerCheckpoint (q : Nat) : Statement (.ledgerCheckpoint q) := all _
theorem attest (q : Nat) : Statement (.attest q) := all _
theorem identity (q : Nat) : Statement (.identity q) := all _
theorem ownerEnrol (q : Nat) : Statement (.ownerEnrol q) := all _
theorem pairEnrol (q : Nat) : Statement (.pairEnrol q) := all _
theorem pairStatus (q : Nat) : Statement (.pairStatus q) := all _
theorem pairHealth (q : Nat) : Statement (.pairHealth q) := all _
theorem pairSolo (q : Nat) : Statement (.pairSolo q) := all _
theorem combRestart (x : RestartIn) : Statement (.combRestart x) := all _
theorem warmReset (q : Nat) : Statement (.warmReset q) := all _
theorem imageWrite (q : Nat) : Statement (.imageWrite q) := all _
theorem imageInfo (q : Nat) : Statement (.imageInfo q) := all _
theorem commandFetch (q : Nat) (f : Fetch) : Statement (.commandFetch q f) := all _
theorem sessionClosed (q : Nat) : Statement (.sessionClosed q) := all _
theorem go (view : Nat) (mem : OpenMem) : Statement (.go view mem) := all _
theorem cmdTail (d : Doorbell) (v : Word) : Statement (.cmdTail d v) := all _
theorem cplHead (d : Doorbell) (v : Word) : Statement (.cplHead d v) := all _
theorem evtHead (d : Doorbell) (v : Word) : Statement (.evtHead d v) := all _
theorem recHead (d : Doorbell) (v : Word) : Statement (.recHead d v) := all _
theorem msixModerationEnd (q : Nat) (ring : Nat) : Statement (.msixModerationEnd q ring) := all _
theorem functionLevelReset (fn : Nat) : Statement (.functionLevelReset fn) := all _
theorem vfRemoval (numVfs : Nat) : Statement (.vfRemoval numVfs) := all _
theorem hello (h : Hello) : Statement (.hello h) := all _
theorem cmd (d : Datagram) : Statement (.cmd d) := all _
theorem bulkW (d : Datagram) : Statement (.bulkW d) := all _
theorem bulkR (d : Datagram) : Statement (.bulkR d) := all _
theorem keepalive (d : Datagram) : Statement (.keepalive d) := all _
theorem closeDatagram (d : Datagram) : Statement (.closeDatagram d) := all _
theorem idleTimeout (q : Nat) : Statement (.idleTimeout q) := all _
theorem breakStrobe : Statement .breakStrobe := all _
theorem moveStart : Statement .moveStart := all _
theorem profileStep : Statement .profileStep := all _
theorem moveEnd : Statement .moveEnd := all _
theorem make : Statement .make := all _
theorem goOkReenable : Statement .goOkReenable := all _
theorem outputPark : Statement .outputPark := all _
theorem outputUnpark : Statement .outputUnpark := all _
theorem schedStepArm : Statement .schedStepArm := all _
theorem schedDone : Statement .schedDone := all _
theorem cspGo : Statement .cspGo := all _
theorem goAbandoned : Statement .goAbandoned := all _
theorem readOut (addr : Nat) : Statement (.readOut addr) := all _
theorem readDev (p : CspPins) : Statement (.readDev p) := all _
theorem cspPublication : Statement .cspPublication := all _
theorem periodBoundary (c : Nat) : Statement (.periodBoundary c) := all _
theorem prologue (t : EngineTurn) : Statement (.prologue t) := all _
theorem iter (t : EngineTurn) : Statement (.iter t) := all _
theorem postMove (t : EngineTurn) : Statement (.postMove t) := all _
theorem cmdRoutine (t : EngineTurn) : Statement (.cmdRoutine t) := all _
theorem calAcc (t : EngineTurn) : Statement (.calAcc t) := all _
theorem calFit (c l n : Nat) : Statement (.calFit c l n) := all _
theorem sadc (c : Nat) (m : SadcIn) : Statement (.sadc c m) := all _
theorem fullGroupSettle : Statement .fullGroupSettle := all _
theorem mcRecovery (c : Nat) (readbackOk : Bool) : Statement (.mcRecovery c readbackOk) := all _
theorem senseConversion (c : Nat) (adcB : Bool) (p : Photo) : Statement (.senseConversion c adcB p) := all _
theorem housekeepingScan (vals : HkIn) : Statement (.housekeepingScan vals) := all _
theorem holdLimit (c : Nat) (l : Nat) : Statement (.holdLimit c l) := all _
theorem refSettled (c : Nat) : Statement (.refSettled c) := all _
theorem refSel (c : Nat) (v : Word) : Statement (.refSel c v) := all _
theorem pilotLost (p : Pilots) : Statement (.pilotLost p) := all _
theorem switchWindowEnd : Statement .switchWindowEnd := all _
theorem pilotOk (p : Pilots) : Statement (.pilotOk p) := all _
theorem pilotSwitch : Statement .pilotSwitch := all _
theorem recapture : Statement .recapture := all _
theorem pilotRefCapture (pwrA : Nat) (pwrB : Nat) : Statement (.pilotRefCapture pwrA pwrB) := all _
theorem pilotMode (v : Word) : Statement (.pilotMode v) := all _
theorem powerMonitorWindow (p : Nat) (code : Nat) : Statement (.powerMonitorWindow p code) := all _
theorem driveEn (v : Word) : Statement (.driveEn v) := all _
theorem enableRampEnd : Statement .enableRampEnd := all _
theorem drvPgLoss : Statement .drvPgLoss := all _
theorem drvPgReturn : Statement .drvPgReturn := all _
theorem drvClrNAssert : Statement .drvClrNAssert := all _
theorem drvClrNRelease : Statement .drvClrNRelease := all _
theorem incHi (d : Dom) (w : Writer) (v : Word) : Statement (.incHi d w v) := all _
theorem adjTicks (d : Dom) (w : Writer) (v : Word) : Statement (.adjTicks d w v) := all _
theorem setGo (d : Dom) (w : Writer) (v : Word) : Statement (.setGo d w v) := all _
theorem tqState (d : Dom) (w : Writer) (v : Word) : Statement (.tqState d w v) := all _
theorem snap : Statement .snap := all _
theorem timeRdRead (view : Nat) : Statement (.timeRdRead view) := all _
theorem swReq : Statement .swReq := all _
theorem domainSwitch : Statement .domainSwitch := all _
theorem tqWdExpiry (d : Dom) : Statement (.tqWdExpiry d) := all _
theorem holdMaxExpiry (d : Dom) : Statement (.holdMaxExpiry d) := all _
theorem timeMinute : Statement .timeMinute := all _
theorem anchor : Statement .anchor := all _
theorem ptpMessage (d : Dom) (m : PtpMsg) : Statement (.ptpMessage d m) := all _
theorem ppsEdge (inB : Bool) (sub : Nat) : Statement (.ppsEdge inB sub) := all _
theorem todLine (inB : Bool) (line : List Byte) : Statement (.todLine inB line) := all _
theorem tsInCapture (n : Nat) (rising : Bool) (sub : Nat) : Statement (.tsInCapture n rising sub) := all _
theorem capturePop (n : Nat) : Statement (.capturePop n) := all _
theorem cmpEn (n : Nat) (v : Word) : Statement (.cmpEn n v) := all _
theorem cmpFired (n : Nat) : Statement (.cmpFired n) := all _
theorem tsOutPulseEnd (n : Nat) : Statement (.tsOutPulseEnd n) := all _
theorem refclkLoss : Statement .refclkLoss := all _
theorem refclkRelock : Statement .refclkRelock := all _
theorem blockLockGained (p : Nat) (delta : Nat) : Statement (.blockLockGained p delta) := all _
theorem blockLockLost (p : Nat) (delta : Nat) (bytes : List Byte) (len : Nat) : Statement (.blockLockLost p delta bytes len) := all _
theorem autoRateTry (p : Nat) : Statement (.autoRateTry p) := all _
theorem frameStart (p : Nat) (lane4 : Bool) (delta : Nat) (bytes : List Byte) (len : Nat) : Statement (.frameStart p lane4 delta bytes len) := all _
theorem frameEnd (p : Nat) (bytes : List Byte) (len : Nat) (how : FrameEnd) (delta : Nat) : Statement (.frameEnd p bytes len how delta) := all _
theorem srxEn (p : Nat) (v : Word) : Statement (.srxEn p v) := all _
theorem srxRate (p : Nat) (v : Word) (bytes : List Byte) (len : Nat) : Statement (.srxRate p v bytes len) := all _
theorem srxApply (p : Nat) : Statement (.srxApply p) := all _
theorem tileLinkTransfer (t : Nat) : Statement (.tileLinkTransfer t) := all _
theorem recordHandoff (t : Nat) : Statement (.recordHandoff t) := all _
theorem recordAgeDrop (t : Nat) : Statement (.recordAgeDrop t) := all _
theorem lossRecord (point : Nat) (p : Nat) : Statement (.lossRecord point p) := all _
theorem queueLossRecord (q : Nat) : Statement (.queueLossRecord q) := all _
theorem summary (p : Nat) : Statement (.summary p) := all _
theorem polApply (p : Nat) : Statement (.polApply p) := all _
theorem channelSend (ch : Nat) : Statement (.channelSend ch) := all _
theorem shaperRefill : Statement .shaperRefill := all _
theorem fcSlot (ch : Nat) : Statement (.fcSlot ch) := all _
theorem datagramFlush (q : Nat) : Statement (.datagramFlush q) := all _
theorem qDepthSample : Statement .qDepthSample := all _
theorem checkpoint : Statement .checkpoint := all _
theorem porNAssert : Statement .porNAssert := all _
theorem porNRelease (b : BootIn) : Statement (.porNRelease b) := all _
theorem driveEnableAtBoot : Statement .driveEnableAtBoot := all _
theorem ready : Statement .ready := all _
theorem sysRstNAssert : Statement .sysRstNAssert := all _
theorem sysRstNRelease (b : BootIn) : Statement (.sysRstNRelease b) := all _
theorem perstN : Statement .perstN := all _
theorem supplyFault (rail : Nat) : Statement (.supplyFault rail) := all _
theorem vddAonAbsent : Statement .vddAonAbsent := all _
theorem faultRepeat (n : Nat) : Statement (.faultRepeat n) := all _
theorem gwqWd : Statement .gwqWd := all _
theorem jtagTest : Statement .jtagTest := all _
theorem fltRelLane (c : Nat) (l : Nat) : Statement (.fltRelLane c l) := all _
theorem fltRelComb (c : Nat) : Statement (.fltRelComb c) := all _
theorem fltInjArm (v : Word) : Statement (.fltInjArm v) := all _
theorem thermalConversion (temps : Temps) : Statement (.thermalConversion temps) := all _
theorem cooledRestart (b : BootIn) : Statement (.cooledRestart b) := all _
theorem estopNDemand : Statement .estopNDemand := all _
theorem estopNRelease : Statement .estopNRelease := all _
theorem guardNDemand (n : Nat) : Statement (.guardNDemand n) := all _
theorem guardNRelease (n : Nat) : Statement (.guardNRelease n) := all _
theorem testPulse (passed : Contacts) : Statement (.testPulse passed) := all _
theorem kfbTimeout : Statement .kfbTimeout := all _
theorem kfbUnexpected (n : Nat) (high : Bool) : Statement (.kfbUnexpected n high) := all _
theorem soReadback : Statement .soReadback := all _
theorem internalFault : Statement .internalFault := all _
theorem deliberateReset (lowMs : Nat) (inputs : Contacts) (readbackOk : Bool) (selfOk : Bool) : Statement (.deliberateReset lowMs inputs readbackOk selfOk) := all _
theorem aliveInSilent : Statement .aliveInSilent := all _
theorem aliveInEdge : Statement .aliveInEdge := all _
theorem ownInChange (level : Bool) : Statement (.ownInChange level) := all _
theorem swarm : Statement .swarm := all _
theorem tieRelease : Statement .tieRelease := all _
theorem posConflict : Statement .posConflict := all _
theorem startAlone : Statement .startAlone := all _
theorem linkUp : Statement .linkUp := all _
theorem linkDown (d : LinkDownIn) : Statement (.linkDown d) := all _
theorem waggleTimeout : Statement .waggleTimeout := all _
theorem waggleSend : Statement .waggleSend := all _
theorem waggle (w : WaggleIn) : Statement (.waggle w) := all _
theorem haldodHello (nonce tag id : List Byte) : Statement (.haldodHello nonce tag id) := all _
theorem mirror (m : Mirrored) : Statement (.mirror m) := all _
theorem ack (x : TseqIn) (tAck : Nat) (tMake : Nat) : Statement (.ack x tAck tMake) := all _
theorem nak (x : TseqIn) (cause : Nat) : Statement (.nak x cause) := all _
theorem pairNoAck : Statement .pairNoAck := all _
theorem voidTxn (x : TseqIn) : Statement (.voidTxn x) := all _
theorem stagedEffect : Statement .stagedEffect := all _
theorem digestSend : Statement .digestSend := all _
theorem digestIn (d : DigestIn) : Statement (.digestIn d) := all _
theorem digestMiss : Statement .digestMiss := all _
theorem positions (p : PositionsIn) : Statement (.positions p) := all _
theorem periodicMirrorSend : Statement .periodicMirrorSend := all _
theorem healthReq (h : HealthReqIn) : Statement (.healthReq h) := all _
theorem health (h : HealthIn) (rest : List Byte) : Statement (.health h rest) := all _
theorem enrolOffer (key sig : List Byte) (variantOk : Bool) : Statement (.enrolOffer key sig variantOk) := all _
theorem enrolTimeout : Statement .enrolTimeout := all _
theorem stale : Statement .stale := all _
theorem resumeWinExpiry : Statement .resumeWinExpiry := all _
theorem txPat (n : Nat) (v : Word) : Statement (.txPat n v) := all _
theorem clr (addr : Nat) : Statement (.clr addr) := all _
theorem counterLowRead (view : Nat) (addr : Nat) : Statement (.counterLowRead view addr) := all _
theorem registerWrite (addr : Nat) (v : WrIn) : Statement (.registerWrite addr v) := all _
theorem spineTick : Statement .spineTick := all _
theorem compileCompletion : Statement .compileCompletion := all _
theorem warmResetComplete : Statement .warmResetComplete := all _
theorem sourceLost (d : Dom) : Statement (.sourceLost d) := all _
theorem busMasterEnable (fn : Nat) (on : BusMaster) : Statement (.busMasterEnable fn on) := all _
theorem vfEnable (numVfs : Nat) : Statement (.vfEnable numVfs) := all _
theorem perstNRelease : Statement .perstNRelease := all _
theorem checkerLock (c : CheckIn) : Statement (.checkerLock c) := all _
theorem rcRead (view : Nat) (addr : RdIn) : Statement (.rcRead view addr) := all _

end Sys2Proof.Laws.SessionScoped
end

