-- ==== Sys2Proof/Laws/State.lean ====
section
/-! SUPPORT. What the plain updates of State leave: one lemma per field per update. -/

namespace Sys2Proof.Machine

variable (s : State)

@[simp] theorem State.wr_variant (a : ℕ) (w : Word) : (s.wr a w).variant = s.variant := rfl
@[simp] theorem State.wr_free (a : ℕ) (w : Word) : (s.wr a w).free = s.free := rfl
@[simp] theorem State.wr_tick (a : ℕ) (w : Word) : (s.wr a w).tick = s.tick := rfl
@[simp] theorem State.wr_time (a : ℕ) (w : Word) : (s.wr a w).time = s.time := rfl
@[simp] theorem State.wr_host (a : ℕ) (w : Word) : (s.wr a w).host = s.host := rfl
@[simp] theorem State.wr_exp (a : ℕ) (w : Word) : (s.wr a w).exp = s.exp := rfl
@[simp] theorem State.wr_led (a : ℕ) (w : Word) : (s.wr a w).led = s.led := rfl
@[simp] theorem State.wr_flash (a : ℕ) (w : Word) : (s.wr a w).flash = s.flash := rfl
@[simp] theorem State.wr_pair (a : ℕ) (w : Word) : (s.wr a w).pair = s.pair := rfl
@[simp] theorem State.wr_ctl (a : ℕ) (w : Word) : (s.wr a w).ctl = s.ctl := rfl
@[simp] theorem State.wr_readData (a : ℕ) (w : Word) : (s.wr a w).readData = s.readData := rfl
@[simp] theorem State.wr_bus (a : ℕ) (w : Word) : (s.wr a w).bus = s.bus := rfl
@[simp] theorem State.wr_pending (a : ℕ) (w : Word) : (s.wr a w).pending = s.pending := rfl

@[simp] theorem State.put_variant (b : ℕ) (f : Field) (n : ℕ) : (s.put b f n).variant = s.variant := rfl
@[simp] theorem State.put_free (b : ℕ) (f : Field) (n : ℕ) : (s.put b f n).free = s.free := rfl
@[simp] theorem State.put_tick (b : ℕ) (f : Field) (n : ℕ) : (s.put b f n).tick = s.tick := rfl
@[simp] theorem State.put_time (b : ℕ) (f : Field) (n : ℕ) : (s.put b f n).time = s.time := rfl
@[simp] theorem State.put_host (b : ℕ) (f : Field) (n : ℕ) : (s.put b f n).host = s.host := rfl
@[simp] theorem State.put_exp (b : ℕ) (f : Field) (n : ℕ) : (s.put b f n).exp = s.exp := rfl
@[simp] theorem State.put_led (b : ℕ) (f : Field) (n : ℕ) : (s.put b f n).led = s.led := rfl
@[simp] theorem State.put_flash (b : ℕ) (f : Field) (n : ℕ) : (s.put b f n).flash = s.flash := rfl
@[simp] theorem State.put_pair (b : ℕ) (f : Field) (n : ℕ) : (s.put b f n).pair = s.pair := rfl
@[simp] theorem State.put_ctl (b : ℕ) (f : Field) (n : ℕ) : (s.put b f n).ctl = s.ctl := rfl
@[simp] theorem State.put_readData (b : ℕ) (f : Field) (n : ℕ) : (s.put b f n).readData = s.readData := rfl
@[simp] theorem State.put_bus (b : ℕ) (f : Field) (n : ℕ) : (s.put b f n).bus = s.bus := rfl
@[simp] theorem State.put_pending (b : ℕ) (f : Field) (n : ℕ) : (s.put b f n).pending = s.pending := rfl

@[simp] theorem State.putFlag_variant (b : ℕ) (f : Field) (x : Bool) : (s.putFlag b f x).variant = s.variant := rfl
@[simp] theorem State.putFlag_free (b : ℕ) (f : Field) (x : Bool) : (s.putFlag b f x).free = s.free := rfl
@[simp] theorem State.putFlag_tick (b : ℕ) (f : Field) (x : Bool) : (s.putFlag b f x).tick = s.tick := rfl
@[simp] theorem State.putFlag_time (b : ℕ) (f : Field) (x : Bool) : (s.putFlag b f x).time = s.time := rfl
@[simp] theorem State.putFlag_host (b : ℕ) (f : Field) (x : Bool) : (s.putFlag b f x).host = s.host := rfl
@[simp] theorem State.putFlag_exp (b : ℕ) (f : Field) (x : Bool) : (s.putFlag b f x).exp = s.exp := rfl
@[simp] theorem State.putFlag_led (b : ℕ) (f : Field) (x : Bool) : (s.putFlag b f x).led = s.led := rfl
@[simp] theorem State.putFlag_flash (b : ℕ) (f : Field) (x : Bool) : (s.putFlag b f x).flash = s.flash := rfl
@[simp] theorem State.putFlag_pair (b : ℕ) (f : Field) (x : Bool) : (s.putFlag b f x).pair = s.pair := rfl
@[simp] theorem State.putFlag_ctl (b : ℕ) (f : Field) (x : Bool) : (s.putFlag b f x).ctl = s.ctl := rfl
@[simp] theorem State.putFlag_readData (b : ℕ) (f : Field) (x : Bool) : (s.putFlag b f x).readData = s.readData := rfl
@[simp] theorem State.putFlag_bus (b : ℕ) (f : Field) (x : Bool) : (s.putFlag b f x).bus = s.bus := rfl
@[simp] theorem State.putFlag_pending (b : ℕ) (f : Field) (x : Bool) : (s.putFlag b f x).pending = s.pending := rfl

@[simp] theorem State.count_variant (b : ℕ) (f : Field) (n : ℕ) : (s.count b f n).variant = s.variant := rfl
@[simp] theorem State.count_free (b : ℕ) (f : Field) (n : ℕ) : (s.count b f n).free = s.free := rfl
@[simp] theorem State.count_tick (b : ℕ) (f : Field) (n : ℕ) : (s.count b f n).tick = s.tick := rfl
@[simp] theorem State.count_time (b : ℕ) (f : Field) (n : ℕ) : (s.count b f n).time = s.time := rfl
@[simp] theorem State.count_host (b : ℕ) (f : Field) (n : ℕ) : (s.count b f n).host = s.host := rfl
@[simp] theorem State.count_exp (b : ℕ) (f : Field) (n : ℕ) : (s.count b f n).exp = s.exp := rfl
@[simp] theorem State.count_led (b : ℕ) (f : Field) (n : ℕ) : (s.count b f n).led = s.led := rfl
@[simp] theorem State.count_flash (b : ℕ) (f : Field) (n : ℕ) : (s.count b f n).flash = s.flash := rfl
@[simp] theorem State.count_pair (b : ℕ) (f : Field) (n : ℕ) : (s.count b f n).pair = s.pair := rfl
@[simp] theorem State.count_ctl (b : ℕ) (f : Field) (n : ℕ) : (s.count b f n).ctl = s.ctl := rfl
@[simp] theorem State.count_readData (b : ℕ) (f : Field) (n : ℕ) : (s.count b f n).readData = s.readData := rfl
@[simp] theorem State.count_bus (b : ℕ) (f : Field) (n : ℕ) : (s.count b f n).bus = s.bus := rfl
@[simp] theorem State.count_pending (b : ℕ) (f : Field) (n : ℕ) : (s.count b f n).pending = s.pending := rfl

@[simp] theorem State.countWrap_variant (b : ℕ) (f : Field) (n : ℕ) : (s.countWrap b f n).variant = s.variant := rfl
@[simp] theorem State.countWrap_free (b : ℕ) (f : Field) (n : ℕ) : (s.countWrap b f n).free = s.free := rfl
@[simp] theorem State.countWrap_tick (b : ℕ) (f : Field) (n : ℕ) : (s.countWrap b f n).tick = s.tick := rfl
@[simp] theorem State.countWrap_time (b : ℕ) (f : Field) (n : ℕ) : (s.countWrap b f n).time = s.time := rfl
@[simp] theorem State.countWrap_host (b : ℕ) (f : Field) (n : ℕ) : (s.countWrap b f n).host = s.host := rfl
@[simp] theorem State.countWrap_exp (b : ℕ) (f : Field) (n : ℕ) : (s.countWrap b f n).exp = s.exp := rfl
@[simp] theorem State.countWrap_led (b : ℕ) (f : Field) (n : ℕ) : (s.countWrap b f n).led = s.led := rfl
@[simp] theorem State.countWrap_flash (b : ℕ) (f : Field) (n : ℕ) : (s.countWrap b f n).flash = s.flash := rfl
@[simp] theorem State.countWrap_pair (b : ℕ) (f : Field) (n : ℕ) : (s.countWrap b f n).pair = s.pair := rfl
@[simp] theorem State.countWrap_ctl (b : ℕ) (f : Field) (n : ℕ) : (s.countWrap b f n).ctl = s.ctl := rfl
@[simp] theorem State.countWrap_readData (b : ℕ) (f : Field) (n : ℕ) : (s.countWrap b f n).readData = s.readData := rfl
@[simp] theorem State.countWrap_bus (b : ℕ) (f : Field) (n : ℕ) : (s.countWrap b f n).bus = s.bus := rfl
@[simp] theorem State.countWrap_pending (b : ℕ) (f : Field) (n : ℕ) : (s.countWrap b f n).pending = s.pending := rfl

@[simp] theorem State.putPair_variant (b : ℕ) (lo hi : Field) (n : ℕ) : (s.putPair b lo hi n).variant = s.variant := rfl
@[simp] theorem State.putPair_free (b : ℕ) (lo hi : Field) (n : ℕ) : (s.putPair b lo hi n).free = s.free := rfl
@[simp] theorem State.putPair_tick (b : ℕ) (lo hi : Field) (n : ℕ) : (s.putPair b lo hi n).tick = s.tick := rfl
@[simp] theorem State.putPair_time (b : ℕ) (lo hi : Field) (n : ℕ) : (s.putPair b lo hi n).time = s.time := rfl
@[simp] theorem State.putPair_host (b : ℕ) (lo hi : Field) (n : ℕ) : (s.putPair b lo hi n).host = s.host := rfl
@[simp] theorem State.putPair_exp (b : ℕ) (lo hi : Field) (n : ℕ) : (s.putPair b lo hi n).exp = s.exp := rfl
@[simp] theorem State.putPair_led (b : ℕ) (lo hi : Field) (n : ℕ) : (s.putPair b lo hi n).led = s.led := rfl
@[simp] theorem State.putPair_flash (b : ℕ) (lo hi : Field) (n : ℕ) : (s.putPair b lo hi n).flash = s.flash := rfl
@[simp] theorem State.putPair_pair (b : ℕ) (lo hi : Field) (n : ℕ) : (s.putPair b lo hi n).pair = s.pair := rfl
@[simp] theorem State.putPair_ctl (b : ℕ) (lo hi : Field) (n : ℕ) : (s.putPair b lo hi n).ctl = s.ctl := rfl
@[simp] theorem State.putPair_readData (b : ℕ) (lo hi : Field) (n : ℕ) : (s.putPair b lo hi n).readData = s.readData := rfl
@[simp] theorem State.putPair_bus (b : ℕ) (lo hi : Field) (n : ℕ) : (s.putPair b lo hi n).bus = s.bus := rfl
@[simp] theorem State.putPair_pending (b : ℕ) (lo hi : Field) (n : ℕ) : (s.putPair b lo hi n).pending = s.pending := rfl

@[simp] theorem State.resetRegs_variant (p : ℕ → Bool) : (s.resetRegs p).variant = s.variant := rfl
@[simp] theorem State.resetRegs_free (p : ℕ → Bool) : (s.resetRegs p).free = s.free := rfl
@[simp] theorem State.resetRegs_tick (p : ℕ → Bool) : (s.resetRegs p).tick = s.tick := rfl
@[simp] theorem State.resetRegs_time (p : ℕ → Bool) : (s.resetRegs p).time = s.time := rfl
@[simp] theorem State.resetRegs_host (p : ℕ → Bool) : (s.resetRegs p).host = s.host := rfl
@[simp] theorem State.resetRegs_exp (p : ℕ → Bool) : (s.resetRegs p).exp = s.exp := rfl
@[simp] theorem State.resetRegs_led (p : ℕ → Bool) : (s.resetRegs p).led = s.led := rfl
@[simp] theorem State.resetRegs_flash (p : ℕ → Bool) : (s.resetRegs p).flash = s.flash := rfl
@[simp] theorem State.resetRegs_pair (p : ℕ → Bool) : (s.resetRegs p).pair = s.pair := rfl
@[simp] theorem State.resetRegs_ctl (p : ℕ → Bool) : (s.resetRegs p).ctl = s.ctl := rfl
@[simp] theorem State.resetRegs_readData (p : ℕ → Bool) : (s.resetRegs p).readData = s.readData := rfl
@[simp] theorem State.resetRegs_bus (p : ℕ → Bool) : (s.resetRegs p).bus = s.bus := rfl
@[simp] theorem State.resetRegs_pending (p : ℕ → Bool) : (s.resetRegs p).pending = s.pending := rfl

@[simp] theorem State.setSess_variant (q : ℕ) (x : Sess) : (s.setSess q x).variant = s.variant := rfl
@[simp] theorem State.setSess_free (q : ℕ) (x : Sess) : (s.setSess q x).free = s.free := rfl
@[simp] theorem State.setSess_tick (q : ℕ) (x : Sess) : (s.setSess q x).tick = s.tick := rfl
@[simp] theorem State.setSess_regs (q : ℕ) (x : Sess) : (s.setSess q x).regs = s.regs := rfl
@[simp] theorem State.setSess_time (q : ℕ) (x : Sess) : (s.setSess q x).time = s.time := rfl
@[simp] theorem State.setSess_exp (q : ℕ) (x : Sess) : (s.setSess q x).exp = s.exp := rfl
@[simp] theorem State.setSess_led (q : ℕ) (x : Sess) : (s.setSess q x).led = s.led := rfl
@[simp] theorem State.setSess_flash (q : ℕ) (x : Sess) : (s.setSess q x).flash = s.flash := rfl
@[simp] theorem State.setSess_pair (q : ℕ) (x : Sess) : (s.setSess q x).pair = s.pair := rfl
@[simp] theorem State.setSess_ctl (q : ℕ) (x : Sess) : (s.setSess q x).ctl = s.ctl := rfl
@[simp] theorem State.setSess_readData (q : ℕ) (x : Sess) : (s.setSess q x).readData = s.readData := rfl
@[simp] theorem State.setSess_bus (q : ℕ) (x : Sess) : (s.setSess q x).bus = s.bus := rfl
@[simp] theorem State.setSess_pending (q : ℕ) (x : Sess) : (s.setSess q x).pending = s.pending := rfl

@[simp] theorem State.dropSess_variant (q : ℕ) : (s.dropSess q).variant = s.variant := rfl
@[simp] theorem State.dropSess_free (q : ℕ) : (s.dropSess q).free = s.free := rfl
@[simp] theorem State.dropSess_tick (q : ℕ) : (s.dropSess q).tick = s.tick := rfl
@[simp] theorem State.dropSess_regs (q : ℕ) : (s.dropSess q).regs = s.regs := rfl
@[simp] theorem State.dropSess_time (q : ℕ) : (s.dropSess q).time = s.time := rfl
@[simp] theorem State.dropSess_exp (q : ℕ) : (s.dropSess q).exp = s.exp := rfl
@[simp] theorem State.dropSess_led (q : ℕ) : (s.dropSess q).led = s.led := rfl
@[simp] theorem State.dropSess_flash (q : ℕ) : (s.dropSess q).flash = s.flash := rfl
@[simp] theorem State.dropSess_pair (q : ℕ) : (s.dropSess q).pair = s.pair := rfl
@[simp] theorem State.dropSess_ctl (q : ℕ) : (s.dropSess q).ctl = s.ctl := rfl
@[simp] theorem State.dropSess_readData (q : ℕ) : (s.dropSess q).readData = s.readData := rfl
@[simp] theorem State.dropSess_bus (q : ℕ) : (s.dropSess q).bus = s.bus := rfl
@[simp] theorem State.dropSess_pending (q : ℕ) : (s.dropSess q).pending = s.pending := rfl

@[simp] theorem State.setQueue_variant (q : ℕ) (x : Queue) : (s.setQueue q x).variant = s.variant := rfl
@[simp] theorem State.setQueue_free (q : ℕ) (x : Queue) : (s.setQueue q x).free = s.free := rfl
@[simp] theorem State.setQueue_tick (q : ℕ) (x : Queue) : (s.setQueue q x).tick = s.tick := rfl
@[simp] theorem State.setQueue_regs (q : ℕ) (x : Queue) : (s.setQueue q x).regs = s.regs := rfl
@[simp] theorem State.setQueue_time (q : ℕ) (x : Queue) : (s.setQueue q x).time = s.time := rfl
@[simp] theorem State.setQueue_host (q : ℕ) (x : Queue) : (s.setQueue q x).host = s.host := rfl
@[simp] theorem State.setQueue_led (q : ℕ) (x : Queue) : (s.setQueue q x).led = s.led := rfl
@[simp] theorem State.setQueue_flash (q : ℕ) (x : Queue) : (s.setQueue q x).flash = s.flash := rfl
@[simp] theorem State.setQueue_pair (q : ℕ) (x : Queue) : (s.setQueue q x).pair = s.pair := rfl
@[simp] theorem State.setQueue_ctl (q : ℕ) (x : Queue) : (s.setQueue q x).ctl = s.ctl := rfl
@[simp] theorem State.setQueue_readData (q : ℕ) (x : Queue) : (s.setQueue q x).readData = s.readData := rfl
@[simp] theorem State.setQueue_bus (q : ℕ) (x : Queue) : (s.setQueue q x).bus = s.bus := rfl
@[simp] theorem State.setQueue_pending (q : ℕ) (x : Queue) : (s.setQueue q x).pending = s.pending := rfl

@[simp] theorem State.setSrx_variant (p : ℕ) (x : Srx) : (s.setSrx p x).variant = s.variant := rfl
@[simp] theorem State.setSrx_free (p : ℕ) (x : Srx) : (s.setSrx p x).free = s.free := rfl
@[simp] theorem State.setSrx_tick (p : ℕ) (x : Srx) : (s.setSrx p x).tick = s.tick := rfl
@[simp] theorem State.setSrx_regs (p : ℕ) (x : Srx) : (s.setSrx p x).regs = s.regs := rfl
@[simp] theorem State.setSrx_time (p : ℕ) (x : Srx) : (s.setSrx p x).time = s.time := rfl
@[simp] theorem State.setSrx_host (p : ℕ) (x : Srx) : (s.setSrx p x).host = s.host := rfl
@[simp] theorem State.setSrx_led (p : ℕ) (x : Srx) : (s.setSrx p x).led = s.led := rfl
@[simp] theorem State.setSrx_flash (p : ℕ) (x : Srx) : (s.setSrx p x).flash = s.flash := rfl
@[simp] theorem State.setSrx_pair (p : ℕ) (x : Srx) : (s.setSrx p x).pair = s.pair := rfl
@[simp] theorem State.setSrx_ctl (p : ℕ) (x : Srx) : (s.setSrx p x).ctl = s.ctl := rfl
@[simp] theorem State.setSrx_readData (p : ℕ) (x : Srx) : (s.setSrx p x).readData = s.readData := rfl
@[simp] theorem State.setSrx_bus (p : ℕ) (x : Srx) : (s.setSrx p x).bus = s.bus := rfl
@[simp] theorem State.setSrx_pending (p : ℕ) (x : Srx) : (s.setSrx p x).pending = s.pending := rfl

@[simp] theorem State.setTile_variant (t : ℕ) (x : TilePath) : (s.setTile t x).variant = s.variant := rfl
@[simp] theorem State.setTile_free (t : ℕ) (x : TilePath) : (s.setTile t x).free = s.free := rfl
@[simp] theorem State.setTile_tick (t : ℕ) (x : TilePath) : (s.setTile t x).tick = s.tick := rfl
@[simp] theorem State.setTile_regs (t : ℕ) (x : TilePath) : (s.setTile t x).regs = s.regs := rfl
@[simp] theorem State.setTile_time (t : ℕ) (x : TilePath) : (s.setTile t x).time = s.time := rfl
@[simp] theorem State.setTile_host (t : ℕ) (x : TilePath) : (s.setTile t x).host = s.host := rfl
@[simp] theorem State.setTile_led (t : ℕ) (x : TilePath) : (s.setTile t x).led = s.led := rfl
@[simp] theorem State.setTile_flash (t : ℕ) (x : TilePath) : (s.setTile t x).flash = s.flash := rfl
@[simp] theorem State.setTile_pair (t : ℕ) (x : TilePath) : (s.setTile t x).pair = s.pair := rfl
@[simp] theorem State.setTile_ctl (t : ℕ) (x : TilePath) : (s.setTile t x).ctl = s.ctl := rfl
@[simp] theorem State.setTile_readData (t : ℕ) (x : TilePath) : (s.setTile t x).readData = s.readData := rfl
@[simp] theorem State.setTile_bus (t : ℕ) (x : TilePath) : (s.setTile t x).bus = s.bus := rfl
@[simp] theorem State.setTile_pending (t : ℕ) (x : TilePath) : (s.setTile t x).pending = s.pending := rfl

@[simp] theorem State.setParkRes_variant (n : ℕ) : (s.setParkRes n).variant = s.variant := rfl
@[simp] theorem State.setParkRes_free (n : ℕ) : (s.setParkRes n).free = s.free := rfl
@[simp] theorem State.setParkRes_tick (n : ℕ) : (s.setParkRes n).tick = s.tick := rfl
@[simp] theorem State.setParkRes_regs (n : ℕ) : (s.setParkRes n).regs = s.regs := rfl
@[simp] theorem State.setParkRes_time (n : ℕ) : (s.setParkRes n).time = s.time := rfl
@[simp] theorem State.setParkRes_host (n : ℕ) : (s.setParkRes n).host = s.host := rfl
@[simp] theorem State.setParkRes_exp (n : ℕ) : (s.setParkRes n).exp = s.exp := rfl
@[simp] theorem State.setParkRes_flash (n : ℕ) : (s.setParkRes n).flash = s.flash := rfl
@[simp] theorem State.setParkRes_pair (n : ℕ) : (s.setParkRes n).pair = s.pair := rfl
@[simp] theorem State.setParkRes_ctl (n : ℕ) : (s.setParkRes n).ctl = s.ctl := rfl
@[simp] theorem State.setParkRes_readData (n : ℕ) : (s.setParkRes n).readData = s.readData := rfl
@[simp] theorem State.setParkRes_bus (n : ℕ) : (s.setParkRes n).bus = s.bus := rfl
@[simp] theorem State.setParkRes_pending (n : ℕ) : (s.setParkRes n).pending = s.pending := rfl

@[simp] theorem State.setCpNum_variant (n : ℕ) : (s.setCpNum n).variant = s.variant := rfl
@[simp] theorem State.setCpNum_free (n : ℕ) : (s.setCpNum n).free = s.free := rfl
@[simp] theorem State.setCpNum_tick (n : ℕ) : (s.setCpNum n).tick = s.tick := rfl
@[simp] theorem State.setCpNum_regs (n : ℕ) : (s.setCpNum n).regs = s.regs := rfl
@[simp] theorem State.setCpNum_time (n : ℕ) : (s.setCpNum n).time = s.time := rfl
@[simp] theorem State.setCpNum_host (n : ℕ) : (s.setCpNum n).host = s.host := rfl
@[simp] theorem State.setCpNum_exp (n : ℕ) : (s.setCpNum n).exp = s.exp := rfl
@[simp] theorem State.setCpNum_flash (n : ℕ) : (s.setCpNum n).flash = s.flash := rfl
@[simp] theorem State.setCpNum_pair (n : ℕ) : (s.setCpNum n).pair = s.pair := rfl
@[simp] theorem State.setCpNum_ctl (n : ℕ) : (s.setCpNum n).ctl = s.ctl := rfl
@[simp] theorem State.setCpNum_readData (n : ℕ) : (s.setCpNum n).readData = s.readData := rfl
@[simp] theorem State.setCpNum_bus (n : ℕ) : (s.setCpNum n).bus = s.bus := rfl
@[simp] theorem State.setCpNum_pending (n : ℕ) : (s.setCpNum n).pending = s.pending := rfl

@[simp] theorem State.seal_variant (f : Flash → Flash) : (s.seal f).variant = s.variant := rfl
@[simp] theorem State.seal_free (f : Flash → Flash) : (s.seal f).free = s.free := rfl
@[simp] theorem State.seal_tick (f : Flash → Flash) : (s.seal f).tick = s.tick := rfl
@[simp] theorem State.seal_regs (f : Flash → Flash) : (s.seal f).regs = s.regs := rfl
@[simp] theorem State.seal_time (f : Flash → Flash) : (s.seal f).time = s.time := rfl
@[simp] theorem State.seal_host (f : Flash → Flash) : (s.seal f).host = s.host := rfl
@[simp] theorem State.seal_exp (f : Flash → Flash) : (s.seal f).exp = s.exp := rfl
@[simp] theorem State.seal_led (f : Flash → Flash) : (s.seal f).led = s.led := rfl
@[simp] theorem State.seal_pair (f : Flash → Flash) : (s.seal f).pair = s.pair := rfl
@[simp] theorem State.seal_ctl (f : Flash → Flash) : (s.seal f).ctl = s.ctl := rfl
@[simp] theorem State.seal_readData (f : Flash → Flash) : (s.seal f).readData = s.readData := rfl
@[simp] theorem State.seal_bus (f : Flash → Flash) : (s.seal f).bus = s.bus := rfl
@[simp] theorem State.seal_pending (f : Flash → Flash) : (s.seal f).pending = s.pending := rfl

@[simp] theorem State.setPair_variant (x : PairUnit) : (s.setPair x).variant = s.variant := rfl
@[simp] theorem State.setPair_free (x : PairUnit) : (s.setPair x).free = s.free := rfl
@[simp] theorem State.setPair_tick (x : PairUnit) : (s.setPair x).tick = s.tick := rfl
@[simp] theorem State.setPair_regs (x : PairUnit) : (s.setPair x).regs = s.regs := rfl
@[simp] theorem State.setPair_time (x : PairUnit) : (s.setPair x).time = s.time := rfl
@[simp] theorem State.setPair_host (x : PairUnit) : (s.setPair x).host = s.host := rfl
@[simp] theorem State.setPair_exp (x : PairUnit) : (s.setPair x).exp = s.exp := rfl
@[simp] theorem State.setPair_led (x : PairUnit) : (s.setPair x).led = s.led := rfl
@[simp] theorem State.setPair_flash (x : PairUnit) : (s.setPair x).flash = s.flash := rfl
@[simp] theorem State.setPair_ctl (x : PairUnit) : (s.setPair x).ctl = s.ctl := rfl
@[simp] theorem State.setPair_readData (x : PairUnit) : (s.setPair x).readData = s.readData := rfl
@[simp] theorem State.setPair_bus (x : PairUnit) : (s.setPair x).bus = s.bus := rfl
@[simp] theorem State.setPair_pending (x : PairUnit) : (s.setPair x).pending = s.pending := rfl

@[simp] theorem State.setLane_variant (e : ℕ) (x : Lane) : (s.setLane e x).variant = s.variant := rfl
@[simp] theorem State.setLane_free (e : ℕ) (x : Lane) : (s.setLane e x).free = s.free := rfl
@[simp] theorem State.setLane_tick (e : ℕ) (x : Lane) : (s.setLane e x).tick = s.tick := rfl
@[simp] theorem State.setLane_regs (e : ℕ) (x : Lane) : (s.setLane e x).regs = s.regs := rfl
@[simp] theorem State.setLane_time (e : ℕ) (x : Lane) : (s.setLane e x).time = s.time := rfl
@[simp] theorem State.setLane_host (e : ℕ) (x : Lane) : (s.setLane e x).host = s.host := rfl
@[simp] theorem State.setLane_exp (e : ℕ) (x : Lane) : (s.setLane e x).exp = s.exp := rfl
@[simp] theorem State.setLane_led (e : ℕ) (x : Lane) : (s.setLane e x).led = s.led := rfl
@[simp] theorem State.setLane_flash (e : ℕ) (x : Lane) : (s.setLane e x).flash = s.flash := rfl
@[simp] theorem State.setLane_pair (e : ℕ) (x : Lane) : (s.setLane e x).pair = s.pair := rfl
@[simp] theorem State.setLane_readData (e : ℕ) (x : Lane) : (s.setLane e x).readData = s.readData := rfl
@[simp] theorem State.setLane_bus (e : ℕ) (x : Lane) : (s.setLane e x).bus = s.bus := rfl
@[simp] theorem State.setLane_pending (e : ℕ) (x : Lane) : (s.setLane e x).pending = s.pending := rfl

@[simp] theorem State.mapLanes_variant (f : ℕ → Lane → Lane) : (s.mapLanes f).variant = s.variant := rfl
@[simp] theorem State.mapLanes_free (f : ℕ → Lane → Lane) : (s.mapLanes f).free = s.free := rfl
@[simp] theorem State.mapLanes_tick (f : ℕ → Lane → Lane) : (s.mapLanes f).tick = s.tick := rfl
@[simp] theorem State.mapLanes_regs (f : ℕ → Lane → Lane) : (s.mapLanes f).regs = s.regs := rfl
@[simp] theorem State.mapLanes_time (f : ℕ → Lane → Lane) : (s.mapLanes f).time = s.time := rfl
@[simp] theorem State.mapLanes_host (f : ℕ → Lane → Lane) : (s.mapLanes f).host = s.host := rfl
@[simp] theorem State.mapLanes_exp (f : ℕ → Lane → Lane) : (s.mapLanes f).exp = s.exp := rfl
@[simp] theorem State.mapLanes_led (f : ℕ → Lane → Lane) : (s.mapLanes f).led = s.led := rfl
@[simp] theorem State.mapLanes_flash (f : ℕ → Lane → Lane) : (s.mapLanes f).flash = s.flash := rfl
@[simp] theorem State.mapLanes_pair (f : ℕ → Lane → Lane) : (s.mapLanes f).pair = s.pair := rfl
@[simp] theorem State.mapLanes_readData (f : ℕ → Lane → Lane) : (s.mapLanes f).readData = s.readData := rfl
@[simp] theorem State.mapLanes_bus (f : ℕ → Lane → Lane) : (s.mapLanes f).bus = s.bus := rfl
@[simp] theorem State.mapLanes_pending (f : ℕ → Lane → Lane) : (s.mapLanes f).pending = s.pending := rfl

@[simp] theorem State.mapComb_variant (c : ℕ) (f : ℕ → Lane → Lane) : (s.mapComb c f).variant = s.variant := rfl
@[simp] theorem State.mapComb_free (c : ℕ) (f : ℕ → Lane → Lane) : (s.mapComb c f).free = s.free := rfl
@[simp] theorem State.mapComb_tick (c : ℕ) (f : ℕ → Lane → Lane) : (s.mapComb c f).tick = s.tick := rfl
@[simp] theorem State.mapComb_regs (c : ℕ) (f : ℕ → Lane → Lane) : (s.mapComb c f).regs = s.regs := rfl
@[simp] theorem State.mapComb_time (c : ℕ) (f : ℕ → Lane → Lane) : (s.mapComb c f).time = s.time := rfl
@[simp] theorem State.mapComb_host (c : ℕ) (f : ℕ → Lane → Lane) : (s.mapComb c f).host = s.host := rfl
@[simp] theorem State.mapComb_exp (c : ℕ) (f : ℕ → Lane → Lane) : (s.mapComb c f).exp = s.exp := rfl
@[simp] theorem State.mapComb_led (c : ℕ) (f : ℕ → Lane → Lane) : (s.mapComb c f).led = s.led := rfl
@[simp] theorem State.mapComb_flash (c : ℕ) (f : ℕ → Lane → Lane) : (s.mapComb c f).flash = s.flash := rfl
@[simp] theorem State.mapComb_pair (c : ℕ) (f : ℕ → Lane → Lane) : (s.mapComb c f).pair = s.pair := rfl
@[simp] theorem State.mapComb_readData (c : ℕ) (f : ℕ → Lane → Lane) : (s.mapComb c f).readData = s.readData := rfl
@[simp] theorem State.mapComb_bus (c : ℕ) (f : ℕ → Lane → Lane) : (s.mapComb c f).bus = s.bus := rfl
@[simp] theorem State.mapComb_pending (c : ℕ) (f : ℕ → Lane → Lane) : (s.mapComb c f).pending = s.pending := rfl

@[simp] theorem State.setComb_variant (c : ℕ) (x : Comb) : (s.setComb c x).variant = s.variant := rfl
@[simp] theorem State.setComb_free (c : ℕ) (x : Comb) : (s.setComb c x).free = s.free := rfl
@[simp] theorem State.setComb_tick (c : ℕ) (x : Comb) : (s.setComb c x).tick = s.tick := rfl
@[simp] theorem State.setComb_regs (c : ℕ) (x : Comb) : (s.setComb c x).regs = s.regs := rfl
@[simp] theorem State.setComb_time (c : ℕ) (x : Comb) : (s.setComb c x).time = s.time := rfl
@[simp] theorem State.setComb_host (c : ℕ) (x : Comb) : (s.setComb c x).host = s.host := rfl
@[simp] theorem State.setComb_exp (c : ℕ) (x : Comb) : (s.setComb c x).exp = s.exp := rfl
@[simp] theorem State.setComb_led (c : ℕ) (x : Comb) : (s.setComb c x).led = s.led := rfl
@[simp] theorem State.setComb_flash (c : ℕ) (x : Comb) : (s.setComb c x).flash = s.flash := rfl
@[simp] theorem State.setComb_pair (c : ℕ) (x : Comb) : (s.setComb c x).pair = s.pair := rfl
@[simp] theorem State.setComb_readData (c : ℕ) (x : Comb) : (s.setComb c x).readData = s.readData := rfl
@[simp] theorem State.setComb_bus (c : ℕ) (x : Comb) : (s.setComb c x).bus = s.bus := rfl
@[simp] theorem State.setComb_pending (c : ℕ) (x : Comb) : (s.setComb c x).pending = s.pending := rfl

@[simp] theorem State.mapCombs_variant (f : ℕ → Comb → Comb) : (s.mapCombs f).variant = s.variant := rfl
@[simp] theorem State.mapCombs_free (f : ℕ → Comb → Comb) : (s.mapCombs f).free = s.free := rfl
@[simp] theorem State.mapCombs_tick (f : ℕ → Comb → Comb) : (s.mapCombs f).tick = s.tick := rfl
@[simp] theorem State.mapCombs_regs (f : ℕ → Comb → Comb) : (s.mapCombs f).regs = s.regs := rfl
@[simp] theorem State.mapCombs_time (f : ℕ → Comb → Comb) : (s.mapCombs f).time = s.time := rfl
@[simp] theorem State.mapCombs_host (f : ℕ → Comb → Comb) : (s.mapCombs f).host = s.host := rfl
@[simp] theorem State.mapCombs_exp (f : ℕ → Comb → Comb) : (s.mapCombs f).exp = s.exp := rfl
@[simp] theorem State.mapCombs_led (f : ℕ → Comb → Comb) : (s.mapCombs f).led = s.led := rfl
@[simp] theorem State.mapCombs_flash (f : ℕ → Comb → Comb) : (s.mapCombs f).flash = s.flash := rfl
@[simp] theorem State.mapCombs_pair (f : ℕ → Comb → Comb) : (s.mapCombs f).pair = s.pair := rfl
@[simp] theorem State.mapCombs_readData (f : ℕ → Comb → Comb) : (s.mapCombs f).readData = s.readData := rfl
@[simp] theorem State.mapCombs_bus (f : ℕ → Comb → Comb) : (s.mapCombs f).bus = s.bus := rfl
@[simp] theorem State.mapCombs_pending (f : ℕ → Comb → Comb) : (s.mapCombs f).pending = s.pending := rfl

@[simp] theorem State.setOut_variant (o : ℕ) (x : Out) : (s.setOut o x).variant = s.variant := rfl
@[simp] theorem State.setOut_free (o : ℕ) (x : Out) : (s.setOut o x).free = s.free := rfl
@[simp] theorem State.setOut_tick (o : ℕ) (x : Out) : (s.setOut o x).tick = s.tick := rfl
@[simp] theorem State.setOut_regs (o : ℕ) (x : Out) : (s.setOut o x).regs = s.regs := rfl
@[simp] theorem State.setOut_time (o : ℕ) (x : Out) : (s.setOut o x).time = s.time := rfl
@[simp] theorem State.setOut_host (o : ℕ) (x : Out) : (s.setOut o x).host = s.host := rfl
@[simp] theorem State.setOut_exp (o : ℕ) (x : Out) : (s.setOut o x).exp = s.exp := rfl
@[simp] theorem State.setOut_led (o : ℕ) (x : Out) : (s.setOut o x).led = s.led := rfl
@[simp] theorem State.setOut_flash (o : ℕ) (x : Out) : (s.setOut o x).flash = s.flash := rfl
@[simp] theorem State.setOut_pair (o : ℕ) (x : Out) : (s.setOut o x).pair = s.pair := rfl
@[simp] theorem State.setOut_readData (o : ℕ) (x : Out) : (s.setOut o x).readData = s.readData := rfl
@[simp] theorem State.setOut_bus (o : ℕ) (x : Out) : (s.setOut o x).bus = s.bus := rfl
@[simp] theorem State.setOut_pending (o : ℕ) (x : Out) : (s.setOut o x).pending = s.pending := rfl

@[simp] theorem State.setPlan_variant (x : PlanUnit) : (s.setPlan x).variant = s.variant := rfl
@[simp] theorem State.setPlan_free (x : PlanUnit) : (s.setPlan x).free = s.free := rfl
@[simp] theorem State.setPlan_tick (x : PlanUnit) : (s.setPlan x).tick = s.tick := rfl
@[simp] theorem State.setPlan_regs (x : PlanUnit) : (s.setPlan x).regs = s.regs := rfl
@[simp] theorem State.setPlan_time (x : PlanUnit) : (s.setPlan x).time = s.time := rfl
@[simp] theorem State.setPlan_host (x : PlanUnit) : (s.setPlan x).host = s.host := rfl
@[simp] theorem State.setPlan_exp (x : PlanUnit) : (s.setPlan x).exp = s.exp := rfl
@[simp] theorem State.setPlan_led (x : PlanUnit) : (s.setPlan x).led = s.led := rfl
@[simp] theorem State.setPlan_flash (x : PlanUnit) : (s.setPlan x).flash = s.flash := rfl
@[simp] theorem State.setPlan_pair (x : PlanUnit) : (s.setPlan x).pair = s.pair := rfl
@[simp] theorem State.setPlan_readData (x : PlanUnit) : (s.setPlan x).readData = s.readData := rfl
@[simp] theorem State.setPlan_bus (x : PlanUnit) : (s.setPlan x).bus = s.bus := rfl
@[simp] theorem State.setPlan_pending (x : PlanUnit) : (s.setPlan x).pending = s.pending := rfl

@[simp] theorem State.setBoot_variant (x : BootUnit) : (s.setBoot x).variant = s.variant := rfl
@[simp] theorem State.setBoot_free (x : BootUnit) : (s.setBoot x).free = s.free := rfl
@[simp] theorem State.setBoot_tick (x : BootUnit) : (s.setBoot x).tick = s.tick := rfl
@[simp] theorem State.setBoot_regs (x : BootUnit) : (s.setBoot x).regs = s.regs := rfl
@[simp] theorem State.setBoot_time (x : BootUnit) : (s.setBoot x).time = s.time := rfl
@[simp] theorem State.setBoot_host (x : BootUnit) : (s.setBoot x).host = s.host := rfl
@[simp] theorem State.setBoot_exp (x : BootUnit) : (s.setBoot x).exp = s.exp := rfl
@[simp] theorem State.setBoot_led (x : BootUnit) : (s.setBoot x).led = s.led := rfl
@[simp] theorem State.setBoot_flash (x : BootUnit) : (s.setBoot x).flash = s.flash := rfl
@[simp] theorem State.setBoot_pair (x : BootUnit) : (s.setBoot x).pair = s.pair := rfl
@[simp] theorem State.setBoot_readData (x : BootUnit) : (s.setBoot x).readData = s.readData := rfl
@[simp] theorem State.setBoot_bus (x : BootUnit) : (s.setBoot x).bus = s.bus := rfl
@[simp] theorem State.setBoot_pending (x : BootUnit) : (s.setBoot x).pending = s.pending := rfl

@[simp] theorem State.setFlt_variant (x : FltUnit) : (s.setFlt x).variant = s.variant := rfl
@[simp] theorem State.setFlt_free (x : FltUnit) : (s.setFlt x).free = s.free := rfl
@[simp] theorem State.setFlt_tick (x : FltUnit) : (s.setFlt x).tick = s.tick := rfl
@[simp] theorem State.setFlt_regs (x : FltUnit) : (s.setFlt x).regs = s.regs := rfl
@[simp] theorem State.setFlt_time (x : FltUnit) : (s.setFlt x).time = s.time := rfl
@[simp] theorem State.setFlt_host (x : FltUnit) : (s.setFlt x).host = s.host := rfl
@[simp] theorem State.setFlt_exp (x : FltUnit) : (s.setFlt x).exp = s.exp := rfl
@[simp] theorem State.setFlt_led (x : FltUnit) : (s.setFlt x).led = s.led := rfl
@[simp] theorem State.setFlt_flash (x : FltUnit) : (s.setFlt x).flash = s.flash := rfl
@[simp] theorem State.setFlt_pair (x : FltUnit) : (s.setFlt x).pair = s.pair := rfl
@[simp] theorem State.setFlt_readData (x : FltUnit) : (s.setFlt x).readData = s.readData := rfl
@[simp] theorem State.setFlt_bus (x : FltUnit) : (s.setFlt x).bus = s.bus := rfl
@[simp] theorem State.setFlt_pending (x : FltUnit) : (s.setFlt x).pending = s.pending := rfl

@[simp] theorem State.setSafe_variant (x : SafeUnit) : (s.setSafe x).variant = s.variant := rfl
@[simp] theorem State.setSafe_free (x : SafeUnit) : (s.setSafe x).free = s.free := rfl
@[simp] theorem State.setSafe_tick (x : SafeUnit) : (s.setSafe x).tick = s.tick := rfl
@[simp] theorem State.setSafe_regs (x : SafeUnit) : (s.setSafe x).regs = s.regs := rfl
@[simp] theorem State.setSafe_time (x : SafeUnit) : (s.setSafe x).time = s.time := rfl
@[simp] theorem State.setSafe_host (x : SafeUnit) : (s.setSafe x).host = s.host := rfl
@[simp] theorem State.setSafe_exp (x : SafeUnit) : (s.setSafe x).exp = s.exp := rfl
@[simp] theorem State.setSafe_led (x : SafeUnit) : (s.setSafe x).led = s.led := rfl
@[simp] theorem State.setSafe_flash (x : SafeUnit) : (s.setSafe x).flash = s.flash := rfl
@[simp] theorem State.setSafe_pair (x : SafeUnit) : (s.setSafe x).pair = s.pair := rfl
@[simp] theorem State.setSafe_readData (x : SafeUnit) : (s.setSafe x).readData = s.readData := rfl
@[simp] theorem State.setSafe_bus (x : SafeUnit) : (s.setSafe x).bus = s.bus := rfl
@[simp] theorem State.setSafe_pending (x : SafeUnit) : (s.setSafe x).pending = s.pending := rfl

@[simp] theorem State.setCsp_variant (x : Csp) : (s.setCsp x).variant = s.variant := rfl
@[simp] theorem State.setCsp_free (x : Csp) : (s.setCsp x).free = s.free := rfl
@[simp] theorem State.setCsp_tick (x : Csp) : (s.setCsp x).tick = s.tick := rfl
@[simp] theorem State.setCsp_regs (x : Csp) : (s.setCsp x).regs = s.regs := rfl
@[simp] theorem State.setCsp_time (x : Csp) : (s.setCsp x).time = s.time := rfl
@[simp] theorem State.setCsp_host (x : Csp) : (s.setCsp x).host = s.host := rfl
@[simp] theorem State.setCsp_exp (x : Csp) : (s.setCsp x).exp = s.exp := rfl
@[simp] theorem State.setCsp_led (x : Csp) : (s.setCsp x).led = s.led := rfl
@[simp] theorem State.setCsp_flash (x : Csp) : (s.setCsp x).flash = s.flash := rfl
@[simp] theorem State.setCsp_pair (x : Csp) : (s.setCsp x).pair = s.pair := rfl
@[simp] theorem State.setCsp_readData (x : Csp) : (s.setCsp x).readData = s.readData := rfl
@[simp] theorem State.setCsp_bus (x : Csp) : (s.setCsp x).bus = s.bus := rfl
@[simp] theorem State.setCsp_pending (x : Csp) : (s.setCsp x).pending = s.pending := rfl

@[simp] theorem State.setEng_variant (c : ℕ) (x : Eng) : (s.setEng c x).variant = s.variant := rfl
@[simp] theorem State.setEng_free (c : ℕ) (x : Eng) : (s.setEng c x).free = s.free := rfl
@[simp] theorem State.setEng_tick (c : ℕ) (x : Eng) : (s.setEng c x).tick = s.tick := rfl
@[simp] theorem State.setEng_regs (c : ℕ) (x : Eng) : (s.setEng c x).regs = s.regs := rfl
@[simp] theorem State.setEng_time (c : ℕ) (x : Eng) : (s.setEng c x).time = s.time := rfl
@[simp] theorem State.setEng_host (c : ℕ) (x : Eng) : (s.setEng c x).host = s.host := rfl
@[simp] theorem State.setEng_exp (c : ℕ) (x : Eng) : (s.setEng c x).exp = s.exp := rfl
@[simp] theorem State.setEng_led (c : ℕ) (x : Eng) : (s.setEng c x).led = s.led := rfl
@[simp] theorem State.setEng_flash (c : ℕ) (x : Eng) : (s.setEng c x).flash = s.flash := rfl
@[simp] theorem State.setEng_pair (c : ℕ) (x : Eng) : (s.setEng c x).pair = s.pair := rfl
@[simp] theorem State.setEng_readData (c : ℕ) (x : Eng) : (s.setEng c x).readData = s.readData := rfl
@[simp] theorem State.setEng_bus (c : ℕ) (x : Eng) : (s.setEng c x).bus = s.bus := rfl
@[simp] theorem State.setEng_pending (c : ℕ) (x : Eng) : (s.setEng c x).pending = s.pending := rfl

@[simp] theorem State.latch_variant (view a n : ℕ) : (s.latch view a n).variant = s.variant := rfl
@[simp] theorem State.latch_free (view a n : ℕ) : (s.latch view a n).free = s.free := rfl
@[simp] theorem State.latch_tick (view a n : ℕ) : (s.latch view a n).tick = s.tick := rfl
@[simp] theorem State.latch_regs (view a n : ℕ) : (s.latch view a n).regs = s.regs := rfl
@[simp] theorem State.latch_time (view a n : ℕ) : (s.latch view a n).time = s.time := rfl
@[simp] theorem State.latch_host (view a n : ℕ) : (s.latch view a n).host = s.host := rfl
@[simp] theorem State.latch_exp (view a n : ℕ) : (s.latch view a n).exp = s.exp := rfl
@[simp] theorem State.latch_led (view a n : ℕ) : (s.latch view a n).led = s.led := rfl
@[simp] theorem State.latch_flash (view a n : ℕ) : (s.latch view a n).flash = s.flash := rfl
@[simp] theorem State.latch_pair (view a n : ℕ) : (s.latch view a n).pair = s.pair := rfl
@[simp] theorem State.latch_readData (view a n : ℕ) : (s.latch view a n).readData = s.readData := rfl
@[simp] theorem State.latch_bus (view a n : ℕ) : (s.latch view a n).bus = s.bus := rfl
@[simp] theorem State.latch_pending (view a n : ℕ) : (s.latch view a n).pending = s.pending := rfl

@[simp] theorem State.onDom_variant (d : Dom) (f : Domain → Domain) : (s.onDom d f).variant = s.variant := rfl
@[simp] theorem State.onDom_free (d : Dom) (f : Domain → Domain) : (s.onDom d f).free = s.free := rfl
@[simp] theorem State.onDom_tick (d : Dom) (f : Domain → Domain) : (s.onDom d f).tick = s.tick := rfl
@[simp] theorem State.onDom_regs (d : Dom) (f : Domain → Domain) : (s.onDom d f).regs = s.regs := rfl
@[simp] theorem State.onDom_host (d : Dom) (f : Domain → Domain) : (s.onDom d f).host = s.host := rfl
@[simp] theorem State.onDom_exp (d : Dom) (f : Domain → Domain) : (s.onDom d f).exp = s.exp := rfl
@[simp] theorem State.onDom_led (d : Dom) (f : Domain → Domain) : (s.onDom d f).led = s.led := rfl
@[simp] theorem State.onDom_flash (d : Dom) (f : Domain → Domain) : (s.onDom d f).flash = s.flash := rfl
@[simp] theorem State.onDom_pair (d : Dom) (f : Domain → Domain) : (s.onDom d f).pair = s.pair := rfl
@[simp] theorem State.onDom_ctl (d : Dom) (f : Domain → Domain) : (s.onDom d f).ctl = s.ctl := rfl
@[simp] theorem State.onDom_readData (d : Dom) (f : Domain → Domain) : (s.onDom d f).readData = s.readData := rfl
@[simp] theorem State.onDom_bus (d : Dom) (f : Domain → Domain) : (s.onDom d f).bus = s.bus := rfl
@[simp] theorem State.onDom_pending (d : Dom) (f : Domain → Domain) : (s.onDom d f).pending = s.pending := rfl

@[simp] theorem State.setLane_ctl_dacs (e : ℕ) (x : Lane) : (s.setLane e x).ctl.dacs = s.ctl.dacs := rfl
@[simp] theorem State.setLane_ctl_combs (e : ℕ) (x : Lane) : (s.setLane e x).ctl.combs = s.ctl.combs := rfl
@[simp] theorem State.setLane_ctl_outs (e : ℕ) (x : Lane) : (s.setLane e x).ctl.outs = s.ctl.outs := rfl
@[simp] theorem State.setLane_ctl_plan (e : ℕ) (x : Lane) : (s.setLane e x).ctl.plan = s.ctl.plan := rfl
@[simp] theorem State.setLane_ctl_csp (e : ℕ) (x : Lane) : (s.setLane e x).ctl.csp = s.ctl.csp := rfl
@[simp] theorem State.setLane_ctl_cal (e : ℕ) (x : Lane) : (s.setLane e x).ctl.cal = s.ctl.cal := rfl
@[simp] theorem State.setLane_ctl_flt (e : ℕ) (x : Lane) : (s.setLane e x).ctl.flt = s.ctl.flt := rfl
@[simp] theorem State.setLane_ctl_safe (e : ℕ) (x : Lane) : (s.setLane e x).ctl.safe = s.ctl.safe := rfl
@[simp] theorem State.setLane_ctl_boot (e : ℕ) (x : Lane) : (s.setLane e x).ctl.boot = s.ctl.boot := rfl
@[simp] theorem State.setLane_ctl_pilot (e : ℕ) (x : Lane) : (s.setLane e x).ctl.pilot = s.ctl.pilot := rfl
@[simp] theorem State.setLane_ctl_hk (e : ℕ) (x : Lane) : (s.setLane e x).ctl.hk = s.ctl.hk := rfl
@[simp] theorem State.setLane_ctl_eng (e : ℕ) (x : Lane) : (s.setLane e x).ctl.eng = s.ctl.eng := rfl
@[simp] theorem State.setLane_ctl_latches (e : ℕ) (x : Lane) : (s.setLane e x).ctl.latches = s.ctl.latches := rfl

@[simp] theorem State.setComb_ctl_lanes (c : ℕ) (x : Comb) : (s.setComb c x).ctl.lanes = s.ctl.lanes := rfl
@[simp] theorem State.setComb_ctl_dacs (c : ℕ) (x : Comb) : (s.setComb c x).ctl.dacs = s.ctl.dacs := rfl
@[simp] theorem State.setComb_ctl_outs (c : ℕ) (x : Comb) : (s.setComb c x).ctl.outs = s.ctl.outs := rfl
@[simp] theorem State.setComb_ctl_plan (c : ℕ) (x : Comb) : (s.setComb c x).ctl.plan = s.ctl.plan := rfl
@[simp] theorem State.setComb_ctl_csp (c : ℕ) (x : Comb) : (s.setComb c x).ctl.csp = s.ctl.csp := rfl
@[simp] theorem State.setComb_ctl_cal (c : ℕ) (x : Comb) : (s.setComb c x).ctl.cal = s.ctl.cal := rfl
@[simp] theorem State.setComb_ctl_flt (c : ℕ) (x : Comb) : (s.setComb c x).ctl.flt = s.ctl.flt := rfl
@[simp] theorem State.setComb_ctl_safe (c : ℕ) (x : Comb) : (s.setComb c x).ctl.safe = s.ctl.safe := rfl
@[simp] theorem State.setComb_ctl_boot (c : ℕ) (x : Comb) : (s.setComb c x).ctl.boot = s.ctl.boot := rfl
@[simp] theorem State.setComb_ctl_pilot (c : ℕ) (x : Comb) : (s.setComb c x).ctl.pilot = s.ctl.pilot := rfl
@[simp] theorem State.setComb_ctl_hk (c : ℕ) (x : Comb) : (s.setComb c x).ctl.hk = s.ctl.hk := rfl
@[simp] theorem State.setComb_ctl_eng (c : ℕ) (x : Comb) : (s.setComb c x).ctl.eng = s.ctl.eng := rfl
@[simp] theorem State.setComb_ctl_latches (c : ℕ) (x : Comb) : (s.setComb c x).ctl.latches = s.ctl.latches := rfl

@[simp] theorem State.setOut_ctl_lanes (o : ℕ) (x : Out) : (s.setOut o x).ctl.lanes = s.ctl.lanes := rfl
@[simp] theorem State.setOut_ctl_dacs (o : ℕ) (x : Out) : (s.setOut o x).ctl.dacs = s.ctl.dacs := rfl
@[simp] theorem State.setOut_ctl_combs (o : ℕ) (x : Out) : (s.setOut o x).ctl.combs = s.ctl.combs := rfl
@[simp] theorem State.setOut_ctl_plan (o : ℕ) (x : Out) : (s.setOut o x).ctl.plan = s.ctl.plan := rfl
@[simp] theorem State.setOut_ctl_csp (o : ℕ) (x : Out) : (s.setOut o x).ctl.csp = s.ctl.csp := rfl
@[simp] theorem State.setOut_ctl_cal (o : ℕ) (x : Out) : (s.setOut o x).ctl.cal = s.ctl.cal := rfl
@[simp] theorem State.setOut_ctl_flt (o : ℕ) (x : Out) : (s.setOut o x).ctl.flt = s.ctl.flt := rfl
@[simp] theorem State.setOut_ctl_safe (o : ℕ) (x : Out) : (s.setOut o x).ctl.safe = s.ctl.safe := rfl
@[simp] theorem State.setOut_ctl_boot (o : ℕ) (x : Out) : (s.setOut o x).ctl.boot = s.ctl.boot := rfl
@[simp] theorem State.setOut_ctl_pilot (o : ℕ) (x : Out) : (s.setOut o x).ctl.pilot = s.ctl.pilot := rfl
@[simp] theorem State.setOut_ctl_hk (o : ℕ) (x : Out) : (s.setOut o x).ctl.hk = s.ctl.hk := rfl
@[simp] theorem State.setOut_ctl_eng (o : ℕ) (x : Out) : (s.setOut o x).ctl.eng = s.ctl.eng := rfl
@[simp] theorem State.setOut_ctl_latches (o : ℕ) (x : Out) : (s.setOut o x).ctl.latches = s.ctl.latches := rfl

@[simp] theorem State.setPlan_ctl_lanes (x : PlanUnit) : (s.setPlan x).ctl.lanes = s.ctl.lanes := rfl
@[simp] theorem State.setPlan_ctl_dacs (x : PlanUnit) : (s.setPlan x).ctl.dacs = s.ctl.dacs := rfl
@[simp] theorem State.setPlan_ctl_combs (x : PlanUnit) : (s.setPlan x).ctl.combs = s.ctl.combs := rfl
@[simp] theorem State.setPlan_ctl_outs (x : PlanUnit) : (s.setPlan x).ctl.outs = s.ctl.outs := rfl
@[simp] theorem State.setPlan_ctl_plan (x : PlanUnit) : (s.setPlan x).ctl.plan = x := rfl
@[simp] theorem State.setPlan_ctl_csp (x : PlanUnit) : (s.setPlan x).ctl.csp = s.ctl.csp := rfl
@[simp] theorem State.setPlan_ctl_cal (x : PlanUnit) : (s.setPlan x).ctl.cal = s.ctl.cal := rfl
@[simp] theorem State.setPlan_ctl_flt (x : PlanUnit) : (s.setPlan x).ctl.flt = s.ctl.flt := rfl
@[simp] theorem State.setPlan_ctl_safe (x : PlanUnit) : (s.setPlan x).ctl.safe = s.ctl.safe := rfl
@[simp] theorem State.setPlan_ctl_boot (x : PlanUnit) : (s.setPlan x).ctl.boot = s.ctl.boot := rfl
@[simp] theorem State.setPlan_ctl_pilot (x : PlanUnit) : (s.setPlan x).ctl.pilot = s.ctl.pilot := rfl
@[simp] theorem State.setPlan_ctl_hk (x : PlanUnit) : (s.setPlan x).ctl.hk = s.ctl.hk := rfl
@[simp] theorem State.setPlan_ctl_eng (x : PlanUnit) : (s.setPlan x).ctl.eng = s.ctl.eng := rfl
@[simp] theorem State.setPlan_ctl_latches (x : PlanUnit) : (s.setPlan x).ctl.latches = s.ctl.latches := rfl

@[simp] theorem State.setBoot_ctl_lanes (x : BootUnit) : (s.setBoot x).ctl.lanes = s.ctl.lanes := rfl
@[simp] theorem State.setBoot_ctl_dacs (x : BootUnit) : (s.setBoot x).ctl.dacs = s.ctl.dacs := rfl
@[simp] theorem State.setBoot_ctl_combs (x : BootUnit) : (s.setBoot x).ctl.combs = s.ctl.combs := rfl
@[simp] theorem State.setBoot_ctl_outs (x : BootUnit) : (s.setBoot x).ctl.outs = s.ctl.outs := rfl
@[simp] theorem State.setBoot_ctl_plan (x : BootUnit) : (s.setBoot x).ctl.plan = s.ctl.plan := rfl
@[simp] theorem State.setBoot_ctl_csp (x : BootUnit) : (s.setBoot x).ctl.csp = s.ctl.csp := rfl
@[simp] theorem State.setBoot_ctl_cal (x : BootUnit) : (s.setBoot x).ctl.cal = s.ctl.cal := rfl
@[simp] theorem State.setBoot_ctl_flt (x : BootUnit) : (s.setBoot x).ctl.flt = s.ctl.flt := rfl
@[simp] theorem State.setBoot_ctl_safe (x : BootUnit) : (s.setBoot x).ctl.safe = s.ctl.safe := rfl
@[simp] theorem State.setBoot_ctl_boot (x : BootUnit) : (s.setBoot x).ctl.boot = x := rfl
@[simp] theorem State.setBoot_ctl_pilot (x : BootUnit) : (s.setBoot x).ctl.pilot = s.ctl.pilot := rfl
@[simp] theorem State.setBoot_ctl_hk (x : BootUnit) : (s.setBoot x).ctl.hk = s.ctl.hk := rfl
@[simp] theorem State.setBoot_ctl_eng (x : BootUnit) : (s.setBoot x).ctl.eng = s.ctl.eng := rfl
@[simp] theorem State.setBoot_ctl_latches (x : BootUnit) : (s.setBoot x).ctl.latches = s.ctl.latches := rfl

@[simp] theorem State.setFlt_ctl_lanes (x : FltUnit) : (s.setFlt x).ctl.lanes = s.ctl.lanes := rfl
@[simp] theorem State.setFlt_ctl_dacs (x : FltUnit) : (s.setFlt x).ctl.dacs = s.ctl.dacs := rfl
@[simp] theorem State.setFlt_ctl_combs (x : FltUnit) : (s.setFlt x).ctl.combs = s.ctl.combs := rfl
@[simp] theorem State.setFlt_ctl_outs (x : FltUnit) : (s.setFlt x).ctl.outs = s.ctl.outs := rfl
@[simp] theorem State.setFlt_ctl_plan (x : FltUnit) : (s.setFlt x).ctl.plan = s.ctl.plan := rfl
@[simp] theorem State.setFlt_ctl_csp (x : FltUnit) : (s.setFlt x).ctl.csp = s.ctl.csp := rfl
@[simp] theorem State.setFlt_ctl_cal (x : FltUnit) : (s.setFlt x).ctl.cal = s.ctl.cal := rfl
@[simp] theorem State.setFlt_ctl_flt (x : FltUnit) : (s.setFlt x).ctl.flt = x := rfl
@[simp] theorem State.setFlt_ctl_safe (x : FltUnit) : (s.setFlt x).ctl.safe = s.ctl.safe := rfl
@[simp] theorem State.setFlt_ctl_boot (x : FltUnit) : (s.setFlt x).ctl.boot = s.ctl.boot := rfl
@[simp] theorem State.setFlt_ctl_pilot (x : FltUnit) : (s.setFlt x).ctl.pilot = s.ctl.pilot := rfl
@[simp] theorem State.setFlt_ctl_hk (x : FltUnit) : (s.setFlt x).ctl.hk = s.ctl.hk := rfl
@[simp] theorem State.setFlt_ctl_eng (x : FltUnit) : (s.setFlt x).ctl.eng = s.ctl.eng := rfl
@[simp] theorem State.setFlt_ctl_latches (x : FltUnit) : (s.setFlt x).ctl.latches = s.ctl.latches := rfl

@[simp] theorem State.setSafe_ctl_lanes (x : SafeUnit) : (s.setSafe x).ctl.lanes = s.ctl.lanes := rfl
@[simp] theorem State.setSafe_ctl_dacs (x : SafeUnit) : (s.setSafe x).ctl.dacs = s.ctl.dacs := rfl
@[simp] theorem State.setSafe_ctl_combs (x : SafeUnit) : (s.setSafe x).ctl.combs = s.ctl.combs := rfl
@[simp] theorem State.setSafe_ctl_outs (x : SafeUnit) : (s.setSafe x).ctl.outs = s.ctl.outs := rfl
@[simp] theorem State.setSafe_ctl_plan (x : SafeUnit) : (s.setSafe x).ctl.plan = s.ctl.plan := rfl
@[simp] theorem State.setSafe_ctl_csp (x : SafeUnit) : (s.setSafe x).ctl.csp = s.ctl.csp := rfl
@[simp] theorem State.setSafe_ctl_cal (x : SafeUnit) : (s.setSafe x).ctl.cal = s.ctl.cal := rfl
@[simp] theorem State.setSafe_ctl_flt (x : SafeUnit) : (s.setSafe x).ctl.flt = s.ctl.flt := rfl
@[simp] theorem State.setSafe_ctl_safe (x : SafeUnit) : (s.setSafe x).ctl.safe = x := rfl
@[simp] theorem State.setSafe_ctl_boot (x : SafeUnit) : (s.setSafe x).ctl.boot = s.ctl.boot := rfl
@[simp] theorem State.setSafe_ctl_pilot (x : SafeUnit) : (s.setSafe x).ctl.pilot = s.ctl.pilot := rfl
@[simp] theorem State.setSafe_ctl_hk (x : SafeUnit) : (s.setSafe x).ctl.hk = s.ctl.hk := rfl
@[simp] theorem State.setSafe_ctl_eng (x : SafeUnit) : (s.setSafe x).ctl.eng = s.ctl.eng := rfl
@[simp] theorem State.setSafe_ctl_latches (x : SafeUnit) : (s.setSafe x).ctl.latches = s.ctl.latches := rfl

@[simp] theorem State.setCsp_ctl_lanes (x : Csp) : (s.setCsp x).ctl.lanes = s.ctl.lanes := rfl
@[simp] theorem State.setCsp_ctl_dacs (x : Csp) : (s.setCsp x).ctl.dacs = s.ctl.dacs := rfl
@[simp] theorem State.setCsp_ctl_combs (x : Csp) : (s.setCsp x).ctl.combs = s.ctl.combs := rfl
@[simp] theorem State.setCsp_ctl_outs (x : Csp) : (s.setCsp x).ctl.outs = s.ctl.outs := rfl
@[simp] theorem State.setCsp_ctl_plan (x : Csp) : (s.setCsp x).ctl.plan = s.ctl.plan := rfl
@[simp] theorem State.setCsp_ctl_csp (x : Csp) : (s.setCsp x).ctl.csp = x := rfl
@[simp] theorem State.setCsp_ctl_cal (x : Csp) : (s.setCsp x).ctl.cal = s.ctl.cal := rfl
@[simp] theorem State.setCsp_ctl_flt (x : Csp) : (s.setCsp x).ctl.flt = s.ctl.flt := rfl
@[simp] theorem State.setCsp_ctl_safe (x : Csp) : (s.setCsp x).ctl.safe = s.ctl.safe := rfl
@[simp] theorem State.setCsp_ctl_boot (x : Csp) : (s.setCsp x).ctl.boot = s.ctl.boot := rfl
@[simp] theorem State.setCsp_ctl_pilot (x : Csp) : (s.setCsp x).ctl.pilot = s.ctl.pilot := rfl
@[simp] theorem State.setCsp_ctl_hk (x : Csp) : (s.setCsp x).ctl.hk = s.ctl.hk := rfl
@[simp] theorem State.setCsp_ctl_eng (x : Csp) : (s.setCsp x).ctl.eng = s.ctl.eng := rfl
@[simp] theorem State.setCsp_ctl_latches (x : Csp) : (s.setCsp x).ctl.latches = s.ctl.latches := rfl

@[simp] theorem State.setEng_ctl_lanes (c : ℕ) (x : Eng) : (s.setEng c x).ctl.lanes = s.ctl.lanes := rfl
@[simp] theorem State.setEng_ctl_dacs (c : ℕ) (x : Eng) : (s.setEng c x).ctl.dacs = s.ctl.dacs := rfl
@[simp] theorem State.setEng_ctl_combs (c : ℕ) (x : Eng) : (s.setEng c x).ctl.combs = s.ctl.combs := rfl
@[simp] theorem State.setEng_ctl_outs (c : ℕ) (x : Eng) : (s.setEng c x).ctl.outs = s.ctl.outs := rfl
@[simp] theorem State.setEng_ctl_plan (c : ℕ) (x : Eng) : (s.setEng c x).ctl.plan = s.ctl.plan := rfl
@[simp] theorem State.setEng_ctl_csp (c : ℕ) (x : Eng) : (s.setEng c x).ctl.csp = s.ctl.csp := rfl
@[simp] theorem State.setEng_ctl_cal (c : ℕ) (x : Eng) : (s.setEng c x).ctl.cal = s.ctl.cal := rfl
@[simp] theorem State.setEng_ctl_flt (c : ℕ) (x : Eng) : (s.setEng c x).ctl.flt = s.ctl.flt := rfl
@[simp] theorem State.setEng_ctl_safe (c : ℕ) (x : Eng) : (s.setEng c x).ctl.safe = s.ctl.safe := rfl
@[simp] theorem State.setEng_ctl_boot (c : ℕ) (x : Eng) : (s.setEng c x).ctl.boot = s.ctl.boot := rfl
@[simp] theorem State.setEng_ctl_pilot (c : ℕ) (x : Eng) : (s.setEng c x).ctl.pilot = s.ctl.pilot := rfl
@[simp] theorem State.setEng_ctl_hk (c : ℕ) (x : Eng) : (s.setEng c x).ctl.hk = s.ctl.hk := rfl
@[simp] theorem State.setEng_ctl_latches (c : ℕ) (x : Eng) : (s.setEng c x).ctl.latches = s.ctl.latches := rfl

@[simp] theorem State.latch_ctl_lanes (view a n : ℕ) : (s.latch view a n).ctl.lanes = s.ctl.lanes := rfl
@[simp] theorem State.latch_ctl_dacs (view a n : ℕ) : (s.latch view a n).ctl.dacs = s.ctl.dacs := rfl
@[simp] theorem State.latch_ctl_combs (view a n : ℕ) : (s.latch view a n).ctl.combs = s.ctl.combs := rfl
@[simp] theorem State.latch_ctl_outs (view a n : ℕ) : (s.latch view a n).ctl.outs = s.ctl.outs := rfl
@[simp] theorem State.latch_ctl_plan (view a n : ℕ) : (s.latch view a n).ctl.plan = s.ctl.plan := rfl
@[simp] theorem State.latch_ctl_csp (view a n : ℕ) : (s.latch view a n).ctl.csp = s.ctl.csp := rfl
@[simp] theorem State.latch_ctl_cal (view a n : ℕ) : (s.latch view a n).ctl.cal = s.ctl.cal := rfl
@[simp] theorem State.latch_ctl_flt (view a n : ℕ) : (s.latch view a n).ctl.flt = s.ctl.flt := rfl
@[simp] theorem State.latch_ctl_safe (view a n : ℕ) : (s.latch view a n).ctl.safe = s.ctl.safe := rfl
@[simp] theorem State.latch_ctl_boot (view a n : ℕ) : (s.latch view a n).ctl.boot = s.ctl.boot := rfl
@[simp] theorem State.latch_ctl_pilot (view a n : ℕ) : (s.latch view a n).ctl.pilot = s.ctl.pilot := rfl
@[simp] theorem State.latch_ctl_hk (view a n : ℕ) : (s.latch view a n).ctl.hk = s.ctl.hk := rfl
@[simp] theorem State.latch_ctl_eng (view a n : ℕ) : (s.latch view a n).ctl.eng = s.ctl.eng := rfl

@[simp] theorem State.setSess_rd (q : ℕ) (x : Sess) (k : ℕ) : (s.setSess q x).rd k = s.rd k := rfl
@[simp] theorem State.setSess_get (q : ℕ) (x : Sess) (k : ℕ) (g : Field) : (s.setSess q x).get k g = s.get k g := rfl
@[simp] theorem State.setSess_flag (q : ℕ) (x : Sess) (k : ℕ) (g : Field) : (s.setSess q x).flag k g = s.flag k g := rfl

@[simp] theorem State.dropSess_rd (q : ℕ) (k : ℕ) : (s.dropSess q).rd k = s.rd k := rfl
@[simp] theorem State.dropSess_get (q : ℕ) (k : ℕ) (g : Field) : (s.dropSess q).get k g = s.get k g := rfl
@[simp] theorem State.dropSess_flag (q : ℕ) (k : ℕ) (g : Field) : (s.dropSess q).flag k g = s.flag k g := rfl

@[simp] theorem State.setQueue_rd (q : ℕ) (x : Queue) (k : ℕ) : (s.setQueue q x).rd k = s.rd k := rfl
@[simp] theorem State.setQueue_get (q : ℕ) (x : Queue) (k : ℕ) (g : Field) : (s.setQueue q x).get k g = s.get k g := rfl
@[simp] theorem State.setQueue_flag (q : ℕ) (x : Queue) (k : ℕ) (g : Field) : (s.setQueue q x).flag k g = s.flag k g := rfl

@[simp] theorem State.setSrx_rd (p : ℕ) (x : Srx) (k : ℕ) : (s.setSrx p x).rd k = s.rd k := rfl
@[simp] theorem State.setSrx_get (p : ℕ) (x : Srx) (k : ℕ) (g : Field) : (s.setSrx p x).get k g = s.get k g := rfl
@[simp] theorem State.setSrx_flag (p : ℕ) (x : Srx) (k : ℕ) (g : Field) : (s.setSrx p x).flag k g = s.flag k g := rfl

@[simp] theorem State.setTile_rd (t : ℕ) (x : TilePath) (k : ℕ) : (s.setTile t x).rd k = s.rd k := rfl
@[simp] theorem State.setTile_get (t : ℕ) (x : TilePath) (k : ℕ) (g : Field) : (s.setTile t x).get k g = s.get k g := rfl
@[simp] theorem State.setTile_flag (t : ℕ) (x : TilePath) (k : ℕ) (g : Field) : (s.setTile t x).flag k g = s.flag k g := rfl

@[simp] theorem State.setParkRes_rd (n : ℕ) (k : ℕ) : (s.setParkRes n).rd k = s.rd k := rfl
@[simp] theorem State.setParkRes_get (n : ℕ) (k : ℕ) (g : Field) : (s.setParkRes n).get k g = s.get k g := rfl
@[simp] theorem State.setParkRes_flag (n : ℕ) (k : ℕ) (g : Field) : (s.setParkRes n).flag k g = s.flag k g := rfl

@[simp] theorem State.setCpNum_rd (n : ℕ) (k : ℕ) : (s.setCpNum n).rd k = s.rd k := rfl
@[simp] theorem State.setCpNum_get (n : ℕ) (k : ℕ) (g : Field) : (s.setCpNum n).get k g = s.get k g := rfl
@[simp] theorem State.setCpNum_flag (n : ℕ) (k : ℕ) (g : Field) : (s.setCpNum n).flag k g = s.flag k g := rfl

@[simp] theorem State.seal_rd (f : Flash → Flash) (k : ℕ) : (s.seal f).rd k = s.rd k := rfl
@[simp] theorem State.seal_get (f : Flash → Flash) (k : ℕ) (g : Field) : (s.seal f).get k g = s.get k g := rfl
@[simp] theorem State.seal_flag (f : Flash → Flash) (k : ℕ) (g : Field) : (s.seal f).flag k g = s.flag k g := rfl

@[simp] theorem State.setPair_rd (x : PairUnit) (k : ℕ) : (s.setPair x).rd k = s.rd k := rfl
@[simp] theorem State.setPair_get (x : PairUnit) (k : ℕ) (g : Field) : (s.setPair x).get k g = s.get k g := rfl
@[simp] theorem State.setPair_flag (x : PairUnit) (k : ℕ) (g : Field) : (s.setPair x).flag k g = s.flag k g := rfl

@[simp] theorem State.setLane_rd (e : ℕ) (x : Lane) (k : ℕ) : (s.setLane e x).rd k = s.rd k := rfl
@[simp] theorem State.setLane_get (e : ℕ) (x : Lane) (k : ℕ) (g : Field) : (s.setLane e x).get k g = s.get k g := rfl
@[simp] theorem State.setLane_flag (e : ℕ) (x : Lane) (k : ℕ) (g : Field) : (s.setLane e x).flag k g = s.flag k g := rfl

@[simp] theorem State.mapLanes_rd (f : ℕ → Lane → Lane) (k : ℕ) : (s.mapLanes f).rd k = s.rd k := rfl
@[simp] theorem State.mapLanes_get (f : ℕ → Lane → Lane) (k : ℕ) (g : Field) : (s.mapLanes f).get k g = s.get k g := rfl
@[simp] theorem State.mapLanes_flag (f : ℕ → Lane → Lane) (k : ℕ) (g : Field) : (s.mapLanes f).flag k g = s.flag k g := rfl

@[simp] theorem State.mapComb_rd (c : ℕ) (f : ℕ → Lane → Lane) (k : ℕ) : (s.mapComb c f).rd k = s.rd k := rfl
@[simp] theorem State.mapComb_get (c : ℕ) (f : ℕ → Lane → Lane) (k : ℕ) (g : Field) : (s.mapComb c f).get k g = s.get k g := rfl
@[simp] theorem State.mapComb_flag (c : ℕ) (f : ℕ → Lane → Lane) (k : ℕ) (g : Field) : (s.mapComb c f).flag k g = s.flag k g := rfl

@[simp] theorem State.setComb_rd (c : ℕ) (x : Comb) (k : ℕ) : (s.setComb c x).rd k = s.rd k := rfl
@[simp] theorem State.setComb_get (c : ℕ) (x : Comb) (k : ℕ) (g : Field) : (s.setComb c x).get k g = s.get k g := rfl
@[simp] theorem State.setComb_flag (c : ℕ) (x : Comb) (k : ℕ) (g : Field) : (s.setComb c x).flag k g = s.flag k g := rfl

@[simp] theorem State.mapCombs_rd (f : ℕ → Comb → Comb) (k : ℕ) : (s.mapCombs f).rd k = s.rd k := rfl
@[simp] theorem State.mapCombs_get (f : ℕ → Comb → Comb) (k : ℕ) (g : Field) : (s.mapCombs f).get k g = s.get k g := rfl
@[simp] theorem State.mapCombs_flag (f : ℕ → Comb → Comb) (k : ℕ) (g : Field) : (s.mapCombs f).flag k g = s.flag k g := rfl

@[simp] theorem State.setOut_rd (o : ℕ) (x : Out) (k : ℕ) : (s.setOut o x).rd k = s.rd k := rfl
@[simp] theorem State.setOut_get (o : ℕ) (x : Out) (k : ℕ) (g : Field) : (s.setOut o x).get k g = s.get k g := rfl
@[simp] theorem State.setOut_flag (o : ℕ) (x : Out) (k : ℕ) (g : Field) : (s.setOut o x).flag k g = s.flag k g := rfl

@[simp] theorem State.setPlan_rd (x : PlanUnit) (k : ℕ) : (s.setPlan x).rd k = s.rd k := rfl
@[simp] theorem State.setPlan_get (x : PlanUnit) (k : ℕ) (g : Field) : (s.setPlan x).get k g = s.get k g := rfl
@[simp] theorem State.setPlan_flag (x : PlanUnit) (k : ℕ) (g : Field) : (s.setPlan x).flag k g = s.flag k g := rfl

@[simp] theorem State.setBoot_rd (x : BootUnit) (k : ℕ) : (s.setBoot x).rd k = s.rd k := rfl
@[simp] theorem State.setBoot_get (x : BootUnit) (k : ℕ) (g : Field) : (s.setBoot x).get k g = s.get k g := rfl
@[simp] theorem State.setBoot_flag (x : BootUnit) (k : ℕ) (g : Field) : (s.setBoot x).flag k g = s.flag k g := rfl

@[simp] theorem State.setFlt_rd (x : FltUnit) (k : ℕ) : (s.setFlt x).rd k = s.rd k := rfl
@[simp] theorem State.setFlt_get (x : FltUnit) (k : ℕ) (g : Field) : (s.setFlt x).get k g = s.get k g := rfl
@[simp] theorem State.setFlt_flag (x : FltUnit) (k : ℕ) (g : Field) : (s.setFlt x).flag k g = s.flag k g := rfl

@[simp] theorem State.setSafe_rd (x : SafeUnit) (k : ℕ) : (s.setSafe x).rd k = s.rd k := rfl
@[simp] theorem State.setSafe_get (x : SafeUnit) (k : ℕ) (g : Field) : (s.setSafe x).get k g = s.get k g := rfl
@[simp] theorem State.setSafe_flag (x : SafeUnit) (k : ℕ) (g : Field) : (s.setSafe x).flag k g = s.flag k g := rfl

@[simp] theorem State.setCsp_rd (x : Csp) (k : ℕ) : (s.setCsp x).rd k = s.rd k := rfl
@[simp] theorem State.setCsp_get (x : Csp) (k : ℕ) (g : Field) : (s.setCsp x).get k g = s.get k g := rfl
@[simp] theorem State.setCsp_flag (x : Csp) (k : ℕ) (g : Field) : (s.setCsp x).flag k g = s.flag k g := rfl

@[simp] theorem State.setEng_rd (c : ℕ) (x : Eng) (k : ℕ) : (s.setEng c x).rd k = s.rd k := rfl
@[simp] theorem State.setEng_get (c : ℕ) (x : Eng) (k : ℕ) (g : Field) : (s.setEng c x).get k g = s.get k g := rfl
@[simp] theorem State.setEng_flag (c : ℕ) (x : Eng) (k : ℕ) (g : Field) : (s.setEng c x).flag k g = s.flag k g := rfl

@[simp] theorem State.latch_rd (view a n : ℕ) (k : ℕ) : (s.latch view a n).rd k = s.rd k := rfl
@[simp] theorem State.latch_get (view a n : ℕ) (k : ℕ) (g : Field) : (s.latch view a n).get k g = s.get k g := rfl
@[simp] theorem State.latch_flag (view a n : ℕ) (k : ℕ) (g : Field) : (s.latch view a n).flag k g = s.flag k g := rfl

@[simp] theorem State.onDom_rd (d : Dom) (f : Domain → Domain) (k : ℕ) : (s.onDom d f).rd k = s.rd k := rfl
@[simp] theorem State.onDom_get (d : Dom) (f : Domain → Domain) (k : ℕ) (g : Field) : (s.onDom d f).get k g = s.get k g := rfl
@[simp] theorem State.onDom_flag (d : Dom) (f : Domain → Domain) (k : ℕ) (g : Field) : (s.onDom d f).flag k g = s.flag k g := rfl

@[simp] theorem State.notice_variant (c : ℕ) : (s.notice c).variant = s.variant := rfl
@[simp] theorem State.notice_free (c : ℕ) : (s.notice c).free = s.free := rfl
@[simp] theorem State.notice_tick (c : ℕ) : (s.notice c).tick = s.tick := rfl
@[simp] theorem State.notice_regs (c : ℕ) : (s.notice c).regs = s.regs := rfl
@[simp] theorem State.notice_time (c : ℕ) : (s.notice c).time = s.time := rfl
@[simp] theorem State.notice_host (c : ℕ) : (s.notice c).host = s.host := rfl
@[simp] theorem State.notice_exp (c : ℕ) : (s.notice c).exp = s.exp := rfl
@[simp] theorem State.notice_led (c : ℕ) : (s.notice c).led = s.led := rfl
@[simp] theorem State.notice_flash (c : ℕ) : (s.notice c).flash = s.flash := rfl
@[simp] theorem State.notice_pair (c : ℕ) : (s.notice c).pair = s.pair := rfl
@[simp] theorem State.notice_ctl (c : ℕ) : (s.notice c).ctl = s.ctl := rfl
@[simp] theorem State.notice_readData (c : ℕ) : (s.notice c).readData = s.readData := rfl
@[simp] theorem State.notice_pending (c : ℕ) : (s.notice c).pending = s.pending := rfl

@[simp] theorem State.readSlots_variant : s.readSlots.variant = s.variant := rfl
@[simp] theorem State.readSlots_free : s.readSlots.free = s.free := rfl
@[simp] theorem State.readSlots_tick : s.readSlots.tick = s.tick := rfl
@[simp] theorem State.readSlots_regs : s.readSlots.regs = s.regs := rfl
@[simp] theorem State.readSlots_time : s.readSlots.time = s.time := rfl
@[simp] theorem State.readSlots_host : s.readSlots.host = s.host := rfl
@[simp] theorem State.readSlots_exp : s.readSlots.exp = s.exp := rfl
@[simp] theorem State.readSlots_led : s.readSlots.led = s.led := rfl
@[simp] theorem State.readSlots_flash : s.readSlots.flash = s.flash := rfl
@[simp] theorem State.readSlots_pair : s.readSlots.pair = s.pair := rfl
@[simp] theorem State.readSlots_ctl : s.readSlots.ctl = s.ctl := rfl
@[simp] theorem State.readSlots_readData : s.readSlots.readData = s.readData := rfl
@[simp] theorem State.readSlots_pending : s.readSlots.pending = s.pending := rfl

@[simp] theorem State.clearGo_variant : s.clearGo.variant = s.variant := rfl
@[simp] theorem State.clearGo_free : s.clearGo.free = s.free := rfl
@[simp] theorem State.clearGo_tick : s.clearGo.tick = s.tick := rfl
@[simp] theorem State.clearGo_regs : s.clearGo.regs = s.regs := rfl
@[simp] theorem State.clearGo_time : s.clearGo.time = s.time := rfl
@[simp] theorem State.clearGo_host : s.clearGo.host = s.host := rfl
@[simp] theorem State.clearGo_exp : s.clearGo.exp = s.exp := rfl
@[simp] theorem State.clearGo_led : s.clearGo.led = s.led := rfl
@[simp] theorem State.clearGo_flash : s.clearGo.flash = s.flash := rfl
@[simp] theorem State.clearGo_pair : s.clearGo.pair = s.pair := rfl
@[simp] theorem State.clearGo_readData : s.clearGo.readData = s.readData := rfl
@[simp] theorem State.clearGo_pending : s.clearGo.pending = s.pending := rfl
@[simp] theorem State.clearGo_bus : s.clearGo.bus = s.bus := rfl
@[simp] theorem State.clearGo_ctl_lanes : s.clearGo.ctl.lanes = s.ctl.lanes := rfl
@[simp] theorem State.clearGo_ctl_combs : s.clearGo.ctl.combs = s.ctl.combs := rfl
@[simp] theorem State.clearGo_ctl_outs : s.clearGo.ctl.outs = s.ctl.outs := rfl
@[simp] theorem State.clearGo_ctl_plan : s.clearGo.ctl.plan = s.ctl.plan := rfl
@[simp] theorem State.clearGo_ctl_boot : s.clearGo.ctl.boot = s.ctl.boot := rfl
@[simp] theorem State.clearGo_ctl_flt : s.clearGo.ctl.flt = s.ctl.flt := rfl
@[simp] theorem State.clearGo_ctl_cal : s.clearGo.ctl.cal = s.ctl.cal := rfl
@[simp] theorem State.clearGo_ctl_safe : s.clearGo.ctl.safe = s.ctl.safe := rfl
@[simp] theorem State.clearGo_ctl_eng : s.clearGo.ctl.eng = s.ctl.eng := rfl

@[simp] theorem State.cfgStore_variant (fn off n : ℕ) : (s.cfgStore fn off n).variant = s.variant := rfl
@[simp] theorem State.cfgStore_free (fn off n : ℕ) : (s.cfgStore fn off n).free = s.free := rfl
@[simp] theorem State.cfgStore_tick (fn off n : ℕ) : (s.cfgStore fn off n).tick = s.tick := rfl
@[simp] theorem State.cfgStore_regs (fn off n : ℕ) : (s.cfgStore fn off n).regs = s.regs := rfl
@[simp] theorem State.cfgStore_time (fn off n : ℕ) : (s.cfgStore fn off n).time = s.time := rfl
@[simp] theorem State.cfgStore_exp (fn off n : ℕ) : (s.cfgStore fn off n).exp = s.exp := rfl
@[simp] theorem State.cfgStore_led (fn off n : ℕ) : (s.cfgStore fn off n).led = s.led := rfl
@[simp] theorem State.cfgStore_flash (fn off n : ℕ) : (s.cfgStore fn off n).flash = s.flash := rfl
@[simp] theorem State.cfgStore_pair (fn off n : ℕ) : (s.cfgStore fn off n).pair = s.pair := rfl
@[simp] theorem State.cfgStore_ctl (fn off n : ℕ) : (s.cfgStore fn off n).ctl = s.ctl := rfl
@[simp] theorem State.cfgStore_readData (fn off n : ℕ) : (s.cfgStore fn off n).readData = s.readData := rfl
@[simp] theorem State.cfgStore_bus (fn off n : ℕ) : (s.cfgStore fn off n).bus = s.bus := rfl
@[simp] theorem State.cfgStore_pending (fn off n : ℕ) : (s.cfgStore fn off n).pending = s.pending := rfl

@[simp] theorem State.resetCfg_variant (p : ℕ → Bool) : (s.resetCfg p).variant = s.variant := rfl
@[simp] theorem State.resetCfg_free (p : ℕ → Bool) : (s.resetCfg p).free = s.free := rfl
@[simp] theorem State.resetCfg_tick (p : ℕ → Bool) : (s.resetCfg p).tick = s.tick := rfl
@[simp] theorem State.resetCfg_regs (p : ℕ → Bool) : (s.resetCfg p).regs = s.regs := rfl
@[simp] theorem State.resetCfg_time (p : ℕ → Bool) : (s.resetCfg p).time = s.time := rfl
@[simp] theorem State.resetCfg_exp (p : ℕ → Bool) : (s.resetCfg p).exp = s.exp := rfl
@[simp] theorem State.resetCfg_led (p : ℕ → Bool) : (s.resetCfg p).led = s.led := rfl
@[simp] theorem State.resetCfg_flash (p : ℕ → Bool) : (s.resetCfg p).flash = s.flash := rfl
@[simp] theorem State.resetCfg_pair (p : ℕ → Bool) : (s.resetCfg p).pair = s.pair := rfl
@[simp] theorem State.resetCfg_ctl (p : ℕ → Bool) : (s.resetCfg p).ctl = s.ctl := rfl
@[simp] theorem State.resetCfg_readData (p : ℕ → Bool) : (s.resetCfg p).readData = s.readData := rfl
@[simp] theorem State.resetCfg_bus (p : ℕ → Bool) : (s.resetCfg p).bus = s.bus := rfl
@[simp] theorem State.resetCfg_pending (p : ℕ → Bool) : (s.resetCfg p).pending = s.pending := rfl

end Sys2Proof.Machine
end

