-- ==== Sys2Proof/Laws/Tables.lean ====
section
/-! SUPPORT. Laws of the tables of lanes, combs and outputs: what is read after a write. -/

namespace Sys2Proof.Machine

variable {s : State}

theorem Ctl.lanesWf {x : Ctl} (h : x.tablesWf = true) : SMap.wf (fun _ => ({} : Lane)) x.lanes = true := by
  unfold Ctl.tablesWf at h
  simp only [Bool.and_eq_true] at h
  exact h.1.1

theorem Ctl.combsWf {x : Ctl} (h : x.tablesWf = true) : SMap.wf (fun _ => ({} : Comb)) x.combs = true := by
  unfold Ctl.tablesWf at h
  simp only [Bool.and_eq_true] at h
  exact h.1.2

theorem Ctl.outsWf {x : Ctl} (h : x.tablesWf = true) : SMap.wf (fun _ => ({} : Out)) x.outs = true := by
  unfold Ctl.tablesWf at h
  simp only [Bool.and_eq_true] at h
  exact h.2

/-- The lane written reads as written. -/
theorem State.lane_setLane_same (h : s.ctl.tablesWf = true) (e : ℕ) (x : Lane) : (s.setLane e x).lane e = x :=
  SMap.find_put_same (d := fun _ => ({} : Lane)) s.ctl.lanes e x (Ctl.lanesWf h)

/-- Every other lane reads as before. -/
theorem State.lane_setLane_other (h : s.ctl.tablesWf = true) (e e' : ℕ) (x : Lane) (hne : e' ≠ e) :
    (s.setLane e x).lane e' = s.lane e' :=
  SMap.find_put_other (d := fun _ => ({} : Lane)) _ s.ctl.lanes e e' x hne (Ctl.lanesWf h)

theorem State.lane_onLane_same (h : s.ctl.tablesWf = true) (e : ℕ) (f : Lane → Lane) : (s.onLane e f).lane e = f (s.lane e) :=
  State.lane_setLane_same h e _

theorem State.lane_onLane_other (h : s.ctl.tablesWf = true) (e e' : ℕ) (f : Lane → Lane) (hne : e' ≠ e) :
    (s.onLane e f).lane e' = s.lane e' := State.lane_setLane_other h e e' _ hne

/-- The comb written reads as written. -/
theorem State.comb_setComb_same (h : s.ctl.tablesWf = true) (c : ℕ) (x : Comb) : (s.setComb c x).comb c = x :=
  SMap.find_put_same (d := fun _ => ({} : Comb)) s.ctl.combs c x (Ctl.combsWf h)

/-- Every other comb reads as before. -/
theorem State.comb_setComb_other (h : s.ctl.tablesWf = true) (c c' : ℕ) (x : Comb) (hne : c' ≠ c) :
    (s.setComb c x).comb c' = s.comb c' :=
  SMap.find_put_other (d := fun _ => ({} : Comb)) _ s.ctl.combs c c' x hne (Ctl.combsWf h)

theorem State.comb_onComb_same (h : s.ctl.tablesWf = true) (c : ℕ) (f : Comb → Comb) : (s.onComb c f).comb c = f (s.comb c) :=
  State.comb_setComb_same h c _

theorem State.comb_onComb_other (h : s.ctl.tablesWf = true) (c c' : ℕ) (f : Comb → Comb) (hne : c' ≠ c) :
    (s.onComb c f).comb c' = s.comb c' := State.comb_setComb_other h c c' _ hne

/-- The output written reads as written. -/
theorem State.out_setOut_same (h : s.ctl.tablesWf = true) (o : ℕ) (x : Out) : (s.setOut o x).out o = x :=
  SMap.find_put_same (d := fun _ => ({} : Out)) s.ctl.outs o x (Ctl.outsWf h)

/-- Every other output reads as before. -/
theorem State.out_setOut_other (h : s.ctl.tablesWf = true) (o o' : ℕ) (x : Out) (hne : o' ≠ o) :
    (s.setOut o x).out o' = s.out o' :=
  SMap.find_put_other (d := fun _ => ({} : Out)) _ s.ctl.outs o o' x hne (Ctl.outsWf h)

end Sys2Proof.Machine
end

