-- ==== Sys2Proof/Tests/Slice0.lean ====
section
/-! SUPPORT. Tests: what well-formed commands are, the worked examples of the spec, and for every obligation with hypotheses a state
and operands that meet them, each clause at a boundary value of its range where it has one. Expected values of the worked examples are
those the spec prints. -/

open Sys2Proof Sys2Proof.Machine

namespace Sys2Proof.Tests

-- One test after another: each waiting in a thread of its own, they take more memory than the check allows.
set_option Elab.async false

/-! ## What well-formed commands are -/

theorem test_wf_refuses_sessions : Instr.wf (.sessionOpen (.window 64)) = false ∧ Instr.wf (.sessionOpen (.ring 4096)) = false
    ∧ Instr.wf (.planCommit 4096) = false ∧ Instr.wf (.commandFetch 0 (.entry [] none true)) = false ∧ Instr.wf (.commandFetch 4096 .failed) = false
    ∧ Instr.wf (.cmdTail ⟨64, 0⟩ 0) = false ∧ Instr.wf (.recHead ⟨0, 4096⟩ 0) = false ∧ Instr.wf (.msixModerationEnd 0 3) = false
    ∧ Instr.wf (.functionLevelReset 64) = false ∧ Instr.wf (.vfEnable 64) = false ∧ Instr.wf (.idleTimeout 4096) = false := by decide
theorem test_wf_refuses_units : Instr.wf (.iter ⟨144, 1⟩) = false ∧ Instr.wf (.calFit 143 64 1) = false ∧ Instr.wf (.fltRelLane 144 0) = false
    ∧ Instr.wf (.readOut 1024) = false ∧ Instr.wf (.powerMonitorWindow 512 0) = false ∧ Instr.wf (.powerMonitorWindow 0 256) = false
    ∧ Instr.wf (.housekeepingScan ⟨[], 1, 0⟩) = false ∧ Instr.wf (.pilotRefCapture 4294967296 0) = false ∧ Instr.wf (.tileLinkTransfer 4) = false
    ∧ Instr.wf (.lossRecord 2 0) = false ∧ Instr.wf (.channelSend 3) = false ∧ Instr.wf (.thermalConversion []) = false := by decide
theorem test_wf_refuses_others : Instr.wf (.tsInCapture 4 true 0) = false ∧ Instr.wf (.tsInCapture 0 true 16) = false ∧ Instr.wf (.capturePop 9) = false
    ∧ Instr.wf (.cmpFired 32) = false ∧ Instr.wf (.ppsEdge false 16) = false ∧ Instr.wf (.guardNDemand 4) = false ∧ Instr.wf (.kfbUnexpected 2 false) = false
    ∧ Instr.wf (.linkDown ⟨0, 0, 0, false, 0⟩) = false ∧ Instr.wf (.linkDown ⟨6, 0, 0, false, 0⟩) = false ∧ Instr.wf (.supplyFault 6) = false ∧ Instr.wf (.faultRepeat 256) = false
    ∧ Instr.wf (.health ⟨⟨0, []⟩, []⟩ []) = false ∧ Instr.wf (.readDev ⟨4, 0⟩) = false ∧ Instr.wf (.txPat 4 0) = false ∧ Instr.wf (.checkerLock ⟨4, []⟩) = false ∧ Instr.wf (.clr 2) = false
    ∧ Instr.wf (.rcRead 64 (.word 0)) = false ∧ Instr.wf (.rcRead 0 ⟨3, 2⟩) = false ∧ Instr.wf (.registerWrite 1 (.one 0)) = false := by decide
theorem test_wf_admits_bounds : Instr.wf (.sessionOpen (.window 63)) = true ∧ Instr.wf (.planCommit 4095) = true ∧ Instr.wf (.iter ⟨143, 0⟩) = true
    ∧ Instr.wf (.calFit 143 63 0) = true ∧ Instr.wf (.readOut 1023) = true ∧ Instr.wf (.powerMonitorWindow 511 255) = true
    ∧ Instr.wf (.linkDown ⟨5, 3, 64, true, 4⟩) = true ∧ Instr.wf (.channelSend 2) = true ∧ Instr.wf (.registerWrite 4 (.one 0)) = true ∧ Instr.wf (.rcRead 63 ⟨2, 2⟩) = true := by decide

/-! ## Worked examples of the spec -/

/-- R19: element 2,600 lies on tile 1, in comb group 0 of it. -/
theorem test_element_numbering : tileOf .t512 (2600 / 64) = 1 ∧ groupOf .t512 (2600 / 64) = 0 ∧ 2600 % 64 = 40 := by decide

/-- R28: the cells of that path that are CROSS. -/
theorem test_path_cross : ((List.range 17).filter fun s => pathCross 9 5 300 166 s) = [5, 6, 8, 10, 13, 16] := by decide

/-- R28, the worked path from I5 to O300 through middle row 166: its rows. -/
theorem test_path_rows : (List.range 17).map (pathRow 9 5 300 166) =
    [2, 129, 128, 160, 160, 160, 164, 166, 166, 167, 166, 164, 169, 178, 165, 203, 150] := by decide

/-- R65, R69, R70, the worked iteration of lane L12 of C45 (spec/04_holding_loops.md). -/
def calC45L12 : CalVals := ⟨[40, 38, 41], [16384, 16712, 16384], 328, 16548, 7412, 0x1A00⟩
def csC45 : Coeffs := ⟨0x4000, 0xCCD, 0x20000, 0x4000, -2147483648, 2147483647, 512, 100, 0, 16383⟩
def laneC45L12 : Lane := { sp := 10000, phiPrev := 9890, df := 196608, integ := 204800, hv := true, primeCnt := 2, st := 4 }

theorem test_tap_values : tapValues calC45L12 [⟨9040, 1⟩, ⟨3560, 1⟩, ⟨10100, 1⟩] = (144000, 57472, 160944) := by decide
theorem test_atan2pu : atan2pu 19638 14073 = 9898 := by decide
theorem test_iteration_code : (iterate calC45L12 csC45 laneC45L12 144000 57472 160944).1.committed = 8462 := by decide
theorem test_iteration_lane : (iterate calC45L12 csC45 laneC45L12 144000 57472 160944).1.phiEst = 9898
    ∧ (iterate calC45L12 csC45 laneC45L12 144000 57472 160944).1.df = 278528
    ∧ (iterate calC45L12 csC45 laneC45L12 144000 57472 160944).1.integ = 288363
    ∧ ((iterate calC45L12 csC45 laneC45L12 144000 57472 160944).1.judge 512).st = 5 := by decide

/-- R32, R104: no attenuation turns the gate by nothing, and values above 15.0 dB are taken as 15.0 dB. -/
theorem test_theta_att : thetaAtt 0 = 0 ∧ thetaAtt 200 = thetaAtt 150 := by decide

/-- AES-256 of one block under the key 00 01 … 1F, and AES-256-GCM of an empty text under a zero key and nonce: the examples the
standards print. -/
theorem test_aes_256 : aesBlock (aesKeys ((List.range 32).map fun i => BitVec.ofNat 8 i)) ((List.range 16).map fun i => BitVec.ofNat 8 (17 * i))
    = [0x8e, 0xa2, 0xb7, 0xca, 0x51, 0x67, 0x45, 0xbf, 0xea, 0xfc, 0x49, 0x90, 0x4b, 0x49, 0x60, 0x89] := by decide +kernel
theorem test_aes_256_gcm : gcmSeal (List.replicate 32 0) (List.replicate 12 0) [] []
    = [0x53, 0x0f, 0x8a, 0xfb, 0xc7, 0x45, 0x36, 0xb9, 0xa9, 0x63, 0xb4, 0xf1, 0xc4, 0xcb, 0x73, 0x8b] := by decide +kernel

/-- R105, the worked list: (I7 to O3), (I2 to O3), (I2 to O9), (I5 to O9) leave the one circuit I2 to O3. -/
theorem test_resolve : (resolve .t256 [⟨7, 3, 0⟩, ⟨2, 3, 0⟩, ⟨2, 9, 0⟩, ⟨5, 9, 0⟩]).zipIdx.filterMap
    (fun e => e.1.map fun c => (c.1, e.2)) = [(2, 3)] := by decide +kernel

/-- R113, the worked moves at the default limits: π lasts 600 ns, the largest move, 31,775 pu, 584 ns. -/
theorem test_move_durations : moveDs (resetWord .t512 Adr.MOVE_LIM) 32768 = 600
    ∧ moveDs (resetWord .t512 Adr.MOVE_LIM) 31775 = 584 := by decide +kernel

/-- R149, the worked adjustment: its first four shares are −16, −16, −16 and −15 units. -/
def adjDomain : Domain := { adjTotal := -9830400, adjN := 625000 }
theorem test_adjustment_shares :
    (adjDomain.step 1).1.adjDone = -16 ∧ ((adjDomain.step 1).1.step 2).1.adjDone = -32
    ∧ (((adjDomain.step 1).1.step 2).1.step 3).1.adjDone = -48
    ∧ ((((adjDomain.step 1).1.step 2).1.step 3).1.step 4).1.adjDone = -63 := by decide

/-- R159, the worked line KT,48000,37,0,6,0D. -/
theorem test_tod_line : todParse [0x4b, 0x54, 0x2c, 0x34, 0x38, 0x30, 0x30, 0x30, 0x2c, 0x33, 0x37, 0x2c, 0x30, 0x2c, 0x36,
    0x2c, 0x30, 0x44, 0x0d, 0x0a] = some (48000, 37, 0) := by decide
/-- The same line with another check is not used. -/
theorem test_tod_line_bad_check : todParse [0x4b, 0x54, 0x2c, 0x34, 0x38, 0x30, 0x30, 0x30, 0x2c, 0x33, 0x37, 0x2c, 0x30, 0x2c,
    0x36, 0x2c, 0x30, 0x45, 0x0d, 0x0a] = none := by decide

/-- R174, the worked digests. -/
theorem test_siphash : sipHash24 ((List.range 16).map (BitVec.ofNat 8)) ((List.range 15).map (BitVec.ofNat 8)) = 0xA129CA6149BE45E5 := by
  decide
theorem test_siphash_empty : sipHash24 ((List.range 16).map (BitVec.ofNat 8)) [] = 0x726FDB47DD0E0E31 := by decide

/-- R168, R169, the worked stamp of input I37. -/
def sStamp : State :=
  let s := { State.reset with time := { a := { sec := 2, ns := 0, frac := 0x40000000 } }, exp := { tpd := [(0, (560, 1))] } }
  (s.put (Adr.SRX_PDLY 37) Fl.SRX_PDLY_DELAY 0x4A3).put (Adr.SRX_PTC 37) Fl.SRX_PTC_TC 1500
theorem test_stamp : sStamp.stampOf 37 7 = (0x773593FC, 0x4C, false) := by decide
theorem test_stamp_header : headWord 0 0 1 37 2 = 0x00020960 := by decide

/-- R365, R366, the two worked addresses. -/
theorem test_addresses : Adr.LANE_STAT 45 12 = 0x4B5620 ∧ Adr.SRX_RULE 300 3 + 8 = 0x225938 := by decide

/-- R93, the worked Vπ of L12 of C45: both sweeps find their maxima, 14,068 and 756, in the middle. -/
def peak : List (List Int) := List.replicate 16 [0] ++ [[100]] ++ List.replicate 16 [0]
theorem test_vpi : vpiOf 7412 10740 { points := peak ++ peak } = (3328, false) := by decide +kernel

/-- R213, the worked ring across the index wrap: 160 of 256 entries are free, 161 are not. -/
theorem test_ring_free : ringFree 8 0xFFFFFFF0 0x50 160 = true ∧ ringFree 8 0xFFFFFFF0 0x50 161 = false := by decide
/-- A head beyond the tail is not taken. -/
theorem test_head_ok : headOk 0xFFFFFFF0 0x50 0x50 = true ∧ headOk 0xFFFFFFF0 0x50 0x60 = false := by decide

/-- R127, the worked late list: it starts in pass 5, at BASE + 1,250 ms. -/
def sLate : State := { State.reset with time := { a := { sec := 48001, ns := 12400000 } } }
def lateEntries : List (Nat × Nat) := [(0x10, 12500000), (0x11, 12500000), (0x12, 6250000)]
theorem test_late_list : (sLate.startList lateEntries 48000 0 31250000 0).list.pass = 5
    ∧ (sLate.startList lateEntries 48000 0 31250000 0).list.passNs = 48001250000000 := by decide

/-- R274: GENESIS opens a chain, and an entry with a wrong SEQ does not follow. -/
theorem test_chain : ¬ LEntry.follows { seq := 4 } { seq := 6, ty := 0x0020 } := by
  intro h; rcases h with h | h | h <;> revert h <;> decide

/-! ## Keys and signatures the tests need

One P-384 key pair stands for every signer. The signatures were made with it outside Lean (FIPS 186: ECDSA over SHA-384). -/

def key7 : List Byte := be 97 0x04283c1d7365ce4788f29f8ebf234edffead6fe997fbea5ffa2d58cc9dfa7b1c508b05526f55b9ebb2040f05b48fb6d0e19475c99061e41b88ba52efdb8c1690471a61d867ed799729d9c92cd01dbd225630d84ede32a78f9e64664cdac512ef8c
/-- A module made with that key, and with an image key of zeros. -/
def keys7 : Keys := ⟨key7, List.replicate 32 0, key7, 7, []⟩
def id7 : List Byte := be 32 0xd7759d5965e5bc63e87c3ce582bb36d7158df6f777e3c85fa24e0a3257e5dfba
theorem test_id7 : (sha384 key7).take 32 = id7 := by decide +kernel

/-! ## States the tests start from -/

/-- A powered DX512-T whose firmware runs, long after its start. -/
def sOn : State :=
  { State.reset with
    tick := 6250000000000
    ctl := { boot := { porLow := false, gwq := true } }
    regs := [(Adr.PWR_STAT, 0xffffffff)]
    host := { pcieUp := true } }

/-- `sOn` with the words of some registers. -/
def onWith (ws : List (Nat × Word)) : State := ws.foldl (fun s w => s.wr w.1 w.2) sOn

/-- With the comb units. -/
def onCtl (ws : List (Nat × Word)) (f : Ctl → Ctl) : State := { onWith ws with ctl := f sOn.ctl }

/-- The words that make comb 0 run. -/
def mcRun : Nat × Word := (Adr.MC_STAT 0, 1)

/-- A session numbered 5: OPEN, role and carrier as SESS codes them. -/
def sessWord (role carrier : Nat) : Word := BitVec.ofNat 32 (2 + 8 * role + 32 * carrier)

/-- `s` with session `q` as its one session, which is OPEN, of this role and carrier; PF0 may master the bus. -/
def openSess (q role carrier : Nat) (x : Sess) (s : State) : State :=
  { s.wr (Adr.SESS q) (sessWord role carrier) with host := { s.host with sess := [(q, x)], busMaster := [0] } }

/-- A command as taken from a ring: parameters at their descriptor offsets, its buffer as read. -/
def tk (op role : Nat) (ps : List (Nat × List Byte)) (buf : List Byte) : Taken :=
  ⟨op, 0, 7, 0x1000, buf.length, layout 40 (ps.map fun p => (p.1 - 24, p.2)), 0, buf, true, true, role, 0x3F, 0xff, .ready⟩

/-- Owner session 5 has taken this command. -/
def took (t : Taken) (s : State) : State := openSess 5 t.role 0 { mask := 0x3F, grant := 0xff, taken := some t } s

/-- `s` with these items held with inverted check bits, and these injections armed. -/
def withBad (items : List (Nat × Nat)) (inj : List (Nat × Nat × Bool)) (s : State) : State :=
  { s with ctl := { s.ctl with flt := { s.ctl.flt with badItems := items, inj := inj } } }

/-! ## Hypotheses that are met: fabric, drive, loops -/

/-- A SWITCH waits for the end of the tick, with these words of PILOT_CTL and PILOT_STAT. -/
def sSwitchOf (ctl stat : Word) : State := onCtl [(Adr.PILOT_CTL, ctl), (Adr.PILOT_STAT, stat)] fun c => { c with pilot := { switch := true } }
theorem test_hyp_pilot_switch_taken : (sSwitchOf 0 0x14).regsWf = true ∧ (sSwitchOf 0 0x14).bridgeOn = true ∧ (sSwitchOf 0 0x14).ctl.pilot.switch = true
    ∧ (sSwitchOf 0 0x14).forcedPilot = none ∧ (sSwitchOf 0 0x14).pilotIsOk (!(sSwitchOf 0 0x14).pilotSel) = true
    ∧ (sSwitchOf 0 0x14).boot.porLow = false ∧ (sSwitchOf 0 0x14).boot.dead = false ∧ sOn.ctl.pilot.switch = false := by decide
theorem test_hyp_pilot_switch_refused : (sSwitchOf 0 0).regsWf = true ∧ (sSwitchOf 0 0).bridgeOn = true
    ∧ (sSwitchOf 0 0).pilotIsOk (!(sSwitchOf 0 0).pilotSel) = false ∧ (sSwitchOf 1 0).regsWf = true ∧ (sSwitchOf 1 0).bridgeOn = true
    ∧ (sSwitchOf 1 0).forcedPilot ≠ none := by decide

/-- Both pilots OK, A selected, no NO_PILOT. -/
def sPilots : State := onWith [(Adr.PILOT_STAT, 0x06)]
theorem test_hyp_pilot_loss : sPilots.regsWf = true ∧ sPilots.powered 24 = true ∧ sPilots.pilotIsOk true = true
    ∧ sPilots.pilotSel = !true ∧ Pilots.of ⟨99, 99⟩ true < sPilots.pilotRef true - 30 ∧ ¬ Pilots.of ⟨100, 99⟩ false < sPilots.pilotRef false - 30
    ∧ ¬ Pilots.of ⟨100, 100⟩ true < sPilots.pilotRef true - 30 ∧ sPilots.pilotIsOk sPilots.pilotSel = true ∧ sPilots.pilotIsOk false = true ∧ sPilots.pilotSel = false ∧ sPilots.forcedPilot = none
    ∧ sPilots.pilotIsOk (!false) = true ∧ sPilots.classFor 0xB8 ≠ 2 ∧ sPilots.bridgeOn = true ∧ getBits 1 0 2 = 1 := by decide
theorem test_hyp_pilot_recovery : (onWith [(Adr.PILOT_STAT, 0x02)]).regsWf = true ∧ (onWith [(Adr.PILOT_STAT, 0x02)]).powered 24 = true
    ∧ sOn.pilotRef true - 20 ≤ Pilots.of ⟨0, 110⟩ true ∧ ¬ sOn.pilotRef false - 20 ≤ Pilots.of ⟨109, 110⟩ false ∧ sOn.pilotIsOk false = false
    ∧ (onWith [(Adr.PILOT_STAT, 0x02)]).pilotIsOk true = false ∧ (onWith [(Adr.PILOT_STAT, 0x02)]).noPilot = false
    ∧ sOn.pilotIsOk true = false ∧ sOn.noPilot = true ∧ sOn.forcedPilot = none ∧ sOn.powered 24 = true := by decide
theorem test_hyp_window_end : (onCtl [] fun c => { c with pilot := { windowEnd := some 5 } }).ctl.pilot.windowEnd = some 5
    ∧ 5 ≤ sOn.tick ∧ (onCtl [] fun c => { c with pilot := { windowEnd := some 5 } }).regsWf = true
    ∧ (onCtl [] fun c => { c with pilot := { windowEnd := some 5 } }).powered 24 = true := by decide
theorem test_hyp_pilot_capture : (onCtl [] fun c => { c with pilot := { recapture := true } }).ctl.pilot.recapture = true
    ∧ (onCtl [] fun c => { c with pilot := { recapture := true } }).regsWf = true
    ∧ (onCtl [] fun c => { c with pilot := { recapture := true } }).powered 24 = true := by decide
theorem test_hyp_power_monitor : 511 < numPorts sOn.variant ∧ sOn.powered (6 * (511 / 128) + 5) = true ∧ sOn.powered (6 * (0 / 128) + 5) = true
    ∧ sOn.get (Adr.IN_PWR 511) Fl.IN_PWR_WIN ≠ sOn.tick / 625000 % 65536
    ∧ (sOn.put (Adr.IN_PWR 511) Fl.IN_PWR_WIN 38528).get (Adr.IN_PWR 511) Fl.IN_PWR_WIN = sOn.tick / 625000 % 65536 := by
  decide

/-- VDD_DRV in range, EN set, a ramp under way. -/
def sRamp : State := onCtl [(Adr.DRV_CTL, 1), (Adr.DRV_STAT, 2)] fun c => { c with boot := { c.boot with rampEnd := some 5 } }
theorem test_hyp_drive_enable : (onWith [(Adr.DRV_STAT, 2)]).regsWf = true ∧ (onWith [(Adr.DRV_STAT, 2)]).bridgeOn = true
    ∧ (onWith [(Adr.DRV_STAT, 2)]).flag Adr.DRV_CTL Fl.DRV_CTL_EN = false
    ∧ (onWith [(Adr.DRV_STAT, 2)]).flag Adr.DRV_STAT Fl.DRV_STAT_DRV_PG = true
    ∧ (1 : Word).getLsbD 0 = true ∧ (0 : Word).getLsbD 0 = false := by decide
theorem test_hyp_drive_ramp : sRamp.regsWf = true ∧ sRamp.boot.rampEnd = some 5 ∧ 5 ≤ sRamp.tick ∧ sRamp.tick % 5 = 0
    ∧ ({ sRamp with tick := 6250000000001 } : State).tick % 5 ≠ 0 ∧ sOn.powered 24 = true
    ∧ sOn.regsWf = true ∧ sOn.flag Adr.DRV_STAT Fl.DRV_STAT_DRV_PG = false := by decide
theorem test_hyp_drv_clr : sOn.regsWf = true ∧ sOn.powered 24 = true ∧ sOn.clrLow = false ∧ (onWith [(Adr.DRV_STAT, 4)]).clrLow = true
    ∧ (onWith [(Adr.DRV_STAT, 4)]).regsWf = true ∧ (onWith [(Adr.DRV_STAT, 4)]).powered 24 = true := by decide

/-- A conversion of comb 143 under way on ADC B, which ends at that half-tick. -/
def conv (ends : Nat) : Conv := ⟨95, 95, 1, true, 255, false, ends, 0, 0, 32768⟩
def sConv (ends : Nat) : State := onCtl [] fun c => { c with combs := [(143, { curB := some (conv ends) })] }
theorem test_hyp_sense : (sConv 12500000000001).regsWf = true ∧ 143 < numCombs (sConv 1).variant
    ∧ (sConv 1).powered (combDomain (sConv 1).variant 143) = true
    ∧ ((sConv 1).comb 143).refAt ≤ (sConv 1).tick ∧ (sConv 1).answers (Adr.SENSE_CFG 143) = true
    ∧ ((sConv 12500000000001).comb 143).cur true = some (conv 12500000000001) ∧ (conv 12500000000001).ends ≤ 2 * sOn.tick + 1
    ∧ ((sConv 12500000000002).comb 143).cur true = some (conv 12500000000002) ∧ 2 * sOn.tick + 1 < (conv 12500000000002).ends
    ∧ (conv 1).entry < 96 ∧ (conv 1).pseq < 256 ∧ Photo.defined ⟨0, 0, 0⟩ (conv 1).ref = true ∧ (sConv 1).powered 24 = true
    ∧ (sConv 1).ctl.hk.scanEnd ≤ (sConv 1).tick ∧ HkIn.defined ⟨[], 0, 0⟩ sOn.ctl.hk.ref = true := by decide
/-- R51: full scale is the reference voltage across R_TIA: 12.5 µA into 100 kΩ is 1.25 V, and one LSB less stays below the clamp. -/
theorem test_photo_full_scale : Photo.raw ⟨12500000000, 0, 0⟩ 0 0 = 16384 ∧ Photo.raw ⟨12499237060, 0, 0⟩ 0 0 = 16383
    ∧ Photo.raw ⟨781250000, 0, 0⟩ 2 0 = 16384 := by decide

/-- Comb 0 at a boundary that is due, and comb 1 before its own. -/
def sBoundary : State := onCtl [] fun c => { c with
  combs := [(0, { boundary := 5 }), (1, { boundary := 6250000000001 }), (2, { boundary := 6250000000000, periodSet := true })] }
theorem test_hyp_boundary : sBoundary.regsWf = true ∧ sBoundary.ctl.tablesWf = true ∧ 0 < numCombs sBoundary.variant
    ∧ sBoundary.powered (combDomain sBoundary.variant 0) = true ∧ (sBoundary.comb 0).boundary ≠ 0
    ∧ (sBoundary.comb 0).boundary ≤ sBoundary.tick ∧ sBoundary.tick < (sBoundary.comb 1).boundary ∧ (sBoundary.comb 0).periodSet = false
    ∧ (sBoundary.comb 2).boundary ≤ sBoundary.tick ∧ (sBoundary.comb 2).periodSet = true := by decide

/-- Loaded microcode whose vectors 1 to 7 hold COMMIT FINAL, or ENTER: one step ends a routine's work, or leaves it on its way. -/
def mcOf (w : Nat) : SMap Nat := (List.range 8).map fun a => (a, w)
def commits : SMap Nat := mcOf 0xC11000
def enters : SMap Nat := mcOf 0xC00000
def withMicro (m : SMap Nat) (s : State) : State := { s with ctl := { s.ctl with boot := { s.ctl.boot with mcMicro := m } } }

/-- Lane 0 of comb 0 TRACKING with its three readings; `done` for one that has been served, `post` for one after a move. -/
def laneTracking : Lane := { st := 4, primeCnt := 2, hv := true, phiPrev := 9890, sp := 10000 }
def sIter (x : Lane) (pilot : Word) : State :=
  withMicro commits <| onCtl ([mcRun, (Adr.PILOT_STAT, pilot)] ++ (List.range 3).map fun t => (Adr.SENSE_RES_A 0 t, 0x46350))
    fun c => { c with lanes := [(0, x)], combs := [(0, { seqA := (List.range 3).map fun t => ((senseInput 0 t).2, 1), lenA := 3 })] }
theorem test_hyp_iteration : (sIter laneTracking 2).regsWf = true ∧ (sIter laneTracking 2).ctl.tablesWf = true
    ∧ (sIter laneTracking 2).serving 0 = true ∧ ((sIter laneTracking 2).accWaits 0).isEmpty = true
    ∧ (sIter laneTracking 2).nextPost 0 = none ∧ (sIter laneTracking 2).nextDue 0 = some 0
    ∧ (sIter laneTracking 2).flt.badWords = [] := by decide
theorem test_hyp_iteration_starts : (sIter laneTracking 2).starts 0 5 0 1 ∧ (sIter laneTracking 0x10).starts 0 5 0 1 :=
  ⟨⟨rfl, by decide, by decide, by decide, by decide, by decide, by decide⟩, rfl, by decide, by decide, by decide, by decide, by decide, by decide⟩
theorem test_hyp_iteration_readings : ∃ rs, (sIter laneTracking 2).readTaps 0 = .ok rs
    ∧ 4096 ≤ (tapValues ((sIter laneTracking 2).calOf 0) rs).1 + (tapValues ((sIter laneTracking 2).calOf 0) rs).2.1
    ∧ (iterate ((sIter laneTracking 2).calOf 0) ((sIter laneTracking 2).coeffOf 0) { laneTracking with served := true, consec := 0, postMove := none }
        (tapValues ((sIter laneTracking 2).calOf 0) rs).1 (tapValues ((sIter laneTracking 2).calOf 0) rs).2.1
        (tapValues ((sIter laneTracking 2).calOf 0) rs).2.2).2 = false := ⟨[⟨9040, 1⟩, ⟨9040, 1⟩, ⟨9040, 1⟩], rfl, by decide, by decide⟩
theorem test_hyp_iteration_held : (sIter laneTracking 0x10).serving 0 = true ∧ (sIter laneTracking 0x10).nextPost 0 = none
    ∧ (sIter laneTracking 0x10).nextDue 0 = some 0 := by decide
theorem test_hyp_iteration_source : (sIter laneTracking 0x10).readTaps 0 = .error .source := rfl
theorem test_hyp_post_move : (sIter { laneTracking with postMove := some 5, postSeq := 255 } 2).serving 0 = true
    ∧ (sIter { laneTracking with postMove := some 5, postSeq := 255 } 2).nextPost 0 = some 0 := by decide
theorem test_hyp_post_move_starts : (sIter { laneTracking with postMove := some 5, postSeq := 255 } 2).starts 0 4 0 1 :=
  ⟨rfl, by decide, by decide, by decide, by decide, by decide, by decide⟩

/-! ## Hypotheses that are met: engines, the time unit, captures, the spine -/

/-- Comb 0 as given, its engine running, with this microcode. -/
def sComb (m : SMap Nat) (x : Comb) : State := withMicro m <| onCtl [mcRun] fun c => { c with combs := [(0, x)] }
theorem test_hyp_prologue : ((sComb commits { prologue := true }).comb 0).prologue = true ∧ (sComb commits { prologue := true }).regsWf = true
    ∧ (sComb commits { prologue := true }).ctl.tablesWf = true ∧ (sComb commits { prologue := true }).flt.badWords = [] := by decide
theorem test_hyp_prologue_starts : (sComb commits { prologue := true }).starts 0 1 0 1 := ⟨rfl, by decide, by decide, by decide, by decide, by decide, by decide⟩
theorem test_hyp_prologue_on_the_way : (sComb enters { prologue := true }).onTheWay 0 1 0 1 := ⟨rfl, by decide, by decide, by decide, by decide⟩
theorem test_hyp_cmd_routine : ((sComb commits { cmd := true }).comb 0).prologue = false ∧ ((sComb commits { cmd := true }).comb 0).cmd = true := by decide
theorem test_hyp_cmd_starts : (sComb commits { cmd := true }).starts 0 2 0 1 := ⟨rfl, by decide, by decide, by decide, by decide, by decide, by decide⟩

/-- Comb 0 calibrates `lanes` with procedure `kind`, its points done, beside what else the comb holds. -/
def sCal (kind points : Nat) (lanes : List Nat) (x : Comb) : State :=
  (withMicro commits <| onCtl [mcRun] fun c => { c with
    combs := [(0, { x with procs := [⟨kind, lanes⟩] })], lanes := lanes.map fun l => (l, { st := 9 }) }).put (Adr.CAL_CSTAT 0) Fl.CAL_CSTAT_POINTS points
theorem test_hyp_cal_acc : (sCal 1 0 [3, 9] {}).serving 0 = true ∧ (sCal 1 0 [3, 9] {}).accWaits 0 ≠ []
    ∧ (sCal 1 0 [3, 9] {}).regsWf = true ∧ (sCal 1 0 [3, 9] {}).ctl.tablesWf = true := by decide
theorem test_hyp_cal_acc_starts : (sCal 1 0 [3, 9] {}).starts 0 3 3 1 ∧ ((sCal 1 0 [3, 9] {}).accWaits 0).headD 0 = 3 :=
  ⟨⟨rfl, by decide, by decide, by decide, by decide, by decide, by decide⟩, by decide⟩
theorem test_hyp_mc_recovery : (onWith [(Adr.MC_STAT 0, 2)]).gwqRuns = true ∧ (onWith [(Adr.MC_STAT 0, 2)]).engine 0 = 2
    ∧ (onWith [(Adr.MC_STAT 0, 2)]).recentChecks 0 < 3 ∧ (onWith [(Adr.MC_STAT 0, 2)]).classFor 0 ≠ 2
    ∧ ((onWith [(Adr.MC_STAT 0, 2)]).comb 0).restart = false ∧ ((onWith [(Adr.MC_STAT 0, 2)]).comb 0).gaveUp = false
    ∧ 3 ≤ (onCtl [(Adr.MC_STAT 0, 2)] fun c => { c with combs := [(0, { checks := [6250000000000, 6249999999999, 6249999999998] })] }).recentChecks 0 := by
  decide
theorem test_hyp_hold_limit : ((onCtl [] fun c => { c with lanes := [(63, { st := 8, holdSince := 1 })] }).lane (64 * 0 + 63)).st = 8
    ∧ 1 + (onCtl [] fun c => { c with lanes := [(63, { st := 8, holdSince := 1 })] }).holdTicks ≤ sOn.tick := by decide

/-- Lane 3 of comb 0 has its points of VPI; its fit is outstanding. -/
def sFit : State := (sCal 2 66 [3] {}).onLane 3 fun x => { x with accDone := true }
theorem test_hyp_fit : sFit.idleLoops 0 = true ∧ (sFit.comb 0).procs.head? = some ⟨2, [3]⟩ ∧ sFit.fitDue 0 3 ⟨2, [3]⟩ = true := by decide
theorem test_hyp_fit_starts : sFit.starts 0 6 3 1 := ⟨rfl, by decide, by decide, by decide, by decide, by decide, by decide⟩
/-- Limit 5: a tap that shows no contrast gives no gain, and EXT is rejected by its lowest limit. -/
theorem test_tap_gain : tapGain 100 300 100 300 = 16384 ∧ tapGain 100 300 50 50 = 0 := by decide
theorem test_hyp_sadc : (sCal 4 0 [] {}).idleLoops 0 = true ∧ ((sCal 4 0 [] {}).comb 0).segDone = false
    ∧ ((sCal 4 0 [] {}).comb 0).procs.head? = some ⟨4, []⟩ ∧ ((sCal 4 0 [] {}).comb 0).accums + (sCal 4 0 [] {}).segSize 0 < 1024
    ∧ 1024 ≤ ((sCal 4 0 [] { accums := 1000 }).comb 0).accums + (sCal 4 0 [] { accums := 1000 }).segSize 0 := by decide
theorem test_hyp_sadc_starts : (sCal 4 0 [] {}).starts 0 7 0 1 ∧ (sCal 4 0 [] { accums := 1000 }).starts 0 7 0 1 :=
  ⟨⟨rfl, by decide, by decide, by decide, by decide, by decide, by decide⟩, rfl, by decide, by decide, by decide, by decide, by decide, by decide⟩
/-- A FULL run whose group 0 has settled; comb 0 runs and may calibrate, or nothing does. -/
def sFull (ws : List (Nat × Word)) : State := onCtl ws fun c => { c with
  cal := { runs := [⟨[], true, 0, 5, false, 5, 64⟩] }, lanes := [(0, { st := 4, uncal := false })] }
theorem test_hyp_full_group : (sFull [mcRun]).ctl.cal.runs.find? (fun r => r.full && r.combs.isEmpty) = some ⟨[], true, 0, 5, false, 5, 64⟩
    ∧ (sFull []).ctl.tablesWf = true := by decide
/-- The settled reference of comb 0, and a pilot that is OK. -/
def settledRef : List (Nat × Word) := [(Adr.PILOT_STAT, 0x02), (Adr.SENSE_STAT 0, 1)]
theorem test_hyp_full_group_ready : (sFull (mcRun :: settledRef)).groupReady 0 = true ∧ (sFull settledRef).groupReady 0 = true
    ∧ (sFull [mcRun, (Adr.PILOT_STAT, 0x02)]).groupReady 0 = false ∧ (sFull [mcRun]).groupReady 0 = false
    ∧ (sFull (mcRun :: settledRef)).regsWf = true := by decide +kernel
theorem test_hyp_full_group_work : ((sFull (mcRun :: settledRef)).startGroup 0 64).2 ≠ [] := by decide +kernel
theorem test_hyp_full_group_none : ((sFull settledRef).startGroup 0 64).2 = [] := by decide +kernel

def sHostDisc : State := sOn.put (tdAdr .A) Fl.TD_SRC 4
def sGwqDisc : State := sOn.put (tdAdr .B) Fl.TD_SRC 2
theorem test_hyp_may_write : sHostDisc.regsWf = true ∧ sHostDisc.mayWrite .A .host = true ∧ sHostDisc.mayWrite .A .gwynique = false
    ∧ sGwqDisc.mayWrite .B .gwynique = true ∧ sGwqDisc.mayWrite .B .host = false ∧ sGwqDisc.bridgeOn = true := by decide
theorem test_hyp_set : sGwqDisc.mayWrite .B .gwynique = true ∧ (0x10005 : Word).getLsbD 16 = true ∧ Dom.B ≠ sGwqDisc.sdom
    ∧ sGwqDisc.time.switchAt = none ∧ sGwqDisc.get (tdAdr .B) Fl.TD_SET_NS < 1000000000 ∧ (sGwqDisc.time.dom .B).stampEnd = none
    ∧ Dom.A = sHostDisc.sdom ∧ (5 : Word).getLsbD 16 = false := by decide
def sSwitching : State := { sOn with time := { switchAt := some 6250000000000 } }
theorem test_hyp_switch : sOn.regsWf = true ∧ sOn.bridgeOn = true ∧ sOn.viewOn 0 = true ∧ sOn.time.switchAt = none
    ∧ sSwitching.time.switchAt = some 6250000000000 ∧ 6250000000000 ≤ sSwitching.tick
    ∧ ({ sOn with time := { switchAt := some 6250000000005 } } : State).tick < 6250000000005 := by decide
def sQuality (st : Nat) : State := ((sGwqDisc.put (tdAdr .B) Fl.TD_STATE st).put (tdAdr .B) Fl.TD_TQ_WD 100).put (tdAdr .B) Fl.TD_HOLD_MAX 60
theorem test_hyp_quality : (sQuality 2).regsWf = true ∧ (sQuality 2).tqOf .B = 2 ∧ (sQuality 2).get (tdAdr .B) Fl.TD_TQ_WD ≠ 0
    ∧ ((sQuality 2).time.dom .B).servoTick + 6250000 * (sQuality 2).get (tdAdr .B) Fl.TD_TQ_WD ≤ (sQuality 2).tick
    ∧ (sQuality 3).tqOf .B = 3 ∧ (sQuality 3).get (tdAdr .B) Fl.TD_HOLD_MAX ≠ 0
    ∧ ((sQuality 3).time.dom .B).holdTick + 625000000 * (sQuality 3).get (tdAdr .B) Fl.TD_HOLD_MAX ≤ (sQuality 3).tick
    ∧ (sQuality 2).mayWrite .B .gwynique = true ∧ (sQuality 2).gwqRuns = true
    ∧ (sQuality 2).time.minuteTick + 37500000000 ≤ (sQuality 2).tick := by decide

/-- A message of master 9 on the clients' port that a stamp of no error finds `diff` after its time, and a client that hears that master,
has its path back and waits for no Delay_Resp. -/
def ann9 : Announce := ⟨1, 6, 0, 0, 1, [9], 0, [9], 37, 0⟩
def ptpMsg (kind : Nat) (diff : Int) : PtpMsg := ⟨0, 0, 0, [], [9], kind, ethStamp sOn.time.a 0 - diff, 0, ann9⟩
def client9 (good bad : Nat) : PtpClient := { good := good, bad := bad, valid := true, toMaster := some 0, foreign := [([9], ann9)] }
def sPtp (st : Nat) (p : PtpClient) : State :=
  (({ sOn with time := { ptpA := p } } : State).put (tdAdr .A) Fl.TD_SRC 1).put (tdAdr .A) Fl.TD_STATE st
theorem test_hyp_ptp : sOn.regsWf = true ∧ sOn.gwqRuns = true ∧ sOn.has .mgmtU = true ∧ sOn.srcOf .A ≠ 1 ∧ (ptpMsg 6 0).kind ≤ 6
    ∧ (sOn.time.ptp .A).mine (ptpMsg 6 0) = true ∧ (sOn.time.ptp .A).mine { ptpMsg 6 0 with port := 2 } = false
    ∧ (client9 0 0).sends 5 (ptpMsg 2 0) = true ∧ ({ client9 0 0 with reqTick := some 5 } : PtpClient).sends 625000005 (ptpMsg 2 0) = true
    ∧ ({ client9 0 0 with reqTick := some 6, logDelay := -7 } : PtpClient).sends 4882817 (ptpMsg 2 0) = false
    ∧ ({ client9 0 0 with reqAt := some 9 } : PtpClient).best = some ((ptpMsg 3 0).clockId, ann9) ∧ ({ client9 0 0 with reqAt := some 9 } : PtpClient).reqAt = some 9
    ∧ (sPtp 0 (client9 15 0)).srcOf .A = 1 ∧ ((sPtp 0 (client9 15 0)).time.ptp .A).mine (ptpMsg 0 0) = true
    ∧ ((sPtp 0 (client9 15 0)).time.ptp .A).valid = true ∧ ((sPtp 0 (client9 15 0)).time.ptp .A).best = some ([9], ann9)
    ∧ ((sPtp 0 (client9 15 0)).time.ptp .A).toMaster = some 0 ∧ (sPtp 0 (client9 15 0)).tqOf .A = 0 ∧ (sPtp 1 (client9 15 0)).tqOf .A = 1
    ∧ (sPtp 2 (client9 0 3)).tqOf .A = 2 := by decide
/-- The bounds of lock: a difference of 20,480 is an offset of 40 ns, and -81,922 one beyond four times it. -/
theorem test_hyp_ptp_offset : (client9 15 0).diff (ethStamp (sPtp 1 (client9 15 0)).time.a 0) (ptpMsg 0 20480) = some 20480
    ∧ ({ client9 15 0 with syncAt := some (ethStamp sOn.time.a 0) } : PtpClient).diff 0 (ptpMsg 1 20480) = some 20480
    ∧ (client9 15 0).diff 0 (ptpMsg 1 20480) = none
    ∧ (20480 - (20480 + 0) / 2 - (client9 15 0).asym : Int).natAbs ≤ (client9 15 0).lockThr * 256
    ∧ 4 * ((client9 0 3).lockThr * 256) < (-81922 - (-81922 + 0) / 2 - (client9 0 3).asym : Int).natAbs := by decide
/-- R160: the better priority wins, then the smaller identity. -/
theorem test_best_master : ({ foreign := [([7], { ann9 with prio1 := 2 }), ([9], ann9), ([8], { ann9 with grandmaster := [8] })] } : PtpClient).best
    = some ([8], { ann9 with grandmaster := [8] }) := by decide
def sPps (e : Option Nat) : State := { sOn with time := { ppsB := { lastEdge := e } } }
theorem test_hyp_pps : ((sPps (some 6249700000000)).time.pps true).lastEdge = some 6249700000000 ∧ sOn.tick < 6249700000000 + 312500000
    ∧ ((sPps (some 6249600000000)).time.pps true).lastEdge = some 6249600000000 ∧ 6249600000000 + 312500000 ≤ sOn.tick
    ∧ ((sPps none).time.pps true).lines = [] := by decide
/-- A good line whose LF came 1.1 s before this tick waits for its edge. -/
def sLine : State := { sOn with time := { ppsA := { lines := [(48000, 6249312500000, 37, 0)] } } }
theorem test_hyp_tod : (sLine.time.pps false).lines = [(48000, 6249312500000, 37, 0)] ∧ 6249312500000 + 62500000 ≤ sLine.tick
    ∧ sLine.tick ≤ 6249312500000 + 687500000 ∧ (sLine.time.pps false).lastSec = none ∧ (sLine.time.pps false).lastEdge = none
    ∧ sLine.srcOf .A < 2 ∧ sLine.srcOf .B < 2 ∧ todParse [] = none := by decide

def capE : CapEntry := ⟨5, 1, 2, 3, 4⟩
def sCap (edge : Nat) (xs : List CapEntry) : State := { sOn with time := { caps := [(3, xs)] } }.put (Adr.CAP 3) Fl.CAP_EDGE edge
theorem test_hyp_capture : (sCap 0 [capE, capE, capE]).regsWf = true ∧ (sCap 0 [capE, capE, capE]).get (Adr.CAP 3) Fl.CAP_EDGE = 0
    ∧ ((sCap 0 [capE, capE, capE]).caps 3).length < 4 ∧ (sCap 1 []).get (Adr.CAP 3) Fl.CAP_EDGE = 1
    ∧ (sCap 2 [capE, capE, capE, capE]).get (Adr.CAP 3) Fl.CAP_EDGE = 2 ∧ 4 ≤ ((sCap 2 [capE, capE, capE, capE]).caps 3).length
    ∧ (sCap 0 []).bridgeOn = true := by decide
def sArmed : State := { sOn with time := { armed := [31], late := [31] } }
theorem test_hyp_compare : sArmed.regsWf = true ∧ 31 ∈ sArmed.time.armed ∧ sArmed.cmpReached 31 = true ∧ 30 ∉ sArmed.time.armed := by decide

theorem test_hyp_spine_held : State.reset.boot.porLow = true ∧ ({ sOn with ctl := { boot := { dead := true } } } : State).boot.dead = true := by decide
theorem test_hyp_spine_runs : sOn.boot.porLow = false ∧ sOn.boot.dead = false ∧ sOn.tick < 2 ^ 64 - 1 ∧ sOn.time.a.setPend = none
    ∧ sOn.time.b.setPend = none ∧ sOn.time.snapPend = false ∧ ({ sOn with time := { snapPend := true } } : State).time.snapPend = true
    ∧ (({ sOn with time := { b := { setPend := some (7, 8) } } } : State).time.dom .B).setPend = some (7, 8)
    ∧ (({ sOn with time := { b := { setPend := some (7, 8) } } } : State).time.dom (otherDom .B)).setPend = none ∧ sOn.classFor 0xB0 ≠ 2
    ∧ sOn.ctl.pilot.switch = false ∧ (sOn.put Adr.HK_STAT Fl.HK_STAT_REF_SETTLED 1).flag Adr.HK_STAT Fl.HK_STAT_REF_SETTLED = true ∧ sOn.exp.srx = []
    ∧ sOn.exp.fcWait = [] ∧ (sOn.time.pps true).lines = [] ∧ (sOn.time.pps false).lines = [] ∧ sOn.bus.heads = [] ∧ sOn.bus.execs = []
    ∧ sOn.bus.notices = [] ∧ sOn.pair.taps = [] := by decide

/-! ## Hypotheses that are met: plans, commits, schedules, the CSP -/

def sPlan (p : PlanUnit) : State := { sOn with ctl := { sOn.ctl with plan := p } }
def planHead (n : Nat) : List Byte := le 4 0x4B504C54 ++ le 2 n ++ le 2 0x00ff ++ List.replicate 56 0
theorem test_hyp_compile : (took (tk 0x0100 1 [(24, le 2 3), (32, le 8 0x2000), (40, le 4 64)] (planHead 2)) sOn).regsWf = true
    ∧ (took (tk 0x0100 1 [(24, le 2 3), (32, le 8 0x2000), (40, le 4 64)] (planHead 2)) sOn).runs 5 0x0100 (tk 0x0100 1 [(24, le 2 3), (32, le 8 0x2000), (40, le 4 64)] (planHead 2))
    ∧ (tk 0x0100 1 [(24, le 2 3), (32, le 8 0x2000), (40, le 4 64)] (planHead 2)).p 24 2 < numSlots sOn.variant
    ∧ 64 ≤ (tk 0x0100 1 [(24, le 2 3), (32, le 8 0x2000), (40, le 4 64)] (planHead 2)).p 40 4
    ∧ rdLE (planHead 2) 0 4 = 0x4B504C54 ∧ rdLE (planHead 2) 4 2 ≤ 1024 ∧ 16 + 4 * rdLE (planHead 2) 4 2 ≤ (planHead 2).length
    ∧ (took (tk 0x0100 1 [] []) sOn).pastBulk 5 0x1000 64 = false
    ∧ (tk 0x0100 1 [(24, le 2 0xffff)] (planHead 0)).p 24 2 = 0xffff ∧ (took (tk 0x0100 1 [] []) sOn).anySlot = some 0 := by decide
/-- A compile at the head, started, for slot 3; `rest` follows. -/
def sCompile (list : List Byte) (noColl : Bool) : State :=
  { took { tk 0x0100 1 [] list with phase := .waiting } sOn with ctl := { sOn.ctl with plan :=
      { compiles := [⟨5, 3, list, noColl, some ⟨[], false, false, 0⟩, 0x2000, 64⟩], forceId := 4 } } }
theorem test_hyp_compile_end : (sCompile (planHead 0) false).regsWf = true ∧ (sCompile (planHead 0) false).slotBusy 3 = false
    ∧ ({ sCompile (planHead 0) false with ctl := { sOn.ctl with plan := { inForce := [1], forceId := 3 } } } : State).slotBusy 3 = true := by decide
def sSlot3 (t : Taken) (p : PlanUnit) : State := { took t sOn with ctl := { sOn.ctl with plan := p } }
theorem test_hyp_plan_free : (sSlot3 (tk 0x0101 1 [(24, [3])] []) {}).runs 5 0x0101 (tk 0x0101 1 [(24, [3])] [])
    ∧ (tk 0x0101 1 [(24, [3])] []).p 24 1 < numSlots sOn.variant ∧ (sSlot3 (tk 0x0101 1 [(24, [3])] []) {}).slot? 3 = none
    ∧ (sSlot3 (tk 0x0101 1 [(24, [3])] []) { slots := [(3, ⟨[], none⟩)] }).slotBusy 3 = false
    ∧ (sSlot3 (tk 0x0101 1 [(24, [3])] []) { slots := [(3, ⟨[7], none⟩)], inForce := [7], forceId := 3 }).slotBusy 3 = true
    ∧ (sSlot3 (tk 0x0101 1 [(24, [3])] []) { slots := [(3, ⟨[7], none⟩)], inForce := [7], forceId := 3 }).slot? 3 ≠ none := by decide
theorem test_hyp_plan_read : (took { tk 0x0105 1 [(24, [3])] [] with bufLen := 20480 } sOn).runs 5 0x0105 { tk 0x0105 1 [(24, [3])] [] with bufLen := 20480 }
    ∧ (took { tk 0x0105 1 [(24, [3])] [] with bufLen := 20480 } sOn).pastBulk 5 0x1000 20480 = false
    ∧ (withBad [(0xA5, 3)] [] (took { tk 0x0105 1 [(24, [3])] [] with bufLen := 20480 } sOn)).checkBad 0xA5 3 = true
    ∧ sOn.checkBad 0xA5 3 = false ∧ sOn.boot.warmDue = false ∧ sOn.flt.inj = [] := by decide
theorem test_hyp_slots_good (n : Nat) : sOn.checkBad 0xA5 n = false := by simp [State.checkBad, sOn]

def tkCommit : Taken := tk 0x0102 1 [(24, [3]), (32, le 6 0), (40, le 4 100000000)] []
def sCommit (p : PlanUnit) : State := sSlot3 tkCommit p
theorem test_hyp_commit : (sCommit { slots := [(3, ⟨[], none⟩)] }).regsWf = true ∧ (sCommit {}).pairMode = false ∧ (sCommit {}).role ≠ 2
    ∧ (sCommit { slots := [(3, ⟨[], none⟩)] }).runs 5 0x0102 tkCommit ∧ tkCommit.p 24 1 < numSlots sOn.variant
    ∧ (sCommit { slots := [(3, ⟨[], none⟩)] }).slot? 3 = some ⟨[], none⟩ ∧ (sCommit {}).checkBad 0xA5 3 = false
    ∧ tkCommit.flag 0 = false ∧ tkCommit.ns 32 = 100000000 ∧ tkCommit.sec 32 = 0 ∧ (sCommit {}).now.total = 0
    ∧ (sCommit {}).ledgerRoom 1 = true ∧ (sCommit {}).slot? 3 = none := by decide
theorem test_hyp_commit_time : (sCommit { slots := [(3, ⟨[], none⟩)] }).overlaps (strobeAt ((sCommit {}).tickFor 0 100000000)) ((sCommit {}).costOf []).ds = false
    ∧ (sCommit { slots := [(3, ⟨[], none⟩)] }).tooLate (sCommit {}).tick (strobeAt ((sCommit {}).tickFor 0 100000000)) ((sCommit {}).costOf []).ds = false := by
  decide +kernel
theorem test_hyp_arm : (took (tk 0x0103 1 [(24, le 2 0xffff)] []) sOn).runs 5 0x0103 (tk 0x0103 1 [(24, le 2 0xffff)] [])
    ∧ (tk 0x0103 1 [(24, le 2 0xffff)] []).p 24 2 = 0xffff ∧ (tk 0x0103 1 [(24, le 2 3)] []).p 24 2 < numSlots sOn.variant
    ∧ (sSlot3 (tk 0x0103 1 [(24, le 2 3)] []) { slots := [(3, ⟨[], none⟩)] }).slot? 3 ≠ none := by decide
def tkPark : Taken := { tk 0x0104 2 [(24, le 2 200), (26, [1])] [] with grant := 2 ^ 200 }
theorem test_hyp_park : (took tkPark sOn).runs 5 0x0104 tkPark ∧ tkPark.role = 2 ∧ tkPark.grant.testBit (tkPark.p 24 2) = true
    ∧ tkPark.mask.testBit 2 = true ∧ tkPark.p 24 2 < numPorts sOn.variant ∧ tkPark.p 26 1 ≤ 1 ∧ (took tkPark sOn).ledgerRoom 1 = true := by decide
theorem test_hyp_out_read : (took { tk 0x0106 2 [] [] with bufLen := 2048 } sOn).runs 5 0x0106 { tk 0x0106 2 [] [] with bufLen := 2048 }
    ∧ 4 * numPorts sOn.variant ≤ 2048 ∧ (tk 0x0106 2 [] []).mask.testBit 0 = true
    ∧ (took { tk 0x0106 2 [] [] with bufLen := 2048 } sOn).dmaOk 5 = true := by decide

/-- A commit of no circuits, in the given phase, its break now or at `b`. -/
def cm (phase b : Nat) : Commit := { id := 3, words := [], path := 0, tBreak := b, tMake := b + 5000, makeNs := 0, makeFrac := 0, ds := 8, dmax := 0, lim := 0, collateral := 0, unit := 15, seq := 1, phase := phase }
def sMove (c : Commit) (x : Lane) : State := { sOn with ctl := { sOn.ctl with plan := { commits := [c] }, lanes := SMap.put {} [] 0 x } }
theorem test_hyp_break : (sMove (cm 0 6250000000000) {}).regsWf = true ∧ (sMove (cm 0 6250000000000) {}).ctl.tablesWf = true
    ∧ (cm 0 6250000000000).ackBy = none ∧ (cm 0 6250000000000).tBreak ≤ (sMove (cm 0 6250000000000) {}).tick ∧ (cm 0 0).unit < 16
    ∧ (sMove (cm 0 6250000000001) {}).tick < (cm 0 6250000000001).tBreak := by decide
theorem test_hyp_break_checks (n : Nat) : (sMove (cm 0 6250000000000) {}).checkBad (0x9C + n) (cm 0 6250000000000).seq = false := by
  simp [State.checkBad, sMove, sOn]
/-- Each phase before its instant. -/
theorem test_hyp_moves_early : sOn.tick < (cm 1 6249999999976).tBreak + 25 ∧ sOn.tick < (cm 2 6249999999971).tBreak + 25 + 5 * ((cm 2 6249999999971).strobe + 1)
    ∧ sOn.tick < (cm 2 6249999999971).tBreak + 25 + (cm 2 6249999999971).ds * 5 / 8 ∧ sOn.tick < (cm 3 6249999995001).tMake := by decide
theorem test_hyp_moves : (cm 1 6249999999975).tBreak + 25 ≤ sOn.tick ∧ (cm 2 6249999999970).strobe < (cm 2 6249999999970).ds / 8
    ∧ (cm 2 6249999999970).tBreak + 25 + 5 * ((cm 2 6249999999970).strobe + 1) ≤ sOn.tick
    ∧ ((sMove (cm 2 6249999999970) { st := 6 }).lane 0).st = 6 ∧ ((sMove (cm 2 6249999999970) { st := 6 }).lane 0).stepped = false
    ∧ (cm 2 6249999999970).ds / 8 ≤ ({ cm 2 6249999999970 with strobe := 1 } : Commit).strobe
    ∧ (cm 2 6249999999970).tBreak + 25 + (cm 2 6249999999970).ds * 5 / 8 ≤ sOn.tick ∧ (cm 3 6249999995000).tMake ≤ sOn.tick := by decide
theorem test_hyp_move_none : (sMove (cm 1 6249999999975) {}).moveTarget (cm 1 6249999999975) 0 {} = none := by decide +kernel

def pk (unpark tenant : Bool) : ParkItem := ⟨511, unpark, tenant, 6250000000000, 5, 1⟩
def sPark (p : ParkItem) (x : Lane) : State :=
  { sOn with ctl := { sOn.ctl with plan := { parks := [p] }, lanes := SMap.put {} [] (gateIx .t512 511) x } }
theorem test_hyp_park_instant : (sPark (pk false false) {}).regsWf = true ∧ (sPark (pk false false) {}).ctl.tablesWf = true
    ∧ (pk false false).tick ≤ (sPark (pk false false) {}).tick ∧ ((sPark (pk false false) {}).lane (gateIx sOn.variant 511)).planPark = false
    ∧ (sPark (pk true true) {}).unparkAllowed (pk true true) = false ∧ (sPark (pk true false) {}).unparkAllowed (pk true false) = true
    ∧ (sPark (pk true false) {}).unparkOk 511 = false := by decide
def sGo (armed : Bool) : State := ((sOn.putFlag Adr.PLAN_STAT Fl.PLAN_STAT_ARMED armed).putFlag Adr.PLAN_CFG Fl.PLAN_CFG_CSP_GO_EN true)
theorem test_hyp_go : (sGo true).regsWf = true ∧ (sGo true).plan.commits = [] ∧ (sGo true).plan.goHold ≤ (sGo true).tick ∧ (sGo true).plan.goStop = false
    ∧ (sGo true).role = 0 ∧ (sGo true).armed ≠ none ∧ (sGo false).armed = none ∧ (sGo true).listRuns = false ∧ (sGo true).ledgerRoom 1 = true := by decide

def schedBytes (hold : Nat) : List Byte :=
  le 4 0x4B534348 ++ le 2 1 ++ le 2 0 ++ le 4 0 ++ le 4 0 ++ le 8 0 ++ le 2 3 ++ le 2 0 ++ le 4 hold
theorem test_hyp_sched_load : (took (tk 0x0200 1 [] (schedBytes 128)) sOn).runs 5 0x0200 (tk 0x0200 1 [] (schedBytes 128))
    ∧ 24 + 8 * rdLE (schedBytes 128) 4 2 ≤ (schedBytes 128).length ∧ badList .t512 (schedBytes 128) = false ∧ badList .t512 (schedBytes 127) = true
    ∧ (took (tk 0x0200 1 [] (schedBytes 128)) sOn).ledgerRoom 1 = true := by decide
def lst (next makeNs : Nat) : Sched := ⟨[(3, 128)], 0, 0, 0, makeNs, 0, next, 0, 0⟩
def sList (t : Taken) (l : Option Sched) (st : Nat) (slots : SMap Slot) : State :=
  { took t sOn with ctl := { sOn.ctl with plan := { sched := l, slots := slots } } }.put Adr.SCHED_STAT Fl.SCHED_STAT_STATE st
theorem test_hyp_sched_cmds : (sList (tk 0x0201 1 [] []) (some (lst 0 0)) 2 []).runs 5 0x0201 (tk 0x0201 1 [] [])
    ∧ (sList (tk 0x0201 1 [] []) (some (lst 0 0)) 2 []).listRuns = true ∧ (sList (tk 0x0201 1 [] []) (some (lst 0 0)) 0 []).listRuns = false
    ∧ (sList { tk 0x0202 1 [] [] with bufLen := 24 } none 0 []).runs 5 0x0202 { tk 0x0202 1 [] [] with bufLen := 24 }
    ∧ 24 + 8 * (lst 0 0).entries.length ≤ ({ tk 0x0202 1 [] [] with bufLen := 32 } : Taken).bufLen
    ∧ (sList { tk 0x0202 1 [] [] with bufLen := 32 } (some (lst 0 0)) 0 []).regsWf = true := by decide
theorem test_hyp_sched_step : (sList (tk 0 1 [] []) (some (lst 0 0)) 1 []).stepDue (lst 0 0) = true
    ∧ (sList (tk 0 1 [] []) (some (lst 0 0)) 1 []).plan.oldSched = none
    ∧ (sList (tk 0 1 [] []) (some (lst 0 0)) 1 []).gwqRuns = true ∧ (sList (tk 0 1 [] []) (some (lst 0 0)) 1 []).listRuns = true
    ∧ (sList (tk 0 1 [] []) (some (lst 0 0)) 1 []).slot? 3 = none ∧ (sList (tk 0 1 [] []) (some (lst 0 0)) 1 [(3, ⟨[], none⟩)]).slot? 3 = some ⟨[], none⟩ := by
  decide
theorem test_hyp_sched_skip : (sList (tk 0 1 [] []) (some (lst 0 0)) 1 [(3, ⟨[], none⟩)]).skipCause ((sList (tk 0 1 [] []) (some (lst 0 0)) 1 []).stepTick (lst 0 0)) ((sOn.costOf [])).ds ≠ 0
    ∧ (sList (tk 0 1 [] []) (some (lst 0 1600)) 1 []).stepDue (lst 0 1600) = true
    ∧ (sList (tk 0 1 [] []) (some (lst 0 1600)) 1 [(3, ⟨[], none⟩)]).skipCause ((sList (tk 0 1 [] []) (some (lst 0 1600)) 1 []).stepTick (lst 0 1600)) ((sOn.costOf [])).ds = 0 := by
  decide +kernel
theorem test_hyp_sched_done : (lst 1 0).cycle = 0 ∧ (lst 1 0).entries.length ≤ (lst 1 0).next
    ∧ (sList (tk 0 1 [] []) (some (lst 1 0)) 2 []).tickTo (lst 1 0).makeAt ≤ (sList (tk 0 1 [] []) (some (lst 1 0)) 2 []).tick
    ∧ (sList (tk 0 1 [] []) (some (lst 1 0)) 2 []).gwqRuns = true ∧ (sList (tk 0 1 [] []) (some (lst 1 0)) 2 []).listRuns = true := by decide +kernel

def sCsp (s : State) (p : PlanUnit) : State := { s with ctl := { s.ctl with plan := p } }
/-- The port's copy of GO_OK is `held`; slot 0 is COMPILED and armed. -/
def sStrike (armed held : Bool) : State :=
  let s := sCsp (sGo armed) { slots := [(0, ⟨[], none⟩)] }
  { s with ctl := { s.ctl with csp := { s.csp with goOk := held } } }
theorem test_hyp_csp : sOn.powered 31 = true ∧ sOn.checkBad 0xAB 511 = false ∧ (sStrike true true).pairMode = false
    ∧ (sStrike true true).csp.goOk = true ∧ (sStrike true true).refreshGo.csp.goHub = true ∧ (sStrike true true).armed = some 0
    ∧ (sStrike true true).slot? 0 = some ⟨[], none⟩ ∧ (sStrike true true).checkBad 0xA5 0 = false ∧ (sStrike true true).regsWf = true := by decide
/-- An edge of CSP_CLK with CSP_GO low before it, with CSP_GO high, and flips that wait at their last edge. -/
def sEdge (p : Csp) : State := { sOn with ctl := { sOn.ctl with csp := p } }
theorem test_hyp_csp_edges : (sStrike true true).refreshGo.cspEdge.csp.goNow = false ∧ (sStrike true true).refreshGo.cspEdge.csp.goPrev = false
    ∧ (sStrike true true).refreshGo.cspEdge.csp.goOk = true ∧ (sStrike true false).refreshGo.cspEdge.csp.goOk = false
    ∧ (sEdge { clk := some 6250000000000, goNow := true }).refreshGo.cspEdge.csp.goNow = true
    ∧ (sEdge { goNow := true }).refreshGo.cspEdge.csp.goPrev = true ∧ (sStrike true true).ringRoom
    ∧ (sEdge { outsNext := [(3, 7, 1)] }).csp.clk ≠ some 6250000000000 ∧ (3, 7, 1) ∈ (sEdge { outsNext := [(3, 7, 1)] }).csp.outsNext
    ∧ SMap.wf (fun _ => 0) (sEdge { outsNext := [(3, 7, 1)] }).csp.outs = true ∧ SMap.rising (sEdge { outsNext := [(3, 7, 1)] }).csp.outsNext = true
    ∧ (sEdge { devNext := some ([1], 1) }).csp.devNext = some ([1], 1) ∧ (withBad [(0xAB, 3)] [] sOn).checkBad 0xAB 3 = true
    ∧ (withBad [(0xAB, 3)] [] sOn).powered 31 = true := by decide +kernel
theorem test_hyp_csp_refused : (sStrike true false).csp.goOk = false ∧ (sStrike true false).refreshGo.csp.goEdges = 0
    ∧ (sStrike false false).refreshGo.csp.goHub = false ∧ (sStrike false true).csp.goOk = true ∧ (sStrike false true).refreshGo.csp.goEdges = 0 := by decide
theorem test_hyp_csp_abandon : (sMove { cm 0 6250000001000 with ackBy := some 6250000000000 } {}).plan.commits.find? (fun c => c.phase == 0
      && (match c.ackBy with | some t => decide (t ≤ (sMove { cm 0 6250000001000 with ackBy := some 6250000000000 } {}).tick) | none => false))
    = some { cm 0 6250000001000 with ackBy := some 6250000000000 } := by decide

/-! ## Hypotheses that are met: sessions, functions, Ethernet -/

def goodSetup : List Byte := layout 64 [(0, le 8 0x1000), (8, le 8 0x2000), (16, le 8 0x3000), (24, le 8 0x4000), (32, le 8 0x40), (40, [6, 16, 6, 6]), (44, le 2 2047), (46, le 2 0xffff), (48, le 2 0)]
def openDesc (role : Nat) : List Byte := layout 64 [(0, le 2 1), (32, le 1 role)]
def sOpen (role : Nat) : State := { sOn with host := { opens := [(0, ⟨openDesc role, ⟨some goodSetup, none⟩, false⟩)], busMaster := [0], pcieUp := true } }
theorem test_hyp_go_window : sOn.viewOn 0 = true ∧ sOn.flag (winBase 0 + 0x40) Fl.OPEN_CTL_BUSY = false
    ∧ (sOn.putFlag (winBase 0 + 0x40) Fl.OPEN_CTL_BUSY true).flag (winBase 0 + 0x40) Fl.OPEN_CTL_BUSY = true
    ∧ (sOn.putFlag (winBase 0 + 0x40) Fl.OPEN_CTL_BUSY true).viewOn 0 = true
    ∧ (sOn.putFlag (winBase 0 + 0x40) Fl.OPEN_CTL_BUSY true).regsWf = true := by decide
theorem test_hyp_open : (sOpen 1).regsWf = true ∧ (sOpen 1).serves = true ∧ (sOpen 1).fnDma 0 = true ∧ (sOpen 1).pairMode = false ∧ 0 ∉ (sOpen 1).host.wrBad
    ∧ ((sOpen 1).host.opens.find? fun e => e.1 == 0) = some (0, ⟨openDesc 1, ⟨some goodSetup, none⟩, false⟩) := by decide
theorem test_hyp_open_judged : ((sOpen 1).judgeOpen 0 ⟨openDesc 1, ⟨some goodSetup, none⟩, false⟩).1 = 0
    ∧ (sOpen 1).bindShadow ((sOpen 1).judgeOpen 0 ⟨openDesc 1, ⟨some goodSetup, none⟩, false⟩).2 = none
    ∧ ((sOpen 2).judgeOpen 0 ⟨openDesc 2, ⟨some goodSetup, none⟩, false⟩).1 ≠ 0 := by decide +kernel
theorem test_hyp_open_waits : (sOpen 1).boot.warmDue = false
    ∧ ({ sOpen 1 with ctl := { sOn.ctl with boot := { sOn.boot with warmDue := true } } } : State).boot.warmDue = true := by decide
theorem test_hyp_open_ring : (took (tk 0x0001 1 [] []) sOn).runs 5 0x0001 (tk 0x0001 1 [] []) := by decide

/-- Session 4095 open on PF0 with 64-entry rings. -/
def xDoor : Sess := { cmdTail := 3, cplHead := 1, cplTail := 4, cpl := [[1], [2], [3]], evtHead := 2, evtTail := 2, modEvt := ⟨some 5, true, 1⟩ }
def sDoor : State := openSess 4095 1 0 xDoor sOn
theorem test_hyp_doorbells : sDoor.regsWf = true ∧ sDoor.doorOpen ⟨0, 4095⟩ = some (4095, xDoor)
    ∧ (((64 : Word)).toNat + 2 ^ 32 - sDoor.get (Adr.SESS 4095) Fl.SESS_CMD_HEAD) % 2 ^ 32 ≤ 2 ^ xDoor.rings.cmdLog2
    ∧ 2 ^ xDoor.rings.cmdLog2 < (((65 : Word)).toNat + 2 ^ 32 - sDoor.get (Adr.SESS 4095) Fl.SESS_CMD_HEAD) % 2 ^ 32
    ∧ headOk xDoor.cplHead xDoor.cplTail 4 = true ∧ headOk xDoor.cplHead xDoor.cplTail 5 = false
    ∧ headOk xDoor.evtHead xDoor.evtTail 2 = true ∧ headOk xDoor.evtHead xDoor.evtTail 1 = false
    ∧ headOk xDoor.recHead xDoor.recTail 0 = true ∧ headOk xDoor.recHead xDoor.recTail 0xffffffff = false
    ∧ sDoor.doorOpen ⟨0, 4094⟩ = none ∧ sDoor.sess? 4095 = some xDoor ∧ (xDoor.moder 1).pend = true ∧ (xDoor.moder 1).last = some 5
    ∧ 5 + 625 * xDoor.rings.mod ≤ sDoor.tick ∧ sDoor.dmaOk 4095 = true ∧ sDoor.sessState 4095 ≠ 4
    ∧ (SMap.find {} sDoor.host.msix (2048 * sDoor.sessFn 4095 + xDoor.vec 1)).masked = true
    ∧ (xDoor.moder 0).pend = false ∧ (openSess 4095 1 2 xDoor State.reset).doorOpen ⟨0, 4095⟩ = none := by decide
/-- The same with the vector of its completion ring unmasked, and with PF0 not a bus master. -/
theorem test_hyp_messages : (SMap.find {} ({ sDoor with host := { sDoor.host with msix := [(65535, ⟨0xfee00000, 3, false, false⟩)] } } : State).host.msix
      (2048 * sDoor.sessFn 4095 + xDoor.vec 0)).masked = false
    ∧ ({ sDoor with host := { sDoor.host with busMaster := [] } } : State).dmaOk 4095 = false
    ∧ (sDoor.put (Adr.SESS 4095) Fl.SESS_STATE 4).sessState 4095 = 4 := by decide
/-- MSI-X is not enabled at reset; enabled by a write, the vector may be masked or not. -/
def sMsix (masked : Bool) : State :=
  { sDoor with host := { sDoor.host with cfg := [(0xB0, 2 ^ 31)], msix := if masked then [] else [(1, ⟨0xfee00000, 3, false, false⟩)] } }
theorem test_hyp_msix : sDoor.msixOn (sDoor.sessFn 4095) = false ∧ (sMsix true).msixOn ((sMsix true).sessFn 4095) = true
    ∧ (sMsix true).canSignal ((sMsix true).sessFn 4095) 1 = false ∧ (sMsix false).canSignal ((sMsix false).sessFn 4095) 1 = true
    ∧ (sMsix false).msixOn ((sMsix false).sessFn 4095) = true ∧ xDoor.vec 1 = 0xffff
    ∧ ({ xDoor with rings := { xDoor.rings with evtVec := 1 } } : Sess).vec 1 = 1 := by decide

def xTake (turn : Nat) : Sess := { cmdTail := 1, mask := 0x3F, turn := turn }
theorem test_hyp_fetch : (openSess 5 1 0 (xTake 0) sOn).regsWf = true ∧ (openSess 5 1 0 (xTake 0) sOn).sess? 5 = some (xTake 0)
    ∧ (openSess 5 1 0 (xTake 0) sOn).canTake 5 (xTake 0) = true ∧ (openSess 5 1 0 (xTake 0) sOn).turnOver 5 = false
    ∧ (openSess 5 1 0 (xTake 0) sOn).wrFails 5 = false ∧ (openSess 5 1 0 (xTake 0) sOn).boot.recovery = false ∧ (openSess 5 1 0 (xTake 0) sOn).turnOver 6 = true
    ∧ State.judgeOpen.commandKnown 0x0B01 = true ∧ State.judgeOpen.commandKnown 0x0B02 = false
    ∧ (openSess 5 1 0 { xTake 0 with cmdTail := 0 } sOn).canTake 5 { xTake 0 with cmdTail := 0 } = false := by decide
theorem test_hyp_fetch_parity : (withBad [] [(0xA9, 0, false)] (openSess 5 1 0 (xTake 0) sOn)).flt.armed 0xA9 0 false = true
    ∧ (openSess 5 1 0 (xTake 0) sOn).flt.armed 0xA9 0 false = false ∧ sOn.classFor 0xA9 = 1
    ∧ (withBad [] [(0xA9, 0, false)] (openSess 5 1 0 (xTake 0) sOn)).canTake 5 (xTake 0) = true := by decide
def tkClose : Taken := tk 0x0002 1 [(24, le 2 6)] []
def sClose (st6 : Nat) : State :=
  let s := (took tkClose sOn).put (Adr.SESS 6) Fl.SESS_STATE st6
  if st6 = 0 then s else s.setSess 6 {}
theorem test_hyp_close : (sClose 2).regsWf = true ∧ (sClose 2).runs 5 0x0002 tkClose ∧ tkClose.p 24 2 = 6
    ∧ (sClose 2).pastBulk 5 0x1000 0 = false ∧ (sClose 2).localSess 6 = true ∧ (sClose 2).sessState 6 ≠ 0 ∧ ((sClose 2).sess? 6).isSome = true
    ∧ (sClose 0).sessState 6 = 0 ∧ (sClose 0).pairMode = false ∧ (sClose 0).role ≠ 2 := by decide
theorem test_hyp_closed : (((openSess 5 1 0 { closeCause := 1 } sOn).put (Adr.SESS 5) Fl.SESS_STATE 3)).sessState 5 = 3
    ∧ (((openSess 5 1 0 { closeCause := 1 } sOn).put (Adr.SESS 5) Fl.SESS_STATE 3)).sess? 5 = some { closeCause := 1 } := by decide
theorem test_hyp_info : (took (tk 0x0003 3 [] []) sOn).runs 5 0x0003 (tk 0x0003 3 [] []) ∧ (tk 0x0003 3 [] []).bufLen = 0 := by decide

/-- VF 1 has session 7 of slot 3; PF0 has session 5. -/
def sFns : State := { ((sOn.wr (Adr.SESS 7) (sessWord 2 1)).put (Adr.SESS 7) Fl.SESS_VF 1).wr (Adr.SESS 5) (sessWord 1 0) with
  host := { sess := [(5, {}), (7, {})], numVfs := 1, busMaster := [0, 1], pcieUp := true } }
theorem test_hyp_functions : sFns.regsWf = true ∧ sFns.viewOn 1 = true ∧ sFns.viewOn 0 = true ∧ sFns.fnSessions 1 = [7] ∧ sFns.fnSessions 0 = [5]
    ∧ 0 < sFns.host.numVfs ∧ sFns.host.numVfs < 63 ∧ sFns.host.pcieUp = true ∧ sFns.bridgeOn = true ∧ sFns.boot.recovery = false
    ∧ sFns.powered 26 = true ∧ sFns.host.wrBad = [] ∧ (⟨true, false⟩ : BusMaster).wrOk = false := by decide
def tkGrant : Taken := { tk 0x0005 1 [(24, le 2 5), (28, le 4 1)] [] with bufLen := 64 }
def tkVf : Taken := { tk 0x0006 1 [(24, [1, 2])] [] with bufLen := 64 }
theorem test_hyp_grants : (took tkGrant sOn).runs 5 0x0005 tkGrant ∧ tkGrant.p 24 2 < 4096 ∧ ((took tkGrant sOn).sess? (tkGrant.p 24 2)).isSome = true
    ∧ (took tkGrant sOn).sessState 5 ≠ 0 ∧ (took tkGrant sOn).ledgerRoom 1 = true ∧ (took tkGrant sOn).localSess 5 = true
    ∧ (took tkVf sOn).runs 5 0x0006 tkVf ∧ 1 ≤ tkVf.p 24 1 ∧ tkVf.p 24 1 ≤ 63 ∧ tkVf.p 25 1 = 2
    ∧ (took tkGrant sOn).pastBulk 5 0x1000 64 = false ∧ 7 ∈ sFns.vfSessions 1 := by decide

/-- The header of a datagram of TYPE `ty` from the host on ETH0 (R223). -/
def hostHead (ty count q seq index : Nat) : DgHead := ⟨0x4B435458, 1, ty, count, q, 1, 2, 0, seq, index⟩
def hello0 (dst : Nat) : Hello := ⟨0, dst, hostHead 1 200 0 0 0, List.replicate 97 4, List.replicate 32 5, 2, 6, 6, 6, [], [], [], 1⟩
theorem test_hyp_hello : sOn.regsWf = true ∧ sOn.gwqRuns = true ∧ sOn.has .mgmtU = true ∧ sOn.powered 27 = true ∧ (hello0 7441).port < 2
    ∧ hostHeadOk (hello0 7441).head 1 (hello0 7441).port = true ∧ (hello0 7441).head.q = 0 ∧ (hello0 7441).dstPort = sOn.udpPort (hello0 7441).port
    ∧ (sOn.judgeHello (hello0 7441)).1 ≠ 0 ∧ (hello0 7440).dstPort ≠ sOn.udpPort 0 ∧ hostHeadOk (hostHead 2 200 0 0 0) 1 0 = false
    ∧ (hostHead 1 200 1 0 0).q ≠ 0 := by decide
def eth0 : EthSide := ⟨0, [], 1, [7], [], 0, none, none, 1, 6249999000000, [], 0, []⟩
def xEth : Sess := { eth := some eth0 }
def sEth : State := openSess 5 1 2 xEth sOn
/-- A datagram of session 5, sealed under its key. -/
def dgram (ty count index : Nat) (body : List Byte) : Datagram :=
  ⟨0, hostHead ty count 5 9 index, gcmSeal eth0.key (sessNonce 5 1 2 9) (headBytes (hostHead ty count 5 9 index)) body⟩
theorem dgram_accepted (ty count index : Nat) (body : List Byte) : sEth.rxOk (dgram ty count index body) ty = some (xEth, eth0, body) :=
  State.rxOk_sealed (q := 5) (h := hostHead ty count 5 9 index) (by decide) rfl (by decide) rfl (by simp [hostHeadOk, hostHead]) rfl rfl (by decide)
    (by simp [hostHead, EthSide.keyFor, eth0])
/-- CMD with one descriptor, BULK_W and BULK_R at the ends of the window, KEEPALIVE, CLOSE. -/
theorem test_hyp_datagrams : sEth.regsWf = true ∧ sEth.rxOk (dgram 4 1 0 (List.replicate 72 1)) 4 = some (xEth, eth0, List.replicate 72 1)
    ∧ sEth.rxOk (dgram 7 2 524287 [1, 2]) 7 = some (xEth, eth0, [1, 2]) ∧ sEth.rxOk (dgram 8 0 0 (le 8 0 ++ le 4 8)) 8 = some (xEth, eth0, le 8 0 ++ le 4 8)
    ∧ sEth.rxOk (dgram 10 0 0 []) 10 = some (xEth, eth0, []) ∧ sEth.rxOk (dgram 11 0 0 []) 11 = some (xEth, eth0, []) :=
  ⟨by decide, dgram_accepted .., dgram_accepted .., dgram_accepted .., dgram_accepted .., dgram_accepted ..⟩
theorem test_hyp_datagrams_behind : (sEth.get (Adr.SESS 5) Fl.SESS_CMD_HEAD + 2 ^ 32 - (dgram 4 1 0 (List.replicate 72 1)).head.index % 2 ^ 32) % 2 ^ 32 = 0
    ∧ eth0.cmds.length < (((descsOf 1 (List.replicate 72 1)).drop 0).take (2 ^ xEth.rings.cmdLog2)).length ∧ sEth.host.wrBad = [] := by
  refine ⟨?_, by decide, rfl⟩
  rw [show (dgram 4 1 0 (List.replicate 72 1)).head.index = 0 from rfl]
  decide
/-- Another TYPE, a channel of the other port, a payload too short for its tag. -/
theorem test_hyp_datagrams_discarded : sEth.rxOk ⟨0, hostHead 5 0 5 9 0, []⟩ 4 = none ∧ sEth.rxOk ⟨0, { hostHead 4 0 5 9 0 with channel := 2 }, []⟩ 4 = none
    ∧ sEth.rxOk ⟨0, hostHead 7 0 5 9 0, []⟩ 7 = none ∧ sEth.rxOk ⟨0, hostHead 8 0 5 9 0, []⟩ 8 = none ∧ sEth.rxOk ⟨0, hostHead 10 0 5 9 0, []⟩ 10 = none
    ∧ sEth.rxOk ⟨0, hostHead 11 0 5 9 0, []⟩ 11 = none := by decide
theorem test_hyp_idle : sEth.sess? 5 = some xEth ∧ sEth.sessState 5 = 2 ∧ sEth.tick < eth0.lastRx + 6250000000
    ∧ ({ eth0 with lastRx := 6243750000000 } : EthSide).lastRx + 6250000000 ≤ sEth.tick := by decide
theorem test_hyp_eth_parity : (withBad [] [(0xAA, 0, false)] sEth).flt.armed 0xAA 0 false = true ∧ sEth.flt.armed 0xAA 0 false = false
    ∧ (withBad [] [(0xAA, 0, false)] sEth).classFor 0xAA ≠ 2 ∧ sEth.checkBad 0xA7 5 = false ∧ (withBad [] [(0xAA, 0, false)] sEth).regsWf = true
    ∧ ({ sOn with ctl := { sOn.ctl with boot := { sOn.boot with warmDue := true } } } : State).boot.warmDue = true := by decide
def xRekey : Sess := { eth := some eth0, taken := some (tk 0x0004 2 [] []) }
theorem test_hyp_rekey : (openSess 5 2 3 xRekey sOn).runs 5 0x0004 (tk 0x0004 2 [] []) ∧ (openSess 5 2 3 xRekey sOn).sess? 5 = some xRekey
    ∧ 2 ≤ (openSess 5 2 3 xRekey sOn).sessCarrier 5 ∧ (openSess 5 2 3 xRekey sOn).pastBulk 5 0x1000 0 = false := by decide
def tkNet : Taken := tk 0x0007 1 [(24, [2])] (List.replicate 64 9)
theorem test_hyp_net_cfg : (took tkNet sOn).runs 5 0x0007 tkNet ∧ tkNet.p 24 1 = 2 ∧ 64 ≤ tkNet.bufLen
    ∧ netAddr sOn.host.net1 ≠ netAddr (fit 64 tkNet.buf) ∧ netAddr [] = netAddr (fit 64 []) := by decide

/-! ## Hypotheses that are met: further mailbox commands -/

def tkPeriod : Taken := tk 0x0300 1 [(24, List.replicate 18 255), (42, le 2 0x1ff)] []
theorem test_hyp_loop_period : (took tkPeriod sOn).regsWf = true ∧ (took tkPeriod sOn).runs 5 0x0300 tkPeriod ∧ tkPeriod.p 42 2 ≤ 0x1ff
    ∧ 143 < numCombs sOn.variant ∧ (tkPeriod.p 24 18).testBit 143 = true ∧ sOn.powered (combDomain sOn.variant 143) = true := by decide
def tkRun (proc : Nat) : Taken := tk 0x0400 1 [(24, [BitVec.ofNat 8 proc]), (26, le 2 1024)] []
theorem test_hyp_cal_run : (took (tkRun 6) (sOn.putFlag Adr.FR_STAT Fl.FR_STAT_VALID true)).runs 5 0x0400 (tkRun 6)
    ∧ (tkRun 6).proc = 6 ∧ (tkRun 6).avg = 1024 ∧ (tkRun 6).lanesFlag = false
    ∧ (took (tkRun 6) (sOn.putFlag Adr.FR_STAT Fl.FR_STAT_VALID true)).frValid = true ∧ (tkRun 4).proc = 4
    ∧ (tkRun 4).calCombs sOn.variant = [] ∧ (took (tkRun 4) sOn).ctl.cal.runs = [] := by decide
theorem test_hyp_cal_run_full : ∀ c ∈ (tkRun 6).calCombs sOn.variant,
    (took (tkRun 6) sOn).get (Adr.DRV_CFG c) Fl.DRV_CFG_GAIN = (took (tkRun 6) sOn).get (Adr.DRV_CFG c) Fl.DRV_CFG_GAIN_ACT
    ∧ ((took (tkRun 6) sOn).comb c).procs = [] := by decide +kernel
def tkApply : Taken := { tk 0x0401 1 [] [] with flags := 1 }
theorem test_hyp_cal_apply : (took tkApply sOn).runs 5 0x0401 tkApply ∧ tkApply.flag 0 = true ∧ (took tkApply sOn).ledgerRoom 1 = true
    ∧ (took tkApply sOn).powered (combDomain sOn.variant 0) = true ∧ (took tkApply sOn).engine 0 ≠ 4 ∧ ((took tkApply sOn).sess? 5).isSome = true := by decide
theorem test_hyp_cal_apply_idle : (took tkApply sOn).calBusy = false := by decide +kernel
theorem test_hyp_cal_save : (took { tk 0x0402 1 [] [] with bufLen := imageLen .t512 } sOn).runs 5 0x0402 { tk 0x0402 1 [] [] with bufLen := imageLen .t512 }
    ∧ (took { tk 0x0402 1 [] [] with bufLen := imageLen .t512 } sOn).dmaOk 5 = true := by decide
theorem test_hyp_cal_restore_bad : (took { tk 0x0403 1 [] [] with bufLen := imageLen .t512, sigOk := false } sOn).runs 5 0x0403 { tk 0x0403 1 [] [] with bufLen := imageLen .t512, sigOk := false }
    ∧ ({ tk 0x0403 1 [] [] with bufLen := imageLen .t512, sigOk := false } : Taken).flag 1 = false := by decide

def tkKey (rm : Nat) : Taken := tk 0x0500 1 [(24, le 2 511), (26, [BitVec.ofNat 8 rm])] []
theorem test_hyp_digest_key : (took (tkKey 0) sOn).runs 5 0x0500 (tkKey 0) ∧ sOn.has .stampU = true ∧ (tkKey 1).port < numPorts sOn.variant
    ∧ (tkKey 1).p 26 1 ≤ 1 ∧ (tkKey 0).p 26 1 = 0 ∧ (took (tkKey 0) sOn).ledgerRoom 1 = true ∧ (took (tkKey 0) sOn).pairMode = false ∧ (took (tkKey 0) sOn).role ≠ 2 := by decide
def tkQ (op role : Nat) : Taken := tk op role [(24, le 2 0xffff)] []
def sQ (op role ch : Nat) : State :=
  { (took (tkQ op role) sOn).put (Adr.QW 5) Fl.QW_CHANNEL ch with exp := { queues := [(5, {})] } }
theorem test_hyp_queue_cmds : (sQ 0x0600 3 0).runs 5 0x0600 (tkQ 0x0600 3) ∧ sOn.has .exportU = true ∧ (tkQ 0x0600 3).mask.testBit 3 = true
    ∧ (tkQ 0x0600 3).p 24 2 = 0xffff ∧ (sQ 0x0600 3 0).sessState 5 ≠ 0 ∧ (sQ 0x0600 3 0).queue? 5 = some {} ∧ (sQ 0x0600 3 0).regsWf = true
    ∧ (sQ 0x0601 2 0).runs 5 0x0601 (tkQ 0x0601 2) ∧ (tkQ 0x0601 2).mask.testBit 1 = true ∧ (sQ 0x0601 2 0).chan 5 = 0
    ∧ (sQ 0x0601 2 1).chan 5 ≠ 0 ∧ (sQ 0x0601 2 1).isFc 5 = false ∧ (sQ 0x0601 2 1).runs 5 0x0601 (tkQ 0x0601 2) := by decide
def tkPtp : Taken := tk 0x0700 1 [(24, [1, 2]), (27, [3]), (29, [4]), (36, le 2 1000)] []
theorem test_hyp_ptp_cmds : (took tkPtp sOn).runs 5 0x0700 tkPtp ∧ tkPtp.p 24 1 ≤ 1 ∧ tkPtp.p 25 1 = 2 ∧ 1 ≤ tkPtp.p 27 1 ∧ tkPtp.p 27 1 ≤ 3
    ∧ -7 ≤ signed 8 (tkPtp.p 29 1) ∧ signed 8 (tkPtp.p 29 1) ≤ 4 ∧ tkPtp.p 36 2 ≤ 1000 ∧ tkPtp.p 38 1 = 0 ∧ 24 * tkPtp.p 38 1 ≤ tkPtp.bufLen
    ∧ (took tkPtp sOn).get (tdAdr tkPtp.dom) Fl.TD_SRC ≠ 1 ∧ (took tkPtp (sOn.put (tdAdr .B) Fl.TD_SRC 1)).get (tdAdr tkPtp.dom) Fl.TD_SRC = 1
    ∧ (took { tk 0x0701 1 [] [] with bufLen := 64 } sOn).runs 5 0x0701 { tk 0x0701 1 [] [] with bufLen := 64 } := by decide

def tkLr : Taken := { tk 0x0800 3 [(32, le 4 1)] [] with bufLen := 128, flags := 1 }
def sLr : State := { took tkLr sOn with led := { entries := [{ seq := 0 }, { seq := 1 }] } }
theorem test_hyp_ledger_read : sLr.regsWf = true ∧ sLr.runs 5 0x0800 tkLr ∧ tkLr.mask.testBit 4 = true ∧ 128 ≤ tkLr.bufLen ∧ sLr.ctl.flt.badItems = []
    ∧ sLr.ovTotal = 0 ∧ tkLr.flag 0 = true ∧ (sLr.readEntries (tkLr.p 24 8) (tkLr.p 32 4) tkLr.bufLen).getLast? ≠ none := by decide
theorem test_hyp_ledger_others : (took { tk 0x0801 3 [] [] with bufLen := 224 } sOn).runs 5 0x0801 { tk 0x0801 3 [] [] with bufLen := 224 }
    ∧ (took { tk 0x0801 3 [] [] with bufLen := 224 } sOn).checkpointFor 0 = none
    ∧ (took { tk 0x0802 2 [] [] with bufLen := 536 } sOn).runs 5 0x0802 { tk 0x0802 2 [] [] with bufLen := 536 }
    ∧ (tk 0x0803 2 [] []).mask.testBit 5 = true := by decide
theorem test_hyp_identity : (took { tk 0x0803 2 [] [] with bufLen := Config.chainLen } sOn).runs 5 0x0803 { tk 0x0803 2 [] [] with bufLen := Config.chainLen }
    ∧ (took { tk 0x0803 2 [] [] with bufLen := Config.chainLen } sOn).pastBulk 5 0x1000 Config.chainLen = false := by
  refine ⟨⟨rfl, by decide, by decide, by decide⟩, ?_⟩
  simp [State.pastBulk, show (took { tk 0x0803 2 [] [] with bufLen := Config.chainLen } sOn).sessCarrier 5 = 0 from by decide]

def tkRestart : Taken := tk 0x0A00 1 [(24, [143])] []
theorem test_hyp_restart : (took tkRestart sOn).runs 5 0x0A00 tkRestart ∧ tkRestart.p 24 1 < numCombs sOn.variant
    ∧ (took tkRestart (onWith [(Adr.MC_STAT 143, 2)])).engine (tkRestart.p 24 1) = 2 ∧ (took tkRestart sOn).engine (tkRestart.p 24 1) ≠ 2
    ∧ (took tkRestart (onWith [(Adr.MC_STAT 143, 2)])).ledgerRoom 1 = true ∧ (took tkRestart (onWith [(Adr.MC_STAT 143, 2)])).regsWf = true
    ∧ (took tkRestart sOn).ctl.tablesWf = true ∧ (took (tk 0x0A00 2 [] []) sOn).runs 5 0x0A00 (tk 0x0A00 2 [] []) := by decide
/-- An image of class 0 for every variant, its payload empty: header, and the signature of it where `ok`. -/
def imageHead (level : Nat) : List Byte :=
  le 4 0x4B434E4B ++ [1, 0] ++ le 2 15 ++ le 4 level ++ [64] ++ List.replicate 19 0 ++ be 16 0x530f8afbc74536b9a963b4f1c4cb738b
    ++ be 48 0x38b060a751ac96384cd9327eb1b1e36a21fdb71114be07434c0cc7bf63f6e1da274edebfe76f65fbd51ad2f14898b95b ++ List.replicate 32 0
def sig1 : List Byte := be 96 0x0b9eeb6fed0ee2e53ed882ab96e5abc0c17df74e85d6bdd86df83a635b0be059ad48cdda906eb74a09e6b670cd8838322baa686ec6648533dfe33d3ea32ad6c052f120e3cca7119c1b938bcde65d9257be88cf800ea2b203ec413e0635da5ab1
def sig2 : List Byte := be 96 0x0b9eeb6fed0ee2e53ed882ab96e5abc0c17df74e85d6bdd86df83a635b0be059ad48cdda906eb74a09e6b670cd8838324f5f548f6f0bdff7da21b196498f8b1b8214e64792e60e3bdc29dae8cf6937323e7cdb04f628da82d885851a7dce63b5
def bank (level : Nat) (sig : List Byte) : BankIn := ⟨imageHead level ++ sig ++ List.replicate 32 0⟩
theorem test_bank_signed : (bank 1 sig1).signed keys7 = true ∧ (bank 2 sig2).signed keys7 = true ∧ (bank 1 sig2).signed keys7 = false := by decide +kernel
theorem test_bank_plain : (bank 1 sig1).plain keys7 = some [] ∧ (bank 2 sig2).plain keys7 = some [] := by decide +kernel
def tkImage (cls : Nat) (sig : List Byte) : Taken := tk 0x0B00 1 [(24, [BitVec.ofNat 8 cls])] (bank 1 sig).image
/-- `sOn` as a module made with those keys. -/
def sKeys : State := { sOn with flash := { keys := keys7 } }
theorem test_hyp_image : (took (tkImage 0 sig1) sKeys).runs 5 0x0B00 (tkImage 0 sig1) ∧ (tkImage 0 sig1).cls ≤ 1 ∧ 256 ≤ (tkImage 0 sig1).bufLen
    ∧ BankIn.signed ⟨(tkImage 0 sig1).buf⟩ (took (tkImage 0 sig1) sKeys).flash.keys = true ∧ BankIn.signed ⟨(tkImage 0 sig2).buf⟩ sKeys.flash.keys = false
    ∧ rdLE (tkImage 0 sig1).buf 0 4 = 0x4B434E4B ∧ rdLE (tkImage 0 sig1).buf 5 1 = (tkImage 0 sig1).cls ∧ rdLE (tkImage 1 sig1).buf 5 1 ≠ (tkImage 1 sig1).cls
    ∧ (took (tkImage 0 sig1) sKeys).ledgerRoom 1 = true ∧ (took (tk 0x0B01 3 [(24, [1])] []) sOn).runs 5 0x0B01 (tk 0x0B01 3 [(24, [1])] []) := by
  refine ⟨by decide +kernel, by decide +kernel, by decide +kernel, test_bank_signed.1, test_bank_signed.2.2, ?_⟩
  decide +kernel

/-! ## Hypotheses that are met: stamping, policing, export -/

/-- A receiver of port 511 with these STAT flags and this RATE. -/
def sRx (lock acq : Bool) (rate : Nat) (x : Srx) : State :=
  { (((sOn.putFlag (Adr.SRX_STAT 511) Fl.SRX_STAT_LOCK lock).putFlag (Adr.SRX_STAT 511) Fl.SRX_STAT_ACQ acq).put (Adr.SRX_CFG 511) Fl.SRX_CFG_RATE rate) with
    exp := { srx := SMap.put {} [] 511 x } }
def frame0 : Frame := ⟨5, 6, 7, 8, 0, 0, false, 1, 0, 0, none, false, false, [], 0, 0x40⟩
theorem test_hyp_receivers : (sRx true false 2 {}).regsWf = true ∧ (sRx true false 2 { disablePend := true }).exp.tablesWf = true
    ∧ (sRx true false 2 {}).srxOn 511 = true ∧ (sRx false true 2 {}).flag (Adr.SRX_STAT 511) Fl.SRX_STAT_ACQ = true
    ∧ (sRx true false 2 {}).flag (Adr.SRX_STAT 511) Fl.SRX_STAT_LOCK = true ∧ ((sRx true false 2 {}).srx 511).disablePend = false
    ∧ 2 ≤ (sRx false true 2 {}).get (Adr.SRX_CFG 511) Fl.SRX_CFG_RATE ∧ ((sRx false true 2 {}).srx 511).tryTick + msTicks 4 ≤ (sRx false true 2 {}).tick
    ∧ (sRx false true 2 { tryTick := 6250000000000 }).tick < ((sRx false true 2 { tryTick := 6250000000000 }).srx 511).tryTick + msTicks 4
    ∧ (1 : Word).getLsbD 0 = true ∧ (sRx false false 2 {}).flag (Adr.SRX_CFG 511) Fl.SRX_CFG_EN = false
    ∧ ((sRx true false 2 { frame := some frame0 }).srx 511).frame = some frame0
    ∧ getBits 2 1 2 = 1 ∧ (sRx true false 2 {}).get (Adr.SRX_STAT 511) Fl.SRX_STAT_RATE_ACT ≠ getBits (if (sRx true false 2 {}).get (Adr.SRX_STAT 511) Fl.SRX_STAT_RATE_ACT = 1 then 0 else 2) 1 2
    ∧ sOn.srxOn 512 = false ∧ ((sRx true false 2 {}).srx 511).applyAt = none ∧ ((sRx true false 2 { applyAt := some 5 }).srx 511).applyAt ≠ none := by decide

def stampRec (p tick : Nat) (bad : Bool) : Rec := ⟨[0, 0, 0, 0, 0, 0, 0], p, tick, bad⟩
def linkRec (p : Nat) : Rec := ⟨[6, 0, 0, 0, 0, 0, 0], p, 5, false⟩
def sTile (fifo intake : List Rec) : State := { sOn with exp := { tiles := [(3, ⟨fifo, intake⟩)] } }
theorem test_hyp_frames : ((sRx true false 2 { wrapPend := true }).srx 511).wrapPend = true ∧ (sRx true false 2 {}).get (Adr.SRX_SEQ 511) Fl.SRX_SEQ_NEXT = 0
    ∧ firstRule frame0.rules [] 64 = none ∧ firstRule [{ en := true }] [] 64 = some ({ en := true }, 0) ∧ frame0.dom < 2 ∧ frame0.tq < 2
    ∧ stampCount ((sTile [] []).tile 3).fifo < 4096 ∧ (sTile [] []).exp.tablesWf = false := by decide
theorem test_hyp_full_fifo : 4096 ≤ stampCount ((sTile (List.replicate 4096 (stampRec 511 5 false)) []).tile 3).fifo
    ∧ (sTile (List.replicate 4096 (stampRec 511 5 false)) []).exp.tablesWf = true := by decide +kernel
theorem test_hyp_records : ((sTile [stampRec 511 5 false] []).tile 3).fifo = [stampRec 511 5 false] ∧ (stampRec 511 5 false).isStamp = true
    ∧ stampCount ((sTile [stampRec 511 5 false] []).tile 3).intake < 1024 ∧ (linkRec 511).isStamp = false
    ∧ ((sTile [] [stampRec 511 5 false]).tile 3).intake = [stampRec 511 5 false] ∧ agedOut (sTile [] []) (stampRec 511 5 false) = true
    ∧ agedOut (sTile [] []) (stampRec 511 6250000000000 false) = false ∧ sOn.dests 511 = [] ∧ (stampRec 511 5 true).bad = true := by decide
theorem test_hyp_link_errors : (withBad [] [(0x97, 0, false)] (sTile [linkRec 511] [])).flt.armed (0x94 + 3) 0 false = true
    ∧ (withBad [] [(0x93, 0, false)] (sTile [linkRec 511] [])).flt.armed (0x90 + 3) 0 false = true ∧ faultExists sOn.variant (0x94 + 3) = true
    ∧ faultExists sOn.variant (0x90 + 3) = true ∧ (sTile [linkRec 511] []).flt.armed (0x94 + 3) 0 false = false
    ∧ (sTile [linkRec 511] []).flt.armed (0x90 + 3) 0 false = false ∧ (linkRec 511).bad = false := by decide
theorem test_hyp_full_intake : 1024 ≤ stampCount ((sTile [stampRec 511 5 false] (List.replicate 1024 (stampRec 511 5 false))).tile 3).intake := by
  decide +kernel
/-- Port 511's records go to owner session 5. -/
def sDest (share : Nat) : State :=
  { (((openSess 5 1 0 { mask := 0x3F } sOn).putFlag (Adr.POL 511) Fl.POL_OWNER true).putFlag Adr.EXP Fl.EXP_OWNER_Q_EN true).put Adr.EXP Fl.EXP_OWNER_Q 5
      |>.put (Adr.QW 5) Fl.QW_SHARE share with exp := { queues := [(5, {})], tiles := [(3, ⟨[], [linkRec 511]⟩)] } }
theorem test_hyp_handoff : (sDest 1).dests 511 = [5] ∧ (sDest 1).queue? 5 = some {} ∧ ({} : Queue).normal < (sDest 1).share 5 * 32768
    ∧ (sDest 0).share 5 * 32768 ≤ ({} : Queue).normal ∧ (sDest 0).dests 511 = [5] ∧ ((sDest 1).tile 3).intake = [linkRec 511]
    ∧ (sDest 1).regsWf = true ∧ (sDest 1).exp.tablesWf = true := by decide
/-- A LOSS record of port 511 formed at a point, as it waits. -/
def lossRec (point : Nat) : Rec := ⟨[2 + 65536 * point, 0, 0, 0, 9, 1, 0], 511, 5, false⟩
theorem test_hyp_waiting_loss : ((sTile [stampRec 511 5 false, lossRec 0] []).tile 3).fifo.find? (fun y => y.lossOf 0 511) = some (lossRec 0)
    ∧ (∀ y ∈ ((sTile [stampRec 511 5 false, lossRec 1] []).tile 3).fifo, y.lossOf 0 511 = false) ∧ (lossRec 1).lossOf 1 511 = true
    ∧ (∀ n, n < 4 → ∀ y ∈ ((sTile [] [stampRec 511 5 false]).tile n).intake, y.kind = 2 → y.point ≠ 1) := by decide
theorem test_hyp_tile_turn : (sTile [] [linkRec 511]).nextTile = some 3 ∧ (sTile [] []).nextTile = none ∧ (sTile [] []).exp.turn = 3
    ∧ ({ sOn with exp := { turn := 2, tiles := [(3, ⟨[], [linkRec 511]⟩)] } } : State).nextTile = some 3 ∧ (sDest 1).nextTile = some 3
    ∧ ∀ n, n < 4 → n ≠ 3 → ((sTile [] [linkRec 511]).tile n).intake = [] := by decide
def dropped (t : Nat) : DropAcc := ⟨1, 2, 2, t⟩
theorem test_hyp_loss : 0 < ((sRx true false 2 { drop0 := dropped 5, drop1 := dropped 5 }).srx 511).drop0.count
    ∧ ((sRx true false 2 { drop0 := dropped 5, drop1 := dropped 5 }).srx 511).drop1.tick + usTicks 100 ≤ sOn.tick
    ∧ sOn.tick < ((sRx true false 2 { drop0 := dropped 6250000000000 }).srx 511).drop0.tick + usTicks 100
    ∧ (sOn.srx 511).drop0.count = 0 := by decide
/-- A two-rate policer with empty buckets judges RED. -/
def polRed : Policer := { set := { meter := 2 }, first := false, k0 := 6250000000000 }
def sPol : State := { sRx true false 2 { pol := polRed } with exp := { srx := [(511, { pol := polRed })], tiles := [(3, ⟨[], [stampRec 511 6250000000000 false]⟩)] } }
theorem test_hyp_policer : sPol.regsWf = true ∧ sPol.exp.tablesWf = true ∧ sPol.has .exportU = true ∧ 511 < numPorts sPol.variant
    ∧ (polRed.meter 6250000000000 0).1 = 2 ∧ agedOut sPol (stampRec 511 6250000000000 false) = false ∧ (sPol.tile 3).intake = [stampRec 511 6250000000000 false]
    ∧ (sPol.srx 511).pol.set.aware = false ∧ (sPol.srx 511).pol.wins = []
    ∧ ({ wnum := 0, ended := true } : PolWin).ended = true ∧ (0 + 1) * windowTicks + 625000000 ≤ sPol.tick ∧ sPol.dests 511 = [] := by decide

/-! ## Hypotheses that are met: channels, faults, temperature, starts -/

def item (n : Nat) : QItem := ⟨linkRec 511, 5, 0, n⟩
/-- Session 5's queue on channel `ch` holds `items`; `f` is what else is written. -/
def sChan (ch : Nat) (x : Queue) (z : Sess) (f : State → State) : State :=
  { (f (openSess 5 1 0 z sOn)).put (Adr.QW 5) Fl.QW_CHANNEL ch with exp := { queues := [(5, x)] } }
def x3 : Queue := { items := [item 0, item 1, item 2], f := some 7 }
theorem test_hyp_channel_pcie : (sChan 0 x3 {} id).regsWf = true ∧ (sChan 0 x3 {} id).exp.tablesWf = true ∧ (∀ q ∈ (sChan 0 x3 {} id).queueIds, q < 4096)
    ∧ (∀ e ∈ (sChan 0 x3 {} id).exp.queues, ∀ i ∈ e.2.items, i.r.bad = false) ∧ (sChan 0 x3 {} id).mayStart 0 1 = true
    ∧ (sChan 0 x3 {} id).wfqPick 0 = some 5 ∧ (sChan 0 x3 {} id).queue? 5 = some x3 ∧ (sChan 0 x3 {} id).sess? 5 = some {}
    ∧ (sChan 0 {} {} id).wfqPick 0 = none := by decide
/-- One tick after a refill. -/
def sChan1 : State := { sChan 0 x3 {} id with tick := 6250000000001 }
theorem test_hyp_refilled : shaperRefill sChan1 = sChan1 ∧ (sChan 0 x3 {} id).exp.refillAt = none ∧ sChan1.mayStart 0 1 = true
    ∧ sChan1.wfqPick 0 = some 5 ∧ (sChan 0 x3 {} id).wrFails 5 = false
    ∧ ({ sChan 0 x3 {} id with host := { (sChan 0 x3 {} id).host with wrBad := [0] } } : State).wrFails 5 = true := by
  refine ⟨?_, by decide, by decide, by decide, by decide, by decide⟩
  rw [shaperRefill, if_neg (by decide)]
def rec3 (s : State) : State := s.put Adr.EXP Fl.EXP_MAX_REC 3
/-- A datagram of the three records that wait may start on the Ethernet channel; with QPOS 0, 2 and 3 one of the first alone. -/
def x3gap : Queue := { items := [item 0, item 2, item 3] }
def sEth3 (x : Queue) : State := { sChan 1 x {} rec3 with tick := 6250000000001 }
theorem test_hyp_channel_eth : (sEth3 x3).maxRec = 3 ∧ (sEth3 x3).dgramLen 5 x3 3 true = 3 ∧ (sEth3 x3).mayStart 1 3 = true ∧ (sEth3 x3).wfqPick 1 = some 5
    ∧ (sEth3 x3gap).dgramLen 5 x3gap 3 true = 1 ∧ (sEth3 x3gap).mayStart 1 1 = true ∧ (sEth3 x3gap).wfqPick 1 = some 5
    ∧ (sEth3 x3).chan 5 = 1 ∧ (item 0).enter + usTicks (sEth3 x3).flushUs ≤ (sEth3 x3).tick ∧ (sEth3 x3).eligible 5 = true := by decide
theorem test_hyp_flush : shaperRefill (sEth3 x3) = sEth3 x3 ∧ ({ items := [item 0], f := some 7 } : Queue).items.length < (sEth3 x3).maxRec
    ∧ (sEth3 { items := [item 0], f := some 7 }).mayStart 1 1 = true ∧ (sEth3 { items := [item 0], f := some 7 }).wfqPick 1 = some 5 := by
  refine ⟨?_, by decide, by decide, by decide⟩
  rw [shaperRefill, if_neg (by decide)]
/-- EXPORT_FLUSH of a weighted queue of one record, its channel free or reserved. -/
def sMarks (busy : SMap Nat) : State :=
  let s := took (tkQ 0x0601 2) (sEth3 { items := [item 0], f := some 7, flushPos := 1 })
  { s with exp := { s.exp with busy := busy } }
theorem test_hyp_export_flush : (sMarks []).runs 5 0x0601 (tkQ 0x0601 2) ∧ (sMarks []).chan 5 = 1 ∧ (sMarks []).isFc 5 = false
    ∧ (sMarks []).queue? 5 = some { items := [item 0], f := some 7, flushPos := 1 } ∧ (item 0).r.bad = false
    ∧ (sMarks []).wfqPick 1 = some 5 ∧ (sMarks []).fits 1 (sendTicks 1 1) = true ∧ (sMarks [(1, 6250000000099)]).fits 1 (sendTicks 1 1) = false
    ∧ (sMarks []).flag (Adr.QW 5) Fl.QW_SH_EN = false ∧ (sMarks []).tick % 625 ≠ 0 ∧ (sMarks []).regsWf = true := by decide
def fc (s : State) : State := ((s.putFlag (Adr.QW 5) Fl.QW_FC_EN true).putFlag (Adr.QW 5) Fl.QW_SH_EN true)
theorem test_hyp_slots : sOn.tick % 625 = 0 ∧ ({ sOn with tick := 1 } : State).tick % 625 ≠ 0 ∧ (sChan 0 x3 {} fc).isFc 5 = true
    ∧ (sChan 0 x3 {} fc).tick % (sChan 0 x3 {} fc).fcTicks 5 = 0 ∧ x3.shadow = false ∧ (sChan 0 x3 {} fc).ringOpen 5 = true
    ∧ (sChan 0 x3 {} fc).flag (Adr.QW 5) Fl.QW_SH_EN = true ∧ (sChan 0 x3 {} id).flag (Adr.QW 5) Fl.QW_SH_EN = false ∧ (sChan 0 x3 {} id).isFc 5 = false := by decide
theorem test_hyp_slots_served : (sChan 0 x3 {} fc).slotsServed 0 = false ∧ SMap.find 0 (sChan 0 x3 {} fc).exp.busy 0 ≤ (sChan 0 x3 {} fc).tick
    ∧ ({ sOn with exp := { slotAt := [(0, 6250000000000)], refillAt := some 6250000000000 } } : State).slotsServed 0 = true
    ∧ (sChan 0 x3 {} fc).tick < SMap.find 0 ({ sOn with exp := { busy := [(0, 6250000000001)] } } : State).exp.busy 0
    ∧ sOn.tick % 625000 = 0 ∧ (sChan 0 x3 {} fc).queueIds = [5] := by decide
theorem test_hyp_queue_loss : 0 < ({ lost := 3, lostTick := 5 } : Queue).lost ∧ 5 + usTicks 100 ≤ sOn.tick ∧ ({ lost := 3 } : Queue).hasSlot 1 = false
    ∧ sOn.tick < 6250000000000 + usTicks 100 ∧ ({ sOn with variant := .t256 } : State).variant = .t256 ∧ sOn.variant ≠ .t256 := by decide

def sFlt (r : Reported) (n : Nat) : State := { sOn with ctl := { sOn.ctl with flt := { reports := [(0xB0, r)], totals := [(0xB0, n)] } } }
theorem test_hyp_fatal : sOn.boot.porLow = false ∧ sOn.boot.dead = false ∧ sOn.flag (Adr.FLT_SRC 0xF0) Fl.FLT_SRC_VALID = false ∧ sOn.fatal = false
    ∧ sOn.flag Adr.FLT_GSTAT Fl.FLT_GSTAT_FIRST_VALID = false ∧ (sOn.putFlag (Adr.FLT_SRC 0xF0) Fl.FLT_SRC_VALID true).flag (Adr.FLT_SRC 0xF0) Fl.FLT_SRC_VALID = true
    ∧ ((sFlt ⟨5, 1, false⟩ 2).flt.reports.find? fun e => e.1 == 0xB0) = some (0xB0, ⟨5, 1, false⟩) ∧ (sFlt ⟨5, 1, false⟩ 2).gwqRuns = true
    ∧ (1 : Nat) < SMap.find 0 (sFlt ⟨5, 1, false⟩ 2).flt.totals 0xB0 ∧ 5 + 625000000 ≤ (sFlt ⟨5, 1, false⟩ 2).tick ∧ (sFlt ⟨5, 1, false⟩ 2).involRoom = true
    ∧ (sFlt ⟨5, 1, false⟩ 2).ovTotal = 0 ∧ SMap.find 0 (sFlt ⟨5, 2, false⟩ 2).flt.totals 0xB0 ≤ 2
    ∧ (sOn.flt.reports.find? fun e => e.1 == 0xB0) = none := by decide
theorem test_hyp_releases : sOn.regsWf = true ∧ sOn.ctl.tablesWf = true ∧ sOn.bridgeOn = true ∧ sOn.relAllowed 143 = true ∧ sOn.relAllowed 144 = false
    ∧ ((onCtl [] fun c => { c with lanes := [(64 * 143 + 63, { faultPark := true })] }).lane (64 * 143 + 63)).faultPark = true
    ∧ ((onCtl [] fun c => { c with combs := [(143, { holdPar := true })] }).comb 143).holdPar = true
    ∧ injectable sOn.variant (getBits 0x200 0 8) (getBits 0x200 8 4) = true ∧ injectable sOn.variant (getBits 0x300 0 8) (getBits 0x300 8 4) = false
    ∧ State.reset.bridgeOn = false := by decide
def hotT (n : Nat) (x : Int) : Temps := (List.range 80).map fun k => if k = n then (x, true) else (300, true)
theorem test_hyp_thermal : sOn.sensorOn 79 = true ∧ (hotT 79 952).getD 79 (0, false) = (952, true) ∧ 79 ∈ tileSensors 3 ∧ 3 < numTiles sOn.variant
    ∧ (onCtl [] fun c => { c with flt := { hot := true } }).flt.hot = true ∧ sOn.flt.hot = false ∧ sOn.flt.shutdown = false
    ∧ State.reset.sensorOn 0 = false := by decide
theorem test_hyp_thermal_cool : ∀ n, n < 80 → sOn.sensorOn n = true → ((hotT 80 0).getD n (0, false)).2 = true →
    -32768 ≤ ((hotT 80 0).getD n (0, false)).1 ∧ ((hotT 80 0).getD n (0, false)).1 < 360 := by decide +kernel

/-- A start that finds these two banks of Gwynique's image, and empty ones of microcode. -/
def bootIn (b0 b1 : BankIn) (mode : Nat) : BootIn :=
  ⟨mode, true, true, true, b0, b1, ⟨[]⟩, ⟨[]⟩, true, true, true, true, true, []⟩
def sBoot (b : BootUnit) : State := { State.reset with ctl := { boot := b } }
def boot1 (mode : Nat) : BootIn := bootIn (bank 1 sig1) (bank 2 sig2) mode
theorem test_hyp_resets : State.reset.regsWf = true ∧ sOn.boot.sysLow = false ∧ (sBoot { porLow := false, sysLow := true }).boot.sysLow = true
    ∧ State.reset.boot.porLow = true ∧ State.reset.boot.dead = false ∧ State.reset.boot.sysLow = false ∧ (boot1 0).ownerClrHeld = true
    ∧ (boot1 2).bootMode = 2 ∧ (boot1 0).bootMode ≠ 2 ∧ (sBoot { sysLow := true }).boot.porLow = true ∧ (sBoot { sysLow := true }).boot.dead = false
    ∧ (boot1 0).loadFails = [] ∧ (sBoot { porLow := false, sysLow := true }).flt.shutdown = false ∧ (boot1 0).cspEn = true := by decide
theorem judge_signed (b : BankIn) (p : List Byte) (n : Nat) (hs : b.signed keys7 = true) (hp : b.plain keys7 = some p) (he : b.empty = false)
    (hr : b.rb = 64) (hv : rdLE b.image 4 1 = 1) (hc : b.cls = 0) (hm : b.mask = 15) (hn : n ≤ 64) : judgeBank keys7 .t512 0 b n = some 0 := by
  have h64 : ¬ 64 < n := by omega
  simp [judgeBank, hs, hp, he, hr, hv, hc, hm, h64, maskBit, Variant.isSmall]
theorem test_banks_judged (n : Nat) (hn : n ≤ 64) : judgeBank keys7 .t512 0 (bank 1 sig1) n = some 0 ∧ judgeBank keys7 .t512 0 (bank 2 sig2) n = some 0
    ∧ judgeBank keys7 .t512 0 (bank 1 sig2) n = some 1 :=
  ⟨judge_signed _ _ _ test_bank_signed.1 test_bank_plain.1 (by decide +kernel) (by decide +kernel) (by decide +kernel) (by decide +kernel) (by decide +kernel) hn,
    judge_signed _ _ _ test_bank_signed.2.1 test_bank_plain.2 (by decide +kernel) (by decide +kernel) (by decide +kernel) (by decide +kernel) (by decide +kernel) hn,
    by rw [judgeBank, if_neg (by decide +kernel), if_pos test_bank_signed.2.2]⟩
theorem test_hyp_banks (n : Nat) (hn : n ≤ 64) : chooseBank keys7 .t512 0 (bank 1 sig1) (bank 2 sig2) n = some 1
    ∧ chooseBank keys7 .t512 0 (bank 1 sig2) (bank 1 sig2) n = none := by
  obtain ⟨h1, h2, h3⟩ := test_banks_judged n hn
  constructor
  · rw [chooseBank, h1, h2]; decide +kernel
  · simp [chooseBank, h3]
/-- A module as made with those keys, right after reset. -/
def sMade : State := { State.reset with flash := { keys := keys7 } }
theorem test_hyp_banks_at_reset : sMade.regsWf = true
    ∧ chooseBank sMade.flash.keys sMade.variant 0 (sMade.flash.banksOf (boot1 0)).gwqBank0 (sMade.flash.banksOf (boot1 0)).gwqBank1 (sMade.rbCount 0) = some 1
    ∧ chooseBank sMade.flash.keys sMade.variant 0 (sMade.flash.banksOf (bootIn (bank 1 sig2) (bank 1 sig2) 0)).gwqBank0
        (sMade.flash.banksOf (bootIn (bank 1 sig2) (bank 1 sig2) 0)).gwqBank1 (sMade.rbCount 0) = none :=
  ⟨by decide, (test_hyp_banks _ (Nat.min_le_left ..)).1, (test_hyp_banks _ (Nat.min_le_left ..)).2⟩
/-- Stage 9 with the factory record good, a pilot, and no domain powered. -/
def sReady : State := { State.reset with
  tick := 6250000000000, ctl := { boot := { porLow := false, gwq := true } }
  regs := ((((State.reset.put Adr.BOOT_STAT Fl.BOOT_STAT_STAGE 9).putFlag Adr.FR_STAT Fl.FR_STAT_VALID true).wr Adr.PILOT_STAT 2)).regs }
theorem test_hyp_ready : sReady.gwqRuns = true ∧ sReady.get Adr.BOOT_STAT Fl.BOOT_STAT_STAGE = 9 ∧ sReady.regsWf = true ∧ sReady.fatal = false
    ∧ sReady.flash.pairKey = none ∧ sReady.readyNow = true := by
  refine ⟨by decide, by decide, by decide, by decide, by decide, ?_⟩
  have hp : ∀ n, sReady.powered n = false := fun n => by
    rw [State.powered, show sReady.get Adr.PWR_STAT Fl.PWR_STAT_PG = 0 from by decide, Nat.zero_testBit]
  simp [State.readyNow, State.primed, hp, show sReady.noPilot = false from by decide, show sReady.frValid = true from by decide]
def sShut : State := { sOn with ctl := { sOn.ctl with flt := { shutdown := true, coolSince := some 5 } } }
theorem test_hyp_cooled : sShut.flt.shutdown = true ∧ sShut.cooled = true ∧ sShut.boot.sysLow = false ∧ sShut.boot.cut = false ∧ sOn.cooled = false := by decide
def sStage (n : Nat) : State := ((sOn.put Adr.BOOT_STAT Fl.BOOT_STAT_STAGE n).putFlag Adr.DRV_STAT Fl.DRV_STAT_DRV_PG true).putFlag Adr.FR_STAT Fl.FR_STAT_VALID true
theorem test_hyp_drive_at_boot : (sStage 7).regsWf = true ∧ (sStage 7).gwqRuns = true ∧ (sStage 7).get Adr.BOOT_STAT Fl.BOOT_STAT_STAGE = 7
    ∧ (sStage 7).flag Adr.DRV_STAT Fl.DRV_STAT_DRV_PG = true ∧ (sStage 7).flag Adr.DRV_CTL Fl.DRV_CTL_EN = false ∧ (sStage 7).frValid = true
    ∧ (sStage 7).boot.recovery = false := by decide
/-- Stage 7 with its ramp over and its capture asked for; or with the capture done and the ramp at its end. -/
def sCapture (b : BootUnit) : State :=
  { (sStage 7).putFlag Adr.DRV_STAT Fl.DRV_STAT_EN_DONE true with ctl := { boot := { b with porLow := false, gwq := true }, pilot := { recapture := true } } }
def sRampEnd (b : BootUnit) : State := { sStage 7 with ctl := { boot := { b with porLow := false, gwq := true, rampEnd := some 6250000000000 } } }
theorem test_hyp_stage7_ends : (sCapture {}).regsWf = true ∧ (sCapture {}).gwqRuns = true ∧ (sCapture {}).get Adr.BOOT_STAT Fl.BOOT_STAT_STAGE = 7
    ∧ (sCapture {}).flag Adr.DRV_STAT Fl.DRV_STAT_EN_DONE = true ∧ (sCapture {}).ctl.pilot.recapture = true ∧ (sCapture {}).powered 24 = true
    ∧ (sCapture { selfCal := true }).boot.selfCal = true ∧ (sCapture { selfCal := true }).frValid = true ∧ (sCapture {}).boot.applied = false
    ∧ (sCapture { applied := true }).boot.applied = true ∧ (sCapture {}).boot.selfCal = false
    ∧ (sRampEnd {}).boot.rampEnd = some 6250000000000 ∧ (sRampEnd {}).tick % 5 = 0 ∧ (sRampEnd {}).gwqRuns = true
    ∧ (sRampEnd {}).ctl.pilot.recapture = false ∧ (sRampEnd {}).get Adr.BOOT_STAT Fl.BOOT_STAT_STAGE = 7 ∧ sRamp.get Adr.BOOT_STAT Fl.BOOT_STAT_STAGE ≠ 7 := by
  decide
theorem test_hyp_no_procedure : (sCapture { selfCal := true }).procAny = false := by decide +kernel
def sCp (uncov : Nat) : State := { sOn with led := { last := some { seq := 3 }, uncovFirst := 0, uncov := uncov, uncovTick := 5 } }
theorem test_hyp_checkpoint : (sCp 1024).regsWf = true ∧ checkpointDue (sCp 1024) = true ∧ checkpointDue (sCp 1) = true ∧ (sCp 1).led.last = some { seq := 3 }
    ∧ checkpointDue (sCp 0) = false ∧ (sCp 1).checkBad 0xA3 0 = false ∧ (withBad [(0xA3, 0)] [] (sCp 1)).checkBad 0xA3 0 = true
    ∧ checkpointDue (withBad [(0xA3, 0)] [] (sCp 1)) = true ∧ (sCp 1).led.sealTick = none ∧ 6249375000000 + 625000000 ≤ sOn.tick
    ∧ sOn.tick < 6249375000001 + 625000000 := by decide
def tkWarm : Taken := tk 0x0A01 1 [] []
/-- The issuer's session 5 and session 6, which holds `t`. -/
def sWarm (t : Option Taken) : State :=
  let s := (took tkWarm sOn).wr (Adr.SESS 6) (sessWord 2 0)
  { s with host := { s.host with sess := s.host.sess ++ [(6, { taken := t })] } }
theorem test_hyp_warm : (sWarm none).runs 5 0x0A01 tkWarm ∧ (sWarm none).ledgerRoom 1 = true ∧ SMap.rising (sWarm none).host.sess = true
    ∧ (∀ n ∈ (sWarm none).sessIds, n < 4096) ∧ (sWarm none).host.opening = [] ∧ (sWarm none).classFor 0xF1 = 1 ∧ (sWarm none).cmdsTaken = true
    ∧ (tk 0x0003 1 [] []).kept = false ∧ ({ tk 0x0104 1 [] [] with phase := .waiting } : Taken).kept = true ∧ sOn.taken? 5 0x0A01 = none
    ∧ ({ sOn with ctl := { sOn.ctl with boot := { sOn.boot with warm := some 5 } } } : State).boot.warm = some 5 ∧ sOn.cmdsTaken = false
    ∧ (withBad [(0xA0, 5)] [] (took (tk 0x0B01 1 [] []) sOn)).checkBad 0xA0 5 = true ∧ sOn.classFor 0xA0 = 1 ∧ faultExists sOn.variant 0xA0 = true
    ∧ (withBad [(0xA0, 5)] [] (took (tk 0x0B01 1 [] []) sOn)).taken? 5 0x0B01 = some (tk 0x0B01 1 [] [])
    ∧ (sOn.put (Adr.FLT_SRC 0xF1) Fl.FLT_SRC_CLASS_SEL 3).classFor 0xF1 = 2 := by decide +kernel
/-- A warm reset that waits for what session 5 has taken. -/
def sWaits : State :=
  let s := (took (tk 0x0003 1 [] []) sOn).put (Adr.SESS 5) Fl.SESS_STATE 3
  { s with ctl := { s.ctl with boot := { s.ctl.boot with warmDue := true } } }
theorem test_hyp_warm_waits : sWaits.boot.warmDue = true ∧ SMap.rising sWaits.host.sess = true ∧ sWaits.sessState 5 = 3
    ∧ sWaits.sess? 5 = some { mask := 0x3F, grant := 0xff, taken := some (tk 0x0003 1 [] []) } ∧ sWaits.taken? 5 0x0A01 = none
    ∧ (sWaits.sess? 5).map (·.closeCause) = some 0 := by decide
theorem test_hyp_ring_full : ringSize .t512 ≤ ({ entries := List.replicate (ringSize .t512) {} } : Ledger).entries.length := by simp

/-! ## Hypotheses that are met: laser safety, the pair -/

/-- The safety block awake with this configuration in force: guards 0 and 1 enabled, guard 1 with its SO bit, driver 0 in use. -/
def sSafe (st so kfb : Nat) (x : SafeUnit) : State :=
  let s := (((sOn.safePut Fl.SAFE_STAT_GUARD_EN_ACT 3).safePut Fl.SAFE_STAT_GUARD_SO_ACT 2).safePut Fl.SAFE_STAT_SO_USE_ACT 1).safePut Fl.SAFE_STAT_GUARD 15
  (((s.safePut Fl.SAFE_STAT_SO so).safePut Fl.SAFE_STAT_KFB kfb).safePut Fl.SAFE_STAT_STATE st).putEstop true |>.setSafe x
def allHigh : Contacts := ⟨true, [true, true, true, true], [true, true], some true⟩
theorem test_hyp_estop : (sSafe 0 1 0 {}).regsWf = true ∧ (sSafe 0 1 0 {}).safeOn = true ∧ (sSafe 0 1 0 {}).safe.estop = false
    ∧ (sSafe 1 0 0 { estop := true }).safe.estop = true ∧ State.reset.safeOn = false := by decide
theorem test_hyp_guards : (sSafe 0 1 0 {}).guardOn 0 = true ∧ (sSafe 0 1 0 {}).guardSo 0 = false ∧ (sSafe 0 1 0 {}).guardOn 1 = true
    ∧ (sSafe 0 1 0 {}).guardSo 1 = true ∧ (sSafe 0 1 0 {}).guardOn 3 = false ∧ (sSafe 0 1 0 {}).safe.guards.getD 1 false = false
    ∧ (sSafe 1 0 0 { guards := [true, true, false, false] }).safe.guards.getD 1 false = true := by decide +kernel
theorem test_hyp_lockout : (sSafe 0 1 1 { soChange := some 5 }).kfbMatches = false ∧ 5 + msTicks 50 ≤ sOn.tick
    ∧ (sSafe 0 1 0 {}).soUsed 0 = true ∧ ((sSafe 0 1 0 {}).safeGet Fl.SAFE_STAT_KFB).testBit 0 ≠ true ∧ (sSafe 0 1 0 {}).safe.soChange = none
    ∧ (sSafe 2 0 0 {}).safeGet Fl.SAFE_STAT_STATE = 2 ∧ (sSafe 0 1 0 {}).safeGet Fl.SAFE_STAT_STATE ≠ 2 := by decide +kernel
/-- GUARD_N0 fails the pulse, having failed the one before; SRST_N likewise. -/
def lowGuard : Contacts := { allHigh with guards := [false, true, true, true] }
theorem test_hyp_lockout_pulse : (inputsOf (sSafe 0 1 0 {}).evaluated).getD 1 false = true ∧ (inputsOf ((sSafe 0 1 0 {}).levels lowGuard)).getD 1 false = true
    ∧ (inputsOf lowGuard).getD 1 false = false
    ∧ (inputsOf (sSafe 0 1 0 { failed := ⟨false, [true, false, false, false], [false, false], some false⟩ }).safe.failed).getD 1 false = true
    ∧ (inputsOf (sSafe 0 1 0 {}).evaluated).getD 7 false = true ∧ (inputsOf ((sSafe 0 1 0 {}).levels { allHigh with srst := some false })).getD 7 false = true
    ∧ (inputsOf { allHigh with srst := some false }).getD 7 false = false
    ∧ (inputsOf ((sSafe 0 1 0 {}).levels { allHigh with srst := none })).getD 7 false = false := by decide +kernel
theorem test_hyp_pulses : (∀ j, j < 8 → (inputsOf (sSafe 0 1 0 {}).evaluated).getD j false = true → (inputsOf allHigh).getD j false = true)
    ∧ (sSafe 0 1 0 {}).flag Adr.SAFE_STAT Fl.SAFE_STAT_ESTOP = true ∧ (sSafe 0 1 0 {}).safe.failed.estop = false
    ∧ (∀ j, 1 ≤ j → j < 8 → (inputsOf (sSafe 0 1 0 {}).evaluated).getD j false = true → (inputsOf { allHigh with estop := false }).getD j false = true) := by
  decide +kernel
theorem test_hyp_feedback : (sSafe 0 1 0 { soChange := some 5 }).kfbMatches = true ∧ sOn.tick < 6250000000000 + msTicks 50
    ∧ ((sSafe 0 1 1 { soChange := some 5 }).safeGet Fl.SAFE_STAT_KFB).testBit 0 ≠ false ∧ (sSafe 0 1 0 {}).soUsed 1 = false := by decide +kernel
/-- A demand at the edge bars the reset; so does a feedback that changes there while SO is steady. -/
theorem test_hyp_deliberate_reset : (sSafe 2 0 1 { passed := allHigh }).resetOk allHigh = true ∧ (sSafe 2 0 1 {}).resetOk allHigh = false
    ∧ (sSafe 2 0 1 { passed := allHigh, demandTick := some 6250000000000 }).resetOk allHigh = false
    ∧ (sSafe 2 0 0 { passed := allHigh }).resetOk allHigh = false := by decide +kernel

/-- A paired module: role, LINK_UP, ALIVE_OK, OWN_IN, OWN_OUT, HEALTH, whether it stands in position B, and the pair's state. -/
def sPair (role : Nat) (up alive ownIn ownOut : Bool) (health : Nat) (posB : Bool) (x : PairUnit) : State :=
  let s := ((sOn.put Adr.PAIR_STAT Fl.PAIR_STAT_ROLE role).putFlag Adr.PAIR_STAT Fl.PAIR_STAT_LINK_UP up).put Adr.PAIR_STAT Fl.PAIR_STAT_HEALTH health
  let s := ((s.putFlag Adr.PAIR_WIRE Fl.PAIR_WIRE_ALIVE_OK alive).putFlag Adr.PAIR_WIRE Fl.PAIR_WIRE_OWN_IN ownIn).putFlag Adr.PAIR_WIRE Fl.PAIR_WIRE_OWN_OUT ownOut
  { s with pair := x, ctl := { s.ctl with boot := { s.ctl.boot with posB := posB } } }
theorem test_hyp_alive : (sPair 2 true true false false 1 true {}).regsWf = true ∧ (sPair 2 true true false false 1 true {}).exp.tablesWf = true
    ∧ (sPair 2 true true false false 1 true {}).pairPins = true ∧ (sPair 2 true true false false 1 true {}).pairOn = true
    ∧ (sPair 2 true true false false 1 true {}).role = 2 ∧ (sPair 2 true true false false 1 true {}).ownIn = false
    ∧ (sPair 2 true true true false 1 true {}).ownIn = true ∧ (sPair 2 true true false false 1 true {}).edgeRecent = false
    ∧ (sPair 2 true true false false 1 true { lastEdge := some 6250000000000 }).edgeRecent = true ∧ State.reset.pairPins = false
    ∧ (sPair 2 true true false false 0 true {}).mayTakeOver = false ∧ (sPair 0 true true false false 0 true { waitTick := some 5 }).pair.waitTick.isSome = true := by decide
theorem test_hyp_roles : (sPair 1 true true true true 0 true { ownInTick := 5 }).boot.posB = true ∧ (sPair 1 true true true true 0 true {}).ownOut = true
    ∧ 5 + usTicks 2 ≤ sOn.tick ∧ (sPair 1 true true true true 0 false { ownTick := 5, ownInTick := 6 }).boot.posB = false ∧ 6 ≤ 5 + usTicks 10
    ∧ 5 + usTicks 10 ≤ sOn.tick ∧ (sPair 0 true true false false 0 true { waitTick := some 5 }).pair.waitTick = some 5 ∧ 5 + msTicks 10000 ≤ sOn.tick
    ∧ (sPair 1 true true true true 0 true {}).involRoom = true ∧ (sPair 1 true true true true 0 true {}).ovTotal = 0 := by decide
theorem test_hyp_swarm : (sPair 2 false false false false 1 true {}).aliveOk = false ∧ (sPair 2 false false false false 1 true {}).mayTakeOver = true
    ∧ (sPair 2 false false false false 1 true {}).gwqRuns = true ∧ (sPair 2 false false false false 1 true {}).pair.staged = []
    ∧ (sPair 2 false false false false 1 true {}).linkUp = false ∧ 5 + msTicks 1 < sOn.tick := by decide
def shadow : Shadow := ⟨6, 1, 0x3F, 0, 0, 0, 0, 0⟩
def sShadow : State := { sPair 2 false false false false 1 true { shadows := [(9, shadow)], resumeFrom := some 5 } with
  exp := { queues := [(9, { items := [item 0], shadow := true })] } }
theorem test_hyp_shadows : sShadow.regsWf = true ∧ sShadow.exp.tablesWf = true ∧ 9 ∈ sShadow.pair.shadows.map Prod.fst
    ∧ (sShadow.pair.shadows.map Prod.fst).Nodup ∧ sShadow.queue? 9 = some { items := [item 0], shadow := true }
    ∧ 5 + sShadow.resumeTicks ≤ sShadow.tick ∧ sShadow.shadowOf 6 = some (9, shadow) ∧ sShadow.mayTakeOver = true := by decide
/-- The same with HALDOD powered, an enrolled pair in position A or B. -/
def sReadyPair (ownIn alive posB : Bool) : State :=
  let s := (sReady.put Adr.PWR_STAT Fl.PWR_STAT_PG (2 ^ 28)).putFlag Adr.PAIR_WIRE Fl.PAIR_WIRE_OWN_IN ownIn |>.putFlag Adr.PAIR_WIRE Fl.PAIR_WIRE_ALIVE_OK alive
  { s with flash := { pairKey := some [1] }, ctl := { s.ctl with boot := { s.ctl.boot with posB := posB } } }
theorem test_hyp_ready_in_pair : (sReadyPair true true true).regsWf = true ∧ (sReadyPair true true true).gwqRuns = true ∧ (sReadyPair true true true).pairOn = true
    ∧ (sReadyPair true true true).get Adr.BOOT_STAT Fl.BOOT_STAT_STAGE = 9 ∧ (sReadyPair true true true).pair.conflict = false
    ∧ (sReadyPair true true true).fatal = false ∧ (sReadyPair true true true).ownIn = true ∧ (sReadyPair false true true).ownIn = false
    ∧ (sReadyPair false true true).aliveOk = true ∧ (sReadyPair false false true).aliveOk = false ∧ (sReadyPair false true false).boot.posB = false := by decide
theorem test_hyp_ready_in_pair_now : (sReadyPair true true true).readyNow = true := by decide +kernel
theorem test_hyp_ready_pair : ({ sReady with flash := { pairKey := some [1] } }).readyNow = true ∧ ({ sReady with flash := { pairKey := some [1] } }).flash.pairKey.isSome = true :=
  ⟨test_hyp_ready.2.2.2.2.2, rfl⟩

/-- The partner's frame of this kind, FSEQ and body: its tag is the one that the link key gives. -/
def tagged (s : State) (kind fseq : Nat) (body : List Byte) : FrameIn := ⟨fseq, s.partnerTag kind fseq body⟩
theorem takes_tagged (s : State) (kind fseq : Nat) (body : List Byte) (hh : s.hears = true) (hf : s.pair.fseqRx ≤ fseq) :
    s.takesFrame kind (tagged s kind fseq body) body := ⟨hh, by simp [State.tagOk, tagged], hf⟩
/-- The four lanes locked. -/
def locked (s : State) : State := (List.range 4).foldl (fun s n =>
  (s.putFlag (Adr.HLD_LANE n) Fl.HLD_LANE_BLOCK_LOCK true).putFlag (Adr.HLD_LANE n) Fl.HLD_LANE_AM_LOCK true) s
/-- A standby and an active that have had the partner's HELLO, their link up or down. -/
def sStby (x : PairUnit) : State := sPair 2 true true false false 1 true { x with helloOk := true, linkKey := [1] }
def sActive (x : PairUnit) : State := sPair 1 true true false true 0 false { x with helloOk := true, linkKey := [1] }
def sApart (x : PairUnit) : State := sPair 2 false true false false 1 true { x with helloOk := true, linkKey := [1] }
def wagBody : List Byte := List.replicate 32 0
theorem test_hyp_haldod : (sStby {}).prbsOn = false ∧ (sStby {}).linkUp = true ∧ (sStby {}).hears = true ∧ (sApart {}).linkUp = false
    ∧ (sPair 2 true true false false 1 true {}).hears = false ∧ 5 + usTicks 8 ≤ sOn.tick
    ∧ ({ sPair 2 false true false false 1 true {} with flash := { pairKey := some [1] } } : State).flash.pairKey = some [1]
    ∧ (sStby {}).bridgeOn = true ∧ getBits 0xd 2 2 = 3 ∧ getBits 0xd 0 2 ≠ 0
    ∧ (sOn.put (Adr.HLD_LANE 3) Fl.HLD_LANE_RX_PAT 3).get (Adr.HLD_LANE 3) Fl.HLD_LANE_RX_PAT ≠ 0
    ∧ sOn.get (Adr.HLD_LANE 3) Fl.HLD_LANE_RX_PAT = 0 ∧ ((sStby {}).put (Adr.HLD_LANE 3) Fl.HLD_LANE_TX_PAT 3).prbsOn = true := by decide
theorem test_hyp_lanes : (locked (sApart {})).lanesLocked = true ∧ (locked (sApart {})).flag (Adr.HLD_LANE 3) Fl.HLD_LANE_BLOCK_LOCK = true
    ∧ (sApart {}).lanesLocked = false ∧ (locked (sApart {})).regsWf = true ∧ (sStby {}).flag (Adr.HLD_LANE 3) Fl.HLD_LANE_BLOCK_LOCK = false := by decide +kernel
theorem test_hyp_waggle : (sStby { fseqRx := 7 }).takesFrame 1 (tagged (sStby { fseqRx := 7 }) 1 7 wagBody) wagBody
    ∧ (sStby { fseqRx := 7 }).tagOk 1 (tagged (sStby { fseqRx := 7 }) 1 6 wagBody) wagBody = true ∧ (tagged (sStby { fseqRx := 7 }) 1 6 wagBody).fseq < 7 :=
  ⟨takes_tagged _ _ _ _ (by decide) (by decide), by simp [State.tagOk, tagged], by decide⟩
theorem test_hyp_wrong_tag : (sStby {}).tagOk 1 ⟨9, []⟩ wagBody = false ∧ (sStby {}).tagOk 2 ⟨9, []⟩ [] = false := by decide +kernel
/-- A WAGGLE that owes no health, the active's that owes its HEALTH_REQ, and the standby's that owes its report. -/
def req0 : HealthReqIn := ⟨[], 0, [], 0, 0, []⟩
theorem test_hyp_waggle_send : (sActive { reqTick := some 6250000000000 }).hears = true ∧ 6249937500000 + msTicks 100 ≤ sOn.tick
    ∧ sOn.tick < 6250000000000 + msTicks 100 ∧ (sActive { reqTick := some 6249937500000 }).moving = false ∧ (sActive {}).role = 1
    ∧ (sActive {}).pair.reqTick = none ∧ (sStby { reqHeld := some req0 }).pair.reqHeld = some req0 ∧ (sStby {}).pair.reqHeld = none
    ∧ ({ sStby {} with ctl := { sOn.ctl with plan := { commits := [cm 1 6249999999975] } } } : State).moving = true := by decide
theorem test_hyp_hello_frames : (helloTag [1] [] [] = helloTag [1] [] []) ∧ helloTag [1] [] [] ≠ [] ∧ (sApart { wagGot := some wagBody }).pair.wagGot.isSome = true
    ∧ ({ sPair 2 false true false false 1 true {} with flash := { pairKey := some [1], partner := [2] } } : State).flash.partner = [2] := by decide +kernel
/-- A checker of PRBS7 that is one bit short of its lock. -/
theorem test_hyp_checker : prbsNext 1 64 = true ∧ prbsNext 1 1 = false ∧ (prbsPowers 1).1 = 7
    ∧ (SMap.find {} (sStby { prbs := [(3, ⟨64, 7, 63⟩)] }).pair.prbs 3).run = 63 ∧ (SMap.find {} (sStby { prbs := [(3, ⟨64, 7, 63⟩)] }).pair.prbs 3).reg ≠ 0
    ∧ ((sStby {}).put (Adr.HLD_LANE 3) Fl.HLD_LANE_RX_PAT 1).get (Adr.HLD_LANE 3) Fl.HLD_LANE_RX_PAT = 1
    ∧ ((sStby {}).putFlag (Adr.HLD_LANE 3) Fl.HLD_LANE_RX_LOCK true).flag (Adr.HLD_LANE 3) Fl.HLD_LANE_RX_LOCK = true := by decide
def sample : Sample := ⟨5, 6, 7, 8, 9⟩
theorem test_hyp_streams : (sActive { samples := [sample] }).pair.samples ≠ [] ∧ (sActive {}).role = 1 ∧ (sActive {}).linkUp = true ∧ (sActive {}).gwqRuns = true
    ∧ (sStby { waitSamples := [(5, sample)] }).role = 2 ∧ (sStby { waitSamples := [(5, sample)] }).pairOn = true := by decide
theorem test_hyp_digest : (sStby {}).takesFrame 3 (tagged (sStby {}) 3 0 (sampleBytes sample)) ([sample].flatMap sampleBytes)
    ∧ (sApart {}).takesFrame 3 (tagged (sApart {}) 3 0 (sampleBytes sample)) ([sample].flatMap sampleBytes) := by
  rw [List.flatMap_singleton]
  exact ⟨takes_tagged _ _ _ _ (by decide) (by decide), takes_tagged _ _ _ _ (by decide) (by decide)⟩
/-- A POSITIONS stream of no marks, in its one frame. -/
def emptyMarks : List Byte := mirrorBody 0 0x10 7 0 0 []
theorem test_hyp_positions : mirrorParts 0 0x10 true (encodeNats (positionWords [])) = [emptyMarks]
    ∧ (sStby {}).takesFrames 2 ([tagged (sStby {}) 2 0 emptyMarks].zip [emptyMarks])
    ∧ (sApart {}).takesFrames 2 ([tagged (sApart {}) 2 0 emptyMarks].zip [emptyMarks]) :=
  ⟨by decide, ⟨takes_tagged _ _ _ _ (by decide) (by decide), trivial⟩, takes_tagged _ _ _ _ (by decide) (by decide), trivial⟩

/-- A MIRROR frame of one part with this TSEQ, TYPE, flags and content, from the partner of `s`. -/
def mir (s : State) (tseq ty flags : Nat) (d : List Byte) : Mirrored := ⟨tagged s 2 0 (mirrorBody tseq ty flags 0 d.length d), tseq, ty, flags, 0, d.length, d⟩
theorem takes_mir (s : State) (tseq ty flags : Nat) (d : List Byte) (hh : s.hears = true) (hf : s.pair.fseqRx ≤ 0) :
    let m := mir s tseq ty flags d
    s.takesFrame 2 m.frame (mirrorBody m.tseq m.ty m.flags m.part m.length m.data) := takes_tagged _ _ _ _ hh hf
theorem test_hyp_mirror : (sStby {}).hears = true ∧ (sStby {}).pair.fseqRx ≤ 0 ∧ (sStby {}).linkUp = true ∧ (sStby {}).role = 2 ∧ (sApart {}).hears = true
    ∧ (mir (sStby {}) 0 0x12 7 []).ty = 0x12 ∧ 0x10 ≤ (mir (sStby {}) 0 0x11 7 []).ty ∧ (mir (sStby {}) 1 2 1 []).flags.testBit 1 = false
    ∧ ((sStby {}).joinPart (mir (sStby {}) 1 2 2 [])).next = none ∧ (mir (sStby {}) 5 2 3 []).tseq ≠ (sStby {}).tseq + 1
    ∧ (mir (sStby {}) 1 2 3 []).tseq = (sStby {}).tseq + 1 ∧ ((sStby {}).joinPart (mir (sStby {}) 1 2 3 [])).next.isSome = true
    ∧ decodeNats 3 (encodeNats [0xffff]) = [0xffff] ∧ (sStby {}).judgeTxn 2 [0xffff] = 0 ∧ (sStby {}).judgeTxn 2 [3, 0] = 2 := by decide
def stagedSlot : StagedTxn := ⟨1, 8, [3, 0, 7], 5, 0⟩
theorem test_hyp_staged : (sStby { staged := [stagedSlot] }).pair.staged = [stagedSlot] ∧ stagedSlot.ty = txSlot ∧ stagedSlot.tick + usTicks 10 ≤ sOn.tick
    ∧ stagedSlot.data.getD 1 0 ≠ 1 ∧ delayed stagedSlot.ty = true ∧ ((sStby { staged := [stagedSlot] }).pair.partials.any fun e => e.1 == 1) = false
    ∧ ((sStby { staged := [stagedSlot] }).pair.staged.find? fun x => x.tseq == 1) = some stagedSlot ∧ ((sStby { partials := [(4, ⟨some 1, []⟩)] }).pair.partials.any fun e => e.1 == 4) = true
    ∧ ((sStby {}).pair.staged.find? fun x => x.tseq == 1) = none ∧ delayed txArm = false ∧ (sStby {}).pair.base ≤ 1 ∧ (sStby {}).tseq < 1
    ∧ ((sStby {}).put Adr.PAIR_TXN Fl.PAIR_TXN_TSEQ_LO 1).tseq = 1 := by decide
theorem test_hyp_void : (sStby {}).takesFrame 4 (tagged (sStby {}) 4 0 (ctlBody 4 1 [])) (ctlBody 4 1 [])
    ∧ (sApart {}).takesFrame 4 (tagged (sApart {}) 4 0 (ctlBody 4 1 [])) (ctlBody 4 1 []) :=
  ⟨takes_tagged _ _ _ _ (by decide) (by decide), takes_tagged _ _ _ _ (by decide) (by decide)⟩

/-- An active whose session 5 waits for transaction 7, sent at `tick` on behalf of `who`. -/
def sAck (who tick : Nat) : State :=
  let s := took { tk 0x0103 1 [(24, le 2 3)] [] with phase := .acking } (sActive { sent := [⟨7, 2, [3, 0], who, 5, tick⟩] })
  { s with ctl := { s.ctl with plan := { slots := [(3, ⟨[], none⟩)] } } }
/-- An ACK or a NAK of TSEQ `x`, with its body. -/
def ackOf (s : State) (kind x : Nat) (ws : List Nat) : TseqIn := ⟨tagged s 4 0 (ctlBody kind x ws), x⟩
theorem test_hyp_answers : (sAck 0 6249999998125).regsWf = true ∧ (sAck 0 6249999998125).pairOn = true ∧ (sAck 0 6249999998125).linkUp = true ∧ (sAck 0 6249999998125).role = 1
    ∧ ((sAck 0 6249999998125).pair.sent.find? fun t => t.tseq == 8) = none
    ∧ ((sAck 0 6249999998125).pair.sent.find? fun t => t.tseq == 7) = some ⟨7, 2, [3, 0], 0, 5, 6249999998125⟩
    ∧ (sAck 0 6249999998125).tick ≤ 6249999998125 + ackTicks ∧ 6249999998124 + ackTicks < (sAck 0 6249999998124).tick
    ∧ (((sAck 0 5).sess? 5).bind (·.taken)).map (fun k => (k.phase, k.op, k.p 24 2)) = some (.acking, 0x0103, 3) ∧ ((sAck 0 5).slot? 3).isSome = true
    ∧ (sAck 0 5).solo = false ∧ forSession = 0 ∧ forStrike = 2 ∧ forNobody = 3 := by decide
theorem test_hyp_answer_frames : (sAck 0 5).takesFrame 4 (ackOf (sAck 0 5) 2 7 [3, 9]).frame (ctlBody 2 7 [3, 9])
    ∧ (sAck 0 5).takesFrame 4 (ackOf (sAck 0 5) 3 7 [1]).frame (ctlBody 3 7 [1]) ∧ (sApart {}).takesFrame 4 (ackOf (sApart {}) 2 7 [3, 9]).frame (ctlBody 2 7 [3, 9])
    ∧ (sApart {}).takesFrame 4 (ackOf (sApart {}) 3 7 [1]).frame (ctlBody 3 7 [1]) ∧ (sAck 0 5).checkBad 0xA5 3 = false ∧ (sAck 0 5).boot.warmDue = false
    ∧ (sAck 0 5).gwqRuns = true ∧ (sAck 0 5).pair.sent = [⟨7, 2, [3, 0], 0, 5, 5⟩] ∧ 5 + ackTicks < (sAck 0 5).tick :=
  ⟨takes_tagged _ _ _ _ (by decide) (by decide), takes_tagged _ _ _ _ (by decide) (by decide), takes_tagged _ _ _ _ (by decide) (by decide),
    takes_tagged _ _ _ _ (by decide) (by decide), by decide, by decide, by decide, by decide, by decide⟩

/-- An active with locked lanes that has taken this command. -/
def sEnrol (t : Taken) (x : PairUnit) : State := took t (locked (sActive x))
/-- The part of a certificate that carries its key. -/
def cert7 : List Byte := [0x03, 0x62, 0x00] ++ key7 ++ [0, 0]
theorem test_hyp_certificate : certKey cert7 = some key7 ∧ (certId cert7).isSome = true := by
  rw [certId, Option.isSome_map]; decide +kernel
def tkPair : Taken := tk 0x0900 1 [] cert7
theorem test_hyp_pair_cmds : (sEnrol tkPair {}).runs 5 0x0900 tkPair ∧ (sEnrol tkPair {}).has .pairU = true ∧ (sEnrol tkPair {}).regsWf = true
    ∧ tkPair.bufLen ≠ 0 ∧ tkPair.bufOk = true ∧ tkPair.sigOk = true ∧ (sEnrol tkPair {}).lanesLocked = true ∧ (sEnrol tkPair {}).pair.enrol = none
    ∧ (sEnrol tkPair {}).ledgerRoom 1 = true ∧ ({ tkPair with sigOk := false } : Taken).sigOk = false ∧ (took tkPair sOn).lanesLocked = false
    ∧ (sEnrol (tk 0x0901 1 [] []) {}).runs 5 0x0901 (tk 0x0901 1 [] [])
    ∧ (sEnrol { tk 0x0902 1 [] [] with bufLen := 128 } {}).runs 5 0x0902 { tk 0x0902 1 [] [] with bufLen := 128 }
    ∧ (sEnrol { tk 0x0903 1 [] [] with flags := 1 } {}).runs 5 0x0903 { tk 0x0903 1 [] [] with flags := 1 }
    ∧ ({ tk 0x0903 1 [] [] with flags := 1 } : Taken).flag 0 = true ∧ (sEnrol (tk 0x0903 1 [] []) {}).role = 1 ∧ (sEnrol (tk 0x0903 1 [] []) {}).ledgerRoom 1 = true
    ∧ (took (tk 0x0903 1 [] []) (sStby {})).role = 2 := by decide +kernel
/-- An enrolment that waits for its offer since `t0`, with a partner whose certificate carries that key. -/
def sOffer (t0 : Nat) : State := sEnrol { tkPair with phase := .waiting } { enrol := some (5, t0), enrolKey := key7 }
/-- RFC 6979, A.2.6: the signature of "sample" with SHA-384; and its last bit changed. -/
def rfcKey : List Byte := 4 :: (be 48 0xEC3A4E415B4E19A4568618029F427FA5DA9A8BC4AE92E02E06AAE5286B300C64DEF8F0EA9055866064A254515480BC13
  ++ be 48 0x8015D9B72D7D57244EA8EF9AC0C621896708A59367F9DFB9F54CA84B3F1C9DB1288B231C3AE0D4FE7344FD2533264720)
def rfcSig (last : Nat) : List Byte :=
  be 48 0x94EDBB92A5ECB8AAD4736E56C691916B3F88140666CE9FA73D64C4EA95AD133C81A648152E44ACF96E36DD1E80FABE46
  ++ be 48 (0x99EF4AEB15F178CEA1FE40DB2603138F130E740A19624526203B6351D0A3A94FA329C145786E679E7B82C71A38628A00 + last)
def rfcText : List Byte := [0x73, 0x61, 0x6D, 0x70, 0x6C, 0x65]
theorem test_ecdsa_rfc6979 : ecdsaVerify rfcKey rfcText (rfcSig 0xC8) = true := by decide +kernel
theorem test_ecdsa_rfc6979_wrong : ecdsaVerify rfcKey rfcText (rfcSig 0xC9) = false := by decide +kernel
/-- The partner's ephemeral key, with its signature. -/
def offerKey : List Byte := List.replicate 97 4
def offerSig : List Byte := be 96 0x0b9eeb6fed0ee2e53ed882ab96e5abc0c17df74e85d6bdd86df83a635b0be059ad48cdda906eb74a09e6b670cd88383267a1843becc6f4cf773e2f840cb1191458ad97632e030286c24f0c27e626d4ba6b31c348cd6129a83b070959e464a332
theorem test_hyp_offer_signed : ecdsaVerify (sOffer 6250000000000).pair.enrolKey offerKey offerSig = true
    ∧ ecdsaVerify (sOffer 6250000000000).pair.enrolKey offerKey [] = false := by decide +kernel
theorem test_hyp_offer : (sOffer 6250000000000).pair.enrol = some (5, 6250000000000) ∧ (sOffer 5).pair.enrol = some (5, 5)
    ∧ (sOffer 6250000000000).pairOn = true ∧ (sOffer 6250000000000).gwqRuns = true ∧ (sOffer 6250000000000).boot.warmDue = false
    ∧ offerKey.length = 97 ∧ (sOffer 6250000000000).tick < 6250000000000 + msTicks 10000
    ∧ (((sOffer 6250000000000).sess? 5).bind (·.taken)).isSome = true ∧ (sOffer 6250000000000).ledgerRoom 1 = true ∧ 5 + msTicks 10000 ≤ (sOffer 5).tick := by decide +kernel

/-- A HEALTH_REQ of no slots and no lanes in one frame, and a HEALTH of its head and 120 more bytes, from the partner of `s`. -/
def reqOf (s : State) : HealthReqIn := { req0 with frames := [tagged s 4 0 (le 1 5 ++ encodeNats [0, 0, 0, 0])] }
def repOf (s : State) (checks : Nat) : HealthIn :=
  let b := le 5 1 ++ [2] ++ le 2 checks
  ⟨tagged s 4 0 (le 1 6 ++ (b ++ List.replicate 120 0)), b⟩
theorem test_req_bodies (s : State) : healthBodies (reqOf s) = [le 1 5 ++ encodeNats [0, 0, 0, 0]] := by
  simp only [healthBodies, healthWords, reqOf, req0]; decide
/-- A standby in the middle of a move. -/
def sMoves : State := { sStby {} with ctl := { (sStby {}).ctl with plan := { commits := [cm 1 6249999999975] } } }
theorem test_hyp_health : (sStby {}).takesFrames 4 ((reqOf (sStby {})).frames.zip (healthBodies (reqOf (sStby {}))))
    ∧ (reqOf (sStby {})).frames.length = (healthBodies (reqOf (sStby {}))).length
    ∧ sMoves.takesFrames 4 ((reqOf sMoves).frames.zip (healthBodies (reqOf sMoves)))
    ∧ (sApart {}).takesFrames 4 ((reqOf (sApart {})).frames.zip (healthBodies (reqOf (sApart {})))) := by
  simp only [test_req_bodies]
  exact ⟨⟨takes_tagged _ _ _ _ (by decide) (by decide), trivial⟩, rfl, ⟨takes_tagged _ _ _ _ (by decide) (by decide), trivial⟩,
    takes_tagged _ _ _ _ (by decide) (by decide), trivial⟩
theorem test_hyp_health_states : (sStby {}).moving = false ∧ sMoves.moving = true ∧ sMoves.role = 2 ∧ sMoves.linkUp = true ∧ (sStby {}).regsWf = true
    ∧ (sPair 2 true true false false 1 true {}).hears = false ∧ req0.frames.length ≠ (healthBodies req0).length := by decide
theorem test_hyp_health_report (n : Nat) : (sActive {}).takesFrame 4 (repOf (sActive {}) n).frame (le 1 6 ++ ((repOf (sActive {}) n).bytes ++ List.replicate 120 0))
    ∧ (sApart {}).takesFrame 4 (repOf (sApart {}) n).frame (le 1 6 ++ ((repOf (sApart {}) n).bytes ++ List.replicate 120 0))
    ∧ (sActive {}).linkUp = true ∧ (sActive {}).role = 1 ∧ (rdLE ((repOf (sActive {}) 32).bytes ++ List.replicate 120 0) 6 2).testBit 5 = true
    ∧ (rdLE ((repOf (sActive {}) 0).bytes ++ List.replicate 120 0) 6 2).testBit 5 = false :=
  ⟨takes_tagged _ _ _ _ (by decide) (by decide), takes_tagged _ _ _ _ (by decide) (by decide), by decide, by decide, by decide, by decide⟩

/-! ## Hypotheses that are met: registers, what remains -/

theorem test_hyp_register_store : sOn.answers Adr.EXP = true ∧ (lookupWord Adr.EXP).isSome = true ∧ Adr.EXP < 0x200000
    ∧ Adr.EXP ∉ [Adr.PILOT_CTL, Adr.DRV_CTL, Adr.PLAN_CFG, Adr.TIME_CTL, Adr.PAIR_CFG, Adr.FLT_REL, Adr.FLT_INJ, Adr.SAFE_CFG]
    ∧ ¬(tdAdr .A ≤ Adr.EXP ∧ Adr.EXP < tdAdr .B + 0x40) ∧ ¬(Adr.CMP 0 ≤ Adr.EXP ∧ Adr.EXP < Adr.CMP 32)
    ∧ ¬(Adr.QW 0 ≤ Adr.EXP ∧ Adr.EXP < Adr.QW 4096 ∧ Adr.EXP % 0x40 = 0) ∧ ¬(Adr.HLD_LANE 0 ≤ Adr.EXP ∧ Adr.EXP < Adr.HLD_LANE 4)
    ∧ ¬(Adr.PERF_HC 0 ≤ Adr.EXP ∧ Adr.EXP < Adr.PERF_HC 8) := by decide
/-- Configuration space: served, answered with a retry before Gwynique runs, out of reach with no link. -/
theorem test_hyp_configuration : sOn.cfgReached 0 = true ∧ sOn.cfgReady = true ∧ sOn.host.before = none ∧ SMap.rising sOn.host.cfg = true
    ∧ ({ sOn with ctl := {} } : State).cfgReached 0 = true ∧ ({ sOn with ctl := {} } : State).cfgReady = false ∧ sOn.cfgReached 1 = false
    ∧ 0x3C ∉ [4, 0x48, 0xB0, 0x168, 0x170] ∧ (lookupWord Adr.PILOT_STAT).isSome = true ∧ sOn.answers Adr.PILOT_STAT = true ∧ Adr.PILOT_STAT < Adr.TIME_RD := by decide
theorem test_hyp_register_others : (sChan 0 x3 {} id).answers (Adr.QW 5) = true ∧ (sChan 0 x3 {} id).queue? 5 = some x3 ∧ (0x400000 : Word).getLsbD 22 = true
    ∧ sOn.answers (Adr.SRX_CFG 511) = true ∧ (0x7fffffff : Word).getLsbD 31 = false ∧ State.reset.answers Adr.EXP = false ∧ sOn.answers 0x7FFFFC = false
    ∧ sOn.bridgeOn = true ∧ (0xFFFFFC : Nat) < 0x1000000 ∧ sOn.flag Adr.BUS_ERR Fl.BUS_ERR_VALID = false
    ∧ (sOn.putFlag Adr.BUS_ERR Fl.BUS_ERR_VALID true).flag Adr.BUS_ERR Fl.BUS_ERR_VALID = true
    ∧ sOn.viewOn (0x1000080 / 0x1000000) = false ∧ sFns.viewOn (0x1000080 / 0x1000000) = true ∧ 0x80 ≤ 0x1000080 % 0x1000000
    ∧ sFns.viewOn (0x10000BC / 0x1000000) = true := by decide
theorem test_hyp_counters : sOn.answers Adr.PERF_TICK = true ∧ sOn.answers (Adr.PERF_HC 7 + 4) = true ∧ sOn.answers (Adr.STEP 143) = true
    ∧ sOn.answers (Adr.PC 143 3 + 4) = true ∧ sOn.answers (Adr.CAP 8 + 0x14) = true
    ∧ (sFns.putFlag Adr.PERF_CTL Fl.PERF_CTL_TICK_USER_EN true).tickOut = true ∧ (sFns.putFlag (Adr.PERF_HC 7) Fl.PERF_HC_USER_EN true).hcOut 7 = true := by decide

theorem test_hyp_source : 5 ≤ (sOn.put (tdAdr .A) Fl.TD_SRC 7).get (tdAdr .A) Fl.TD_SRC ∧ (sOn.put (tdAdr .A) Fl.TD_SRC 1).get (tdAdr .A) Fl.TD_SRC = 1
    ∧ (sOn.put (tdAdr .A) Fl.TD_SRC 4).get (tdAdr .A) Fl.TD_SRC = 4 ∧ sOn.get (tdAdr .A) Fl.TD_SRC = sOn.get (tdAdr .B) Fl.TD_SRC := by decide
/-- Two heads at working SRAM: a core's of QoS 8 that came first, and DMA of QoS 8 that has lost as often as AGE_LIMIT. -/
def headOf (master losses : Nat) : BusHead := { req := { master := master, bar := false, write := true, addr := 0, len := 64 }, target := tgSram, qos := 8, arrive := 5, losses := losses, raised := losses == 16 }
theorem test_hyp_bus : SMap.find 0 sOn.bus.busy tgSram ≤ sOn.tick ∧ busPick [headOf 0 0, headOf 5 0] = some (headOf 0 0)
    ∧ busPick [headOf 0 0, headOf 5 16] = some (headOf 5 16)
    ∧ sOn.tick < SMap.find 0 ({ sOn with bus := { busy := [(tgSram, 6250000000002)] } } : State).bus.busy tgSram := by decide
/-- R336, R337: the register bridge is open to cores, the security core and BAR accesses, the tile bridges to cores and the security core; boot
ROM takes no write; beyond the map nothing answers. -/
theorem test_bus_map : sOn.busTarget ⟨0, false, true, 0x2000000, 4, false, false⟩ = some tgRegs ∧ sOn.busTarget ⟨5, true, true, 0x27FFFFC, 4, false, false⟩ = some tgRegs
    ∧ sOn.busTarget ⟨5, true, true, 0x2800000, 4, false, false⟩ = none ∧ sOn.busTarget ⟨5, false, true, 0x2000000, 4, false, false⟩ = none
    ∧ sOn.busTarget ⟨0, false, true, 0x7FFFFC0, 64, false, false⟩ = some (tgTile 3) ∧ sOn.busTarget ⟨9, false, true, 0x4000000, 64, false, false⟩ = none
    ∧ mapTarget .t512 ⟨4, false, true, 0x1000000, 4, false, false⟩ = none ∧ mapTarget .t512 ⟨4, false, false, 0x1000000, 4, false, false⟩ = some tgRom
    ∧ sOn.busTarget ⟨9, false, true, dramBase, 32, false, false⟩ = some tgDram
    ∧ ({ sOn with variant := .c512 } : State).busTarget ⟨9, false, true, dramBase, 32, false, false⟩ = none := by decide
/-- Output 0's circuit from input 0 under drive, its lanes free of every action; an unpark of it is due. -/
def sUnpark : State :=
  { (sOn.putFlag Adr.DRV_STAT Fl.DRV_STAT_EN_DONE true).put Adr.SAFE_STAT Fl.SAFE_STAT_PANEL_PARK 0 with
    ctl := { sOn.ctl with plan := { inForce := [2 ^ 31], parks := [⟨0, true, false, 6250000000000, 5, 1⟩] } } }
theorem test_hyp_unpark : sUnpark.unparkOk 0 = true := by decide +kernel
/-- The same with its gate parked by the plan, and with no pilot. -/
def sParked : State :=
  { sUnpark.putFlag Adr.PILOT_STAT Fl.PILOT_STAT_NO_PILOT true with
    ctl := { sUnpark.ctl with lanes := SMap.put {} [] (gateIx .t512 0) { st := 2, planPark := true } } }
theorem test_hyp_unpark_waits : sParked.unparkWaits ⟨0, true, false, 6250000000000, 5, 1⟩ = true
    ∧ (sUnpark.lane (gateIx .t512 0)).st ≠ 2 ∧ (sUnpark.wr Adr.PILOT_STAT 2).noPilot = false := by decide +kernel
theorem test_hyp_unpark_due : sUnpark.regsWf = true ∧ sUnpark.ctl.tablesWf = true ∧ sUnpark.unparkAllowed ⟨0, true, false, 6250000000000, 5, 1⟩ = true := by decide

/-- A list that asks circuits 0 to 0 and 1 to 1 under NO_COLLATERAL, and a base whose two kept paths share a middle row: both enter by
the same first cell, so one of them moves and output 1 is collateral. (The compile of 256 ports takes the kernel minutes, so that it finds
output 1 is no theorem here.) -/
def collList : List Byte := le 4 0x4B504C54 ++ le 2 2 ++ le 2 0x00ff ++ le 2 1 ++ List.replicate 6 0 ++ le 4 0 ++ le 4 (1 + 2 ^ 10)
def collBase : Base := ⟨[mkWord 0 0 0 true, mkWord 1 0 0 true], false, false, 0⟩
def sColl : State :=
  { took { tk 0x0100 1 [] collList with phase := .waiting } sOn with ctl := { sOn.ctl with plan :=
      { compiles := [⟨5, 3, collList, false, some collBase, 0x2000, 68⟩] } } }
theorem test_hyp_collateral : sColl.regsWf = true ∧ sColl.plan.compiles = [⟨5, 3, collList, false, some collBase, 0x2000, 68⟩]
    ∧ (rdLE collList 8 2).testBit 0 = true ∧ portEntries collList (rdLE collList 4 2) = [⟨0, 0, 0⟩, ⟨1, 1, 0⟩]
    ∧ ((sColl.sess? 5).bind (·.taken)).isSome = true ∧ sColl.dmaOk 5 = true ∧ sColl.sessState 5 = 2 ∧ 64 + 2 * 1 ≤ 68 := by decide

/-- A credential for role 2 that names that module, of its own key as holder, with its signature. -/
def cred : List Byte := le 4 0x4B435244 ++ [1, 2] ++ List.replicate 10 0 ++ id7 ++ List.replicate 88 0 ++ key7 ++ List.replicate 7 0
  ++ be 96 0x0b9eeb6fed0ee2e53ed882ab96e5abc0c17df74e85d6bdd86df83a635b0be059ad48cdda906eb74a09e6b670cd8838320f0b7c487b4744dfe05501da6cd4db6cd956af9039aa93cda945c84a376d893e69c5bb56a0d17222d250b77062690bc7
/-- A module whose owner key signs it; a host asks for role 2 with that credential and the proof that it holds its key. -/
def sOwned : State := { sOn with flash := { keys := keys7, owner := some key7 } }
def hello1 : Hello := { hello0 7441 with cred := cred, proof := be 96 0x0b9eeb6fed0ee2e53ed882ab96e5abc0c17df74e85d6bdd86df83a635b0be059ad48cdda906eb74a09e6b670cd8838321c77edde63ffaa45732708ed040e69c2090bb28cc9a6414324c40f996c43da6d696705410a0e1543dc60670dd99b2eb7 }
theorem test_hyp_credential : sOwned.credSigOk cred = true ∧ (holderOf hello1).ok cred = true ∧ sOwned.idDigest = id7 :=
  ⟨by decide +kernel, by decide +kernel, test_id7⟩
theorem test_hyp_judged : sOwned.judgeCred cred 2 (some (holderOf hello1)) = 0 := by
  simp only [State.judgeCred, test_hyp_credential]
  decide +kernel
theorem test_hyp_hello_judged : (sOwned.judgeHello hello1).1 = 0 := by
  simp only [State.judgeHello, show hello1.cred = cred from rfl, show hello1.role = 2 from rfl, test_hyp_judged]
  decide +kernel
theorem test_hyp_hello_owned : sOwned.regsWf = true ∧ sOwned.gwqRuns = true ∧ sOwned.powered 27 = true ∧ sOwned.pairMode = false
    ∧ sOwned.boot.warmDue = false ∧ sOwned.flt.armed 0xAA 0 false = false := by decide
/-- The owner's enrolment block for this module, its count 0, signed by the owner before. -/
def enrolBlock : List Byte := le 4 0x4B4F574E ++ [1, 0, 0, 0] ++ id7 ++ key7 ++ List.replicate 23 0
  ++ be 96 0x0b9eeb6fed0ee2e53ed882ab96e5abc0c17df74e85d6bdd86df83a635b0be059ad48cdda906eb74a09e6b670cd8838326d74aeddcc602300aee2f160804034100df491cb09423d94b3a65dc7cbc38a32ec126c8cf7e422ed34659ca4f1d11163
def tkEnrol : Taken := tk 0x0804 1 [] enrolBlock
theorem test_hyp_enrol_signed : ecdsaVerify key7 (tkEnrol.buf.take 160) ((tkEnrol.buf.drop 160).take 96) = true := by decide +kernel
theorem test_hyp_enrol : badEnrol (took tkEnrol sKeys) tkEnrol.buf = false ∧ badEnrol (took tkEnrol sOwned) tkEnrol.buf = false := by
  constructor <;>
  · simp only [badEnrol, show (took tkEnrol sKeys).idDigest = id7 from test_id7, show (took tkEnrol sOwned).idDigest = id7 from test_id7]
    decide +kernel
theorem test_hyp_enrol_taken : (took tkEnrol sKeys).runs 5 0x0804 tkEnrol ∧ (took tkEnrol sKeys).get Adr.SEC_STAT Fl.SEC_STAT_ENROL_COUNT < 64
    ∧ (took tkEnrol sKeys).ledgerRoom 1 = true ∧ (took tkEnrol sKeys).flash.owner = none ∧ (took tkEnrol sKeys).sessCarrier 5 = 0
    ∧ 256 ≤ tkEnrol.bufLen ∧ (took tkEnrol sOwned).flash.owner = some key7 ∧ (took tkEnrol sOwned).runs 5 0x0804 tkEnrol := by decide +kernel
/-- A calibration image's head for that module, of variant 0. -/
def calHead : List Byte := le 4 0x4B43414C ++ le 2 1 ++ le 2 0 ++ le 4 0 ++ id7 ++ List.replicate 20 0
theorem test_hyp_image_identity : (calHead.drop 12).take 32 = sKeys.idDigest ∧ rdLE calHead 6 2 = variantCode sOn.variant := by
  rw [show sKeys.idDigest = id7 from test_id7]; decide +kernel

def qState (l : List Instr) : State := { sOn with pending := l }
theorem test_hyp_step : (qState [.snap, .anchor]).pending = .snap :: [.anchor] ∧ State.reset.pending = [] := by decide
theorem test_step_takes_front : step (qState [.snap, .anchor]) = exec .snap (qState [.anchor]) ∧ step State.reset = .next State.reset := ⟨rfl, rfl⟩
theorem test_decode_none : decodeTableWord 32 0x12345678 = none ∧ State.reset.withFetchWord 32 0x12345678 = State.reset := ⟨rfl, rfl⟩
/-- DEV_ID of a DX512-T (R375). -/
theorem test_reset_dev_id : State.reset.rd Adr.DEV_ID = 0x00B0D512#32 := by decide
theorem test_hyp_invariant : (qState [.snap, .anchor]).Inv ∧ 2 ≤ (qState [.snap, .anchor]).pending.length :=
  ⟨⟨by decide, ⟨trivial, .inl rfl⟩, by decide, by decide⟩, by decide⟩

end Sys2Proof.Tests
end

section
/-! SUPPORT. What keeps the clock: TICK, both domains and the registers of the time unit (R16, R147 to R151). -/

namespace Sys2Proof.Machine

/-- A register of the time unit's own words and of its two domains (TIME_CTL to TDx, spec/08_time_unit.md). -/
def clockReg (a : Nat) : Bool := decide (0x70000 ≤ a) && decide (a < 0x70200)

/-- From `s` to `t` TICK, both domains, a waiting snapshot and the registers of the time unit stay. -/
structure SameClock (s t : State) : Prop where
  tick : t.tick = s.tick
  a : t.time.a = s.time.a
  b : t.time.b = s.time.b
  snap : t.time.snapPend = s.time.snapPend
  wf : s.regsWf = true → t.regsWf = true
  rd : s.regsWf = true → ∀ k, clockReg k = true → t.rd k = s.rd k

variable {s s₀ t : State}

theorem SameClock.rfl : SameClock s s := ⟨Eq.refl _, Eq.refl _, Eq.refl _, Eq.refl _, id, fun _ _ _ => Eq.refl _⟩

theorem SameClock.trans (h : SameClock s₀ s) (k : SameClock s t) : SameClock s₀ t where
  tick := k.tick.trans h.tick
  a := k.a.trans h.a
  b := k.b.trans h.b
  snap := k.snap.trans h.snap
  wf := k.wf ∘ h.wf
  rd := fun w n hn => (k.rd (h.wf w) n hn).trans (h.rd w n hn)

theorem SameClock.dom (h : SameClock s t) (d : Dom) : t.time.dom d = s.time.dom d := by
  cases d
  · exact h.a
  · exact h.b

/-- A field of a register of the time unit. -/
theorem SameClock.get (h : SameClock s t) (w : s.regsWf = true) (b : Nat) (f : Field) (hb : clockReg (b + f.off) = true) :
    t.get b f = s.get b f := by
  unfold State.get
  rw [h.rd w _ hb]

/-- Reports write no register of the time unit. -/
theorem quiet_of_clockReg {k : Nat} (h : clockReg k = true) : quiet k = true := by
  unfold clockReg at h
  unfold quiet
  simp at h ⊢
  omega

theorem Reports.sameClock (h : Reports s t) : SameClock s t where
  tick := h.tick
  a := by rw [h.time]
  b := by rw [h.time]
  snap := by rw [h.time]
  wf := h.wf
  rd := fun w k hk => h.rd w k (quiet_of_clockReg hk)

/-- What reports from every state keeps the clock. -/
theorem SameClock.reports (h : SameClock s₀ s) (k : Reports s t) : SameClock s₀ t := h.trans k.sameClock

theorem ite_sameClock {c : Prop} [Decidable c] {a b : State} (ha : SameClock s₀ a) (hb : SameClock s₀ b) :
    SameClock s₀ (if c then a else b) := by
  split
  · exact ha
  · exact hb

theorem foldl_sameClock {β : Type} {f : State → β → State} {l : List β} (h : SameClock s₀ s)
    (hf : ∀ s x, SameClock s₀ s → SameClock s₀ (f s x)) : SameClock s₀ (l.foldl f s) := by
  induction l generalizing s with
  | nil => exact h
  | cons x l ih => exact ih (hf s x h)

/-- A write of a register outside the time unit. -/
theorem State.wr_sameClock (h : SameClock s₀ s) (k : Nat) (w : Word) (hk : clockReg k = false) : SameClock s₀ (s.wr k w) :=
  h.trans { (SameClock.rfl (s := s)) with
    wf := fun g => State.wr_regsWf _ _ g
    rd := fun g j hj => State.rd_wr_other _ _ _ (by rintro rfl; rw [hk] at hj; exact absurd hj (by decide)) g }

theorem State.put_sameClock (h : SameClock s₀ s) (b : Nat) (f : Field) (n : Nat) (hb : clockReg (b + f.off) = false) :
    SameClock s₀ (s.put b f n) := State.wr_sameClock h _ _ hb
theorem State.putFlag_sameClock (h : SameClock s₀ s) (b : Nat) (f : Field) (x : Bool) (hb : clockReg (b + f.off) = false) :
    SameClock s₀ (s.putFlag b f x) := State.wr_sameClock h _ _ hb
theorem State.count_sameClock (h : SameClock s₀ s) (b : Nat) (f : Field) (n : Nat) (hb : clockReg (b + f.off) = false) :
    SameClock s₀ (s.count b f n) := State.wr_sameClock h _ _ hb
theorem State.countWrap_sameClock (h : SameClock s₀ s) (b : Nat) (f : Field) (n : Nat) (hb : clockReg (b + f.off) = false) :
    SameClock s₀ (s.countWrap b f n) := State.wr_sameClock h _ _ hb
theorem State.putPair_sameClock (h : SameClock s₀ s) (b : Nat) (lo hi : Field) (n : Nat) (hl : clockReg (b + lo.off) = false)
    (hh : clockReg (b + hi.off) = false) : SameClock s₀ (s.putPair b lo hi n) :=
  State.put_sameClock (State.put_sameClock h _ _ _ hl) _ _ _ hh

/-- A block that begins above the time unit's registers. -/
theorem clockReg_of_le {b : Nat} (k : Nat) (h : 0x70200 ≤ b) : clockReg (b + k) = false := by
  unfold clockReg
  simp
  omega

/-- An update of the fields beside TICK, registers and domains. -/
theorem SameClock.with (h : SameClock s₀ t) (fr : Nat) (tm : TimeUnit) (ho : HostIf) (ex : ExportEng) (l : Ledger) (fl : Flash)
    (pa : PairUnit) (ct : Ctl) (bu : Bus) (rd : Nat) (pe : List Instr) (ha : tm.a = t.time.a) (hb : tm.b = t.time.b)
    (hs : tm.snapPend = t.time.snapPend) :
    SameClock s₀ ⟨t.variant, fr, t.tick, t.regs, tm, ho, ex, l, fl, pa, ct, bu, rd, pe⟩ :=
  h.trans ⟨Eq.refl _, ha, hb, hs, id, fun _ _ _ => Eq.refl _⟩

/-- An update of the fields beside TICK, registers and the time unit. -/
theorem SameClock.withRest (h : SameClock s₀ t) (fr : Nat) (ho : HostIf) (ex : ExportEng) (l : Ledger) (fl : Flash)
    (pa : PairUnit) (ct : Ctl) (bu : Bus) (rd : Nat) (pe : List Instr) :
    SameClock s₀ ⟨t.variant, fr, t.tick, t.regs, t.time, ho, ex, l, fl, pa, ct, bu, rd, pe⟩ :=
  h.with (ha := Eq.refl _) (hb := Eq.refl _) (hs := Eq.refl _) ..

/-! ## Pilots -/

theorem State.openWindow_sameClock (h : SameClock s₀ s) : SameClock s₀ s.openWindow :=
  (State.putFlag_sameClock h _ _ _ (by decide)).withRest ..

theorem State.selectPilot_sameClock (h : SameClock s₀ s) (b : Bool) : SameClock s₀ (s.selectPilot b) := by
  unfold State.selectPilot
  exact ite_sameClock h (State.openWindow_sameClock (State.count_sameClock
    (State.putFlag_sameClock h _ _ _ (by decide)) _ _ _ (by decide)))

theorem State.faultGone_sameClock (h : SameClock s₀ s) (n : Nat) : SameClock s₀ (s.faultGone n) :=
  State.putFlag_sameClock h _ _ _ (clockReg_of_le _ (by unfold Adr.FLT_SRC; omega))

theorem State.endNoPilot_sameClock (h : SameClock s₀ s) : SameClock s₀ s.endNoPilot := by
  unfold State.endNoPilot
  exact ite_sameClock (State.openWindow_sameClock (State.faultGone_sameClock
    (State.putFlag_sameClock h _ _ _ (by decide)) _)) h

theorem State.takeSwitch_sameClock (h : SameClock s₀ s) : SameClock s₀ s.takeSwitch := by
  unfold State.takeSwitch State.switchPilot
  have k : SameClock s₀ { s with ctl := { s.ctl with pilot := { s.ctl.pilot with switch := false } } } := h.withRest ..
  exact ite_sameClock (ite_sameClock k (ite_sameClock (State.endNoPilot_sameClock (State.selectPilot_sameClock k _))
    (State.putFlag_sameClock k _ _ _ (by decide)))) h

/-! ## Faults -/

theorem State.refreshGo_sameClock (h : SameClock s₀ s) : SameClock s₀ s.refreshGo := by
  unfold State.refreshGo
  have k := State.put_sameClock h Adr.PLAN_STAT Fl.PLAN_STAT_PENDING s.plan.commits.length (by decide)
  refine ite_sameClock (SameClock.withRest ?_ ..) (SameClock.withRest ?_ ..) <;>
  exact State.putFlag_sameClock k _ _ _ (by decide)

theorem State.stopAlive_sameClock (h : SameClock s₀ s) : SameClock s₀ s.stopAlive :=
  State.putFlag_sameClock (State.putFlag_sameClock (s := s.setBoot { s.boot with aliveAt := none }) (h.withRest ..)
    _ _ _ (by decide)) _ _ _ (by decide)

theorem State.releaseOwn_sameClock (h : SameClock s₀ s) : SameClock s₀ s.releaseOwn :=
  State.putFlag_sameClock (State.putFlag_sameClock h _ _ _ (by decide)) _ _ _ (by decide)

theorem State.fatalReaction_sameClock (h : SameClock s₀ s) : SameClock s₀ s.fatalReaction := by
  unfold State.fatalReaction
  refine ite_sameClock h (State.refreshGo_sameClock (SameClock.reports ?_ (State.react_reports .rfl)))
  have k := State.releaseOwn_sameClock (State.stopAlive_sameClock
    (State.putFlag_sameClock h Adr.FLT_GSTAT Fl.FLT_GSTAT_FATAL true (by decide)))
  refine ite_sameClock (k.withRest ..) (State.put_sameClock (State.put_sameClock (k.withRest ..) _ _ _ (by decide)) _ _ _ (by decide))

/-- The assertion of a source that is no supply keeps the clock, whatever its class. -/
theorem State.assertFault_sameClock (h : SameClock s₀ s) (n : Nat) (hn : n < 256) (hs : ¬(0xC0 ≤ n ∧ n ≤ 0xC5)) (r : FaultRep)
    (active : Bool) : SameClock s₀ (s.assertFault n r active) := by
  have high : ∀ f : Field, clockReg (Adr.FLT_SRC n + f.off) = false := fun f => clockReg_of_le _ (by unfold Adr.FLT_SRC; omega)
  unfold State.assertFault
  refine ite_sameClock h ?_
  extract_lets b cls s1 fresh flt s2 s3 s4
  have k1 : SameClock s₀ s1 := State.putFlag_sameClock (State.put_sameClock h _ _ _ (high _)) _ _ _ (high _)
  have k2 : SameClock s₀ s2 := ite_sameClock (k1.reports (State.capture_reports .rfl n hn r))
    (SameClock.reports (State.count_sameClock k1 _ _ _ (high _)) (State.setFlt_reports .rfl _))
  have k3 : SameClock s₀ s3 := ite_sameClock (State.fatalReaction_sameClock k2) k2
  have k4 : SameClock s₀ s4 := by rw [show s4 = s3 from if_neg hs]; exact k3
  exact ite_sameClock (k4.reports (State.noteFault_reports .rfl n)) k4

/-! ## The bus -/

theorem State.hubEvent_sameClock (h : SameClock s₀ s) (ev n : Nat) : SameClock s₀ (s.hubEvent ev n) :=
  h.reports (State.hubEvent_reports .rfl ev n)

theorem State.busError_sameClock (h : SameClock s₀ s) (r : BusReq) : SameClock s₀ (s.busError r) := by
  have high : ∀ f : Field, clockReg (Adr.BUS_ERR + f.off) = false := fun f => clockReg_of_le _ (by decide)
  unfold State.busError
  have k := State.count_sameClock (State.hubEvent_sameClock h 0x07 1) Adr.BUS_ERR Fl.BUS_ERR_COUNT 1 (high _)
  exact ite_sameClock k (State.put_sameClock (State.put_sameClock (State.putFlag_sameClock (State.putFlag_sameClock
    (State.put_sameClock k _ _ _ (high _)) _ _ _ (high _)) _ _ _ (high _)) _ _ _ (high _)) _ _ _ (high _))

theorem State.busIssue_sameClock (h : SameClock s₀ s) (r : BusReq) : SameClock s₀ (s.busIssue r) := by
  unfold State.busIssue
  split
  · exact State.busError_sameClock h r
  · exact h.withRest ..

theorem State.fetchRecords_sameClock (h : SameClock s₀ s) (master n : Nat) : SameClock s₀ (s.fetchRecords master n) :=
  foldl_sameClock h fun _ _ k => State.busIssue_sameClock k _

theorem State.bridgeHead_sameClock (h : SameClock s₀ s) (t : Nat) : SameClock s₀ (s.bridgeHead t) := by
  have k : SameClock s₀ (s.execHead t) := by
    unfold State.execHead
    dsimp only
    split
    · split
      · exact ite_sameClock (h.withRest ..) h
      · exact State.busError_sameClock (h.withRest ..) _
    · exact h
  unfold State.bridgeHead State.combHead
  dsimp only
  refine ite_sameClock k ?_
  split
  · exact k.withRest ..
  · exact k

theorem State.busGrant_sameClock (h : SameClock s₀ s) (g : Nat) : SameClock s₀ (s.busGrant g) := by
  unfold State.busGrant
  refine ite_sameClock h ?_
  split
  · exact h
  · extract_lets lost raised heads s1 s2 s3
    have k2 : SameClock s₀ s2 := State.hubEvent_sameClock (s := s1) (h.withRest ..) ..
    have k3 : SameClock s₀ s3 := ite_sameClock (State.hubEvent_sameClock k2 ..) (ite_sameClock (State.hubEvent_sameClock k2 ..) k2)
    exact ite_sameClock (State.hubEvent_sameClock k3 ..) k3

theorem State.busTick_sameClock (h : SameClock s₀ s) : SameClock s₀ s.busTick := by
  unfold State.busTick
  exact ite_sameClock h (foldl_sameClock (foldl_sameClock h fun _ _ k => State.bridgeHead_sameClock k _)
    fun _ _ k => State.busGrant_sameClock k _)

/-! ## Record queues -/

/-- The registers of a record queue lie above the time unit's. -/
theorem clockReg_qw (q k : Nat) : clockReg (Adr.QW q + k) = false := clockReg_of_le _ (by unfold Adr.QW; omega)

theorem State.setQueue_sameClock (h : SameClock s₀ s) (q : Nat) (x : Queue) : SameClock s₀ (s.setQueue q x) := h.withRest ..

theorem State.onQueue_sameClock (h : SameClock s₀ s) (q : Nat) (f : Queue → Queue) : SameClock s₀ (s.onQueue q f) := by
  unfold State.onQueue
  split
  · exact State.setQueue_sameClock h ..
  · exact h

theorem State.regMark_sameClock (h : SameClock s₀ s) (q depth delay : Nat) : SameClock s₀ (s.regMark q depth delay) := by
  unfold State.regMark
  exact ite_sameClock h (State.put_sameClock (State.put_sameClock h _ _ _ (clockReg_qw ..)) _ _ _ (clockReg_qw ..))

theorem State.accept_sameClock (h : SameClock s₀ s) (q slot : Nat) (r : Rec) : SameClock s₀ (s.accept q slot r) := by
  unfold State.accept
  split
  · exact h
  · exact State.regMark_sameClock (State.setQueue_sameClock
      (State.putPair_sameClock h _ _ _ _ (clockReg_qw ..) (clockReg_qw ..)) ..) ..

theorem State.queueLoss_sameClock (h : SameClock s₀ s) (q : Nat) : SameClock s₀ (s.queueLoss q) := by
  unfold State.queueLoss
  split
  · exact h
  · exact ite_sameClock h (ite_sameClock (State.setQueue_sameClock h ..)
      (State.accept_sameClock (State.setQueue_sameClock h ..) ..))

theorem State.lossFreed_sameClock (h : SameClock s₀ s) (q : Nat) : SameClock s₀ (s.lossFreed q) := by
  unfold State.lossFreed
  split
  · exact h
  · exact ite_sameClock (State.queueLoss_sameClock h q) h

theorem State.dropAtQueue_sameClock (h : SameClock s₀ s) (q : Nat) (r : Rec) : SameClock s₀ (s.dropAtQueue q r) :=
  State.onQueue_sameClock (State.hubEvent_sameClock (State.count_sameClock h _ _ _ (clockReg_qw ..)) ..) ..

theorem State.purge_sameClock (h : SameClock s₀ s) (q n : Nat) : SameClock s₀ (s.purge q n) := by
  unfold State.purge
  split
  · exact h
  · refine foldl_sameClock h fun s i k => State.assertFault_sameClock (foldl_sameClock k fun s p k => ?_) _ (by decide) (by decide) ..
    split
    · exact k
    · exact ite_sameClock (State.lossFreed_sameClock (State.onQueue_sameClock
        (State.dropAtQueue_sameClock (State.setQueue_sameClock k ..) ..) ..) _) k

theorem State.takeHead_sameClock {i : QItem} (h : SameClock s₀ s) {q : Nat} {w : Bool} (e : s.takeHead q w = some (i, t)) :
    SameClock s₀ t := by
  have vtime : ∀ ch v, SameClock s₀ (s.setVtime ch v) := fun ch v =>
    ite_sameClock (h.withRest ..) (ite_sameClock (h.withRest ..) (h.withRest ..))
  unfold State.takeHead at e
  split at e
  · cases e
  · split at e
    · cases e
    · cases e
      exact State.lossFreed_sameClock (State.regMark_sameClock (State.setQueue_sameClock (ite_sameClock (vtime ..) h) ..) ..) _

theorem State.toRing_sameClock (h : SameClock s₀ s) (q : Nat) (r : Rec) : SameClock s₀ (s.toRing q r) := by
  unfold State.toRing
  split
  · exact h
  · exact ite_sameClock (h.reports (State.dmaFault_reports .rfl q)) (SameClock.reports (State.hubEvent_sameClock
      (State.fetchRecords_sameClock (h.reports (State.setSess_reports .rfl ..)) ..) ..) (State.writeStat_reports .rfl ..))

/-- A fold that collects something beside the state. -/
theorem foldl_snd_sameClock {α β : Type} {f : α × State → β → α × State} (l : List β) (acc : α × State)
    (h : SameClock s₀ acc.2) (hf : ∀ acc x, SameClock s₀ acc.2 → SameClock s₀ (f acc x).2) : SameClock s₀ (l.foldl f acc).2 := by
  induction l generalizing acc with
  | nil => exact h
  | cons x l ih => exact ih _ (hf acc x h)

theorem State.sendDgram_sameClock (h : SameClock s₀ s) (q n flags : Nat) (weighted : Bool) :
    SameClock s₀ (s.sendDgram q n flags weighted) := by
  unfold State.sendDgram
  split
  · exact h
  · extract_lets k qpos r e d0 d s1
    have hr : SameClock s₀ r.2 := by
      refine foldl_snd_sameClock _ _ h fun acc _ kacc => ?_
      split
      · exact State.takeHead_sameClock kacc ‹_›
      · exact kacc
    have h1 : SameClock s₀ s1 := State.hubEvent_sameClock (State.fetchRecords_sameClock
      (State.onQueue_sameClock hr ..) ..) ..
    exact ite_sameClock h (ite_sameClock (h1.withRest ..) (h1.withRest ..))

theorem State.fcRelease_sameClock (h : SameClock s₀ s) (q : Nat) : SameClock s₀ (s.fcRelease q) := by
  unfold State.fcRelease
  have k := State.purge_sameClock h q (s.fcBurst q)
  refine ite_sameClock (foldl_sameClock k fun u _ k => ite_sameClock ?_ k) (State.sendDgram_sameClock k ..)
  split
  · exact State.toRing_sameClock (State.takeHead_sameClock k ‹_›) ..
  · exact k

theorem State.fcStart_sameClock (h : SameClock s₀ s) : SameClock s₀ s.fcStart := by
  unfold State.fcStart
  exact ite_sameClock h (foldl_sameClock (h.withRest ..) fun _ _ k => State.fcRelease_sameClock k _)

/-! ## What else is due on a tick -/

theorem State.tickAlive_sameClock (h : SameClock s₀ s) : SameClock s₀ s.tickAlive := by
  unfold State.tickAlive
  split
  · exact ite_sameClock (h.withRest ..) h
  · exact h

theorem State.refreshTpd_sameClock (h : SameClock s₀ s) : SameClock s₀ s.refreshTpd := by
  unfold State.refreshTpd
  exact ite_sameClock h (h.withRest ..)

theorem State.setSrx_sameClock (h : SameClock s₀ s) (p : Nat) (x : Srx) : SameClock s₀ (s.setSrx p x) := h.withRest ..

theorem State.endWindows_sameClock (h : SameClock s₀ s) : SameClock s₀ s.endWindows := by
  unfold State.endWindows
  exact ite_sameClock h (foldl_sameClock h fun _ _ k => ite_sameClock (State.setSrx_sameClock k ..) k)

theorem State.parkLate_sameClock (h : SameClock s₀ s) : SameClock s₀ s.parkLate := by
  unfold State.parkLate
  extract_lets due p u late
  have k : SameClock s₀ u := h.withRest ..
  have kLate : Reports u late := foldl_reports .rfl fun _ _ k => State.settle_reports (State.onLane_reports k ..) _
  exact ite_sameClock h (k.reports (State.refreshOuts_reports (State.interrupts_reports kLate _)))

theorem State.hkSettled_sameClock (h : SameClock s₀ s) : SameClock s₀ s.hkSettled := by
  unfold State.hkSettled
  exact ite_sameClock (State.putFlag_sameClock h _ _ _ (by decide)) h

theorem State.takeTaps_sameClock (h : SameClock s₀ s) : SameClock s₀ s.takeTaps := by
  unfold State.takeTaps
  exact (foldl_sameClock h fun _ _ k => State.put_sameClock k _ _ _ (clockReg_of_le _ (by unfold Adr.HLD_LANE; omega))).withRest ..

theorem State.crossings_sameClock (h : SameClock s₀ s) : SameClock s₀ s.crossings := by
  have stat : ∀ p (f : Field), clockReg (Adr.SRX_STAT p + f.off) = false := fun p f =>
    clockReg_of_le _ (by unfold Adr.SRX_STAT; omega)
  have staged : ∀ {u : State} p, SameClock s₀ u → SameClock s₀ (u.takeStaged p) := fun p k =>
    State.setSrx_sameClock (State.putFlag_sameClock k _ _ _ (stat p _)) ..
  have key : ∀ {u : State} p x, SameClock s₀ u → SameClock s₀ (u.takeKey p x) := fun p x k =>
    State.put_sameClock (State.countWrap_sameClock (State.putFlag_sameClock (State.setSrx_sameClock k ..) _ _ _ (stat p _))
      _ _ _ (stat p _)) _ _ _ (by decide)
  refine foldl_sameClock h fun u e k => ?_
  extract_lets x v here w
  have kv : SameClock s₀ v := by
    unfold v
    split
    · exact ite_sameClock (staged _ k) k
    · exact k
  exact ite_sameClock kv (foldl_sameClock (State.setSrx_sameClock kv ..) fun _ _ k => key _ _ k)

theorem State.goExpire_sameClock (h : SameClock s₀ s) : SameClock s₀ s.goExpire := by
  unfold State.goExpire
  exact ite_sameClock (h.withRest ..) h

theorem State.expireLines_sameClock (h : SameClock s₀ s) (inB : Bool) : SameClock s₀ (s.expireLines inB) := by
  have tod : ∀ f : Field, clockReg (Adr.TOD (if inB then 1 else 0) + f.off) = false := fun f =>
    clockReg_of_le _ (by unfold Adr.TOD; omega)
  have pps : ∀ f, SameClock s₀ (s.onPps inB f) := by
    intro f
    unfold State.onPps
    exact ite_sameClock (h.with (ha := .refl _) (hb := .refl _) (hs := .refl _) ..)
      (h.with (ha := .refl _) (hb := .refl _) (hs := .refl _) ..)
  unfold State.expireLines State.badLines
  exact ite_sameClock h (ite_sameClock (pps _) (State.putFlag_sameClock (State.count_sameClock (pps _) _ _ _ (tod _)) _ _ _ (tod _)))

theorem State.strobe_sameClock (h : SameClock s₀ s) : SameClock s₀ s.strobe := h.withRest ..

theorem State.stampApplies_sameClock (h : SameClock s₀ s) : SameClock s₀ s.stampApplies := by
  unfold State.stampApplies
  exact ite_sameClock (h.withRest ..) h

/-- What a tick does once both domains have advanced and a waiting snapshot is taken. -/
def State.tickRest (s : State) : State :=
  let s := s.tickAlive.refreshTpd.endWindows.parkLate.hkSettled.takeTaps.crossings.goExpire.fcStart.busTick
  let s := (s.expireLines false).expireLines true
  if s.tick % 5 = 0 then s.strobe.hubEvent 0x01 1 else s

/-- The instant of the next tick: TICK counted, what was asked for the end of the last one done. -/
def State.nextInstant (s : State) : State := { s.takeSwitch.markInstant with tick := min (s.takeSwitch.tick + 1) (2 ^ 64 - 1) }

/-- The domains advanced. -/
def State.advanced (s : State) : State := s.nextInstant.tickDomains.stampApplies

theorem spineTick_eq (h : (s.boot.porLow || s.boot.dead) = false) :
    spineTick s = (if s.advanced.time.snapPend then s.advanced.takeSnap else s.advanced).tickRest := by
  unfold spineTick
  rw [if_neg (by simp [h])]
  rfl

theorem State.tickRest_sameClock (h : SameClock s₀ s) : SameClock s₀ s.tickRest := by
  have k := State.busTick_sameClock (State.fcStart_sameClock (State.goExpire_sameClock (State.crossings_sameClock
    (State.takeTaps_sameClock (State.hkSettled_sameClock (State.parkLate_sameClock (State.endWindows_sameClock
      (State.refreshTpd_sameClock (State.tickAlive_sameClock h)))))))))
  have kLines := State.expireLines_sameClock (State.expireLines_sameClock k false) true
  exact ite_sameClock (State.hubEvent_sameClock (State.strobe_sameClock kLines) ..) kLines

end Sys2Proof.Machine
end

section
/-! SUPPORT. How a tick advances the domains, applies a SET and takes a snapshot (R149 to R151). -/

namespace Sys2Proof.Machine

variable {s s₀ t : State}

/-! ## The next instant -/

theorem State.nextInstant_tick (s : State) : s.nextInstant.tick = min (s.tick + 1) (2 ^ 64 - 1) := by
  unfold State.nextInstant
  rw [(State.takeSwitch_sameClock .rfl).tick]

/-- A SET applied on a tick stands in the domain; nothing of the old time is left. -/
theorem Domain.step_of_set {x : Domain} {sec ns : Nat} (h : x.setPend = some (sec, ns)) (n : Nat) :
    (x.step n).2 = true ∧ (x.step n).1.sec = sec ∧ (x.step n).1.ns = ns ∧ (x.step n).1.frac = 0
    ∧ (x.step n).1.setPend = none := by
  unfold Domain.step
  rw [h]
  exact ⟨rfl, rfl, rfl, rfl, rfl⟩

/-- With no SET waiting a step applies none. -/
theorem Domain.step_of_noSet {x : Domain} (h : x.setPend = none) (n : Nat) : (x.step n).2 = false := by
  unfold Domain.step
  rw [h]

/-- Both domains stepped, before what an applied SET brings with it. -/
def State.stepped (s : State) : State :=
  { s with time := { s.time with a := (s.time.a.step s.tick).1, b := (s.time.b.step s.tick).1 } }

theorem State.stepped_dom (s : State) (d : Dom) : s.stepped.time.dom d = ((s.time.dom d).step s.tick).1 := by cases d <;> rfl

theorem State.tickDomains_eq (s : State) : s.tickDomains =
    (if (s.time.b.step s.tick).2 then
      (if (s.time.a.step s.tick).2 then s.stepped.afterSet .A s.time.a.total else s.stepped).afterSet .B s.time.b.total
    else if (s.time.a.step s.tick).2 then s.stepped.afterSet .A s.time.a.total else s.stepped) := rfl

/-- With no SET waiting the domains step and nothing else changes. -/
theorem State.tickDomains_of_noSet (ha : s.time.a.setPend = none) (hb : s.time.b.setPend = none) :
    s.tickDomains = s.stepped := by
  simp [State.tickDomains_eq, Domain.step_of_noSet ha, Domain.step_of_noSet hb]

/-- With a SET waiting in one domain alone, the domains step and that SET is applied. -/
theorem State.tickDomains_of_set {d : Dom} {p : Nat × Nat} (h : (s.time.dom d).setPend = some p)
    (ho : (s.time.dom (otherDom d)).setPend = none) : s.tickDomains = s.stepped.afterSet d (s.time.dom d).total := by
  cases d with
  | A =>
    have ha : s.time.a.setPend = some p := h
    have hb : s.time.b.setPend = none := ho
    simp [State.tickDomains_eq, (Domain.step_of_set ha _).1, Domain.step_of_noSet hb, TimeUnit.dom]
  | B =>
    have hb : s.time.b.setPend = some p := h
    have ha : s.time.a.setPend = none := ho
    simp [State.tickDomains_eq, (Domain.step_of_set hb _).1, Domain.step_of_noSet ha, TimeUnit.dom]

/-! ## A SET is applied -/

/-- From `s` to `t` what domain `d` counts and the word of its TQ state and SET_COUNT stay. -/
structure SameDomain (d : Dom) (s t : State) : Prop where
  sec : (t.time.dom d).sec = (s.time.dom d).sec
  ns : (t.time.dom d).ns = (s.time.dom d).ns
  frac : (t.time.dom d).frac = (s.time.dom d).frac
  setPend : (t.time.dom d).setPend = (s.time.dom d).setPend
  wf : s.regsWf = true → t.regsWf = true
  rd : s.regsWf = true → t.rd (tdAdr d + 0x30) = s.rd (tdAdr d + 0x30)

theorem SameDomain.trans {d : Dom} (h : SameDomain d s₀ s) (k : SameDomain d s t) : SameDomain d s₀ t where
  sec := k.sec.trans h.sec
  ns := k.ns.trans h.ns
  frac := k.frac.trans h.frac
  setPend := k.setPend.trans h.setPend
  wf := k.wf ∘ h.wf
  rd := fun w => (k.rd (h.wf w)).trans (h.rd w)

theorem SameDomain.rfl {d : Dom} : SameDomain d s s := ⟨.refl _, .refl _, .refl _, .refl _, id, fun _ => .refl _⟩

theorem SameDomain.tq {d : Dom} (h : SameDomain d s t) (w : s.regsWf = true) : t.tqOf d = s.tqOf d := by
  unfold State.tqOf State.get
  rw [show tdAdr d + Fl.TD_STATE.off = tdAdr d + 0x30 from Eq.refl _, h.rd w]

theorem SameDomain.setCount {d : Dom} (h : SameDomain d s t) (w : s.regsWf = true) :
    t.get (tdAdr d) Fl.TD_SET_COUNT = s.get (tdAdr d) Fl.TD_SET_COUNT := by
  unfold State.get
  rw [show tdAdr d + Fl.TD_SET_COUNT.off = tdAdr d + 0x30 from Eq.refl _, h.rd w]

/-- The same domains, in every field, and the same word. -/
theorem SameDomain.of_dom {d : Dom} (h : t.time.dom d = s.time.dom d) (wf : s.regsWf = true → t.regsWf = true)
    (rd : s.regsWf = true → t.rd (tdAdr d + 0x30) = s.rd (tdAdr d + 0x30)) : SameDomain d s t := by
  refine ⟨?_, ?_, ?_, ?_, wf, rd⟩ <;> rw [h]

theorem SameClock.sameDomain (h : SameClock s t) (d : Dom) : SameDomain d s t :=
  .of_dom (h.dom d) h.wf fun w => h.rd w _ (by cases d <;> decide)

theorem State.requestSwitch_sameDomain (s : State) (d : Dom) : SameDomain d s s.requestSwitch := by
  unfold State.requestSwitch
  split
  · exact .rfl
  · exact .of_dom (by cases d <;> rfl) (State.putFlag_regsWf _ _ _)
      (fun w => State.rd_put_word _ _ _ _ (by cases d <;> decide) w)

/-- An update of a domain that leaves what it counts. -/
theorem State.onDom_sameDomain (s : State) (d : Dom) (f : Domain → Domain) (sec : (f (s.time.dom d)).sec = (s.time.dom d).sec)
    (ns : (f (s.time.dom d)).ns = (s.time.dom d).ns) (frac : (f (s.time.dom d)).frac = (s.time.dom d).frac)
    (setPend : (f (s.time.dom d)).setPend = (s.time.dom d).setPend) : SameDomain d s (s.onDom d f) := by
  have e : (s.onDom d f).time.dom d = f (s.time.dom d) := by cases d <;> rfl
  rw [← e] at sec ns frac setPend
  exact ⟨sec, ns, frac, setPend, id, fun _ => .refl _⟩

/-- To ACQUIRING a domain goes with STATE written, and what a change of the stamping domain's state asks for. -/
theorem State.setTq_acquiring (s : State) (d : Dom) : SameDomain d (s.put (tdAdr d) Fl.TD_STATE 1) (s.setTq d 1) := by
  unfold State.setTq
  extract_lets old u v w x
  have kv : SameDomain d u v := State.onDom_sameDomain u d _ (.refl _) (.refl _) (.refl _) (.refl _)
  have kw : SameDomain d u w :=
    kv.trans ((State.faultGone_sameClock (State.faultGone_sameClock .rfl _) _).sameDomain d)
  have kx : SameDomain d u x := kw
  split
  · split
    · exact kx.trans (State.requestSwitch_sameDomain x d)
    · exact kx
  · exact kv

/-- From `s`, whose domain `d` stands where a SET put it, to `t`: SET_COUNT has counted, a domain past ACQUIRING is ACQUIRING
again, and what the domain counts stays (R150). -/
structure SetApplied (d : Dom) (s t : State) : Prop where
  wf : t.regsWf = true
  sec : (t.time.dom d).sec = (s.time.dom d).sec
  ns : (t.time.dom d).ns = (s.time.dom d).ns
  frac : (t.time.dom d).frac = (s.time.dom d).frac
  setPend : (t.time.dom d).setPend = (s.time.dom d).setPend
  setCount : t.get (tdAdr d) Fl.TD_SET_COUNT = (s.get (tdAdr d) Fl.TD_SET_COUNT + 1) % 256
  tq : t.tqOf d = min (s.tqOf d) 1

theorem SetApplied.trans {d : Dom} (h : SetApplied d s₀ s) (k : SameDomain d s t) : SetApplied d s₀ t where
  wf := k.wf h.wf
  sec := k.sec.trans h.sec
  ns := k.ns.trans h.ns
  frac := k.frac.trans h.frac
  setPend := k.setPend.trans h.setPend
  setCount := (k.setCount h.wf).trans h.setCount
  tq := (k.tq h.wf).trans h.tq

/-- A domain that was FREE or ACQUIRING keeps its TQ state; another goes to ACQUIRING, which writes another field of the word in
which SET_COUNT counts. -/
theorem State.afterSet_applied (h : s.regsWf = true) (d : Dom) (before : Nat) : SetApplied d s (s.afterSet d before) := by
  unfold State.afterSet
  extract_lets u tm v w passed
  have hu : u.regsWf = true := State.countWrap_regsWf _ _ _ h
  have hv : v.regsWf = true := hu
  have hd : v.time.dom d = s.time.dom d := by cases d <;> rfl
  have countV : v.get (tdAdr d) Fl.TD_SET_COUNT = (s.get (tdAdr d) Fl.TD_SET_COUNT + 1) % 256 :=
    State.get_put_same (s := s) _ _ _ (by decide) h
  have tqV : v.tqOf d = s.tqOf d := State.get_put_field (s := s) _ _ _ _ Fl.TD_STATE (.refl _) (by decide) (by decide) h
  have applied : SetApplied d s w := by
    by_cases hq : 2 ≤ v.tqOf d
    · have countP : (v.put (tdAdr d) Fl.TD_STATE 1).get (tdAdr d) Fl.TD_SET_COUNT = v.get (tdAdr d) Fl.TD_SET_COUNT :=
        State.get_put_field _ _ _ _ _ (.refl _) (by decide) (by decide) hv
      have tqP : (v.put (tdAdr d) Fl.TD_STATE 1).tqOf d = 1 := State.get_put_same _ _ _ (by decide) hv
      have start : SetApplied d s (v.put (tdAdr d) Fl.TD_STATE 1) := by
        refine ⟨State.put_regsWf _ _ _ hv, ?_, ?_, ?_, ?_, countP.trans countV, by omega⟩ <;> rw [State.put_time, hd]
      rw [show w = v.setTq d 1 from if_pos hq]
      exact start.trans (State.setTq_acquiring v d)
    · rw [show w = v from if_neg hq]
      refine ⟨hv, ?_, ?_, ?_, ?_, countV, by omega⟩ <;> rw [hd]
  exact applied.trans (.of_dom (by cases d <;> rfl) id fun _ => .refl _)

/-! ## A snapshot is taken -/

/-- The SNAP words of domain `d` written. -/
def State.snapDom (s : State) (d : Dom) : State :=
  (((s.put (tdAdr d) Fl.TD_SNAP_NS (s.time.dom d).ns).put (tdAdr d) Fl.TD_SNAP_SEC_LO (s.time.dom d).sec).put
    (tdAdr d) Fl.TD_SNAP_SEC_HI ((s.time.dom d).sec / 2 ^ 32)).put (tdAdr d) Fl.TD_SNAP_FRAC16 (s.time.dom d).frac16

theorem State.snapDom_time (s : State) (d : Dom) : (s.snapDom d).time = s.time := by
  unfold State.snapDom
  simp only [State.put_time]

theorem State.snapDom_tick (s : State) (d : Dom) : (s.snapDom d).tick = s.tick := by
  unfold State.snapDom
  simp only [State.put_tick]

/-- What a snapshot writes, beside SNAP_DONE. -/
def State.snapWords (s : State) : State :=
  ((s.putPair Adr.TIME_SNAP_TICK Fl.TIME_SNAP_TICK_TICK_LO Fl.TIME_SNAP_TICK_TICK_HI s.tick).snapDom .A).snapDom .B

/-- The time unit replaced. -/
def State.withTime (s : State) (x : TimeUnit) : State := { s with time := x }

@[simp] theorem State.withTime_rd (s : State) (x : TimeUnit) (k : Nat) : (s.withTime x).rd k = s.rd k := rfl
@[simp] theorem State.withTime_regsWf (s : State) (x : TimeUnit) : (s.withTime x).regsWf = s.regsWf := rfl
@[simp] theorem State.withTime_time (s : State) (x : TimeUnit) : (s.withTime x).time = x := rfl
@[simp] theorem State.withTime_tick (s : State) (x : TimeUnit) : (s.withTime x).tick = s.tick := rfl

theorem State.takeSnap_eq (s : State) : s.takeSnap =
    (s.snapWords.putFlag Adr.TIME_CTL Fl.TIME_CTL_SNAP_DONE true).withTime { s.time with snapPend := false } := by
  unfold State.takeSnap State.snapWords State.withTime
  rfl

theorem State.takeSnap_rd (s : State) (k : Nat) :
    s.takeSnap.rd k = (s.snapWords.putFlag Adr.TIME_CTL Fl.TIME_CTL_SNAP_DONE true).rd k := by
  rw [State.takeSnap_eq, State.withTime_rd]

theorem State.takeSnap_dom (s : State) (d : Dom) : s.takeSnap.time.dom d = s.time.dom d := by
  rw [State.takeSnap_eq, State.withTime_time]
  cases d <;> rfl

theorem State.snapDom_regsWf (h : s.regsWf = true) (d : Dom) : (s.snapDom d).regsWf = true :=
  State.put_regsWf _ _ _ (State.put_regsWf _ _ _ (State.put_regsWf _ _ _ (State.put_regsWf _ _ _ h)))

/-- The SNAP words of a domain are its first three. -/
theorem State.snapDom_rd (h : s.regsWf = true) (d : Dom) (k : Nat) (hk : k < tdAdr d ∨ tdAdr d + 0xc ≤ k) :
    (s.snapDom d).rd k = s.rd k := by
  have off : ∀ f : Field, f.off ≤ 8 → k ≠ tdAdr d + f.off := by omega
  unfold State.snapDom
  rw [State.rd_put_word _ _ _ _ (off _ (by decide)) (State.put_regsWf _ _ _ (State.put_regsWf _ _ _ (State.put_regsWf _ _ _ h))),
    State.rd_put_word _ _ _ _ (off _ (by decide)) (State.put_regsWf _ _ _ (State.put_regsWf _ _ _ h)),
    State.rd_put_word _ _ _ _ (off _ (by decide)) (State.put_regsWf _ _ _ h), State.rd_put_word _ _ _ _ (off _ (by decide)) h]

theorem State.snapDom_get (h : s.regsWf = true) (d : Dom) (b : Nat) (f : Field)
    (hk : b + f.off < tdAdr d ∨ tdAdr d + 0xc ≤ b + f.off) : (s.snapDom d).get b f = s.get b f := by
  unfold State.get
  rw [State.snapDom_rd h d _ hk]

theorem State.snapDom_ns (h : s.regsWf = true) (d : Dom) :
    (s.snapDom d).get (tdAdr d) Fl.TD_SNAP_NS = (s.time.dom d).ns % 2 ^ 30 := by
  have other : ∀ f : Field, f.off ≠ 0 → tdAdr d + Fl.TD_SNAP_NS.off ≠ tdAdr d + f.off := fun f hf e => hf (by
    rw [show Fl.TD_SNAP_NS.off = 0 from rfl] at e; omega)
  have h1 := State.put_regsWf (tdAdr d) Fl.TD_SNAP_NS (s.time.dom d).ns h
  have h2 := State.put_regsWf (tdAdr d) Fl.TD_SNAP_SEC_LO (s.time.dom d).sec h1
  unfold State.snapDom
  rw [State.get_put_word _ _ _ _ _ (other _ (by decide)) (State.put_regsWf _ _ _ h2),
    State.get_put_word _ _ _ _ _ (other _ (by decide)) h2, State.get_put_word _ _ _ _ _ (other _ (by decide)) h1]
  exact State.get_put_same _ _ _ (by decide) h

theorem State.snapDom_frac16 (h : s.regsWf = true) (d : Dom) :
    (s.snapDom d).get (tdAdr d) Fl.TD_SNAP_FRAC16 = (s.time.dom d).frac16 % 2 ^ 16 :=
  State.get_put_same _ _ _ (by decide) (State.put_regsWf _ _ _ (State.put_regsWf _ _ _ (State.put_regsWf _ _ _ h)))

/-- A pair of words reads as a 64-bit value written. -/
theorem State.getPair_putPair_same (b : Nat) (lo hi : Field) (n : Nat) (h : s.regsWf = true) (hn : n < 2 ^ 64)
    (hl : lo.lo = 0 ∧ lo.width = 32) (hh : hi.lo = 0 ∧ hi.width = 32) (hne : lo.off ≠ hi.off) :
    (s.putPair b lo hi n).getPair b lo hi = n := by
  unfold State.getPair State.putPair
  rw [State.get_put_same _ _ _ (by omega) (State.put_regsWf _ _ _ h),
    State.get_put_word _ _ _ _ _ (by omega) (State.put_regsWf _ _ _ h),
    State.get_put_same _ _ _ (by omega) h, hl.2, hh.2]
  omega

/-- The registers of the time unit with a snapshot in the SNAP words. -/
structure SnapTaken (s t : State) : Prop where
  wf : t.regsWf = true
  tick : t.tick = s.tick
  dom : ∀ d, t.time.dom d = s.time.dom d
  done : t.flag Adr.TIME_CTL Fl.TIME_CTL_SNAP_DONE = true
  snapTick : t.getPair Adr.TIME_SNAP_TICK Fl.TIME_SNAP_TICK_TICK_LO Fl.TIME_SNAP_TICK_TICK_HI = s.tick
  ns : ∀ d, t.get (tdAdr d) Fl.TD_SNAP_NS = (s.time.dom d).ns % 2 ^ 30
  frac16 : ∀ d, t.get (tdAdr d) Fl.TD_SNAP_FRAC16 = (s.time.dom d).frac16 % 2 ^ 16

theorem SnapTaken.trans (h : SnapTaken s₀ s) (k : SameClock s t) : SnapTaken s₀ t where
  wf := k.wf h.wf
  tick := k.tick.trans h.tick
  dom := fun d => (k.dom d).trans (h.dom d)
  done := by
    have e := k.get h.wf Adr.TIME_CTL Fl.TIME_CTL_SNAP_DONE (by decide)
    unfold State.flag
    rw [e]
    exact h.done
  snapTick := by
    have lo := k.get h.wf Adr.TIME_SNAP_TICK Fl.TIME_SNAP_TICK_TICK_LO (by decide)
    have hi := k.get h.wf Adr.TIME_SNAP_TICK Fl.TIME_SNAP_TICK_TICK_HI (by decide)
    unfold State.getPair
    rw [lo, hi]
    exact h.snapTick
  ns := fun d => (k.get h.wf _ _ (by cases d <;> decide)).trans (h.ns d)
  frac16 := fun d => (k.get h.wf _ _ (by cases d <;> decide)).trans (h.frac16 d)

theorem State.snapWords_regsWf (h : s.regsWf = true) : s.snapWords.regsWf = true :=
  State.snapDom_regsWf (State.snapDom_regsWf (State.put_regsWf _ _ _ (State.put_regsWf _ _ _ h)) _) _

theorem State.takeSnap_regsWf (h : s.regsWf = true) : s.takeSnap.regsWf = true := by
  rw [State.takeSnap_eq, State.withTime_regsWf]
  exact State.putFlag_regsWf _ _ _ (State.snapWords_regsWf h)

/-- Of what a snapshot writes, only TIME_CTL is no SNAP word. -/
theorem State.takeSnap_get (h : s.regsWf = true) (b : Nat) (f : Field) (hne : b + f.off ≠ Adr.TIME_CTL) :
    s.takeSnap.get b f = s.snapWords.get b f := by
  unfold State.get
  rw [State.takeSnap_rd]
  unfold State.putFlag
  rw [State.rd_put_word _ _ _ _ hne (State.snapWords_regsWf h)]

theorem State.snapWords_getPair_tick (h : s.regsWf = true) (ht : s.tick < 2 ^ 64) :
    s.snapWords.getPair Adr.TIME_SNAP_TICK Fl.TIME_SNAP_TICK_TICK_LO Fl.TIME_SNAP_TICK_TICK_HI = s.tick := by
  have h1 : (s.putPair Adr.TIME_SNAP_TICK Fl.TIME_SNAP_TICK_TICK_LO Fl.TIME_SNAP_TICK_TICK_HI s.tick).regsWf = true :=
    State.put_regsWf _ _ _ (State.put_regsWf _ _ _ h)
  have h2 := State.snapDom_regsWf h1 .A
  refine .trans ?_ (State.getPair_putPair_same Adr.TIME_SNAP_TICK Fl.TIME_SNAP_TICK_TICK_LO Fl.TIME_SNAP_TICK_TICK_HI s.tick h ht
    (by decide) (by decide) (by decide))
  unfold State.getPair State.snapWords
  rw [State.snapDom_get h2 _ _ _ (by decide), State.snapDom_get h2 _ _ _ (by decide),
    State.snapDom_get h1 _ _ _ (by decide), State.snapDom_get h1 _ _ _ (by decide)]

/-- The SNAP words of a domain hold what is written for it, whichever of the two it is. -/
theorem State.snapWords_get {f : Field} {n : Dom → Nat} (h : s.regsWf = true) (hf : f.off ≤ 8)
    (written : ∀ (u : State) (d : Dom), u.regsWf = true → u.time = s.time → (u.snapDom d).get (tdAdr d) f = n d) (d : Dom) :
    s.snapWords.get (tdAdr d) f = n d := by
  have h1 : (s.putPair Adr.TIME_SNAP_TICK Fl.TIME_SNAP_TICK_TICK_LO Fl.TIME_SNAP_TICK_TICK_HI s.tick).regsWf = true :=
    State.put_regsWf _ _ _ (State.put_regsWf _ _ _ h)
  have h2 := State.snapDom_regsWf h1 .A
  unfold State.snapWords
  cases d with
  | A =>
    rw [State.snapDom_get h2 _ _ _ (Or.inl (by change 0x70100 + f.off < 0x70140; omega))]
    exact written _ .A h1 (State.putPair_time ..)
  | B => exact written _ .B h2 (by rw [State.snapDom_time, State.putPair_time])

theorem State.takeSnap_tick (s : State) : s.takeSnap.tick = s.tick := by
  rw [State.takeSnap_eq, State.withTime_tick, State.putFlag_tick]
  unfold State.snapWords
  rw [State.snapDom_tick, State.snapDom_tick, State.putPair_tick]

theorem State.takeSnap_done (h : s.regsWf = true) : s.takeSnap.flag Adr.TIME_CTL Fl.TIME_CTL_SNAP_DONE = true := by
  rw [← State.flag_putFlag_same (s := s.snapWords) Adr.TIME_CTL Fl.TIME_CTL_SNAP_DONE true (by decide) (by decide)
    (State.snapWords_regsWf h)]
  unfold State.flag State.get
  rw [State.takeSnap_rd]

theorem State.takeSnap_taken (h : s.regsWf = true) (ht : s.tick < 2 ^ 64) : SnapTaken s s.takeSnap where
  wf := State.takeSnap_regsWf h
  tick := State.takeSnap_tick s
  dom := State.takeSnap_dom s
  done := State.takeSnap_done h
  snapTick := by
    have lo := State.takeSnap_get h Adr.TIME_SNAP_TICK Fl.TIME_SNAP_TICK_TICK_LO (by decide)
    have hi := State.takeSnap_get h Adr.TIME_SNAP_TICK Fl.TIME_SNAP_TICK_TICK_HI (by decide)
    rw [State.getPair, lo, hi]
    exact State.snapWords_getPair_tick h ht
  ns := fun d => by
    rw [State.takeSnap_get h _ _ (by cases d <;> decide)]
    exact State.snapWords_get (f := Fl.TD_SNAP_NS) h (by decide) (fun u d hu e => by rw [State.snapDom_ns hu, e]) d
  frac16 := fun d => by
    rw [State.takeSnap_get h _ _ (by cases d <;> decide)]
    exact State.snapWords_get (f := Fl.TD_SNAP_FRAC16) h (by decide) (fun u d hu e => by rw [State.snapDom_frac16 hu, e]) d

/-- A snapshot writes no TQ state and no SET_COUNT. -/
theorem State.takeSnap_sameDomain (s : State) (d : Dom) : SameDomain d s s.takeSnap := by
  refine .of_dom (State.takeSnap_dom s d) State.takeSnap_regsWf (fun h => ?_)
  have h0 := State.put_regsWf Adr.TIME_SNAP_TICK Fl.TIME_SNAP_TICK_TICK_LO s.tick h
  have h1 : (s.putPair Adr.TIME_SNAP_TICK Fl.TIME_SNAP_TICK_TICK_LO Fl.TIME_SNAP_TICK_TICK_HI s.tick).regsWf = true :=
    State.put_regsWf _ _ _ h0
  rw [State.takeSnap_rd]
  unfold State.putFlag
  rw [State.rd_put_word _ _ _ _ (by cases d <;> decide) (State.snapWords_regsWf h)]
  unfold State.snapWords
  rw [State.snapDom_rd (State.snapDom_regsWf h1 .A) _ _ (by cases d <;> decide), State.snapDom_rd h1 _ _ (by cases d <;> decide)]
  unfold State.putPair
  rw [State.rd_put_word _ _ _ _ (by cases d <;> decide) h0, State.rd_put_word _ _ _ _ (by cases d <;> decide) h]

end Sys2Proof.Machine
end

section
/-! SUPPORT. The bus matrix: the head a target grants, what the others lose, and what leaves the matrix alone (R339, R340). -/

namespace Sys2Proof.Machine

variable {s : State}

/-! ## The order of heads -/

theorem BusHead.wins_irrefl (a : BusHead) : a.wins a = false := by simp [BusHead.wins]

theorem BusHead.not_wins_of_wins {a b : BusHead} (h : a.wins b = true) : b.wins a = false := by
  simp only [BusHead.wins, Bool.or_eq_true, Bool.and_eq_true, decide_eq_true_eq, beq_iff_eq] at h
  simp only [BusHead.wins, Bool.or_eq_false_iff, Bool.and_eq_false_iff, decide_eq_false_iff_not, beq_eq_false_iff_ne]
  omega

/-- A head that does not win against one which does not win against a third does not win against the third. -/
theorem BusHead.not_wins_trans {a b c : BusHead} (h : a.wins b = false) (k : b.wins c = false) : a.wins c = false := by
  simp only [BusHead.wins, Bool.or_eq_false_iff, Bool.and_eq_false_iff, decide_eq_false_iff_not, beq_eq_false_iff_ne] at h k ⊢
  omega

/-- The better of the best head so far and another. -/
def betterHead (best : Option BusHead) (h : BusHead) : Option BusHead :=
  match best with
  | none => some h
  | some b => if h.wins b then some h else some b

theorem busPick_eq (hs : List BusHead) : busPick hs = hs.foldl betterHead none := rfl

/-- The best of `b` and a list of heads is one of them, and none of them wins against it. -/
theorem foldl_betterHead {hs : List BusHead} {b w : BusHead} (h : hs.foldl betterHead (some b) = some w) :
    (w = b ∨ w ∈ hs) ∧ b.wins w = false ∧ ∀ x ∈ hs, x.wins w = false := by
  induction hs generalizing b with
  | nil =>
    obtain rfl : b = w := by simpa using h
    exact ⟨.inl rfl, b.wins_irrefl, by simp⟩
  | cons x hs ih =>
    rw [List.foldl_cons] at h
    by_cases hx : x.wins b = true
    · obtain ⟨hw, hxw, hall⟩ := ih (b := x) (by simpa [betterHead, hx] using h)
      refine ⟨.inr (hw.elim (fun e => e ▸ List.mem_cons_self) (List.mem_cons_of_mem _)), ?_, ?_⟩
      · exact BusHead.not_wins_trans (BusHead.not_wins_of_wins hx) hxw
      · exact List.forall_mem_cons.mpr ⟨hxw, hall⟩
    · obtain ⟨hw, hbw, hall⟩ := ih (b := b) (by simpa [betterHead, hx] using h)
      refine ⟨hw.imp id (List.mem_cons_of_mem _), hbw, List.forall_mem_cons.mpr ⟨?_, hall⟩⟩
      exact BusHead.not_wins_trans (Bool.eq_false_iff.mpr hx) hbw

/-- The head a target grants is one of its heads, and none of them wins against it. -/
theorem busPick_best {hs : List BusHead} {w : BusHead} (h : busPick hs = some w) : w ∈ hs ∧ ∀ x ∈ hs, x.wins w = false := by
  rw [busPick_eq] at h
  cases hs with
  | nil => cases h
  | cons b hs =>
    obtain ⟨hw, hb, hall⟩ := foldl_betterHead (b := b) h
    exact ⟨hw.elim (fun e => e ▸ List.mem_cons_self) (List.mem_cons_of_mem _), List.forall_mem_cons.mpr ⟨hb, hall⟩⟩

/-! ## Granting -/

/-- One transaction that waits behind steps up, or waits on. -/
def Bus.stepUp (tick : Nat) (b : Bus) (w : BusHead) : Bus :=
  if b.heads.any fun h => h.of w.target w.req then { b with behind := b.behind ++ [w] }
  else { b with heads := b.heads ++ [{ w with arrive := tick }] }

theorem Bus.promote_eq (b : Bus) (tick : Nat) : b.promote tick = b.behind.foldl (Bus.stepUp tick) { b with behind := [] } := rfl

theorem Bus.stepUp_keeps (tick : Nat) (b : Bus) (w : BusHead) :
    (Bus.stepUp tick b w).busy = b.busy ∧ ∀ h ∈ b.heads, h ∈ (Bus.stepUp tick b w).heads := by
  unfold Bus.stepUp
  split
  · exact ⟨rfl, fun _ m => m⟩
  · exact ⟨rfl, fun _ m => List.mem_append_left _ m⟩

theorem Bus.foldl_stepUp_keeps (tick : Nat) (l : List BusHead) (b : Bus) :
    (l.foldl (Bus.stepUp tick) b).busy = b.busy ∧ ∀ h ∈ b.heads, h ∈ (l.foldl (Bus.stepUp tick) b).heads := by
  induction l generalizing b with
  | nil => exact ⟨rfl, fun _ m => m⟩
  | cons w l ih =>
    obtain ⟨busy, heads⟩ := Bus.stepUp_keeps tick b w
    obtain ⟨busy', heads'⟩ := ih (Bus.stepUp tick b w)
    exact ⟨busy'.trans busy, fun h m => heads' h (heads h m)⟩

/-- What steps up joins the heads; no target's service changes. -/
theorem Bus.promote_keeps (b : Bus) (tick : Nat) :
    (b.promote tick).busy = b.busy ∧ ∀ h ∈ b.heads, h ∈ (b.promote tick).heads := by
  rw [Bus.promote_eq]
  exact Bus.foldl_stepUp_keeps tick b.behind { b with behind := [] }

/-- A fold whose every step leaves the matrix alone. -/
theorem foldl_bus {β : Type} {f : State → β → State} (hf : ∀ s x, (f s x).bus = s.bus) (l : List β) (s : State) :
    (l.foldl f s).bus = s.bus := by
  induction l generalizing s with
  | nil => rfl
  | cons x l ih => rw [List.foldl_cons, ih, hf]

@[simp] theorem State.hubEvent_bus (s : State) (ev n : Nat) : (s.hubEvent ev n).bus = s.bus := by
  unfold State.hubEvent
  split
  · rfl
  · refine foldl_bus (fun s i => ?_) _ s
    dsimp only
    split
    · split
      · rfl
      · rfl
    · rfl

/-- A head after a grant of `g` to `w`: passed over once more where it was one of the other heads of that target. -/
def BusHead.afterGrant (h w : BusHead) (g limit : Nat) : BusHead := if h.target == g && h != w then h.passed limit else h

/-- The matrix after target `g` granted `w`. -/
theorem State.busGrant_bus {g : Nat} {w : BusHead} (hfree : SMap.find 0 s.bus.busy g ≤ s.tick)
    (hw : busPick (s.bus.heads.filter fun h => h.target == g) = some w) :
    (s.busGrant g).bus = ({ s.bus with
      heads := (s.bus.heads.filter (· != w)).map fun h => h.afterGrant w g s.ageLimit
      busy := SMap.insert s.bus.busy g (s.tick + beatTicks w.req.len) } : Bus).promote s.tick := by
  unfold State.busGrant
  rw [if_neg (by omega), hw]
  simp only [apply_ite State.bus, State.hubEvent_bus, ite_self]
  rfl

/-- A target that serves grants nothing. -/
theorem State.busGrant_of_busy {g : Nat} (h : s.tick < SMap.find 0 s.bus.busy g) : s.busGrant g = s := by
  unfold State.busGrant
  exact if_pos h

theorem State.busGrant_busy {g : Nat} {w : BusHead} (hfree : SMap.find 0 s.bus.busy g ≤ s.tick)
    (hw : busPick (s.bus.heads.filter fun h => h.target == g) = some w) :
    SMap.find 0 (s.busGrant g).bus.busy g = s.tick + beatTicks w.req.len := by
  rw [State.busGrant_bus hfree hw, (Bus.promote_keeps _ _).1]
  exact SMap.find_insert_same ..

/-- Every head but the one granted still waits. -/
theorem State.mem_busGrant_heads {g : Nat} {w h : BusHead} (hfree : SMap.find 0 s.bus.busy g ≤ s.tick)
    (hw : busPick (s.bus.heads.filter fun h => h.target == g) = some w) (hh : h ∈ s.bus.heads) (hne : h ≠ w) :
    h.afterGrant w g s.ageLimit ∈ (s.busGrant g).bus.heads := by
  rw [State.busGrant_bus hfree hw]
  refine (Bus.promote_keeps _ _).2 _ (List.mem_map_of_mem (List.mem_filter.mpr ⟨hh, ?_⟩))
  exact bne_iff_ne.mpr hne

/-- What a grant leaves of a head, and what it counts. -/
theorem BusHead.afterGrant_spec {h w : BusHead} (hne : h ≠ w) (g limit : Nat) :
    (h.afterGrant w g limit).req = h.req ∧ (h.afterGrant w g limit).target = h.target ∧ (h.afterGrant w g limit).arrive = h.arrive
    ∧ (h.afterGrant w g limit).losses = (if h.target = g then h.losses + 1 else h.losses)
    ∧ (h.afterGrant w g limit).raised = (h.raised || (decide (h.target = g) && decide (limit ≤ h.losses + 1)))
    ∧ (h.afterGrant w g limit).eff = (if (h.afterGrant w g limit).raised then 15 else h.qos) := by
  unfold BusHead.afterGrant
  by_cases ht : h.target = g
  · simp [ht, hne, BusHead.passed, BusHead.eff]
  · simp [ht, BusHead.eff]

/-! ## What leaves the matrix alone -/

@[simp] theorem State.dmaFault_bus (s : State) (q : Nat) : (s.dmaFault q).bus = s.bus := by
  unfold State.dmaFault
  split
  · rfl
  · rfl

@[simp] theorem State.signal_bus (s : State) (fn vec : Nat) : (s.signal fn vec).bus = s.bus := by
  unfold State.signal State.sendMsi
  simp only [apply_ite State.bus, State.hubEvent_bus, ite_self]

@[simp] theorem State.writeStat_bus (s : State) (q ring : Nat) : (s.writeStat q ring).bus = s.bus := by
  unfold State.writeStat
  split
  · rfl
  · simp only [apply_ite State.bus, State.signal_bus, State.setSess_bus, State.hubEvent_bus, State.dmaFault_bus, ite_self]

@[simp] theorem State.sendEth_bus (s : State) (q ty count index : Nat) (body : List Byte) :
    (s.sendEth q ty count index body).bus = s.bus := by
  unfold State.sendEth
  split
  · rfl
  · split
    · rfl
    · simp only [apply_ite State.bus, State.setSess_bus, State.hubEvent_bus, ite_self]

@[simp] theorem State.pushEvts_bus (s : State) (q : Nat) (es : List (List Byte)) : (s.pushEvts q es).bus = s.bus := by
  unfold State.pushEvts
  split
  · rfl
  · simp only [apply_ite State.bus, State.dmaFault_bus, State.sendEth_bus, State.writeStat_bus, State.setSess_bus,
      State.hubEvent_bus, ite_self]

@[simp] theorem State.onSess_bus (s : State) (q : Nat) (f : Sess → Sess) : (s.onSess q f).bus = s.bus := by
  unfold State.onSess
  split
  · rfl
  · rfl

@[simp] theorem State.postAt_bus (s : State) (q code dom tq ns32 frac8 : Nat) (payload : List Byte) :
    (s.postAt q code dom tq ns32 frac8 payload).bus = s.bus := by
  unfold State.postAt
  split
  · rfl
  · split
    · rfl
    · simp only [apply_ite State.bus, State.pushEvts_bus, State.onSess_bus, State.count_bus, ite_self]

@[simp] theorem State.postOut_bus (s : State) (o : Nat) : (s.postOut o).bus = s.bus := by
  refine foldl_bus (fun s q => ?_) _ s
  split
  · rfl
  · simp only [apply_ite State.bus, State.post, State.postAt_bus, ite_self]

@[simp] theorem State.refreshOuts_bus (s : State) : s.refreshOuts.bus = s.bus :=
  foldl_bus (fun s o => by simp only [apply_ite State.bus, State.postOut_bus, State.setOut_bus, ite_self]) _ s

@[simp] theorem State.onComb_bus (s : State) (c : Nat) (f : Comb → Comb) : (s.onComb c f).bus = s.bus := rfl

@[simp] theorem State.interrupt_bus (s : State) (c : Nat) (l : List (Nat × Nat)) : (s.interrupt c l).bus = s.bus := by
  unfold State.interrupt State.abandoned
  split
  · rfl
  · simp only [apply_ite State.bus, State.onComb_bus, State.count_bus, ite_self]

@[simp] theorem State.interrupts_bus (r s : State) : (State.interrupts r s).bus = s.bus := by
  refine foldl_bus (fun s e => ?_) _ s
  split
  · simp only [apply_ite State.bus, State.interrupt_bus, State.onComb_bus, ite_self]
  · rfl

@[simp] theorem State.onLane_bus (s : State) (e : Nat) (f : Lane → Lane) : (s.onLane e f).bus = s.bus := rfl

@[simp] theorem State.settle_bus (s : State) (e : Nat) : (s.settle e).bus = s.bus := rfl

end Sys2Proof.Machine
end

section
/-! SUPPORT. A tick on which nothing falls due beside the domains changes no register but those that count or report (R16). -/

namespace Sys2Proof.Machine

variable {s s₀ : State}

/-! ## Entries of a table -/

theorem SMap.mem_of_mem_insert {α : Type} {m : SMap α} {k : Nat} {v : α} {e : Nat × α} (h : e ∈ SMap.insert m k v) :
    e = (k, v) ∨ e ∈ m := by
  induction m with
  | nil => exact .inl (by simpa [SMap.insert] using h)
  | cons x m ih =>
    obtain ⟨a, y⟩ := x
    unfold SMap.insert at h
    split at h
    · exact (List.mem_cons.mp h).imp id (List.mem_cons_of_mem _)
    · split at h
      · exact List.mem_cons.mp h
      · rcases List.mem_cons.mp h with rfl | h
        · exact .inr List.mem_cons_self
        · exact (ih h).imp id (List.mem_cons_of_mem _)

theorem SMap.mem_of_mem_erase {α : Type} {m : SMap α} {k : Nat} {e : Nat × α} (h : e ∈ SMap.erase m k) : e ∈ m := by
  induction m with
  | nil => exact h
  | cons x m ih =>
    obtain ⟨a, y⟩ := x
    unfold SMap.erase at h
    split at h
    · exact List.mem_cons_of_mem _ h
    · split at h
      · exact h
      · rcases List.mem_cons.mp h with rfl | h
        · exact List.mem_cons_self
        · exact List.mem_cons_of_mem _ (ih h)

theorem SMap.mem_of_mem_put {α : Type} [DecidableEq α] {d : α} {m : SMap α} {k : Nat} {v : α} {e : Nat × α}
    (h : e ∈ SMap.put d m k v) : e = (k, v) ∨ e ∈ m := by
  unfold SMap.put at h
  split at h
  · exact .inr (SMap.mem_of_mem_erase h)
  · exact SMap.mem_of_mem_insert h

/-- What a key reads as is what an unlisted one does, or stands in the table. -/
theorem SMap.find_eq_or_mem {α : Type} (d : α) (m : SMap α) (k : Nat) : SMap.find d m k = d ∨ (k, SMap.find d m k) ∈ m := by
  induction m with
  | nil => exact .inl rfl
  | cons x m ih =>
    obtain ⟨a, y⟩ := x
    unfold SMap.find
    split
    · subst_vars; exact .inr List.mem_cons_self
    · split
      · exact .inl rfl
      · exact ih.imp id (List.mem_cons_of_mem _)

/-! ## Nothing is due -/

/-- Nothing is on its way into a receiver's island. -/
def Srx.Idle (x : Srx) : Prop := x.applyAt = none ∧ x.keyAt = []

/-- From `s₀` to `s` no register changed but those that count or report, and nothing is on its way that a tick could bring into
force: no setting or key of a receiver, reservation, TOD line, transaction or tap. -/
structure Calm (s₀ s : State) : Prop where
  wf : s.regsWf = true
  rd : ∀ a, quiet a = true → s.rd a = s₀.rd a
  idle : ∀ e ∈ s.exp.srx, e.2.Idle
  fcWait : s.exp.fcWait = []
  lines : ∀ b, (s.time.pps b).lines = []
  heads : s.bus.heads = []
  execs : s.bus.execs = []
  notices : s.bus.notices = []
  taps : s.pair.taps = []

/-- A port not listed is idle too. -/
theorem Calm.srx (h : Calm s₀ s) (p : Nat) : (s.srx p).Idle := by
  rcases SMap.find_eq_or_mem ({} : Srx) s.exp.srx p with e | m
  · rw [State.srx, e]
    exact ⟨rfl, rfl⟩
  · exact h.idle _ m

theorem Calm.setSrx (h : Calm s₀ s) (p : Nat) (x : Srx) (hx : x.Idle) : Calm s₀ (s.setSrx p x) :=
  { h with idle := fun e m => (SMap.mem_of_mem_put m).elim (fun he => he ▸ hx) (h.idle e) }

theorem foldl_calm {β : Type} {f : State → β → State} {l : List β} (h : Calm s₀ s)
    (hf : ∀ s x, Calm s₀ s → Calm s₀ (f s x)) : Calm s₀ (l.foldl f s) := by
  induction l generalizing s with
  | nil => exact h
  | cons x l ih => exact ih (hf s x h)

theorem ite_calm {c : Prop} [Decidable c] {a b : State} (ha : Calm s₀ a) (hb : Calm s₀ b) : Calm s₀ (if c then a else b) := by
  split
  · exact ha
  · exact hb

/-- A fold none of whose steps changes the state. -/
theorem foldl_fixed_mem {α β : Type} {f : α → β → α} {l : List β} {x : α} (h : ∀ y ∈ l, f x y = x) : l.foldl f x = x := by
  induction l with
  | nil => rfl
  | cons y l ih => rw [List.foldl_cons, h y List.mem_cons_self, ih fun z m => h z (List.mem_cons_of_mem _ m)]

/-- Reports that leave the matrix alone. -/
theorem Calm.reports {t : State} (h : Calm s₀ s) (k : Reports s t) (hb : t.bus = s.bus) : Calm s₀ t where
  wf := k.wf h.wf
  rd := fun a ha => (k.rd h.wf a ha).trans (h.rd a ha)
  idle := by rw [k.exp]; exact h.idle
  fcWait := by rw [k.exp]; exact h.fcWait
  lines := by rw [k.time]; exact h.lines
  heads := by rw [hb]; exact h.heads
  execs := by rw [hb]; exact h.execs
  notices := by rw [hb]; exact h.notices
  taps := by rw [k.pair]; exact h.taps

theorem Calm.tickAlive (h : Calm s₀ s) : Calm s₀ s.tickAlive := by
  unfold State.tickAlive
  split
  · exact ite_calm { h with } h
  · exact h

theorem Calm.refreshTpd (h : Calm s₀ s) : Calm s₀ s.refreshTpd := by
  unfold State.refreshTpd
  exact ite_calm h { h with }

theorem Calm.endWindows (h : Calm s₀ s) : Calm s₀ s.endWindows := by
  unfold State.endWindows
  exact ite_calm h (foldl_calm h fun s p k => ite_calm (k.setSrx p _ (k.srx p)) k)

theorem Calm.parkLate (h : Calm s₀ s) : Calm s₀ s.parkLate := by
  unfold State.parkLate
  extract_lets due p u late
  have k : Calm s₀ u := { h with }
  have kLate : Reports u late := foldl_reports .rfl fun _ _ k => State.settle_reports (State.onLane_reports k ..) _
  have busLate : late.bus = u.bus := foldl_bus (fun s x => by rw [State.settle_bus, State.onLane_bus]) due u
  exact ite_calm h (k.reports (State.refreshOuts_reports (State.interrupts_reports kLate _))
    (by rw [State.refreshOuts_bus, State.interrupts_bus, busLate]))

/-- A reference that has settled stays so. -/
theorem Calm.hkSettled (h : Calm s₀ s) (hs : s₀.flag Adr.HK_STAT Fl.HK_STAT_REF_SETTLED = true) : s.hkSettled = s := by
  have settled : s.flag Adr.HK_STAT Fl.HK_STAT_REF_SETTLED = true := by
    rw [← hs]
    unfold State.flag State.get
    rw [h.rd _ (by decide)]
  unfold State.hkSettled
  rw [settled]
  simp

theorem Calm.takeTaps (h : Calm s₀ s) : Calm s₀ s.takeTaps := by
  unfold State.takeTaps
  simp only [h.taps, List.filter_nil, List.foldl_nil]
  exact { h with taps := rfl }

/-- With every port idle nothing crosses into an island. -/
theorem Calm.crossings (h : Calm s₀ s) : s.crossings = s := by
  refine foldl_fixed_mem fun e m => ?_
  obtain ⟨happly, hkeys⟩ := h.idle e m
  simp only [happly, hkeys]
  rfl

theorem Calm.goExpire (h : Calm s₀ s) : Calm s₀ s.goExpire := by
  unfold State.goExpire
  exact ite_calm { h with } h

theorem Calm.fcStart (h : Calm s₀ s) : s.fcStart = s := by
  unfold State.fcStart
  rw [h.fcWait]
  rfl

theorem Calm.busTick (h : Calm s₀ s) : s.busTick = s := by
  unfold State.busTick
  rw [h.heads, h.execs, h.notices]
  rfl

theorem Calm.expireLines (h : Calm s₀ s) (inB : Bool) : s.expireLines inB = s := by
  unfold State.expireLines
  rw [h.lines inB]
  rfl

theorem Calm.strobe (h : Calm s₀ s) : Calm s₀ s.strobe := { h with }

theorem Calm.tickRest (h : Calm s₀ s) (hs : s₀.flag Adr.HK_STAT Fl.HK_STAT_REF_SETTLED = true) : Calm s₀ s.tickRest := by
  have k := h.tickAlive.refreshTpd.endWindows.parkLate
  have kGo : Calm s₀ s.tickAlive.refreshTpd.endWindows.parkLate.takeTaps.goExpire := k.takeTaps.goExpire
  unfold State.tickRest
  rw [k.hkSettled hs, k.takeTaps.crossings, kGo.fcStart, kGo.busTick]
  dsimp only
  rw [kGo.expireLines, kGo.expireLines]
  exact ite_calm (kGo.strobe.reports (State.hubEvent_reports .rfl ..) (State.hubEvent_bus ..)) kGo

end Sys2Proof.Machine
end

section
/-! O17: a tick of the spine, the loss and return of REFCLK, and the arbitration of the bus matrix. -/

namespace Sys2Proof.Machine

variable {s s₀ : State}

/-! ## The domains advanced -/

theorem State.nextInstant_dom (s : State) (d : Dom) : s.nextInstant.time.dom d = s.time.dom d :=
  (State.takeSwitch_sameClock .rfl).dom d

theorem State.nextInstant_snapPend (s : State) : s.nextInstant.time.snapPend = s.time.snapPend :=
  (State.takeSwitch_sameClock .rfl).snap

theorem State.nextInstant_sameDomain (s : State) (d : Dom) : SameDomain d s s.nextInstant :=
  have k := (State.takeSwitch_sameClock (.rfl (s := s))).sameDomain d
  ⟨k.sec, k.ns, k.frac, k.setPend, k.wf, k.rd⟩

/-- With no SET waiting the tick's step is each domain's own, and what stands in a calibration item that it stamps. -/
theorem State.advanced_of_noSet (ha : s.time.a.setPend = none) (hb : s.time.b.setPend = none) :
    SameClock s.nextInstant.stepped s.advanced := by
  unfold State.advanced
  rw [State.tickDomains_of_noSet (by rw [← ha]; exact congrArg _ (s.nextInstant_dom .A))
    (by rw [← hb]; exact congrArg _ (s.nextInstant_dom .B))]
  exact State.stampApplies_sameClock .rfl

/-- With a SET waiting in one domain alone, it is applied to it. -/
theorem State.advanced_of_set (h : s.regsWf = true) {d : Dom} {p : Nat × Nat} (hd : (s.time.dom d).setPend = some p)
    (ho : (s.time.dom (otherDom d)).setPend = none) : SetApplied d s.nextInstant.stepped s.advanced := by
  unfold State.advanced
  rw [← State.nextInstant_dom] at hd ho
  rw [State.tickDomains_of_set hd ho]
  exact (State.afterSet_applied (s := s.nextInstant.stepped) ((s.nextInstant_sameDomain d).wf h) d _).trans
    ((State.stampApplies_sameClock .rfl).sameDomain d)

/-! ## The snapshot, where one waits -/

/-- A waiting snapshot taken. -/
def State.snapDue (s : State) : State := if s.time.snapPend then s.takeSnap else s

theorem State.snapDue_tick (s : State) : s.snapDue.tick = s.tick := by
  unfold State.snapDue
  split
  · exact s.takeSnap_tick
  · rfl

theorem State.snapDue_dom (s : State) (d : Dom) : s.snapDue.time.dom d = s.time.dom d := by
  unfold State.snapDue
  split
  · exact s.takeSnap_dom d
  · rfl

theorem State.snapDue_sameDomain (s : State) (d : Dom) : SameDomain d s s.snapDue := by
  unfold State.snapDue
  split
  · exact s.takeSnap_sameDomain d
  · exact .rfl

/-! ## A tick of the spine -/

theorem spineTick_of_runs (hp : s.boot.porLow = false) (hd : s.boot.dead = false) : spineTick s = s.advanced.snapDue.tickRest :=
  spineTick_eq (by rw [hp, hd]; rfl)

theorem spineTick_of_held (h : s.boot.porLow = true ∨ s.boot.dead = true) : spineTick s = s := by
  unfold spineTick
  exact if_pos (by simpa using h)

theorem spineTick_sameClock (hp : s.boot.porLow = false) (hd : s.boot.dead = false) : SameClock s.advanced.snapDue (spineTick s) := by
  rw [spineTick_of_runs hp hd]
  exact State.tickRest_sameClock .rfl

section NoSet

variable (hp : s.boot.porLow = false) (hd : s.boot.dead = false) (ht : s.tick < 2 ^ 64 - 1)
  (ha : s.time.a.setPend = none) (hb : s.time.b.setPend = none)

include ht in
theorem State.nextInstant_tick_succ : s.nextInstant.tick = s.tick + 1 := by
  rw [State.nextInstant_tick]
  omega

include ht ha hb in
theorem State.advanced_tick : s.advanced.tick = s.tick + 1 :=
  (State.advanced_of_noSet ha hb).tick.trans (State.nextInstant_tick_succ ht)

include ht ha hb in
theorem State.advanced_dom (d : Dom) : s.advanced.time.dom d = ((s.time.dom d).step (s.tick + 1)).1 := by
  rw [(State.advanced_of_noSet ha hb).dom, State.stepped_dom, State.nextInstant_dom, State.nextInstant_tick_succ ht]

include ha hb in
theorem State.advanced_snapPend : s.advanced.time.snapPend = s.time.snapPend :=
  (State.advanced_of_noSet ha hb).snap.trans s.nextInstant_snapPend

include hp hd ht ha hb in
/-- R16: TICK counts. -/
theorem spineTick_tick : (spineTick s).tick = s.tick + 1 := by
  rw [(spineTick_sameClock hp hd).tick, State.snapDue_tick, State.advanced_tick ht ha hb]

include hp hd ht ha hb in
/-- R149: each domain takes its step. -/
theorem spineTick_dom (d : Dom) : (spineTick s).time.dom d = ((s.time.dom d).step (s.tick + 1)).1 := by
  rw [(spineTick_sameClock hp hd).dom, State.snapDue_dom, State.advanced_dom ht ha hb]

include hp hd ht ha hb in
/-- R151: a waiting snapshot stands in the SNAP words. -/
theorem spineTick_snapTaken (h : s.regsWf = true) (hs : s.time.snapPend = true) : SnapTaken s.advanced (spineTick s) := by
  have wf : s.advanced.regsWf = true :=
    (State.advanced_of_noSet ha hb).wf ((s.nextInstant_sameDomain .A).wf h)
  have taken := State.takeSnap_taken wf (by rw [State.advanced_tick ht ha hb]; omega)
  refine taken.trans ?_
  rw [← show s.advanced.snapDue = s.advanced.takeSnap from if_pos ((State.advanced_snapPend ha hb).trans hs)]
  exact spineTick_sameClock hp hd

include ha hb in
/-- With no SWITCH asked for and nothing on its way, the domains alone advance. -/
theorem State.advanced_calm (h : Calm s s) (hsw : s.ctl.pilot.switch = false) : Calm s s.advanced := by
  have same : s.takeSwitch = s := by
    unfold State.takeSwitch
    rw [hsw]
    rfl
  have kNext : Calm s s.nextInstant := by
    unfold State.nextInstant
    rw [same]
    exact { h with }
  have kStep : Calm s s.nextInstant.stepped := { kNext with lines := fun b => by cases b <;> exact kNext.lines _ }
  unfold State.advanced
  rw [State.tickDomains_of_noSet (by rw [← ha]; exact congrArg _ (s.nextInstant_dom .A))
    (by rw [← hb]; exact congrArg _ (s.nextInstant_dom .B))]
  unfold State.stampApplies
  exact ite_calm { kStep with } kStep

include hp hd ha hb in
/-- Where nothing else falls due no other register changes. -/
theorem spineTick_rd_of_calm (h : Calm s s) (hsw : s.ctl.pilot.switch = false) (hs : s.time.snapPend = false)
    (hr : s.flag Adr.HK_STAT Fl.HK_STAT_REF_SETTLED = true) (a : Nat) (hq : quiet a = true) : (spineTick s).rd a = s.rd a := by
  have noSnap : s.advanced.snapDue = s.advanced := if_neg (by rw [State.advanced_snapPend ha hb, hs]; decide)
  rw [spineTick_of_runs hp hd, noSnap]
  exact ((State.advanced_calm ha hb h hsw).tickRest hr).rd a hq

end NoSet

/-- R150: a SET that waits in one domain alone is in place after the tick. -/
theorem spineTick_setApplied (h : s.regsWf = true) (hp : s.boot.porLow = false) (hd : s.boot.dead = false) {d : Dom} {p : Nat × Nat}
    (hset : (s.time.dom d).setPend = some p) (ho : (s.time.dom (otherDom d)).setPend = none) :
    SetApplied d s.nextInstant.stepped (spineTick s) :=
  ((State.advanced_of_set h hset ho).trans (s.advanced.snapDue_sameDomain d)).trans ((spineTick_sameClock hp hd).sameDomain d)

/-! ## REFCLK -/

theorem State.faultGone_rd (h : s.regsWf = true) (n a : Nat) (ha : a ≠ Adr.FLT_SRC n) : (s.faultGone n).rd a = s.rd a :=
  State.rd_put_word _ _ _ _ ha h

theorem State.faultGone_active (h : s.regsWf = true) (n : Nat) : (s.faultGone n).flag (Adr.FLT_SRC n) Fl.FLT_SRC_ACTIVE = false :=
  State.flag_putFlag_same _ _ _ (by decide) (by decide) h

/-- R17: the loss of REFCLK leaves both domains, whatever the class of its fault. -/
theorem refclkLoss_dom (s : State) (d : Dom) : (refclkLoss s).time.dom d = s.time.dom d := by
  rw [← (State.assertFault_sameClock (.rfl (s := s)) 0xB0 (by decide) (by decide) {} true).dom d]
  cases d <;> rfl

/-- While its fault is not FATAL, the loss of REFCLK changes no register beside those of reports. -/
theorem refclkLoss_rd (h : s.regsWf = true) (hc : s.classFor 0xB0 ≠ 2) (a : Nat) (hq : quiet a = true) :
    (refclkLoss s).rd a = s.rd a :=
  (State.assertFault_reports .rfl 0xB0 (by decide) (by decide) hc {} true).rd h a hq

/-- Settles O17, clause by clause: the tick of a running spine as the step of both domains, the snapshot where one waits and a
remainder that keeps the clock; REFCLK by what an assertion keeps; the grant by the order of heads. -/
theorem spineTickAdvancesTime : Obligations.SpineTickAdvancesTime := by
  unfold Obligations.SpineTickAdvancesTime
  intro s h
  refine ⟨fun hheld => ?_, fun hp hd ht ha hb => ⟨spineTick s, rfl, ?_, ?_, ?_, fun hs => ?_, ?_⟩,
    fun d sec ns hp hd hset ho => ⟨spineTick s, rfl, ?_⟩, ⟨refclkLoss s, rfl, rfl, fun hc a hq => ?_, ?_, ?_⟩,
    ⟨refclkRelock s, rfl, rfl, ?_, fun a hne => ?_, rfl⟩, fun g w hfree hw => ?_, fun g hbusy => State.busGrant_of_busy hbusy⟩
  · exact congrArg _ (spineTick_of_held hheld)
  · exact spineTick_tick hp hd ht ha hb
  · exact spineTick_dom hp hd ht ha hb .A
  · exact spineTick_dom hp hd ht ha hb .B
  · have k := spineTick_snapTaken hp hd ht ha hb h hs
    exact ⟨k.done, k.snapTick.trans (State.advanced_tick ht ha hb), fun d => by rw [k.dom]; exact k.ns d,
      fun d => by rw [k.dom]; exact k.frac16 d⟩
  · intro hs hsw hr hsrx hfc hlines hheads hexecs hnotices htaps
    have calm : Calm s s := ⟨h, fun _ _ => rfl, by simp [hsrx], hfc, hlines, hheads, hexecs, hnotices, htaps⟩
    exact spineTick_rd_of_calm hp hd ha hb calm hsw hs hr
  · have k := spineTick_setApplied h hp hd hset ho
    have step := Domain.step_of_set hset s.nextInstant.tick
    have dom : s.nextInstant.stepped.time.dom d = ((s.time.dom d).step s.nextInstant.tick).1 := by
      rw [State.stepped_dom, State.nextInstant_dom]
    have same := s.nextInstant_sameDomain d
    obtain ⟨-, hsec, hns, hfrac, hpend⟩ := step
    rw [← dom] at hsec hns hfrac hpend
    exact ⟨k.sec.trans hsec, k.ns.trans hns, k.frac.trans hfrac, k.setPend.trans hpend,
      k.setCount.trans (by rw [← same.setCount h]; rfl), k.tq.trans (by rw [← same.tq h]; rfl)⟩
  · exact refclkLoss_rd h hc a hq
  · exact refclkLoss_dom s .A
  · exact refclkLoss_dom s .B
  · exact State.faultGone_active h 0xB0
  · exact State.faultGone_rd h 0xB0 a hne
  · obtain ⟨hmem, hbest⟩ := busPick_best hw
    obtain ⟨hmem, htarget⟩ := List.mem_filter.mp hmem
    refine ⟨hmem, beq_iff_eq.mp htarget, fun x hx ht => ?_, State.busGrant_busy hfree hw, fun x hx hne => ?_⟩
    · exact hbest x (List.mem_filter.mpr ⟨hx, beq_iff_eq.mpr ht⟩)
    · exact ⟨_, State.mem_busGrant_heads hfree hw hx hne, BusHead.afterGrant_spec hne g s.ageLimit⟩

end Sys2Proof.Machine
end

section
/-! SUPPORT. The pilot selector: what each of its operations writes of PILOT_STAT and what it leaves (R37, R38). -/

namespace Sys2Proof.Machine

variable {s s₀ t : State}

/-! ## Fields of one block -/

/-- Field `g` stands in another word of its block than `f`, or in other bits of the same word. -/
def Field.apart (g f : Field) : Bool :=
  g.off != f.off || (decide (g.lo + g.width ≤ 32) && (decide (g.lo + g.width ≤ f.lo) || decide (f.lo + f.width ≤ g.lo)))

theorem State.get_put_apart (h : s.regsWf = true) (b : Nat) (f : Field) (n : Nat) (g : Field) (hg : g.apart f = true) :
    (s.put b f n).get b g = s.get b g := by
  simp only [Field.apart, Bool.or_eq_true, bne_iff_ne, Bool.and_eq_true, decide_eq_true_eq] at hg
  by_cases e : g.off = f.off
  · obtain ⟨hfit, hbits⟩ := hg.resolve_left (not_not_intro e)
    exact State.get_put_field b f n b g (by rw [e]) hfit hbits h
  · exact State.get_put_word b f n b g (by omega) h

theorem State.flag_put_apart (h : s.regsWf = true) (b : Nat) (f : Field) (n : Nat) (g : Field) (hg : g.apart f = true) :
    (s.put b f n).flag b g = s.flag b g := congrArg (· != 0) (State.get_put_apart h b f n g hg)

/-! ## What the selector writes -/

/-- Field `g` of PILOT_STAT shares no bit with the fields `fs`. -/
def Field.spared (g : Field) (fs : List Field) : Bool := g.off == 0 && fs.all g.apart

theorem Field.spared_iff {g : Field} {fs : List Field} : g.spared fs = true ↔ g.off = 0 ∧ ∀ f ∈ fs, g.apart f = true := by
  simp only [Field.spared, Bool.and_eq_true, beq_iff_eq, List.all_eq_true]

theorem Field.spared_mono {g : Field} {fs fs' : List Field} (hf : fs ⊆ fs') (h : g.spared fs' = true) : g.spared fs = true := by
  rw [Field.spared_iff] at h ⊢
  exact ⟨h.1, fun f hm => h.2 f (hf hm)⟩

/-- From `s` to `t` the selector wrote fields `fs` of PILOT_STAT, the registers `as`, and the control plane beside its boot unit and
a SWITCH that waits. -/
structure Selects (fs : List Field) (as : List Nat) (s t : State) : Prop where
  tick : t.tick = s.tick
  led : t.led = s.led
  host : t.host = s.host
  boot : t.boot = s.boot
  switch : t.ctl.pilot.switch = s.ctl.pilot.switch
  wf : s.regsWf = true → t.regsWf = true
  get : s.regsWf = true → ∀ g : Field, g.spared fs = true → t.get Adr.PILOT_STAT g = s.get Adr.PILOT_STAT g
  rd : s.regsWf = true → ∀ a, a ≠ Adr.PILOT_STAT → a ∉ as → t.rd a = s.rd a

variable {fs fs' : List Field} {as as' : List Nat}

theorem Selects.rfl : Selects fs as s s :=
  ⟨Eq.refl _, Eq.refl _, Eq.refl _, Eq.refl _, Eq.refl _, id, fun _ _ _ => Eq.refl _, fun _ _ _ _ => Eq.refl _⟩

theorem Selects.trans (k : Selects fs as s₀ s) (l : Selects fs' as' s t) : Selects (fs ++ fs') (as ++ as') s₀ t where
  tick := l.tick.trans k.tick
  led := l.led.trans k.led
  host := l.host.trans k.host
  boot := l.boot.trans k.boot
  switch := l.switch.trans k.switch
  wf := l.wf ∘ k.wf
  get := fun h g hg => (l.get (k.wf h) g (Field.spared_mono (List.subset_append_right ..) hg)).trans
    (k.get h g (Field.spared_mono (List.subset_append_left ..) hg))
  rd := fun h a ha hn => by
    rw [List.mem_append, not_or] at hn
    exact (l.rd (k.wf h) a ha hn.2).trans (k.rd h a ha hn.1)

theorem Selects.mono (k : Selects fs as s t) (hf : fs ⊆ fs') : Selects fs' as s t :=
  { k with get := fun h g hg => k.get h g (Field.spared_mono hf hg) }

theorem ite_selects {c : Prop} [Decidable c] (ha : Selects fs as s₀ s) (hb : Selects fs as s₀ t) :
    Selects fs as s₀ (if c then s else t) := by
  split
  · exact ha
  · exact hb

theorem Selects.flag (k : Selects fs as s t) (h : s.regsWf = true) (g : Field) (hg : g.spared fs = true) :
    t.flag Adr.PILOT_STAT g = s.flag Adr.PILOT_STAT g := congrArg (· != 0) (k.get h g hg)

theorem Selects.pilotSel (k : Selects fs as s t) (h : s.regsWf = true) (hg : Fl.PILOT_STAT_SEL.spared fs = true) :
    t.pilotSel = s.pilotSel := k.flag h _ hg

theorem Selects.noPilot (k : Selects fs as s t) (h : s.regsWf = true) (hg : Fl.PILOT_STAT_NO_PILOT.spared fs = true) :
    t.noPilot = s.noPilot := k.flag h _ hg

theorem Selects.switching (k : Selects fs as s t) (h : s.regsWf = true) (hg : Fl.PILOT_STAT_SWITCHING.spared fs = true) :
    t.switching = s.switching := k.flag h _ hg

theorem Selects.pilotIsOk (k : Selects fs as s t) (h : s.regsWf = true) (x : Bool) (ha : Fl.PILOT_STAT_A_OK.spared fs = true)
    (hb : Fl.PILOT_STAT_B_OK.spared fs = true) : t.pilotIsOk x = s.pilotIsOk x := by
  cases x
  · exact k.flag h Fl.PILOT_STAT_A_OK ha
  · exact k.flag h Fl.PILOT_STAT_B_OK hb

/-- A field of another register. -/
theorem Selects.get_other (k : Selects fs as s t) (h : s.regsWf = true) (b : Nat) (f : Field) (hb : b + f.off ≠ Adr.PILOT_STAT)
    (hn : b + f.off ∉ as) : t.get b f = s.get b f := by
  unfold State.get
  rw [k.rd h _ hb hn]

theorem Selects.forcedPilot (k : Selects fs as s t) (h : s.regsWf = true) (hn : Adr.PILOT_CTL ∉ as) :
    t.forcedPilot = s.forcedPilot := by
  unfold State.forcedPilot
  rw [k.get_other h _ _ (by decide) hn]

theorem Selects.pilotRef (k : Selects fs as s t) (h : s.regsWf = true) (hn : Adr.PILOT_REF ∉ as) (b : Bool) :
    t.pilotRef b = s.pilotRef b := by
  unfold State.pilotRef
  cases b <;> rw [k.get_other h _ _ (by decide) hn]

theorem Selects.classFor (k : Selects fs as s t) (h : s.regsWf = true) {n : Nat} (hn : Adr.FLT_SRC n ∉ as) :
    t.classFor n = s.classFor n := by
  unfold State.classFor
  rw [k.get_other h _ _ (by simp [Adr.FLT_SRC, Adr.PILOT_STAT, Fl.FLT_SRC_CLASS_SEL]; omega) hn]

/-- A field of PILOT_STAT written. -/
theorem State.put_selects (f : Field) (n : Nat) (hf : f.off = 0) : Selects [f] [] s (s.put Adr.PILOT_STAT f n) :=
  { (Selects.rfl (s := s) (fs := []) (as := [])) with
    wf := State.put_regsWf _ _ _
    get := fun h g hg => State.get_put_apart h _ _ _ _ ((Field.spared_iff.mp hg).2 f (List.mem_singleton_self f))
    rd := fun h a ha _ => State.rd_put_word _ _ _ _ (by rwa [hf]) h }

theorem State.putFlag_selects (f : Field) (x : Bool) (hf : f.off = 0) : Selects [f] [] s (s.putFlag Adr.PILOT_STAT f x) :=
  State.put_selects f _ hf

theorem State.openWindow_selects : Selects [Fl.PILOT_STAT_SWITCHING] [] s s.openWindow :=
  { State.putFlag_selects (s := s) Fl.PILOT_STAT_SWITCHING true (Eq.refl _) with }

theorem State.selectPilot_selects (b : Bool) :
    Selects [Fl.PILOT_STAT_SEL, Fl.PILOT_STAT_SW_COUNT, Fl.PILOT_STAT_SWITCHING] [] s (s.selectPilot b) := by
  unfold State.selectPilot
  exact ite_selects .rfl (((State.putFlag_selects _ _ (Eq.refl _)).trans (State.put_selects _ _ (Eq.refl _))).trans
    State.openWindow_selects)

theorem State.faultGone_selects (n : Nat) : Selects [] [Adr.FLT_SRC n] s (s.faultGone n) :=
  { (Selects.rfl (s := s) (fs := []) (as := [])) with
    wf := State.put_regsWf _ _ _
    get := fun h g hg => State.get_put_word _ _ _ _ _ (by
      rw [(Field.spared_iff.mp hg).1]
      simp only [Adr.PILOT_STAT, Adr.FLT_SRC, Fl.FLT_SRC_ACTIVE]
      omega) h
    rd := fun h a _ hn => State.faultGone_rd h n a (by simpa using hn) }

theorem State.endNoPilot_selects :
    Selects [Fl.PILOT_STAT_NO_PILOT, Fl.PILOT_STAT_SWITCHING] [Adr.FLT_SRC 0xB9] s s.endNoPilot := by
  unfold State.endNoPilot
  exact ite_selects (((State.putFlag_selects _ _ (Eq.refl _)).trans (State.faultGone_selects _)).trans State.openWindow_selects)
    .rfl

end Sys2Proof.Machine
end

section
/-! SUPPORT. The pilot selector: a change of selection, the switch window it opens, and a SWITCH that waits (R37, R38). -/

namespace Sys2Proof.Machine

variable {s : State}

/-! ## A pilot is selected -/

theorem State.selectPilot_pilotSel (h : s.regsWf = true) (b : Bool) : (s.selectPilot b).pilotSel = b := by
  unfold State.selectPilot
  by_cases e : s.pilotSel = b
  · rw [if_pos e, e]
  · rw [if_neg e]
    have hp := State.putFlag_regsWf Adr.PILOT_STAT Fl.PILOT_STAT_SEL b h
    exact (((State.put_selects _ _ (Eq.refl _)).trans State.openWindow_selects).pilotSel hp (by decide)).trans
      (State.flag_putFlag_same _ _ _ (by decide) (by decide) h)

theorem State.selectPilot_noPilot (h : s.regsWf = true) (b : Bool) : (s.selectPilot b).noPilot = s.noPilot :=
  (State.selectPilot_selects b).noPilot h (by decide)

theorem State.selectPilot_pilotIsOk (h : s.regsWf = true) (b x : Bool) : (s.selectPilot b).pilotIsOk x = s.pilotIsOk x :=
  (State.selectPilot_selects b).pilotIsOk h x (by decide) (by decide)

/-- A change of SEL is counted, and the count stops at 0xFFFF. -/
theorem State.selectPilot_swCount (h : s.regsWf = true) {b : Bool} (hne : s.pilotSel ≠ b) :
    (s.selectPilot b).get Adr.PILOT_STAT Fl.PILOT_STAT_SW_COUNT
      = min 65535 (s.get Adr.PILOT_STAT Fl.PILOT_STAT_SW_COUNT + 1) := by
  have hp := State.putFlag_regsWf Adr.PILOT_STAT Fl.PILOT_STAT_SEL b h
  have hc := State.count_regsWf Adr.PILOT_STAT Fl.PILOT_STAT_SW_COUNT 1 hp
  unfold State.selectPilot
  rw [if_neg hne, State.openWindow_selects.get hc _ (by decide)]
  refine (State.get_put_same _ _ _ (by decide) hp).trans ?_
  rw [(State.putFlag_selects Fl.PILOT_STAT_SEL b (Eq.refl _)).get h _ (by decide)]
  exact Nat.mod_eq_of_lt (Nat.lt_of_le_of_lt (Nat.min_le_left ..) (by decide))

theorem State.endNoPilot_noPilot (h : s.regsWf = true) : s.endNoPilot.noPilot = false := by
  unfold State.endNoPilot
  cases e : s.noPilot
  · exact e
  · have hp := State.putFlag_regsWf Adr.PILOT_STAT Fl.PILOT_STAT_NO_PILOT false h
    exact (((State.faultGone_selects 0xB9).trans State.openWindow_selects).noPilot hp (by decide)).trans
      (State.flag_putFlag_same _ _ _ (by decide) (by decide) h)

theorem State.endNoPilot_pilotSel (h : s.regsWf = true) : s.endNoPilot.pilotSel = s.pilotSel :=
  State.endNoPilot_selects.pilotSel h (by decide)

theorem State.endNoPilot_pilotIsOk (h : s.regsWf = true) (x : Bool) : s.endNoPilot.pilotIsOk x = s.pilotIsOk x :=
  State.endNoPilot_selects.pilotIsOk h x (by decide) (by decide)

/-! ## Switch windows -/

/-- A switch window of 20 µs has opened on this tick. -/
def State.WindowOpen (s : State) : Prop := s.switching = true ∧ s.ctl.pilot.windowEnd = some (s.tick + 12500)

theorem State.openWindow_windowOpen (h : s.regsWf = true) : s.openWindow.WindowOpen :=
  ⟨State.flag_putFlag_same (s := s) _ _ _ (by decide) (by decide) h, rfl⟩

theorem State.selectPilot_windowOpen (h : s.regsWf = true) {b : Bool} (hne : s.pilotSel ≠ b) : (s.selectPilot b).WindowOpen := by
  unfold State.selectPilot
  rw [if_neg hne]
  exact State.openWindow_windowOpen (State.count_regsWf _ _ _ (State.putFlag_regsWf _ _ _ h))

/-- The end of a NO_PILOT span opens a window. -/
theorem State.endNoPilot_windowOpen_of_noPilot (h : s.regsWf = true) (hn : s.noPilot = true) : s.endNoPilot.WindowOpen := by
  unfold State.endNoPilot
  rw [if_pos hn]
  exact State.openWindow_windowOpen ((State.faultGone_selects _).wf (State.putFlag_regsWf _ _ _ h))

/-- A window that has opened on this tick stays open where no NO_PILOT span ends; where one ends it opens anew. -/
theorem State.WindowOpen.endNoPilot (h : s.regsWf = true) (hw : s.WindowOpen) : s.endNoPilot.WindowOpen := by
  by_cases hn : s.noPilot = true
  · exact State.endNoPilot_windowOpen_of_noPilot h hn
  · rwa [State.endNoPilot, if_neg hn]

/-! ## A pilot is selected and NO_PILOT ends -/

theorem State.selectPilot_endNoPilot_pilotSel (h : s.regsWf = true) (b : Bool) : (s.selectPilot b).endNoPilot.pilotSel = b :=
  (State.endNoPilot_pilotSel ((State.selectPilot_selects b).wf h)).trans (State.selectPilot_pilotSel h b)

theorem State.selectPilot_endNoPilot_noPilot (h : s.regsWf = true) (b : Bool) : (s.selectPilot b).endNoPilot.noPilot = false :=
  State.endNoPilot_noPilot ((State.selectPilot_selects b).wf h)

theorem State.selectPilot_endNoPilot_pilotIsOk (h : s.regsWf = true) (b x : Bool) :
    (s.selectPilot b).endNoPilot.pilotIsOk x = s.pilotIsOk x :=
  (State.endNoPilot_pilotIsOk ((State.selectPilot_selects b).wf h) x).trans (State.selectPilot_pilotIsOk h b x)

/-- Both a change of SEL and the end of a NO_PILOT span open a window (R38). -/
theorem State.selectPilot_endNoPilot_windowOpen (h : s.regsWf = true) {b : Bool} (hc : s.pilotSel ≠ b ∨ s.noPilot = true) :
    (s.selectPilot b).endNoPilot.WindowOpen := by
  have hw := (State.selectPilot_selects (s := s) b).wf h
  rcases hc with hne | hn
  · exact (State.selectPilot_windowOpen h hne).endNoPilot hw
  · exact State.endNoPilot_windowOpen_of_noPilot hw ((State.selectPilot_noPilot h b).trans hn)

theorem State.selectPilot_endNoPilot_tick (b : Bool) : (s.selectPilot b).endNoPilot.tick = s.tick :=
  State.endNoPilot_selects.tick.trans (State.selectPilot_selects b).tick

/-! ## A SWITCH that waits -/

/-- The SWITCH that waits is taken back. -/
def State.unswitch (s : State) : State := { s with ctl := { s.ctl with pilot := { s.ctl.pilot with switch := false } } }

theorem State.takeSwitch_of_none (h : s.ctl.pilot.switch = false) : s.takeSwitch = s := by
  unfold State.takeSwitch
  rw [if_neg (by simp [h])]

theorem State.takeSwitch_of_waiting (h : s.ctl.pilot.switch = true) : s.takeSwitch = s.unswitch.switchPilot := if_pos h

theorem State.switchPilot_of_allowed (hb : s.bridgeOn = true) (hf : s.forcedPilot = none) (ho : s.pilotIsOk (!s.pilotSel) = true) :
    s.switchPilot = (s.selectPilot (!s.pilotSel)).endNoPilot := by
  simp [State.switchPilot, hb, hf, ho]

theorem State.switchPilot_of_barred (hb : s.bridgeOn = true) (hn : s.forcedPilot ≠ none ∨ s.pilotIsOk (!s.pilotSel) = false) :
    s.switchPilot = s.putFlag Adr.PILOT_STAT Fl.PILOT_STAT_SEL_REFUSED true := by
  rcases hn with hf | ho
  · simp [State.switchPilot, hb, hf]
  · simp [State.switchPilot, hb, ho]

/-- Whatever a SWITCH that waits gives, it is a change of selection or its refusal. -/
theorem State.switchPilot_selects : Selects [Fl.PILOT_STAT_SEL, Fl.PILOT_STAT_SW_COUNT, Fl.PILOT_STAT_SWITCHING,
    Fl.PILOT_STAT_NO_PILOT, Fl.PILOT_STAT_SWITCHING, Fl.PILOT_STAT_SEL_REFUSED] [Adr.FLT_SRC 0xB9] s s.switchPilot := by
  unfold State.switchPilot
  refine ite_selects .rfl (ite_selects ?_ ?_)
  · exact ((State.selectPilot_selects _).trans State.endNoPilot_selects).mono (by simp)
  · have k := (State.putFlag_selects (s := s) Fl.PILOT_STAT_SEL_REFUSED true (Eq.refl _)).trans
      (Selects.rfl (fs := []) (as := [Adr.FLT_SRC 0xB9]))
    exact k.mono (by simp)

theorem State.takeSwitch_boot : s.takeSwitch.boot = s.boot := by
  unfold State.takeSwitch
  split
  · exact State.switchPilot_selects.boot
  · rfl

/-- After the end of its tick no SWITCH waits. -/
theorem State.takeSwitch_switch : s.takeSwitch.ctl.pilot.switch = false := by
  unfold State.takeSwitch
  split
  · exact State.switchPilot_selects.switch
  · next hw => exact Bool.eq_false_iff.mpr hw

/-- A tick begins with the SWITCH that waits, so taking it before the tick makes no difference. -/
theorem spineTick_takeSwitch (hp : s.boot.porLow = false) (hd : s.boot.dead = false) : spineTick s = spineTick s.takeSwitch := by
  have same : s.takeSwitch.nextInstant = s.nextInstant := by
    unfold State.nextInstant
    rw [State.takeSwitch_of_none State.takeSwitch_switch]
  rw [spineTick_of_runs hp hd, spineTick_of_runs (by rw [State.takeSwitch_boot, hp]) (by rw [State.takeSwitch_boot, hd])]
  unfold State.advanced
  rw [same]

end Sys2Proof.Machine
end

section
/-! SUPPORT. The verdicts of the pilot comparators and the selection that follows them (R37). -/

namespace Sys2Proof.Machine

variable {s t : State}

/-! ## The comparators -/

theorem State.setPilotOk_selects (b ok : Bool) : Selects [Fl.PILOT_STAT_A_OK, Fl.PILOT_STAT_B_OK] [] s (s.setPilotOk b ok) := by
  cases b
  · exact (State.putFlag_selects Fl.PILOT_STAT_A_OK ok (Eq.refl _)).mono (by simp)
  · exact (State.putFlag_selects Fl.PILOT_STAT_B_OK ok (Eq.refl _)).mono (by simp)

theorem State.setPilotOk_pilotIsOk (h : s.regsWf = true) (b ok x : Bool) :
    (s.setPilotOk b ok).pilotIsOk x = if x = b then ok else s.pilotIsOk x := by
  by_cases e : x = b
  · subst e
    rw [if_pos rfl]
    cases x <;> exact State.flag_putFlag_same _ _ _ (by decide) (by decide) h
  · obtain rfl : x = !b := Bool.eq_not_of_ne e
    rw [if_neg e]
    cases b <;> exact State.flag_put_apart h _ _ _ _ (by decide)

theorem State.judgeLost_selects (p : Pilots) (b : Bool) :
    Selects [Fl.PILOT_STAT_A_OK, Fl.PILOT_STAT_B_OK] [] s (s.judgeLost p b) := ite_selects (State.setPilotOk_selects _ _) .rfl

theorem State.judgeOk_selects (p : Pilots) (b : Bool) :
    Selects [Fl.PILOT_STAT_A_OK, Fl.PILOT_STAT_B_OK] [] s (s.judgeOk p b) := ite_selects (State.setPilotOk_selects _ _) .rfl

/-- A verdict `c` that sets the OK bit of pilot `b`. -/
theorem State.ite_setPilotOk_pilotIsOk (h : s.regsWf = true) (c b ok x : Bool) :
    (if c then s.setPilotOk b ok else s).pilotIsOk x = if (c && x == b) = true then ok else s.pilotIsOk x := by
  cases c
  · rfl
  · simp [State.setPilotOk_pilotIsOk h]

theorem State.judgeLost_pilotIsOk (h : s.regsWf = true) (p : Pilots) (b x : Bool) : (s.judgeLost p b).pilotIsOk x
    = (s.pilotIsOk x && !(x == b && decide (Pilots.of p b < s.pilotRef b - 30))) := by
  rw [State.judgeLost, State.ite_setPilotOk_pilotIsOk h]
  by_cases e : x = b
  · subst e
    cases s.pilotIsOk x <;> simp
  · simp [e]

theorem State.judgeOk_pilotIsOk (h : s.regsWf = true) (p : Pilots) (b x : Bool) : (s.judgeOk p b).pilotIsOk x
    = (s.pilotIsOk x || (x == b && decide (s.pilotRef b - 20 ≤ Pilots.of p b))) := by
  rw [State.judgeOk, State.ite_setPilotOk_pilotIsOk h]
  by_cases e : x = b
  · subst e
    cases s.pilotIsOk x <;> simp
  · simp [e]

/-- Both comparators judged for a loss, and for a recovery. -/
def State.judgedLost (s : State) (p : Pilots) : State := (s.judgeLost p false).judgeLost p true
def State.judgedOk (s : State) (p : Pilots) : State := (s.judgeOk p false).judgeOk p true

theorem State.judgedLost_selects (p : Pilots) : Selects [Fl.PILOT_STAT_A_OK, Fl.PILOT_STAT_B_OK] [] s (s.judgedLost p) :=
  ((State.judgeLost_selects p false).trans (State.judgeLost_selects p true)).mono (by simp)

theorem State.judgedOk_selects (p : Pilots) : Selects [Fl.PILOT_STAT_A_OK, Fl.PILOT_STAT_B_OK] [] s (s.judgedOk p) :=
  ((State.judgeOk_selects p false).trans (State.judgeOk_selects p true)).mono (by simp)

theorem State.judgedLost_ctl (p : Pilots) : (s.judgedLost p).ctl = s.ctl := by
  unfold State.judgedLost State.judgeLost
  split <;> split <;> rfl

theorem State.judgedOk_ctl (p : Pilots) : (s.judgedOk p).ctl = s.ctl := by
  unfold State.judgedOk State.judgeOk
  split <;> split <;> rfl

/-- Each comparator judges its own pilot. -/
theorem State.judgedLost_pilotIsOk (h : s.regsWf = true) (p : Pilots) (x : Bool) : (s.judgedLost p).pilotIsOk x
    = (s.pilotIsOk x && !decide (Pilots.of p x < s.pilotRef x - 30)) := by
  have k := State.judgeLost_selects (s := s) p false
  rw [State.judgedLost, State.judgeLost_pilotIsOk (k.wf h), State.judgeLost_pilotIsOk h, k.pilotRef h (by decide)]
  cases x <;> simp

theorem State.judgedOk_pilotIsOk (h : s.regsWf = true) (p : Pilots) (x : Bool) : (s.judgedOk p).pilotIsOk x
    = (s.pilotIsOk x || decide (s.pilotRef x - 20 ≤ Pilots.of p x)) := by
  have k := State.judgeOk_selects (s := s) p false
  rw [State.judgedOk, State.judgeOk_pilotIsOk (k.wf h), State.judgeOk_pilotIsOk h, k.pilotRef h (by decide)]
  cases x <;> simp

theorem State.judgedLost_of_low (h : s.regsWf = true) {p : Pilots} {x : Bool} (hl : Pilots.of p x < s.pilotRef x - 30) :
    (s.judgedLost p).pilotIsOk x = false := by
  rw [State.judgedLost_pilotIsOk h, decide_eq_true hl, Bool.not_true, Bool.and_false]

theorem State.judgedLost_of_not_low (h : s.regsWf = true) {p : Pilots} {x : Bool} (hk : ¬ Pilots.of p x < s.pilotRef x - 30) :
    (s.judgedLost p).pilotIsOk x = s.pilotIsOk x := by
  rw [State.judgedLost_pilotIsOk h, decide_eq_false hk, Bool.not_false, Bool.and_true]

theorem State.judgedOk_of_high (h : s.regsWf = true) {p : Pilots} {x : Bool} (hh : s.pilotRef x - 20 ≤ Pilots.of p x) :
    (s.judgedOk p).pilotIsOk x = true := by
  rw [State.judgedOk_pilotIsOk h, decide_eq_true hh, Bool.or_true]

theorem State.judgedOk_of_not_high (h : s.regsWf = true) {p : Pilots} {x : Bool} (hk : ¬ s.pilotRef x - 20 ≤ Pilots.of p x) :
    (s.judgedOk p).pilotIsOk x = s.pilotIsOk x := by
  rw [State.judgedOk_pilotIsOk h, decide_eq_false hk, Bool.or_false]

/-- Powers that are not below change nothing. -/
theorem State.judgedLost_of_none (p : Pilots) (hl : ∀ x, ¬ Pilots.of p x < s.pilotRef x - 30) : s.judgedLost p = s := by
  have same : ∀ x, s.judgeLost p x = s := fun x => if_neg (by simp [hl x])
  rw [State.judgedLost, same, same]

/-! ## What follows a verdict -/

theorem pilotLost_eq (hp : s.powered 24 = true) (p : Pilots) :
    pilotLost p s = if s.pilotIsOk s.pilotSel then (s.judgedLost p).pilotGone else s.judgedLost p := if_pos hp

theorem State.pilotGone_of_ok (h : s.pilotIsOk s.pilotSel = true) : s.pilotGone = s := if_pos h

/-- The fall back from a lost pilot to the other: SEL, FALLBACK and the fault 0xB8. -/
def State.fallBack (s : State) : State :=
  ((s.selectPilot (!s.pilotSel)).putFlag Adr.PILOT_STAT Fl.PILOT_STAT_FALLBACK true).assertFault 0xB8 {} false

theorem State.pilotGone_of_other (h : s.pilotIsOk s.pilotSel = false) (hf : s.forcedPilot = none)
    (ho : s.pilotIsOk (!s.pilotSel) = true) : s.pilotGone = s.fallBack.endNoPilot := by
  unfold State.pilotGone
  rw [if_neg (by simp [h]), if_pos (by simp [hf, ho])]
  rfl

/-- A report writes no field of PILOT_STAT. -/
theorem Reports.pilotStat (k : Reports s t) (h : s.regsWf = true) (f : Field) (hf : f.off = 0) :
    t.flag Adr.PILOT_STAT f = s.flag Adr.PILOT_STAT f :=
  congrArg (· != 0) (k.get h _ _ (by rw [hf]; decide))

/-- What a fall back leaves in PILOT_STAT. -/
structure FellBack (s t : State) : Prop where
  wf : t.regsWf = true
  sel : t.pilotSel = !s.pilotSel
  ok : ∀ x, t.pilotIsOk x = s.pilotIsOk x
  fallback : t.flag Adr.PILOT_STAT Fl.PILOT_STAT_FALLBACK = true
  window : t.WindowOpen
  tick : t.tick = s.tick

/-- While the fault of a fall back is not FATAL, its report leaves the selection as made. -/
theorem State.fallBack_fellBack (h : s.regsWf = true) (hc : s.classFor 0xB8 ≠ 2) : FellBack s s.fallBack := by
  have hw := (State.selectPilot_selects (s := s) (!s.pilotSel)).wf h
  have moved := State.selectPilot_selects (s := s) (!s.pilotSel)
  have marked := State.putFlag_selects (s := s.selectPilot (!s.pilotSel)) Fl.PILOT_STAT_FALLBACK true (Eq.refl _)
  have both := moved.trans marked
  have rep := State.assertFault_reports .rfl 0xB8 (by decide) (by decide) (by rwa [both.classFor h (by decide)]) {} false
  have hm := both.wf h
  obtain ⟨hsw, hend⟩ := State.selectPilot_windowOpen h (b := !s.pilotSel) (by simp)
  exact {
    wf := rep.wf hm
    sel := (rep.pilotStat hm _ (Eq.refl _)).trans ((marked.pilotSel hw (by decide)).trans (State.selectPilot_pilotSel h _))
    ok := fun x => by
      refine Eq.trans ?_ (both.pilotIsOk h x (by decide) (by decide))
      cases x <;> exact rep.pilotStat hm _ (Eq.refl _)
    fallback := (rep.pilotStat hm _ (Eq.refl _)).trans (State.flag_putFlag_same _ _ _ (by decide) (by decide) hw)
    window := ⟨(rep.pilotStat hm _ (Eq.refl _)).trans ((marked.switching hw (by decide)).trans hsw), by
      rw [State.fallBack, rep.pilot, rep.tick]; exact hend⟩
    tick := rep.tick.trans both.tick }

/-- Out of NO_PILOT in AUTO, the first pilot that is OK is selected, A before B (R37). -/
theorem pilotOk_of_noPilot (h : s.regsWf = true) (hp : s.powered 24 = true) (p : Pilots) (hn : s.noPilot = true)
    (hf : s.forcedPilot = none) {b : Bool} (hb : (s.judgedOk p).pilotIsOk b = true)
    (ha : b = true → (s.judgedOk p).pilotIsOk false = false) : pilotOk p s = ((s.judgedOk p).selectPilot b).endNoPilot := by
  have k := State.judgedOk_selects (s := s) p
  have hjn := (k.noPilot h (by decide)).trans hn
  have hjf := (k.forcedPilot h (by decide)).trans hf
  unfold State.judgedOk at hb ha hjn hjf ⊢
  cases b with
  | false => simp [pilotOk, hp, hjn, hjf, hb]
  | true => simp [pilotOk, hp, hjn, hjf, hb, ha rfl]

/-- While a pilot is in use, a recovery is the comparators' verdict alone. -/
theorem pilotOk_of_pilot (h : s.regsWf = true) (hp : s.powered 24 = true) (p : Pilots) (hn : s.noPilot = false) :
    pilotOk p s = s.judgedOk p := by
  unfold pilotOk
  rw [if_pos hp]
  exact if_pos (((State.judgedOk_selects p).noPilot h (by decide)).trans hn)

end Sys2Proof.Machine
end

section
/-! O1: a SWITCH written to PILOT_CTL. -/

namespace Sys2Proof.Machine

/-- Settles O1: a SWITCH that waits is taken before the tick counts, as a change of selection or as a refusal. -/
theorem pilotSwitchIsTakenOrRefused : Obligations.PilotSwitchIsTakenOrRefused := by
  unfold Obligations.PilotSwitchIsTakenOrRefused
  intro s h hb
  refine ⟨⟨_, congrArg Host.Outcome.next (if_pos hb), rfl, rfl, rfl, rfl, rfl, rfl, rfl⟩,
    fun hp hd => congrArg Host.Outcome.next (spineTick_takeSwitch hp hd), State.takeSwitch_of_none,
    fun hw hf ho => ?_, fun hw hn => ?_⟩
  · have hu : s.unswitch.regsWf = true := h
    have hne : s.unswitch.pilotSel ≠ !s.unswitch.pilotSel := by simp
    have moved := State.selectPilot_selects (s := s.unswitch) (!s.unswitch.pilotSel)
    have k := moved.trans State.endNoPilot_selects
    rw [State.takeSwitch_of_waiting hw, State.switchPilot_of_allowed (s := s.unswitch) hb hf ho]
    obtain ⟨hsw, hend⟩ := State.selectPilot_endNoPilot_windowOpen hu (.inl hne)
    rw [k.tick] at hend
    exact ⟨State.selectPilot_endNoPilot_pilotSel hu _, State.selectPilot_endNoPilot_noPilot hu _, hsw, k.switch,
      (State.endNoPilot_selects.get (moved.wf hu) _ (by decide)).trans (State.selectPilot_swCount hu hne), hend,
      k.flag hu _ (by decide), k.flag hu _ (by decide), fun a ha hn => k.rd hu a ha (by simpa using hn), k.led, k.host⟩
  · have hu : s.unswitch.regsWf = true := h
    have k := State.putFlag_selects (s := s.unswitch) Fl.PILOT_STAT_SEL_REFUSED true rfl
    rw [State.takeSwitch_of_waiting hw, State.switchPilot_of_barred (s := s.unswitch) hb hn]
    exact ⟨State.flag_putFlag_same _ _ _ (by decide) (by decide) hu, k.pilotSel hu (by decide), k.noPilot hu (by decide),
      k.switching hu (by decide), fun a ha => k.rd hu a ha (List.not_mem_nil), rfl, rfl, rfl⟩

end Sys2Proof.Machine
end

section
/-! O2: loss, recovery and forced selection of a pilot, and the end of a switch window. -/

namespace Sys2Proof.Machine

variable {s : State}

/-! ## A pilot is lost -/

/-- The loss of the pilot that is not selected: the comparators' verdict alone. -/
theorem pilotLost_of_unselected (h : s.regsWf = true) (hp : s.powered 24 = true) (p : Pilots)
    (hk : ¬ Pilots.of p s.pilotSel < s.pilotRef s.pilotSel - 30) : pilotLost p s = s.judgedLost p := by
  rw [pilotLost_eq hp]
  refine ite_eq_right_iff.mpr fun ho => State.pilotGone_of_ok ?_
  rw [(State.judgedLost_selects p).pilotSel h (by decide), State.judgedLost_of_not_low h hk, ho]

/-- The loss of the selected pilot in AUTO, the other OK: the fall back, and the end of NO_PILOT. -/
theorem pilotLost_of_selected (h : s.regsWf = true) (hp : s.powered 24 = true) (p : Pilots) (hf : s.forcedPilot = none)
    (ho : s.pilotIsOk s.pilotSel = true) (hl : Pilots.of p s.pilotSel < s.pilotRef s.pilotSel - 30)
    (hother : s.pilotIsOk (!s.pilotSel) = true) (hk : ¬ Pilots.of p (!s.pilotSel) < s.pilotRef (!s.pilotSel) - 30) :
    pilotLost p s = (s.judgedLost p).fallBack.endNoPilot := by
  have k := State.judgedLost_selects (s := s) p
  have sel := k.pilotSel h (by decide)
  rw [pilotLost_eq hp, if_pos ho]
  exact State.pilotGone_of_other (by rw [sel, State.judgedLost_of_low h hl]) ((k.forcedPilot h (by decide)).trans hf)
    (by rw [sel, State.judgedLost_of_not_low h hk, hother])

/-! ## MODE and the end of a window -/

theorem pilotSwitch_get (b : Nat) (f : Field) : (pilotSwitch s).get b f = s.get b f := by
  unfold pilotSwitch
  split <;> rfl

theorem recapture_get (b : Nat) (f : Field) : (recapture s).get b f = s.get b f := by
  unfold recapture
  split <;> rfl

/-- MODE that forces pilot `b`, written. -/
def State.putMode (s : State) (b : Bool) : State := s.put Adr.PILOT_CTL Fl.PILOT_CTL_MODE (if b then 2 else 1)

theorem State.putMode_mode (h : s.regsWf = true) (b : Bool) :
    (s.putMode b).get Adr.PILOT_CTL Fl.PILOT_CTL_MODE = if b then 2 else 1 := by
  rw [State.putMode, State.get_put_same _ _ _ (by decide) h]
  cases b <;> rfl

theorem State.putMode_forcedPilot (h : s.regsWf = true) (b : Bool) : (s.putMode b).forcedPilot = some b := by
  unfold State.forcedPilot
  rw [State.putMode_mode h]
  cases b <;> rfl

theorem State.putMode_pilotIsOk (h : s.regsWf = true) (b x : Bool) : (s.putMode b).pilotIsOk x = s.pilotIsOk x :=
  congrArg (· != 0) (State.get_put_word _ _ _ _ _ (by cases x <;> decide) h)

/-- MODE that forces an OK pilot selects it at once and ends NO_PILOT; a SWITCH or RECAPTURE of the same word writes no register. -/
theorem State.writePilot_get (h : s.regsWf = true) (hb : s.bridgeOn = true) {v : Word} {b : Bool}
    (hv : getBits v 0 2 = if b then 2 else 1) (ho : s.pilotIsOk b = true) (a : Nat) (f : Field) :
    (s.writePilot v).get a f = ((s.putMode b).selectPilot b).endNoPilot.get a f := by
  have hm : (s.putMode b).regsWf = true := State.put_regsWf _ _ _ h
  have hf := State.putMode_forcedPilot h b
  have sel := State.selectPilot_pilotSel hm b
  have ok : ((s.putMode b).selectPilot b).pilotIsOk b = true := by
    rw [State.selectPilot_pilotIsOk hm, State.putMode_pilotIsOk h, ho]
  unfold State.putMode at hf sel ok ⊢
  unfold State.writePilot
  simp only [hb, hv, hf, sel, ok, Bool.true_eq_false, if_true, if_false, apply_ite (fun u : State => u.get a f), recapture_get,
    pilotSwitch_get, ite_self]

/-- No switch window's end is awaited. -/
def State.windowless (s : State) : State := { s with ctl := { s.ctl with pilot := { s.ctl.pilot with windowEnd := none } } }

theorem switchWindowEnd_of_due {n : Nat} (hw : s.ctl.pilot.windowEnd = some n) (hd : n ≤ s.tick) :
    switchWindowEnd s = s.windowless.putFlag Adr.PILOT_STAT Fl.PILOT_STAT_SWITCHING false := by
  unfold switchWindowEnd
  rw [hw]
  exact if_pos hd

/-- Settles O2, verdict by verdict: what the comparators judged, and the change of selection that follows it. -/
theorem pilotLossRecoveryAndMode : Obligations.PilotLossRecoveryAndMode := by
  unfold Obligations.PilotLossRecoveryAndMode
  intro s b p h hp
  dsimp only
  refine ⟨fun hok hsel hl hk => ⟨_, rfl, ?_⟩, fun hok hsel hf ho hc hl hk => ⟨_, rfl, ?_⟩, fun hok hb hnb => ?_,
    fun hok hn hh => ⟨_, rfl, ?_⟩, fun hok hn hf hh ha => ⟨_, rfl, ?_⟩, fun v hb hv hok => ⟨_, rfl, ?_⟩,
    fun n hw hd => ⟨_, rfl, ?_⟩⟩
  · have k := State.judgedLost_selects (s := s) p
    rw [pilotLost_of_unselected h hp p (by rwa [hsel])]
    exact ⟨State.judgedLost_of_low h hl, State.judgedLost_of_not_low h hk, k.pilotSel h (by decide), fun _ =>
      ⟨k.noPilot h (by decide), State.judgedLost_ctl p, fun a ha => k.rd h a ha List.not_mem_nil⟩⟩
  · subst hsel
    have k := State.judgedLost_selects (s := s) p
    have fell := State.fallBack_fellBack (k.wf h) (by rwa [k.classFor h (by decide)])
    have ended := State.endNoPilot_selects (s := (s.judgedLost p).fallBack)
    obtain ⟨hsw, hend⟩ := fell.window.endNoPilot fell.wf
    rw [ended.tick, fell.tick, k.tick] at hend
    rw [pilotLost_of_selected h hp p hf hok hl ho hk]
    exact ⟨(State.endNoPilot_pilotIsOk fell.wf _).trans ((fell.ok _).trans (State.judgedLost_of_low h hl)),
      (State.endNoPilot_pilotSel fell.wf).trans (fell.sel.trans (congrArg not (k.pilotSel h (by decide)))),
      State.endNoPilot_noPilot fell.wf, hsw, (ended.flag fell.wf _ (by decide)).trans fell.fallback, hend⟩
  · have none : ∀ x, ¬ Pilots.of p x < s.pilotRef x - 30 := fun x => by cases b <;> cases x <;> assumption
    refine congrArg Host.Outcome.next ?_
    rw [pilotLost_eq hp, if_pos hok, State.judgedLost_of_none p none, State.pilotGone_of_ok hok]
  · have k := State.judgedOk_selects (s := s) p
    rw [pilotOk_of_pilot h hp p hn]
    exact ⟨State.judgedOk_of_high h hh, k.pilotSel h (by decide), (k.noPilot h (by decide)).trans hn, State.judgedOk_ctl p,
      fun a ha => k.rd h a ha List.not_mem_nil⟩
  · have k := State.judgedOk_selects (s := s) p
    have hj := k.wf h
    have ok : (s.judgedOk p).pilotIsOk b = true := State.judgedOk_of_high h hh
    have first : b = true → (s.judgedOk p).pilotIsOk false = false := fun hb =>
      (State.judgedOk_of_not_high h (ha hb).2).trans (ha hb).1
    obtain ⟨hsw, hend⟩ := State.selectPilot_endNoPilot_windowOpen hj (b := b) (.inr ((k.noPilot h (by decide)).trans hn))
    rw [State.selectPilot_endNoPilot_tick, k.tick] at hend
    rw [pilotOk_of_noPilot h hp p hn hf ok first]
    exact ⟨(State.selectPilot_endNoPilot_pilotIsOk hj b b).trans ok, State.selectPilot_endNoPilot_pilotSel hj b,
      State.selectPilot_endNoPilot_noPilot hj b, hsw, hend⟩
  · have hm : (s.putMode b).regsWf = true := State.put_regsWf _ _ _ h
    have k := (State.selectPilot_selects (s := s.putMode b) b).trans State.endNoPilot_selects
    have same := State.writePilot_get h hb hv hok
    exact ⟨(same _ _).trans ((k.get_other hm _ _ (by decide) (by decide)).trans (State.putMode_mode h b)),
      (congrArg (· != 0) (same _ _)).trans (State.selectPilot_endNoPilot_pilotSel hm b),
      (congrArg (· != 0) (same _ _)).trans (State.selectPilot_endNoPilot_noPilot hm b)⟩
  · have hu : s.windowless.regsWf = true := h
    have k := State.putFlag_selects (s := s.windowless) Fl.PILOT_STAT_SWITCHING false rfl
    rw [switchWindowEnd_of_due hw hd]
    exact ⟨State.flag_putFlag_same _ _ _ (by decide) (by decide) hu, rfl, k.pilotSel hu (by decide),
      fun a ha => k.rd hu a ha List.not_mem_nil⟩

end Sys2Proof.Machine
end

section
/-! SUPPORT. The capture of the pilots' references, their published powers, and the input power monitors (R35, R39, R62). -/

namespace Sys2Proof.Machine

variable {s : State}

/-! ## RECAPTURE and the 1 ms averages -/

/-- The 1 ms averages `x` and `y` published in PILOT_PWR, and the sums of the housekeeping scans begun anew (R62). -/
def State.publishPilots (s : State) (x y : Nat) : State :=
  (State.put { s with ctl := { s.ctl with hk := { s.ctl.hk with sumA := 0, sumB := 0, scans := 0 } } } Adr.PILOT_PWR
    Fl.PILOT_PWR_PWR_A x).put Adr.PILOT_PWR Fl.PILOT_PWR_PWR_B y

/-- The capture asked for is no longer waited for. -/
def State.uncapture (s : State) : State := { s with ctl := { s.ctl with pilot := { s.ctl.pilot with recapture := false } } }

/-- The reference of pilot `b`, if that is OK, taken from its average `x` (R39). -/
def State.captureRef (s : State) (b : Bool) (x : Nat) : State :=
  if s.pilotIsOk b then s.put Adr.PILOT_REF (if b then Fl.PILOT_REF_REF_B else Fl.PILOT_REF_REF_A) x else s

/-- The averages published and the references captured from them. -/
def State.captured (s : State) (x y : Nat) : State :=
  ((s.publishPilots x y).uncapture.captureRef false x).captureRef true y

/-- The average of pilot `b` in dB, as its window or the operand gives it. -/
def State.pilotDb (s : State) (b : Bool) (level : Nat) : Nat := Config.pilotDb (s.ctl.hk.average b level)

theorem pilotRefCapture_of_idle (hp : s.powered 24 = true) (hr : s.ctl.pilot.recapture = false) (a b : Nat) :
    pilotRefCapture a b s = s.publishPilots (s.pilotDb false a) (s.pilotDb true b) :=
  (if_neg (by simp [hp])).trans (if_pos hr)

theorem pilotRefCapture_of_asked (hp : s.powered 24 = true) (hr : s.ctl.pilot.recapture = true) (a b : Nat) :
    pilotRefCapture a b s = (s.captured (s.pilotDb false a) (s.pilotDb true b)).endStage7 :=
  (if_neg (by simp [hp])).trans (if_neg (fun h => Bool.false_ne_true (h.symm.trans hr)))

section Published
variable (h : s.regsWf = true) (x y : Nat)
include h

theorem State.publishPilots_regsWf : (s.publishPilots x y).regsWf = true := State.put_regsWf _ _ _ (State.put_regsWf _ _ _ h)

theorem State.publishPilots_pwrA : (s.publishPilots x y).get Adr.PILOT_PWR Fl.PILOT_PWR_PWR_A = x % 65536 :=
  (State.get_put_apart (State.put_regsWf _ _ _ h) _ _ _ _ (by decide)).trans (State.get_put_same _ _ _ (by decide) h)

theorem State.publishPilots_pwrB : (s.publishPilots x y).get Adr.PILOT_PWR Fl.PILOT_PWR_PWR_B = y % 65536 :=
  State.get_put_same _ _ _ (by decide) (State.put_regsWf _ _ _ h)

theorem State.publishPilots_rd (a : Nat) (ha : a ≠ Adr.PILOT_PWR) : (s.publishPilots x y).rd a = s.rd a :=
  (State.rd_put_word _ _ _ _ ha (State.put_regsWf _ _ _ h)).trans (State.rd_put_word _ _ _ _ ha h)

theorem State.publishPilots_get (b : Nat) (f : Field) (hb : b + f.off ≠ Adr.PILOT_PWR) :
    (s.publishPilots x y).get b f = s.get b f := by
  unfold State.get
  rw [State.publishPilots_rd h x y _ hb]

theorem State.publishPilots_pilotIsOk (b : Bool) : (s.publishPilots x y).pilotIsOk b = s.pilotIsOk b :=
  congrArg (· != 0) (State.publishPilots_get h x y _ _ (by cases b <;> decide))

end Published

/-! ## The references -/

theorem State.uncapture_get (b : Nat) (f : Field) : s.uncapture.get b f = s.get b f := rfl

theorem State.uncapture_pilotIsOk (b : Bool) : s.uncapture.pilotIsOk b = s.pilotIsOk b := rfl

theorem State.captureRef_ctl (b : Bool) (x : Nat) : (s.captureRef b x).ctl = s.ctl := by
  unfold State.captureRef
  split <;> rfl

section Captured
variable (h : s.regsWf = true)
include h

theorem State.captureRef_regsWf (b : Bool) (x : Nat) : (s.captureRef b x).regsWf = true := by
  unfold State.captureRef
  split
  · exact State.put_regsWf _ _ _ h
  · exact h

theorem State.captureRef_rd (b : Bool) (x a : Nat) (ha : a ≠ Adr.PILOT_REF) : (s.captureRef b x).rd a = s.rd a := by
  unfold State.captureRef
  split
  · exact State.rd_put_word _ _ _ _ (by cases b <;> exact ha) h
  · rfl

theorem State.captureRef_same (b : Bool) (x : Nat) :
    (s.captureRef b x).get Adr.PILOT_REF (if b then Fl.PILOT_REF_REF_B else Fl.PILOT_REF_REF_A)
      = if s.pilotIsOk b then x % 65536 else s.get Adr.PILOT_REF (if b then Fl.PILOT_REF_REF_B else Fl.PILOT_REF_REF_A) := by
  unfold State.captureRef
  split
  · rw [State.get_put_same _ _ _ (by cases b <;> decide) h]
    cases b <;> rfl
  · rfl

theorem State.captureRef_other (b : Bool) (x : Nat) :
    (s.captureRef b x).get Adr.PILOT_REF (if b then Fl.PILOT_REF_REF_A else Fl.PILOT_REF_REF_B)
      = s.get Adr.PILOT_REF (if b then Fl.PILOT_REF_REF_A else Fl.PILOT_REF_REF_B) := by
  unfold State.captureRef
  split
  · exact State.get_put_apart h _ _ _ _ (by cases b <;> decide)
  · rfl

theorem State.captureRef_pilotIsOk (b c : Bool) (x : Nat) : (s.captureRef b x).pilotIsOk c = s.pilotIsOk c := by
  unfold State.pilotIsOk State.flag State.get
  rw [State.captureRef_rd h _ _ _ (by cases c <;> decide)]

end Captured

/-! ## Averages published and references captured -/

theorem State.captured_ctl (x y : Nat) : (s.captured x y).ctl = (s.publishPilots x y).uncapture.ctl := by
  rw [State.captured, State.captureRef_ctl, State.captureRef_ctl]

theorem State.captured_boot (x y : Nat) : (s.captured x y).boot = s.boot := by
  rw [State.boot, State.captured_ctl]
  rfl

theorem State.captured_recapture (x y : Nat) : (s.captured x y).ctl.pilot.recapture = false :=
  congrArg (fun c : Ctl => c.pilot.recapture) (State.captured_ctl x y)

theorem State.captured_scans (x y : Nat) : (s.captured x y).ctl.hk.scans = 0 :=
  congrArg (fun c : Ctl => c.hk.scans) (State.captured_ctl x y)

theorem State.captured_gwqRuns (x y : Nat) : (s.captured x y).gwqRuns = s.gwqRuns := by
  unfold State.gwqRuns
  rw [State.captured_boot]

section Both
variable (h : s.regsWf = true) (x y : Nat)
include h

theorem State.uncapture_publishPilots_regsWf : (s.publishPilots x y).uncapture.regsWf = true := State.publishPilots_regsWf h x y

theorem State.captured_regsWf : (s.captured x y).regsWf = true :=
  State.captureRef_regsWf (State.captureRef_regsWf (State.uncapture_publishPilots_regsWf h x y) false x) true y

/-- The captures write PILOT_REF alone. -/
theorem State.captured_rd_published (a : Nat) (hr : a ≠ Adr.PILOT_REF) : (s.captured x y).rd a = (s.publishPilots x y).rd a := by
  have hu := State.uncapture_publishPilots_regsWf h x y
  exact (State.captureRef_rd (State.captureRef_regsWf hu false x) true y a hr).trans (State.captureRef_rd hu false x a hr)

theorem State.captured_rd (a : Nat) (hp : a ≠ Adr.PILOT_PWR) (hr : a ≠ Adr.PILOT_REF) : (s.captured x y).rd a = s.rd a :=
  (State.captured_rd_published h x y a hr).trans (State.publishPilots_rd h x y a hp)

theorem State.captured_get (b : Nat) (f : Field) (hp : b + f.off ≠ Adr.PILOT_PWR) (hr : b + f.off ≠ Adr.PILOT_REF) :
    (s.captured x y).get b f = s.get b f := by
  unfold State.get
  rw [State.captured_rd h x y _ hp hr]

theorem State.captured_pwrA : (s.captured x y).get Adr.PILOT_PWR Fl.PILOT_PWR_PWR_A = x % 65536 := by
  rw [← State.publishPilots_pwrA h x y, State.get, State.captured_rd_published h x y _ (by decide), ← State.get]

theorem State.captured_pwrB : (s.captured x y).get Adr.PILOT_PWR Fl.PILOT_PWR_PWR_B = y % 65536 := by
  rw [← State.publishPilots_pwrB h x y, State.get, State.captured_rd_published h x y _ (by decide), ← State.get]

theorem State.captured_refA : (s.captured x y).get Adr.PILOT_REF Fl.PILOT_REF_REF_A
    = if s.pilotIsOk false then x % 65536 else s.get Adr.PILOT_REF Fl.PILOT_REF_REF_A := by
  have hu := State.uncapture_publishPilots_regsWf h x y
  have same := State.captureRef_same hu false x
  rw [State.uncapture_pilotIsOk, State.uncapture_get, State.publishPilots_pilotIsOk h,
    State.publishPilots_get h x y _ _ (by decide)] at same
  exact (State.captureRef_other (State.captureRef_regsWf hu false x) true y).trans same

theorem State.captured_refB : (s.captured x y).get Adr.PILOT_REF Fl.PILOT_REF_REF_B
    = if s.pilotIsOk true then y % 65536 else s.get Adr.PILOT_REF Fl.PILOT_REF_REF_B := by
  have hu := State.uncapture_publishPilots_regsWf h x y
  have same := State.captureRef_same (State.captureRef_regsWf hu false x) true y
  have other := State.captureRef_other hu false x
  rw [State.uncapture_get, State.publishPilots_get h x y _ _ (by decide)] at other
  rw [State.captureRef_pilotIsOk hu, State.uncapture_pilotIsOk, State.publishPilots_pilotIsOk h] at same
  exact same.trans (if_congr Iff.rfl rfl other)

end Both

/-! ## The end of stage 7 -/

theorem State.endStage7_of_stage (h : s.get Adr.BOOT_STAT Fl.BOOT_STAT_STAGE ≠ 7) : s.endStage7 = s :=
  if_neg (by simp [h])

theorem State.selfCalRun_get (b : Nat) (f : Field) : s.selfCalRun.get b f = s.get b f := by
  unfold State.selfCalRun
  split <;> rfl

theorem State.selfCalRun_pilot : s.selfCalRun.ctl.pilot = s.ctl.pilot := by
  unfold State.selfCalRun
  split <;> rfl

/-- As stage 8 begins, Gwynique's CAL_RUN is owed in SELF_CAL where no CAL_APPLY has completed (R351). -/
def State.beginStage8 (s : State) : State :=
  if s.boot.selfCal && s.frValid && !s.boot.applied then (s.setBoot { s.boot with calOwed := true }).selfCalRun else s

theorem State.beginStage8_get (b : Nat) (f : Field) : s.beginStage8.get b f = s.get b f := by
  unfold State.beginStage8
  split
  · exact State.selfCalRun_get b f
  · rfl

theorem State.beginStage8_pilot : s.beginStage8.ctl.pilot = s.ctl.pilot := by
  unfold State.beginStage8
  split
  · exact State.selfCalRun_pilot
  · rfl

/-- With the ramp over and the references captured, stage 7 gives way to stage 8, or to 9 after a CAL_APPLY of this start. -/
theorem State.endStage7_of_ended (hg : s.gwqRuns = true) (hs : s.get Adr.BOOT_STAT Fl.BOOT_STAT_STAGE = 7)
    (he : s.flag Adr.DRV_STAT Fl.DRV_STAT_EN_DONE = true) (hr : s.ctl.pilot.recapture = false) :
    s.endStage7 = (s.put Adr.BOOT_STAT Fl.BOOT_STAT_STAGE (if s.boot.applied then 9 else 8)).beginStage8 :=
  if_pos (by simp [hg, hs, he, hr])

/-! ## The input power monitors -/

/-- The result `code` of the window that has ended, published for input `p` with the window's number. -/
def State.publishInput (s : State) (p code : Nat) : State :=
  (s.put (Adr.IN_PWR p) Fl.IN_PWR_PWR (min 0x51 code)).put (Adr.IN_PWR p) Fl.IN_PWR_WIN s.msWindow

theorem powerMonitorWindow_of_published (p code : Nat) (h : s.get (Adr.IN_PWR p) Fl.IN_PWR_WIN = s.tick / 625000 % 65536) :
    powerMonitorWindow p code s = s := if_neg (by simp [h, State.msWindow])

theorem powerMonitorWindow_of_ended {p : Nat} (code : Nat) (hp : p < numPorts s.variant) (hd : s.powered (6 * (p / 128) + 5) = true)
    (hw : s.get (Adr.IN_PWR p) Fl.IN_PWR_WIN ≠ s.tick / 625000 % 65536) : powerMonitorWindow p code s
      = if 0x51 ≤ code then (s.publishInput p code).putFlag (Adr.IN_PWR p) Fl.IN_PWR_OVER true else s.publishInput p code :=
  if_pos (by simp [hp, hd, hw, State.msWindow])

section Input
variable (h : s.regsWf = true) (p code : Nat)
include h

theorem State.publishInput_regsWf : (s.publishInput p code).regsWf = true := State.put_regsWf _ _ _ (State.put_regsWf _ _ _ h)

theorem State.publishInput_pwr : (s.publishInput p code).get (Adr.IN_PWR p) Fl.IN_PWR_PWR = min 0x51 code := by
  refine (State.get_put_apart (State.put_regsWf _ _ _ h) _ _ _ _ (by decide)).trans
    ((State.get_put_same _ _ _ (by decide) h).trans (Nat.mod_eq_of_lt ?_))
  exact Nat.lt_of_le_of_lt (Nat.min_le_left ..) (by decide)

theorem State.publishInput_win : (s.publishInput p code).get (Adr.IN_PWR p) Fl.IN_PWR_WIN = s.tick / 625000 % 65536 :=
  State.get_put_same _ _ _ (by decide) (State.put_regsWf _ _ _ h)

theorem State.publishInput_over :
    (s.publishInput p code).flag (Adr.IN_PWR p) Fl.IN_PWR_OVER = s.flag (Adr.IN_PWR p) Fl.IN_PWR_OVER :=
  (State.flag_put_apart (State.put_regsWf _ _ _ h) _ _ _ _ (by decide)).trans (State.flag_put_apart h _ _ _ _ (by decide))

theorem State.publishInput_rd (a : Nat) (ha : a ≠ Adr.IN_PWR p) : (s.publishInput p code).rd a = s.rd a :=
  (State.rd_put_word _ _ _ _ ha (State.put_regsWf _ _ _ h)).trans (State.rd_put_word _ _ _ _ ha h)

end Input

end Sys2Proof.Machine
end

section
/-! O3: a capture of the pilots' references, and the windows of the input power monitors. -/

namespace Sys2Proof.Machine

/-- Settles O3: the averages published, the references captured where a capture is asked for, and one result for each window of an
input. -/
theorem pilotCaptureAndPowerMonitor : Obligations.PilotCaptureAndPowerMonitor := by
  unfold Obligations.PilotCaptureAndPowerMonitor
  refine ⟨fun s hb => ⟨_, congrArg Host.Outcome.next (if_pos hb), rfl, rfl⟩, fun s a b h hp hr hs => ?_,
    fun s a b h hp hr hg hs he => ?_, fun s a b h hp hr => ?_,
    fun s p code hw => congrArg Host.Outcome.next (powerMonitorWindow_of_published p code hw), fun s p code h hp hd hw => ?_⟩
  · refine ⟨_, congrArg Host.Outcome.next (pilotRefCapture_of_asked hp hr a b), ?_⟩
    rw [State.endStage7_of_stage (by rwa [State.captured_get h _ _ _ _ (by decide) (by decide)])]
    exact ⟨State.captured_recapture _ _, State.captured_scans _ _, State.captured_pwrA h _ _, State.captured_pwrB h _ _,
      State.captured_refA h _ _, State.captured_refB h _ _, State.captured_rd h _ _⟩
  · have reads := State.captured_get h (s.pilotDb false a) (s.pilotDb true b)
    have stage := reads Adr.BOOT_STAT Fl.BOOT_STAT_STAGE (by decide) (by decide)
    have ramp := reads Adr.DRV_STAT Fl.DRV_STAT_EN_DONE (by decide) (by decide)
    have asked := State.captured_recapture (s := s) (s.pilotDb false a) (s.pilotDb true b)
    refine ⟨_, congrArg Host.Outcome.next (pilotRefCapture_of_asked hp hr a b), ?_⟩
    rw [State.endStage7_of_ended ((State.captured_gwqRuns ..).trans hg) (stage.trans hs) (by rwa [State.flag, ramp]) asked,
      State.beginStage8_pilot, State.beginStage8_get, State.get_put_same _ _ _ (by decide) (State.captured_regsWf h _ _),
      State.captured_boot]
    refine ⟨asked, ?_⟩
    cases s.boot.applied <;> rfl
  · exact ⟨_, congrArg Host.Outcome.next (pilotRefCapture_of_idle hp hr a b), State.publishPilots_pwrA h _ _,
      State.publishPilots_pwrB h _ _, State.publishPilots_rd h _ _⟩
  · have hq := State.publishInput_regsWf h p code
    refine ⟨_, congrArg Host.Outcome.next (powerMonitorWindow_of_ended code hp hd hw), ?_⟩
    by_cases hc : 0x51 ≤ code
    · rw [if_pos hc, decide_eq_true hc, Bool.or_true]
      exact ⟨(State.get_put_apart hq _ _ _ _ (by decide)).trans (State.publishInput_pwr h p code),
        (State.get_put_apart hq _ _ _ _ (by decide)).trans (State.publishInput_win h p code),
        State.flag_putFlag_same _ _ _ (by decide) (by decide) hq,
        fun a ha => (State.rd_put_word _ _ _ _ ha hq).trans (State.publishInput_rd h p code a ha), rfl⟩
    · rw [if_neg hc, decide_eq_false hc, Bool.or_false]
      exact ⟨State.publishInput_pwr h p code, State.publishInput_win h p code, State.publishInput_over h p code,
        State.publishInput_rd h p code, rfl⟩

end Sys2Proof.Machine
end

section
/-! SUPPORT. Drive enable: the enable ramp, what ends it, and zero drive (R50, R358). -/

namespace Sys2Proof.Machine

variable {s : State}

/-! ## The end of a ramp -/

/-- EN_DONE takes `x` and no ramp is under way: what the end of a ramp and a return to zero drive write. -/
def State.withEnDone (s : State) (x : Bool) : State :=
  (s.putFlag Adr.DRV_STAT Fl.DRV_STAT_EN_DONE x).setBoot { s.boot with rampEnd := none }

/-- The same with all that follows it. -/
def State.rampOver (s : State) (x : Bool) : State := (s.withEnDone x).react

theorem State.setBoot_regsWf (x : BootUnit) : (s.setBoot x).regsWf = s.regsWf := rfl

theorem State.withEnDone_regsWf (h : s.regsWf = true) (x : Bool) : (s.withEnDone x).regsWf = true :=
  (State.setBoot_regsWf _).trans (State.putFlag_regsWf _ _ _ h)

/-- Beside EN_DONE and the end of the ramp nothing but reports follow. -/
theorem State.rampOver_reports (x : Bool) : Reports (s.withEnDone x) (s.rampOver x) := State.react_reports .rfl

theorem State.rampOver_boot (x : Bool) : (s.rampOver x).boot = { s.boot with rampEnd := none } := (State.rampOver_reports x).boot

theorem State.rampOver_rampEnd (x : Bool) : (s.rampOver x).boot.rampEnd = none := congrArg BootUnit.rampEnd (State.rampOver_boot x)

theorem State.rampOver_gwqRuns (x : Bool) : (s.rampOver x).gwqRuns = s.gwqRuns := by
  unfold State.gwqRuns
  rw [State.rampOver_boot]

theorem State.rampOver_time (x : Bool) : (s.rampOver x).time = s.time := (State.rampOver_reports x).time

theorem State.rampOver_plan (x : Bool) : (s.rampOver x).plan = s.plan := (State.rampOver_reports x).plan

theorem State.rampOver_pilot (x : Bool) : (s.rampOver x).ctl.pilot = s.ctl.pilot := (State.rampOver_reports x).pilot

section RampOver
variable (h : s.regsWf = true)
include h

theorem State.rampOver_regsWf (x : Bool) : (s.rampOver x).regsWf = true := (State.rampOver_reports x).wf (State.withEnDone_regsWf h x)

theorem State.rampOver_rd (x : Bool) (a : Nat) (hq : quiet a = true) (ha : a ≠ Adr.DRV_STAT) : (s.rampOver x).rd a = s.rd a :=
  ((State.rampOver_reports x).rd (State.withEnDone_regsWf h x) a hq).trans
    ((State.setBoot_rd ..).trans (State.rd_put_word _ _ _ _ ha h))

theorem State.rampOver_get (x : Bool) (b : Nat) (f : Field) (hq : quiet (b + f.off) = true) (hb : b + f.off ≠ Adr.DRV_STAT) :
    (s.rampOver x).get b f = s.get b f := by
  unfold State.get
  rw [State.rampOver_rd h x _ hq hb]

/-- DRV_STAT shows what was written of it. -/
theorem State.rampOver_drvStat (x : Bool) (f : Field) (hf : quiet (Adr.DRV_STAT + f.off) = true) :
    (s.rampOver x).flag Adr.DRV_STAT f = (s.putFlag Adr.DRV_STAT Fl.DRV_STAT_EN_DONE x).flag Adr.DRV_STAT f :=
  congrArg (· != 0) (((State.rampOver_reports x).get (State.withEnDone_regsWf h x) _ _ hf).trans (State.setBoot_get ..))

theorem State.rampOver_enDone (x : Bool) : (s.rampOver x).flag Adr.DRV_STAT Fl.DRV_STAT_EN_DONE = x :=
  (State.rampOver_drvStat h x _ (by decide)).trans (State.flag_putFlag_same _ _ _ (by decide) (by decide) h)

theorem State.rampOver_drvPg (x : Bool) :
    (s.rampOver x).flag Adr.DRV_STAT Fl.DRV_STAT_DRV_PG = s.flag Adr.DRV_STAT Fl.DRV_STAT_DRV_PG :=
  (State.rampOver_drvStat h x _ (by decide)).trans (State.flag_put_apart h _ _ _ _ (by decide))

theorem State.rampOver_en (x : Bool) : (s.rampOver x).flag Adr.DRV_CTL Fl.DRV_CTL_EN = s.flag Adr.DRV_CTL Fl.DRV_CTL_EN :=
  congrArg (· != 0) (State.rampOver_get h x _ _ (by decide) (by decide))

end RampOver

/-! ## A ramp begins -/

theorem State.startRamp_rd (a : Nat) : s.startRamp.rd a = s.rd a := by
  unfold State.startRamp
  split <;> rfl

theorem State.startRamp_flag (b : Nat) (f : Field) : s.startRamp.flag b f = s.flag b f := by
  unfold State.startRamp
  split <;> rfl

theorem State.startRamp_lanes : s.startRamp.ctl.lanes = s.ctl.lanes := by
  unfold State.startRamp
  split <;> rfl

/-- With VDD_DRV good the ramp of 10 µs depends on EN and on recovery alone. -/
theorem State.startRamp_rampEnd (hpg : s.flag Adr.DRV_STAT Fl.DRV_STAT_DRV_PG = true) :
    s.startRamp.boot.rampEnd = if s.flag Adr.DRV_CTL Fl.DRV_CTL_EN ∧ s.boot.recovery = false then some (s.tick + 6250)
      else s.boot.rampEnd := by
  unfold State.startRamp
  rw [hpg]
  by_cases hc : s.flag Adr.DRV_CTL Fl.DRV_CTL_EN = true ∧ s.boot.recovery = false
  · rw [if_pos hc, if_pos (by simp [hc])]
    rfl
  · rw [if_neg hc, if_neg (by simpa using hc)]

/-! ## EN -/

theorem driveEn_of_rise {v : Word} (hb : s.bridgeOn = true) (hv : v.getLsbD 0 = true)
    (he : s.flag Adr.DRV_CTL Fl.DRV_CTL_EN = false) :
    driveEn v s = (s.putFlag Adr.DRV_CTL Fl.DRV_CTL_EN true).startRamp := by
  unfold driveEn State.setEn bitSet
  rw [if_pos hb, hv, he]
  rfl

theorem driveEn_of_clear {v : Word} (hb : s.bridgeOn = true) (hv : v.getLsbD 0 = false) :
    driveEn v s = (s.putFlag Adr.DRV_CTL Fl.DRV_CTL_EN false).rampOver false := by
  unfold driveEn State.setEn bitSet
  rw [if_pos hb, hv]
  rfl

/-! ## The strobe that ends a ramp -/

theorem State.strobe_get (b : Nat) (f : Field) : s.strobe.get b f = s.get b f := rfl
theorem State.strobe_flag (b : Nat) (f : Field) : s.strobe.flag b f = s.flag b f := rfl
theorem State.strobe_boot : s.strobe.boot = s.boot := rfl
theorem State.strobe_gwqRuns : s.strobe.gwqRuns = s.gwqRuns := rfl
theorem State.strobe_pilot : s.strobe.ctl.pilot = s.ctl.pilot := rfl

theorem State.selfCalRun_rampEnd : s.selfCalRun.boot.rampEnd = s.boot.rampEnd := by
  unfold State.selfCalRun
  split <;> rfl

theorem State.beginStage8_rampEnd : s.beginStage8.boot.rampEnd = s.boot.rampEnd := by
  unfold State.beginStage8
  split
  · exact State.selfCalRun_rampEnd
  · rfl

theorem enableRampEnd_of_noStrobe {n : Nat} (hr : s.boot.rampEnd = some n) (ht : s.tick % 5 ≠ 0) : enableRampEnd s = s := by
  unfold enableRampEnd
  rw [hr]
  exact if_neg fun hc => ht hc.2

theorem enableRampEnd_of_due {n : Nat} (hr : s.boot.rampEnd = some n) (hn : n ≤ s.tick) (ht : s.tick % 5 = 0) :
    enableRampEnd s = (s.rampOver true).strobe.endStage7 := by
  unfold enableRampEnd
  rw [hr]
  exact if_pos ⟨hn, ht⟩

/-- Outside stage 7 of a start the strobe is the last thing a ramp's end does. -/
theorem enableRampEnd_of_otherStage (h : s.regsWf = true) {n : Nat} (hr : s.boot.rampEnd = some n) (hn : n ≤ s.tick)
    (ht : s.tick % 5 = 0) (hs : s.get Adr.BOOT_STAT Fl.BOOT_STAT_STAGE ≠ 7) : enableRampEnd s = (s.rampOver true).strobe := by
  rw [enableRampEnd_of_due hr hn ht, State.endStage7_of_stage]
  rwa [State.strobe_get, State.rampOver_get h true _ _ (by decide) (by decide)]

/-- In stage 7, with the references captured, the end of the ramp begins the next stage. -/
theorem enableRampEnd_of_stage7 (h : s.regsWf = true) {n : Nat} (hr : s.boot.rampEnd = some n) (hn : n ≤ s.tick)
    (ht : s.tick % 5 = 0) (hs : s.get Adr.BOOT_STAT Fl.BOOT_STAT_STAGE = 7) (hg : s.gwqRuns = true)
    (hc : s.ctl.pilot.recapture = false) : enableRampEnd s
      = ((s.rampOver true).strobe.put Adr.BOOT_STAT Fl.BOOT_STAT_STAGE (if s.boot.applied then 9 else 8)).beginStage8 := by
  have stage := State.rampOver_get h true Adr.BOOT_STAT Fl.BOOT_STAT_STAGE (by decide) (by decide)
  rw [enableRampEnd_of_due hr hn ht, State.endStage7_of_ended, State.strobe_boot, State.rampOver_boot]
  · rw [State.strobe_gwqRuns, State.rampOver_gwqRuns, hg]
  · rw [State.strobe_get, stage, hs]
  · rw [State.strobe_flag, State.rampOver_enDone h]
  · rw [State.strobe_pilot, State.rampOver_pilot, hc]

/-! ## VDD_DRV -/

theorem drvPgLoss_eq : drvPgLoss s = (s.putFlag Adr.DRV_STAT Fl.DRV_STAT_DRV_PG false).rampOver false := rfl

/-- VDD_DRV good again: DRV_PG set and its supply source no longer active. -/
def State.drvGood (s : State) : State := (s.putFlag Adr.DRV_STAT Fl.DRV_STAT_DRV_PG true).faultGone 0xC2

theorem drvPgReturn_of_lost (hp : s.powered 24 = true) (hpg : s.flag Adr.DRV_STAT Fl.DRV_STAT_DRV_PG = false) :
    drvPgReturn s = s.drvGood.startRamp := if_pos (by rw [hp, hpg]; rfl)

theorem State.drvGood_rd (h : s.regsWf = true) (a : Nat) (hd : a ≠ Adr.DRV_STAT) (hf : a ≠ Adr.FLT_SRC 0xC2) :
    s.drvGood.rd a = s.rd a :=
  (State.faultGone_rd (State.put_regsWf _ _ _ h) _ a hf).trans (State.rd_put_word _ _ _ _ hd h)

theorem State.drvGood_drvPg (h : s.regsWf = true) : s.drvGood.flag Adr.DRV_STAT Fl.DRV_STAT_DRV_PG = true := by
  unfold State.drvGood State.flag State.get
  rw [State.faultGone_rd (State.putFlag_regsWf _ _ _ h) _ _ (by decide)]
  exact State.flag_putFlag_same _ _ _ (by decide) (by decide) h

theorem State.drvGood_en (h : s.regsWf = true) : s.drvGood.flag Adr.DRV_CTL Fl.DRV_CTL_EN = s.flag Adr.DRV_CTL Fl.DRV_CTL_EN := by
  unfold State.flag State.get
  rw [State.drvGood_rd h _ (by decide) (by decide)]

end Sys2Proof.Machine
end

section
/-! O4: drive enable, the end of its ramp, and the loss and return of VDD_DRV. -/

namespace Sys2Proof.Machine

/-- Settles O4: each way a ramp begins, ends or is broken off, and what it leaves alone. -/
theorem driveEnableRampAndPowerGood : Obligations.DriveEnableRampAndPowerGood := by
  unfold Obligations.DriveEnableRampAndPowerGood
  intro s h
  refine ⟨fun v hb hv he hpg => ?rise, fun v hb hv => ?clear, fun n hr ht => ?noStrobe, fun n hr hn ht hs hg hc => ?stage7,
    fun n hr hn ht hs => ?otherStage, ?loss, fun hp hpg => ?back⟩
  case rise =>
    have en := State.flag_putFlag_same Adr.DRV_CTL Fl.DRV_CTL_EN true (by decide) (by decide) h
    have pg : (s.putFlag Adr.DRV_CTL Fl.DRV_CTL_EN true).flag Adr.DRV_STAT Fl.DRV_STAT_DRV_PG = true :=
      (congrArg (· != 0) (State.get_put_word _ _ _ _ _ (by decide) h)).trans hpg
    refine ⟨_, congrArg Host.Outcome.next (driveEn_of_rise hb hv he), (State.startRamp_flag ..).trans en, ?_,
      State.startRamp_lanes, fun a ha => (State.startRamp_rd a).trans (State.rd_put_word _ _ _ _ ha h)⟩
    rw [State.startRamp_rampEnd pg, en]
    change (if true = true ∧ s.boot.recovery = false then some (s.tick + 6250) else s.boot.rampEnd) = _
    cases s.boot.recovery <;> rfl
  case clear =>
    have hq := State.putFlag_regsWf Adr.DRV_CTL Fl.DRV_CTL_EN false h
    exact ⟨_, congrArg Host.Outcome.next (driveEn_of_clear hb hv),
      (State.rampOver_en hq false).trans (State.flag_putFlag_same _ _ _ (by decide) (by decide) h), State.rampOver_enDone hq false,
      State.rampOver_rampEnd false,
      fun a hqa hc hd => (State.rampOver_rd hq false a hqa hd).trans (State.rd_put_word _ _ _ _ hc h),
      State.rampOver_time false, State.rampOver_plan false⟩
  case noStrobe => exact congrArg Host.Outcome.next (enableRampEnd_of_noStrobe hr ht)
  case stage7 =>
    have hw : (s.rampOver true).strobe.regsWf = true := State.rampOver_regsWf h true
    refine ⟨_, congrArg Host.Outcome.next (enableRampEnd_of_stage7 h hr hn ht hs hg hc), ?_, ?_, ?_⟩
    · rw [State.flag, State.beginStage8_get, State.get_put_word _ _ _ _ _ (by decide) hw]
      exact State.rampOver_enDone h true
    · exact State.beginStage8_rampEnd.trans (State.rampOver_rampEnd true)
    · rw [State.beginStage8_get, State.get_put_same _ _ _ (by decide) hw]
      cases s.boot.applied <;> rfl
  case otherStage =>
    exact ⟨_, s.rampOver true, congrArg Host.Outcome.next (enableRampEnd_of_otherStage h hr hn ht hs), rfl,
      State.rampOver_enDone h true, State.rampOver_rampEnd true, fun a hq ha => State.rampOver_rd h true a hq ha,
      State.rampOver_time true, State.rampOver_plan true⟩
  case loss =>
    have hq := State.putFlag_regsWf Adr.DRV_STAT Fl.DRV_STAT_DRV_PG false h
    exact ⟨_, congrArg Host.Outcome.next drvPgLoss_eq,
      (State.rampOver_drvPg hq false).trans (State.flag_putFlag_same _ _ _ (by decide) (by decide) h),
      State.rampOver_enDone hq false, State.rampOver_rampEnd false,
      (State.rampOver_en hq false).trans (congrArg (· != 0) (State.get_put_word _ _ _ _ _ (by decide) h)),
      fun a hqa ha => (State.rampOver_rd hq false a hqa ha).trans (State.rd_put_word _ _ _ _ ha h)⟩
  case back =>
    refine ⟨_, congrArg Host.Outcome.next (drvPgReturn_of_lost hp hpg), (State.startRamp_flag ..).trans (State.drvGood_drvPg h),
      (State.startRamp_flag ..).trans (State.faultGone_active (State.put_regsWf _ _ _ h) _), ?_, State.startRamp_lanes,
      fun a hd hf => (State.startRamp_rd a).trans (State.drvGood_rd h a hd hf)⟩
    rw [State.startRamp_rampEnd (State.drvGood_drvPg h), State.drvGood_en h]
    rfl

end Sys2Proof.Machine
end

section
/-! O5: DRV_CLR_N acted on as low, and its return. -/

namespace Sys2Proof.Machine

variable {s : State}

/-! ## The SAFETY entry that follows -/

section Logged
variable (source on panels : Nat)

/-- A SAFETY entry is written as a report, or owed while Gwynique does not run (R333). -/
theorem State.logSafety_split : Reports s (s.logSafety source on panels) ∨ ∃ x, s.logSafety source on panels = s.setSafe x := by
  unfold State.logSafety
  dsimp only
  split
  · exact Or.inl (State.logInvol_reports .rfl ..)
  · exact Or.inr ⟨_, rfl⟩

theorem State.react_logSafety_time : (s.react.logSafety source on panels).time = s.time := by
  obtain k | ⟨x, e⟩ := State.logSafety_split (s := s.react) source on panels
  · exact ((State.react_reports .rfl).trans k).time
  · rw [e]
    exact (State.react_reports .rfl).time

theorem State.react_logSafety_plan : (s.react.logSafety source on panels).plan = s.plan := by
  obtain k | ⟨x, e⟩ := State.logSafety_split (s := s.react) source on panels
  · exact ((State.react_reports .rfl).trans k).plan
  · rw [e]
    exact (State.react_reports .rfl).plan

theorem State.react_logSafety_rd (h : s.regsWf = true) (a : Nat) (hq : quiet a = true) :
    (s.react.logSafety source on panels).rd a = s.rd a := by
  obtain k | ⟨x, e⟩ := State.logSafety_split (s := s.react) source on panels
  · exact ((State.react_reports .rfl).trans k).rd h a hq
  · rw [e]
    exact (State.react_reports .rfl).rd h a hq

theorem State.react_logSafety_drvStat (h : s.regsWf = true) (f : Field) (hf : quiet (Adr.DRV_STAT + f.off) = true) :
    (s.react.logSafety source on panels).get Adr.DRV_STAT f = s.get Adr.DRV_STAT f := by
  unfold State.get
  rw [State.react_logSafety_rd source on panels h _ hf]

end Logged

/-! ## What the pin writes -/

/-- What DRV_STAT shows of the pin as it is acted on as low. -/
def State.showClr (s : State) : State :=
  ((s.putFlag Adr.DRV_STAT Fl.DRV_STAT_CLR_LOW true).putFlag Adr.DRV_STAT Fl.DRV_STAT_CLR_SEEN true).count Adr.DRV_STAT
    Fl.DRV_STAT_CLR_COUNT 1

theorem drvClrNAssert_of_high (hp : s.powered 24 = true) (hc : s.clrLow = false) :
    drvClrNAssert s = s.showClr.react.logSafety 1 1 0 := if_neg (by simp [hp, hc])

section ShowClr
variable (h : s.regsWf = true)
include h

theorem State.showClr_regsWf : s.showClr.regsWf = true :=
  State.count_regsWf _ _ _ (State.putFlag_regsWf _ _ _ (State.putFlag_regsWf _ _ _ h))

theorem State.showClr_rd (a : Nat) (ha : a ≠ Adr.DRV_STAT) : s.showClr.rd a = s.rd a :=
  (State.rd_put_word _ _ _ _ ha (State.putFlag_regsWf _ _ _ (State.putFlag_regsWf _ _ _ h))).trans
    ((State.rd_put_word _ _ _ _ ha (State.putFlag_regsWf _ _ _ h)).trans (State.rd_put_word _ _ _ _ ha h))

/-- EN_DONE is none of the three fields written. -/
theorem State.showClr_enDone :
    s.showClr.flag Adr.DRV_STAT Fl.DRV_STAT_EN_DONE = s.flag Adr.DRV_STAT Fl.DRV_STAT_EN_DONE :=
  (State.flag_put_apart (State.putFlag_regsWf _ _ _ (State.putFlag_regsWf _ _ _ h)) _ _ _ _ (by decide)).trans
    ((State.flag_put_apart (State.putFlag_regsWf _ _ _ h) _ _ _ _ (by decide)).trans
      (State.flag_put_apart h _ _ _ _ (by decide)))

theorem State.showClr_clrLow : s.showClr.clrLow = true :=
  (State.flag_put_apart (State.putFlag_regsWf _ _ _ (State.putFlag_regsWf _ _ _ h)) _ _ _ _ (by decide)).trans
    ((State.flag_put_apart (State.putFlag_regsWf _ _ _ h) _ _ _ _ (by decide)).trans
      (State.flag_putFlag_same _ _ _ (by decide) (by decide) h))

theorem State.showClr_clrSeen : s.showClr.flag Adr.DRV_STAT Fl.DRV_STAT_CLR_SEEN = true :=
  (State.flag_put_apart (State.putFlag_regsWf _ _ _ (State.putFlag_regsWf _ _ _ h)) _ _ _ _ (by decide)).trans
    (State.flag_putFlag_same _ _ _ (by decide) (by decide) (State.putFlag_regsWf _ _ _ h))

/-- The count rises by one and stops at 65,535. -/
theorem State.showClr_clrCount : s.showClr.get Adr.DRV_STAT Fl.DRV_STAT_CLR_COUNT
    = min 65535 (s.get Adr.DRV_STAT Fl.DRV_STAT_CLR_COUNT + 1) := by
  have hl := State.putFlag_regsWf Adr.DRV_STAT Fl.DRV_STAT_CLR_LOW true h
  have kept : ((s.putFlag Adr.DRV_STAT Fl.DRV_STAT_CLR_LOW true).putFlag Adr.DRV_STAT Fl.DRV_STAT_CLR_SEEN true).get Adr.DRV_STAT
      Fl.DRV_STAT_CLR_COUNT = s.get Adr.DRV_STAT Fl.DRV_STAT_CLR_COUNT :=
    (State.get_put_apart hl _ _ _ _ (by decide)).trans (State.get_put_apart h _ _ _ _ (by decide))
  refine (State.get_put_same _ _ _ (by decide) (State.putFlag_regsWf _ _ _ hl)).trans ?_
  rw [kept]
  exact Nat.mod_eq_of_lt (Nat.lt_of_le_of_lt (Nat.min_le_left ..) (by decide))

end ShowClr

/-- CLR_LOW cleared, and each parked cell lane given the tick from which it may leave park. -/
def State.endClr (s : State) : State :=
  (s.putFlag Adr.DRV_STAT Fl.DRV_STAT_CLR_LOW false).mapLanes fun e x =>
    if x.st = 2 ∧ isGate s.variant e = false then { x with clearUntil := some (s.tick + usTicks 1) } else x

theorem drvClrNRelease_of_low (hc : s.clrLow = true) : drvClrNRelease s = s.endClr.react.logSafety 1 0 0 :=
  if_neg (by simp [hc])

theorem State.mapLanes_regsWf (f : Nat → Lane → Lane) : (s.mapLanes f).regsWf = s.regsWf := rfl

theorem State.endClr_regsWf (h : s.regsWf = true) : s.endClr.regsWf = true :=
  (State.mapLanes_regsWf _).trans (State.putFlag_regsWf _ _ _ h)

theorem State.endClr_rd (h : s.regsWf = true) (a : Nat) (ha : a ≠ Adr.DRV_STAT) : s.endClr.rd a = s.rd a :=
  (State.mapLanes_rd ..).trans (State.rd_put_word _ _ _ _ ha h)

theorem State.endClr_clrLow (h : s.regsWf = true) : s.endClr.clrLow = false :=
  (State.mapLanes_flag ..).trans (State.flag_putFlag_same _ _ _ (by decide) (by decide) h)

theorem State.endClr_drvStat (h : s.regsWf = true) (f : Field) (hf : f.apart Fl.DRV_STAT_CLR_LOW = true) :
    s.endClr.get Adr.DRV_STAT f = s.get Adr.DRV_STAT f := (State.mapLanes_get ..).trans (State.get_put_apart h _ _ _ _ hf)

/-- Settles O5: the pin writes DRV_STAT alone; lanes, routines, outputs and the ledger follow by reports. -/
theorem drvClrNLowAndReturn : Obligations.DrvClrNLowAndReturn := by
  unfold Obligations.DrvClrNLowAndReturn
  intro s h hp
  refine ⟨fun hc => ?low, fun hc => ?back⟩
  case low =>
    have hw := State.showClr_regsWf h
    have shown := State.react_logSafety_drvStat 1 1 0 hw
    exact ⟨_, congrArg Host.Outcome.next (drvClrNAssert_of_high hp hc),
      (congrArg (· != 0) (shown _ (by decide))).trans (State.showClr_clrLow h),
      (congrArg (· != 0) (shown _ (by decide))).trans (State.showClr_clrSeen h),
      (shown _ (by decide)).trans (State.showClr_clrCount h),
      (congrArg (· != 0) (shown _ (by decide))).trans (State.showClr_enDone h),
      fun a hq ha => (State.react_logSafety_rd 1 1 0 hw a hq).trans (State.showClr_rd h a ha),
      State.react_logSafety_time .., State.react_logSafety_plan ..⟩
  case back =>
    have hw := State.endClr_regsWf h
    have shown := State.react_logSafety_drvStat 1 0 0 hw
    exact ⟨_, congrArg Host.Outcome.next (drvClrNRelease_of_low hc),
      (congrArg (· != 0) (shown _ (by decide))).trans (State.endClr_clrLow h),
      congrArg (· != 0) ((shown _ (by decide)).trans (State.endClr_drvStat h _ (by decide))),
      (shown _ (by decide)).trans (State.endClr_drvStat h _ (by decide)),
      fun a hq ha => (State.react_logSafety_rd 1 0 0 hw a hq).trans (State.endClr_rd h a ha),
      State.react_logSafety_time .., State.react_logSafety_plan ..⟩

end Sys2Proof.Machine
end

section
/-! SUPPORT. What an operation writes of the register file, where no report takes part (spec/20_register_map.md R367). -/

namespace Sys2Proof.Machine

variable {w : Nat → Prop} {s s₀ t : State}

/-- From `s` to `t` every register outside `w` reads as before. -/
structure WritesOnly (w : Nat → Prop) (s t : State) : Prop where
  wf : s.regsWf = true → t.regsWf = true
  rd : s.regsWf = true → ∀ a, ¬ w a → t.rd a = s.rd a

theorem WritesOnly.rfl : WritesOnly w s s := ⟨id, fun _ _ _ => Eq.refl _⟩

theorem WritesOnly.trans (h : WritesOnly w s₀ s) (k : WritesOnly w s t) : WritesOnly w s₀ t :=
  ⟨k.wf ∘ h.wf, fun hw a ha => (k.rd (h.wf hw) a ha).trans (h.rd hw a ha)⟩

theorem ite_writesOnly {c : Prop} [Decidable c] {a b : State} (ha : WritesOnly w s a) (hb : WritesOnly w s b) :
    WritesOnly w s (if c then a else b) := by
  split
  · exact ha
  · exact hb

/-- A field of a register outside `w`. -/
theorem WritesOnly.get (k : WritesOnly w s t) (h : s.regsWf = true) (b : Nat) (f : Field) (hb : ¬ w (b + f.off)) :
    t.get b f = s.get b f := by
  unfold State.get
  rw [k.rd h _ hb]

/-- A field in the first word of its register. -/
theorem State.put_writesOnly (b : Nat) (f : Field) (n : Nat) (hf : f.off = 0) : WritesOnly (· = b) s (s.put b f n) :=
  ⟨State.put_regsWf _ _ _, fun h _ ha => State.rd_put_word _ _ _ _ (by rwa [hf]) h⟩

theorem State.putFlag_writesOnly (b : Nat) (f : Field) (x : Bool) (hf : f.off = 0) : WritesOnly (· = b) s (s.putFlag b f x) :=
  State.put_writesOnly b f _ hf

theorem State.onComb_writesOnly (c : Nat) (f : Comb → Comb) : WritesOnly w s (s.onComb c f) := ⟨id, fun _ _ _ => Eq.refl _⟩

/-- A fold each of whose steps keeps within `w` does so too. -/
theorem foldl_writesOnly {β : Type} {f : State → β → State} (hf : ∀ s x, WritesOnly w s (f s x)) (l : List β) (s : State) :
    WritesOnly w s (l.foldl f s) := by
  induction l generalizing s with
  | nil => exact .rfl
  | cons x l ih => exact (hf s x).trans (ih (f s x))

end Sys2Proof.Machine
end

section
/-! SUPPORT. The references of the sense ADCs and the word of SENSE_CFG (R58). -/

namespace Sys2Proof.Machine

variable {s : State}

theorem numCombs_le (v : Variant) : numCombs v ≤ 144 := by cases v <;> decide

theorem refSettled_of_due {c : Nat} (hc : c < numCombs s.variant) (hp : s.powered (combDomain s.variant c) = true)
    (ht : (s.comb c).refAt ≤ s.tick) : refSettled c s = s.putFlag (Adr.SENSE_STAT c) Fl.SENSE_STAT_REF_SETTLED true :=
  if_pos (by simp [hc, hp, ht])

/-! ## A write of SENSE_CFG -/

/-- The block of SENSE_CFG, with the fields REF_SEL, SEQ_LEN_A and SEQ_LEN_B. -/
def senseCfgBlock : Block :=
  ⟨0x400044, 144, 0x4000, 1, 0x4000, none, .comb, [(0x0, [⟨0, 2, .rw, 0x0⟩, ⟨8, 7, .rw, 0x60⟩, ⟨16, 7, .rw, 0x60⟩])]⟩

theorem senseCfgBlock_wordAt {c : Nat} (hc : c < 144) : senseCfgBlock.wordAt (Adr.SENSE_CFG c)
    = some (c, 0, [⟨0, 2, .rw, 0x0⟩, ⟨8, 7, .rw, 0x60⟩, ⟨16, 7, .rw, 0x60⟩]) := by
  have here : ¬ Adr.SENSE_CFG c < 0x400044 := by unfold Adr.SENSE_CFG; omega
  have off : Adr.SENSE_CFG c - 0x400044 = 0x4000 * c := by unfold Adr.SENSE_CFG; omega
  simp [Block.wordAt, senseCfgBlock, here, off, hc]

theorem lookupWord_senseCfg {c : Nat} (hc : c < 144) : lookupWord (Adr.SENSE_CFG c)
    = some (senseCfgBlock, c, 0, [⟨0, 2, .rw, 0x0⟩, ⟨8, 7, .rw, 0x60⟩, ⟨16, 7, .rw, 0x60⟩]) := by
  have low : ¬ Adr.SENSE_CFG c < 0x200000 := by unfold Adr.SENSE_CFG; omega
  have mid : ¬ Adr.SENSE_CFG c < 0x400000 := by unfold Adr.SENSE_CFG; omega
  have comb : Adr.SENSE_CFG c % 0x4000 < 0x1000 := by unfold Adr.SENSE_CFG; omega
  have drvCfg : Block.wordAt ⟨0x400040, 144, 0x4000, 1, 0x4000, none, .comb, [(0x0, [⟨0, 1, .rw, 0x1⟩, ⟨1, 1, .ro, 0x1⟩])]⟩
      (Adr.SENSE_CFG c) = none := by
    have row : (Adr.SENSE_CFG c - 0x400040) % 0x4000 = 4 := by unfold Adr.SENSE_CFG; omega
    simp [Block.wordAt, row]
  unfold lookupWord combBlocks combBlocks1
  rw [if_neg low, if_neg mid, if_pos (Or.inl comb), List.findSome?_cons, drvCfg]
  dsimp only [Option.map_none]
  rw [List.findSome?_cons, ← senseCfgBlock, senseCfgBlock_wordAt hc]
  rfl

/-- `w` with the three fields of SENSE_CFG as `v` has them. -/
def senseCfgWord (w v : Word) : Word :=
  setBits (setBits (setBits w 0 2 (getBits v 0 2)) 8 7 (getBits v 8 7)) 16 7 (getBits v 16 7)

theorem getBits_lt (w : Word) (lo n : Nat) : getBits w lo n < 2 ^ n := Nat.mod_lt _ (Nat.two_pow_pos n)

theorem senseCfgWord_refSel (w v : Word) : getBits (senseCfgWord w v) 0 2 = getBits v 0 2 := by
  unfold senseCfgWord
  rw [getBits_setBits_other _ _ _ _ _ _ (by decide) (by decide), getBits_setBits_other _ _ _ _ _ _ (by decide) (by decide),
    getBits_setBits_same _ _ _ _ (by decide), Nat.mod_eq_of_lt (getBits_lt ..)]

theorem senseCfgWord_lenA (w v : Word) : getBits (senseCfgWord w v) 8 7 = getBits v 8 7 := by
  unfold senseCfgWord
  rw [getBits_setBits_other _ _ _ _ _ _ (by decide) (by decide), getBits_setBits_same _ _ _ _ (by decide),
    Nat.mod_eq_of_lt (getBits_lt ..)]

theorem senseCfgWord_lenB (w v : Word) : getBits (senseCfgWord w v) 16 7 = getBits v 16 7 := by
  unfold senseCfgWord
  rw [getBits_setBits_same _ _ _ _ (by decide), Nat.mod_eq_of_lt (getBits_lt ..)]

theorem State.store_senseCfg {c : Nat} (hc : c < 144) (ha : s.answers (Adr.SENSE_CFG c) = true) (v : Word) :
    s.store (Adr.SENSE_CFG c) v = s.wr (Adr.SENSE_CFG c) (senseCfgWord (s.rd (Adr.SENSE_CFG c)) v) := by
  unfold State.answers at ha
  unfold State.store
  rw [lookupWord_senseCfg hc] at ha ⊢
  exact if_pos ha

/-- SENSE_CFG as a write of `v` leaves it. -/
def State.writeSenseCfg (s : State) (c : Nat) (v : Word) : State :=
  s.wr (Adr.SENSE_CFG c) (senseCfgWord (s.rd (Adr.SENSE_CFG c)) v)

theorem calCstat_ne_senseCfg (c : Nat) : Adr.CAL_CSTAT c ≠ Adr.SENSE_CFG c := by
  unfold Adr.CAL_CSTAT Adr.SENSE_CFG
  omega

section RefSel
variable {c : Nat} (h : s.regsWf = true) (hc : c < 144) (ha : s.answers (Adr.SENSE_CFG c) = true) (v : Word)
include h

theorem State.writeSenseCfg_regsWf : (s.writeSenseCfg c v).regsWf = true := State.wr_regsWf _ _ h

theorem State.writeSenseCfg_same :
    (s.writeSenseCfg c v).rd (Adr.SENSE_CFG c) = senseCfgWord (s.rd (Adr.SENSE_CFG c)) v := State.rd_wr_same _ _ h

theorem State.writeSenseCfg_other (a : Nat) (hn : a ≠ Adr.SENSE_CFG c) : (s.writeSenseCfg c v).rd a = s.rd a :=
  State.rd_wr_other _ _ _ hn h

include hc ha

/-- Where REF_SEL changes, the calibration of the comb no longer stands for its reference (R58, R97). -/
theorem refSel_of_answers : refSel c v s
    = if getBits v 0 2 = s.get (Adr.SENSE_CFG c) Fl.SENSE_CFG_REF_SEL then s.writeSenseCfg c v
      else (s.writeSenseCfg c v).putFlag (Adr.CAL_CSTAT c) Fl.CAL_CSTAT_REF_CHANGED true := by
  have stored : (s.writeSenseCfg c v).get (Adr.SENSE_CFG c) Fl.SENSE_CFG_REF_SEL = getBits v 0 2 :=
    (congrArg (getBits · 0 2) (State.writeSenseCfg_same h v)).trans (senseCfgWord_refSel ..)
  unfold refSel
  rw [if_pos ha, State.store_senseCfg hc ha, ← State.writeSenseCfg]
  dsimp only
  rw [stored]

theorem refSel_senseCfg : (refSel c v s).rd (Adr.SENSE_CFG c) = senseCfgWord (s.rd (Adr.SENSE_CFG c)) v := by
  rw [refSel_of_answers h hc ha]
  split
  · exact State.writeSenseCfg_same h v
  · exact (State.rd_put_word _ _ _ _ (calCstat_ne_senseCfg c).symm (State.writeSenseCfg_regsWf h v)).trans
      (State.writeSenseCfg_same h v)

theorem refSel_other (a : Nat) (hn : a ≠ Adr.SENSE_CFG c) (hs : a ≠ Adr.CAL_CSTAT c) : (refSel c v s).rd a = s.rd a := by
  rw [refSel_of_answers h hc ha]
  split
  · exact State.writeSenseCfg_other h v a hn
  · exact (State.rd_put_word _ _ _ _ hs (State.writeSenseCfg_regsWf h v)).trans (State.writeSenseCfg_other h v a hn)

theorem refSel_refChanged : (refSel c v s).flag (Adr.CAL_CSTAT c) Fl.CAL_CSTAT_REF_CHANGED
    = (s.flag (Adr.CAL_CSTAT c) Fl.CAL_CSTAT_REF_CHANGED
      || decide (getBits v 0 2 ≠ s.get (Adr.SENSE_CFG c) Fl.SENSE_CFG_REF_SEL)) := by
  rw [refSel_of_answers h hc ha]
  split
  case isTrue same =>
    rw [decide_eq_false (not_not_intro same), Bool.or_false]
    exact congrArg (getBits · 3 1 != 0) (State.writeSenseCfg_other h v _ (calCstat_ne_senseCfg c))
  case isFalse changed =>
    rw [decide_eq_true changed, Bool.or_true]
    exact State.flag_putFlag_same _ _ _ (by decide) (by decide) (State.writeSenseCfg_regsWf h v)

theorem refSel_ctl : (refSel c v s).ctl = s.ctl := by
  rw [refSel_of_answers h hc ha]
  split <;> rfl

end RefSel

end Sys2Proof.Machine
end

section
/-! SUPPORT. A conversion of a sense ADC: the slot that follows it and the word of its result (R51, R52). -/

namespace Sys2Proof.Machine

variable {s : State}

/-! ## The slot that follows -/

/-- A slot that begins writes SENSE_STAT of its comb, and no other register. -/
theorem State.takeRef_writesOnly (c : Nat) : WritesOnly (· = Adr.SENSE_STAT c) s (s.takeRef c) := by
  unfold State.takeRef
  exact ite_writesOnly .rfl ((State.onComb_writesOnly c _).trans (State.putFlag_writesOnly _ _ _ rfl))

theorem State.takeEntry_writesOnly (c : Nat) (b : Bool) (h k : Nat) (urgent : Bool) :
    WritesOnly (· = Adr.SENSE_STAT c) s (s.takeEntry c b h k urgent) := by
  unfold State.takeEntry
  exact (State.takeRef_writesOnly c).trans (State.onComb_writesOnly c _)

theorem State.showUrg_writesOnly (c : Nat) (b : Bool) : WritesOnly (· = Adr.SENSE_STAT c) s (s.showUrg c b) :=
  State.putFlag_writesOnly _ _ _ (by cases b <;> rfl)

theorem State.startSlot_writesOnly (c : Nat) (b : Bool) (h : Nat) :
    WritesOnly (· = Adr.SENSE_STAT c) s (s.startSlot c b h) := by
  refine WritesOnly.trans ?_ (State.showUrg_writesOnly c b)
  split
  case h_1 => exact (State.takeEntry_writesOnly ..).trans (State.onComb_writesOnly ..)
  case h_2 =>
    split
    · exact (State.takeEntry_writesOnly ..).trans (State.onComb_writesOnly ..)
    · exact State.onComb_writesOnly ..

/-! ## The result -/

/-- The word of a result register: `z` held within 14 bits, and the flags of the conversion (R52). -/
def Conv.word (x : Conv) (z : Int) (valid : Bool) : Nat :=
  (clampInt 0 16383 z).toNat + 2 ^ 14 * b2i valid + 2 ^ 15 * b2i x.urgent + 2 ^ 16 * b2i x.unset
    + 2 ^ 17 * b2i (decide (16383 < z)) + 2 ^ 18 * (x.gain % 4) + 2 ^ 24 * x.pseq

/-- The bits of a result register. -/
structure ResultFields (w : Word) (result valid urgent unset clip gain pseq : Nat) : Prop where
  result : getBits w 0 14 = result
  valid : getBits w 14 1 = valid
  urgent : getBits w 15 1 = urgent
  unset : getBits w 16 1 = unset
  clip : getBits w 17 1 = clip
  gain : getBits w 18 2 = gain
  pseq : getBits w 24 8 = pseq

/-- Fields that hold their values, added each at its place. -/
theorem resultFields_of_sum {r v u n k g q : Nat} (hr : r < 16384) (hv : v ≤ 1) (hu : u ≤ 1) (hn : n ≤ 1) (hk : k ≤ 1)
    (hg : g < 4) (hq : q < 256) : ResultFields (BitVec.ofNat 32 (r + 2 ^ 14 * v + 2 ^ 15 * u + 2 ^ 16 * n + 2 ^ 17 * k + 2 ^ 18 * g
      + 2 ^ 24 * q)) r v u n k g q := by
  constructor <;> (unfold getBits; rw [BitVec.toNat_ofNat]; omega)

theorem b2i_le (b : Bool) : b2i b ≤ 1 := by cases b <;> decide

theorem b2i_bne (b : Bool) : (b2i b != 0) = b := by cases b <;> rfl

theorem Conv.word_fields (x : Conv) (z : Int) (valid : Bool) (hp : x.pseq < 256) :
    ResultFields (BitVec.ofNat 32 (x.word z valid)) (max 0 (min 16383 z)).toNat (b2i valid) (b2i x.urgent) (b2i x.unset)
      (b2i (decide (16383 < z))) (x.gain % 4) x.pseq :=
  have held : (max 0 (min 16383 z)).toNat < 16384 := by omega
  resultFields_of_sum held (b2i_le _) (b2i_le _) (b2i_le _) (b2i_le _) (Nat.mod_lt _ (by decide)) hp

/-! ## The conversion -/

theorem senseConversion_of_early {c : Nat} {b : Bool} (p : Photo) {x : Conv} (hx : (s.comb c).cur b = some x)
    (he : 2 * s.tick + 1 < x.ends) : senseConversion c b p s = s := by
  unfold senseConversion
  rw [hx]
  split
  · exact if_pos he
  · rfl

/-- A conversion completes: two events of its comb, its result, and the next slot. -/
theorem senseConversion_of_ended {c : Nat} {b : Bool} {p : Photo} {x : Conv} (hc : c < numCombs s.variant)
    (hp : s.powered (combDomain s.variant c) = true) (hx : (s.comb c).cur b = some x) (he : x.ends ≤ 2 * s.tick + 1)
    (hd : Photo.defined p x.ref = true) : senseConversion c b p s
      = (((s.combEvent c 0x11 1).combEvent c 0x12 (b2i x.urgent)).wr (resAdr c b x.entry) (BitVec.ofNat 32
          (x.word (x.corrected (Photo.raw p x.gain x.ref)) (((s.comb c).seq b).getD x.entry (127, 0) == (x.input, x.gain))))).startSlot
            c b x.ends := by
  unfold senseConversion
  rw [if_pos (by simp [hc, hp]), hx]
  dsimp only
  rw [if_neg (Nat.not_lt.mpr he), hd]
  rfl

theorem resAdr_ne_senseStat (c : Nat) (b : Bool) (k : Nat) : resAdr c b k ≠ Adr.SENSE_STAT c := by
  cases b
  all_goals
    simp only [resAdr, Adr.SENSE_RES_A, Adr.SENSE_RES_B, Adr.SENSE_STAT]
    simp
    omega

/-- The result register of the entry reads as the conversion formed it. -/
theorem senseConversion_rd {c : Nat} {b : Bool} {p : Photo} {x : Conv} (h : s.regsWf = true) (hc : c < numCombs s.variant)
    (hp : s.powered (combDomain s.variant c) = true) (hx : (s.comb c).cur b = some x) (he : x.ends ≤ 2 * s.tick + 1)
    (hd : Photo.defined p x.ref = true) : (senseConversion c b p s).rd (resAdr c b x.entry) = BitVec.ofNat 32
      (x.word (x.corrected (Photo.raw p x.gain x.ref)) (((s.comb c).seq b).getD x.entry (127, 0) == (x.input, x.gain))) := by
  have hw : ((s.combEvent c 0x11 1).combEvent c 0x12 (b2i x.urgent)).regsWf = true :=
    (State.combEvent_reports (State.combEvent_reports .rfl ..) ..).wf h
  rw [senseConversion_of_ended hc hp hx he hd,
    (State.startSlot_writesOnly c b x.ends).rd (State.wr_regsWf _ _ hw) _ (resAdr_ne_senseStat c b x.entry), State.rd_wr_same _ _ hw]

end Sys2Proof.Machine
end

section
/-! SUPPORT. A scan of the housekeeping ADC: its results, its count, and the scan that follows (R61, R62). -/

namespace Sys2Proof.Machine

variable {s : State}

/-! ## The results -/

/-- The results of channel `n` written, where the variant has the channel. -/
def State.putHk (value : Nat → Nat) (unset : Nat → Bool) (scan : Nat) (s : State) (n : Nat) : State :=
  if Variant.isSmall s.variant && [3, 4, 12, 13].contains n then s
  else (((s.put (Adr.HK_RES n) Fl.HK_RES_VALUE (value n)).putFlag (Adr.HK_RES n) Fl.HK_RES_VALID true).putFlag (Adr.HK_RES n)
    Fl.HK_RES_REF_UNSET (unset n)).put (Adr.HK_RES n) Fl.HK_RES_SCAN scan

section PutHk
variable (value : Nat → Nat) (unset : Nat → Bool) (scan : Nat)

/-- The word of a result register as a scan leaves it: VALUE, VALID and SCAN. -/
def HkWord (value scan : Nat) (w : Word) : Prop :=
  getBits w 0 12 = value % 4096 ∧ getBits w 12 1 = 1 ∧ getBits w 16 16 = scan % 65536

theorem State.putHk_writesOnly (n : Nat) : WritesOnly (· = Adr.HK_RES n) s (s.putHk value unset scan n) := by
  unfold State.putHk
  exact ite_writesOnly .rfl ((((State.put_writesOnly _ _ _ rfl).trans (State.putFlag_writesOnly _ _ _ rfl)).trans
    (State.putFlag_writesOnly _ _ _ rfl)).trans (State.put_writesOnly _ _ _ rfl))

theorem State.putHk_variant (n : Nat) : (s.putHk value unset scan n).variant = s.variant := by
  unfold State.putHk
  split <;> rfl

theorem State.putHk_ctl (n : Nat) : (s.putHk value unset scan n).ctl = s.ctl := by
  unfold State.putHk
  split <;> rfl

/-- A channel the variant has reads as written. -/
theorem State.putHk_word (h : s.regsWf = true) {n : Nat} (hn : s.variant = .t256 → n ∉ [3, 4, 12, 13]) :
    HkWord (value n) scan ((s.putHk value unset scan n).rd (Adr.HK_RES n)) := by
  have present : (Variant.isSmall s.variant && [3, 4, 12, 13].contains n) = false := by
    cases e : s.variant
    case t256 => simpa [Variant.isSmall] using hn e
    all_goals rfl
  have h1 := State.put_regsWf (Adr.HK_RES n) Fl.HK_RES_VALUE (value n) h
  have h2 := State.putFlag_regsWf (Adr.HK_RES n) Fl.HK_RES_VALID true h1
  have h3 := State.putFlag_regsWf (Adr.HK_RES n) Fl.HK_RES_REF_UNSET (unset n) h2
  unfold State.putHk
  rw [present]
  exact ⟨(State.get_put_apart h3 _ _ _ Fl.HK_RES_VALUE (by decide)).trans ((State.get_put_apart h2 _ _ _ _ (by decide)).trans
      ((State.get_put_apart h1 _ _ _ _ (by decide)).trans (State.get_put_same _ _ _ (by decide) h))),
    (State.get_put_apart h3 _ _ _ Fl.HK_RES_VALID (by decide)).trans ((State.get_put_apart h2 _ _ _ _ (by decide)).trans
      (State.get_put_same _ _ _ (by decide) h1)),
    State.get_put_same _ _ _ (by decide) h3⟩

/-- The results of the first `m` channels written. -/
def State.putHks (s : State) (m : Nat) : State := (List.range m).foldl (State.putHk value unset scan) s

theorem State.putHks_succ (m : Nat) :
    s.putHks value unset scan (m + 1) = (s.putHks value unset scan m).putHk value unset scan m := by
  unfold State.putHks
  rw [List.range_succ, List.foldl_append]
  rfl

theorem State.putHks_writesOnly (m : Nat) : WritesOnly (fun a => ∃ n, a = Adr.HK_RES n) s (s.putHks value unset scan m) :=
  foldl_writesOnly (fun _ n =>
    let k := State.putHk_writesOnly value unset scan n
    ⟨k.wf, fun h a ha => k.rd h a fun e => ha ⟨n, e⟩⟩) _ _

theorem State.putHks_ctl (m : Nat) : (s.putHks value unset scan m).ctl = s.ctl := by
  induction m with
  | zero => rfl
  | succ m ih => rw [State.putHks_succ, State.putHk_ctl, ih]

theorem State.putHks_variant (m : Nat) : (s.putHks value unset scan m).variant = s.variant := by
  induction m with
  | zero => rfl
  | succ m ih => rw [State.putHks_succ, State.putHk_variant, ih]

theorem State.putHks_word (h : s.regsWf = true) {n m : Nat} (hm : n < m) (hn : s.variant = .t256 → n ∉ [3, 4, 12, 13]) :
    HkWord (value n) scan ((s.putHks value unset scan m).rd (Adr.HK_RES n)) := by
  induction m with
  | zero => omega
  | succ m ih =>
    have hw := (State.putHks_writesOnly value unset scan m).wf h
    rw [State.putHks_succ]
    by_cases e : n = m
    · subst e
      exact State.putHk_word value unset scan hw (by rwa [State.putHks_variant])
    · rw [(State.putHk_writesOnly value unset scan m).rd hw _ (by unfold Adr.HK_RES; omega)]
      exact ih (by omega)

end PutHk

/-! ## The count of scans -/

theorem foldl_ctl {β : Type} {f : State → β → State} (hf : ∀ s x, (f s x).ctl = s.ctl) (l : List β) (s : State) :
    (l.foldl f s).ctl = s.ctl := by
  induction l generalizing s with
  | nil => rfl
  | cons x l ih => rw [List.foldl_cons, ih, hf]

theorem State.hubEvent_ctl (ev n : Nat) : (s.hubEvent ev n).ctl = s.ctl := by
  unfold State.hubEvent
  split
  · rfl
  · refine foldl_ctl (fun s i => ?_) _ s
    dsimp only
    split
    · split <;> rfl
    · rfl

/-- The values that a scan leaves free drawn, where its reference has no defined level. -/
def State.drawHk (s : State) (vals : HkIn) : State :=
  if HkIn.defined vals s.ctl.hk.ref then s else { s with free := s.free + 32 }

/-- The scan counted. -/
def State.countScan (s : State) (vals : HkIn) : State := ((s.drawHk vals).countWrap Adr.HK_STAT Fl.HK_STAT_SCAN 1).hubEvent 0x03 1

theorem State.drawHk_ctl (vals : HkIn) : (s.drawHk vals).ctl = s.ctl := by
  unfold State.drawHk
  split <;> rfl

theorem State.drawHk_variant (vals : HkIn) : (s.drawHk vals).variant = s.variant := by
  unfold State.drawHk
  split <;> rfl

theorem State.drawHk_regs (vals : HkIn) : (s.drawHk vals).regs = s.regs := by
  unfold State.drawHk
  split <;> rfl

theorem State.drawHk_rd (vals : HkIn) (a : Nat) : (s.drawHk vals).rd a = s.rd a := by
  unfold State.rd
  rw [State.drawHk_variant, State.drawHk_regs]

theorem State.drawHk_regsWf (vals : HkIn) (h : s.regsWf = true) : (s.drawHk vals).regsWf = true := by
  unfold State.regsWf
  rw [State.drawHk_variant, State.drawHk_regs]
  exact h

theorem State.countScan_ctl (vals : HkIn) : (s.countScan vals).ctl = s.ctl := (State.hubEvent_ctl ..).trans (State.drawHk_ctl vals)

theorem State.countScan_variant (vals : HkIn) : (s.countScan vals).variant = s.variant :=
  (State.hubEvent_reports .rfl 0x03 1).variant.trans (State.drawHk_variant vals)

section CountScan
variable (h : s.regsWf = true) (vals : HkIn)
include h

theorem State.countScan_regsWf : (s.countScan vals).regsWf = true :=
  (State.hubEvent_reports .rfl 0x03 1).wf (State.countWrap_regsWf _ _ _ (State.drawHk_regsWf vals h))

theorem State.countScan_rd (a : Nat) (hq : quiet a = true) (ha : a ≠ Adr.HK_STAT) : (s.countScan vals).rd a = s.rd a :=
  ((State.hubEvent_reports .rfl 0x03 1).rd (State.countWrap_regsWf _ _ _ (State.drawHk_regsWf vals h)) a hq).trans
    ((State.rd_put_word _ _ _ _ ha (State.drawHk_regsWf vals h)).trans (State.drawHk_rd vals a))

theorem State.countScan_scan : (s.countScan vals).get Adr.HK_STAT Fl.HK_STAT_SCAN
    = (s.get Adr.HK_STAT Fl.HK_STAT_SCAN + 1) % 65536 := by
  have hw := State.drawHk_regsWf vals h
  refine ((State.hubEvent_reports .rfl 0x03 1).get (State.countWrap_regsWf _ _ _ hw) _ _ (by decide)).trans
    ((State.get_put_same _ _ _ (by decide) hw).trans ?_)
  unfold State.get
  rw [State.drawHk_rd]
  rfl

end CountScan

/-! ## The scan that follows -/

/-- REF_UNSET of each channel of the scan that ends. -/
def State.hkUnset (s : State) (vals : HkIn) (n : Nat) : Bool :=
  decide (s.ctl.hk.scanEnd < s.ctl.hk.settleAt
    + scanTicks ((s.countScan vals).flag Adr.HK_STAT Fl.HK_STAT_LP_ACT) / 32 * (32 - n))

/-- The scan counted and its results written. -/
def State.scanned (s : State) (vals : HkIn) : State :=
  (s.countScan vals).putHks (s.hkValue vals) (s.hkUnset vals) ((s.countScan vals).get Adr.HK_STAT Fl.HK_STAT_SCAN) 32

/-- The housekeeping unit with the scan that has ended in the sums of its window. -/
def State.hkSummed (s : State) (vals : HkIn) : HkUnit :=
  { s.ctl.hk with sumA := s.ctl.hk.sumA + s.hkVolts vals 26, sumB := s.ctl.hk.sumB + s.hkVolts vals 27, scans := s.ctl.hk.scans + 1 }

def State.setHk (s : State) (x : HkUnit) : State := { s with ctl := { s.ctl with hk := x } }

theorem State.setHk_get (x : HkUnit) (b : Nat) (f : Field) : (s.setHk x).get b f = s.get b f := rfl
theorem State.setHk_ref (x : HkUnit) : (s.setHk x).ctl.hk.ref = x.ref := rfl

/-- A change of the reference takes effect as the next scan begins, and has yet to settle (R61). -/
def State.takeHkRef (s : State) (hk : HkUnit) (n next : Nat) : State :=
  if n = hk.ref then s.setHk { hk with scanEnd := next }
  else (s.putFlag Adr.HK_STAT Fl.HK_STAT_REF_SETTLED false).setHk
    { hk with ref := n, settleAt := hk.scanEnd + refTicks n, scanEnd := next }

/-- The next scan begins with the mode LP asks for and the reference REF_SEL names. -/
def State.nextScan (s : State) (hk : HkUnit) : State :=
  (s.putFlag Adr.HK_STAT Fl.HK_STAT_LP_ACT (s.flag Adr.HK_CTL Fl.HK_CTL_LP)).takeHkRef hk
    (refEff ((s.putFlag Adr.HK_STAT Fl.HK_STAT_LP_ACT (s.flag Adr.HK_CTL Fl.HK_CTL_LP)).get Adr.HK_CTL Fl.HK_CTL_REF_SEL))
    (hk.scanEnd + scanTicks (s.flag Adr.HK_CTL Fl.HK_CTL_LP))

theorem housekeepingScan_of_ended (vals : HkIn) (hp : s.powered 24 = true) (he : s.ctl.hk.scanEnd ≤ s.tick) :
    housekeepingScan vals s = (s.scanned vals).nextScan (s.hkSummed vals) := by
  unfold housekeepingScan
  rw [if_neg (by simp [hp, he])]
  extract_lets hk value hk' drawn counted scan slot one written lp
  have one_eq : one = State.putHk (s.hkValue vals) (s.hkUnset vals) ((s.countScan vals).get Adr.HK_STAT Fl.HK_STAT_SCAN) := rfl
  clear_value one
  subst one_eq
  have written_eq : written = s.scanned vals := rfl
  clear_value written
  generalize s.scanned vals = u at written_eq ⊢
  subst written_eq
  rfl

section Next
variable (hk : HkUnit)

theorem State.takeHkRef_ref (n next : Nat) : (s.takeHkRef hk n next).ctl.hk.ref = n := by
  unfold State.takeHkRef
  split
  · exact (State.setHk_ref _).trans (Eq.symm ‹_›)
  · rfl

theorem State.takeHkRef_lanes (n next : Nat) : (s.takeHkRef hk n next).ctl.lanes = s.ctl.lanes := by
  unfold State.takeHkRef
  split <;> rfl

theorem State.takeHkRef_plan (n next : Nat) : (s.takeHkRef hk n next).ctl.plan = s.ctl.plan := by
  unfold State.takeHkRef
  split <;> rfl

theorem State.takeHkRef_writesOnly (n next : Nat) : WritesOnly (· = Adr.HK_STAT) s (s.takeHkRef hk n next) := by
  have set : ∀ (t : State) (x : HkUnit), WritesOnly (· = Adr.HK_STAT) t (t.setHk x) := fun t x => ⟨id, fun _ _ _ => rfl⟩
  unfold State.takeHkRef
  exact ite_writesOnly (set ..) ((State.putFlag_writesOnly _ _ _ rfl).trans (set ..))

theorem State.takeHkRef_hkStat (h : s.regsWf = true) (n next : Nat) (f : Field)
    (hf : f.apart Fl.HK_STAT_REF_SETTLED = true) : (s.takeHkRef hk n next).get Adr.HK_STAT f = s.get Adr.HK_STAT f := by
  unfold State.takeHkRef
  split
  · rfl
  · exact (State.setHk_get ..).trans (State.get_put_apart h _ _ _ _ hf)

theorem State.nextScan_lanes : (s.nextScan hk).ctl.lanes = s.ctl.lanes := State.takeHkRef_lanes ..

theorem State.nextScan_plan : (s.nextScan hk).ctl.plan = s.ctl.plan := State.takeHkRef_plan ..

theorem State.nextScan_rd (h : s.regsWf = true) (a : Nat) (ha : a ≠ Adr.HK_STAT) : (s.nextScan hk).rd a = s.rd a :=
  ((State.takeHkRef_writesOnly ..).rd (State.putFlag_regsWf _ _ _ h) a ha).trans (State.rd_put_word _ _ _ _ ha h)

theorem State.nextScan_ref (h : s.regsWf = true) :
    (s.nextScan hk).ctl.hk.ref = refEff (s.get Adr.HK_CTL Fl.HK_CTL_REF_SEL) :=
  (State.takeHkRef_ref ..).trans (congrArg refEff (State.get_put_word _ _ _ _ _ (by decide) h))

theorem State.nextScan_scan (h : s.regsWf = true) :
    (s.nextScan hk).get Adr.HK_STAT Fl.HK_STAT_SCAN = s.get Adr.HK_STAT Fl.HK_STAT_SCAN :=
  (State.takeHkRef_hkStat _ (State.putFlag_regsWf _ _ _ h) _ _ _ (by decide)).trans (State.get_put_apart h _ _ _ _ (by decide))

theorem State.nextScan_lpAct (h : s.regsWf = true) :
    (s.nextScan hk).flag Adr.HK_STAT Fl.HK_STAT_LP_ACT = s.flag Adr.HK_CTL Fl.HK_CTL_LP :=
  (congrArg (· != 0) (State.takeHkRef_hkStat _ (State.putFlag_regsWf _ _ _ h) _ _ _ (by decide))).trans
    (State.flag_putFlag_same _ _ _ (by decide) (by decide) h)

end Next

/-! ## The scan that has ended -/

theorem State.scanned_ctl (vals : HkIn) : (s.scanned vals).ctl = s.ctl := (State.putHks_ctl ..).trans (State.countScan_ctl vals)

section Scanned
variable (h : s.regsWf = true) (vals : HkIn)
include h

theorem State.scanned_regsWf : (s.scanned vals).regsWf = true :=
  (State.putHks_writesOnly ..).wf (State.countScan_regsWf h vals)

theorem State.scanned_get (b : Nat) (f : Field) (hb : b + f.off < 0x60280) :
    (s.scanned vals).get b f = (s.countScan vals).get b f :=
  (State.putHks_writesOnly ..).get (State.countScan_regsWf h vals) b f (by rintro ⟨n, e⟩; unfold Adr.HK_RES at e; omega)

/-- HK_CTL is read as it stood before the scan. -/
theorem State.scanned_hkCtl (f : Field) (hf : f.off = 0) : (s.scanned vals).get Adr.HK_CTL f = s.get Adr.HK_CTL f := by
  rw [State.scanned_get h vals _ _ (by rw [hf]; decide)]
  unfold State.get
  rw [State.countScan_rd h vals _ (by rw [hf]; decide) (by rw [hf]; decide)]

theorem State.scanned_scan :
    (s.scanned vals).get Adr.HK_STAT Fl.HK_STAT_SCAN = (s.get Adr.HK_STAT Fl.HK_STAT_SCAN + 1) % 65536 :=
  (State.scanned_get h vals _ _ (by decide)).trans (State.countScan_scan h vals)

theorem State.scanned_word {n : Nat} (hn : n < 32) (hv : s.variant = .t256 → n ∉ [3, 4, 12, 13]) :
    HkWord (s.hkValue vals n) ((s.get Adr.HK_STAT Fl.HK_STAT_SCAN + 1) % 65536) ((s.scanned vals).rd (Adr.HK_RES n)) := by
  rw [← State.countScan_scan h vals]
  exact State.putHks_word _ _ _ (State.countScan_regsWf h vals) hn (by rwa [State.countScan_variant])

end Scanned

/-- VALUE fits its 12 bits. -/
theorem HkIn.value_lt (m : HkIn) (ref n : Nat) : HkIn.value m ref n < 4096 := by
  unfold HkIn.value clampInt
  omega

theorem State.hkValue_of_defined {vals : HkIn} (hd : HkIn.defined vals s.ctl.hk.ref = true) (n : Nat) :
    s.hkValue vals n = HkIn.value vals s.ctl.hk.ref n := if_pos hd

theorem hkRes_ne_hkStat (n : Nat) : Adr.HK_RES n ≠ Adr.HK_STAT := by
  unfold Adr.HK_RES Adr.HK_STAT
  omega

end Sys2Proof.Machine
end

section
/-! O6: the references of the sense ADCs, a conversion, and a housekeeping scan. -/

namespace Sys2Proof.Machine

/-- Settles O6: what each of the four operations writes, and the registers that two of them leave alone. -/
theorem senseReferenceConversionAndScan : Obligations.SenseReferenceConversionAndScan := by
  unfold Obligations.SenseReferenceConversionAndScan
  intro s h
  refine ⟨fun c hc hp ht => ?settled, fun c v hc ha => ?refSel, fun c b p x hx he => ?early, fun c b p x hc hp hx hk hq he hd => ?ended,
    fun vals hp he => ?scan⟩
  case settled =>
    exact ⟨_, congrArg Host.Outcome.next (refSettled_of_due hc hp ht), State.flag_putFlag_same _ _ _ (by decide) (by decide) h, rfl,
      fun a ha => State.rd_put_word _ _ _ _ ha h⟩
  case refSel =>
    have hc' := Nat.lt_of_lt_of_le hc (numCombs_le _)
    have word := refSel_senseCfg h hc' ha v
    exact ⟨_, rfl, (congrArg (getBits · 0 2) word).trans (senseCfgWord_refSel ..),
      (congrArg (getBits · 8 7) word).trans (senseCfgWord_lenA ..), (congrArg (getBits · 16 7) word).trans (senseCfgWord_lenB ..),
      refSel_refChanged h hc' ha v, refSel_ctl h hc' ha v, refSel_other h hc' ha v⟩
  case early => exact congrArg Host.Outcome.next (senseConversion_of_early p hx he)
  case ended =>
    have word := senseConversion_rd h hc hp hx he hd
    have fields := Conv.word_fields x (x.corrected (Photo.raw p x.gain x.ref))
      (((s.comb c).seq b).getD x.entry (127, 0) == (x.input, x.gain)) hq
    rw [← word] at fields
    exact ⟨_, rfl, fields.result, (congrArg (· != 0) fields.urgent).trans (b2i_bne _),
      (congrArg (· != 0) fields.unset).trans (b2i_bne _),
      (congrArg (· != 0) fields.clip).trans (b2i_bne _), fields.gain, fields.pseq, (congrArg (· != 0) fields.valid).trans (b2i_bne _)⟩
  case scan =>
    have hw := State.scanned_regsWf h vals
    refine ⟨_, congrArg Host.Outcome.next (housekeepingScan_of_ended vals hp he),
      (State.nextScan_scan _ hw).trans (State.scanned_scan h vals),
      (State.nextScan_lpAct _ hw).trans (congrArg (· != 0) (State.scanned_hkCtl h vals _ rfl)),
      (State.nextScan_ref _ hw).trans (congrArg refEff (State.scanned_hkCtl h vals _ rfl)),
      (State.nextScan_lanes _).trans (congrArg Ctl.lanes (State.scanned_ctl vals)),
      (State.nextScan_plan _).trans (congrArg Ctl.plan (State.scanned_ctl vals)), fun n hn hv => ?_⟩
    obtain ⟨value, valid, scan⟩ := State.scanned_word h vals hn hv
    have kept := State.nextScan_rd (s.hkSummed vals) hw _ (hkRes_ne_hkStat n)
    rw [← kept] at value valid scan
    refine ⟨congrArg (· != 0) valid, scan.trans (Nat.mod_mod ..), fun hd => value.trans ?_⟩
    rw [State.hkValue_of_defined hd, Nat.mod_eq_of_lt (HkIn.value_lt ..)]
    rfl

end Sys2Proof.Machine
end

section
/-! O7: a period boundary in a state that holds a session of a number the device never gives. -/

namespace Sys2Proof.Machine

/-- A conversion under way, so that no slot begins at the boundary. -/
def strayConv : Conv := { entry := 0, input := 0, gain := 0, urgent := false, pseq := 0, unset := false }

/-- Comb 0 of a DX256 at a boundary that is due, and one session, of number 0x33004. Sessions are numbered 0 to 4095 (log 84); no
hypothesis on the state says so, and the words of this one are registers of comb 0: STATE is read from DRV_CFG (2, so OPEN), and
EV_LOST is the whole word of SENSE_STAT, whose bits below PSEQ are all 1. Output 0 shows a state that it has left, so the boundary
posts OUT_STATE to the session, which still owes an EV_LOST: the event is lost and counted. -/
def strayState : State :=
  { State.reset with
    variant := .t256
    tick := 5
    regs := [(Adr.PWR_STAT, 0xffffffff), (Adr.DRV_CFG 0, 2), (Adr.SENSE_STAT 0, 0xff)]
    host := { sess := [(0x33004, { mask := 1, grant := 1, lostPend := 1 })] }
    ctl := { combs := [(0, { boundary := 5, curA := some strayConv, curB := some strayConv })], outs := [(0, { st := 3 })] } }

theorem strayState_wf : strayState.regsWf = true ∧ strayState.ctl.tablesWf = true := by decide

theorem strayState_due : 0 < numCombs strayState.variant ∧ strayState.powered (combDomain strayState.variant 0) = true
    ∧ (strayState.comb 0).boundary ≠ 0 ∧ (strayState.comb 0).boundary ≤ strayState.tick := by decide

theorem strayState_pseq : strayState.get (Adr.SENSE_STAT 0) Fl.SENSE_STAT_PSEQ = 0 := by decide

/-- The count of the lost event carries into PSEQ, which has stepped already. -/
theorem periodBoundary_strayState_pseq :
    (periodBoundary 0 strayState).get (Adr.SENSE_STAT 0) Fl.SENSE_STAT_PSEQ = 2 := by decide +kernel

/-- Refutes O7: at the boundary of comb 0 in `strayState` PSEQ goes from 0 to 2, since an event lost for session 0x33004 is counted in
the word of SENSE_STAT. -/
theorem not_periodBoundaryOpensThePeriod : ¬ Obligations.PeriodBoundaryOpensThePeriod := by
  unfold Obligations.PeriodBoundaryOpensThePeriod
  intro h
  obtain ⟨hregs, htables⟩ := strayState_wf
  obtain ⟨hcomb, hpower, hset, hdue⟩ := strayState_due
  obtain ⟨t, ht, hpseq, -⟩ := (h strayState 0 hregs htables hcomb).1 hpower hset hdue
  obtain rfl : periodBoundary 0 strayState = t := Host.Outcome.next.inj ht
  rw [periodBoundary_strayState_pseq, strayState_pseq] at hpseq
  exact absurd hpseq (by decide)

end Sys2Proof.Machine
end

section
/-! SUPPORT. What leaves the control plane, or its lanes and outputs, alone: events, counters, and the bookkeeping of a comb
engine. -/

namespace Sys2Proof.Machine

variable {s t : State}

/-! ## What leaves the control plane alone -/

@[simp] theorem State.combEvent_ctl (s : State) (c ev n : Nat) : (s.combEvent c ev n).ctl = s.ctl := by
  unfold State.combEvent
  split
  · rfl
  · refine foldl_ctl (fun s k => ?_) _ s
    simp only [apply_ite State.ctl, State.notice_ctl, State.putFlag_ctl, State.put_ctl, ite_self]

@[simp] theorem State.dmaFault_ctl (s : State) (q : Nat) : (s.dmaFault q).ctl = s.ctl := by
  unfold State.dmaFault
  simp only [apply_ite State.ctl, State.put_ctl, State.putFlag_ctl, ite_self]

@[simp] theorem State.signal_ctl (s : State) (fn vec : Nat) : (s.signal fn vec).ctl = s.ctl := by
  unfold State.signal State.sendMsi
  simp only [apply_ite State.ctl, State.hubEvent_ctl, ite_self]

@[simp] theorem State.writeStat_ctl (s : State) (q ring : Nat) : (s.writeStat q ring).ctl = s.ctl := by
  unfold State.writeStat
  split
  · rfl
  · simp only [apply_ite State.ctl, State.signal_ctl, State.setSess_ctl, State.hubEvent_ctl, State.dmaFault_ctl, ite_self]

@[simp] theorem State.sendEth_ctl (s : State) (q ty count index : Nat) (body : List Byte) :
    (s.sendEth q ty count index body).ctl = s.ctl := by
  unfold State.sendEth
  split
  · rfl
  · split
    · rfl
    · simp only [apply_ite State.ctl, State.setSess_ctl, State.hubEvent_ctl, ite_self]

@[simp] theorem State.pushEvts_ctl (s : State) (q : Nat) (es : List (List Byte)) : (s.pushEvts q es).ctl = s.ctl := by
  unfold State.pushEvts
  split
  · rfl
  · simp only [apply_ite State.ctl, State.dmaFault_ctl, State.sendEth_ctl, State.writeStat_ctl, State.setSess_ctl,
      State.hubEvent_ctl, ite_self]

@[simp] theorem State.onSess_ctl (s : State) (q : Nat) (f : Sess → Sess) : (s.onSess q f).ctl = s.ctl := by
  unfold State.onSess
  split
  · rfl
  · rfl

@[simp] theorem State.postAt_ctl (s : State) (q code dom tq ns32 frac8 : Nat) (payload : List Byte) :
    (s.postAt q code dom tq ns32 frac8 payload).ctl = s.ctl := by
  unfold State.postAt
  split
  · rfl
  · split
    · rfl
    · simp only [apply_ite State.ctl, State.pushEvts_ctl, State.onSess_ctl, State.count_ctl, ite_self]

@[simp] theorem State.postOut_ctl (s : State) (o : Nat) : (s.postOut o).ctl = s.ctl := by
  refine foldl_ctl (fun s q => ?_) _ s
  split
  · rfl
  · simp only [apply_ite State.ctl, State.post, State.postAt_ctl, ite_self]

/-! ## What leaves lanes and outputs alone -/

/-- From `s` to `t` no lane and no output changes. -/
structure SameLanes (s t : State) : Prop where
  lanes : t.ctl.lanes = s.ctl.lanes
  outs : t.ctl.outs = s.ctl.outs

theorem SameLanes.rfl : SameLanes s s := ⟨Eq.refl _, Eq.refl _⟩

theorem SameLanes.trans {s₀ : State} (h : SameLanes s₀ s) (k : SameLanes s t) : SameLanes s₀ t :=
  ⟨k.lanes.trans h.lanes, k.outs.trans h.outs⟩

theorem SameLanes.of_ctl (h : t.ctl = s.ctl) : SameLanes s t := ⟨congrArg Ctl.lanes h, congrArg Ctl.outs h⟩

theorem ite_sameLanes {c : Prop} [Decidable c] {a b : State} (ha : SameLanes s a) (hb : SameLanes s b) :
    SameLanes s (if c then a else b) := by
  split
  · exact ha
  · exact hb

theorem foldl_sameLanes {β : Type} {f : State → β → State} (hf : ∀ s x, SameLanes s (f s x)) (l : List β) (s : State) :
    SameLanes s (l.foldl f s) := by
  induction l generalizing s with
  | nil => exact .rfl
  | cons x l ih => exact (hf s x).trans (ih (f s x))

theorem State.lane_congr (h : t.ctl.lanes = s.ctl.lanes) (e : Nat) : t.lane e = s.lane e := by
  unfold State.lane
  rw [h]

theorem State.onComb_sameLanes (s : State) (c : Nat) (f : Comb → Comb) : SameLanes s (s.onComb c f) := ⟨rfl, rfl⟩

theorem State.paramWrite_sameLanes (s : State) (c : Nat) (host : Bool) (ws : List Nat) : SameLanes s (s.paramWrite c host ws) := by
  unfold State.paramWrite
  refine ite_sameLanes .rfl ?_
  split
  · exact .rfl
  · exact ite_sameLanes ⟨rfl, rfl⟩ ⟨rfl, rfl⟩

theorem State.countSteps_sameLanes (s : State) (c : Nat) (m : Engine) : SameLanes s (s.countSteps c m) := by
  unfold State.countSteps
  extract_lets e r u v
  have ku : SameLanes s u := ⟨rfl, rfl⟩
  have kv : SameLanes s v := ite_sameLanes (ku.trans (.of_ctl (State.notice_ctl ..))) ku
  have counts : ∀ (w : State) (ev k : Nat), SameLanes w (w.combEvent c ev k) := fun w ev k => .of_ctl (State.combEvent_ctl ..)
  have kEvents := kv.trans (foldl_sameLanes (fun w k => counts w (1 + k) (m.events.filter (· == 1 + k)).length) (List.range 7) v)
  have kClasses := kEvents.trans
    (foldl_sameLanes (fun w k => counts w (8 + k) (m.classes.filter (· == k)).length) (List.range 8) _)
  exact ite_sameLanes kv (ite_sameLanes kClasses (kClasses.trans (counts _ 0x14 m.steps)))

/-- Steps that end in no machine check, of a routine that no event waits for, move the engine alone. -/
theorem State.settleRun_sameLanes {m : Engine} {r : Run} (hm : m.check = none) (hr : r.cut = false) (s : State) (c : Nat) :
    SameLanes s (s.settleRun c r m) := by
  unfold State.settleRun
  simp only [hm, hr, Bool.false_and, Bool.false_eq_true, if_false]
  exact ite_sameLanes (s.onComb_sameLanes ..) (s.onComb_sameLanes ..)

/-- The outputs formed anew leave every lane. -/
theorem State.refreshOuts_lanes (s : State) : s.refreshOuts.ctl.lanes = s.ctl.lanes := by
  unfold State.refreshOuts
  generalize List.range (numPorts s.variant) = l
  induction l generalizing s with
  | nil => rfl
  | cons o l ih =>
    rw [List.foldl_cons, ih]
    simp only [apply_ite State.ctl, apply_ite Ctl.lanes, State.postOut_ctl, State.setOut_ctl_lanes, ite_self]

end Sys2Proof.Machine
end

section
/-! SUPPORT. A routine of a free comb engine whose last step is its COMMIT: its work, and the engine settled behind it (R137,
R138). -/

namespace Sys2Proof.Machine

variable {s : State} {c vec l n : Nat}

/-- The routine that the dispatcher starts in a free engine. -/
theorem State.runAt_of_free (h : (s.comb c).run = none) (vec l : Nat) : s.runAt c vec l =
    { vec := vec, lane := l, eng := { upc := SMap.find vec (s.comb c).resume (resumeKey vec l), lane := l }
      inp := s.iterIn (64 * c + l), scopes := s.scopes c } := by
  unfold State.runAt
  simp only [h]

/-- The engine once the buffer of its COMMIT has been handed over. -/
def Engine.handedOver (m : Engine) : Engine := { m with hit := false, out := [] }

theorem Engine.handedOver_hit (m : Engine) : m.handedOver.hit = false := rfl
theorem Engine.handedOver_steps (m : Engine) : m.handedOver.steps = m.steps := rfl
theorem Engine.handedOver_check (m : Engine) : m.handedOver.check = m.check := rfl

/-- Once its `n` steps are made a routine goes no further. -/
theorem State.turns_of_done {r : Run} {work : IterIn → State → State} {m : Engine} (hn : m.steps = n) (hm : m.hit = false)
    (k : Nat) (s : State) : State.turns c r n work k s m = (s, m) := by
  cases k with
  | zero => rfl
  | succ k =>
    have stays : Engine.run (s.menv c r) (Engine.pauses r.cut) (n - m.steps) m = m := by
      rw [hn, Nat.sub_self]
      rfl
    simp only [State.turns, stays, hm, Bool.false_eq_true, if_false]

/-- A routine that the dispatcher starts does its work at its one COMMIT, for what it took as it started. -/
theorem State.routine_of_starts (h : s.starts c vec l n) (work : IterIn → State → State) :
    s.routine c vec l n work = ((work (s.iterIn (64 * c + l)) s).countSteps c (s.toCommit c vec l n).handedOver).settleRun c
      (s.runAt c vec l) (s.toCommit c vec l n).handedOver := by
  obtain ⟨free, -, hit, final, out, -, steps⟩ := h
  have start := State.runAt_of_free free vec l
  have cut : (s.runAt c vec l).cut = false := by rw [start]
  have fresh : (s.runAt c vec l).eng.steps = 0 := by rw [start]
  have taken : (s.runAt c vec l).inp = s.iterIn (64 * c + l) := by rw [start]
  have works : (s.runAt c vec l).worksAt (s.runAt c vec l).eng (s.toCommit c vec l n) = true := by
    rw [start]
    simp [Run.worksAt, final]
  have reached : Engine.run (s.menv c (s.runAt c vec l)) (Engine.pauses (s.runAt c vec l).cut) (n - (s.runAt c vec l).eng.steps)
      (s.runAt c vec l).eng = s.toCommit c vec l n := by
    rw [cut, fresh]
    rfl
  have turn : State.turns c (s.runAt c vec l) n work (n + 1) s (s.runAt c vec l).eng
      = (work (s.iterIn (64 * c + l)) s, (s.toCommit c vec l n).handedOver) := by
    rw [State.turns]
    simp only [reached, hit, if_true, out, works, taken]
    exact State.turns_of_done ((Engine.handedOver_steps _).trans steps) (Engine.handedOver_hit _) n _
  unfold State.routine State.turn
  simp only [turn]

/-- Of lanes and outputs such a routine changes what its work changes. -/
theorem State.routine_sameLanes (h : s.starts c vec l n) (work : IterIn → State → State) :
    SameLanes (work (s.iterIn (64 * c + l)) s) (s.routine c vec l n work) := by
  rw [State.routine_of_starts h]
  obtain ⟨free, -, -, -, -, check, -⟩ := h
  have cut : (s.runAt c vec l).cut = false := by rw [State.runAt_of_free free]
  exact (State.countSteps_sameLanes ..).trans (State.settleRun_sameLanes ((Engine.handedOver_check _).trans check) cut ..)

end Sys2Proof.Machine
end

section
/-! SUPPORT. What the COMMIT of a loop iteration makes of its lane (R67, R70), and which lane ITER and POST_MOVE serve (R80,
R137). -/

namespace Sys2Proof.Machine

variable {s : State} {c l n e : Nat} {inp : IterIn}

/-! ## The COMMIT of an iteration -/

/-- A lane as an iteration of it begins to count: served, with no skips in a row and no post-move iteration owed. -/
def Lane.serve (x : Lane) : Lane := { x with served := true, consec := 0, postMove := none }

/-- A lane whose iteration was not computed because its source is not usable: frozen, without history and, if not yet primed, with
the prime count begun again (R67, R75). -/
def Lane.freeze (x : Lane) : Lane :=
  { x with frozen := satInc8 x.frozen, hv := false, primeCnt := if x.primeCnt < 2 then 0 else 2 }

/-- A source that is not usable sets no flag, starts no timer and trips nothing. -/
theorem Lane.notComputed_source (x : Lane) (feTime : Nat) : x.notComputed .source feTime = (x.freeze, false) := by
  simp [Lane.notComputed, Lane.freeze]

/-- What the COMMIT of an iteration gives its lane, whether following-error supervision trips, and whether the iteration was left
uncomputed (R67, R70). -/
def State.iterLane (s : State) (e : Nat) (inp : IterIn) : (Lane × Bool) × Bool :=
  let x := (s.lane e).serve
  match inp.readings (s.overlapped (e / 64)) with
  | .error why => (x.notComputed why inp.coeffs.feTime, true)
  | .ok rs =>
    let v := tapValues (s.calOf e) rs
    if v.1 + v.2.1 < 4096 then (x.notComputed .lowsig inp.coeffs.feTime, true)
    else
      let y := iterate (s.calOf e) inp.coeffs x v.1 v.2.1 v.2.2
      (({ y.1.judge inp.coeffs.feLim with commitTick := s.tick }, y.2), false)

/-- The lane that an iteration leaves, as the COMMIT places it: its words through the parameter SRAM checker, then the fault of a
trip, or the outputs where the lane's state or DEGRADED changed. -/
def State.placeIter (s : State) (e : Nat) (r : (Lane × Bool) × Bool) : State :=
  let u := (s.setLane e r.1.1).paramWrite (e / 64) false ((if r.2 then [8, 9] else [0, 5, 6, 7, 8, 9]).map (laneAdr e))
  if r.1.2 then u.combFault (e / 64) 2 (some (e % 64)) { detail := e % 64, access := 3, master := 0x10, addr := 0 }
  else if r.1.1.st = (s.lane e).serve.st ∧ r.1.1.degraded = (s.lane e).serve.degraded then u else u.refreshOuts

theorem State.commitIter_eq (s : State) (e : Nat) (inp : IterIn) : s.commitIter e inp = s.placeIter e (s.iterLane e inp) := rfl

/-- With usable readings of enough signal the lane is what the control law gives, and what it gives decides the trip. -/
theorem State.iterLane_of_computed {rs : List Reading} (hr : inp.readings (s.overlapped (e / 64)) = .ok rs) :
    let v := tapValues (s.calOf e) rs
    let y := iterate (s.calOf e) inp.coeffs (s.lane e).serve v.1 v.2.1 v.2.2
    4096 ≤ v.1 + v.2.1 → s.iterLane e inp = (({ y.1.judge inp.coeffs.feLim with commitTick := s.tick }, y.2), false) := by
  intro v y hsum
  unfold State.iterLane
  rw [hr]
  exact if_neg (Int.not_lt.mpr hsum)

theorem State.iterLane_of_source (hr : inp.readings (s.overlapped (e / 64)) = .error .source) :
    s.iterLane e inp = (((s.lane e).serve.freeze, false), true) := by
  unfold State.iterLane
  rw [hr, ← Lane.notComputed_source _ inp.coeffs.feTime]

variable {r : (Lane × Bool) × Bool}

/-- Without a trip no lane but the iteration's own changes. -/
theorem State.placeIter_lanes (htrip : r.1.2 = false) : (s.placeIter e r).ctl.lanes = (s.setLane e r.1.1).ctl.lanes := by
  have written := State.paramWrite_sameLanes (s.setLane e r.1.1) (e / 64) false
    ((if r.2 then [8, 9] else [0, 5, 6, 7, 8, 9]).map (laneAdr e))
  unfold State.placeIter
  simp only [htrip, Bool.false_eq_true, if_false]
  split
  · exact written.lanes
  · exact (State.refreshOuts_lanes _).trans written.lanes

/-- Nor does an output, where the lane keeps its state and DEGRADED. -/
theorem State.placeIter_outs (htrip : r.1.2 = false) (hst : r.1.1.st = (s.lane e).st) (hd : r.1.1.degraded = (s.lane e).degraded) :
    (s.placeIter e r).ctl.outs = s.ctl.outs := by
  unfold State.placeIter
  simp only [htrip, Bool.false_eq_true, if_false]
  rw [if_pos ⟨hst, hd⟩]
  exact (State.paramWrite_sameLanes ..).outs

/-! ## The lane that is served -/

theorem State.going_of_free (h : (s.comb c).run = none) (vec : Nat) : s.going c vec = none := by
  unfold State.going
  rw [h]

/-- With no IDLE in progress a command begins at once. -/
theorem State.afterIdle_of_free (h : (s.comb c).run = none) (n : Nat) (go : Nat → State → State) :
    s.afterIdle c n go = go n s := by
  unfold State.afterIdle
  simp [State.going_of_free h]

/-- With good check bits an iteration begins. -/
theorem State.loopIter_of_goodWords (h : s.flt.badWords = []) (post : Bool) (c l n : Nat) :
    s.loopIter post c l n = s.loopRun post c l n := by
  unfold State.loopIter State.badRead
  simp [h]

/-- The lane that ITER, or POST_MOVE, serves in comb `c`. -/
def State.servesNext (s : State) (post : Bool) (c l : Nat) : Prop :=
  if post then s.nextPost c = some l else s.nextPost c = none ∧ s.nextDue c = some l

/-- ITER and POST_MOVE run the routine of the lane they serve. -/
theorem exec_loop_of_starts {post : Bool} (hserving : s.serving c = true) (hacc : (s.accWaits c).isEmpty = true)
    (hlane : s.servesNext post c l) (hstarts : s.starts c (if post then 4 else 5) l n) (hgood : s.flt.badWords = []) :
    exec (if post then .postMove ⟨c, n⟩ else .iter ⟨c, n⟩) s = .next (s.loopRun post c l n) := by
  obtain ⟨free, may, -⟩ := hstarts
  cases post with
  | false =>
    obtain ⟨noPost, due⟩ := hlane
    have begins : iter c n s = s.loopIter false c l n := by
      unfold iter
      rw [State.afterIdle_of_free free]
      simp only [State.going_of_free free]
      rw [if_pos (by simpa [hserving, hacc, noPost] using may), due]
    exact congrArg Host.Outcome.next (begins.trans (State.loopIter_of_goodWords hgood ..))
  | true =>
    have moved : s.nextPost c = some l := hlane
    have begins : postMove c n s = s.loopIter true c l n := by
      unfold postMove
      rw [State.afterIdle_of_free free]
      simp only [State.going_of_free free]
      rw [if_pos (by simpa [hserving, hacc] using may), moved]
    exact congrArg Host.Outcome.next (begins.trans (State.loopIter_of_goodWords hgood ..))

/-- The run of an iteration leaves of lanes and outputs what its COMMIT places. -/
theorem State.loopRun_sameLanes {post : Bool} (h : s.starts c (if post then 4 else 5) l n) :
    SameLanes (s.placeIter (64 * c + l) (s.iterLane (64 * c + l) (s.iterIn (64 * c + l)))) (s.loopRun post c l n) := by
  rw [← State.commitIter_eq]
  exact State.routine_sameLanes h fun inp s => s.commitIter (64 * c + l) inp

end Sys2Proof.Machine
end

section
/-! O8: an iteration commits the control law's lane, or freezes it where the source of its readings is not usable. -/

namespace Sys2Proof.Machine

/-- Settles O8: the engine's one COMMIT places what the iteration gives its lane, and neither the steps it counts nor the end of its
routine touch a lane. -/
theorem iterationCommitsOrHolds : Obligations.IterationCommitsOrHolds := by
  unfold Obligations.IterationCommitsOrHolds
  intro s c l n post _ htables hserving hacc hlane hstarts hgood
  have runs := exec_loop_of_starts hserving hacc hlane hstarts hgood
  have placed := State.loopRun_sameLanes hstarts
  refine ⟨fun rs hr => ?_, fun hr => ⟨_, runs, ?_⟩⟩
  · intro e v y hsum htrip
    have gives := State.iterLane_of_computed hr hsum
    have lanes := placed.lanes.trans (State.placeIter_lanes (by rw [gives]; exact htrip))
    rw [gives] at lanes
    exact ⟨_, runs, (State.lane_congr lanes _).trans (State.lane_setLane_same htables ..),
      fun e' hne => (State.lane_congr lanes _).trans (State.lane_setLane_other htables _ _ _ hne)⟩
  · have gives := State.iterLane_of_source hr
    have lanes := placed.lanes.trans (State.placeIter_lanes (by rw [gives]))
    have outs := placed.outs.trans (State.placeIter_outs (by rw [gives]) (by rw [gives]; rfl) (by rw [gives]; rfl))
    rw [gives] at lanes
    have frozen := (State.lane_congr lanes (64 * c + l)).trans (State.lane_setLane_same htables ..)
    rw [frozen]
    exact ⟨rfl, rfl, rfl, rfl, rfl,
      fun e' hne => (State.lane_congr lanes _).trans (State.lane_setLane_other htables _ _ _ hne), outs⟩

end Sys2Proof.Machine
end

section
/-! SUPPORT. What a comb is after a routine of its engine has made its one COMMIT: what the routine's work makes of it, but for the
engine itself (R137, R138). -/

namespace Sys2Proof.Machine

variable {s : State} {c vec l n : Nat}

/-- The same comb with its engine elsewhere: routine in progress, restart addresses and pause. -/
def Comb.withEngine (x : Comb) (run : Option Run) (resume : SMap Nat) (pause : Nat) : Comb :=
  { x with run := run, resume := resume, pause := pause }

theorem State.countSteps_combs (s : State) (c : Nat) (m : Engine) : (s.countSteps c m).ctl.combs = s.ctl.combs := by
  have counted : ∀ (l : List Nat) (ev k : Nat → Nat) (s : State),
      (l.foldl (fun s i => s.combEvent c (ev i) (k i)) s).ctl = s.ctl := fun l _ _ s => foldl_ctl (fun s _ => State.combEvent_ctl s ..) l s
  unfold State.countSteps
  simp only [apply_ite State.ctl, State.combEvent_ctl, counted, State.notice_ctl, State.setEng_ctl_combs,
    ite_self]

/-- Steps that end in no machine check, of a routine that no event waits for, change of their comb the engine alone. -/
theorem State.settleRun_comb {m : Engine} {r : Run} (hm : m.check = none) (hr : r.cut = false) (h : s.ctl.tablesWf = true) (c : Nat) :
    ∃ run resume pause, (s.settleRun c r m).comb c = (s.comb c).withEngine run resume pause := by
  unfold State.settleRun
  simp only [hm, hr, Bool.false_and, Bool.false_eq_true, if_false]
  split
  · exact ⟨_, _, _, State.comb_onComb_same h ..⟩
  · exact ⟨_, _, _, State.comb_onComb_same h ..⟩

theorem State.routine_comb (h : s.starts c vec l n) (work : IterIn → State → State)
    (hw : (work (s.iterIn (64 * c + l)) s).ctl.tablesWf = true) :
    ∃ run resume pause,
      (s.routine c vec l n work).comb c = ((work (s.iterIn (64 * c + l)) s).comb c).withEngine run resume pause := by
  rw [State.routine_of_starts h]
  obtain ⟨free, -, -, -, -, check, -⟩ := h
  have cut : (s.runAt c vec l).cut = false := by rw [State.runAt_of_free free]
  generalize work (s.iterIn (64 * c + l)) s = u at hw ⊢
  have combs := State.countSteps_combs u c (s.toCommit c vec l n).handedOver
  have wf : (u.countSteps c (s.toCommit c vec l n).handedOver).ctl.tablesWf = true := by
    simpa only [Ctl.tablesWf, (State.countSteps_sameLanes ..).lanes, (State.countSteps_sameLanes ..).outs, combs] using hw
  have counted : (u.countSteps c (s.toCommit c vec l n).handedOver).comb c = u.comb c := by
    unfold State.comb
    rw [combs]
  obtain ⟨run, resume, pause, settled⟩ := State.settleRun_comb ((Engine.handedOver_check _).trans check) cut wf c
  exact ⟨run, resume, pause, by rw [settled, counted]⟩

end Sys2Proof.Machine
end

section
/-! SUPPORT. The commit of a fit: the staged words of its lane, PARK_CODE and the word of CAL_RES (R92 to R94). -/

namespace Sys2Proof.Machine

variable {s : State} {c l kind : Nat}

/-! ## CAL_RES -/

/-- CAL_RES of lane `l` of comb `c`, by the number of its element. -/
theorem calRes_of_element (c : Nat) (hl : l < 64) : Adr.CAL_RES ((64 * c + l) / 64) ((64 * c + l) % 64) = Adr.CAL_RES c l := by
  congr 1 <;> omega

theorem State.calRes_writesOnly (s : State) (c : Nat) (hl : l < 64) (kind outcome : Nat) (oneSided : Bool) (limit : Nat) :
    WritesOnly (· = Adr.CAL_RES c l) s (s.calRes (64 * c + l) kind outcome oneSided limit) := by
  rw [← calRes_of_element c hl]
  have four := (((State.put_writesOnly (s := s) (Adr.CAL_RES ((64 * c + l) / 64) ((64 * c + l) % 64)) Fl.CAL_RES_PROC kind rfl).trans
    (State.put_writesOnly _ Fl.CAL_RES_OUTCOME outcome rfl)).trans (State.putFlag_writesOnly _ Fl.CAL_RES_ONE_SIDED oneSided rfl)).trans
    (State.put_writesOnly _ Fl.CAL_RES_LIMIT limit rfl)
  exact ite_writesOnly (four.trans (State.putFlag_writesOnly _ Fl.CAL_RES_REJECTED true rfl)) four

/-- CAL_RES at `b` reads procedure `k`, outcome `o` and limit `n`; REJECTED is set where the outcome is 2, REJECTED. -/
structure State.ResultReads (t : State) (b k o n : Nat) : Prop where
  proc : t.get b Fl.CAL_RES_PROC = k % 8
  outcome : t.get b Fl.CAL_RES_OUTCOME = o % 8
  limit : t.get b Fl.CAL_RES_LIMIT = n % 16
  rejected : o = 2 → t.flag b Fl.CAL_RES_REJECTED = true

theorem State.onComb_get (s : State) (c : Nat) (f : Comb → Comb) (b : Nat) (g : Field) : (s.onComb c f).get b g = s.get b g := rfl

theorem State.ResultReads.onComb {t : State} {b k o n : Nat} (h : t.ResultReads b k o n) (c : Nat) (f : Comb → Comb) :
    (t.onComb c f).ResultReads b k o n := ⟨h.proc, h.outcome, h.limit, h.rejected⟩

theorem State.calRes_resultReads (h : s.regsWf = true) (c : Nat) (hl : l < 64) (kind outcome : Nat) (oneSided : Bool) (limit : Nat) :
    (s.calRes (64 * c + l) kind outcome oneSided limit).ResultReads (Adr.CAL_RES c l) kind outcome limit := by
  have hb := calRes_of_element c hl
  generalize Adr.CAL_RES c l = b at hb ⊢
  have h1 := State.put_regsWf b Fl.CAL_RES_PROC kind h
  have h2 := State.put_regsWf b Fl.CAL_RES_OUTCOME outcome h1
  have h3 := State.putFlag_regsWf b Fl.CAL_RES_ONE_SIDED oneSided h2
  have h4 := State.put_regsWf b Fl.CAL_RES_LIMIT limit h3
  have proc := (State.get_put_apart h3 b Fl.CAL_RES_LIMIT limit Fl.CAL_RES_PROC (by decide)).trans
    ((State.get_put_apart h2 b Fl.CAL_RES_ONE_SIDED (if oneSided then 1 else 0) _ (by decide)).trans
      ((State.get_put_apart h1 b Fl.CAL_RES_OUTCOME outcome _ (by decide)).trans (State.get_put_same b _ kind (by decide) h)))
  have out := (State.get_put_apart h3 b Fl.CAL_RES_LIMIT limit Fl.CAL_RES_OUTCOME (by decide)).trans
    ((State.get_put_apart h2 b Fl.CAL_RES_ONE_SIDED (if oneSided then 1 else 0) _ (by decide)).trans
      (State.get_put_same b _ outcome (by decide) h1))
  have lim := State.get_put_same b Fl.CAL_RES_LIMIT limit (by decide) h3
  unfold State.calRes
  simp only [hb]
  split
  case isTrue => exact ⟨(State.get_put_apart h4 b _ _ _ (by decide)).trans proc, (State.get_put_apart h4 b _ _ _ (by decide)).trans out,
      (State.get_put_apart h4 b _ _ _ (by decide)).trans lim, fun _ => State.flag_putFlag_same b _ _ (by decide) (by decide) h4⟩
  case isFalse other => exact ⟨proc, out, lim, fun ho => absurd ho other⟩

/-! ## The commit -/

theorem State.paramWrite_writesOnly {w : Nat → Prop} (s : State) (c : Nat) (host : Bool) (ws : List Nat) :
    WritesOnly w s (s.paramWrite c host ws) := by
  unfold State.paramWrite
  refine ite_writesOnly .rfl ?_
  split
  · exact .rfl
  · exact ite_writesOnly ⟨id, fun _ _ _ => rfl⟩ ⟨id, fun _ _ _ => rfl⟩

/-- What the fit of procedure `kind` finds for element `e`. -/
def State.fitOut (s : State) (e kind : Nat) : FitOut := if kind = 1 then s.fitExt e else if kind = 2 then s.fitVpi e else s.fitQuad e

/-- EXT keeps its minimum for VPI. -/
def State.keepMin (s : State) (e kind : Nat) : State :=
  if kind = 1 then s.onLane e fun x => { x with calMin := some x.extMin } else s

/-- Staged as a fit found it: the procedure's own fields, PARK_CODE and VALID. -/
def State.stageFit (s : State) (c l : Nat) (r : FitOut) : State :=
  let s := r.fields.foldl (fun s f => s.put f.1 f.2.1 f.2.2) s
  let s := s.put (Adr.PARK_CODE c l) Fl.PARK_CODE_STAGED (wrap 14 (parkCodeOf s.variant (64 * c + l) r.bias r.ffSlope))
  let s := s.putFlag (Adr.CAL_BIAS c l) Fl.CAL_BIAS_VALID true
  s.paramWrite c false ([1, 10, 11, 12, 13, 14, 15, 16].map (laneAdr (64 * c + l)))

theorem State.fitCommit_of_rejected (h : (s.fitOut (64 * c + l) kind).limit ≠ 0) : s.fitCommit c l kind
    = ((s.keepMin (64 * c + l) kind).calRes (64 * c + l) kind 2 (s.fitOut (64 * c + l) kind).oneSided
        (s.fitOut (64 * c + l) kind).limit).onComb c
      fun x => { x with procs := x.procs.map fun p => { p with lanes := p.lanes.filter (· != l) } } := if_pos h

theorem State.fitCommit_of_accepted (h : (s.fitOut (64 * c + l) kind).limit = 0) : s.fitCommit c l kind
    = (((s.keepMin (64 * c + l) kind).stageFit c l (s.fitOut (64 * c + l) kind)).calRes (64 * c + l) kind 1
        (s.fitOut (64 * c + l) kind).oneSided 0).onComb c fun x => { x with fitted := x.fitted ++ [l] } :=
  if_neg (not_not_intro h)

theorem State.keepMin_writesOnly {w : Nat → Prop} (s : State) (e kind : Nat) : WritesOnly w s (s.keepMin e kind) :=
  ite_writesOnly ⟨id, fun _ _ _ => rfl⟩ .rfl

theorem State.keepMin_variant (s : State) (e kind : Nat) : (s.keepMin e kind).variant = s.variant := by
  unfold State.keepMin
  split <;> rfl

theorem foldl_put_variant (fs : List (Nat × Field × Nat)) (s : State) :
    (fs.foldl (fun s f => s.put f.1 f.2.1 f.2.2) s).variant = s.variant := by
  induction fs generalizing s with
  | nil => rfl
  | cons f fs ih => exact ih _

theorem foldl_put_regsWf (fs : List (Nat × Field × Nat)) (h : s.regsWf = true) :
    (fs.foldl (fun s f => s.put f.1 f.2.1 f.2.2) s).regsWf = true := by
  induction fs generalizing s with
  | nil => exact h
  | cons f fs ih => exact ih (State.put_regsWf _ _ _ h)

theorem wrap_lt (w : Nat) (z : Int) : wrap w z < 2 ^ w := by
  have pos : (0 : Int) < (2 ^ w : Nat) := by positivity
  have low := Int.emod_nonneg z pos.ne'
  have high := Int.emod_lt_of_pos z pos
  unfold wrap
  omega

theorem parkCode_ne_calBias (c l : Nat) : Adr.PARK_CODE c l ≠ Adr.CAL_BIAS c l := by
  unfold Adr.PARK_CODE Adr.CAL_BIAS
  omega

theorem parkCode_ne_calRes (c l : Nat) : Adr.PARK_CODE c l ≠ Adr.CAL_RES c l := by
  unfold Adr.PARK_CODE Adr.CAL_RES
  omega

theorem calBias_ne_calRes (c l : Nat) : Adr.CAL_BIAS c l ≠ Adr.CAL_RES c l := by
  unfold Adr.CAL_BIAS Adr.CAL_RES
  omega

/-- Well formed, PARK_CODE staged for `r`, and BIAS valid. -/
structure State.FitStaged (t : State) (v : Variant) (c l : Nat) (r : FitOut) : Prop where
  wf : t.regsWf = true
  park : t.get (Adr.PARK_CODE c l) Fl.PARK_CODE_STAGED = wrap 14 (parkCodeOf v (64 * c + l) r.bias r.ffSlope)
  valid : t.flag (Adr.CAL_BIAS c l) Fl.CAL_BIAS_VALID = true

theorem State.stageFit_staged (h : s.regsWf = true) (c l : Nat) (r : FitOut) : (s.stageFit c l r).FitStaged s.variant c l r := by
  unfold State.stageFit
  extract_lets u v w
  have hu : u.regsWf = true := foldl_put_regsWf _ h
  have hv : v.regsWf = true := State.put_regsWf _ _ _ hu
  have hw : w.regsWf = true := State.putFlag_regsWf _ _ _ hv
  have checked : WritesOnly (fun _ => False) w (w.paramWrite c false ([1, 10, 11, 12, 13, 14, 15, 16].map (laneAdr (64 * c + l)))) :=
    State.paramWrite_writesOnly ..
  have park : v.get (Adr.PARK_CODE c l) Fl.PARK_CODE_STAGED = wrap 14 (parkCodeOf s.variant (64 * c + l) r.bias r.ffSlope) := by
    rw [← foldl_put_variant r.fields s]
    exact (State.get_put_same _ _ _ (by decide) hu).trans (Nat.mod_eq_of_lt (wrap_lt ..))
  have valid : w.flag (Adr.CAL_BIAS c l) Fl.CAL_BIAS_VALID = true := State.flag_putFlag_same _ _ _ (by decide) (by decide) hv
  exact ⟨checked.wf hw,
    (checked.get hw _ _ not_false).trans ((State.get_put_word _ _ _ _ _ (parkCode_ne_calBias c l) hv).trans park),
    (congrArg (· != 0) (checked.get hw _ _ not_false)).trans valid⟩

/-- A result written, and what the comb keeps of the fit, leave what is staged. -/
theorem State.FitStaged.calRes {t : State} {v : Variant} {r : FitOut} (h : t.FitStaged v c l r) (hl : l < 64) (kind outcome : Nat)
    (oneSided : Bool) (limit : Nat) : (t.calRes (64 * c + l) kind outcome oneSided limit).FitStaged v c l r := by
  obtain ⟨wf, park, valid⟩ := h
  have only := State.calRes_writesOnly t c hl kind outcome oneSided limit
  exact ⟨only.wf wf, (only.get wf _ _ (parkCode_ne_calRes c l)).trans park,
    (congrArg (· != 0) (only.get wf _ _ (calBias_ne_calRes c l))).trans valid⟩

theorem State.FitStaged.onComb {t : State} {v : Variant} {r : FitOut} (h : t.FitStaged v c l r) (d : Nat) (f : Comb → Comb) :
    (t.onComb d f).FitStaged v c l r := ⟨h.wf, h.park, h.valid⟩

/-- A fit beyond a limit is REJECTED with it, and PARK_CODE keeps what is staged. -/
theorem State.fitCommit_rejected (h : s.regsWf = true) (hl : l < 64) (hr : (s.fitOut (64 * c + l) kind).limit ≠ 0) :
    (s.fitCommit c l kind).ResultReads (Adr.CAL_RES c l) kind 2 (s.fitOut (64 * c + l) kind).limit
      ∧ (s.fitCommit c l kind).get (Adr.PARK_CODE c l) Fl.PARK_CODE_STAGED = s.get (Adr.PARK_CODE c l) Fl.PARK_CODE_STAGED := by
  have kept : WritesOnly (fun _ => False) s (s.keepMin (64 * c + l) kind) := State.keepMin_writesOnly ..
  rw [State.fitCommit_of_rejected hr, State.onComb_get]
  exact ⟨(State.calRes_resultReads (kept.wf h) c hl ..).onComb ..,
    ((State.calRes_writesOnly _ c hl ..).get (kept.wf h) _ _ (parkCode_ne_calRes c l)).trans (kept.get h _ _ not_false)⟩

/-- A fit within every limit is ACCEPTED, with BIAS valid and PARK_CODE staged. -/
theorem State.fitCommit_accepted (h : s.regsWf = true) (hl : l < 64) (hr : (s.fitOut (64 * c + l) kind).limit = 0) :
    (s.fitCommit c l kind).ResultReads (Adr.CAL_RES c l) kind 1 0
      ∧ (s.fitCommit c l kind).FitStaged s.variant c l (s.fitOut (64 * c + l) kind) := by
  have kept : WritesOnly (fun _ => False) s (s.keepMin (64 * c + l) kind) := State.keepMin_writesOnly ..
  have staged := State.stageFit_staged (kept.wf h) c l (s.fitOut (64 * c + l) kind)
  rw [State.keepMin_variant] at staged
  rw [State.fitCommit_of_accepted hr]
  exact ⟨(State.calRes_resultReads staged.wf c hl ..).onComb .., (staged.calRes hl ..).onComb ..⟩

end Sys2Proof.Machine
end

section
/-! SUPPORT. CAL_FIT and SADC of a free engine in idle time, and the groups of a FULL calibration (R92, R98, R137). -/

namespace Sys2Proof.Machine

variable {s : State} {c l n : Nat} {p : Proc} {m : SadcIn} {r : RunItem}

/-- With good check bits no word that a routine reads is bad. -/
theorem State.badRead_of_goodWords (h : s.flt.badWords = []) (ws : List Nat) : s.badRead ws = none := by
  unfold State.badRead
  simp [h]

/-- CAL_FIT runs the fit that is outstanding. -/
theorem exec_calFit_of_starts (hp : (s.comb c).procs.head? = some p) (hidle : s.idleLoops c = true) (hdue : s.fitDue c l p = true)
    (hstarts : s.starts c 6 l n) (hgood : s.flt.badWords = []) :
    exec (.calFit c l n) s = .next (s.routine c 6 l n fun _ s => s.fitWork c l) := by
  obtain ⟨free, may, -⟩ := hstarts
  refine congrArg Host.Outcome.next ?_
  unfold calFit
  rw [State.afterIdle_of_free free]
  simp [State.going_of_free free, may, hp, hidle, hdue, State.badRead_of_goodWords hgood]

/-- A segment is outstanding while the self-calibration runs and has not run its segment of this period. -/
theorem State.sadcDue_of_proc (hp : (s.comb c).procs.head? = some p) (hkind : p.kind = 4) (hseg : (s.comb c).segDone = false) :
    s.sadcDue c = true := by
  simp [State.sadcDue, hp, hkind, hseg]

/-- SADC runs the segment that is outstanding. -/
theorem exec_sadc_of_starts (hidle : s.idleLoops c = true) (hdue : s.sadcDue c = true) (hstarts : s.starts c 7 0 m.steps)
    (hgood : s.flt.badWords = []) : exec (.sadc c m) s = .next (s.routine c 7 0 m.steps fun _ s => s.segWork c m) := by
  obtain ⟨free, may, -⟩ := hstarts
  refine congrArg Host.Outcome.next ?_
  unfold sadc
  rw [State.afterIdle_of_free free]
  simp [State.going_of_free free, may, hidle, hdue, State.badRead_of_goodWords hgood]

/-- A comb behind a segment that ends short of 1,024 conversions: the conversions counted, the segment noted, its sums added. -/
def Comb.withSegment (x : Comb) (n : Nat) (m : SadcIn) : Comb :=
  { x with accums := x.accums + n, segDone := true, sadcSums := SadcIn.sums m x.sadcSums x.accums n }

theorem State.segWork_of_short (hdue : s.sadcDue c = true) (hshort : (s.comb c).accums + s.segSize c < 1024) :
    s.segWork c m = (s.notice c).onComb c fun x => x.withSegment (s.segSize c) m := by
  unfold State.segWork
  rw [if_pos hdue]
  exact if_neg (Nat.not_le.mpr hshort)

/-- A fold whose every step that is no idle one adds to a list that stays empty has done nothing. -/
theorem foldl_eq_of_added_none {σ β : Type} {f : σ × List β → β → σ × List β} {l : List β} {acc : σ × List β}
    (h : (l.foldl f acc).2 = []) (hf : ∀ acc x, f acc x = acc ∨ (f acc x).2 = acc.2 ++ [x]) : l.foldl f acc = acc := by
  induction l generalizing acc with
  | nil => rfl
  | cons x l ih =>
    have rest : l.foldl f (f acc x) = f acc x := ih h
    have none : (f acc x).2 = [] := by
      rw [← rest]
      exact h
    rcases hf acc x with idle | added
    · exact rest.trans idle
    · rw [none] at added
      simp at added

/-- A group of which no comb is at work changes nothing. -/
theorem State.startGroup_of_none {g avg : Nat} (h : (s.startGroup g avg).2 = []) : (s.startGroup g avg).1 = s := by
  unfold State.startGroup at h ⊢
  rw [foldl_eq_of_added_none h]
  intro acc c
  dsimp only
  split
  · exact .inr rfl
  · exact .inl rfl

/-- Before its 8 s are over, or its references settled with a pilot OK, the waiting group stays. -/
theorem fullGroupSettle_of_waiting (hr : (s.ctl.cal.runs.find? fun r => r.full && r.combs.isEmpty) = some r)
    (h : s.tick < r.settle ∨ s.groupReady r.group = false) : fullGroupSettle s = s := by
  unfold fullGroupSettle
  rw [hr]
  refine if_neg fun ⟨settled, ready⟩ => ?_
  rcases h with early | unready
  · omega
  · exact absurd ready (by simp [unready])

section Settled
variable (hr : (s.ctl.cal.runs.find? fun r => r.full && r.combs.isEmpty) = some r) (hsettle : r.settle ≤ s.tick)
  (hready : s.groupReady r.group = true)
include hr hsettle hready

/-- The sweeps of a group with combs at work begin. -/
theorem fullGroupSettle_of_work (h : (s.startGroup r.group r.avg).2 ≠ []) : fullGroupSettle s
    = (s.startGroup r.group r.avg).1.setRuns ((s.startGroup r.group r.avg).1.ctl.cal.runs.filter (· != r)
      ++ [{ r with combs := (s.startGroup r.group r.avg).2 }]) := by
  unfold fullGroupSettle
  rw [hr]
  dsimp only
  rw [if_pos ⟨hsettle, hready⟩, if_pos (by simpa using h)]

/-- A group with nothing at work is passed over: the next one settles from now on. -/
theorem fullGroupSettle_of_noWork (h : (s.startGroup r.group r.avg).2 = []) (hg : r.group < 3) :
    fullGroupSettle s = s.setRuns (s.ctl.cal.runs.filter (· != r) ++ [r.nextGroup s.tick]) := by
  unfold fullGroupSettle
  rw [hr]
  dsimp only
  rw [if_pos ⟨hsettle, hready⟩, if_neg (by simp [h]), if_pos hg, State.startGroup_of_none h]

end Settled

end Sys2Proof.Machine
end

section
/-! O10: fits, the self-calibration of the sense ADCs, and the groups of a FULL calibration. -/

namespace Sys2Proof.Machine

/-- Settles O10: a routine's COMMIT does its work and leaves the comb but for its engine; a fit's commit and a waiting group are read
off case by case. -/
theorem fitsSelfCalibrationAndFullGroups : Obligations.FitsSelfCalibrationAndFullGroups := by
  unfold Obligations.FitsSelfCalibrationAndFullGroups
  intro s c hregs htables
  refine ⟨?fit, ?commit, ?segment, ?waiting, ?settled⟩
  case fit =>
    intro l n p hp hidle hdue hstarts hgood
    have lanes := (State.routine_sameLanes hstarts fun _ s => s.fitWork c l).lanes
    obtain ⟨run, resume, pause, comb⟩ := State.routine_comb hstarts (fun _ s => s.fitWork c l)
      ((State.fitWork_kept .rfl c l).tables htables)
    exact ⟨_, exec_calFit_of_starts hp hidle hdue hstarts hgood, lanes, (congrArg Comb.procs comb :)⟩
  case commit =>
    intro l kind _ hl hlow hhigh e r t
    have kindFits : kind % 8 = kind := by omega
    by_cases hr : r.limit = 0
    case pos =>
      obtain ⟨⟨proc, outcome, limit, -⟩, -, park, valid⟩ := State.fitCommit_accepted hregs hl hr
      exact ⟨by rw [if_pos hr]; exact outcome, proc.trans kindFits, by rw [hr]; exact limit, fun _ => ⟨valid, park⟩,
        fun hne => absurd hr hne⟩
    case neg =>
      obtain ⟨⟨proc, outcome, limit, rejected⟩, park⟩ := State.fitCommit_rejected hregs hl hr
      exact ⟨by rw [if_neg hr]; exact outcome, proc.trans kindFits, limit, fun h0 => absurd h0 hr, fun _ => ⟨rejected rfl, park⟩⟩
  case segment =>
    intro m p hp hidle hkind hseg hstarts hgood n
    have hdue := State.sadcDue_of_proc hp hkind hseg
    have runs := exec_sadc_of_starts hidle hdue hstarts hgood
    have lanes := (State.routine_sameLanes hstarts fun _ s => s.segWork c m).lanes
    obtain ⟨run, resume, pause, comb⟩ := State.routine_comb hstarts (fun _ s => s.segWork c m)
      ((State.segWork_kept .rfl c m).tables htables)
    refine ⟨fun hshort => ?_, fun _ => ⟨_, runs, (congrArg Comb.procs comb :)⟩⟩
    rw [State.segWork_of_short hdue hshort] at lanes comb
    rw [State.comb_onComb_same (by exact htables)] at comb
    exact ⟨_, runs, (congrArg Comb.accums comb :), (congrArg Comb.segDone comb :), (congrArg Comb.sadcSums comb :),
      (congrArg Comb.procs comb :), lanes⟩
  case waiting => exact fun r hr h => congrArg Host.Outcome.next (fullGroupSettle_of_waiting hr h)
  case settled =>
    intro r hr hsettle hready
    refine ⟨fun hwork => ⟨_, congrArg Host.Outcome.next (fullGroupSettle_of_work hr hsettle hready hwork), rfl⟩, fun hnone hg => ?_⟩
    rw [State.startGroup_of_none hnone]
    exact ⟨_, congrArg Host.Outcome.next (fullGroupSettle_of_noWork hr hsettle hready hnone hg), rfl⟩

end Sys2Proof.Machine
end

section
/-! O18: a slot with bad check bits on a DX512-C, whose slots lie in working SRAM. -/

namespace Sys2Proof.Machine

/-- A PLAN_READ of slot 3, taken by an owner, for a buffer of the 20 KiB of a slot. -/
def slotReadCommand : Taken :=
  { op := 0x0105, flags := 0, tag := 0, bufAddr := 0, bufLen := 20480, params := [3], index := 0, buf := [], bufOk := true,
    sigOk := true, role := 1, mask := 0x3f, grant := 0, phase := .ready }

/-- A DX512-C that runs, whose session 5 has taken that command; slot 3 is listed with bad check bits. DRAM_PLAN is a source of the
DRAM unit, which a DX512-C has not (R3, R313), so it never asserts; no hypothesis on the state excludes the bad check bits. -/
def sramSlotState : State :=
  { State.reset with
    variant := .c512
    host := { sess := [(5, { taken := some slotReadCommand })] }
    ctl := { boot := { gwq := true }, flt := { badItems := [(0xA5, 3)] } } }

theorem sramSlotState_wf : sramSlotState.regsWf = true := by decide

theorem sramSlotState_runs : sramSlotState.runs 5 0x0105 slotReadCommand := by decide

theorem sramSlotState_slot : sramSlotState.pastBulk 5 slotReadCommand.bufAddr slotReadCommand.bufLen = false
    ∧ slotReadCommand.p 24 1 < numSlots sramSlotState.variant ∧ 20480 ≤ slotReadCommand.bufLen
    ∧ sramSlotState.checkBad 0xA5 (slotReadCommand.p 24 1) = true := by decide

theorem planRead_sramSlotState_valid :
    (planRead 5 sramSlotState).flag (Adr.FLT_SRC 0xA5) Fl.FLT_SRC_VALID = false := by decide +kernel

/-- Refutes O18: on a DX512-C DRAM_PLAN does not exist, and a PLAN_READ that finds bad check bits in `sramSlotState` captures nothing. -/
theorem not_planSlotsAreCompiledReadAndFreed : ¬ Obligations.PlanSlotsAreCompiledReadAndFreed := by
  unfold Obligations.PlanSlotsAreCompiledReadAndFreed
  intro h
  obtain ⟨-, -, -, hread, -⟩ := h sramSlotState sramSlotState_wf
  obtain ⟨hbulk, hslot, hlen, hbad⟩ := sramSlotState_slot
  obtain ⟨u, -, hu, -, hvalid, -⟩ := hread 5 slotReadCommand sramSlotState_runs rfl hbulk hslot hlen hbad
  obtain rfl : planRead 5 sramSlotState = u := Host.Outcome.next.inj hu
  exact absurd hvalid (by rw [planRead_sramSlotState_valid]; decide)

end Sys2Proof.Machine
end

section
/-! SUPPORT. What events, completions and counters, the ledger, outputs, routines and GO_OK leave alone, each said once. -/

namespace Sys2Proof.Machine

variable {s t : State}

/-! ## Events and completions change registers and the host interface alone -/

/-- From `s` to `t` nothing but registers and the host interface changes. -/
structure HostOnly (s t : State) : Prop where
  eq : t = { s with regs := t.regs, host := t.host }

theorem HostOnly.rfl : HostOnly s s := ⟨Eq.refl _⟩

theorem HostOnly.trans {s₀ : State} (h : HostOnly s₀ s) (k : HostOnly s t) : HostOnly s₀ t :=
  ⟨k.eq.trans (congrArg (fun u : State => { u with regs := t.regs, host := t.host }) h.eq)⟩

theorem ite_hostOnly {c : Prop} [Decidable c] {a b : State} (ha : HostOnly s a) (hb : HostOnly s b) :
    HostOnly s (if c then a else b) := by
  split
  · exact ha
  · exact hb

theorem foldl_hostOnly {β : Type} {f : State → β → State} (hf : ∀ s x, HostOnly s (f s x)) (l : List β) (s : State) :
    HostOnly s (l.foldl f s) := by
  induction l generalizing s with
  | nil => exact .rfl
  | cons x l ih => exact (hf s x).trans (ih (f s x))

theorem HostOnly.led (h : HostOnly s t) : t.led = s.led := by rw [h.eq]
theorem HostOnly.ctl (h : HostOnly s t) : t.ctl = s.ctl := by rw [h.eq]
theorem HostOnly.pair (h : HostOnly s t) : t.pair = s.pair := by rw [h.eq]
theorem HostOnly.tick (h : HostOnly s t) : t.tick = s.tick := by rw [h.eq]
theorem HostOnly.time (h : HostOnly s t) : t.time = s.time := by rw [h.eq]
theorem HostOnly.variant (h : HostOnly s t) : t.variant = s.variant := by rw [h.eq]

theorem State.put_hostOnly (s : State) (b : Nat) (f : Field) (n : Nat) : HostOnly s (s.put b f n) := ⟨rfl⟩

theorem State.putFlag_hostOnly (s : State) (b : Nat) (f : Field) (x : Bool) : HostOnly s (s.putFlag b f x) := ⟨rfl⟩

theorem State.putPair_hostOnly (s : State) (b : Nat) (lo hi : Field) (n : Nat) : HostOnly s (s.putPair b lo hi n) :=
  (s.put_hostOnly ..).trans (State.put_hostOnly ..)

theorem State.hubEvent_hostOnly (s : State) (ev n : Nat) : HostOnly s (s.hubEvent ev n) := by
  unfold State.hubEvent
  refine ite_hostOnly .rfl (foldl_hostOnly (fun s i => ?_) _ s)
  have kCount := fun m => s.putPair_hostOnly (Adr.PERF_HC i) Fl.PERF_HC_VAL_LO Fl.PERF_HC_VAL_HI m
  exact ite_hostOnly (ite_hostOnly ((kCount _).trans (State.putFlag_hostOnly ..)) (kCount _)) .rfl

theorem State.setSess_hostOnly (s : State) (q : Nat) (x : Sess) : HostOnly s (s.setSess q x) := ⟨rfl⟩

theorem State.onSess_hostOnly (s : State) (q : Nat) (f : Sess → Sess) : HostOnly s (s.onSess q f) := by
  unfold State.onSess
  split
  · exact ⟨rfl⟩
  · exact .rfl

theorem State.dmaFault_hostOnly (s : State) (q : Nat) : HostOnly s (s.dmaFault q) := by
  unfold State.dmaFault
  exact ite_hostOnly ⟨rfl⟩ .rfl

theorem State.signal_hostOnly (s : State) (fn vec : Nat) : HostOnly s (s.signal fn vec) := by
  unfold State.signal State.sendMsi
  refine ite_hostOnly .rfl (ite_hostOnly (HostOnly.trans ?_ (State.hubEvent_hostOnly ..)) ⟨rfl⟩)
  exact ⟨rfl⟩

theorem State.writeStat_hostOnly (s : State) (q ring : Nat) : HostOnly s (s.writeStat q ring) := by
  unfold State.writeStat
  split
  · exact .rfl
  · refine ite_hostOnly .rfl (ite_hostOnly (s.dmaFault_hostOnly q) ?_)
    have kSess := fun (x : Sess) => (s.hubEvent_hostOnly 0x0C 1).trans ((s.hubEvent 0x0C 1).setSess_hostOnly q x)
    exact ite_hostOnly (kSess _) (ite_hostOnly (kSess _) ((kSess _).trans (State.signal_hostOnly ..)))

theorem State.sendEth_hostOnly (s : State) (q ty count index : Nat) (body : List Byte) :
    HostOnly s (s.sendEth q ty count index body) := by
  unfold State.sendEth
  split
  · exact .rfl
  · split
    · exact .rfl
    · have kSent := fun (x : Sess) => (s.setSess_hostOnly q x).trans ((s.setSess q x).hubEvent_hostOnly 0x0D 1)
      exact ite_hostOnly ((kSent _).trans ⟨rfl⟩) ((kSent _).trans ⟨rfl⟩)

theorem State.writeCpl_hostOnly (s : State) (q : Nat) (e : List Byte) : HostOnly s (s.writeCpl q e) := by
  unfold State.writeCpl
  split
  · exact .rfl
  · refine ite_hostOnly .rfl (ite_hostOnly (s.setSess_hostOnly ..) (ite_hostOnly (s.dmaFault_hostOnly q) (ite_hostOnly ?_ ?_)))
    · exact (s.setSess_hostOnly ..).trans (State.sendEth_hostOnly ..)
    · exact (s.setSess_hostOnly ..).trans ((State.hubEvent_hostOnly ..).trans (State.writeStat_hostOnly ..))

theorem State.pushEvts_hostOnly (s : State) (q : Nat) (es : List (List Byte)) : HostOnly s (s.pushEvts q es) := by
  unfold State.pushEvts
  split
  · exact .rfl
  · refine ite_hostOnly (s.dmaFault_hostOnly q) (ite_hostOnly ?_ ?_)
    · exact (s.setSess_hostOnly ..).trans (State.sendEth_hostOnly ..)
    · exact (s.setSess_hostOnly ..).trans ((State.hubEvent_hostOnly ..).trans (State.writeStat_hostOnly ..))

theorem State.postAt_hostOnly (s : State) (q code dom tq ns32 frac8 : Nat) (payload : List Byte) :
    HostOnly s (s.postAt q code dom tq ns32 frac8 payload) := by
  unfold State.postAt
  refine ite_hostOnly .rfl ?_
  split
  · exact .rfl
  · exact ite_hostOnly (State.pushEvts_hostOnly ..) (HostOnly.trans ⟨rfl⟩ (State.onSess_hostOnly ..))

theorem State.postOwnersAt_hostOnly (s : State) (code ns32 frac8 : Nat) (payload : List Byte) :
    HostOnly s (s.postOwnersAt code ns32 frac8 payload) :=
  foldl_hostOnly (fun s _ => ite_hostOnly (s.postAt_hostOnly ..) .rfl) _ s

theorem State.postOwners_hostOnly (s : State) (code : Nat) (payload : List Byte) : HostOnly s (s.postOwners code payload) :=
  State.postOwnersAt_hostOnly ..

theorem State.postOut_hostOnly (s : State) (o : Nat) : HostOnly s (s.postOut o) := by
  refine foldl_hostOnly (fun s q => ?_) _ s
  split
  · exact .rfl
  · exact ite_hostOnly (State.postAt_hostOnly ..) .rfl

/-! ## A completion, behind which a warm reset may go on -/

theorem State.complete_eq (s : State) (q status : Nat) (result : List Byte) :
    s.complete q status result = s ∨ ∃ t, HostOnly s t ∧ s.complete q status result = t.warmGoes := by
  unfold State.complete
  split
  · exact .inl rfl
  · split
    · exact .inl rfl
    · exact .inr ⟨_, (s.setSess_hostOnly ..).trans (State.writeCpl_hostOnly ..), rfl⟩

/-- A completion is an event unless a warm reset waits for it. -/
theorem State.complete_hostOnly (h : s.boot.warmDue = false) (q status : Nat) (result : List Byte) :
    HostOnly s (s.complete q status result) := by
  obtain heq | ⟨t, ht, heq⟩ := s.complete_eq q status result
  · rw [heq]
    exact .rfl
  · have hDue : t.ctl.boot.warmDue = false := by rw [ht.ctl]; exact h
    rw [heq, State.warmGoes, hDue]
    exact ht

/-- A warm reset that goes on resets hub cores: the ledger, lanes and outputs, the plan in force, parks and slots stay. -/
theorem State.resetCores_led (s : State) : s.resetCores.led = s.led := by
  unfold State.resetCores
  simp only [apply_ite State.led, State.count_led, State.put_led, ite_self]

theorem State.resetCores_lanes (s : State) : s.resetCores.ctl.lanes = s.ctl.lanes := by
  unfold State.resetCores
  simp only [State.count_ctl, apply_ite State.ctl, State.put_ctl, ite_self]

theorem State.resetCores_outs (s : State) : s.resetCores.ctl.outs = s.ctl.outs := by
  unfold State.resetCores
  simp only [State.count_ctl, apply_ite State.ctl, State.put_ctl, ite_self]

theorem State.resetCores_plan (s : State) :
    s.resetCores.plan.parks = s.plan.parks ∧ s.resetCores.plan.inForce = s.plan.inForce := by
  unfold State.resetCores State.plan
  simp only [State.count_ctl, apply_ite State.ctl, State.put_ctl, ite_self, and_self]

end Sys2Proof.Machine
end

section
/-! SUPPORT. Writing the ledger: what it changes, when an entry stands in the ring behind it, and what else leaves the ledger alone. -/

namespace Sys2Proof.Machine

variable {s t : State}

/-- From `s` to `t` registers, the ledger with its flag in flash, the matrix and the fault unit alone change. -/
structure LedgerOnly (s t : State) : Prop where
  eq : t = { s with regs := t.regs, led := t.led, flash := t.flash, bus := t.bus, ctl := { s.ctl with flt := t.ctl.flt } }

theorem LedgerOnly.rfl : LedgerOnly s s := ⟨Eq.refl _⟩

theorem LedgerOnly.trans {s₀ : State} (h : LedgerOnly s₀ s) (k : LedgerOnly s t) : LedgerOnly s₀ t :=
  ⟨k.eq.trans (congrArg (fun u : State =>
    { u with regs := t.regs, led := t.led, flash := t.flash, bus := t.bus, ctl := { u.ctl with flt := t.ctl.flt } }) h.eq)⟩

theorem ite_ledgerOnly {c : Prop} [Decidable c] {a b : State} (ha : LedgerOnly s a) (hb : LedgerOnly s b) :
    LedgerOnly s (if c then a else b) := by
  split
  · exact ha
  · exact hb

theorem LedgerOnly.lanes (h : LedgerOnly s t) : t.ctl.lanes = s.ctl.lanes := by rw [h.eq]
theorem LedgerOnly.outs (h : LedgerOnly s t) : t.ctl.outs = s.ctl.outs := by rw [h.eq]
theorem LedgerOnly.plan (h : LedgerOnly s t) : t.plan = s.plan := by rw [h.eq]; rfl
theorem LedgerOnly.boot (h : LedgerOnly s t) : t.boot = s.boot := by rw [h.eq]; rfl
theorem LedgerOnly.host (h : LedgerOnly s t) : t.host = s.host := by rw [h.eq]
theorem LedgerOnly.pair (h : LedgerOnly s t) : t.pair = s.pair := by rw [h.eq]
theorem LedgerOnly.tick (h : LedgerOnly s t) : t.tick = s.tick := by rw [h.eq]
theorem LedgerOnly.time (h : LedgerOnly s t) : t.time = s.time := by rw [h.eq]
theorem LedgerOnly.variant (h : LedgerOnly s t) : t.variant = s.variant := by rw [h.eq]

theorem State.put_ledgerOnly (s : State) (b : Nat) (f : Field) (n : Nat) : LedgerOnly s (s.put b f n) := ⟨rfl⟩

theorem State.ledgerStat_ledgerOnly (s : State) : LedgerOnly s s.ledgerStat := by
  unfold State.ledgerStat State.putPair
  exact (((((s.put_ledgerOnly ..).trans (State.put_ledgerOnly ..)).trans (State.put_ledgerOnly ..)).trans
    (State.put_ledgerOnly ..)).trans (State.put_ledgerOnly ..)).trans (State.put_ledgerOnly ..)

theorem State.checkWrite_ledgerOnly (s : State) (n key : Nat) : LedgerOnly s (s.checkWrite n key) := by
  unfold State.checkWrite
  exact ite_ledgerOnly .rfl (ite_ledgerOnly ⟨rfl⟩ ⟨rfl⟩)

theorem State.storeEntry_ledgerOnly (s : State) (sec : Bool) : LedgerOnly s (s.storeEntry sec) := by
  unfold State.storeEntry State.busIssue State.busTarget
  exact ⟨rfl⟩

/-- What the ring takes: the entry at its end. -/
def State.withEntry (s : State) (e : LEntry) : State :=
  { s with
    led := { s.led with
      entries := s.led.entries ++ [e], last := some e, uncov := s.led.uncov + 1
      uncovFirst := if s.led.uncov = 0 then e.seq else s.led.uncovFirst
      uncovTick := if s.led.uncov = 0 then s.tick else s.led.uncovTick }
    flash := { s.flash with unsealed := true } }

theorem State.pushEntry_of_room (hr : s.boot.recovery = false) (hn : s.led.entries.length < ringSize s.variant) (e : LEntry) :
    s.pushEntry e = (((s.withEntry e).ledgerStat.checkWrite 0xA6 e.seq).checkWrite 0xA3 0).storeEntry (decide (e.ty ≤ 2)) := by
  unfold State.pushEntry
  rw [if_neg]
  · rfl
  · simp [show s.ctl.boot.recovery = false from hr, hn]

theorem State.pushEntry_ledgerOnly (s : State) (e : LEntry) : LedgerOnly s (s.pushEntry e) := by
  unfold State.pushEntry
  refine ite_ledgerOnly .rfl ?_
  exact (((LedgerOnly.trans ⟨rfl⟩ (State.ledgerStat_ledgerOnly _)).trans (State.checkWrite_ledgerOnly ..)).trans
    (State.checkWrite_ledgerOnly ..)).trans (State.storeEntry_ledgerOnly ..)

theorem State.flushOverflow_ledgerOnly (s : State) : LedgerOnly s s.flushOverflow := by
  unfold State.flushOverflow
  exact ite_ledgerOnly .rfl ((s.pushEntry_ledgerOnly _).trans (LedgerOnly.trans ⟨rfl⟩ (State.ledgerStat_ledgerOnly _)))

theorem State.logAt_ledgerOnly (s : State) (ty q role sec ns : Nat) (body : List Byte) :
    LedgerOnly s (s.logAt ty q role sec ns body) :=
  s.flushOverflow_ledgerOnly.trans (State.pushEntry_ledgerOnly ..)

theorem State.logInvol_ledgerOnly (s : State) (k : Option Nat) (ty : Nat) (body : List Byte) :
    LedgerOnly s (s.logInvol k ty body) := by
  unfold State.logInvol State.logInvolAt
  refine ite_ledgerOnly (s.flushOverflow_ledgerOnly.trans (State.pushEntry_ledgerOnly ..)) ?_
  split
  · exact s.flushOverflow_ledgerOnly
  · exact s.flushOverflow_ledgerOnly.trans (LedgerOnly.trans ⟨rfl⟩ (State.ledgerStat_ledgerOnly _))

/-! ## Entries and reservations behind a write -/

@[simp] theorem State.ledgerStat_led (s : State) : s.ledgerStat.led = s.led := rfl

@[simp] theorem State.checkWrite_led (s : State) (n key : Nat) : (s.checkWrite n key).led = s.led := by
  unfold State.checkWrite
  simp only [apply_ite State.led, State.setFlt_led, ite_self]

@[simp] theorem State.storeEntry_led (s : State) (sec : Bool) : (s.storeEntry sec).led = s.led := by
  unfold State.storeEntry State.busIssue State.busTarget
  rfl

theorem State.pushEntry_led_of_room (hr : s.boot.recovery = false) (hn : s.led.entries.length < ringSize s.variant) (e : LEntry) :
    (s.pushEntry e).led = (s.withEntry e).led := by
  rw [State.pushEntry_of_room hr hn]
  simp only [State.storeEntry_led, State.checkWrite_led, State.ledgerStat_led]

theorem State.pushEntry_parkRes (s : State) (e : LEntry) : (s.pushEntry e).led.parkRes = s.led.parkRes := by
  unfold State.pushEntry
  simp only [apply_ite State.led, apply_ite Ledger.parkRes, State.storeEntry_led, State.checkWrite_led, State.ledgerStat_led, ite_self]

theorem State.flushOverflow_parkRes (s : State) : s.flushOverflow.led.parkRes = s.led.parkRes := by
  unfold State.flushOverflow
  split
  · rfl
  · exact State.pushEntry_parkRes ..

theorem State.logAt_parkRes (s : State) (ty q role sec ns : Nat) (body : List Byte) :
    (s.logAt ty q role sec ns body).led.parkRes = s.led.parkRes :=
  (State.pushEntry_parkRes ..).trans s.flushOverflow_parkRes

/-- The OVERFLOW entry takes one place, and only where the ring has involuntary room. -/
theorem State.flushOverflow_length (s : State) :
    s.led.entries.length ≤ s.flushOverflow.led.entries.length
      ∧ (s.flushOverflow.led.entries.length = s.led.entries.length
        ∨ s.involRoom = true ∧ s.flushOverflow.led.entries.length = s.led.entries.length + 1) := by
  unfold State.flushOverflow
  split
  · exact ⟨le_refl _, .inl rfl⟩
  · next h =>
    have hRoom : s.involRoom = true := by simpa using (not_or.mp h).2
    unfold State.pushEntry
    dsimp only
    split
    · exact ⟨le_refl _, .inl rfl⟩
    · simp [hRoom]

/-- A voluntary entry stands at the end of the ring where a place is free behind an OVERFLOW. -/
theorem State.logged_logAt (hr : s.boot.recovery = false) (hFree : 1 ≤ s.ledgerFree) (hMore : s.involRoom = true → 2 ≤ s.ledgerFree)
    (ty q role sec ns : Nat) (body : List Byte) : Logged s (s.logAt ty q role sec ns body) ty q := by
  obtain ⟨hGrow, hLength⟩ := s.flushOverflow_length
  have kFlush := s.flushOverflow_ledgerOnly
  have hPlace : s.flushOverflow.led.entries.length < ringSize s.flushOverflow.variant := by
    unfold State.ledgerFree at hFree hMore
    rw [kFlush.variant]
    rcases hLength with h | ⟨hRoom, h⟩
    · omega
    · have := hMore hRoom
      omega
  have hBoot : s.flushOverflow.boot.recovery = false := by rw [kFlush.boot]; exact hr
  have hLed := State.pushEntry_led_of_room hBoot hPlace (s.flushOverflow.mkEntry ty 0 q role sec ns body)
  refine ⟨s.flushOverflow.mkEntry ty 0 q role sec ns body, ?_, rfl, rfl, ?_⟩
  · unfold State.logAt
    rw [hLed]
    exact List.getLast?_concat ..
  · unfold State.logAt
    rw [hLed]
    simp only [State.withEntry, List.length_append, List.length_singleton]
    omega

/-- What follows an entry and leaves the ring keeps it logged. -/
theorem Logged.of_entries {s₀ u : State} {ty q : Nat} (h : Logged s t ty q) (hs : s₀.led.entries = s.led.entries)
    (hu : u.led.entries = t.led.entries) : Logged s₀ u ty q := by
  unfold Logged at h ⊢
  rw [hs, hu]
  exact h

/-! ## What leaves the ledger alone -/

theorem foldl_led {β : Type} {f : State → β → State} (hf : ∀ s x, (f s x).led = s.led) (l : List β) (s : State) :
    (l.foldl f s).led = s.led := by
  induction l generalizing s with
  | nil => rfl
  | cons x l ih => rw [List.foldl_cons, ih, hf]

@[simp] theorem State.refreshOuts_led (s : State) : s.refreshOuts.led = s.led :=
  foldl_led (fun s _ => by simp only [apply_ite State.led, (State.postOut_hostOnly ..).led, State.setOut_led, ite_self]) _ s

@[simp] theorem State.interrupt_led (s : State) (c : Nat) (l : List (Nat × Nat)) : (s.interrupt c l).led = s.led := by
  unfold State.interrupt
  split
  · rfl
  · split <;> rfl

@[simp] theorem State.interrupts_led (r s : State) : (State.interrupts r s).led = s.led := by
  refine foldl_led (fun s e => ?_) _ s
  split
  · simp only [apply_ite State.led, State.interrupt_led, State.onComb, State.setComb_led, ite_self]
  · rfl

/-- From `s` to `t` registers and the core select port alone change. -/
structure GoOnly (s t : State) : Prop where
  eq : t = { s with regs := t.regs, ctl := { s.ctl with csp := t.ctl.csp } }

theorem State.refreshGo_goOnly (s : State) : GoOnly s s.refreshGo := by
  unfold State.refreshGo
  dsimp only
  split
  · exact ⟨rfl⟩
  · exact ⟨rfl⟩

@[simp] theorem State.refreshGo_led (s : State) : s.refreshGo.led = s.led := by rw [s.refreshGo_goOnly.eq]
@[simp] theorem State.refreshGo_plan (s : State) : s.refreshGo.plan = s.plan := by rw [s.refreshGo_goOnly.eq]; rfl
@[simp] theorem State.refreshGo_host (s : State) : s.refreshGo.host = s.host := by rw [s.refreshGo_goOnly.eq]
@[simp] theorem State.refreshGo_pair (s : State) : s.refreshGo.pair = s.pair := by rw [s.refreshGo_goOnly.eq]
@[simp] theorem State.refreshGo_time (s : State) : s.refreshGo.time = s.time := by rw [s.refreshGo_goOnly.eq]
@[simp] theorem State.refreshGo_tick (s : State) : s.refreshGo.tick = s.tick := by rw [s.refreshGo_goOnly.eq]
@[simp] theorem State.refreshGo_variant (s : State) : s.refreshGo.variant = s.variant := by rw [s.refreshGo_goOnly.eq]
@[simp] theorem State.refreshGo_boot (s : State) : s.refreshGo.boot = s.boot := by rw [s.refreshGo_goOnly.eq]; rfl

/-- A conversion changes the words of the DACs alone. -/
theorem State.convert_eq (s : State) (es : List Nat) :
    s.convert es = { s with ctl := { s.ctl with dacs := (s.convert es).ctl.dacs } } := by
  unfold State.convert
  split
  · rfl
  · rfl

@[simp] theorem State.convert_led (s : State) (es : List Nat) : (s.convert es).led = s.led := by rw [s.convert_eq es]
@[simp] theorem State.convert_variant (s : State) (es : List Nat) : (s.convert es).variant = s.variant := by rw [s.convert_eq es]
@[simp] theorem State.convert_time (s : State) (es : List Nat) : (s.convert es).time = s.time := by rw [s.convert_eq es]
@[simp] theorem State.convert_rd (s : State) (es : List Nat) (a : Nat) : (s.convert es).rd a = s.rd a := by rw [s.convert_eq es]; rfl
@[simp] theorem State.convert_plan (s : State) (es : List Nat) : (s.convert es).plan = s.plan := by rw [s.convert_eq es]; rfl
@[simp] theorem State.convert_boot (s : State) (es : List Nat) : (s.convert es).boot = s.boot := by rw [s.convert_eq es]; rfl
@[simp] theorem State.convert_tick (s : State) (es : List Nat) : (s.convert es).tick = s.tick := by rw [s.convert_eq es]

theorem State.convert_regsWf (h : s.regsWf = true) (es : List Nat) : (s.convert es).regsWf = true := by
  rw [s.convert_eq es]
  exact h

@[simp] theorem State.complete_led (s : State) (q status : Nat) (result : List Byte) : (s.complete q status result).led = s.led := by
  obtain h | ⟨t, ht, h⟩ := s.complete_eq q status result
  · rw [h]
  · rw [h, State.warmGoes, apply_ite State.led, State.resetCores_led, ite_self, ht.led]

/-! ## What leaves lanes and outputs alone -/

theorem State.interrupt_sameLanes (s : State) (c : Nat) (l : List (Nat × Nat)) : SameLanes s (s.interrupt c l) := by
  unfold State.interrupt
  split
  · exact .rfl
  · exact ite_sameLanes ⟨rfl, rfl⟩ ⟨rfl, rfl⟩

theorem State.interrupts_sameLanes (r s : State) : SameLanes s (State.interrupts r s) := by
  refine foldl_sameLanes (fun s e => ?_) _ s
  split
  · exact ite_sameLanes (s.interrupt_sameLanes ..) (ite_sameLanes .rfl (s.onComb_sameLanes ..))
  · exact .rfl

theorem State.refreshGo_sameLanes (s : State) : SameLanes s s.refreshGo := by
  rw [s.refreshGo_goOnly.eq]
  exact ⟨rfl, rfl⟩

theorem State.convert_sameLanes (s : State) (es : List Nat) : SameLanes s (s.convert es) := by
  rw [s.convert_eq es]
  exact ⟨rfl, rfl⟩

theorem State.setPlan_sameLanes (s : State) (x : PlanUnit) : SameLanes s (s.setPlan x) := ⟨rfl, rfl⟩

theorem LedgerOnly.sameLanes (h : LedgerOnly s t) : SameLanes s t := ⟨h.lanes, h.outs⟩

theorem HostOnly.sameLanes (h : HostOnly s t) : SameLanes s t := .of_ctl h.ctl

theorem State.complete_sameLanes (s : State) (q status : Nat) (result : List Byte) : SameLanes s (s.complete q status result) := by
  obtain h | ⟨t, ht, h⟩ := s.complete_eq q status result
  · rw [h]
    exact .rfl
  · rw [h, State.warmGoes]
    exact ite_sameLanes (ht.sameLanes.trans ⟨t.resetCores_lanes, t.resetCores_outs⟩) ht.sameLanes

/-! ## The plan behind them -/

theorem State.complete_plan (s : State) (q status : Nat) (result : List Byte) :
    (s.complete q status result).plan.parks = s.plan.parks ∧ (s.complete q status result).plan.inForce = s.plan.inForce := by
  obtain h | ⟨t, ht, h⟩ := s.complete_eq q status result
  · rw [h]
    exact ⟨rfl, rfl⟩
  · have hPlan : t.plan = s.plan := congrArg Ctl.plan ht.ctl
    rw [h, State.warmGoes, ← hPlan]
    split
    · exact t.resetCores_plan
    · exact ⟨rfl, rfl⟩

end Sys2Proof.Machine
end

section
/-! SUPPORT. GO_OK as the hub forms it (R124): what refreshGo writes, and from what. -/

namespace Sys2Proof.Machine

variable {s : State}

/-- GO_OK as the conditions of R124 give it. -/
def State.goForms (s : State) : Bool :=
  s.powered 31 && s.flag Adr.PLAN_STAT Fl.PLAN_STAT_ARMED && s.flag Adr.PLAN_CFG Fl.PLAN_CFG_CSP_GO_EN
    && s.plan.commits.isEmpty && s.schedState != 1 && s.schedState != 2 && s.ledgerRoom 1
    && decide (s.role ≠ 2 ∧ (s.role ≠ 1 ∨ s.flag Adr.PAIR_STAT Fl.PAIR_STAT_SOLO ∨ s.flag Adr.PAIR_STAT Fl.PAIR_STAT_LINK_UP))
    && decide (s.plan.goHold ≤ s.tick) && !s.plan.goStop

/-- PENDING as it counts the accepted commits. -/
def State.showPending (s : State) : State := s.put Adr.PLAN_STAT Fl.PLAN_STAT_PENDING s.plan.commits.length

theorem State.refreshGo_regs (s : State) :
    s.refreshGo.regs = (s.showPending.putFlag Adr.PLAN_STAT Fl.PLAN_STAT_GO_OK s.showPending.goForms).regs := by
  unfold State.refreshGo
  dsimp only
  split
  · rfl
  · rfl

theorem State.refreshGo_goHub (s : State) : s.refreshGo.ctl.csp.goHub = s.showPending.goForms := by
  unfold State.refreshGo
  dsimp only
  split
  · next h => exact h
  · rfl

theorem State.refreshGo_goOk (s : State) : s.refreshGo.ctl.csp.goOk = s.ctl.csp.goOk := by
  unfold State.refreshGo
  dsimp only
  split
  · rfl
  · rfl

theorem State.refreshGo_rd_eq (s : State) (a : Nat) :
    s.refreshGo.rd a = (s.showPending.putFlag Adr.PLAN_STAT Fl.PLAN_STAT_GO_OK s.showPending.goForms).rd a := by
  unfold State.rd
  rw [s.refreshGo_regs, s.refreshGo_variant]
  rfl

theorem State.refreshGo_regsWf (h : s.regsWf = true) : s.refreshGo.regsWf = true := by
  have hw : (s.showPending.putFlag Adr.PLAN_STAT Fl.PLAN_STAT_GO_OK s.showPending.goForms).regsWf = true :=
    State.putFlag_regsWf _ _ _ (State.put_regsWf _ _ _ h)
  unfold State.regsWf at hw ⊢
  rw [s.refreshGo_regs, s.refreshGo_variant]
  exact hw

theorem State.refreshGo_writesOnly (s : State) : WritesOnly (· = Adr.PLAN_STAT) s s.refreshGo where
  wf := State.refreshGo_regsWf
  rd := fun h a ha => by
    rw [s.refreshGo_rd_eq]
    exact ((s.put_writesOnly Adr.PLAN_STAT Fl.PLAN_STAT_PENDING _ rfl).trans (State.putFlag_writesOnly _ _ _ rfl)).rd h a ha

/-- The fields of PLAN_STAT beside PENDING and GO_OK stay. -/
theorem State.refreshGo_get_apart (h : s.regsWf = true) (g : Field) (hp : g.apart Fl.PLAN_STAT_PENDING = true)
    (hg : g.apart Fl.PLAN_STAT_GO_OK = true) : s.refreshGo.get Adr.PLAN_STAT g = s.get Adr.PLAN_STAT g := by
  unfold State.get
  rw [s.refreshGo_rd_eq]
  exact (State.get_put_apart (State.put_regsWf _ _ _ h) Adr.PLAN_STAT Fl.PLAN_STAT_GO_OK _ g hg).trans
    (State.get_put_apart h Adr.PLAN_STAT Fl.PLAN_STAT_PENDING _ g hp)

/-- The count of accepted commits is none of the conditions. -/
theorem State.showPending_goForms (h : s.regsWf = true) : s.showPending.goForms = s.goForms := by
  have kOther : WritesOnly (· = Adr.PLAN_STAT) s s.showPending := s.put_writesOnly _ _ _ rfl
  have hFlag : ∀ (b : Nat) (f : Field), b + f.off ≠ Adr.PLAN_STAT → s.showPending.flag b f = s.flag b f :=
    fun b f hb => congrArg (· != 0) (kOther.get h b f hb)
  have hArmed : s.showPending.flag Adr.PLAN_STAT Fl.PLAN_STAT_ARMED = s.flag Adr.PLAN_STAT Fl.PLAN_STAT_ARMED :=
    State.flag_put_apart h _ _ _ _ (by decide)
  have hRole : s.showPending.role = s.role := kOther.get h _ _ (by decide)
  have hSched : s.showPending.schedState = s.schedState := kOther.get h _ _ (by decide)
  have hPower : s.showPending.powered 31 = s.powered 31 :=
    congrArg (·.testBit 31) (kOther.get h Adr.PWR_STAT Fl.PWR_STAT_PG (by decide))
  unfold State.goForms
  rw [hArmed, hRole, hSched, hPower, hFlag Adr.PLAN_CFG Fl.PLAN_CFG_CSP_GO_EN (by decide),
    hFlag Adr.PAIR_STAT Fl.PAIR_STAT_SOLO (by decide), hFlag Adr.PAIR_STAT Fl.PAIR_STAT_LINK_UP (by decide)]
  rfl

theorem State.refreshGo_flag (h : s.regsWf = true) : s.refreshGo.flag Adr.PLAN_STAT Fl.PLAN_STAT_GO_OK = s.goForms := by
  unfold State.flag State.get
  rw [s.refreshGo_rd_eq, ← State.showPending_goForms h]
  exact State.flag_putFlag_same Adr.PLAN_STAT Fl.PLAN_STAT_GO_OK _ (by decide) (by decide) (State.put_regsWf _ _ _ h)

theorem State.goForms_of_commits (h : s.plan.commits ≠ []) : s.goForms = false := by
  unfold State.goForms
  cases hc : s.plan.commits with
  | nil => exact absurd hc h
  | cons c cs => simp

theorem State.goForms_of_goHold (h : s.tick < s.plan.goHold) : s.goForms = false := by
  unfold State.goForms
  simp [Nat.not_le.mpr h]

theorem State.armed_ne_none (s : State) : s.armed ≠ none ↔ s.flag Adr.PLAN_STAT Fl.PLAN_STAT_ARMED = true := by
  unfold State.armed
  split <;> simp_all

end Sys2Proof.Machine
end

section
/-! O21: parks and unparks at their instants, and GO_OK once the microsecond after a make has passed (R121, R237, R124). -/

namespace Sys2Proof.Machine

variable {s t : State} {p : ParkItem}

/-! ## A park item that leaves the list -/

/-- The item off the list, its entry written where it was carried out, and its reservation gone. -/
def State.parkBooked (s : State) (p : ParkItem) (done : Bool) : State :=
  let d := s.timeAt s.tick
  let u := s.setPlan { s.plan with parks := s.plan.parks.erase p }
  let u := if done then
      u.logAt 0x0022 p.q p.role d.sec d.ns (bodyOf [(0, 2, p.output), (2, 1, b2i p.unpark), (3, 1, b2i p.tenant)])
    else u
  let u := (u.setParkRes (u.led.parkRes - 1)).ledgerStat
  if done then u else u.flushOverflow

theorem State.parkDone_eq (s : State) (p : ParkItem) (done : Bool) : s.parkDone p done =
    if p.q = 0xffff then (s.parkBooked p done).refreshGo
    else ((s.parkBooked p done).complete p.q 0 (instantBytes (s.timeAt s.tick) done)).refreshGo := rfl

theorem State.parkBooked_ledgerOnly (s : State) (p : ParkItem) (done : Bool) :
    LedgerOnly (s.setPlan { s.plan with parks := s.plan.parks.erase p }) (s.parkBooked p done) := by
  have kRes : ∀ (u : State) (n : Nat), LedgerOnly u (u.setParkRes n).ledgerStat :=
    fun u n => LedgerOnly.trans ⟨rfl⟩ (State.ledgerStat_ledgerOnly _)
  cases done with
  | true => exact (State.logAt_ledgerOnly ..).trans (kRes ..)
  | false => exact (kRes ..).trans (State.flushOverflow_ledgerOnly _)

theorem State.parkBooked_parkRes (s : State) (p : ParkItem) (done : Bool) :
    (s.parkBooked p done).led.parkRes = s.led.parkRes - 1 := by
  cases done with
  | true => exact congrArg (· - 1) (State.logAt_parkRes ..)
  | false => exact State.flushOverflow_parkRes _

theorem State.parkDone_led (s : State) (p : ParkItem) (done : Bool) : (s.parkDone p done).led = (s.parkBooked p done).led := by
  rw [s.parkDone_eq, apply_ite State.led, State.refreshGo_led, State.refreshGo_led, State.complete_led, ite_self]

theorem State.parkDone_sameLanes (s : State) (p : ParkItem) (done : Bool) : SameLanes s (s.parkDone p done) := by
  rw [s.parkDone_eq]
  have kBooked : SameLanes s (s.parkBooked p done) := (s.setPlan_sameLanes _).trans (s.parkBooked_ledgerOnly p done).sameLanes
  exact ite_sameLanes (kBooked.trans (State.refreshGo_sameLanes _))
    (kBooked.trans ((State.complete_sameLanes ..).trans (State.refreshGo_sameLanes _)))

theorem State.parkDone_plan (s : State) (p : ParkItem) (done : Bool) :
    (s.parkDone p done).plan.parks = s.plan.parks.erase p ∧ (s.parkDone p done).plan.inForce = s.plan.inForce := by
  have hBooked : (s.parkBooked p done).plan = { s.plan with parks := s.plan.parks.erase p } := (s.parkBooked_ledgerOnly p done).plan
  obtain ⟨hParks, hForce⟩ := (s.parkBooked p done).complete_plan p.q 0 (instantBytes (s.timeAt s.tick) done)
  rw [s.parkDone_eq]
  split
  · rw [State.refreshGo_plan, hBooked]
    exact ⟨rfl, rfl⟩
  · rw [State.refreshGo_plan, hParks, hForce, hBooked]
    exact ⟨rfl, rfl⟩

/-- The reservation of a park holds a place for its entry, and one more where an OVERFLOW goes first (R237, R278). -/
theorem State.parkDone_logged (s : State) (p : ParkItem) (hr : s.boot.recovery = false) (hRes : 1 ≤ s.led.parkRes)
    (hFree : 1 ≤ s.ledgerFree) : Logged s (s.parkDone p true) 0x0022 p.q := by
  set u := s.setPlan { s.plan with parks := s.plan.parks.erase p } with hu
  have hLog := State.logged_logAt (s := u) hr hFree (fun hRoom => by
    have hHeld : u.led.parkRes ≤ u.heldBack := Nat.le_add_left ..
    have hMore : u.heldBack < u.ledgerFree := by simpa [State.involRoom] using hRoom
    have hSame : u.led.parkRes = s.led.parkRes := rfl
    omega) 0x0022 p.q p.role (s.timeAt s.tick).sec (s.timeAt s.tick).ns (bodyOf [(0, 2, p.output), (2, 1, b2i p.unpark), (3, 1, b2i p.tenant)])
  refine hLog.of_entries rfl ?_
  rw [s.parkDone_led]
  rfl

/-! ## What a gate lane takes -/

theorem State.settleLane_park (s : State) (a : Acts) (e : Nat) (x : Lane) :
    (s.settleLane a e x).planPark = x.planPark ∧ (s.settleLane a e x).byTenant = x.byTenant := by
  unfold State.settleLane
  simp only [apply_ite Lane.planPark, apply_ite Lane.byTenant, Lane.toOff, Lane.unprime, Lane.toHold, ite_self, and_self]

/-- What an unpark gives the gate lane of its output. -/
def State.unparkLane (s : State) (p : ParkItem) (x : Lane) : Lane :=
  let e := gateIx s.variant p.output
  let sp := gatePhi s.variant s.plan.inForce p.output
  let y := { x with planPark := false, byTenant := false, clearUntil := none }
  if x.st = 2 ∨ (x.st = 9 ∧ x.calFrom = 2) then s.releaseGate e sp y
  else if (s.out p.output).withheld ≠ 0 then s.endMove e (s.stepGate e sp y)
  else y

theorem State.releaseGate_planPark (s : State) (e : Nat) (sp : Int) (x : Lane) : (s.releaseGate e sp x).planPark = x.planPark := by
  unfold State.releaseGate
  split
  · rfl
  · rfl

theorem State.endMove_planPark (s : State) (e : Nat) (x : Lane) : (s.endMove e x).planPark = x.planPark := by
  unfold State.endMove
  simp only [apply_ite Lane.planPark, ite_self]

theorem State.unparkLane_planPark (s : State) (p : ParkItem) (x : Lane) : (s.unparkLane p x).planPark = false := by
  unfold State.unparkLane
  dsimp only
  split
  · exact State.releaseGate_planPark ..
  · split
    · exact State.endMove_planPark ..
    · rfl

/-! ## A park -/

/-- The gate lane under a plan park, and settled. -/
def State.parkLane (s : State) (p : ParkItem) : State :=
  (s.onLane (gateIx s.variant p.output) fun x => { x with planPark := true, byTenant := p.tenant }).settle (gateIx s.variant p.output)

/-- Routines, outputs, the engine and the DAC follow the lane. -/
def State.parkFollow (s u : State) (e : Nat) : State :=
  (((State.interrupts s u).refreshOuts).onComb (e / 64) fun x => { x with cmd := true }).convert [e]

theorem State.parkNow_eq (h : (s.lane (gateIx s.variant p.output)).planPark = false) :
    s.parkNow p = (s.parkFollow (s.parkLane p) (gateIx s.variant p.output)).parkDone p true := by
  unfold State.parkNow
  simp only [h, Bool.false_eq_true, if_false]
  rfl

theorem State.parkFollow_reports (s u : State) (e : Nat) : Reports u
    (((State.interrupts s u).refreshOuts).onComb (e / 64) fun x => { x with cmd := true }) :=
  State.onComb_reports (State.refreshOuts_reports (State.interrupts_reports .rfl _)) ..

theorem State.parkFollow_lanes (s u : State) (e : Nat) : (s.parkFollow u e).ctl.lanes = u.ctl.lanes :=
  (State.convert_sameLanes ..).lanes.trans ((State.refreshOuts_lanes _).trans (State.interrupts_sameLanes ..).lanes)

theorem State.parkFollow_led (s u : State) (e : Nat) : (s.parkFollow u e).led = u.led := by
  unfold State.parkFollow State.onComb
  rw [State.convert_led, State.setComb_led, State.refreshOuts_led, State.interrupts_led]

theorem State.parkFollow_plan (s u : State) (e : Nat) : (s.parkFollow u e).plan = u.plan :=
  (State.convert_plan ..).trans (s.parkFollow_reports u e).plan

theorem State.parkFollow_boot (s u : State) (e : Nat) : (s.parkFollow u e).boot = u.boot :=
  (State.convert_boot ..).trans (s.parkFollow_reports u e).boot

theorem State.parkFollow_variant (s u : State) (e : Nat) : (s.parkFollow u e).variant = u.variant :=
  (State.convert_variant ..).trans (s.parkFollow_reports u e).variant

theorem State.parkLane_same (h : s.ctl.tablesWf = true) (p : ParkItem) :
    ((s.parkLane p).lane (gateIx s.variant p.output)).planPark = true
      ∧ ((s.parkLane p).lane (gateIx s.variant p.output)).byTenant = p.tenant := by
  unfold State.parkLane State.settle
  rw [State.lane_onLane_same ((State.onLane_kept .rfl ..).tables h), State.lane_onLane_same h]
  exact State.settleLane_park ..

theorem State.parkLane_other (h : s.ctl.tablesWf = true) (p : ParkItem) (e : Nat) (he : e ≠ gateIx s.variant p.output) :
    (s.parkLane p).lane e = s.lane e := by
  unfold State.parkLane State.settle
  rw [State.lane_onLane_other ((State.onLane_kept .rfl ..).tables h) _ _ _ he, State.lane_onLane_other h _ _ _ he]

/-- The one item of the list that is due is the one carried out. -/
theorem outputPark_of_due (hp : s.plan.parks = [p]) (hu : p.unpark = false) (ht : p.tick ≤ s.tick) : outputPark s = s.parkNow p := by
  unfold outputPark
  rw [hp]
  simp [hu, ht]

theorem outputPark_of_notDue (hp : s.plan.parks = [p]) (h : p.unpark = true ∨ s.tick < p.tick) : outputPark s = s := by
  have hNot : (!p.unpark && decide (p.tick ≤ s.tick)) = false := by
    rcases h with hu | ht
    · simp [hu]
    · simp [Nat.not_le.mpr ht]
  unfold outputPark
  rw [hp]
  simp [hNot]

/-! ## An unpark -/

/-- The state once the gate lane has left its park, before the item leaves the list. -/
def State.unparked (s : State) (p : ParkItem) : State :=
  let e := gateIx s.variant p.output
  let u := s.onLane e (s.unparkLane p)
  let u := if (u.out p.output).withheld = 0 then u else u.dropAffected p.output
  let u := u.setOut p.output { u.out p.output with withheld := 0 }
  (u.refreshOuts.onComb (e / 64) fun x => { x with cmd := true }).convert [e]

theorem State.unparkNow_eq (s : State) (p : ParkItem) : s.unparkNow p =
    if s.unparkAllowed p && s.unparkOk p.output then (s.unparked p).parkDone p true else s.parkDone p false := rfl

theorem State.dropAffected_parks (s : State) (o : Nat) : (s.dropAffected o).plan.parks = s.plan.parks := by
  unfold State.dropAffected
  split
  · rfl
  · split <;> rfl

theorem State.dropAffected_lanes (s : State) (o : Nat) : (s.dropAffected o).ctl.lanes = s.ctl.lanes := by
  unfold State.dropAffected
  split
  · rfl
  · split <;> rfl

theorem State.dropAffected_led (s : State) (o : Nat) : (s.dropAffected o).led = s.led := by
  unfold State.dropAffected
  split
  · rfl
  · split <;> rfl

theorem State.unparked_lanes (s : State) (p : ParkItem) :
    (s.unparked p).ctl.lanes = (s.onLane (gateIx s.variant p.output) (s.unparkLane p)).ctl.lanes := by
  unfold State.unparked
  refine (State.convert_sameLanes ..).lanes.trans ((State.refreshOuts_lanes _).trans ?_)
  simp only [State.setOut_ctl_lanes, apply_ite State.ctl, apply_ite Ctl.lanes, State.dropAffected_lanes, ite_self]

theorem State.unparked_parks (s : State) (p : ParkItem) : (s.unparked p).plan.parks = s.plan.parks := by
  have hFollow : ∀ (u : State) (e : Nat), ((u.refreshOuts.onComb (e / 64) fun x => { x with cmd := true }).convert [e]).plan = u.plan :=
    fun u e => (State.convert_plan ..).trans (State.onComb_reports (State.refreshOuts_reports .rfl) ..).plan
  unfold State.unparked
  refine (congrArg PlanUnit.parks (hFollow ..)).trans ?_
  show (State.plan (if _ then _ else _)).parks = s.plan.parks
  simp only [apply_ite State.plan, apply_ite PlanUnit.parks, State.dropAffected_parks, ite_self]
  rfl

theorem State.unparked_led (s : State) (p : ParkItem) : (s.unparked p).led = s.led := by
  unfold State.unparked
  refine (State.convert_led ..).trans ((State.refreshOuts_led _).trans ?_)
  show (State.led (if _ then _ else _)) = s.led
  rw [apply_ite State.led, State.dropAffected_led, ite_self]
  rfl

theorem outputUnpark_of_due (hp : s.plan.parks = [p]) (hu : p.unpark = true) (ht : p.tick ≤ s.tick) (hw : s.unparkWaits p = false) :
    outputUnpark s = s.unparkNow p := by
  unfold outputUnpark
  rw [hp]
  simp [hu, ht, hw]

theorem outputUnpark_of_waits (hp : s.plan.parks = [p]) (hw : s.unparkWaits p = true) : outputUnpark s = s := by
  unfold outputUnpark
  rw [hp]
  simp [hw]

/-! ## GO_OK -/

/-- With no commit accepted, the microsecond past and the module unpaired, the other conditions of R124 decide. -/
theorem State.goForms_iff (hc : s.plan.commits = []) (hg : s.plan.goHold ≤ s.tick) (hs : s.plan.goStop = false) (hr : s.role = 0) :
    s.goForms = true ↔ s.powered 31 = true ∧ s.armed ≠ none ∧ s.flag Adr.PLAN_CFG Fl.PLAN_CFG_CSP_GO_EN = true ∧ s.listRuns = false
      ∧ s.ledgerRoom 1 = true := by
  have hList : s.listRuns = false ↔ s.schedState ≠ 1 ∧ s.schedState ≠ 2 := by simp [State.listRuns]
  unfold State.goForms
  rw [s.armed_ne_none, hList, hc, hs, hr]
  simp only [Bool.and_eq_true, bne_iff_ne, decide_eq_true_eq, List.isEmpty_nil, Bool.not_false, hg]
  tauto

/-- Settles O21: each instant carries its one item through parkNow or unparkNow, whose lanes, list and ledger the lemmas above give. -/
theorem parksTakeTheirInstantsAndGoReturns : Obligations.ParksTakeTheirInstantsAndGoReturns := by
  unfold Obligations.ParksTakeTheirInstantsAndGoReturns
  intro s hregs htables
  refine ⟨fun p hp hu ht hpark => ?_, fun p hp h => ?_, fun p hp hu ht hallow hok hpilot => ?_, fun p hp hu ht hnot => ?_,
    fun p hp hw => ?_, fun hc hg hs hr => ?_⟩
  · have hDone := (outputPark_of_due hp hu ht).trans (State.parkNow_eq hpark)
    set v := s.parkFollow (s.parkLane p) (gateIx s.variant p.output) with hv
    have hLane : ∀ e, (v.parkDone p true).lane e = (s.parkLane p).lane e :=
      State.lane_congr ((v.parkDone_sameLanes p true).lanes.trans (State.parkFollow_lanes ..))
    have hPlan : v.plan = s.plan := State.parkFollow_plan ..
    have hLed : v.led = s.led := State.parkFollow_led ..
    obtain ⟨hParks, hForce⟩ := v.parkDone_plan p true
    obtain ⟨hSame, hTenant⟩ := State.parkLane_same htables p
    refine ⟨_, congrArg Host.Outcome.next hDone, ?_, ?_, ?_, ?_, fun e he => ?_, ?_, fun hrec hres hfree => ?_⟩
    · rw [hParks, hPlan, hp]
      simp
    · rw [hLane]
      exact hSame
    · rw [hLane]
      exact hTenant
    · rw [v.parkDone_led, v.parkBooked_parkRes, hLed]
    · rw [hLane]
      exact State.parkLane_other htables p e he
    · rw [hForce, hPlan]
    · have hFree : 1 ≤ v.ledgerFree := by
        have hHeld : s.led.parkRes ≤ s.heldBack := Nat.le_add_left ..
        have hSameFree : v.ledgerFree = s.ledgerFree := by
          unfold State.ledgerFree
          rw [hLed, State.parkFollow_variant]
          rfl
        omega
      exact (v.parkDone_logged p ((congrArg BootUnit.recovery (State.parkFollow_boot ..)).trans hrec) (by rw [hLed]; exact hres)
        hFree).of_entries (by rw [hLed]) rfl
  · exact congrArg Host.Outcome.next (outputPark_of_notDue hp h)
  · have hWait : s.unparkWaits p = false := by
      unfold State.unparkWaits
      rcases hpilot with h | h <;> simp [h]
    have hDone : outputUnpark s = (s.unparked p).parkDone p true := by
      rw [outputUnpark_of_due hp hu ht hWait, s.unparkNow_eq, hallow, hok]
      rfl
    have hLane : ∀ e, ((s.unparked p).parkDone p true).lane e = (s.onLane (gateIx s.variant p.output) (s.unparkLane p)).lane e :=
      State.lane_congr (((s.unparked p).parkDone_sameLanes p true).lanes.trans (s.unparked_lanes p))
    refine ⟨_, congrArg Host.Outcome.next hDone, ?_, ?_, fun e he => ?_, ?_⟩
    · rw [((s.unparked p).parkDone_plan p true).1, s.unparked_parks, hp]
      simp
    · rw [hLane, State.lane_onLane_same htables]
      exact s.unparkLane_planPark ..
    · rw [hLane, State.lane_onLane_other htables _ _ _ he]
    · rw [State.parkDone_led, State.parkBooked_parkRes, s.unparked_led]
  · have hRefused : (s.unparkAllowed p && s.unparkOk p.output) = false := by
      rcases hnot with h | h <;> simp [h]
    have hWait : s.unparkWaits p = false := by
      unfold State.unparkWaits
      rw [Bool.and_assoc, hRefused, Bool.and_false]
    have hDone : outputUnpark s = s.parkDone p false := by
      rw [outputUnpark_of_due hp hu ht hWait, s.unparkNow_eq, hRefused]
      rfl
    refine ⟨_, congrArg Host.Outcome.next hDone, ?_, (s.parkDone_sameLanes p false).lanes, (s.parkDone_sameLanes p false).outs⟩
    rw [(s.parkDone_plan p false).1, hp]
    simp
  · exact congrArg Host.Outcome.next (outputUnpark_of_waits hp hw)
  · refine ⟨s.refreshGo, rfl, ?_, ?_, s.refreshGo_goOk, fun a ha => s.refreshGo_writesOnly.rd hregs a ha, s.refreshGo_plan, s.refreshGo_led⟩
    · rw [State.refreshGo_flag hregs]
      exact State.goForms_iff hc hg hs hr
    · rw [State.refreshGo_flag hregs]
      exact iff_of_eq (congrArg (· = true) (s.refreshGo_goHub.trans (State.showPending_goForms hregs)))

end Sys2Proof.Machine
end

section
/-! SUPPORT. Lanes behind a function applied to every lane, and behind one applied to some of them in turn. -/

namespace Sys2Proof.Machine

section Tables

variable {α : Type} [DecidableEq α]

theorem SMap.find_cons {d : α} {k : Nat} {m : SMap α} (v : α) (h : SMap.wfFrom (fun _ => d) (some k) m = true) (e : Nat) :
    SMap.find d (SMap.cons d k v m) e = if e = k then v else SMap.find d m e := by
  unfold SMap.cons
  split
  · next hv =>
    split
    · next he => rw [hv, SMap.find_of_lt h he.le]
    · rfl
  · rw [SMap.find]
    split
    · rfl
    · split
      · next hlt => exact (SMap.find_of_lt h hlt.le).symm
      · rfl

theorem SMap.wfFrom_above {d : Nat → α} {m : SMap α} {k : Nat} (h : SMap.wfFrom d (some k) m = true) : ∀ x ∈ m, k < x.1 := by
  induction m generalizing k with
  | nil => simp
  | cons y m ih =>
    obtain ⟨a, z⟩ := y
    simp only [SMap.wfFrom, Bool.and_eq_true, decide_eq_true_eq] at h
    obtain ⟨⟨hka, -⟩, hm⟩ := h
    exact List.forall_mem_cons.mpr ⟨hka, fun x hx => hka.trans (ih hm x hx)⟩

theorem SMap.mapFrom_above (d : α) (f : Nat → α → α) (n a : Nat) (m : SMap α) (ha : ∀ x ∈ m, a < x.1)
    (h : SMap.wfFrom (fun _ => d) (some a) m = true) : SMap.wfFrom (fun _ => d) (some a) (SMap.mapFrom d f n (a + 1) m) = true :=
  SMap.mapFrom_wfFrom d f n (a + 1) m (some a) (by simp) (fun x hx => ha x hx) h

/-- The keys of the range read as the function gives them, the others as before. -/
theorem SMap.find_mapFrom (d : α) (f : Nat → α → α) (e n a : Nat) (m : SMap α) (ha : ∀ x ∈ m, a ≤ x.1)
    (h : SMap.wf (fun _ => d) m = true) :
    SMap.find d (SMap.mapFrom d f n a m) e = if a ≤ e ∧ e < a + n then f e (SMap.find d m e) else SMap.find d m e := by
  induction n generalizing a m with
  | zero => rw [if_neg (by omega)]; rfl
  | succ n ih =>
    cases m with
    | nil =>
      rw [SMap.mapFrom, SMap.find_cons _ (SMap.mapFrom_above d f n a [] (by simp) rfl), ih (a + 1) [] (by simp) rfl]
      by_cases he : e = a
      · subst he
        rw [if_pos rfl, if_pos (by omega)]
        rfl
      · rw [if_neg he]
        exact if_congr (by omega) rfl rfl
    | cons y m =>
      obtain ⟨b, x⟩ := y
      have hba : a ≤ b := ha (b, x) (List.mem_cons_self ..)
      have hTail : SMap.wfFrom (fun _ => d) (some b) m = true := by
        have hm := h
        simp only [SMap.wf, SMap.wfFrom, Bool.and_eq_true] at hm
        exact hm.2
      have hAbove := SMap.wfFrom_above hTail
      rw [SMap.mapFrom]
      split
      · next hb =>
        subst hb
        rw [SMap.find_cons _ (SMap.mapFrom_above d f n b m hAbove hTail), ih (b + 1) m hAbove (SMap.wfFrom_none hTail), SMap.find]
        by_cases he : e = b
        · subst he
          rw [if_pos rfl, if_pos rfl, if_pos (by omega)]
        · rw [if_neg he, if_neg he]
          by_cases hlt : e < b
          · rw [if_neg (by omega), if_neg (by omega), if_pos hlt, SMap.find_of_lt hTail hlt.le]
          · rw [if_neg hlt]
            exact if_congr (by omega) rfl rfl
      · next hb =>
        have hLow : ∀ y ∈ (b, x) :: m, a < y.1 := List.forall_mem_cons.mpr ⟨by dsimp only; omega, fun z hz => hba.trans_lt (hAbove z hz)⟩
        have hLowWf : SMap.wfFrom (fun _ => d) (some a) ((b, x) :: m) = true := by
          simp only [SMap.wf, SMap.wfFrom, Bool.and_eq_true] at h ⊢
          exact ⟨⟨by simp; omega, h.1.2⟩, h.2⟩
        rw [SMap.find_cons _ (SMap.mapFrom_above d f n a _ hLow hLowWf), ih (a + 1) _ hLow h]
        by_cases he : e = a
        · subst he
          rw [if_pos rfl, if_pos (by omega), SMap.find_of_lt hLowWf le_rfl]
        · rw [if_neg he]
          exact if_congr (by omega) rfl rfl

theorem SMap.find_of_mem {d : Nat → α} {e v : α} {m : SMap α} {lo : Option Nat} {k : Nat} (h : SMap.wfFrom d lo m = true)
    (hk : (k, v) ∈ m) : SMap.find e m k = v := by
  induction m generalizing lo with
  | nil => simp at hk
  | cons y m ih =>
    obtain ⟨a, x⟩ := y
    have hTail : SMap.wfFrom d (some a) m = true := by
      simp only [SMap.wfFrom, Bool.and_eq_true] at h
      exact h.2
    rw [SMap.find]
    rcases List.mem_cons.mp hk with heq | hmem
    · obtain ⟨rfl, rfl⟩ := Prod.mk.inj heq
      rw [if_pos rfl]
    · have hLow : a < k := SMap.wfFrom_above hTail _ hmem
      rw [if_neg (by omega), if_neg (by omega), ih hTail hmem]

theorem SMap.wfFrom_nodup {d : Nat → α} {m : SMap α} {lo : Option Nat} (h : SMap.wfFrom d lo m = true) : (m.map Prod.fst).Nodup := by
  induction m generalizing lo with
  | nil => exact List.nodup_nil
  | cons y m ih =>
    obtain ⟨a, x⟩ := y
    simp only [SMap.wfFrom, Bool.and_eq_true] at h
    obtain ⟨-, hTail⟩ := h
    refine List.nodup_cons.mpr ⟨fun ha => ?_, ih hTail⟩
    obtain ⟨z, hz, hza⟩ := List.mem_map.mp ha
    have := SMap.wfFrom_above hTail z hz
    simp at hza
    omega

end Tables

variable {s : State}

theorem State.lane_mapLanes (h : s.ctl.tablesWf = true) (f : Nat → Lane → Lane) (e : Nat) :
    (s.mapLanes f).lane e = if e < numElems s.variant then f e (s.lane e) else s.lane e := by
  refine (SMap.find_mapFrom {} f e (numElems s.variant) 0 s.ctl.lanes (by simp) (Ctl.lanesWf h)).trans ?_
  exact if_congr (by omega) rfl rfl

/-- Each lane of a list without repetition takes its function, where no lane enters the functions of the others. -/
theorem State.lane_foldl_onLane {F : State → Nat → Lane → Lane} (hF : ∀ s k x, F (s.setLane k x) = F s) {l : List Nat}
    (hl : l.Nodup) (h : s.ctl.tablesWf = true) (e : Nat) :
    (l.foldl (fun s k => s.onLane k (F s k)) s).lane e = if e ∈ l then F s e (s.lane e) else s.lane e := by
  induction l generalizing s with
  | nil => simp
  | cons k l ih =>
    obtain ⟨hk, hl⟩ := List.nodup_cons.mp hl
    rw [List.foldl_cons, ih hl ((State.onLane_kept .rfl ..).tables h), State.onLane, hF, ← State.onLane]
    by_cases he : e = k
    · subst he
      rw [if_neg hk, if_pos (List.mem_cons_self ..), State.lane_onLane_same h]
    · rw [State.lane_onLane_other h _ _ _ he]
      exact if_congr (by simp [he]) rfl rfl

/-- A lane that none of a list of changes names stays. -/
theorem State.lane_foldl_onLane_other {β : Type} {k : State → β → Nat} {F : State → β → Lane → Lane} {l : List β} {e : Nat}
    (h : s.ctl.tablesWf = true) (hk : ∀ s, ∀ b ∈ l, e ≠ k s b) :
    (l.foldl (fun s b => s.onLane (k s b) (F s b)) s).lane e = s.lane e := by
  induction l generalizing s with
  | nil => rfl
  | cons b l ih =>
    rw [List.foldl_cons, ih ((State.onLane_kept .rfl ..).tables h) fun s x hx => hk s x (List.mem_cons_of_mem _ hx),
      State.lane_onLane_other h _ _ _ (hk s b (List.mem_cons_self ..))]

/-- The lanes a profile moves are those MOVING that have not stepped. -/
theorem State.mem_movers (h : s.ctl.tablesWf = true) (e : Nat) : e ∈ s.movers ↔ (s.lane e).st = 6 ∧ (s.lane e).stepped = false := by
  have hWf : SMap.wfFrom (fun _ => ({} : Lane)) none s.ctl.lanes = true := Ctl.lanesWf h
  constructor
  · intro he
    obtain ⟨⟨k, x⟩, hx, rfl⟩ := List.mem_map.mp he
    obtain ⟨hmem, hmove⟩ := List.mem_filter.mp hx
    have hlane : s.lane k = x := SMap.find_of_mem hWf hmem
    rw [hlane]
    simpa using hmove
  · rintro ⟨hst, hstep⟩
    rcases SMap.find_eq_or_mem ({} : Lane) s.ctl.lanes e with hnot | hmem
    · have : s.lane e = {} := hnot
      rw [this] at hst
      exact absurd hst (by decide)
    · exact List.mem_map.mpr ⟨(e, s.lane e), List.mem_filter.mpr ⟨hmem, by simp [hst, hstep]⟩, rfl⟩

theorem State.movers_nodup (h : s.ctl.tablesWf = true) : s.movers.Nodup :=
  (SMap.wfFrom_nodup (d := fun _ => ({} : Lane)) (Ctl.lanesWf h)).sublist (List.filter_sublist.map Prod.fst)

end Sys2Proof.Machine
end

section
/-! O20: a commit on its strobes: the break, the move of its lanes, and the make (R112 to R117, R78, R124). -/

namespace Sys2Proof.Machine

variable {s t : State} {c : Commit} {rest : List Commit}

/-! ## What a change of the plan is followed by -/

/-- From `s` to `t` registers and comb engines alone change. -/
structure CombOnly (s t : State) : Prop where
  eq : t = { s with regs := t.regs, ctl := { s.ctl with combs := t.ctl.combs } }

theorem CombOnly.rfl : CombOnly s s := ⟨Eq.refl _⟩

theorem CombOnly.trans {s₀ : State} (h : CombOnly s₀ s) (k : CombOnly s t) : CombOnly s₀ t :=
  ⟨k.eq.trans (congrArg (fun u : State => { u with regs := t.regs, ctl := { u.ctl with combs := t.ctl.combs } }) h.eq)⟩

theorem ite_combOnly {p : Prop} [Decidable p] {a b : State} (ha : CombOnly s a) (hb : CombOnly s b) :
    CombOnly s (if p then a else b) := by
  split
  · exact ha
  · exact hb

theorem foldl_combOnly {β : Type} {f : State → β → State} (hf : ∀ s x, CombOnly s (f s x)) (l : List β) (s : State) :
    CombOnly s (l.foldl f s) := by
  induction l generalizing s with
  | nil => exact .rfl
  | cons x l ih => exact (hf s x).trans (ih (f s x))

theorem CombOnly.lanes (h : CombOnly s t) : t.ctl.lanes = s.ctl.lanes := by rw [h.eq]
theorem CombOnly.plan (h : CombOnly s t) : t.plan = s.plan := by rw [h.eq]; rfl
theorem CombOnly.tick (h : CombOnly s t) : t.tick = s.tick := by rw [h.eq]

theorem State.startSlot_combOnly (s : State) (k : Nat) (b : Bool) (h : Nat) : CombOnly s (s.startSlot k b h) := by
  have kRef : ∀ u : State, CombOnly u (u.takeRef k) := fun u => ite_combOnly .rfl ⟨rfl⟩
  have kEntry : ∀ (u : State) (j : Nat) (urgent : Bool), CombOnly u (u.takeEntry k b h j urgent) :=
    fun u j urgent => (kRef u).trans ⟨rfl⟩
  have kShow : ∀ u : State, CombOnly u (u.showUrg k b) := fun u => ⟨rfl⟩
  refine CombOnly.trans ?_ (kShow _)
  split
  · exact (kEntry ..).trans ⟨rfl⟩
  · split
    · exact (kEntry ..).trans ⟨rfl⟩
    · exact ⟨rfl⟩

theorem State.urgentLane_combOnly (s : State) (e : Nat) : CombOnly s (s.urgentLane e) := by
  refine foldl_combOnly (fun s i => ?_) _ s
  unfold State.urgent
  exact ite_combOnly ⟨rfl⟩ (ite_combOnly (CombOnly.trans ⟨rfl⟩ (State.startSlot_combOnly ..)) ⟨rfl⟩)

theorem State.combsEvent_reports (s : State) (cs : List Nat) (ev n : Nat) : Reports s (s.combsEvent cs ev n) :=
  foldl_reports .rfl fun _ _ k => State.combEvent_reports k ..

theorem State.combsEvent_sameLanes (s : State) (cs : List Nat) (ev n : Nat) : SameLanes s (s.combsEvent cs ev n) :=
  foldl_sameLanes (fun _ _ => .of_ctl (State.combEvent_ctl ..)) _ s

theorem State.replan_lanes (s : State) : s.replan.ctl.lanes = s.ctl.lanes :=
  (State.refreshGo_sameLanes _).lanes.trans s.refreshOuts_lanes

theorem State.replan_plan (s : State) : s.replan.plan = s.plan :=
  (State.refreshGo_plan _).trans (State.refreshOuts_reports .rfl).plan

/-- A register that no report writes, other than PLAN_STAT. -/
theorem State.replan_get (h : s.regsWf = true) (b : Nat) (f : Field) (hq : quiet (b + f.off) = true) (hb : b + f.off ≠ Adr.PLAN_STAT) :
    s.replan.get b f = s.get b f := by
  have kOuts : Reports s s.refreshOuts := State.refreshOuts_reports .rfl
  exact ((State.refreshGo_writesOnly _).get (kOuts.wf h) b f hb).trans (kOuts.get h b f hq)

/-- Instants that come out of turn or too early. -/
theorem State.head_commits (hc : s.plan.commits = c :: rest) : s.plan.commits.head? = some c := by rw [hc]; rfl

/-! ## The break -/

/-- GENERATION after the break of `c`. -/
def State.breakGen (s : State) (c : Commit) : Nat :=
  match c.setGen with
  | some g => g
  | none => (s.get Adr.PLAN_STAT Fl.PLAN_STAT_GENERATION + 1) % 65536

/-- The compare unit of the break has fired, and the hub has counted it. -/
def State.fireUnit (s : State) (n : Nat) : State :=
  ((s.putFlag (Adr.CMP n) Fl.CMP_EN false).putFlag (Adr.CMP n) Fl.CMP_FIRED true).hubEvent 0x02 1

/-- Lanes, routines, outputs, GO_OK and DACs follow a break. -/
def State.afterBreak (s : State) (es : List Nat) : State := ((State.interrupts s s.settleAll).replan).convert es

theorem State.execParity_of_good (h : ∀ n, s.checkBad (0x9C + n) c.seq = false) : s.execParity c = s := by
  unfold State.execParity
  generalize List.range (numTiles s.variant) = l
  induction l with
  | nil => rfl
  | cons n l ih =>
    rw [List.foldl_cons, if_neg (by rw [h n]; decide)]
    exact ih

/-- Lanes withheld at the break, the outputs it affects, and those of them whose circuits it withholds. -/
def State.breakWithheld (s : State) : List Nat := (List.range (numElems s.variant)).filter s.withheldLane

def State.breakAffected (s : State) (c : Commit) : List Nat :=
  (List.range (numPorts s.variant)).filter fun o =>
    let k := classify (wordOf s.plan.inForce o) (wordOf c.words o)
    k == .changed || k == .collateral || s.remade c.words o

def State.breakNotMade (s : State) (c : Commit) : List Nat :=
  (s.breakAffected c).filter fun o =>
    wCirc (wordOf c.words o) && (pathLanes s.variant o (wordOf c.words o)).any s.breakWithheld.contains

/-- GENERATION and the outputs at the break of `c`. -/
def State.breakOuts (s : State) (c : Commit) : State :=
  (List.range (numPorts s.variant)).foldl (fun x o => x.breakOut (s.breakGen c) c.words (s.breakAffected c) (s.breakNotMade c) o)
    (s.put Adr.PLAN_STAT Fl.PLAN_STAT_GENERATION (s.breakGen c))

/-- The lanes with them. -/
def State.breakLanes (s : State) (c : Commit) : State :=
  (s.breakOuts c).mapLanes ((s.breakOuts c).breakLane (s.breakAffected c) s.breakWithheld)

/-- The commit as the break leaves it. -/
def State.brokenCommit (s : State) (c : Commit) : Commit :=
  { c with
    phase := 1, affected := s.breakAffected c, withheld := s.breakWithheld, notMade := s.breakNotMade c
    attOnly := outsOf s.variant s.plan.inForce c.words .attOnly }

/-- The plan as it is from the break of `c` on, behind the lanes `x`. -/
def State.brokenPlan (s x : State) (c : Commit) : PlanUnit :=
  { x.plan with
    commits := s.brokenCommit c :: x.plan.commits.tail, inForce := c.words, forceId := c.id
    slots := x.plan.slots.map fun e => (if e.1 = c.id then (e.1, { e.2 with carried := some (s.breakGen c) }) else e) }

/-- The plan of the commit in force behind the lanes of its break. -/
def State.breakCarried (s : State) (c : Commit) : State := (s.breakLanes c).setPlan (s.brokenPlan (s.breakLanes c) c)

theorem breakStrobe_of_due (hc : s.plan.commits = c :: rest) (hphase : c.phase = 0) (hack : c.ackBy = none) (hdue : c.tBreak ≤ s.tick)
    (hgood : ∀ n, s.checkBad (0x9C + n) c.seq = false) :
    breakStrobe s = ((s.breakCarried c).fireUnit c.unit).afterBreak ((s.breakAffected c).map (gateIx s.variant)) := by
  have hGate : ¬ (c.phase ≠ 0 ∨ c.ackBy.isSome ∨ s.tick < c.tBreak) := by
    rw [hack]
    simp [hphase, hdue]
  unfold breakStrobe
  simp only [State.head_commits hc, if_neg hGate, State.execParity_of_good hgood]
  rfl

theorem State.breakOut_reports {s₀ : State} (h : Reports s₀ s) (gen : Nat) (new : List Nat) (affected notMade : List Nat) (o : Nat) :
    Reports s₀ (s.breakOut gen new affected notMade o) := State.setOut_reports h ..

theorem State.breakLanes_reports (s : State) (c : Commit) :
    Reports (s.put Adr.PLAN_STAT Fl.PLAN_STAT_GENERATION (s.breakGen c)) (s.breakLanes c) :=
  State.mapLanes_reports (foldl_reports .rfl fun _ _ k => State.breakOut_reports k ..) _

theorem State.breakLanes_led (s : State) (c : Commit) : (s.breakLanes c).led = s.led := by
  have hOut : ∀ (u : State) gen new affected notMade o, (u.breakOut gen new affected notMade o).led = u.led := fun _ _ _ _ _ _ => rfl
  exact foldl_led (fun _ _ => hOut ..) _ _

theorem State.breakCarried_regsWf (h : s.regsWf = true) (c : Commit) : (s.breakCarried c).regsWf = true :=
  (s.breakLanes_reports c).wf (State.put_regsWf Adr.PLAN_STAT Fl.PLAN_STAT_GENERATION (s.breakGen c) h)

theorem State.breakCarried_generation (h : s.regsWf = true) (c : Commit) :
    (s.breakCarried c).get Adr.PLAN_STAT Fl.PLAN_STAT_GENERATION = s.breakGen c % 65536 :=
  ((s.breakLanes_reports c).get (State.put_regsWf _ _ _ h) Adr.PLAN_STAT Fl.PLAN_STAT_GENERATION (by decide)).trans
    (State.get_put_same _ _ _ (by decide) h)

theorem State.breakGen_mod (s : State) (c : Commit) : s.breakGen c % 65536 = (match c.setGen with
    | some g => g % 65536 | none => (s.get Adr.PLAN_STAT Fl.PLAN_STAT_GENERATION + 1) % 65536) := by
  unfold State.breakGen
  split
  · rfl
  · exact Nat.mod_mod ..

theorem State.brokenPlan_commits (hc : s.plan.commits = c :: rest) :
    (s.brokenPlan (s.breakLanes c) c).commits = s.brokenCommit c :: rest := by
  have hPlan : (s.breakLanes c).plan = s.plan := (s.breakLanes_reports c).plan
  show _ :: (s.breakLanes c).plan.commits.tail = _ :: rest
  rw [hPlan, hc]
  rfl

theorem State.breakCarried_time (s : State) (c : Commit) : (s.breakCarried c).time = s.time := (s.breakLanes_reports c).time

theorem State.afterBreak_reports (s : State) : Reports s (State.interrupts s s.settleAll) :=
  State.interrupts_reports (State.settleAll_reports .rfl) _

theorem State.afterBreak_plan (s : State) (es : List Nat) : (s.afterBreak es).plan = s.plan :=
  (State.convert_plan ..).trans ((State.replan_plan _).trans s.afterBreak_reports.plan)

theorem State.afterBreak_time (s : State) (es : List Nat) : (s.afterBreak es).time = s.time :=
  (State.convert_time ..).trans ((State.refreshGo_time _).trans
    ((State.refreshOuts_reports (State.interrupts_reports (State.settleAll_reports .rfl) _)).time))

theorem State.afterBreak_led (s : State) (es : List Nat) : (s.afterBreak es).led = s.led := by
  unfold State.afterBreak State.replan
  rw [State.convert_led, State.refreshGo_led, State.refreshOuts_led, State.interrupts_led]
  rfl

theorem State.convert_get (s : State) (es : List Nat) (b : Nat) (f : Field) : (s.convert es).get b f = s.get b f := by
  unfold State.get
  rw [State.convert_rd]

theorem State.afterBreak_get (h : s.regsWf = true) (es : List Nat) (b : Nat) (f : Field) (hq : quiet (b + f.off) = true)
    (hb : b + f.off ≠ Adr.PLAN_STAT) : (s.afterBreak es).get b f = s.get b f :=
  (State.convert_get ..).trans ((State.replan_get (s.afterBreak_reports.wf h) b f hq hb).trans (s.afterBreak_reports.get h b f hq))

theorem State.afterBreak_generation (h : s.regsWf = true) (es : List Nat) :
    (s.afterBreak es).get Adr.PLAN_STAT Fl.PLAN_STAT_GENERATION = s.get Adr.PLAN_STAT Fl.PLAN_STAT_GENERATION := by
  have kOuts : Reports s (State.interrupts s s.settleAll).refreshOuts := State.refreshOuts_reports s.afterBreak_reports
  exact (State.convert_get ..).trans ((State.refreshGo_get_apart (kOuts.wf h) _ (by decide) (by decide)).trans
    (kOuts.get h _ _ (by decide)))

theorem quiet_cmp {n : Nat} (hn : n < 16) : quiet (Adr.CMP n + 0) = true := by
  unfold quiet Adr.CMP
  simp
  omega

theorem State.afterBreak_cmp (h : s.regsWf = true) (es : List Nat) {n : Nat} (hn : n < 16) (f : Field) (hf : f.off = 0) :
    (s.afterBreak es).flag (Adr.CMP n) f = s.flag (Adr.CMP n) f := by
  have hNot : Adr.CMP n + f.off ≠ Adr.PLAN_STAT := by
    simp [hf, Adr.PLAN_STAT, Adr.CMP]
    omega
  exact congrArg (· != 0) (State.afterBreak_get h es _ f (by rw [hf]; exact quiet_cmp hn) hNot)

theorem State.fireUnit_hostOnly (s : State) (n : Nat) : HostOnly s (s.fireUnit n) :=
  ((s.putFlag_hostOnly ..).trans (State.putFlag_hostOnly ..)).trans (State.hubEvent_hostOnly ..)

theorem State.fireUnit_regsWf (h : s.regsWf = true) (n : Nat) : (s.fireUnit n).regsWf = true :=
  (State.hubEvent_reports .rfl ..).wf (State.putFlag_regsWf _ _ _ (State.putFlag_regsWf _ _ _ h))

/-- The event behind the firing leaves the unit's first word. -/
theorem State.fireUnit_flag (h : s.regsWf = true) {n : Nat} (hn : n < 16) (f : Field) (hf : f.off = 0) :
    (s.fireUnit n).flag (Adr.CMP n) f
      = ((s.putFlag (Adr.CMP n) Fl.CMP_EN false).putFlag (Adr.CMP n) Fl.CMP_FIRED true).flag (Adr.CMP n) f := by
  have kEvent := State.hubEvent_reports
    (Reports.rfl (s := (s.putFlag (Adr.CMP n) Fl.CMP_EN false).putFlag (Adr.CMP n) Fl.CMP_FIRED true)) 0x02 1
  have hq : quiet (Adr.CMP n + f.off) = true := by
    rw [hf]
    exact quiet_cmp hn
  exact congrArg (· != 0) (kEvent.get (State.putFlag_regsWf _ _ _ (State.putFlag_regsWf _ _ _ h)) (Adr.CMP n) f hq)

theorem State.fireUnit_en (h : s.regsWf = true) {n : Nat} (hn : n < 16) : (s.fireUnit n).flag (Adr.CMP n) Fl.CMP_EN = false := by
  rw [State.fireUnit_flag h hn Fl.CMP_EN rfl]
  exact (State.flag_put_apart (State.putFlag_regsWf _ _ _ h) _ Fl.CMP_FIRED _ Fl.CMP_EN (by decide)).trans
    (State.flag_putFlag_same _ Fl.CMP_EN _ (by decide) (by decide) h)

theorem State.fireUnit_fired (h : s.regsWf = true) {n : Nat} (hn : n < 16) : (s.fireUnit n).flag (Adr.CMP n) Fl.CMP_FIRED = true := by
  rw [State.fireUnit_flag h hn Fl.CMP_FIRED rfl]
  exact State.flag_putFlag_same _ Fl.CMP_FIRED _ (by decide) (by decide) (State.putFlag_regsWf _ _ _ h)

theorem State.fireUnit_generation (h : s.regsWf = true) {n : Nat} (hn : n < 16) :
    (s.fireUnit n).get Adr.PLAN_STAT Fl.PLAN_STAT_GENERATION = s.get Adr.PLAN_STAT Fl.PLAN_STAT_GENERATION := by
  have hEn := State.putFlag_regsWf (Adr.CMP n) Fl.CMP_EN false h
  have hOther : Adr.PLAN_STAT + Fl.PLAN_STAT_GENERATION.off ≠ Adr.CMP n + 0 := by
    simp [Adr.PLAN_STAT, Adr.CMP, Fl.PLAN_STAT_GENERATION]
    omega
  exact ((State.hubEvent_reports .rfl ..).get (State.putFlag_regsWf _ _ _ hEn) _ _ (by decide)).trans
    ((State.get_put_word _ _ _ _ _ hOther hEn).trans (State.get_put_word _ _ _ _ _ hOther h))

/-! ## The move -/

/-- The commit at the head as `c'`. -/
def State.advanceCommit (s : State) (c' : Commit) : State := s.setPlan { s.plan with commits := c' :: s.plan.commits.tail }

/-- The combs whose lanes move count it. -/
def State.countMoves (s : State) : State := s.combsEvent (s.movers.map (· / 64)).eraseDups 0x13 1

theorem State.advanceCommit_commits (h : s.plan.commits = c :: rest) (c' : Commit) : (s.advanceCommit c').plan.commits = c' :: rest := by
  show c' :: s.plan.commits.tail = c' :: rest
  rw [h]
  rfl

theorem State.countMoves_plan (s : State) : s.countMoves.plan = s.plan := (s.combsEvent_reports ..).plan

theorem State.countMoves_lanes (s : State) : s.countMoves.ctl.lanes = s.ctl.lanes := (s.combsEvent_sameLanes ..).lanes

/-- The lanes as the move starts, their routines reached, and the commit MOVING. -/
def State.movesBegun (s : State) (c : Commit) : State :=
  ((State.interrupts s (s.mapLanes (s.startLane c))).advanceCommit { c with phase := 2, strobe := 0 }).countMoves

theorem moveStart_of_due (hc : s.plan.commits = c :: rest) (hphase : c.phase = 1) (hdue : c.tBreak + 25 ≤ s.tick) :
    moveStart s = (s.movesBegun c).replan.convert (s.movesBegun c).movers := by
  have hGate : ¬ (c.phase ≠ 1 ∨ s.tick < c.start) := by
    unfold Commit.start
    omega
  unfold moveStart
  simp only [State.head_commits hc, if_neg hGate]
  rfl

theorem State.movesBegun_lanes (s : State) (c : Commit) : (s.movesBegun c).ctl.lanes = (s.mapLanes (s.startLane c)).ctl.lanes :=
  (State.countMoves_lanes _).trans (State.interrupts_sameLanes ..).lanes

theorem State.movesBegun_plan (hc : s.plan.commits = c :: rest) :
    (s.movesBegun c).plan.commits = { c with phase := 2, strobe := 0 } :: rest ∧ (s.movesBegun c).plan.inForce = s.plan.inForce := by
  have hPlan : (State.interrupts s (s.mapLanes (s.startLane c))).plan = s.plan :=
    (State.interrupts_reports (State.mapLanes_reports .rfl _) _).plan
  unfold State.movesBegun
  rw [State.countMoves_plan]
  refine ⟨State.advanceCommit_commits (hPlan ▸ hc) _, ?_⟩
  exact (congrArg PlanUnit.inForce hPlan : (State.interrupts s (s.mapLanes (s.startLane c))).plan.inForce = s.plan.inForce)

theorem State.startLane_of_none {e : Nat} {x : Lane} (h : s.moveTarget c e x = none) : s.startLane c e x = x := by
  unfold State.startLane
  rw [h]

theorem State.startLane_of_target {e : Nat} {x : Lane} {p : Int} (h : s.moveTarget c e x = some p) (hp : p ≠ wrap16 x.sp) :
    (s.startLane c e x).st = 6 ∧ (s.startLane c e x).phi0 = wrap16 x.sp ∧ (s.startLane c e x).dphi = p - wrap16 x.sp := by
  have hTaken : s.startLane c e x = { x.taken with
      phi0 := wrap16 x.sp, dphi := p - wrap16 x.sp, moveCode := s.codeFor e (wrap16 x.sp) x.integ } := by
    unfold State.startLane
    rw [h]
    exact if_neg hp
  rw [hTaken]
  exact ⟨rfl, rfl, rfl⟩

/-- The lanes at profile value `y`, and the strobe counted. -/
def State.movesStepped (s : State) (c : Commit) : State :=
  ((s.mapLanes (s.moveLane (moveS c.lim c.dmax (c.strobe + 1)))).advanceCommit { c with strobe := c.strobe + 1 }).countMoves

theorem profileStep_of_due (hc : s.plan.commits = c :: rest) (hphase : c.phase = 2) (hleft : c.strobe < c.ds / 8)
    (hdue : c.tBreak + 25 + 5 * (c.strobe + 1) ≤ s.tick) :
    profileStep s = (s.movesStepped c).convert (s.movesStepped c).movers := by
  have hGate : ¬ (c.phase ≠ 2 ∨ c.ds / 8 ≤ c.strobe ∨ s.tick < c.start + 5 * (c.strobe + 1)) := by
    unfold Commit.start
    omega
  unfold profileStep
  simp only [State.head_commits hc, if_neg hGate]
  rfl

theorem State.movesStepped_lanes (s : State) (c : Commit) :
    (s.movesStepped c).ctl.lanes = (s.mapLanes (s.moveLane (moveS c.lim c.dmax (c.strobe + 1)))).ctl.lanes := State.countMoves_lanes _

theorem State.movesStepped_commits (hc : s.plan.commits = c :: rest) :
    (s.movesStepped c).plan.commits = { c with strobe := c.strobe + 1 } :: rest := by
  unfold State.movesStepped
  rw [State.countMoves_plan]
  exact State.advanceCommit_commits hc _

theorem State.moveLane_moving {y e : Nat} {x : Lane} (hst : x.st = 6) (hstep : x.stepped = false) :
    (s.moveLane y e x).sp = wrap 16 (x.phi0 + asr (x.dphi * y + 32768) 16)
      ∧ (s.moveLane y e x).moveCode = s.codeFor e (x.phi0 + asr (x.dphi * y + 32768) 16) x.integ := by
  unfold State.moveLane
  rw [if_pos ⟨hst, hstep⟩]
  exact ⟨rfl, rfl⟩

theorem State.moveLane_of_other {y e : Nat} {x : Lane} (h : x.st ≠ 6 ∨ x.stepped = true) : s.moveLane y e x = x := by
  unfold State.moveLane
  rw [if_neg]
  rintro ⟨hst, hstep⟩
  rcases h with h | h
  · exact h hst
  · rw [hstep] at h
    exact absurd h (by decide)

/-! ## The end of the move -/

/-- A lane of the profile at its target, out of MOVING. -/
def State.arriveLane (s : State) (e : Nat) (x : Lane) : Lane := s.endMove e (s.moveLane 65536 e x)

/-- Every moving lane has arrived. -/
def State.arrived (s : State) : State := s.movers.foldl (fun s e => s.onLane e (s.arriveLane e)) s

theorem moveEnd_of_due (hc : s.plan.commits = c :: rest) (hphase : c.phase = 2) (hlast : c.ds / 8 ≤ c.strobe)
    (hdue : c.tBreak + 25 + c.ds * 5 / 8 ≤ s.tick) :
    moveEnd s = ((s.movers.foldl (fun s e => s.urgentLane e) s.arrived).advanceCommit { c with phase := 3 }).replan := by
  have hGate : ¬ (c.phase ≠ 2 ∨ c.strobe < c.ds / 8 ∨ s.tick < c.start + nsTicks c.ds) := by
    unfold Commit.start nsTicks
    omega
  unfold moveEnd
  simp only [State.head_commits hc, if_neg hGate]
  rfl

theorem foldl_urgentLane_combOnly {β : Type} (f : β → Nat) (l : List β) (s : State) :
    CombOnly s (l.foldl (fun s b => s.urgentLane (f b)) s) := foldl_combOnly (fun s b => s.urgentLane_combOnly (f b)) l s

theorem foldl_onLane_plan {β : Type} {k : State → β → Nat} {F : State → β → Lane → Lane} (l : List β) (s : State) :
    (l.foldl (fun s b => s.onLane (k s b) (F s b)) s).plan = s.plan :=
  (foldl_reports (Reports.rfl (s := s)) fun _ _ h => State.onLane_reports h ..).plan

theorem State.endMove_fields (s : State) (e : Nat) (x : Lane) :
    (s.endMove e x).st ≠ 6 ∧ (s.endMove e x).sp = x.sp ∧ (s.endMove e x).committed = x.moveCode := by
  unfold State.endMove
  dsimp only
  split
  · exact ⟨(by decide : (8 : Nat) ≠ 6), rfl, rfl⟩
  · split
    · exact ⟨(by decide : (4 : Nat) ≠ 6), rfl, rfl⟩
    · exact ⟨(by decide : (3 : Nat) ≠ 6), rfl, rfl⟩

/-- The last value of the profile is 65,536: the whole of Δφ. -/
theorem asr_whole (d : Int) : asr (d * (65536 : Nat) + 32768) 16 = d := by
  unfold asr
  omega

/-- A lane of the profile ends its move at φ0 + Δφ. -/
theorem State.arriveLane_moving {e : Nat} {x : Lane} (hst : x.st = 6) (hstep : x.stepped = false) :
    (s.arriveLane e x).st ≠ 6 ∧ (s.arriveLane e x).sp = wrap 16 (x.phi0 + x.dphi)
      ∧ (s.arriveLane e x).committed = s.codeFor e (x.phi0 + x.dphi) x.integ := by
  obtain ⟨hState, hPoint, hCode⟩ := s.endMove_fields e (s.moveLane 65536 e x)
  obtain ⟨hSp, hMove⟩ := State.moveLane_moving (s := s) (y := 65536) (e := e) hst hstep
  rw [asr_whole] at hSp hMove
  exact ⟨hState, hPoint.trans hSp, hCode.trans hMove⟩

/-! ## The make -/

/-- The commit with the circuits that the make leaves out. -/
def State.makeCommit (s : State) (c : Commit) : Commit := { c with notMade := c.notMade ++ s.strays c }

/-- The gates of the affected outputs as the make leaves them, with their urgent requests. -/
def State.makeGates (s : State) (c : Commit) : State :=
  let w := s.withhold c.words (s.strays c)
  let gates := c.affected.filter fun o => let x := w.lane (gateIx s.variant o); x.st == 6 && x.stepped
  let u := c.affected.foldl (fun s' o => s'.onLane (gateIx s.variant o) (s'.makeLane (s.makeCommit c) o)) w
  gates.foldl (fun s' o => s'.urgentLane (gateIx s.variant o)) u

/-- The commit leaves, and GO_OK stays clear for 1 µs. -/
def State.dropHead (s : State) (c : Commit) : State :=
  s.setPlan { s.plan with commits := s.plan.commits.tail, goHold := s.tick + 625, lastMake := c.makeNs, lastFrac := c.makeFrac }

/-- PLAN_LAST shows the move of the commit that left. -/
def State.leaveCommit (s : State) (c : Commit) : State :=
  (((if c.setGen.isSome then (s.dropHead c).endSync else s.dropHead c).put Adr.PLAN_LAST Fl.PLAN_LAST_DMAX c.dmax).put
    Adr.PLAN_LAST Fl.PLAN_LAST_DUR c.ds).hubEvent 0x09 1

/-- Outputs, GO_OK and DACs follow, and the owners hear of the make. -/
def State.announceMake (s : State) (c : Commit) (es : List Nat) : State :=
  let u := s.replan.convert es
  u.postOwnersAt 0x0010 c.makeNs c.makeFrac (le 2 (u.get Adr.PLAN_STAT Fl.PLAN_STAT_GENERATION) ++ le 1 c.id)

theorem State.withhold_reports (s : State) (ws os : List Nat) : Reports s (s.withhold ws os) :=
  foldl_reports .rfl fun _ _ k => State.setOut_reports k ..

theorem State.withhold_lanes (s : State) (ws os : List Nat) : (s.withhold ws os).ctl.lanes = s.ctl.lanes := by
  unfold State.withhold
  induction os generalizing s with
  | nil => rfl
  | cons o os ih => exact (ih _).trans rfl

theorem State.makeGates_kept (s : State) (c : Commit) : Kept s (s.makeGates c) :=
  foldl_kept (foldl_kept (State.withhold_kept .rfl ..) fun _ _ k => State.onLane_kept k ..) fun _ _ k => State.urgentLane_kept k _

theorem State.makeGates_plan (s : State) (c : Commit) : (s.makeGates c).plan = s.plan :=
  (foldl_urgentLane_combOnly ..).plan.trans ((foldl_onLane_plan ..).trans (s.withhold_reports ..).plan)

theorem State.makeGates_tick (s : State) (c : Commit) : (s.makeGates c).tick = s.tick :=
  (foldl_urgentLane_combOnly ..).tick.trans
    ((foldl_reports (State.withhold_reports s c.words (s.strays c)) fun _ _ k => State.onLane_reports k ..).tick)

theorem State.makeGates_lane (h : s.ctl.tablesWf = true) {e : Nat} (he : ∀ o ∈ c.affected, e ≠ gateIx s.variant o) :
    (s.makeGates c).lane e = s.lane e := by
  have kWithhold : Kept s (s.withhold c.words (s.strays c)) := State.withhold_kept .rfl ..
  exact (State.lane_congr (foldl_urgentLane_combOnly ..).lanes e).trans
    ((State.lane_foldl_onLane_other (kWithhold.tables h) fun _ => he).trans (State.lane_congr (s.withhold_lanes ..) e))

theorem State.synced_kept (s : State) (c : Commit) : Kept s (if c.setGen.isSome then (s.dropHead c).endSync else s.dropHead c) :=
  ite_kept (State.endSync_kept ⟨rfl, rfl, id, id, id, id⟩) ⟨rfl, rfl, id, id, id, id⟩

theorem State.leaveCommit_reports (s : State) (c : Commit) :
    Reports (((if c.setGen.isSome then (s.dropHead c).endSync else s.dropHead c).put Adr.PLAN_LAST Fl.PLAN_LAST_DMAX c.dmax).put
      Adr.PLAN_LAST Fl.PLAN_LAST_DUR c.ds) (s.leaveCommit c) := State.hubEvent_reports .rfl ..

theorem State.leaveCommit_regsWf (h : s.regsWf = true) (c : Commit) : (s.leaveCommit c).regsWf = true :=
  (s.leaveCommit_reports c).wf (State.put_regsWf _ _ _ (State.put_regsWf _ _ _ ((s.synced_kept c).regs h)))

theorem State.leaveCommit_plan (s : State) (c : Commit) : (s.leaveCommit c).plan = (s.dropHead c).plan := by
  refine (s.leaveCommit_reports c).plan.trans ?_
  show State.plan (if _ then _ else _) = _
  rw [apply_ite State.plan]
  exact ite_self _

theorem State.leaveCommit_tick (s : State) (c : Commit) : (s.leaveCommit c).tick = s.tick := by
  refine (s.leaveCommit_reports c).tick.trans ?_
  show State.tick (if _ then _ else _) = _
  rw [apply_ite State.tick]
  exact ite_self _

theorem State.leaveCommit_lanes (s : State) (c : Commit) : (s.leaveCommit c).ctl.lanes = s.ctl.lanes := by
  refine (State.hubEvent_hostOnly ..).sameLanes.lanes.trans ?_
  show (State.ctl (if _ then _ else _)).lanes = _
  rw [apply_ite State.ctl, apply_ite Ctl.lanes]
  exact ite_self _

theorem State.leaveCommit_last (h : s.regsWf = true) (c : Commit) :
    (s.leaveCommit c).get Adr.PLAN_LAST Fl.PLAN_LAST_DMAX = c.dmax % 2 ^ Fl.PLAN_LAST_DMAX.width
      ∧ (s.leaveCommit c).get Adr.PLAN_LAST Fl.PLAN_LAST_DUR = c.ds % 2 ^ Fl.PLAN_LAST_DUR.width := by
  have hSync := (s.synced_kept c).regs h
  have hMax := State.put_regsWf Adr.PLAN_LAST Fl.PLAN_LAST_DMAX c.dmax hSync
  have hBoth := State.put_regsWf Adr.PLAN_LAST Fl.PLAN_LAST_DUR c.ds hMax
  constructor
  · exact ((s.leaveCommit_reports c).get hBoth _ _ (by decide)).trans
      ((State.get_put_apart hMax _ _ _ _ (by decide)).trans (State.get_put_same _ _ _ (by decide) hSync))
  · exact ((s.leaveCommit_reports c).get hBoth _ _ (by decide)).trans (State.get_put_same _ _ _ (by decide) hMax)

theorem State.announceMake_reports (s : State) (c : Commit) (es : List Nat) :
    Reports (s.replan.convert es) (s.announceMake c es) := State.postOwnersAt_reports .rfl ..

theorem State.replan_regsWf (h : s.regsWf = true) : s.replan.regsWf = true :=
  State.refreshGo_regsWf ((State.refreshOuts_reports .rfl).wf h)

theorem State.announceMake_plan (s : State) (c : Commit) (es : List Nat) : (s.announceMake c es).plan = s.plan :=
  (s.announceMake_reports c es).plan.trans ((State.convert_plan ..).trans s.replan_plan)

theorem State.announceMake_lanes (s : State) (c : Commit) (es : List Nat) : (s.announceMake c es).ctl.lanes = s.ctl.lanes :=
  (State.postOwnersAt_hostOnly ..).sameLanes.lanes.trans ((State.convert_sameLanes ..).lanes.trans s.replan_lanes)

theorem State.announceMake_get (h : s.regsWf = true) (c : Commit) (es : List Nat) (b : Nat) (f : Field) (hq : quiet (b + f.off) = true)
    (hb : b + f.off ≠ Adr.PLAN_STAT) : (s.announceMake c es).get b f = s.get b f :=
  ((s.announceMake_reports c es).get (State.convert_regsWf (State.replan_regsWf h) _) b f hq).trans
    ((State.convert_get ..).trans (State.replan_get h b f hq hb))

/-- While the microsecond after the make lasts GO_OK is clear. -/
theorem State.announceMake_goOk (h : s.regsWf = true) (c : Commit) (es : List Nat) (hhold : s.tick < s.plan.goHold) :
    (s.announceMake c es).flag Adr.PLAN_STAT Fl.PLAN_STAT_GO_OK = false := by
  have kOuts : Reports s s.refreshOuts := State.refreshOuts_reports .rfl
  have hGo : s.replan.flag Adr.PLAN_STAT Fl.PLAN_STAT_GO_OK = false := by
    refine (State.refreshGo_flag (kOuts.wf h)).trans (State.goForms_of_goHold ?_)
    rw [kOuts.tick, show s.refreshOuts.plan = s.plan from kOuts.plan]
    exact hhold
  refine (congrArg (· != 0) (((s.announceMake_reports c es).get (State.convert_regsWf (State.replan_regsWf h) _) _ _ (by decide)).trans
    (State.convert_get ..))).trans hGo

theorem make_of_due (hc : s.plan.commits = c :: rest) (hphase : c.phase = 3) (hdue : c.tMake ≤ s.tick) :
    make s = ((s.makeGates c).leaveCommit c).announceMake c (c.affected.map (gateIx s.variant)) := by
  have hGate : ¬ (c.phase ≠ 3 ∨ s.tick < c.tMake) := by omega
  unfold make
  simp only [State.head_commits hc, if_neg hGate]
  rfl

/-! ## Before its instant, or out of its turn -/

theorem breakStrobe_of_notDue (hc : s.plan.commits = c :: rest) (h : c.phase ≠ 0 ∨ c.ackBy ≠ none ∨ s.tick < c.tBreak) :
    breakStrobe s = s := by
  unfold breakStrobe
  rw [State.head_commits hc]
  exact if_pos (h.imp_right (Or.imp_left Option.isSome_iff_ne_none.mpr))

theorem moveStart_of_notDue (hc : s.plan.commits = c :: rest) (h : c.phase ≠ 1 ∨ s.tick < c.tBreak + 25) : moveStart s = s := by
  unfold moveStart
  rw [State.head_commits hc]
  exact if_pos h

theorem profileStep_of_notDue (hc : s.plan.commits = c :: rest)
    (h : c.phase ≠ 2 ∨ c.ds / 8 ≤ c.strobe ∨ s.tick < c.tBreak + 25 + 5 * (c.strobe + 1)) : profileStep s = s := by
  unfold profileStep
  rw [State.head_commits hc]
  exact if_pos h

theorem moveEnd_of_notDue (hc : s.plan.commits = c :: rest)
    (h : c.phase ≠ 2 ∨ c.strobe < c.ds / 8 ∨ s.tick < c.tBreak + 25 + c.ds * 5 / 8) : moveEnd s = s := by
  unfold moveEnd
  rw [State.head_commits hc]
  exact if_pos h

theorem make_of_notDue (hc : s.plan.commits = c :: rest) (h : c.phase ≠ 3 ∨ s.tick < c.tMake) : make s = s := by
  unfold make
  rw [State.head_commits hc]
  exact if_pos h

/-! ## Each step of the commit at its instant -/

/-- The break puts the words in force, steps GENERATION and leaves its compare unit fired. -/
theorem breakStrobe_spec (h : s.regsWf = true) (hc : s.plan.commits = c :: rest) (hphase : c.phase = 0) (hack : c.ackBy = none)
    (hdue : c.tBreak ≤ s.tick) (hunit : c.unit < 16) (hgood : ∀ n, s.checkBad (0x9C + n) c.seq = false) :
    ∃ u c', exec .breakStrobe s = .next u
      ∧ u.plan.inForce = c.words ∧ u.plan.forceId = c.id ∧ u.plan.commits = c' :: rest ∧ c'.phase = 1 ∧ c'.tMake = c.tMake
      ∧ u.get Adr.PLAN_STAT Fl.PLAN_STAT_GENERATION = (match c.setGen with
          | some g => g % 65536 | none => (s.get Adr.PLAN_STAT Fl.PLAN_STAT_GENERATION + 1) % 65536)
      ∧ u.flag (Adr.CMP c.unit) Fl.CMP_EN = false ∧ u.flag (Adr.CMP c.unit) Fl.CMP_FIRED = true ∧ u.time = s.time ∧ u.led = s.led := by
  have hWf := State.breakCarried_regsWf h c
  have hFired := State.fireUnit_regsWf hWf c.unit
  have hPlan : (((s.breakCarried c).fireUnit c.unit).afterBreak ((s.breakAffected c).map (gateIx s.variant))).plan
      = s.brokenPlan (s.breakLanes c) c :=
    (State.afterBreak_plan ..).trans (congrArg Ctl.plan (State.fireUnit_hostOnly ..).ctl)
  refine ⟨_, s.brokenCommit c, congrArg Host.Outcome.next (breakStrobe_of_due hc hphase hack hdue hgood), ?_, ?_, ?_, rfl, rfl, ?_, ?_,
    ?_, ?_, ?_⟩
  · rw [hPlan]
    rfl
  · rw [hPlan]
    rfl
  · rw [hPlan, State.brokenPlan_commits hc]
  · rw [State.afterBreak_generation hFired, State.fireUnit_generation hWf hunit, State.breakCarried_generation h, s.breakGen_mod]
  · rw [State.afterBreak_cmp hFired _ hunit Fl.CMP_EN rfl, State.fireUnit_en hWf hunit]
  · rw [State.afterBreak_cmp hFired _ hunit Fl.CMP_FIRED rfl, State.fireUnit_fired hWf hunit]
  · rw [State.afterBreak_time, (State.fireUnit_hostOnly ..).time, s.breakCarried_time]
  · rw [State.afterBreak_led, (State.fireUnit_hostOnly ..).led]
    exact s.breakLanes_led c

theorem moveStart_spec (htables : s.ctl.tablesWf = true) (hc : s.plan.commits = c :: rest) (hphase : c.phase = 1)
    (hdue : c.tBreak + 25 ≤ s.tick) :
    ∃ u, exec .moveStart s = .next u ∧ u.plan.commits = { c with phase := 2, strobe := 0 } :: rest ∧ u.plan.inForce = s.plan.inForce
      ∧ ∀ e, e < numElems s.variant → u.lane e = s.startLane c e (s.lane e) := by
  obtain ⟨hCommits, hForce⟩ := State.movesBegun_plan hc
  have hPlan : ((s.movesBegun c).replan.convert (s.movesBegun c).movers).plan = (s.movesBegun c).plan :=
    (State.convert_plan ..).trans (State.replan_plan _)
  refine ⟨_, congrArg Host.Outcome.next (moveStart_of_due hc hphase hdue), ?_, ?_, fun e he => ?_⟩
  · rw [hPlan, hCommits]
  · rw [hPlan, hForce]
  · refine (State.lane_congr ((State.convert_sameLanes ..).lanes.trans ((State.replan_lanes _).trans (s.movesBegun_lanes c))) e).trans ?_
    rw [State.lane_mapLanes htables, if_pos he]

theorem profileStep_spec (htables : s.ctl.tablesWf = true) (hc : s.plan.commits = c :: rest) (hphase : c.phase = 2)
    (hleft : c.strobe < c.ds / 8) (hdue : c.tBreak + 25 + 5 * (c.strobe + 1) ≤ s.tick) :
    ∃ u, exec .profileStep s = .next u ∧ u.plan.commits = { c with strobe := c.strobe + 1 } :: rest
      ∧ ∀ e, e < numElems s.variant → u.lane e = s.moveLane (moveS c.lim c.dmax (c.strobe + 1)) e (s.lane e) := by
  refine ⟨_, congrArg Host.Outcome.next (profileStep_of_due hc hphase hleft hdue), ?_, fun e he => ?_⟩
  · rw [State.convert_plan, State.movesStepped_commits hc]
  · refine (State.lane_congr ((State.convert_sameLanes ..).lanes.trans (s.movesStepped_lanes c)) e).trans ?_
    rw [State.lane_mapLanes htables, if_pos he]

theorem State.arrived_lane (htables : s.ctl.tablesWf = true) (e : Nat) :
    s.arrived.lane e = if (s.lane e).st = 6 ∧ (s.lane e).stepped = false then s.arriveLane e (s.lane e) else s.lane e := by
  have hSame : ∀ (s : State) (k : Nat) (x : Lane), (s.setLane k x).arriveLane = s.arriveLane := fun _ _ _ => rfl
  exact (State.lane_foldl_onLane (F := State.arriveLane) hSame (State.movers_nodup htables) htables e).trans
    (if_congr (State.mem_movers htables e) rfl rfl)

theorem moveEnd_spec (hc : s.plan.commits = c :: rest) (hphase : c.phase = 2)
    (hlast : c.ds / 8 ≤ c.strobe) (hdue : c.tBreak + 25 + c.ds * 5 / 8 ≤ s.tick) :
    ∃ u, exec .moveEnd s = .next u ∧ u.plan.commits = { c with phase := 3 } :: rest ∧ ∀ e, u.lane e = s.arrived.lane e := by
  have kUrgent : CombOnly s.arrived (s.movers.foldl (fun s e => s.urgentLane e) s.arrived) :=
    foldl_combOnly (fun s e => s.urgentLane_combOnly e) _ _
  have hCommits : (s.movers.foldl (fun s e => s.urgentLane e) s.arrived).plan.commits = c :: rest := by
    rw [kUrgent.plan, ← hc]
    exact congrArg PlanUnit.commits (foldl_onLane_plan ..)
  refine ⟨_, congrArg Host.Outcome.next (moveEnd_of_due hc hphase hlast hdue), ?_, fun e => ?_⟩
  · rw [State.replan_plan]
    exact State.advanceCommit_commits hCommits _
  · exact (State.lane_congr (State.replan_lanes _) e).trans (State.lane_congr kUrgent.lanes e)

/-- Settles O20: each step of the head commit at its instant by its own lemma, and before it by the gate of its row. -/
theorem commitIsCarriedOutOnItsStrobes : Obligations.CommitIsCarriedOutOnItsStrobes := by
  unfold Obligations.CommitIsCarriedOutOnItsStrobes
  intro s c rest hregs htables hc
  refine ⟨fun hphase hack hdue hunit hgood => breakStrobe_spec hregs hc hphase hack hdue hunit hgood,
    fun h => congrArg Host.Outcome.next (breakStrobe_of_notDue hc h), fun h => congrArg Host.Outcome.next (moveStart_of_notDue hc h),
    fun h => congrArg Host.Outcome.next (profileStep_of_notDue hc h), fun h => congrArg Host.Outcome.next (moveEnd_of_notDue hc h),
    fun h => congrArg Host.Outcome.next (make_of_notDue hc h), fun hphase hdue => ?_, fun hphase hleft hdue => ?_,
    fun hphase hlast hdue => ?_, fun hphase hdue => ?_, ?_⟩
  · obtain ⟨u, hu, hCommits, hForce, hLane⟩ := moveStart_spec htables hc hphase hdue
    refine ⟨u, hu, hCommits, hForce, fun e p he htarget hp => ?_, fun e he hnone => ?_⟩
    · rw [hLane e he]
      exact State.startLane_of_target htarget hp
    · rw [hLane e he, State.startLane_of_none hnone]
  · obtain ⟨u, hu, hCommits, hLane⟩ := profileStep_spec htables hc hphase hleft hdue
    refine ⟨u, hu, hCommits, fun e he hst hstep => ?_, fun e he hother => ?_⟩
    · rw [hLane e he, (State.moveLane_moving hst hstep).1]
    · rw [hLane e he, State.moveLane_of_other hother]
  · obtain ⟨u, hu, hCommits, hLane⟩ := moveEnd_spec hc hphase hlast hdue
    refine ⟨u, hu, hCommits, fun e hst hstep => ?_, fun e hst => ?_⟩
    · rw [hLane e, State.arrived_lane htables, if_pos ⟨hst, hstep⟩]
      exact State.arriveLane_moving hst hstep
    · rw [hLane e, State.arrived_lane htables, if_neg fun h => hst h.1]
  · set w := s.makeGates c with hw
    have hWf : w.regsWf = true := (s.makeGates_kept c).regs hregs
    have hDrop : (w.leaveCommit c).plan = (w.dropHead c).plan := w.leaveCommit_plan c
    have hPlan : w.plan = s.plan := s.makeGates_plan c
    have hTick : w.tick = s.tick := s.makeGates_tick c
    obtain ⟨hMax, hDur⟩ := State.leaveCommit_last hWf c
    have hLeft := State.leaveCommit_regsWf hWf c
    refine ⟨_, congrArg Host.Outcome.next (make_of_due hc hphase hdue), ?_, ?_, ?_, ?_, ?_, ?_, fun e he => ?_⟩
    · rw [State.announceMake_plan, hDrop]
      show w.plan.commits.tail = rest
      rw [hPlan, hc]
      rfl
    · rw [State.announceMake_plan, hDrop, ← hTick]
      rfl
    · rw [State.announceMake_plan, hDrop, ← hPlan]
      rfl
    · rw [State.announceMake_get hLeft _ _ _ _ (by decide) (by decide), hMax]
    · rw [State.announceMake_get hLeft _ _ _ _ (by decide) (by decide), hDur]
    · refine State.announceMake_goOk hLeft _ _ ?_
      rw [hDrop, State.leaveCommit_tick]
      exact Nat.lt_add_of_pos_right (by decide)
    · exact (State.lane_congr ((State.announceMake_lanes ..).trans (w.leaveCommit_lanes c)) e).trans
        (State.makeGates_lane htables fun o ho => he o ho)
  · refine ⟨s.refreshGo, rfl, ?_, s.refreshGo_plan, fun a ha => s.refreshGo_writesOnly.rd hregs a ha⟩
    rw [State.refreshGo_flag hregs]
    exact State.goForms_of_commits (by rw [hc]; exact List.cons_ne_nil _ _)

end Sys2Proof.Machine
end

section
/-! SUPPORT. What a session needs for its completion (R214 to R216), what keeps it, and the completion that follows. -/

namespace Sys2Proof.Machine

variable {s t : State} {q : Nat}

/-! ## The table of sessions -/

theorem SMap.find?_insert_same {α : Type} (m : SMap α) (k : Nat) (v : α) :
    (SMap.insert m k v).find? (fun e => e.1 == k) = some (k, v) := by
  induction m with
  | nil => simp [SMap.insert]
  | cons e m ih =>
    obtain ⟨a, x⟩ := e
    unfold SMap.insert
    split
    · simp
    · next hne =>
      split
      · simp
      · rw [List.find?_cons_of_neg (by simpa using fun h => hne h.symm), ih]

theorem SMap.find?_insert_other {α : Type} (m : SMap α) (k j : Nat) (v : α) (h : j ≠ k) :
    (SMap.insert m k v).find? (fun e => e.1 == j) = m.find? (fun e => e.1 == j) := by
  have hNew : ∀ l : SMap α, ((k, v) :: l).find? (fun e => e.1 == j) = l.find? (fun e => e.1 == j) :=
    fun l => List.find?_cons_of_neg (by simpa using h.symm)
  induction m with
  | nil => exact hNew []
  | cons e m ih =>
    obtain ⟨a, x⟩ := e
    unfold SMap.insert
    split
    · next heq =>
      rw [hNew, List.find?_cons_of_neg]
      simpa [← heq] using h.symm
    · split
      · exact hNew _
      · rw [List.find?_cons, List.find?_cons, ih]

theorem State.sess?_setSess_same (s : State) (q : Nat) (x : Sess) : (s.setSess q x).sess? q = some x :=
  congrArg (Option.map Prod.snd) (SMap.find?_insert_same s.host.sess q x)

theorem State.sess?_setSess_other (s : State) {q p : Nat} (x : Sess) (h : p ≠ q) : (s.setSess q x).sess? p = s.sess? p :=
  congrArg (Option.map Prod.snd) (SMap.find?_insert_other s.host.sess q p x h)

/-! ## What a session needs -/

/-- From `s` to `t` session `q` keeps the command it has taken and its completions, the stamping domain its time, and an OPEN session
whose writes do not fail its word. -/
structure Attends (q : Nat) (s t : State) : Prop where
  sess : ∀ x, s.sess? q = some x → ∃ y, t.sess? q = some y ∧ y.taken = x.taken ∧ y.cpl = x.cpl ∧ y.cplTail = x.cplTail
  wf : s.regsWf = true → t.regsWf = true
  time : t.time = s.time
  clock : s.regsWf = true → t.rd Adr.TIME_CTL = s.rd Adr.TIME_CTL
  dma : ∀ fn, t.fnDma fn = s.fnDma fn
  bad : t.host.wrBad = s.host.wrBad
  word : s.regsWf = true → q < 4096 → s.sessState q = 2 → s.wrFails q = false → t.rd (Adr.SESS q) = s.rd (Adr.SESS q)

theorem Attends.rfl : Attends q s s :=
  ⟨fun x h => ⟨x, h, Eq.refl _, Eq.refl _, Eq.refl _⟩, id, Eq.refl _, fun _ => Eq.refl _, fun _ => Eq.refl _, Eq.refl _,
    fun _ _ _ _ => Eq.refl _⟩

/-- Field 0 of a session's word. -/
theorem State.get_sess_congr (h : t.rd (Adr.SESS q) = s.rd (Adr.SESS q)) (f : Field) (hf : f.off = 0) :
    t.get (Adr.SESS q) f = s.get (Adr.SESS q) f := by
  unfold State.get
  rw [hf, Nat.add_zero, h]

theorem State.sessState_congr (h : t.rd (Adr.SESS q) = s.rd (Adr.SESS q)) : t.sessState q = s.sessState q :=
  State.get_sess_congr h _ rfl

theorem State.sessCarrier_congr (h : t.rd (Adr.SESS q) = s.rd (Adr.SESS q)) : t.sessCarrier q = s.sessCarrier q :=
  State.get_sess_congr h _ rfl

theorem State.sessFn_congr (h : t.rd (Adr.SESS q) = s.rd (Adr.SESS q)) : t.sessFn q = s.sessFn q := by
  unfold State.sessFn
  rw [State.sessCarrier_congr h, State.get_sess_congr h Fl.SESS_VF rfl]

theorem State.wrFails_congr (h : t.rd (Adr.SESS q) = s.rd (Adr.SESS q)) (hb : t.host.wrBad = s.host.wrBad) :
    t.wrFails q = s.wrFails q := by
  unfold State.wrFails
  rw [State.sessCarrier_congr h, State.sessFn_congr h, hb]

theorem State.dmaOk_congr (h : t.rd (Adr.SESS q) = s.rd (Adr.SESS q)) (hd : ∀ fn, t.fnDma fn = s.fnDma fn) :
    t.dmaOk q = s.dmaOk q := by
  unfold State.dmaOk State.faulted State.flag
  rw [State.sessState_congr h, State.get_sess_congr h Fl.SESS_DMA_ERR rfl, State.sessCarrier_congr h, State.sessFn_congr h, hd]

theorem Attends.trans {u : State} (h : Attends q s t) (k : Attends q t u) : Attends q s u where
  sess x hx := by
    obtain ⟨y, hy, hTaken, hCpl, hTail⟩ := h.sess x hx
    obtain ⟨z, hz, kTaken, kCpl, kTail⟩ := k.sess y hy
    exact ⟨z, hz, kTaken.trans hTaken, kCpl.trans hCpl, kTail.trans hTail⟩
  wf := k.wf ∘ h.wf
  time := k.time.trans h.time
  clock w := (k.clock (h.wf w)).trans (h.clock w)
  dma fn := (k.dma fn).trans (h.dma fn)
  bad := k.bad.trans h.bad
  word w hq hs hf := by
    have hWord := h.word w hq hs hf
    have hState : t.sessState q = 2 := (State.sessState_congr hWord).trans hs
    have hFails : t.wrFails q = false := (State.wrFails_congr hWord h.bad).trans hf
    exact (k.word (h.wf w) hq hState hFails).trans hWord

theorem ite_attends {c : Prop} [Decidable c] {a b : State} (ha : Attends q s a) (hb : Attends q s b) :
    Attends q s (if c then a else b) := by
  split
  · exact ha
  · exact hb

theorem foldl_attends {β : Type} {f : State → β → State} (hf : ∀ s x, Attends q s (f s x)) (l : List β) (s : State) :
    Attends q s (l.foldl f s) := by
  induction l generalizing s with
  | nil => exact .rfl
  | cons x l ih => exact (hf s x).trans (ih (f s x))

theorem Attends.ns32 (h : Attends q s t) (w : s.regsWf = true) : t.ns32 = s.ns32 := by
  have hDom : t.sdom = s.sdom := by
    unfold State.sdom State.get
    rw [show Adr.TIME_CTL + Fl.TIME_CTL_STAMP_DOM.off = Adr.TIME_CTL from Eq.refl _, h.clock w]
  unfold State.ns32 State.now
  rw [hDom, h.time]

/-! ## What keeps it -/

/-- A register that is the word of no session, and not TIME_CTL. -/
def offSessions (a : Nat) : Bool := a != Adr.TIME_CTL && (decide (a < 0xd0000) || decide (0xe0000 ≤ a) || a % 16 != 0)

theorem sess_not_offSessions (hq : q < 4096) : offSessions (Adr.SESS q) = false := by
  unfold offSessions Adr.SESS
  simp
  omega

/-- What writes such registers alone, and leaves sessions, DMA and time. -/
theorem Attends.of_writes {w : Nat → Prop} (k : WritesOnly w s t) (hw : ∀ a, w a → offSessions a = true) (ht : t.time = s.time)
    (hs : t.host.sess = s.host.sess) (hd : ∀ fn, t.fnDma fn = s.fnDma fn) (hb : t.host.wrBad = s.host.wrBad) : Attends q s t where
  sess x hx := ⟨x, by unfold State.sess?; rw [hs]; exact hx, Eq.refl _, Eq.refl _, Eq.refl _⟩
  wf := k.wf
  time := ht
  clock h := k.rd h _ fun hc => absurd (hw _ hc) (by decide)
  dma := hd
  bad := hb
  word h hq _ _ := k.rd h _ fun hc => absurd (hw _ hc) (by rw [sess_not_offSessions hq]; decide)

theorem Attends.of_host (k : WritesOnly (fun a => offSessions a = true) s t) (ht : t.time = s.time) (hh : t.host = s.host) :
    Attends q s t :=
  .of_writes k (fun _ => id) ht (congrArg HostIf.sess hh) (fun fn => by unfold State.fnDma; rw [hh]) (congrArg HostIf.wrBad hh)

theorem State.put_attends (s : State) (b : Nat) (f : Field) (n : Nat) (h : offSessions (b + f.off) = true) : Attends q s (s.put b f n) :=
  .of_host ⟨State.put_regsWf _ _ _, fun hw a ha => State.rd_put_word _ _ _ _ (by rintro rfl; exact ha h) hw⟩ rfl rfl

theorem State.putFlag_attends (s : State) (b : Nat) (f : Field) (x : Bool) (h : offSessions (b + f.off) = true) :
    Attends q s (s.putFlag b f x) := s.put_attends b f _ h

theorem State.count_attends (s : State) (b : Nat) (f : Field) (n : Nat) (h : offSessions (b + f.off) = true) :
    Attends q s (s.count b f n) := s.put_attends b f _ h

theorem State.putPair_attends (s : State) (b : Nat) (lo hi : Field) (n : Nat) (hl : offSessions (b + lo.off) = true)
    (hh : offSessions (b + hi.off) = true) : Attends q s (s.putPair b lo hi n) :=
  (s.put_attends b lo n hl).trans (State.put_attends _ b hi _ hh)

/-- What leaves registers, host interface and time. -/
theorem Attends.of_eq (hr : t.regs = s.regs) (hv : t.variant = s.variant) (ht : t.time = s.time) (hh : t.host = s.host) :
    Attends q s t := by
  refine .of_host ⟨fun h => ?_, fun _ a _ => ?_⟩ ht hh
  · unfold State.regsWf at h ⊢
    rw [hr, hv]
    exact h
  · unfold State.rd
    rw [hr, hv]

theorem offSessions_perfHc (i k : Nat) : offSessions (Adr.PERF_HC i + k) = true := by
  unfold offSessions Adr.PERF_HC Adr.TIME_CTL
  simp
  omega

theorem State.hubEvent_attends (s : State) (ev n : Nat) : Attends q s (s.hubEvent ev n) := by
  unfold State.hubEvent
  refine ite_attends .rfl (foldl_attends (fun s i => ?_) _ s)
  have kCount := fun m => s.putPair_attends (q := q) (Adr.PERF_HC i) Fl.PERF_HC_VAL_LO Fl.PERF_HC_VAL_HI m
    (offSessions_perfHc ..) (offSessions_perfHc ..)
  exact ite_attends (ite_attends ((kCount _).trans (State.putFlag_attends _ _ _ _ (offSessions_perfHc ..))) (kCount _)) .rfl

theorem foldl_host {β : Type} {f : State → β → State} (hf : ∀ s x, (f s x).host = s.host) (l : List β) (s : State) :
    (l.foldl f s).host = s.host := by
  induction l generalizing s with
  | nil => rfl
  | cons x l ih => rw [List.foldl_cons, ih, hf]

theorem State.hubEvent_host (s : State) (ev n : Nat) : (s.hubEvent ev n).host = s.host := by
  unfold State.hubEvent
  rw [apply_ite State.host, foldl_host, ite_self]
  intro s i
  dsimp only
  split
  · rw [apply_ite State.host, State.putFlag_host, State.putPair_host, ite_self]
  · rfl

theorem State.sess?_hubEvent (s : State) (ev n p : Nat) : (s.hubEvent ev n).sess? p = s.sess? p := by
  unfold State.sess?
  rw [s.hubEvent_host]

/-- An update of a session that keeps its taken command and its completions. -/
theorem State.setSess_attends {p : Nat} {x y : Sess} (hx : s.sess? p = some x) (ht : y.taken = x.taken) (hc : y.cpl = x.cpl)
    (hl : y.cplTail = x.cplTail) : Attends q s (s.setSess p y) where
  sess z hz := by
    by_cases h : q = p
    · subst h
      obtain rfl : x = z := Option.some.inj (hx.symm.trans hz)
      exact ⟨y, s.sess?_setSess_same q y, ht, hc, hl⟩
    · exact ⟨z, (s.sess?_setSess_other y h).trans hz, Eq.refl _, Eq.refl _, Eq.refl _⟩
  wf := id
  time := Eq.refl _
  clock _ := Eq.refl _
  dma _ := Eq.refl _
  bad := Eq.refl _
  word _ _ _ _ := Eq.refl _

theorem State.onSess_attends (s : State) (p : Nat) (f : Sess → Sess)
    (hf : ∀ x, (f x).taken = x.taken ∧ (f x).cpl = x.cpl ∧ (f x).cplTail = x.cplTail) : Attends q s (s.onSess p f) := by
  unfold State.onSess
  split
  · next x hx =>
    obtain ⟨ht, hc, hl⟩ := hf x
    exact State.setSess_attends hx ht hc hl
  · exact .rfl

theorem State.dmaFault_writesOnly (s : State) (p : Nat) : WritesOnly (· = Adr.SESS p) s (s.dmaFault p) := by
  unfold State.dmaFault
  exact ite_writesOnly ((State.putFlag_writesOnly _ _ _ rfl).trans (State.put_writesOnly _ _ _ rfl)) .rfl

theorem State.dmaFault_host (s : State) (p : Nat) : (s.dmaFault p).host = s.host := by
  unfold State.dmaFault
  rw [apply_ite State.host]
  exact ite_self _

theorem sess_ne_timeCtl (p : Nat) : Adr.TIME_CTL ≠ Adr.SESS p := by
  simp [Adr.TIME_CTL, Adr.SESS]
  omega

/-- A failed write faults the session whose writes fail, and no other. -/
theorem State.dmaFault_attends {p : Nat} (hp : s.wrFails p = true) : Attends q s (s.dmaFault p) where
  sess x hx := ⟨x, by unfold State.sess?; rw [s.dmaFault_host]; exact hx, Eq.refl _, Eq.refl _, Eq.refl _⟩
  wf := (s.dmaFault_writesOnly p).wf
  time := (s.dmaFault_hostOnly p).time
  clock w := (s.dmaFault_writesOnly p).rd w _ (sess_ne_timeCtl p)
  dma fn := by unfold State.fnDma; rw [s.dmaFault_host]
  bad := congrArg HostIf.wrBad (s.dmaFault_host p)
  word w _ _ hf := by
    refine (s.dmaFault_writesOnly p).rd w _ fun h => ?_
    have hqp : q = p := by
      simp only [Adr.SESS] at h
      omega
    rw [hqp, hp] at hf
    exact absurd hf (by decide)

/-- A change of the host interface beside sessions and DMA. -/
theorem Attends.of_hostRest {h : HostIf} (hs : h.sess = s.host.sess) (hu : h.pcieUp = s.host.pcieUp) (hm : h.busMaster = s.host.busMaster)
    (hn : h.noDma = s.host.noDma) (hb : h.wrBad = s.host.wrBad) : Attends q s { s with host := h } :=
  .of_writes (w := fun _ => False) ⟨id, fun _ _ _ => Eq.refl _⟩ (fun _ h => h.elim) (Eq.refl _) hs
    (fun fn => by unfold State.fnDma; rw [hu, hm, hn]) hb

theorem State.signal_attends (s : State) (fn vec : Nat) : Attends q s (s.signal fn vec) := by
  unfold State.signal State.sendMsi
  refine ite_attends .rfl (ite_attends ((Attends.of_hostRest ?_ ?_ ?_ ?_ ?_).trans (State.hubEvent_attends ..))
    (Attends.of_hostRest ?_ ?_ ?_ ?_ ?_)) <;> rfl

theorem Sess.setModer_fields (x : Sess) (ring : Nat) (m : Moder) :
    (x.setModer ring m).taken = x.taken ∧ (x.setModer ring m).cpl = x.cpl ∧ (x.setModer ring m).cplTail = x.cplTail := by
  unfold Sess.setModer
  split
  · exact ⟨rfl, rfl, rfl⟩
  · split
    · exact ⟨rfl, rfl, rfl⟩
    · exact ⟨rfl, rfl, rfl⟩

theorem State.writeStat_attends (s : State) (p ring : Nat) : Attends q s (s.writeStat p ring) := by
  unfold State.writeStat
  split
  · exact .rfl
  · next x hx =>
    refine ite_attends .rfl ?_
    by_cases hf : s.wrFails p = true
    · rw [if_pos hf]
      exact State.dmaFault_attends hf
    · rw [if_neg hf]
      have kSess : ∀ y : Sess, y.taken = x.taken → y.cpl = x.cpl → y.cplTail = x.cplTail →
          Attends q s ((s.hubEvent 0x0C 1).setSess p y) :=
        fun y ht hc hl => (s.hubEvent_attends ..).trans (State.setSess_attends ((s.sess?_hubEvent ..).trans hx) ht hc hl)
      have kModer : ∀ (y : Sess) (m : Moder), y.taken = x.taken → y.cpl = x.cpl → y.cplTail = x.cplTail →
          Attends q s ((s.hubEvent 0x0C 1).setSess p (y.setModer ring m)) := by
        intro y m ht hc hl
        obtain ⟨mt, mc, ml⟩ := y.setModer_fields ring m
        exact kSess _ (mt.trans ht) (mc.trans hc) (ml.trans hl)
      refine ite_attends (kSess _ ?_ ?_ ?_) (ite_attends (kModer _ _ ?_ ?_ ?_)
        (Attends.trans (kModer _ _ ?_ ?_ ?_) (State.signal_attends ..))) <;> rfl

theorem State.sendEth_attends (s : State) (p ty count index : Nat) (body : List Byte) :
    Attends q s (s.sendEth p ty count index body) := by
  unfold State.sendEth
  split
  · exact .rfl
  · next x hx =>
    split
    · exact .rfl
    · next e he =>
      have kSent := (State.setSess_attends (q := q) (y := { x with eth := some { e with txSeq := e.txSeq + 1 } }) hx rfl rfl rfl).trans
        (State.hubEvent_attends _ 0x0D 1)
      refine ite_attends (kSent.trans (Attends.of_hostRest ?_ ?_ ?_ ?_ ?_)) (kSent.trans (Attends.of_hostRest ?_ ?_ ?_ ?_ ?_)) <;> rfl

theorem State.pushEvts_attends (s : State) (p : Nat) (es : List (List Byte)) : Attends q s (s.pushEvts p es) := by
  unfold State.pushEvts
  split
  · exact .rfl
  · next x hx =>
    by_cases hf : s.wrFails p = true
    · rw [if_pos hf]
      exact State.dmaFault_attends hf
    · rw [if_neg hf]
      refine ite_attends (Attends.trans (State.setSess_attends hx ?_ ?_ ?_) (State.sendEth_attends ..))
        (Attends.trans (State.setSess_attends hx ?_ ?_ ?_) ((State.hubEvent_attends ..).trans (State.writeStat_attends ..))) <;> rfl

theorem offSessions_evLost (p : Nat) : offSessions (Adr.SESS p + Fl.SESS_EV_LOST.off) = true := by
  unfold offSessions Adr.SESS Adr.TIME_CTL Fl.SESS_EV_LOST
  simp
  omega

theorem State.postAt_attends (s : State) (p code dom tq ns32 frac8 : Nat) (payload : List Byte) :
    Attends q s (s.postAt p code dom tq ns32 frac8 payload) := by
  unfold State.postAt
  refine ite_attends .rfl ?_
  split
  · exact .rfl
  · exact ite_attends (State.pushEvts_attends ..)
      ((State.count_attends _ _ _ _ (offSessions_evLost p)).trans (State.onSess_attends _ _ _ fun _ => ⟨rfl, rfl, rfl⟩))

theorem State.postOwnersAt_attends (s : State) (code ns32 frac8 : Nat) (payload : List Byte) :
    Attends q s (s.postOwnersAt code ns32 frac8 payload) :=
  foldl_attends (fun s _ => ite_attends (s.postAt_attends ..) .rfl) _ s

theorem State.postOwners_attends (s : State) (code : Nat) (payload : List Byte) : Attends q s (s.postOwners code payload) :=
  State.postOwnersAt_attends ..

theorem ite_sess_fields {c : Prop} [Decidable c] {x y : Sess} (ht : y.taken = x.taken) (hc : y.cpl = x.cpl)
    (hl : y.cplTail = x.cplTail) : (if c then y else x).taken = x.taken ∧ (if c then y else x).cpl = x.cpl
      ∧ (if c then y else x).cplTail = x.cplTail := by
  split
  · exact ⟨ht, hc, hl⟩
  · exact ⟨rfl, rfl, rfl⟩

theorem State.writeBuf_attends (s : State) (p addr : Nat) (bs : List Byte) : Attends q s (s.writeBuf p addr bs) := by
  unfold State.writeBuf
  refine (ite_attends (s.hubEvent_attends ..) .rfl).trans (State.onSess_attends _ _ _ fun x => ?_)
  split
  · exact ⟨rfl, rfl, rfl⟩
  · exact ite_sess_fields rfl rfl rfl

theorem State.writeReport_attends (s : State) (p addr : Nat) (bs : List Byte) : Attends q s (s.writeReport p addr bs) := by
  refine State.onSess_attends _ _ _ fun x => ?_
  split
  · exact ⟨rfl, rfl, rfl⟩
  · exact ite_sess_fields rfl rfl rfl

/-! ## The ledger -/

/-- Registers stay where only other parts of the state changed before. -/
theorem WritesOnly.after {w : Nat → Prop} {s₀ : State} (k : WritesOnly w s t) (hr : s.regs = s₀.regs) (hv : s.variant = s₀.variant) :
    WritesOnly w s₀ t := by
  have hWf : s₀.regsWf = s.regsWf := by
    unfold State.regsWf
    rw [hr, hv]
  refine ⟨fun h => k.wf (hWf ▸ h), fun h a ha => (k.rd (hWf ▸ h) a ha).trans ?_⟩
  unfold State.rd
  rw [hr, hv]

/-- The words of LEDGER_STAT. -/
def ledgerReg (a : Nat) : Prop := 0x60840 ≤ a ∧ a < 0x60860

theorem offSessions_ledgerReg (a : Nat) (h : ledgerReg a) : offSessions a = true := by
  unfold ledgerReg at h
  unfold offSessions Adr.TIME_CTL
  simp
  omega

theorem LedgerOnly.attends (h : LedgerOnly s t) (k : WritesOnly ledgerReg s t) : Attends q s t :=
  .of_host ⟨k.wf, fun w a ha => k.rd w a fun hr => ha (offSessions_ledgerReg a hr)⟩ h.time h.host

theorem State.put_ledgerReg (s : State) (f : Field) (n : Nat) (hf : f.off < 32) :
    WritesOnly ledgerReg s (s.put Adr.LEDGER_STAT f n) :=
  ⟨State.put_regsWf _ _ _, fun w a ha => State.rd_put_word _ _ _ _ (by
    rintro rfl
    refine ha ?_
    unfold ledgerReg Adr.LEDGER_STAT
    omega) w⟩

theorem State.ledgerStat_ledgerReg (s : State) : WritesOnly ledgerReg s s.ledgerStat := by
  unfold State.ledgerStat State.putPair
  exact (((((s.put_ledgerReg _ _ (by decide)).trans (State.put_ledgerReg _ _ _ (by decide))).trans
    (State.put_ledgerReg _ _ _ (by decide))).trans (State.put_ledgerReg _ _ _ (by decide))).trans
    (State.put_ledgerReg _ _ _ (by decide))).trans (State.put_ledgerReg _ _ _ (by decide))

theorem State.checkWrite_ledgerReg (s : State) (n key : Nat) : WritesOnly ledgerReg s (s.checkWrite n key) := by
  unfold State.checkWrite
  exact ite_writesOnly .rfl (ite_writesOnly (WritesOnly.rfl.after rfl rfl) (WritesOnly.rfl.after rfl rfl))

theorem State.pushEntry_ledgerReg (s : State) (e : LEntry) : WritesOnly ledgerReg s (s.pushEntry e) := by
  have kStore : ∀ (u : State) (sec : Bool), WritesOnly ledgerReg u (u.storeEntry sec) := by
    intro u sec
    unfold State.storeEntry State.busIssue State.busTarget
    exact WritesOnly.rfl.after rfl rfl
  unfold State.pushEntry
  refine ite_writesOnly .rfl ?_
  refine WritesOnly.trans (WritesOnly.trans (WritesOnly.trans ?_ (State.checkWrite_ledgerReg ..)) (State.checkWrite_ledgerReg ..))
    (kStore ..)
  exact (State.ledgerStat_ledgerReg _).after rfl rfl

theorem State.flushOverflow_ledgerReg (s : State) : WritesOnly ledgerReg s s.flushOverflow := by
  unfold State.flushOverflow
  exact ite_writesOnly .rfl ((s.pushEntry_ledgerReg _).trans ((State.ledgerStat_ledgerReg _).after rfl rfl))

theorem State.logAt_attends (s : State) (ty p role sec ns : Nat) (body : List Byte) :
    Attends q s (s.logAt ty p role sec ns body) :=
  (s.logAt_ledgerOnly ..).attends (s.flushOverflow_ledgerReg.trans (State.pushEntry_ledgerReg ..))

theorem State.logInvol_attends (s : State) (k : Option Nat) (ty : Nat) (body : List Byte) : Attends q s (s.logInvol k ty body) := by
  refine (s.logInvol_ledgerOnly ..).attends ?_
  unfold State.logInvol State.logInvolAt
  refine ite_writesOnly (s.flushOverflow_ledgerReg.trans (State.pushEntry_ledgerReg ..)) ?_
  split
  · exact s.flushOverflow_ledgerReg
  · exact s.flushOverflow_ledgerReg.trans ((State.ledgerStat_ledgerReg _).after rfl rfl)

/-! ## Plan and GO_OK -/

theorem State.setPlan_attends (s : State) (p : PlanUnit) : Attends q s (s.setPlan p) := .of_eq rfl rfl rfl rfl

theorem State.refreshGo_attends (s : State) : Attends q s s.refreshGo := by
  refine .of_host ⟨State.refreshGo_regsWf, fun w a ha => s.refreshGo_writesOnly.rd w a ?_⟩ s.refreshGo_time s.refreshGo_host
  rintro rfl
  exact ha (by decide)

/-! ## The completion -/

theorem State.warmGoes_host (s : State) : s.warmGoes.host = s.host := by
  unfold State.warmGoes State.resetCores
  simp only [apply_ite State.host, State.count_host, State.put_host, ite_self]

theorem State.sess?_warmGoes (s : State) (p : Nat) : s.warmGoes.sess? p = s.sess? p := by
  unfold State.sess?
  rw [s.warmGoes_host]

/-- The command leaves the session, and its completion entry is written. -/
theorem State.writeCpl_sess {x : Sess} (hx : s.sess? q = some x) (e : List Byte) :
    ∃ y, (s.writeCpl q e).sess? q = some y ∧ y.taken = x.taken
      ∧ (s.sessState q = 2 → s.dmaOk q = true → s.wrFails q = false →
        y.cpl = x.cpl ++ [e] ∧ y.cplTail = (x.cplTail + 1) % 2 ^ 32) := by
  unfold State.writeCpl
  rw [hx]
  dsimp only
  split
  · next hs => exact ⟨x, hx, rfl, fun h => absurd h hs⟩
  · split
    · next hd => exact ⟨_, s.sess?_setSess_same .., rfl, fun _ h => by rw [hd] at h; exact absurd h (by decide)⟩
    · split
      · next hf =>
        obtain ⟨y, hy, ht, -, -⟩ := (State.dmaFault_attends (q := q) hf).sess x hx
        exact ⟨y, hy, ht, fun _ _ h => by rw [hf] at h; exact absurd h (by decide)⟩
      · set z : Sess := { x with
          cpl := x.cpl ++ [e], cplTail := (x.cplTail + 1) % 2 ^ 32
          posted := [(entryAt x.rings.cplBase x.rings.cplLog2 32 x.cplTail, e)] } with hz
        have kAfter : Attends q (s.setSess q z) (if x.eth.isSome then (s.setSess q z).sendEth q 0x05 1 x.cplTail e
            else ((s.setSess q z).hubEvent 0x0C 1).writeStat q 0) :=
          ite_attends (State.sendEth_attends ..) ((State.hubEvent_attends ..).trans (State.writeStat_attends ..))
        obtain ⟨y, hy, ht, hc, hl⟩ := kAfter.sess z (s.sess?_setSess_same q z)
        exact ⟨y, hy, ht, fun _ _ _ => ⟨hc, hl⟩⟩

/-- The session as its command leaves it. -/
def State.untake (s : State) (q : Nat) (x : Sess) : State := s.setSess q { x with taken := none }

theorem State.complete_of_taken {x : Sess} {k : Taken} (hx : s.sess? q = some x) (hk : x.taken = some k) (status : Nat)
    (result : List Byte) : s.complete q status result
      = ((s.untake q x).writeCpl q (completionBytes k.tag status k.op k.index s.ns32 (if status = 0 then result else []))).warmGoes := by
  unfold State.complete
  rw [hx]
  dsimp only
  rw [hk]
  rfl

theorem State.completeWith_of_taken {x : Sess} {k : Taken} (hx : s.sess? q = some x) (hk : x.taken = some k) (status : Nat)
    (result : List Byte) : s.completeWith q status result
      = ((s.untake q x).writeCpl q (completionBytes k.tag status k.op k.index s.ns32 result)).warmGoes := by
  unfold State.completeWith
  rw [hx]
  dsimp only
  rw [hk]
  rfl

/-- A completion written behind what kept the session's needs completes its command. -/
theorem Attends.completed (h : Attends q s t) (w : s.regsWf = true) {x y : Sess} {k : Taken} (hx : s.sess? q = some x)
    (hk : x.taken = some k) (hc : y.cpl = x.cpl) (hl : y.cplTail = x.cplTail) (status : Nat)
    (result : List Byte) :
    Completed s ((t.untake q y).writeCpl q (completionBytes k.tag status k.op k.index t.ns32 result)).warmGoes q status result := by
  obtain ⟨z, hz, ht, hcpl⟩ := State.writeCpl_sess (s := t.untake q y) (t.sess?_setSess_same q _)
    (completionBytes k.tag status k.op k.index t.ns32 result)
  refine ⟨x, z, k, hx, hk, (State.sess?_warmGoes ..).trans hz, ht, fun hq hs hd hf => ?_⟩
  have hWord := h.word w hq hs hf
  obtain ⟨hEntry, hTail⟩ := hcpl ((State.sessState_congr hWord).trans hs) ((State.dmaOk_congr hWord h.dma).trans hd)
    ((State.wrFails_congr hWord h.bad).trans hf)
  rw [h.ns32 w] at hEntry
  exact ⟨hEntry.trans (by rw [← hc]), hTail.trans (by rw [← hl])⟩

theorem Attends.complete (h : Attends q s t) (w : s.regsWf = true) {x : Sess} {k : Taken} (hx : s.sess? q = some x)
    (hk : x.taken = some k) (status : Nat) (result : List Byte) :
    Completed s (t.complete q status result) q status (if status = 0 then result else []) := by
  obtain ⟨y, hy, ht, hc, hl⟩ := h.sess x hx
  rw [State.complete_of_taken hy (ht.trans hk)]
  exact h.completed w hx hk hc hl ..

theorem Attends.completeWith (h : Attends q s t) (w : s.regsWf = true) {x : Sess} {k : Taken} (hx : s.sess? q = some x)
    (hk : x.taken = some k) (status : Nat) (result : List Byte) : Completed s (t.completeWith q status result) q status result := by
  obtain ⟨y, hy, ht, hc, hl⟩ := h.sess x hx
  rw [State.completeWith_of_taken hy (ht.trans hk)]
  exact h.completed w hx hk hc hl ..

end Sys2Proof.Machine
end

section
/-! SUPPORT. The row of a taken command: what runs where nothing holds it and nothing refuses it (R226, R229, R231). -/

namespace Sys2Proof.Machine

variable {s : State} {q op : Nat} {t : Taken}

theorem State.taken?_iff : s.taken? q op = some t ↔
    (∃ x, s.sess? q = some x ∧ x.taken = some t) ∧ t.op = op ∧ t.phase = .ready ∧ s.serves = true := by
  unfold State.taken?
  cases hx : s.sess? q with
  | none => simp
  | some x =>
    cases hk : x.taken with
    | none => simp [hk]
    | some k =>
      simp only [hk, Option.some.injEq, exists_eq_left', Option.ite_none_right_eq_some]
      constructor
      · rintro ⟨hrun, rfl⟩
        exact ⟨rfl, hrun⟩
      · rintro ⟨rfl, hrun⟩
        exact ⟨hrun, rfl⟩

/-- A row that runs has its command taken, with its opcode. -/
theorem State.runs.taken (h : s.runs q op t) : ∃ x, s.sess? q = some x ∧ x.taken = some t :=
  (State.taken?_iff.mp h.1).1

theorem State.runs.opcode (h : s.runs q op t) : t.op = op := (State.taken?_iff.mp h.1).2.1

theorem State.cmdParity_of_good (h0 : s.checkBad 0xA0 q = false) (h2 : s.checkBad 0xA2 q = false) : s.cmdParity q = s := by
  unfold State.cmdParity
  simp [h0, h2]

theorem State.runCmd_of_runs (h : s.runs q op t) (f : State → Taken → State) : s.runCmd q op f = f s t := by
  obtain ⟨htaken, -, h0, h2⟩ := h
  unfold State.runCmd
  rw [htaken, State.cmdParity_of_good h0 h2]

/-- Nothing that every command needs is missing. -/
theorem State.preStatus_eq_zero {n : Needs} (hunit : s.lacksUnit t.op = false) (hrole : n.roles.contains t.role = true)
    (hbit : ∀ b, n.bit = some b → t.mask.testBit b = true) (hdenied : n.denied = false) (hbad : n.bad = false)
    (hbulk : s.pastBulk q t.bufAddr t.bufLen = false) (hread : n.reads = true → t.bufOk = true) : s.preStatus q t n = 0 := by
  have hDma : (n.reads && t.bufLen != 0 && !t.bufOk) = false := by
    cases hr : n.reads with
    | false => rfl
    | true => simp [hread hr]
  unfold State.preStatus
  cases hb : n.bit with
  | none => simp only [hDma, hunit, hrole, hdenied, hbad, hbulk]; rfl
  | some b => simp only [hDma, hunit, hrole, hdenied, hbad, hbulk, hbit b hb]; rfl

/-- A command that acts at once, needs no entry, and that nothing refuses. -/
theorem State.actCmd_of_ok (h : s.runs q op t) {needs : State → Taken → Needs} {own : State → Taken → Nat} {act : State → Taken → State}
    (hpre : s.preStatus q t (needs s t) = 0) (hown : own s t = 0) : s.actCmd q op needs own 0 act = act s t := by
  unfold State.actCmd
  rw [State.runCmd_of_runs h]
  simp [hpre, hown]

/-- A write-ahead command of an unpaired module that nothing refuses. -/
theorem State.aheadCmd_of_ok {c : Ahead} (h : s.runs q c.op t) (hpre : s.preStatus q t (c.needs s q t) = 0) (hpair : s.pairMode = false)
    (hrole : s.role ≠ 2) (hown : c.own s q t (some ⟨s.tick, none⟩) = 0) (hroom : s.ledgerRoom c.entries = true) :
    s.aheadCmd q c = c.act s q t ⟨s.tick, none⟩ := by
  unfold State.aheadCmd
  rw [State.runCmd_of_runs h]
  simp [hpre, hpair, hrole, hown, hroom]

/-- One that its own code refuses. -/
theorem State.aheadCmd_of_own {c : Ahead} (h : s.runs q c.op t) (hpre : s.preStatus q t (c.needs s q t) = 0) (hpair : s.pairMode = false)
    (hrole : s.role ≠ 2) (hown : c.own s q t (some ⟨s.tick, none⟩) ≠ 0) :
    s.aheadCmd q c = s.refuse q (c.own s q t (some ⟨s.tick, none⟩)) := by
  unfold State.aheadCmd
  rw [State.runCmd_of_runs h]
  simp [hpre, hpair, hrole, hown]

theorem State.lacksUnit_of_none (h : commandUnits t.op = []) : s.lacksUnit t.op = false := by
  unfold State.lacksUnit
  rw [h]
  rfl

/-- A command of a running row completes with its result. -/
theorem State.runs.completes (h : s.runs q op t) (w : s.regsWf = true) {u : State} (k : Attends q s u) (result : List Byte) :
    Completed s (u.complete q 0 result) q 0 result := by
  obtain ⟨x, hx, hk⟩ := h.taken
  exact k.complete w hx hk 0 result

/-- One that is refused, but for want of ledger room, changes no more than its completion does. -/
theorem State.runs.refused (h : s.runs q op t) (w : s.regsWf = true) {status : Nat} (hl : status ≠ stLedger) :
    Completed s (s.refuse q status) q status [] ∧ (s.refuse q status).plan = s.plan := by
  obtain ⟨x, hx, hk⟩ := h.taken
  have hDone := Attends.rfl.complete w hx hk status []
  rw [ite_self] at hDone
  unfold State.refuse
  rw [if_neg hl]
  exact ⟨hDone, congrArg Ctl.plan (State.complete_hostOnly h.2.1 ..).ctl⟩

end Sys2Proof.Machine
end

section
/-! O22: the schedule list: its load, stop and read, its steps, and its end (R126 to R128, R239). -/

namespace Sys2Proof.Machine

variable {s : State} {q : Nat} {t : Taken}

/-! ## What the load and the halt of a list leave alone -/

/-- From `s` to `t` the boot unit, the plan in force and the slots stay. -/
structure KeepsPlans (s t : State) : Prop where
  boot : t.boot = s.boot
  inForce : t.plan.inForce = s.plan.inForce
  slots : t.plan.slots = s.plan.slots

theorem KeepsPlans.trans {s t u : State} (h : KeepsPlans s t) (k : KeepsPlans t u) : KeepsPlans s u :=
  ⟨k.boot.trans h.boot, k.inForce.trans h.inForce, k.slots.trans h.slots⟩

theorem KeepsPlans.of_plan {s t : State} (hb : t.boot = s.boot) (hp : t.plan = s.plan) : KeepsPlans s t :=
  ⟨hb, congrArg PlanUnit.inForce hp, congrArg PlanUnit.slots hp⟩

theorem LedgerOnly.keepsPlans {t : State} (h : LedgerOnly s t) : KeepsPlans s t := .of_plan h.boot h.plan

theorem HostOnly.keepsPlans {t : State} (h : HostOnly s t) : KeepsPlans s t :=
  .of_plan (congrArg Ctl.boot h.ctl) (congrArg Ctl.plan h.ctl)

theorem State.refreshGo_keepsPlans (s : State) : KeepsPlans s s.refreshGo := .of_plan s.refreshGo_boot s.refreshGo_plan

/-! ## A step dropped for a new list -/

theorem setBits_bit0_clear {w : Word} (h : w.getLsbD 0 = false) : setBits w 0 1 0 = w := by
  refine BitVec.eq_of_getLsbD_eq fun i hi => ?_
  rw [setBits_getLsbD _ _ _ _ _ hi]
  by_cases h0 : i = 0
  · subst h0
    rw [if_pos (by omega), h]
    rfl
  · rw [if_neg (by omega)]

/-- A compare unit disarmed, even one of a number the executor has not: EN is bit 0, and so a bit that is clear in the word of an OPEN
session. -/
theorem State.disarmUnit_attends (s : State) (n : Nat) : Attends q s (s.putFlag (Adr.CMP n) Fl.CMP_EN false) where
  sess x hx := ⟨x, hx, rfl, rfl, rfl⟩
  wf := State.putFlag_regsWf _ _ _
  time := rfl
  clock := State.rd_put_word _ _ _ _ (by simp [Adr.TIME_CTL, Adr.CMP]; omega)
  dma _ := rfl
  bad := rfl
  word w hq hs _ := by
    by_cases ha : Adr.SESS q = Adr.CMP n + Fl.CMP_EN.off
    · have hBit : (s.rd (Adr.SESS q)).getLsbD 0 = false := by
        have hState : (getBits (s.rd (Adr.SESS q)) 0 3).testBit 0 = (2 : Nat).testBit 0 := congrArg (·.testBit 0) hs
        rw [getBits_testBit] at hState
        simpa using hState
      have hSame : setBits (s.rd (Adr.CMP n + Fl.CMP_EN.off)) 0 1 0 = s.rd (Adr.CMP n + Fl.CMP_EN.off) :=
        setBits_bit0_clear (ha ▸ hBit)
      rw [ha]
      exact (State.rd_wr_same _ _ w).trans hSame
    · exact State.rd_put_word _ _ _ _ ha w

theorem State.voidCommit_attends (s : State) (seq cause : Nat) : Attends q s (s.voidCommit seq cause) := by
  unfold State.voidCommit
  split
  · exact .rfl
  · exact (s.setPlan_attends _).trans ((State.disarmUnit_attends ..).trans
      ((State.logInvol_attends ..).trans (State.refreshGo_attends _)))

theorem State.voidCommit_keepsPlans (s : State) (seq cause : Nat) : KeepsPlans s (s.voidCommit seq cause) := by
  unfold State.voidCommit
  split
  · exact ⟨rfl, rfl, rfl⟩
  · next c _ =>
    have kDrop : KeepsPlans s
        ((s.setPlan { s.plan with commits := s.plan.commits.filter fun x => x.seq != seq }).putFlag (Adr.CMP c.unit) Fl.CMP_EN false) :=
      ⟨rfl, rfl, rfl⟩
    exact kDrop.trans ((State.logInvol_ledgerOnly ..).keepsPlans.trans (State.refreshGo_keepsPlans _))

/-! ## A list that takes effect -/

/-- Steps of the old list dropped. -/
def State.dropSteps (s : State) (cs : List Commit) : State := cs.foldl (fun s c => s.voidCommit c.seq 3) s

/-- The new list WAITS. -/
def State.listWaits (s : State) (x : Started) (old : Option (Sched × Nat)) : State :=
  (s.setPlan { s.plan with sched := some x.list, oldSched := old }).put Adr.SCHED_STAT Fl.SCHED_STAT_STATE 1

/-- A start that is late is shown and told. -/
def State.tellLate (s : State) (x : Started) : State :=
  if x.late then (s.putFlag Adr.SCHED_STAT Fl.SCHED_STAT_LATE true).postOwners 0x0012 (le 4 (min x.k 0xffffffff)) else s

theorem State.takeList_eq (s : State) (x : Started) :
    ∃ cs old, s.takeList x = (((s.dropSteps cs).listWaits x old).tellLate x).refreshGo := ⟨_, _, rfl⟩

theorem State.dropSteps_attends (s : State) (cs : List Commit) : Attends q s (s.dropSteps cs) :=
  foldl_attends (fun s _ => s.voidCommit_attends ..) cs s

theorem State.dropSteps_keepsPlans (s : State) (cs : List Commit) : KeepsPlans s (s.dropSteps cs) := by
  unfold State.dropSteps
  induction cs generalizing s with
  | nil => exact ⟨rfl, rfl, rfl⟩
  | cons c cs ih => exact (s.voidCommit_keepsPlans ..).trans (ih _)

theorem State.listWaits_attends (s : State) (x : Started) (old : Option (Sched × Nat)) : Attends q s (s.listWaits x old) :=
  (s.setPlan_attends _).trans (State.put_attends _ _ _ _ (by decide))

theorem State.tellLate_attends (s : State) (x : Started) : Attends q s (s.tellLate x) :=
  ite_attends ((s.putFlag_attends _ _ _ (by decide)).trans (State.postOwners_attends ..)) .rfl

theorem State.tellLate_hostOnly (s : State) (x : Started) : HostOnly s (s.tellLate x) :=
  ite_hostOnly ((s.putFlag_hostOnly ..).trans (State.postOwners_hostOnly ..)) .rfl

/-- SCHED_STAT.STATE behind an event. -/
theorem State.postOwners_get (h : s.regsWf = true) (code : Nat) (payload : List Byte) (b : Nat) (f : Field)
    (hq : quiet (b + f.off) = true) : (s.postOwners code payload).get b f = s.get b f :=
  (State.postOwners_reports .rfl ..).get h b f hq

theorem State.tellLate_state (h : s.regsWf = true) (x : Started) :
    (s.tellLate x).get Adr.SCHED_STAT Fl.SCHED_STAT_STATE = s.get Adr.SCHED_STAT Fl.SCHED_STAT_STATE := by
  unfold State.tellLate
  split
  · rw [State.postOwners_get (State.putFlag_regsWf _ _ _ h) _ _ _ _ (by decide)]
    exact State.get_put_apart h _ _ _ _ (by decide)
  · rfl

theorem State.refreshGo_get (h : s.regsWf = true) (b : Nat) (f : Field) (hb : b + f.off ≠ Adr.PLAN_STAT) :
    s.refreshGo.get b f = s.get b f := s.refreshGo_writesOnly.get h b f hb

theorem State.takeList_attends (s : State) (x : Started) : Attends q s (s.takeList x) := by
  obtain ⟨cs, old, h⟩ := s.takeList_eq x
  rw [h]
  exact (s.dropSteps_attends cs).trans ((State.listWaits_attends ..).trans ((State.tellLate_attends ..).trans (State.refreshGo_attends _)))

theorem State.takeList_spec (w : s.regsWf = true) (x : Started) : KeepsPlans s (s.takeList x)
    ∧ (s.takeList x).plan.sched = some x.list ∧ (s.takeList x).get Adr.SCHED_STAT Fl.SCHED_STAT_STATE = 1 := by
  obtain ⟨cs, old, h⟩ := s.takeList_eq x
  have hDrop : (s.dropSteps cs).regsWf = true := (s.dropSteps_attends (q := 0) cs).wf w
  have hWait : ((s.dropSteps cs).listWaits x old).regsWf = true := State.put_regsWf _ _ _ hDrop
  have kWait : KeepsPlans (s.dropSteps cs) ((s.dropSteps cs).listWaits x old) := ⟨rfl, rfl, rfl⟩
  have kLate := State.tellLate_hostOnly ((s.dropSteps cs).listWaits x old) x
  rw [h]
  refine ⟨(s.dropSteps_keepsPlans cs).trans (kWait.trans (kLate.keepsPlans.trans (State.refreshGo_keepsPlans _))), ?_, ?_⟩
  · rw [State.refreshGo_plan]
    exact congrArg (fun c : Ctl => c.plan.sched) kLate.ctl
  · rw [State.refreshGo_get ((State.tellLate_attends (q := 0) ..).wf hWait) _ _ (by decide), State.tellLate_state hWait]
    exact State.get_put_same _ _ _ (by decide) hDrop

/-! ## The commands -/

theorem State.log_attends (s : State) (ty p role : Nat) (body : List Byte) : Attends q s (s.log ty p role body) :=
  State.logAt_attends ..

theorem State.log_ledgerOnly (s : State) (ty p role : Nat) (body : List Byte) : LedgerOnly s (s.log ty p role body) :=
  State.logAt_ledgerOnly ..

/-- A completion behind what kept the boot unit leaves plan and quiet registers. -/
theorem State.complete_leaves {u : State} (hDue : s.boot.warmDue = false) (hb : u.boot = s.boot) (status : Nat) (result : List Byte) :
    (u.complete q status result).plan = u.plan
      ∧ (u.regsWf = true → ∀ b f, quiet (b + f.off) = true → (u.complete q status result).get b f = u.get b f) := by
  have hDue' : u.boot.warmDue = false := by rw [hb]; exact hDue
  exact ⟨congrArg Ctl.plan (State.complete_hostOnly hDue' ..).ctl,
    fun w b f hq => (State.complete_reports .rfl hDue' ..).get w b f hq⟩

theorem loadCmd_pre (h : s.runs q 0x0200 t) (hrole : t.role = 1) (hbulk : s.pastBulk q t.bufAddr t.bufLen = false)
    (hlen : 24 + 8 * rdLE t.buf 4 2 ≤ t.bufLen) (hok : t.bufOk = true) : s.preStatus q t (loadCmd.needs s q t) = 0 := by
  refine State.preStatus_eq_zero (State.lacksUnit_of_none (by rw [h.opcode]; decide)) (by simp [loadCmd, hrole]) (fun b hb => ?_) rfl ?_
    hbulk fun _ => hok
  · exact absurd hb (by simp [loadCmd])
  · have hShort : ¬ t.bufLen < 24 ∧ ¬ t.bufLen < 24 + 8 * rdLE t.buf 4 2 := by omega
    simp [loadCmd, hShort]

/-- A load carried out: its entry, the list in effect, its completion. -/
def State.listLoaded (s : State) (q role : Nat) (body : List Byte) (x : Started) (result : List Byte) : State :=
  ((s.log 0x0030 q role body).takeList x).complete q 0 result

theorem schedLoad_of_good (h : s.runs q 0x0200 t) (hpair : s.pairMode = false) (hact : s.role ≠ 2) (hrole : t.role = 1)
    (hbulk : s.pastBulk q t.bufAddr t.bufLen = false) (hlen : 24 + 8 * rdLE t.buf 4 2 ≤ t.bufLen) (hok : t.bufOk = true)
    (hgood : badList s.variant t.buf = false) (hroom : s.ledgerRoom 1 = true) :
    ∃ body result, schedLoad q s = s.listLoaded q t.role body (s.loadStart t.buf s.tick) result := by
  refine ⟨_, _, (State.aheadCmd_of_ok (c := loadCmd) h (loadCmd_pre h hrole hbulk hlen hok) hpair hact ?_ hroom).trans rfl⟩
  simp [loadCmd, hgood]

theorem State.listLoaded_spec (w : s.regsWf = true) (h : s.runs q 0x0200 t) (role : Nat) (body : List Byte) (x : Started)
    (result : List Byte) :
    (s.listLoaded q role body x result).plan.sched = some x.list
      ∧ (s.listLoaded q role body x result).get Adr.SCHED_STAT Fl.SCHED_STAT_STATE = 1
      ∧ (s.listLoaded q role body x result).plan.inForce = s.plan.inForce
      ∧ (s.listLoaded q role body x result).plan.slots = s.plan.slots
      ∧ Completed s (s.listLoaded q role body x result) q 0 result := by
  have kLog : Attends q s (s.log 0x0030 q role body) := s.log_attends ..
  obtain ⟨kPlans, hSched, hState⟩ := State.takeList_spec (kLog.wf w) x
  have kAll := (s.log_ledgerOnly 0x0030 q role body).keepsPlans.trans kPlans
  have kTake := kLog.trans (State.takeList_attends _ x)
  obtain ⟨hPlan, hGet⟩ := State.complete_leaves (q := q) h.2.1 kAll.boot 0 result
  refine ⟨?_, ?_, ?_, ?_, h.completes w kTake _⟩
  · exact (congrArg PlanUnit.sched hPlan).trans hSched
  · exact (hGet (kTake.wf w) _ _ (by decide)).trans hState
  · exact (congrArg PlanUnit.inForce hPlan).trans kAll.inForce
  · exact (congrArg PlanUnit.slots hPlan).trans kAll.slots

theorem schedLoad_of_bad (w : s.regsWf = true) (h : s.runs q 0x0200 t) (hpair : s.pairMode = false) (hact : s.role ≠ 2)
    (hrole : t.role = 1) (hbulk : s.pastBulk q t.bufAddr t.bufLen = false) (hlen : 24 + 8 * rdLE t.buf 4 2 ≤ t.bufLen)
    (hok : t.bufOk = true) (hbad : badList s.variant t.buf = true) :
    Completed s (schedLoad q s) q 0x19 [] ∧ (schedLoad q s).plan = s.plan := by
  have hOwn : loadCmd.own s q t (some ⟨s.tick, none⟩) = 0x19 := by simp [loadCmd, hbad]
  have hRefused : schedLoad q s = s.refuse q 0x19 := by
    have hEq := State.aheadCmd_of_own (c := loadCmd) h (loadCmd_pre h hrole hbulk hlen hok) hpair hact (by rw [hOwn]; decide)
    rwa [hOwn] at hEq
  rw [hRefused]
  exact h.refused w (by decide)

theorem stopCmd_pre (h : s.runs q 0x0201 t) (hrole : t.role = 1) (hbulk : s.pastBulk q t.bufAddr t.bufLen = false) :
    s.preStatus q t (stopCmd.needs s q t) = 0 :=
  State.preStatus_eq_zero (State.lacksUnit_of_none (by rw [h.opcode]; decide)) (by simp [stopCmd, hrole])
    (fun b hb => absurd hb (by simp [stopCmd])) rfl rfl hbulk fun hr => absurd hr (by simp [stopCmd])

theorem State.haltList_attends (s : State) : Attends q s s.haltList :=
  ite_attends ((s.setPlan_attends _).trans ((State.put_attends _ _ _ _ (by decide)).trans (State.refreshGo_attends _))) .rfl

theorem State.haltList_led (s : State) : s.haltList.led = s.led := by
  unfold State.haltList
  rw [apply_ite State.led, State.refreshGo_led]
  exact ite_self _

theorem State.haltList_boot (s : State) : s.haltList.boot = s.boot := by
  unfold State.haltList
  rw [apply_ite State.boot, State.refreshGo_boot]
  exact ite_self _

theorem State.haltList_of_runs (w : s.regsWf = true) (h : s.listRuns = true) :
    s.haltList.plan = { s.plan with oldSched := none } ∧ s.haltList.get Adr.SCHED_STAT Fl.SCHED_STAT_STATE = 0 := by
  set v := s.setPlan { s.plan with oldSched := none } with hv
  have hHalt : s.haltList = (v.put Adr.SCHED_STAT Fl.SCHED_STAT_STATE 0).refreshGo := if_pos h
  have kWf : v.regsWf = true := w
  rw [hHalt, State.refreshGo_plan, State.refreshGo_get (State.put_regsWf _ _ _ kWf) _ _ (by decide),
    State.get_put_same _ _ _ (by decide) kWf]
  exact ⟨rfl, rfl⟩

theorem State.haltList_of_idle (h : s.listRuns = false) : s.haltList = s := by
  unfold State.haltList
  rw [h]
  rfl

theorem State.logStop_attends (s : State) (p role : Nat) : Attends q s (s.logStop p role) := State.log_attends ..

theorem State.logStop_ledgerOnly (s : State) (p role : Nat) : LedgerOnly s (s.logStop p role) := State.log_ledgerOnly ..

/-- An entry leaves the state of the list. -/
theorem State.logStop_listRuns (w : s.regsWf = true) (p role : Nat) : (s.logStop p role).listRuns = s.listRuns := by
  have hState : (s.logStop p role).schedState = s.schedState := (State.log_reports .rfl ..).get w _ _ (by decide)
  unfold State.listRuns
  rw [hState]

/-- Room for an entry leaves room for an OVERFLOW before it. -/
theorem State.ledgerFree_of_room (h : s.ledgerRoom 1 = true) : 2 ≤ s.ledgerFree := by
  have hRoom : 1 + involReserve s.variant + s.heldBack ≤ s.ledgerFree := by simpa [State.ledgerRoom] using h
  have hReserve : 1 ≤ involReserve s.variant := by
    unfold involReserve
    split <;> decide
  omega

theorem schedStop_of_runs (h : s.runs q 0x0201 t) (hpair : s.pairMode = false) (hact : s.role ≠ 2) (hrole : t.role = 1)
    (hbulk : s.pastBulk q t.bufAddr t.bufLen = false) (hroom : s.ledgerRoom 1 = true) :
    schedStop q s = ((s.logStop q t.role).haltList).complete q 0 (layout 16 [(0, le 2 s.lastArmed.1), (4, le 4 s.lastArmed.2)]) :=
  (State.aheadCmd_of_ok (c := stopCmd) h (stopCmd_pre h hrole hbulk) hpair hact rfl hroom).trans rfl

theorem State.listStopped_spec (w : s.regsWf = true) (h : s.runs q 0x0201 t) (role : Nat) (result : List Byte) {u : State}
    (hu : u = ((s.logStop q role).haltList).complete q 0 result) :
    u.plan.sched = s.plan.sched
      ∧ (s.listRuns = true → u.get Adr.SCHED_STAT Fl.SCHED_STAT_STATE = 0 ∧ u.plan.oldSched = none)
      ∧ (s.listRuns = false → u.plan = s.plan)
      ∧ Completed s u q 0 result := by
  have kLog : Attends q s (s.logStop q role) := s.logStop_attends ..
  have kLed : LedgerOnly s (s.logStop q role) := s.logStop_ledgerOnly ..
  have kHalt := kLog.trans (State.haltList_attends _)
  have hRuns : (s.logStop q role).listRuns = s.listRuns := State.logStop_listRuns w ..
  obtain ⟨hPlan, hGet⟩ := State.complete_leaves (q := q) h.2.1 ((State.haltList_boot _).trans kLed.boot) 0 result
  have hIdle : s.listRuns = false → u.plan = s.plan := by
    intro hr
    rw [hu, hPlan, State.haltList_of_idle (hRuns.trans hr), kLed.plan]
  have hBusy : s.listRuns = true → u.plan = { s.plan with oldSched := none } := by
    intro hr
    rw [hu, hPlan, (State.haltList_of_runs (kLog.wf w) (hRuns.trans hr)).1, kLed.plan]
  refine ⟨?_, fun hr => ⟨?_, by rw [hBusy hr]⟩, hIdle, hu ▸ h.completes w kHalt _⟩
  · cases hr : s.listRuns with
    | false => rw [hIdle hr]
    | true => rw [hBusy hr]
  · rw [hu]
    exact (hGet (kHalt.wf w) _ _ (by decide)).trans (State.haltList_of_runs (kLog.wf w) (hRuns.trans hr)).2

theorem State.listStopped_logged (hroom : s.ledgerRoom 1 = true) (hrec : s.boot.recovery = false) (role : Nat) (result : List Byte) :
    Logged s (((s.logStop q role).haltList).complete q 0 result) 0x0031 q := by
  have hFree := State.ledgerFree_of_room hroom
  have hEntry : Logged s (s.logStop q role) 0x0031 q := State.logged_logAt hrec (by omega) (fun _ => hFree) ..
  exact hEntry.of_entries rfl (congrArg Ledger.entries ((State.complete_led ..).trans (State.haltList_led _)))

theorem schedRead_pre (h : s.runs q 0x0202 t) (hrole : t.role = 1) (hbulk : s.pastBulk q t.bufAddr t.bufLen = false) {n : Nat}
    (hlen : n ≤ t.bufLen) : s.preStatus q t { bad := decide (t.bufLen < n) } = 0 :=
  State.preStatus_eq_zero (State.lacksUnit_of_none (by rw [h.opcode]; decide)) (by simp [hrole])
    (fun b hb => absurd hb (by simp)) rfl (by simpa using hlen) hbulk fun hr => absurd hr (by simp)

theorem schedRead_of_none (h : s.runs q 0x0202 t) (hrole : t.role = 1) (hbulk : s.pastBulk q t.bufAddr t.bufLen = false)
    (hlen : 24 ≤ t.bufLen) (hs : s.plan.sched = none) : schedRead q s = s.complete q 0 (le 16 0) := by
  unfold schedRead
  rw [State.actCmd_of_ok h (by rw [hs]; exact schedRead_pre h hrole hbulk hlen) rfl]
  simp only [hs]

theorem schedRead_of_some {l : Sched} (h : s.runs q 0x0202 t) (hrole : t.role = 1) (hbulk : s.pastBulk q t.bufAddr t.bufLen = false)
    (hs : s.plan.sched = some l) (hlen : 24 + 8 * l.entries.length ≤ t.bufLen) :
    schedRead q s = (s.writeBuf q t.bufAddr l.bytes).complete q 0
      (layout 16 [(0, le 1 s.schedState), (2, le 2 l.entries.length), (4, le 4 s.lastArmed.2)]) := by
  unfold schedRead
  rw [State.actCmd_of_ok h (by rw [hs]; exact schedRead_pre h hrole hbulk hlen) rfl]
  simp only [hs]

theorem State.writeBuf_hostOnly (s : State) (p addr : Nat) (bs : List Byte) : HostOnly s (s.writeBuf p addr bs) := by
  unfold State.writeBuf
  exact (ite_hostOnly (s.hubEvent_hostOnly ..) .rfl).trans (State.onSess_hostOnly ..)

theorem schedRead_answers (w : s.regsWf = true) (h : s.runs q 0x0202 t) {u : State} (k : Attends q s u) (hu : HostOnly s u)
    (result : List Byte) :
    Completed s (u.complete q 0 result) q 0 result ∧ (u.complete q 0 result).plan = s.plan :=
  ⟨h.completes w k result, (State.complete_leaves h.2.1 (congrArg Ctl.boot hu.ctl) 0 result).1.trans (congrArg Ctl.plan hu.ctl)⟩

/-! ## A step of the list (R127) -/

/-- A list that WAITS RUNS from its first step on. -/
def State.listStarts (s : State) : State := if s.schedState = 1 then s.put Adr.SCHED_STAT Fl.SCHED_STAT_STATE 2 else s

theorem State.listStarts_plan (s : State) : s.listStarts.plan = s.plan := by
  unfold State.listStarts
  rw [apply_ite State.plan]
  exact ite_self _

theorem State.listStarts_checkBad (s : State) (n key : Nat) : s.listStarts.checkBad n key = s.checkBad n key := by
  unfold State.listStarts
  split <;> rfl

theorem State.listStarts_regsWf (w : s.regsWf = true) : s.listStarts.regsWf = true := by
  unfold State.listStarts
  split
  · exact State.put_regsWf _ _ _ w
  · exact w

/-- The cost of a plan reads of the registers the actions in force and MOVE_LIM alone. -/
theorem State.costOf_regs (s : State) (r : SMap Word) (ha : ({ s with regs := r } : State).acts = s.acts)
    (hl : ({ s with regs := r } : State).rd Adr.MOVE_LIM = s.rd Adr.MOVE_LIM) (ws : List Nat) :
    ({ s with regs := r } : State).costOf ws = s.costOf ws := by
  set u : State := { s with regs := r } with hu
  have hHeld : ∀ e, u.withheldLane e = s.withheldLane e := fun e => by
    unfold State.withheldLane State.acted
    rw [ha]
    rfl
  have hMoves : ∀ o, u.gateMoves ws o = s.gateMoves ws o := fun o => by
    simp only [State.gateMoves, State.remade, State.remakable, ha, hHeld]
    rfl
  have hDelta : u.moveDelta ws = s.moveDelta ws := by
    unfold State.moveDelta
    simp only [hHeld, hMoves]
    rfl
  unfold State.costOf
  rw [hDelta, hl]
  rfl

theorem State.acts_put (w : s.regsWf = true) (b : Nat) (f : Field) (n : Nat)
    (hb : b + f.off ∉ [Adr.DRV_STAT, Adr.PWR_STAT, Adr.FLT_GSTAT, Adr.SAFE_STAT]) : (s.put b f n).acts = s.acts := by
  simp only [List.mem_cons, List.not_mem_nil, or_false, not_or] at hb
  obtain ⟨hDrv, hPwr, hFlt, hSafe⟩ := hb
  have hGet : ∀ c (g : Field), g.off = 0 → c ≠ b + f.off → (s.put b f n).get c g = s.get c g :=
    fun c g hg hc => State.get_put_word _ _ _ _ _ (by rwa [hg]) w
  unfold State.acts State.clrLow State.fatal State.flag
  rw [hGet _ Fl.DRV_STAT_EN_DONE rfl (Ne.symm hDrv), hGet _ Fl.DRV_STAT_CLR_LOW rfl (Ne.symm hDrv), hGet _ _ rfl (Ne.symm hPwr),
    hGet _ _ rfl (Ne.symm hFlt), hGet _ _ rfl (Ne.symm hSafe)]
  rfl

theorem State.listStarts_costOf (w : s.regsWf = true) (ws : List Nat) : s.listStarts.costOf ws = s.costOf ws := by
  unfold State.listStarts
  split
  · exact State.costOf_regs s _ (State.acts_put w Adr.SCHED_STAT Fl.SCHED_STAT_STATE 2 (by decide))
      (State.rd_put_word Adr.SCHED_STAT Fl.SCHED_STAT_STATE 2 Adr.MOVE_LIM (by decide) w) ws
  · rfl

theorem State.listStarts_skipCause (s : State) (make ds : Nat) : s.listStarts.skipCause make ds = s.skipCause make ds := by
  unfold State.listStarts
  split <;> rfl

theorem State.listStarts_skips (w : s.regsWf = true) :
    s.listStarts.get Adr.SCHED_STAT Fl.SCHED_STAT_SKIPS = s.get Adr.SCHED_STAT Fl.SCHED_STAT_SKIPS := by
  unfold State.listStarts
  split
  · exact State.get_put_apart w _ _ _ _ (by decide)
  · rfl

theorem State.slotParity_of_good {id : Nat} (h : s.checkBad 0xA5 id = false) (master : Nat) : s.slotParity id master = s := by
  unfold State.slotParity
  rw [h]
  rfl

/-- DRAM_PLAN is never FATAL. -/
theorem State.classFor_dramPlan (s : State) : s.classFor 0xA5 ≠ 2 := by
  unfold State.classFor
  dsimp only
  split
  · next hSel =>
    intro hFatal
    rw [hFatal] at hSel
    exact absurd hSel.2 (by decide)
  · decide

theorem State.freeSlot_plan (s : State) (id : Nat) : (s.freeSlot id).plan = { s.plan with slots := SMap.erase s.plan.slots id } := by
  unfold State.freeSlot State.checkClear
  rw [apply_ite State.plan]
  exact ite_self _

/-- Bad check bits cost the plan unit a slot, and nothing else of it. -/
theorem State.slotParity_plan (s : State) (id master : Nat) : ∃ m, (s.slotParity id master).plan = { s.plan with slots := m } := by
  unfold State.slotParity
  split
  · set f := (s.freeSlot id).assertFault 0xA5 { detail := 0, access := 0, master := master, addr := 20480 * id } false with hf
    have kFault : f.plan = (s.freeSlot id).plan :=
      (State.assertFault_reports .rfl 0xA5 (by decide) (by decide) (State.classFor_dramPlan _) _ _).plan
    have kArmed : ((f.setArmed none).refreshGo).plan = f.plan := State.refreshGo_plan _
    refine ⟨SMap.erase s.plan.slots id, ?_⟩
    rw [apply_ite State.plan, kArmed, ite_self, kFault, s.freeSlot_plan]
  · exact ⟨s.plan.slots, rfl⟩

theorem State.slotParity_inForce (s : State) (id master : Nat) : (s.slotParity id master).plan.inForce = s.plan.inForce := by
  obtain ⟨m, hPlan⟩ := s.slotParity_plan id master
  rw [hPlan]

/-! ## A commit accepted -/

theorem foldl_plan {β : Type} {f : State → β → State} (hf : ∀ s x, (f s x).plan = s.plan) (l : List β) (s : State) :
    (l.foldl f s).plan = s.plan := by
  induction l generalizing s with
  | nil => rfl
  | cons x l ih => rw [List.foldl_cons, ih, hf]

/-- The compare unit of a break, set to its instant (R161). -/
def State.breakUnit (s : State) (make ds : Nat) : State :=
  (((s.putFlag (Adr.CMP s.freeUnit) Fl.CMP_EN true).put (Adr.CMP s.freeUnit) Fl.CMP_MODE 0).putPair (Adr.CMP s.freeUnit)
    Fl.CMP_TGT_LO Fl.CMP_TGT_HI (breakOf make ds))

/-- Commit `c` behind the accepted ones. -/
def State.joined (s : State) (c : Commit) : State :=
  ((s.setPlan { s.plan with commits := s.plan.commits ++ [c] }).refreshGo).clearGo.readSlots

/-- Its break events, written in the executors of the tiles. -/
def State.broadcast (s : State) (seq : Nat) : State :=
  (List.range (numTiles s.variant)).foldl (fun s t => s.checkWrite (0x9C + t) seq) s

theorem State.joined_plan (s : State) (c : Commit) : (s.joined c).plan = { s.plan with commits := s.plan.commits ++ [c] } := by
  unfold State.joined
  rw [State.plan, State.readSlots_ctl]
  exact State.refreshGo_plan _

theorem State.broadcast_plan (s : State) (seq : Nat) : (s.broadcast seq).plan = s.plan :=
  foldl_plan (fun s _ => (s.checkWrite_ledgerOnly ..).plan) _ s

theorem State.breakUnit_plan (s : State) (make ds : Nat) : (s.breakUnit make ds).plan = s.plan := by
  unfold State.breakUnit State.plan
  rw [State.putPair_ctl, State.put_ctl, State.putFlag_ctl]

/-- The commit that acceptance makes behind its entry. -/
def State.commitOf (s : State) (id : Nat) (ws : List Nat) (path make : Nat) (d : Domain) (k : Cost) (unit : Nat)
    (ackBy setGen : Option Nat) : Commit := {
  id := id, words := ws, path := path, tBreak := breakOf make k.ds, tMake := make
  makeNs := d.ns32, makeFrac := d.frac8, ds := k.ds, dmax := k.dmax, lim := s.rd Adr.MOVE_LIM, collateral := k.collateral
  unit := unit, seq := (match s.led.last with | some e => e.seq | none => 0), ackBy := ackBy, setGen := setGen }

/-- What acceptance does behind its entry. -/
def State.commitLogged (s : State) (id : Nat) (ws : List Nat) (path make : Nat) (d : Domain) (k : Cost) (ackBy setGen : Option Nat) :
    State :=
  ((s.breakUnit make k.ds).joined ((s.breakUnit make k.ds).commitOf id ws path make d k s.freeUnit ackBy setGen)).broadcast
    ((s.breakUnit make k.ds).commitOf id ws path make d k s.freeUnit ackBy setGen).seq

theorem State.commitLogged_plan (s : State) (id : Nat) (ws : List Nat) (path make : Nat) (d : Domain) (k : Cost)
    (ackBy setGen : Option Nat) :
    (s.commitLogged id ws path make d k ackBy setGen).plan = { s.plan with
      commits := s.plan.commits ++ [(s.breakUnit make k.ds).commitOf id ws path make d k s.freeUnit ackBy setGen] } := by
  unfold State.commitLogged
  rw [State.broadcast_plan, State.joined_plan, State.breakUnit_plan]

theorem State.acceptCommit_eq (s : State) (id : Nat) (ws : List Nat) (path make : Nat) (k : Cost) (p role : Nat)
    (ackBy setGen : Option Nat) :
    s.acceptCommit id ws path make k p role ackBy setGen
      = (s.logAt 0x0020 p role (s.timeAt make).sec (s.timeAt make).ns (commitBody s.variant id path k (s.timeAt make) ws)).commitLogged
          id ws path make (s.timeAt make) k ackBy setGen := by
  unfold State.acceptCommit State.commitLogged State.joined State.broadcast State.breakUnit State.commitOf
  rfl

/-- An accepted commit joins the others behind them, the plan unit otherwise as it was. -/
theorem State.acceptCommit_plan (s : State) (id : Nat) (ws : List Nat) (path make : Nat) (k : Cost) (p role : Nat)
    (ackBy setGen : Option Nat) :
    ∃ c : Commit, (s.acceptCommit id ws path make k p role ackBy setGen).plan = { s.plan with commits := s.plan.commits ++ [c] }
      ∧ c.id = id ∧ c.path = path ∧ c.words = ws ∧ c.tMake = make := by
  rw [State.acceptCommit_eq, State.commitLogged_plan, (s.logAt_ledgerOnly ..).plan]
  exact ⟨_, rfl, rfl, rfl, rfl, rfl⟩

/-! ## A step skipped -/

theorem State.get_count_same (w : s.regsWf = true) (b : Nat) (f : Field) (n : Nat) (hf : f.lo + f.width ≤ 32) :
    (s.count b f n).get b f = min (2 ^ f.width - 1) (s.get b f + n) := by
  have hPos : 0 < 2 ^ f.width := Nat.two_pow_pos _
  exact (State.get_put_same _ _ _ hf w).trans (Nat.mod_eq_of_lt (by omega))

theorem State.skipStep_plan (s : State) (l : Sched) (cause : Nat) : (s.skipStep l cause).plan = s.plan := by
  unfold State.skipStep
  refine (congrArg Ctl.plan (State.postOwners_hostOnly ..).ctl).trans ?_
  rw [apply_ite State.ctl]
  exact congrArg Ctl.plan (ite_self _)

theorem State.skipStep_skips (w : s.regsWf = true) (l : Sched) (cause : Nat) :
    (s.skipStep l cause).get Adr.SCHED_STAT Fl.SCHED_STAT_SKIPS
      = min (2 ^ Fl.SCHED_STAT_SKIPS.width - 1) (s.get Adr.SCHED_STAT Fl.SCHED_STAT_SKIPS + 1) := by
  set v := s.count Adr.SCHED_STAT Fl.SCHED_STAT_SKIPS 1 with hv
  have kWf : v.regsWf = true := State.put_regsWf _ _ _ w
  have hCount := State.get_count_same w Adr.SCHED_STAT Fl.SCHED_STAT_SKIPS 1 (by decide)
  set r := if cause = 2 then v.ledgerRefused else v with hr
  have hRefused : r.regsWf = true ∧ r.get Adr.SCHED_STAT Fl.SCHED_STAT_SKIPS = v.get Adr.SCHED_STAT Fl.SCHED_STAT_SKIPS := by
    rw [hr]
    split
    · exact ⟨State.put_regsWf _ _ _ kWf, State.get_put_word _ _ _ _ _ (by decide) kWf⟩
    · exact ⟨kWf, rfl⟩
  exact (State.postOwners_get hRefused.1 _ _ _ _ (by decide)).trans (hRefused.2.trans hCount)

/-! ## The arming of a step -/

/-- What arming does with the slot as it finds it. -/
def State.armFound (s : State) (l : Sched) (make : Nat) : Option Slot → State
  | none => s.postOwners 0x0014 (le 2 l.next ++ le 4 (min l.pass 0xffffffff))
  | some x =>
    if s.skipCause make (s.costOf x.words).ds ≠ 0 then s.skipStep l (s.skipCause make (s.costOf x.words).ds)
    else ((s.put Adr.SCHED_STAT Fl.SCHED_STAT_ENTRY l.next).put Adr.SCHED_PASS Fl.SCHED_PASS_PASS (min l.pass 0xffffffff)).acceptCommit
      (l.entries.getD l.next (0, 0)).1 x.words 1 make (s.costOf x.words) 0xffff 0 none none

theorem State.armStep_eq (s : State) (l : Sched) :
    s.armStep l = (s.listStarts.slotParity (l.entries.getD l.next (0, 0)).1).armFound l (s.stepTick l)
      ((s.listStarts.slotParity (l.entries.getD l.next (0, 0)).1).slot? (l.entries.getD l.next (0, 0)).1) := by
  unfold State.armStep State.armFound
  rfl

theorem State.armFound_inForce (s : State) (l : Sched) (make : Nat) (x : Option Slot) :
    (s.armFound l make x).plan.inForce = s.plan.inForce := by
  unfold State.armFound
  split
  · exact congrArg (fun c : Ctl => c.plan.inForce) (State.postOwners_hostOnly ..).ctl
  · split
    · rw [State.skipStep_plan]
    · next x _ =>
      obtain ⟨c, hPlan, -⟩ := State.acceptCommit_plan ((s.put Adr.SCHED_STAT Fl.SCHED_STAT_ENTRY l.next).put Adr.SCHED_PASS
        Fl.SCHED_PASS_PASS (min l.pass 0xffffffff)) (l.entries.getD l.next (0, 0)).1 x.words 1 make (s.costOf x.words) 0xffff 0 none none
      rw [hPlan]
      rfl

theorem State.armStep_inForce (s : State) (l : Sched) : (s.armStep l).plan.inForce = s.plan.inForce := by
  rw [s.armStep_eq, State.armFound_inForce, State.slotParity_inForce, s.listStarts_plan]

theorem State.armStep_of_good {l : Sched} (h : s.checkBad 0xA5 (l.entries.getD l.next (0, 0)).1 = false) :
    s.armStep l = s.listStarts.armFound l (s.stepTick l) (s.slot? (l.entries.getD l.next (0, 0)).1) := by
  have hSlot : s.listStarts.slot? (l.entries.getD l.next (0, 0)).1 = s.slot? (l.entries.getD l.next (0, 0)).1 := by
    unfold State.slot?
    rw [s.listStarts_plan]
  rw [s.armStep_eq, State.slotParity_of_good ((s.listStarts_checkBad ..).trans h), hSlot]

theorem State.armStep_of_empty {l : Sched} (h : s.checkBad 0xA5 (l.entries.getD l.next (0, 0)).1 = false)
    (hs : s.slot? (l.entries.getD l.next (0, 0)).1 = none) : (s.armStep l).plan = s.plan := by
  rw [State.armStep_of_good h, hs]
  exact (congrArg Ctl.plan (State.postOwners_hostOnly ..).ctl).trans s.listStarts_plan

theorem State.armStep_of_free (w : s.regsWf = true) {l : Sched} {x : Slot}
    (h : s.checkBad 0xA5 (l.entries.getD l.next (0, 0)).1 = false) (hs : s.slot? (l.entries.getD l.next (0, 0)).1 = some x)
    (hc : s.skipCause (s.stepTick l) (s.costOf x.words).ds = 0) :
    ∃ c : Commit, (s.armStep l).plan.commits = s.plan.commits ++ [c] ∧ c.id = (l.entries.getD l.next (0, 0)).1 ∧ c.path = 1
      ∧ c.words = x.words ∧ c.tMake = s.stepTick l := by
  rw [State.armStep_of_good h, hs]
  unfold State.armFound
  dsimp only
  rw [State.listStarts_costOf w, State.listStarts_skipCause, if_neg (not_not_intro hc)]
  obtain ⟨c, hPlan, hc⟩ := State.acceptCommit_plan ((s.listStarts.put Adr.SCHED_STAT Fl.SCHED_STAT_ENTRY l.next).put Adr.SCHED_PASS
    Fl.SCHED_PASS_PASS (min l.pass 0xffffffff)) (l.entries.getD l.next (0, 0)).1 x.words 1 (s.stepTick l) (s.costOf x.words) 0xffff 0 none none
  exact ⟨c, (congrArg PlanUnit.commits hPlan).trans (congrArg (·.commits ++ [c]) s.listStarts_plan), hc⟩

theorem State.armStep_of_skip (w : s.regsWf = true) {l : Sched} {x : Slot}
    (h : s.checkBad 0xA5 (l.entries.getD l.next (0, 0)).1 = false) (hs : s.slot? (l.entries.getD l.next (0, 0)).1 = some x)
    (hc : s.skipCause (s.stepTick l) (s.costOf x.words).ds ≠ 0) :
    (s.armStep l).plan = s.plan ∧ (s.armStep l).get Adr.SCHED_STAT Fl.SCHED_STAT_SKIPS
      = min (2 ^ Fl.SCHED_STAT_SKIPS.width - 1) (s.get Adr.SCHED_STAT Fl.SCHED_STAT_SKIPS + 1) := by
  rw [State.armStep_of_good h, hs]
  unfold State.armFound
  dsimp only
  rw [State.listStarts_costOf w, State.listStarts_skipCause, if_pos hc, State.skipStep_plan, s.listStarts_plan,
    State.skipStep_skips (State.listStarts_regsWf w), State.listStarts_skips w]
  exact ⟨rfl, rfl⟩

theorem schedStepArm_of_due {l : Sched} (hg : s.gwqRuns = true) (hr : s.listRuns = true) (ho : s.plan.oldSched = none)
    (hs : s.plan.sched = some l) (hd : s.stepDue l = true) :
    schedStepArm s = (s.armStep l).setPlan { (s.armStep l).plan with sched := some l.advance } := by
  unfold schedStepArm
  rw [hg, hr, ho, hs]
  exact if_pos hd

/-- A step armed, with the list past it. -/
theorem State.stepArmed_spec (w : s.regsWf = true) {l : Sched} {u : State}
    (hu : u = (s.armStep l).setPlan { (s.armStep l).plan with sched := some l.advance }) :
    u.plan.sched = some l.advance ∧ u.plan.inForce = s.plan.inForce
      ∧ (s.slot? (l.entries.getD l.next (0, 0)).1 = none → s.checkBad 0xA5 (l.entries.getD l.next (0, 0)).1 = false →
        u.plan.commits = s.plan.commits)
      ∧ ∀ x, s.slot? (l.entries.getD l.next (0, 0)).1 = some x → s.checkBad 0xA5 (l.entries.getD l.next (0, 0)).1 = false →
        (s.skipCause (s.stepTick l) (s.costOf x.words).ds = 0 → ∃ c, u.plan.commits = s.plan.commits ++ [c]
          ∧ c.id = (l.entries.getD l.next (0, 0)).1 ∧ c.path = 1 ∧ c.words = x.words ∧ c.tMake = s.stepTick l)
        ∧ (s.skipCause (s.stepTick l) (s.costOf x.words).ds ≠ 0 → u.plan.commits = s.plan.commits
          ∧ u.get Adr.SCHED_STAT Fl.SCHED_STAT_SKIPS
            = min (2 ^ Fl.SCHED_STAT_SKIPS.width - 1) (s.get Adr.SCHED_STAT Fl.SCHED_STAT_SKIPS + 1)) := by
  have hSched : u.plan.sched = some l.advance := by rw [hu]; rfl
  have hForce : u.plan.inForce = (s.armStep l).plan.inForce := by rw [hu]; rfl
  have hCommits : u.plan.commits = (s.armStep l).plan.commits := by rw [hu]; rfl
  have hSkips : u.get Adr.SCHED_STAT Fl.SCHED_STAT_SKIPS = (s.armStep l).get Adr.SCHED_STAT Fl.SCHED_STAT_SKIPS := by rw [hu]; rfl
  rw [hForce, hCommits, hSkips]
  refine ⟨hSched, s.armStep_inForce l, fun hEmpty hGood => ?_, fun x hSlot hGood => ⟨State.armStep_of_free w hGood hSlot, fun hSkip => ?_⟩⟩
  · rw [State.armStep_of_empty hGood hEmpty]
  · obtain ⟨hPlan, hCount⟩ := State.armStep_of_skip w hGood hSlot hSkip
    exact ⟨congrArg PlanUnit.commits hPlan, hCount⟩

/-! ## The end of a list -/

theorem schedDone_of_past {l : Sched} (hg : s.gwqRuns = true) (hr : s.listRuns = true) (hs : s.plan.sched = some l)
    (hc : l.cycle = 0) (hl : l.entries.length ≤ l.next) (ht : s.tickTo l.makeAt ≤ s.tick) :
    schedDone s = ((s.put Adr.SCHED_STAT Fl.SCHED_STAT_STATE 3).refreshGo).postOwners 0x0013 [] := by
  unfold schedDone
  rw [hs]
  dsimp only
  rw [hg, hr, hc, decide_eq_true hl, decide_eq_true ht]
  rfl

theorem State.listDone_spec (w : s.regsWf = true) {u : State}
    (hu : u = ((s.put Adr.SCHED_STAT Fl.SCHED_STAT_STATE 3).refreshGo).postOwners 0x0013 []) :
    u.get Adr.SCHED_STAT Fl.SCHED_STAT_STATE = 3 ∧ u.plan = s.plan ∧ u.led = s.led := by
  have kPut : (s.put Adr.SCHED_STAT Fl.SCHED_STAT_STATE 3).regsWf = true := State.put_regsWf _ _ _ w
  have kPost := State.postOwners_hostOnly (s.put Adr.SCHED_STAT Fl.SCHED_STAT_STATE 3).refreshGo 0x0013 []
  refine ⟨?_, ?_, ?_⟩
  · rw [hu, State.postOwners_get (State.refreshGo_regsWf kPut) _ _ _ _ (by decide), State.refreshGo_get kPut _ _ (by decide)]
    exact State.get_put_same _ _ _ (by decide) w
  · rw [hu]
    exact (congrArg Ctl.plan kPost.ctl).trans (State.refreshGo_plan _)
  · rw [hu]
    exact kPost.led.trans (State.refreshGo_led _)

theorem schedStepArm_of_idle (h : s.listRuns = false) : schedStepArm s = s := by
  unfold schedStepArm
  rw [h, Bool.and_false]
  rfl

theorem schedDone_of_idle (h : s.listRuns = false) : schedDone s = s := by
  unfold schedDone
  split
  · rfl
  · rw [h, Bool.and_false]
    rfl

/-- Settles O22, command by command and step by step: what the load and the stop do with the list, what the read answers, and what
arming makes of a step's slot. -/
theorem scheduleListRuns : Obligations.ScheduleListRuns := by
  intro s w
  refine ⟨fun q t hpair hact hbulk hrole => ⟨fun h hlen hok => ⟨fun hgood hroom => ?_, fun hbad => ?_⟩, fun h hroom => ?_,
    fun h hlen hs => ?_, fun l h hs hlen => ?_⟩, fun l hg hr ho hs hd => ?_, fun l hg hr hs hc hl ht => ?_, fun hr => ?_⟩
  · obtain ⟨body, result, hdone⟩ := schedLoad_of_good h hpair hact hrole hbulk hlen hok hgood hroom
    obtain ⟨hSched, hState, hForce, hSlots, hCpl⟩ := State.listLoaded_spec w h t.role body (s.loadStart t.buf s.tick) result
    exact ⟨schedLoad q s, rfl, hdone ▸ ⟨hSched, hState, hForce, hSlots, result, hCpl⟩⟩
  · exact ⟨schedLoad q s, rfl, schedLoad_of_bad w h hpair hact hrole hbulk hlen hok hbad⟩
  · have hdone := schedStop_of_runs h hpair hact hrole hbulk hroom
    obtain ⟨hSched, hBusy, hIdle, hCpl⟩ := State.listStopped_spec w h t.role _ hdone
    exact ⟨schedStop q s, rfl, hSched, hBusy, hIdle, hCpl, fun hrec => hdone ▸ State.listStopped_logged hroom hrec ..⟩
  · obtain ⟨hCpl, hPlan⟩ := schedRead_answers w h .rfl .rfl (le 16 0)
    exact ⟨schedRead q s, rfl, schedRead_of_none h hrole hbulk hlen hs ▸ ⟨hCpl, hPlan⟩⟩
  · obtain ⟨hCpl, hPlan⟩ := schedRead_answers w h (s.writeBuf_attends ..) (s.writeBuf_hostOnly q t.bufAddr l.bytes)
      (layout 16 [(0, le 1 s.schedState), (2, le 2 l.entries.length), (4, le 4 s.lastArmed.2)])
    exact ⟨schedRead q s, rfl, schedRead_of_some h hrole hbulk hs hlen ▸ ⟨hPlan, hCpl⟩⟩
  · exact ⟨schedStepArm s, rfl, State.stepArmed_spec w (schedStepArm_of_due hg hr ho hs hd)⟩
  · exact ⟨schedDone s, rfl, State.listDone_spec w (schedDone_of_past hg hr hs hc hl ht)⟩
  · exact ⟨congrArg Host.Outcome.next (schedStepArm_of_idle hr), congrArg Host.Outcome.next (schedDone_of_idle hr)⟩

end Sys2Proof.Machine
end

section
/-! O53: compiles under NO_COLLATERAL: what the queue holds of them, and what their end writes (R109, R111). -/

namespace Sys2Proof.Machine

variable {s : State} {q : Nat} {t : Taken}

/-! ## The report of a session stays through its completion -/

/-- From `s` to `t` session `q` stays with the report written for it. -/
structure KeepsReport (q : Nat) (s t : State) : Prop where
  sess : ∀ x, s.sess? q = some x → ∃ y, t.sess? q = some y ∧ y.report = x.report

theorem KeepsReport.rfl : KeepsReport q s s := ⟨fun x h => ⟨x, h, Eq.refl _⟩⟩

theorem KeepsReport.trans {s t u : State} (h : KeepsReport q s t) (k : KeepsReport q t u) : KeepsReport q s u where
  sess x hx := by
    obtain ⟨y, hy, hReport⟩ := h.sess x hx
    obtain ⟨z, hz, kReport⟩ := k.sess y hy
    exact ⟨z, hz, kReport.trans hReport⟩

theorem ite_keepsReport {c : Prop} [Decidable c] {a b : State} (ha : KeepsReport q s a) (hb : KeepsReport q s b) :
    KeepsReport q s (if c then a else b) := by
  split
  · exact ha
  · exact hb

theorem KeepsReport.of_sess {t : State} (h : t.host.sess = s.host.sess) : KeepsReport q s t :=
  ⟨fun x hx => ⟨x, by unfold State.sess?; rw [h]; exact hx, Eq.refl _⟩⟩

theorem State.setSess_keepsReport {x y : Sess} (hx : s.sess? q = some x) (hr : y.report = x.report) : KeepsReport q s (s.setSess q y) where
  sess z hz := by
    obtain rfl : x = z := Option.some.inj (hx.symm.trans hz)
    exact ⟨y, s.sess?_setSess_same q y, hr⟩

theorem State.hubEvent_keepsReport (s : State) (ev n : Nat) : KeepsReport q s (s.hubEvent ev n) :=
  .of_sess (congrArg HostIf.sess (s.hubEvent_host ..))

theorem State.dmaFault_keepsReport (s : State) (p : Nat) : KeepsReport q s (s.dmaFault p) :=
  .of_sess (congrArg HostIf.sess (s.dmaFault_host p))

theorem State.signal_keepsReport (s : State) (fn vec : Nat) : KeepsReport q s (s.signal fn vec) := by
  unfold State.signal State.sendMsi
  refine ite_keepsReport .rfl (ite_keepsReport (KeepsReport.trans (KeepsReport.of_sess ?_) (State.hubEvent_keepsReport ..)) (.of_sess ?_)) <;> rfl

theorem Sess.setModer_report (x : Sess) (ring : Nat) (m : Moder) : (x.setModer ring m).report = x.report := by
  unfold Sess.setModer
  split
  · rfl
  · split <;> rfl

theorem State.writeStat_keepsReport (s : State) (ring : Nat) : KeepsReport q s (s.writeStat q ring) := by
  unfold State.writeStat
  split
  · exact .rfl
  · next x hx =>
    have kSess : ∀ y : Sess, y.report = x.report → KeepsReport q s ((s.hubEvent 0x0C 1).setSess q y) :=
      fun y hy => (s.hubEvent_keepsReport ..).trans (State.setSess_keepsReport ((s.sess?_hubEvent ..).trans hx) hy)
    have kModer : ∀ (y : Sess) (m : Moder), y.report = x.report → KeepsReport q s ((s.hubEvent 0x0C 1).setSess q (y.setModer ring m)) :=
      fun y m hy => kSess _ ((y.setModer_report ring m).trans hy)
    refine ite_keepsReport .rfl (ite_keepsReport (s.dmaFault_keepsReport q) (ite_keepsReport (kSess _ ?_)
      (ite_keepsReport (kModer _ _ ?_) ((kModer _ _ ?_).trans (State.signal_keepsReport ..))))) <;> rfl

theorem State.sendEth_keepsReport (s : State) (ty count index : Nat) (body : List Byte) :
    KeepsReport q s (s.sendEth q ty count index body) := by
  unfold State.sendEth
  split
  · exact .rfl
  · next x hx =>
    split
    · exact .rfl
    · next e he =>
      have kSent := (State.setSess_keepsReport (y := { x with eth := some { e with txSeq := e.txSeq + 1 } }) hx rfl).trans
        (State.hubEvent_keepsReport _ 0x0D 1)
      refine ite_keepsReport (kSent.trans (.of_sess ?_)) (kSent.trans (.of_sess ?_)) <;> rfl

theorem State.writeCpl_keepsReport (s : State) (e : List Byte) : KeepsReport q s (s.writeCpl q e) := by
  unfold State.writeCpl
  split
  · exact .rfl
  · next x hx =>
    have kSess := fun (y : Sess) (hy : y.report = x.report) => State.setSess_keepsReport hx hy
    refine ite_keepsReport .rfl (ite_keepsReport (kSess _ ?_) (ite_keepsReport (s.dmaFault_keepsReport q)
      (ite_keepsReport ((kSess _ ?_).trans (State.sendEth_keepsReport ..))
        ((kSess _ ?_).trans ((State.hubEvent_keepsReport ..).trans (State.writeStat_keepsReport ..)))))) <;> rfl

theorem State.warmGoes_of_idle (h : s.boot.warmDue = false) : s.warmGoes = s := by
  have hIdle : s.ctl.boot.warmDue = false := h
  unfold State.warmGoes
  rw [hIdle]
  rfl

/-- A completion with a result: events alone, and the report stays. -/
theorem State.completeWith_keeps (hDue : s.boot.warmDue = false) {x : Sess} {k : Taken} (hx : s.sess? q = some x) (hk : x.taken = some k)
    (status : Nat) (result : List Byte) :
    HostOnly s (s.completeWith q status result) ∧ KeepsReport q s (s.completeWith q status result) := by
  have kHost : HostOnly s ((s.untake q x).writeCpl q (completionBytes k.tag status k.op k.index s.ns32 result)) :=
    (s.setSess_hostOnly ..).trans (State.writeCpl_hostOnly ..)
  have hIdle : ((s.untake q x).writeCpl q (completionBytes k.tag status k.op k.index s.ns32 result)).boot.warmDue = false := by
    rw [State.boot, kHost.ctl]
    exact hDue
  rw [State.completeWith_of_taken hx hk, State.warmGoes_of_idle hIdle]
  have kTaken : KeepsReport q s (s.untake q x) := State.setSess_keepsReport hx rfl
  exact ⟨kHost, kTaken.trans (State.writeCpl_keepsReport ..)⟩

/-! ## The bytes of a report -/

theorem fit_length (k : Nat) (bs : List Byte) : (fit k bs).length = k := by
  unfold fit
  simp
  omega

theorem prefix_fit {p bs : List Byte} {k : Nat} (h : p <+: bs) (hk : p.length ≤ k) : p <+: fit k bs := by
  unfold fit
  exact List.prefix_take_iff.mpr ⟨h.trans (List.prefix_append ..), hk⟩

/-- The first field of a layout, where every other field lies behind it. -/
theorem prefix_layout {p : List Byte} {n : Nat} (hn : p.length ≤ n) (fs : List (Nat × List Byte)) (hfs : ∀ f ∈ fs, p.length ≤ f.1) :
    p <+: layout n ((0, p) :: fs) := by
  have hFold : ∀ (fs : List (Nat × List Byte)) (acc : List Byte), (∀ f ∈ fs, p.length ≤ f.1) → p <+: acc →
      p <+: fs.foldl (fun acc f => fit f.1 acc ++ f.2) acc := by
    intro fs
    induction fs with
    | nil => exact fun _ _ h => h
    | cons f fs ih =>
      intro acc hf hacc
      refine ih _ (fun g hg => hf g (List.mem_cons_of_mem _ hg)) ?_
      exact (prefix_fit hacc (hf f List.mem_cons_self)).trans (List.prefix_append ..)
  unfold layout
  refine prefix_fit (hFold fs _ hfs ?_) hn
  exact List.prefix_refl _

theorem flatten_le_length (k : Nat) (xs : List Nat) : (xs.map (le k)).flatten.length = k * xs.length := by
  induction xs with
  | nil => simp
  | cons x xs ih => rw [List.map_cons, List.flatten_cons, List.length_append, ih, le_length, List.length_cons]; ring

/-- STATUS leads the report. -/
theorem reportBytes_status (v : Variant) (status time len : Nat) (x : Compile) (b : Base) (f : Found) :
    rdLE (reportBytes v status time len x b f).1 0 2 = ofLE (le 2 status) := by
  have hHead : le 2 status <+: (reportBytes v status time len x b f).1 := by
    unfold reportBytes
    exact (prefix_layout (p := le 2 status) (n := 64) (by simp) _ (by simp)).trans (List.prefix_append ..)
  obtain ⟨rest, hBytes⟩ := hHead
  rw [← hBytes]
  rfl

/-- The collateral outputs follow the head, where the report takes them all. -/
theorem reportBytes_collateral (v : Variant) (status time : Nat) {len : Nat} (x : Compile) (b : Base) {f : Found}
    (hlen : 64 + 2 * f.out.collateral.length ≤ len) :
    ((reportBytes v status time len x b f).1.drop 64).take (2 * f.out.collateral.length) = (f.out.collateral.map (le 2)).flatten := by
  have hTake : ((f.out.collateral ++ f.out.losers ++ f.out.ignored).map (le 2)).take ((len - 64) / 2)
      = f.out.collateral.map (le 2)
        ++ ((f.out.losers ++ f.out.ignored).map (le 2)).take ((len - 64) / 2 - (f.out.collateral.map (le 2)).length) := by
    rw [List.append_assoc, List.map_append, List.take_append, List.take_of_length_le (by rw [List.length_map]; omega)]
  unfold reportBytes
  dsimp only
  rw [List.drop_left' (by unfold layout; exact fit_length ..), hTake, List.flatten_append]
  exact List.take_left' (flatten_le_length ..)

/-! ## The end of a compile that found collateral -/

/-- What a compile finds over its base. -/
def State.found (s : State) (x : Compile) (b : Base) : Found :=
  ⟨compilePlan s.variant (portEntries x.list (rdLE x.list 4 2)) b.words,
    planDelta s.variant b.words (compilePlan s.variant (portEntries x.list (rdLE x.list 4 2)) b.words).words,
    moveDs (s.rd Adr.MOVE_LIM) (planDelta s.variant b.words (compilePlan s.variant (portEntries x.list (rdLE x.list 4 2)) b.words).words),
    x.noColl || (rdLE x.list 8 2).testBit 0⟩

/-- Its report where it found collateral, and whether that is cut. -/
def State.collateralReport (s : State) (x : Compile) (b : Base) : List Byte × Bool :=
  reportBytes s.variant 0x12 (s.draw.1 % 65536) x.repLen x b (s.found x b)

theorem State.endCompile_of_collateral {x : Compile} {b : Base} (hn : x.noColl = true ∨ (rdLE x.list 8 2).testBit 0 = true)
    (hc : (s.found x b).out.collateral ≠ []) :
    s.endCompile x b = (s.draw.2.writeReport x.q x.repAddr (s.collateralReport x b).1).completeWith x.q 0x12
      (compileResult x.id (s.collateralReport x b).2 (s.found x b)) := by
  have hNo : (x.noColl || (rdLE x.list 8 2).testBit 0) = true := Bool.or_eq_true_iff.mpr hn
  have hSome : (!(s.found x b).out.collateral.isEmpty) = true := by simpa using hc
  have hStatus : (x.noColl || (rdLE x.list 8 2).testBit 0)
      && !(compilePlan s.variant (portEntries x.list (rdLE x.list 4 2)) b.words).collateral.isEmpty := Bool.and_eq_true_iff.mpr ⟨hNo, hSome⟩
  unfold State.endCompile
  simp only [hStatus, if_true]
  rfl

/-- The start of the next compile, where its slot's check bits are good. -/
theorem State.startCompile_of_good (h : ∀ y, s.plan.compiles.head? = some y → 0x100 ≤ rdLE y.list 6 2 ∨ s.checkBad 0xA5 (rdLE y.list 6 2) = false) :
    ∃ cs, s.startCompile = s.setPlan { s.plan with compiles := cs } := by
  unfold State.startCompile
  split
  · exact ⟨s.plan.compiles, rfl⟩
  · next y rest hCompiles =>
    split
    · exact ⟨s.plan.compiles, rfl⟩
    · have hKept : (if rdLE y.list 6 2 < 0x100 then s.slotParity (rdLE y.list 6 2) 0x00 else s) = s := by
        split
        · next hb =>
          obtain hFar | hGood := h y (by rw [hCompiles]; rfl)
          · omega
          · exact State.slotParity_of_good hGood _
        · rfl
      dsimp only
      rw [hKept]
      exact ⟨_, rfl⟩

/-- The compile at the head ends with collateral: its completion, its report, and every slot left. -/
theorem State.endCompile_spec (w : s.regsWf = true) {x : Compile} {b : Base} {y : Sess} {k : Taken}
    (hn : x.noColl = true ∨ (rdLE x.list 8 2).testBit 0 = true) (hc : (s.found x b).out.collateral ≠ []) (hy : s.sess? x.q = some y)
    (hk : y.taken = some k) (hDue : s.boot.warmDue = false) :
    (s.endCompile x b).ctl = s.ctl
      ∧ Completed s (s.endCompile x b) x.q 0x12 (compileResult x.id (s.collateralReport x b).2 (s.found x b))
      ∧ (y.eth = none → s.dmaOk x.q = true → ∃ z, (s.endCompile x b).sess? x.q = some z
        ∧ z.report = (x.repAddr, (s.collateralReport x b).1)) := by
  have kDraw : Attends x.q s s.draw.2 := .of_eq rfl rfl rfl rfl
  have kReport := kDraw.trans (State.writeReport_attends s.draw.2 x.q x.repAddr (s.collateralReport x b).1)
  have kHost : HostOnly s.draw.2 (s.draw.2.writeReport x.q x.repAddr (s.collateralReport x b).1) := State.onSess_hostOnly ..
  obtain ⟨z, hz, hTaken, -, -⟩ := kReport.sess y hy
  have hIdle : (s.draw.2.writeReport x.q x.repAddr (s.collateralReport x b).1).boot.warmDue = false := by
    rw [State.boot, kHost.ctl]
    exact hDue
  obtain ⟨kDone, kKept⟩ := State.completeWith_keeps hIdle hz (hTaken.trans hk) 0x12
    (compileResult x.id (s.collateralReport x b).2 (s.found x b))
  rw [State.endCompile_of_collateral hn hc]
  refine ⟨kDone.ctl.trans kHost.ctl, kReport.completeWith w hy hk .., fun heth hdma => ?_⟩
  have hWritten : (s.draw.2.writeReport x.q x.repAddr (s.collateralReport x b).1).sess? x.q
      = some { y with report := (x.repAddr, (s.collateralReport x b).1) } := by
    have hDraw : s.draw.2.sess? x.q = some y := hy
    have hDma : s.draw.2.dmaOk x.q = true := hdma
    unfold State.writeReport State.onSess
    rw [hDraw]
    dsimp only
    rw [heth, hDma]
    exact State.sess?_setSess_same ..
  exact kKept.sess _ hWritten

/-! ## The queue -/

/-- The head of the queue has its base once it has started. -/
theorem State.startCompile_compiles (s : State) : s.startCompile.plan.compiles = s.plan.compiles
    ∨ ∃ x rest b, s.plan.compiles = x :: rest ∧ s.startCompile.plan.compiles = { x with base := some b } :: rest := by
  unfold State.startCompile
  split
  · exact .inl rfl
  · next x rest hCompiles =>
    split
    · exact .inl rfl
    · exact .inr ⟨x, rest, _, hCompiles, rfl⟩

/-- The last of the queue is what was last taken, but for the base. -/
theorem State.queueCompile_last (s : State) (x : Compile) :
    ∃ b, (s.queueCompile x).plan.compiles.getLast? = some { x with base := b } := by
  set u := s.setPlan { s.plan with compiles := s.plan.compiles ++ [x] } with hu
  have hQueue : u.plan.compiles = s.plan.compiles ++ [x] := rfl
  have hLast : u.plan.compiles.getLast? = some x := by rw [hQueue, List.getLast?_concat]
  obtain hSame | ⟨y, rest, b, hBefore, hAfter⟩ := u.startCompile_compiles
  · exact ⟨x.base, (congrArg List.getLast? hSame).trans hLast⟩
  · cases rest with
    | nil =>
      have hxy : y = x := by
        rw [hBefore] at hLast
        exact Option.some.inj hLast
      exact ⟨some b, (congrArg List.getLast? hAfter).trans (by rw [hxy]; rfl)⟩
    | cons z rest =>
      refine ⟨x.base, (congrArg List.getLast? hAfter).trans ?_⟩
      rw [hBefore, List.getLast?_cons_cons] at hLast
      rw [List.getLast?_cons_cons]
      exact hLast

theorem planCompile_queues (h : s.runs q 0x0100 t) (hrole : t.role = 1) (hbulk : s.pastBulk q t.bufAddr t.bufLen = false)
    (hrep : s.pastBulk q (t.p 32 8) (t.p 40 4) = false) (hlen : 64 ≤ t.p 40 4) (hok : t.bufOk = true) (hmagic : rdLE t.buf 0 4 = 0x4B504C54)
    (hcount : rdLE t.buf 4 2 ≤ 1024) (hbuf : 16 + 4 * rdLE t.buf 4 2 ≤ t.bufLen) (hslot : t.p 24 2 < numSlots s.variant) :
    planCompile q s = (s.setPhase q .waiting).queueCompile
      ⟨q, t.p 24 2, t.buf, s.flag Adr.PLAN_CFG Fl.PLAN_CFG_NO_COLLATERAL, none, t.p 32 8, t.p 40 4⟩ := by
  have hNamed : t.p 24 2 ≠ 0xffff := by
    have hSlots : numSlots s.variant ≤ 256 := by
      cases s.variant <;> decide
    omega
  have hShort : ¬ t.bufLen < 16 ∧ ¬ t.bufLen < 16 + 4 * rdLE t.buf 4 2 ∧ ¬ t.p 40 4 < 64 := by omega
  unfold planCompile
  rw [State.actCmd_of_ok h ?_ ?_, if_neg hNamed]
  · refine State.preStatus_eq_zero (State.lacksUnit_of_none (by rw [h.opcode]; decide)) (by simp [hrole]) (fun b hb => ?_) rfl ?_
      hbulk fun _ => hok
    · exact absurd hb (by simp)
    · simp [hShort, hslot, hrep]
  · simp [firstStatus, hmagic, hNamed, Nat.not_lt.mpr hcount]

/-- Settles O53: the queue keeps the list with both marks of NO_COLLATERAL, and the end of the compile at the head writes its report and
completion and no slot. -/
theorem noCollateralCompilesLeaveTheirSlot : Obligations.NoCollateralCompilesLeaveTheirSlot := by
  intro s w
  refine ⟨fun q t h hrole hbulk hrep hlen hok hmagic hcount hbuf hslot => ?_, fun x rest b y k outs hx hb hn houts hne hy hk hDue hNext => ?_⟩
  · obtain ⟨base, hLast⟩ := (s.setPhase q .waiting).queueCompile_last
      ⟨q, t.p 24 2, t.buf, s.flag Adr.PLAN_CFG Fl.PLAN_CFG_NO_COLLATERAL, none, t.p 32 8, t.p 40 4⟩
    rw [← planCompile_queues h hrole hbulk hrep hlen hok hmagic hcount hbuf hslot] at hLast
    exact ⟨planCompile q s, _, rfl, hLast, rfl, rfl, rfl, rfl, rfl⟩
  · set v := s.setPlan { s.plan with compiles := rest } with hv
    have hOuts : (v.found x b).out.collateral = outs := houts.symm
    obtain ⟨hCtl, hDone, hReport⟩ := State.endCompile_spec (s := v) w hn (by rw [hOuts]; exact hne) hy hk hDue
    have hEnd : compileCompletion s = (v.endCompile x b).startCompile := by
      unfold compileCompletion
      rw [hx]
      dsimp only
      rw [hb]
    obtain ⟨cs, hStart⟩ := (v.endCompile x b).startCompile_of_good fun c hc => by
      have hHead : rest.head? = some c := by rwa [State.plan, hCtl] at hc
      exact (hNext c hHead).imp_right fun hg => by
        unfold State.checkBad
        rw [hCtl]
        exact hg.1
    have hSess : ∀ p, (compileCompletion s).sess? p = (v.endCompile x b).sess? p := fun p => by rw [hEnd, hStart]; rfl
    obtain ⟨y', z, k', hy', hk', hz, hzt, hcpl⟩ := hDone
    obtain rfl : y = y' := Option.some.inj (hy.symm.trans hy')
    obtain rfl : k = k' := Option.some.inj (hk.symm.trans hk')
    refine ⟨compileCompletion s, z, compileResult x.id (v.collateralReport x b).2 (v.found x b), rfl, ?_, (hSess x.q).trans hz, hzt,
      fun hq hs hd hf => (hcpl hq hs hd hf).1, fun heth hdma => ?_⟩
    · rw [hEnd, hStart]
      have hSlots : (v.endCompile x b).plan.slots = v.plan.slots := congrArg (fun c : Ctl => c.plan.slots) hCtl
      exact hSlots
    · obtain ⟨z', hz', hrep⟩ := hReport heth hdma
      obtain rfl : z = z' := Option.some.inj (hz.symm.trans hz')
      rw [hrep, ← hOuts]
      exact ⟨rfl, (reportBytes_status ..).trans (by decide), fun hlen => reportBytes_collateral _ _ _ _ _ hlen⟩

end Sys2Proof.Machine
end

section
/-! SUPPORT. The Haldod link and its answers (R288, R291, R298): what a frame sent and a completion leave alone. -/

namespace Sys2Proof.Machine

variable {s t : State} {q : Nat}

/-! ## Registers that a frame or a completion may write -/

/-- The first words of registers of 16 bytes, among them those of the sessions, and what lies from the interconnect's registers on. -/
def statusReg (a : Nat) : Prop := a % 16 = 0 ∨ 0x120000 ≤ a

theorem State.put_statusReg (s : State) (b : Nat) (f : Field) (n : Nat) (h : statusReg (b + f.off)) :
    WritesOnly statusReg s (s.put b f n) :=
  ⟨State.put_regsWf _ _ _, fun w a ha => State.rd_put_word _ _ _ _ (by rintro rfl; exact ha h) w⟩

theorem State.putFlag_statusReg (s : State) (b : Nat) (f : Field) (x : Bool) (h : statusReg (b + f.off)) :
    WritesOnly statusReg s (s.putFlag b f x) := s.put_statusReg b f _ h

theorem State.count_statusReg (s : State) (b : Nat) (f : Field) (n : Nat) (h : statusReg (b + f.off)) :
    WritesOnly statusReg s (s.count b f n) := s.put_statusReg b f _ h

/-- What leaves registers and variant. -/
theorem WritesOnly.of_regs {w : Nat → Prop} (hr : t.regs = s.regs) (hv : t.variant = s.variant) : WritesOnly w s t :=
  (WritesOnly.rfl (s := t)).after hr hv

theorem statusReg_perfHc (i k : Nat) : statusReg (Adr.PERF_HC i + k) := by
  unfold statusReg Adr.PERF_HC
  omega

theorem State.hubEvent_statusReg (s : State) (ev n : Nat) : WritesOnly statusReg s (s.hubEvent ev n) := by
  unfold State.hubEvent
  refine ite_writesOnly .rfl (foldl_writesOnly (fun s i => ?_) _ s)
  have kCount : ∀ m, WritesOnly statusReg s (s.putPair (Adr.PERF_HC i) Fl.PERF_HC_VAL_LO Fl.PERF_HC_VAL_HI m) := fun m =>
    (s.put_statusReg _ _ _ (statusReg_perfHc ..)).trans (State.put_statusReg _ _ _ _ (statusReg_perfHc ..))
  exact ite_writesOnly (ite_writesOnly ((kCount _).trans (State.putFlag_statusReg _ _ _ _ (statusReg_perfHc ..))) (kCount _)) .rfl

theorem State.busError_statusReg (s : State) (r : BusReq) : WritesOnly statusReg s (s.busError r) := by
  have hReg : ∀ f : Field, statusReg (Adr.BUS_ERR + f.off) := fun f => .inr (by unfold Adr.BUS_ERR; omega)
  unfold State.busError
  have kCount := (s.hubEvent_statusReg 0x07 1).trans ((s.hubEvent 0x07 1).count_statusReg Adr.BUS_ERR Fl.BUS_ERR_COUNT 1 (hReg _))
  exact ite_writesOnly kCount (kCount.trans ((((((State.put_statusReg _ _ _ _ (hReg _)).trans
    (State.putFlag_statusReg _ _ _ _ (hReg _))).trans (State.putFlag_statusReg _ _ _ _ (hReg _))).trans
    (State.put_statusReg _ _ _ _ (hReg _))).trans (State.put_statusReg _ _ _ _ (hReg _)))))

theorem State.dmaFault_statusReg (s : State) (p : Nat) : WritesOnly statusReg s (s.dmaFault p) :=
  ⟨(s.dmaFault_writesOnly p).wf, fun w a ha => (s.dmaFault_writesOnly p).rd w a (by
    rintro rfl
    refine ha (.inl ?_)
    unfold Adr.SESS
    omega)⟩

theorem State.signal_statusReg (s : State) (fn vec : Nat) : WritesOnly statusReg s (s.signal fn vec) := by
  unfold State.signal State.sendMsi
  refine ite_writesOnly .rfl (ite_writesOnly (WritesOnly.trans (WritesOnly.of_regs ?_ ?_) (State.hubEvent_statusReg ..))
    (.of_regs ?_ ?_)) <;> rfl

theorem State.setSess_statusReg (s : State) (p : Nat) (x : Sess) : WritesOnly statusReg s (s.setSess p x) := .of_regs rfl rfl

theorem State.writeStat_statusReg (s : State) (p ring : Nat) : WritesOnly statusReg s (s.writeStat p ring) := by
  unfold State.writeStat
  split
  · exact .rfl
  · have kSess := fun (y : Sess) => (s.hubEvent_statusReg 0x0C 1).trans ((s.hubEvent 0x0C 1).setSess_statusReg p y)
    exact ite_writesOnly .rfl (ite_writesOnly (s.dmaFault_statusReg p) (ite_writesOnly (kSess _)
      (ite_writesOnly (kSess _) ((kSess _).trans (State.signal_statusReg ..)))))

theorem State.sendEth_statusReg (s : State) (p ty count index : Nat) (body : List Byte) :
    WritesOnly statusReg s (s.sendEth p ty count index body) := by
  unfold State.sendEth
  split
  · exact .rfl
  · next x hx =>
    split
    · exact .rfl
    · next e he =>
      have kSent := (s.setSess_statusReg p { x with eth := some { e with txSeq := e.txSeq + 1 } }).trans (State.hubEvent_statusReg _ 0x0D 1)
      refine ite_writesOnly (kSent.trans (WritesOnly.of_regs ?_ ?_)) (kSent.trans (WritesOnly.of_regs ?_ ?_)) <;> rfl

theorem State.writeCpl_statusReg (s : State) (p : Nat) (e : List Byte) : WritesOnly statusReg s (s.writeCpl p e) := by
  unfold State.writeCpl
  split
  · exact .rfl
  · exact ite_writesOnly .rfl (ite_writesOnly (s.setSess_statusReg ..) (ite_writesOnly (s.dmaFault_statusReg p)
      (ite_writesOnly ((s.setSess_statusReg ..).trans (State.sendEth_statusReg ..))
        ((s.setSess_statusReg ..).trans ((State.hubEvent_statusReg ..).trans (State.writeStat_statusReg ..))))))

/-- A completion that no warm reset waits for. -/
theorem State.complete_statusReg (h : s.boot.warmDue = false) (p status : Nat) (result : List Byte) :
    WritesOnly statusReg s (s.complete p status result) := by
  unfold State.complete
  split
  · exact .rfl
  · next x hx =>
    split
    · exact .rfl
    · next k hk =>
      have kHost : HostOnly s ((s.untake p x).writeCpl p
          (completionBytes k.tag status k.op k.index s.ns32 (if status = 0 then result else []))) :=
        (s.setSess_hostOnly ..).trans (State.writeCpl_hostOnly ..)
      have hIdle : ((s.untake p x).writeCpl p
          (completionBytes k.tag status k.op k.index s.ns32 (if status = 0 then result else []))).boot.warmDue = false := by
        rw [State.boot, kHost.ctl]
        exact h
      have hGoes := State.warmGoes_of_idle hIdle
      have kWrites : WritesOnly statusReg s ((s.untake p x).writeCpl p
          (completionBytes k.tag status k.op k.index s.ns32 (if status = 0 then result else []))) :=
        (s.setSess_statusReg ..).trans (State.writeCpl_statusReg ..)
      exact hGoes.symm ▸ kWrites

/-! ## What a frame sent leaves -/

/-- From `s` to `t` frames were sent and events told: the ledger, what Gwynique holds, the transactions sent and the frames taken
stay. -/
structure LinkOnly (s t : State) : Prop where
  led : t.led = s.led
  ctl : t.ctl = s.ctl
  tick : t.tick = s.tick
  sent : t.pair.sent = s.pair.sent
  fseqRx : t.pair.fseqRx = s.pair.fseqRx
  rejoined : t.pair.rejoined = s.pair.rejoined

theorem LinkOnly.rfl : LinkOnly s s := ⟨Eq.refl _, Eq.refl _, Eq.refl _, Eq.refl _, Eq.refl _, Eq.refl _⟩

theorem LinkOnly.trans {u : State} (h : LinkOnly s t) (k : LinkOnly t u) : LinkOnly s u :=
  ⟨k.led.trans h.led, k.ctl.trans h.ctl, k.tick.trans h.tick, k.sent.trans h.sent, k.fseqRx.trans h.fseqRx, k.rejoined.trans h.rejoined⟩

theorem HostOnly.linkOnly (h : HostOnly s t) : LinkOnly s t :=
  ⟨h.led, h.ctl, h.tick, congrArg PairUnit.sent h.pair, congrArg PairUnit.fseqRx h.pair, congrArg PairUnit.rejoined h.pair⟩

theorem foldl_linkOnly {β : Type} {f : State → β → State} (hf : ∀ s x, LinkOnly s (f s x)) (l : List β) (s : State) :
    LinkOnly s (l.foldl f s) := by
  induction l generalizing s with
  | nil => exact .rfl
  | cons x l ih => exact (hf s x).trans (ih (f s x))

theorem State.count_hostOnly (s : State) (b : Nat) (f : Field) (n : Nat) : HostOnly s (s.count b f n) := s.put_hostOnly b f _

theorem State.busError_hostOnly (s : State) (r : BusReq) : HostOnly s (s.busError r) := by
  unfold State.busError
  have kCount := (s.hubEvent_hostOnly 0x07 1).trans ((s.hubEvent 0x07 1).count_hostOnly Adr.BUS_ERR Fl.BUS_ERR_COUNT 1)
  exact ite_hostOnly kCount (kCount.trans (((((State.put_hostOnly ..).trans (State.putFlag_hostOnly ..)).trans
    (State.putFlag_hostOnly ..)).trans (State.put_hostOnly ..)).trans (State.put_hostOnly ..)))

theorem State.setPair_linkOnly {p : PairUnit} (hs : p.sent = s.pair.sent) (hf : p.fseqRx = s.pair.fseqRx)
    (hr : p.rejoined = s.pair.rejoined) : LinkOnly s (s.setPair p) :=
  ⟨Eq.refl _, Eq.refl _, Eq.refl _, hs, hf, hr⟩

theorem State.setPair_statusReg (s : State) (p : PairUnit) : WritesOnly statusReg s (s.setPair p) := .of_regs rfl rfl

theorem State.fetchFrame_linkOnly (s : State) (len : Nat) : LinkOnly s (s.fetchFrame len) := by
  unfold State.fetchFrame State.busIssue
  split
  · exact (s.busError_hostOnly _).linkOnly
  · exact ⟨rfl, rfl, rfl, rfl, rfl, rfl⟩

theorem State.fetchFrame_statusReg (s : State) (len : Nat) : WritesOnly statusReg s (s.fetchFrame len) := by
  unfold State.fetchFrame State.busIssue
  split
  · exact s.busError_statusReg _
  · exact .of_regs rfl rfl

theorem State.fetchFrame_attends (s : State) (len : Nat) : Attends q s (s.fetchFrame len) := by
  have hReg : ∀ f : Field, f.off < 16 → offSessions (Adr.BUS_ERR + f.off) = true := fun f hf => by
    unfold offSessions Adr.BUS_ERR Adr.TIME_CTL
    simp
    omega
  unfold State.fetchFrame State.busIssue
  split
  · unfold State.busError
    have kCount := (s.hubEvent_attends (q := q) 0x07 1).trans
      ((s.hubEvent 0x07 1).count_attends Adr.BUS_ERR Fl.BUS_ERR_COUNT 1 (hReg _ (by decide)))
    exact ite_attends kCount (kCount.trans ((((((State.put_attends _ _ _ _ (hReg _ (by decide))).trans
      (State.putFlag_attends _ _ _ _ (hReg _ (by decide)))).trans (State.putFlag_attends _ _ _ _ (hReg _ (by decide)))).trans
      (State.put_attends _ _ _ _ (hReg _ (by decide)))).trans (State.put_attends _ _ _ _ (hReg _ (by decide))))))
  · exact .of_eq rfl rfl rfl rfl

/-! ## Frames -/

theorem State.sendFrame_linkOnly (s : State) (kind : Nat) (body : List Byte) (clear : Option (List Byte)) :
    LinkOnly s (s.sendFrame kind body clear) := by
  unfold State.sendFrame
  have kRead := fun n => (s.hubEvent_hostOnly 0x0E 1).linkOnly.trans ((s.hubEvent 0x0E 1).fetchFrame_linkOnly n)
  refine (kRead _).trans (State.setPair_linkOnly ?_ ?_ ?_) <;> rfl

theorem State.sendFrame_statusReg (s : State) (kind : Nat) (body : List Byte) (clear : Option (List Byte)) :
    WritesOnly statusReg s (s.sendFrame kind body clear) := by
  unfold State.sendFrame
  have kRead := fun n => (s.hubEvent_statusReg 0x0E 1).trans ((s.hubEvent 0x0E 1).fetchFrame_statusReg n)
  exact (kRead _).trans (State.setPair_statusReg ..)

theorem State.setPair_attends (s : State) (p : PairUnit) : Attends q s (s.setPair p) := .of_eq rfl rfl rfl rfl

theorem State.sendFrame_attends (s : State) (kind : Nat) (body : List Byte) (clear : Option (List Byte)) :
    Attends q s (s.sendFrame kind body clear) := by
  unfold State.sendFrame
  have kRead := fun n => (s.hubEvent_attends (q := q) 0x0E 1).trans ((s.hubEvent 0x0E 1).fetchFrame_attends n)
  exact (kRead _).trans (State.setPair_attends ..)

/-! ## Control frames and transactions -/

theorem State.setCtlOut_linkOnly (s : State) (x : Option (Nat × Nat × List Nat)) : LinkOnly s (s.setPair { s.pair with ctlOut := x }) :=
  State.setPair_linkOnly rfl rfl rfl

theorem State.sendCtl_linkOnly (s : State) (sub tseq : Nat) (ws : List Nat) : LinkOnly s (s.sendCtl sub tseq ws) := by
  unfold State.sendCtl
  exact (s.sendFrame_linkOnly ..).trans (State.setCtlOut_linkOnly ..)

theorem State.sendCtl_statusReg (s : State) (sub tseq : Nat) (ws : List Nat) : WritesOnly statusReg s (s.sendCtl sub tseq ws) := by
  unfold State.sendCtl
  exact (s.sendFrame_statusReg ..).trans (State.setPair_statusReg ..)

theorem State.sendCtl_attends (s : State) (sub tseq : Nat) (ws : List Nat) : Attends q s (s.sendCtl sub tseq ws) := by
  unfold State.sendCtl
  exact (s.sendFrame_attends ..).trans (State.setPair_attends ..)

theorem State.sendVoid_linkOnly (s : State) (tseq : Nat) : LinkOnly s (s.sendVoid tseq) := by
  unfold State.sendVoid
  exact (s.put_hostOnly ..).linkOnly.trans (State.sendCtl_linkOnly ..)

theorem State.sendVoid_attends (s : State) (tseq : Nat) : Attends q s (s.sendVoid tseq) := by
  unfold State.sendVoid
  exact (s.count_attends _ _ _ (by decide)).trans (State.sendCtl_attends ..)

theorem State.sendVoid_ctlOut (s : State) (tseq : Nat) : (s.sendVoid tseq).pair.ctlOut = some (4, tseq, []) := rfl

theorem State.sendVoid_get (w : s.regsWf = true) (tseq : Nat) (f : Field) (hReg : ¬ statusReg (Adr.PAIR_TXN + f.off)) :
    (s.sendVoid tseq).get Adr.PAIR_TXN f = (s.count Adr.PAIR_TXN Fl.PAIR_TXN_VOID 1).get Adr.PAIR_TXN f :=
  (State.sendCtl_statusReg (s.count Adr.PAIR_TXN Fl.PAIR_TXN_VOID 1) 4 tseq []).get (State.put_regsWf _ _ _ w) _ _ hReg

/-- A transaction sent joins those that wait for an answer. -/
theorem State.sendTxn_sent (s : State) (ty : Nat) (data : List Nat) (who q : Nat) :
    LinkOnly { s with pair := { s.pair with sent := s.pair.sent ++ [⟨s.tseq + 1, ty, data, who, q, s.tick⟩] } } (s.sendTxn ty data who q) := by
  set u := (mirrorParts (s.tseq + 1) ty false (encodeNats data)).foldl (fun s b => s.sendFrame 2 b none) (s.setTseq (s.tseq + 1)) with hu
  have kParts : LinkOnly s u :=
    (s.putPair_hostOnly ..).linkOnly.trans (foldl_linkOnly (fun s b => s.sendFrame_linkOnly 2 b none) _ _)
  have hTxn : s.sendTxn ty data who q = u.setPair { u.pair with sent := u.pair.sent ++ [⟨s.tseq + 1, ty, data, who, q, u.tick⟩] } := rfl
  rw [hTxn]
  refine ⟨kParts.led, kParts.ctl, kParts.tick, ?_, kParts.fseqRx, kParts.rejoined⟩
  have hSent : u.pair.sent ++ [(⟨s.tseq + 1, ty, data, who, q, u.tick⟩ : SentTxn)]
      = s.pair.sent ++ [⟨s.tseq + 1, ty, data, who, q, s.tick⟩] := by rw [kParts.sent, kParts.tick]
  exact hSent

end Sys2Proof.Machine
end

section
/-! O49: what an ACK, a NAK and silence do on the active (R231, R298, R299). -/

namespace Sys2Proof.Machine

variable {s : State} {q : Nat} {t : SentTxn}

/-! ## Who waits for an answer -/

theorem State.wr_hostOnly (s : State) (a : Nat) (w : Word) : HostOnly s (s.wr a w) := ⟨rfl⟩

theorem State.dropOpening_hostOnly (s : State) (p : Nat) : HostOnly s (s.dropOpening p) := by
  unfold State.dropOpening
  exact ite_hostOnly ⟨rfl⟩ .rfl

theorem State.ledgerRefused_hostOnly (s : State) : HostOnly s s.ledgerRefused := s.count_hostOnly ..

theorem State.windowDone_hostOnly (s : State) (view status : Nat) (result : List Byte) : HostOnly s (s.windowDone view status result) := by
  unfold State.windowDone
  split
  · exact .rfl
  · have kWords : ∀ (f : Nat → Nat) (g : Nat → Word) (l : List Nat), HostOnly s (l.foldl (fun s k => s.wr (f k) (g k)) s) :=
      fun f g l => foldl_hostOnly (fun s _ => s.wr_hostOnly ..) l s
    have kFlags : ∀ (u : State) (h : HostIf) (b : Nat), HostOnly u
        ((({ u with host := h } : State).putFlag b Fl.OPEN_CTL_BUSY false).putFlag b Fl.OPEN_CTL_DONE true) := fun _ _ _ => ⟨rfl⟩
    exact ((kWords _ _ _).trans (kFlags _ _ _)).trans (ite_hostOnly (State.ledgerRefused_hostOnly _) .rfl)

theorem State.reject_hostOnly (s : State) (h : Hello) (status : Nat) : HostOnly s (s.reject h status) := by
  have kReply : ∀ (u : State) (port : Nat) (d : Sent), HostOnly u (u.reply port d) := fun u port d => by
    unfold State.reply
    exact (u.hubEvent_hostOnly ..).trans (ite_hostOnly ⟨rfl⟩ ⟨rfl⟩)
  unfold State.reject
  exact (ite_hostOnly s.ledgerRefused_hostOnly .rfl).trans (kReply ..)

theorem State.refuse_hostOnly (hDue : s.boot.warmDue = false) (p status : Nat) : HostOnly s (s.refuse p status) := by
  unfold State.refuse
  split
  · have hIdle : s.ledgerRefused.boot.warmDue = false := hDue
    exact s.ledgerRefused_hostOnly.trans (State.complete_hostOnly hIdle ..)
  · exact State.complete_hostOnly hDue ..

/-- Whoever waits but a strike learns of a missing answer by events alone. -/
theorem State.notAcked_hostOnly (hwho : t.who ≠ forStrike) (hDue : s.boot.warmDue = false) : HostOnly s (s.notAcked t) := by
  unfold State.notAcked
  refine ite_hostOnly (ite_hostOnly (State.refuse_hostOnly hDue ..) .rfl)
    (ite_hostOnly ((s.dropOpening_hostOnly _).trans (State.windowDone_hostOnly ..)) (ite_hostOnly ?_ ?_))
  · dsimp only
    split
    · exact (s.dropOpening_hostOnly _).trans (HostOnly.trans ⟨rfl⟩ (State.reject_hostOnly ..))
    · exact s.dropOpening_hostOnly _
  · rw [if_neg hwho]
    exact .rfl

theorem State.notAcked_of_nobody (hwho : t.who = forNobody) : s.notAcked t = s := by
  unfold State.notAcked
  rw [hwho]
  rfl

theorem State.ackingOp_of_taken {y : Sess} {k : Taken} (hy : s.sess? q = some y) (hk : y.taken = some k) (hp : k.phase = .acking) :
    s.ackingOp q = some k.op := by
  unfold State.ackingOp
  rw [hy, Option.bind_some, hk]
  exact if_pos hp

/-- A session whose command waits for the answer has it refused with PAIR_NO_ACK. -/
theorem State.notAcked_of_session {y : Sess} {k : Taken} (hwho : t.who = forSession) (hy : s.sess? t.q = some y) (hk : y.taken = some k)
    (hp : k.phase = .acking) : s.notAcked t = s.complete t.q stNoAck [] := by
  unfold State.notAcked
  rw [if_pos hwho, State.ackingOp_of_taken hy hk hp]
  rfl

/-- What follows the state `s` with its session's needs kept, refused. -/
theorem Attends.noAck {u : State} (h : Attends t.q s u) (w : s.regsWf = true) {y : Sess} {k : Taken} (hwho : t.who = forSession)
    (hy : s.sess? t.q = some y) (hk : y.taken = some k) (hp : k.phase = .acking) : Completed s (u.notAcked t) t.q stNoAck [] := by
  obtain ⟨z, hz, hTaken, -, -⟩ := h.sess y hy
  rw [State.notAcked_of_session hwho hz (hTaken.trans hk) hp]
  exact h.complete w hy hk stNoAck []

/-! ## A transaction without its answer -/

theorem LinkOnly.warmDue {u : State} (h : LinkOnly s u) (hDue : s.boot.warmDue = false) : u.boot.warmDue = false := by
  rw [State.boot, h.ctl]
  exact hDue

theorem LinkOnly.plan {u : State} (h : LinkOnly s u) : u.plan = s.plan := congrArg Ctl.plan h.ctl

/-- The miss counted, and the VOID sent. -/
def State.missed (s : State) (t : SentTxn) : State := (s.count Adr.PAIR_TXN Fl.PAIR_TXN_NO_ACK 1).sendVoid t.tseq

theorem State.missed_linkOnly (s : State) (t : SentTxn) : LinkOnly s (s.missed t) :=
  (s.count_hostOnly ..).linkOnly.trans (State.sendVoid_linkOnly ..)

theorem State.missed_attends (s : State) (t : SentTxn) : Attends q s (s.missed t) :=
  (s.count_attends _ _ _ (by decide)).trans (State.sendVoid_attends ..)

theorem State.ackMissed_eq (s : State) (t : SentTxn) : s.ackMissed t = (s.missed t).notAcked t := rfl

theorem State.ackMissed_linkOnly (hwho : t.who ≠ forStrike) (hDue : s.boot.warmDue = false) : LinkOnly s (s.ackMissed t) :=
  (s.missed_linkOnly t).trans (State.notAcked_hostOnly hwho ((s.missed_linkOnly t).warmDue hDue)).linkOnly

theorem State.ackMissed_ctlOut (hwho : t.who ≠ forStrike) (hDue : s.boot.warmDue = false) :
    (s.ackMissed t).pair.ctlOut = some (4, t.tseq, []) :=
  congrArg PairUnit.ctlOut (State.notAcked_hostOnly hwho ((s.missed_linkOnly t).warmDue hDue)).pair

theorem Attends.ackMissed_completed {u : State} (h : Attends t.q s u) (w : s.regsWf = true) {y : Sess} {k : Taken}
    (hwho : t.who = forSession) (hy : s.sess? t.q = some y) (hk : y.taken = some k) (hp : k.phase = .acking) :
    Completed s (u.ackMissed t) t.q stNoAck [] :=
  (h.trans (u.missed_attends t)).noAck w hwho hy hk hp

/-- The counters of PAIR_TXN that a completion and a frame leave. -/
theorem pairTxn_not_statusReg {k : Nat} (h : k = 8 ∨ k = 12) : ¬ statusReg (Adr.PAIR_TXN + k) := by
  unfold statusReg Adr.PAIR_TXN
  omega

theorem State.ackMissed_noAck (w : s.regsWf = true) {y : Sess} {k : Taken} (hwho : t.who = forSession) (hy : s.sess? t.q = some y)
    (hk : y.taken = some k) (hp : k.phase = .acking) (hDue : s.boot.warmDue = false) :
    (s.ackMissed t).get Adr.PAIR_TXN Fl.PAIR_TXN_NO_ACK = min 0xffff (s.get Adr.PAIR_TXN Fl.PAIR_TXN_NO_ACK + 1) := by
  set v := s.count Adr.PAIR_TXN Fl.PAIR_TXN_NO_ACK 1 with hv
  have kWf : v.regsWf = true := State.put_regsWf _ _ _ w
  have kMissed : (s.missed t).regsWf = true := (s.missed_attends (q := t.q) t).wf w
  obtain ⟨z, hz, hTaken, -, -⟩ := (s.missed_attends t).sess y hy
  have hIdle := (s.missed_linkOnly t).warmDue hDue
  rw [s.ackMissed_eq, State.notAcked_of_session hwho hz (hTaken.trans hk) hp]
  calc ((s.missed t).complete t.q stNoAck []).get Adr.PAIR_TXN Fl.PAIR_TXN_NO_ACK
      = (s.missed t).get Adr.PAIR_TXN Fl.PAIR_TXN_NO_ACK :=
        (State.complete_statusReg hIdle ..).get kMissed _ _ (pairTxn_not_statusReg (.inl rfl))
    _ = (v.count Adr.PAIR_TXN Fl.PAIR_TXN_VOID 1).get Adr.PAIR_TXN Fl.PAIR_TXN_NO_ACK :=
        State.sendVoid_get kWf _ _ (pairTxn_not_statusReg (.inl rfl))
    _ = v.get Adr.PAIR_TXN Fl.PAIR_TXN_NO_ACK := State.get_put_apart kWf _ _ _ _ (by decide)
    _ = min 0xffff (s.get Adr.PAIR_TXN Fl.PAIR_TXN_NO_ACK + 1) := State.get_count_same w _ _ _ (by decide)

/-- Silence: transactions missed one after the other. -/
theorem State.ackMisses_linkOnly (l : List SentTxn) (hwho : ∀ t ∈ l, t.who ≠ forStrike) (hDue : s.boot.warmDue = false) :
    LinkOnly s (l.foldl (fun s t => s.ackMissed t) s) := by
  induction l generalizing s with
  | nil => exact .rfl
  | cons t l ih =>
    have kHead := State.ackMissed_linkOnly (hwho t List.mem_cons_self) hDue
    exact kHead.trans (ih (fun x hx => hwho x (List.mem_cons_of_mem _ hx)) (kHead.warmDue hDue))

/-! ## The frame of an answer -/

theorem State.frameIn_of_takes {kind : Nat} {f : FrameIn} {body : List Byte} (h : s.takesFrame kind f body) (act : State → State) :
    s.frameIn kind f body act = act (s.tookFrame f) := by
  obtain ⟨hHears, hTag, hSeq⟩ := h
  unfold State.frameIn
  rw [hHears, hTag, if_neg Bool.noConfusion, if_neg]
  rintro (hBad | hOld)
  · exact Bool.noConfusion hBad
  · omega

theorem State.frameIn_of_deaf (h : s.hears = false) (kind : Nat) (f : FrameIn) (body : List Byte) (act : State → State) :
    s.frameIn kind f body act = s := if_pos h

/-- The frame taken, and the transaction it answers no longer waiting. -/
def State.answered (s : State) (x : TseqIn) : State :=
  (s.tookFrame x.frame).setPair { (s.tookFrame x.frame).pair with sent := s.pair.sent.filter fun y => y.tseq != x.tseq }

theorem State.answered_attends (s : State) (x : TseqIn) : Attends q s (s.answered x) := .of_eq rfl rfl rfl rfl

theorem State.takeSent_of_none {n : Nat} (h : (s.pair.sent.find? fun y => y.tseq == n) = none) : s.takeSent n = none := by
  unfold State.takeSent
  rw [h]

theorem State.takeSent_of_some {x : TseqIn} (h : (s.pair.sent.find? fun y => y.tseq == x.tseq) = some t) :
    (s.tookFrame x.frame).takeSent x.tseq = some (t, s.answered x) := by
  have hFind : ((s.tookFrame x.frame).pair.sent.find? fun y => y.tseq == x.tseq) = some t := h
  unfold State.takeSent
  rw [hFind]
  rfl

section Answer

variable {x : TseqIn} {a m c : Nat}

theorem ack_of_apart (h : s.takesFrame 4 x.frame (ctlBody 2 x.tseq [a, m])) (ho : s.linkUp = false ∨ s.role ≠ 1) :
    ack x a m s = s.tookFrame x.frame := (State.frameIn_of_takes h _).trans (if_pos ho)

theorem nak_of_apart (h : s.takesFrame 4 x.frame (ctlBody 3 x.tseq [c])) (ho : s.linkUp = false ∨ s.role ≠ 1) :
    nak x c s = s.tookFrame x.frame := (State.frameIn_of_takes h _).trans (if_pos ho)

/-- The active with its link up. -/
theorem active_not_apart (hl : s.linkUp = true) (hr : s.role = 1) (f : FrameIn) :
    ¬ ((s.tookFrame f).linkUp = false ∨ (s.tookFrame f).role ≠ 1) := by
  have hLink : (s.tookFrame f).linkUp = true := hl
  have hRole : (s.tookFrame f).role = 1 := hr
  rw [hLink, hRole]
  decide

theorem ack_of_unknown (h : s.takesFrame 4 x.frame (ctlBody 2 x.tseq [a, m])) (hl : s.linkUp = true) (hr : s.role = 1)
    (hn : (s.pair.sent.find? fun y => y.tseq == x.tseq) = none) : ack x a m s = (s.tookFrame x.frame).sendVoid x.tseq := by
  unfold ack
  rw [State.frameIn_of_takes h, if_neg (active_not_apart hl hr _), State.takeSent_of_none (s := s.tookFrame x.frame) hn]

theorem ack_of_late (h : s.takesFrame 4 x.frame (ctlBody 2 x.tseq [a, m])) (hl : s.linkUp = true) (hr : s.role = 1)
    (ht : (s.pair.sent.find? fun y => y.tseq == x.tseq) = some t) (hlate : t.tick + ackTicks < s.tick) :
    ack x a m s = (s.answered x).ackMissed t := by
  unfold ack
  rw [State.frameIn_of_takes h, if_neg (active_not_apart hl hr _), State.takeSent_of_some ht]
  exact if_pos hlate

theorem ack_of_inTime (h : s.takesFrame 4 x.frame (ctlBody 2 x.tseq [a, m])) (hl : s.linkUp = true) (hr : s.role = 1)
    (ht : (s.pair.sent.find? fun y => y.tseq == x.tseq) = some t) (hin : s.tick ≤ t.tick + ackTicks) :
    ack x a m s = (s.answered x).acked t a m := by
  unfold ack
  rw [State.frameIn_of_takes h, if_neg (active_not_apart hl hr _), State.takeSent_of_some ht]
  exact if_neg (Nat.not_lt.mpr hin)

theorem nak_of_unknown (h : s.takesFrame 4 x.frame (ctlBody 3 x.tseq [c])) (hl : s.linkUp = true) (hr : s.role = 1)
    (hn : (s.pair.sent.find? fun y => y.tseq == x.tseq) = none) : nak x c s = s.tookFrame x.frame := by
  unfold nak
  rw [State.frameIn_of_takes h, if_neg (active_not_apart hl hr _), State.takeSent_of_none (s := s.tookFrame x.frame) hn]

theorem nak_of_sent (h : s.takesFrame 4 x.frame (ctlBody 3 x.tseq [c])) (hl : s.linkUp = true) (hr : s.role = 1)
    (ht : (s.pair.sent.find? fun y => y.tseq == x.tseq) = some t) : nak x c s = (s.answered x).nakked t c := by
  unfold nak
  rw [State.frameIn_of_takes h, if_neg (active_not_apart hl hr _), State.takeSent_of_some ht]

end Answer

/-! ## ACK -/

/-- An ACK that names nothing sent is answered VOID. -/
theorem State.tookFrame_void (w : s.regsWf = true) (x : TseqIn) {u : State} (hu : u = (s.tookFrame x.frame).sendVoid x.tseq) :
    u.pair.ctlOut = some (4, x.tseq, []) ∧ u.pair.sent = s.pair.sent ∧ u.pair.fseqRx = x.frame.fseq + 1
      ∧ u.get Adr.PAIR_TXN Fl.PAIR_TXN_VOID = min 0xffff (s.get Adr.PAIR_TXN Fl.PAIR_TXN_VOID + 1) ∧ u.plan = s.plan := by
  have kVoid := (s.tookFrame x.frame).sendVoid_linkOnly x.tseq
  have kWf : (s.tookFrame x.frame).regsWf = true := w
  have hCount := (State.sendVoid_get kWf x.tseq Fl.PAIR_TXN_VOID (pairTxn_not_statusReg (.inl rfl))).trans
    (State.get_count_same kWf Adr.PAIR_TXN Fl.PAIR_TXN_VOID 1 (by decide))
  rw [hu]
  exact ⟨State.sendVoid_ctlOut .., kVoid.sent, kVoid.fseqRx, hCount, kVoid.plan⟩

theorem State.acked_of_nobody (hwho : t.who = forNobody) (a m : Nat) : s.acked t a m = s := by
  unfold State.acked
  rw [hwho]
  rfl

theorem State.acked_of_strike (hwho : t.who = forStrike) (a m : Nat) : s.acked t a m = s.setPlan { s.plan with
    commits := s.plan.commits.map fun c => if c.seq = t.q then { c with ackBy := none } else c } := by
  unfold State.acked
  rw [hwho]
  rfl

/-- A strike acknowledged waits no longer. -/
theorem mem_released {n : Nat} {cs : List Commit} {c : Commit}
    (h : c ∈ cs.map fun c => if c.seq = n then { c with ackBy := none } else c) (hc : c.seq = n) : c.ackBy = none := by
  obtain ⟨b, -, rfl⟩ := List.mem_map.mp h
  by_cases hb : b.seq = n
  · rw [if_pos hb]
  · rw [if_neg hb] at hc
    exact absurd hc hb

/-- The acknowledged PLAN_ARM of a COMPILED slot with good check bits. -/
theorem State.acked_of_arm {y : Sess} {k : Taken} (hwho : t.who = forSession) (hy : s.sess? t.q = some y) (hk : y.taken = some k)
    (hp : k.phase = .acking) (hop : k.op = 0x0103) (hid : k.p 24 2 ≠ 0xffff) (hslot : (s.slot? (k.p 24 2)).isSome = true)
    (hgood : s.checkBad 0xA5 (k.p 24 2) = false) (a m : Nat) :
    s.acked t a m = ((s.setArmed (some (k.p 24 2))).refreshGo).complete t.q 0 [] := by
  obtain ⟨x, hx⟩ := Option.isSome_iff_exists.mp hslot
  have hArm : ∀ ack : Ack, s.aheadAck t.q armCmd ack t.tseq = ((s.setArmed (some (k.p 24 2))).refreshGo).complete t.q 0 [] := by
    intro ack
    have hOwn : armCmd.own s t.q k (some ack) = 0 := by simp [armCmd, hx]
    have hAct : armCmd.act s t.q k ack = ((s.setArmed (some (k.p 24 2))).refreshGo).complete t.q 0 [] := by
      simp [armCmd, hid, State.slotParity_of_good hgood, hx]
    unfold State.aheadAck
    rw [hy]
    dsimp only
    rw [hk]
    dsimp only
    rw [hOwn, hAct]
    rfl
  unfold State.acked
  dsimp only
  rw [if_pos hwho, State.ackingOp_of_taken hy hk hp, hop]
  exact hArm _

theorem State.armed_setArmed (w : s.regsWf = true) (id : Nat) : (s.setArmed (some id)).armed = some (id % 256) := by
  have kFlag : (s.putFlag Adr.PLAN_STAT Fl.PLAN_STAT_ARMED true).regsWf = true := State.put_regsWf _ _ _ w
  have hArmed : (s.setArmed (some id)).flag Adr.PLAN_STAT Fl.PLAN_STAT_ARMED = true :=
    (State.flag_put_apart kFlag _ _ _ _ (by decide)).trans (State.flag_putFlag_same _ _ _ (by decide) (by decide) w)
  have hId : (s.setArmed (some id)).get Adr.PLAN_STAT Fl.PLAN_STAT_ARMED_ID = id % 256 := State.get_put_same _ _ _ (by decide) kFlag
  unfold State.armed
  rw [hArmed, hId]
  rfl

/-- The two fields of the armed plan. -/
theorem State.armed_congr {u : State} (ha : u.get Adr.PLAN_STAT Fl.PLAN_STAT_ARMED = s.get Adr.PLAN_STAT Fl.PLAN_STAT_ARMED)
    (hi : u.get Adr.PLAN_STAT Fl.PLAN_STAT_ARMED_ID = s.get Adr.PLAN_STAT Fl.PLAN_STAT_ARMED_ID) : u.armed = s.armed := by
  unfold State.armed State.flag
  rw [ha, hi]

theorem State.setArmed_attends (s : State) (id : Option Nat) : Attends q s (s.setArmed id) :=
  (s.putFlag_attends _ _ _ (by decide)).trans (State.put_attends _ _ _ _ (by decide))

theorem State.armDone_spec (w : s.regsWf = true) (hDue : s.boot.warmDue = false) (p id : Nat) :
    (((s.setArmed (some id)).refreshGo).complete p 0 []).armed = some (id % 256)
      ∧ (((s.setArmed (some id)).refreshGo).complete p 0 []).plan = s.plan := by
  have kWf : (s.setArmed (some id)).regsWf = true := (s.setArmed_attends (q := 0) _).wf w
  have kGo : (s.setArmed (some id)).refreshGo.regsWf = true := State.refreshGo_regsWf kWf
  have hBoot : (s.setArmed (some id)).refreshGo.boot = s.boot := State.refreshGo_boot _
  obtain ⟨hPlan, hGet⟩ := State.complete_leaves (q := p) hDue hBoot 0 []
  refine ⟨?_, hPlan.trans (State.refreshGo_plan _)⟩
  rw [State.armed_congr (hGet kGo _ _ (by decide)) (hGet kGo _ _ (by decide)),
    State.armed_congr (State.refreshGo_get_apart kWf _ (by decide) (by decide)) (State.refreshGo_get_apart kWf _ (by decide) (by decide)),
    State.armed_setArmed w]

/-! ## NAK -/

/-- The NAK counted. -/
def State.nakCounted (s : State) : State := s.count Adr.PAIR_TXN Fl.PAIR_TXN_NAK 1

/-- A NAK of another cause than SLOT and SEQUENCE refuses the command, and does no more. -/
theorem State.nakked_of_other {c : Nat} (h2 : c ≠ 2) (h4 : c ≠ 4) : s.nakked t c = s.nakCounted.notAcked t := by
  unfold State.nakked
  dsimp only
  rw [if_neg (fun h => h2 h.1), if_neg h4]
  rfl

theorem State.nakked_slot (harm : t.ty = txArm) (hwho : t.who = forNobody) :
    ∃ d, s.nakked t 2 = s.nakCounted.tellTxn txSlot (t.data.headD 0 :: d) := by
  have hNobody : (s.count Adr.PAIR_TXN Fl.PAIR_TXN_NAK 1).notAcked t = s.nakCounted := State.notAcked_of_nobody hwho
  unfold State.nakked
  rw [hNobody]
  dsimp only
  rw [if_pos ⟨rfl, .inr harm⟩]
  split
  · exact ⟨_, rfl⟩
  · exact ⟨_, rfl⟩

theorem State.nakked_sequence (hwho : t.who = forNobody) : s.nakked t 4 = s.nakCounted.startRejoin := by
  have hNobody : (s.count Adr.PAIR_TXN Fl.PAIR_TXN_NAK 1).notAcked t = s.nakCounted := State.notAcked_of_nobody hwho
  unfold State.nakked
  rw [hNobody]
  dsimp only
  rw [if_neg fun h => absurd h.1 (by decide)]
  exact if_pos rfl

theorem State.nakked_linkOnly {c : Nat} (h2 : c ≠ 2) (h4 : c ≠ 4) (hwho : t.who ≠ forStrike) (hDue : s.boot.warmDue = false) :
    LinkOnly s (s.nakked t c) := by
  have kCount : HostOnly s s.nakCounted := s.count_hostOnly ..
  rw [State.nakked_of_other h2 h4]
  exact (kCount.trans (State.notAcked_hostOnly hwho hDue)).linkOnly

theorem State.nakCounted_attends (s : State) : Attends q s s.nakCounted := s.count_attends _ _ _ (by decide)

theorem Attends.nakked_completed {u : State} (h : Attends t.q s u) (w : s.regsWf = true) {y : Sess} {k : Taken} {c : Nat} (h2 : c ≠ 2)
    (h4 : c ≠ 4) (hwho : t.who = forSession) (hy : s.sess? t.q = some y) (hk : y.taken = some k) (hp : k.phase = .acking) :
    Completed s (u.nakked t c) t.q stNoAck [] := by
  rw [State.nakked_of_other h2 h4]
  exact (h.trans u.nakCounted_attends).noAck w hwho hy hk hp

theorem State.nakked_count (w : s.regsWf = true) {y : Sess} {k : Taken} {c : Nat} (h2 : c ≠ 2) (h4 : c ≠ 4) (hwho : t.who = forSession)
    (hy : s.sess? t.q = some y) (hk : y.taken = some k) (hp : k.phase = .acking) (hDue : s.boot.warmDue = false) :
    (s.nakked t c).get Adr.PAIR_TXN Fl.PAIR_TXN_NAK = min 0xffff (s.get Adr.PAIR_TXN Fl.PAIR_TXN_NAK + 1) := by
  have kAttends : Attends t.q s s.nakCounted := s.nakCounted_attends
  have hIdle : s.nakCounted.boot.warmDue = false := hDue
  obtain ⟨z, hz, hTaken, -, -⟩ := kAttends.sess y hy
  rw [State.nakked_of_other h2 h4, State.notAcked_of_session hwho hz (hTaken.trans hk) hp]
  exact ((State.complete_statusReg hIdle ..).get (kAttends.wf w) _ _ (pairTxn_not_statusReg (.inr rfl))).trans
    (State.get_count_same w _ _ _ (by decide))

/-- Behind a NAK the active with its link up is that still. -/
theorem State.nakCounted_mirrors (w : s.regsWf = true) (hl : s.linkUp = true) (hr : s.role = 1) (hs : s.solo = false) :
    (s.nakCounted.pairMode && s.nakCounted.linkUp) = true := by
  have hStat : ∀ f : Field, f.off = 0 → s.nakCounted.get Adr.PAIR_STAT f = s.get Adr.PAIR_STAT f := fun f hf =>
    State.get_put_word _ _ _ _ _ (by rw [hf]; decide) w
  have hRole : s.nakCounted.role = 1 := (hStat _ rfl).trans hr
  have hSolo : s.nakCounted.solo = false := (congrArg (· != 0) (hStat _ rfl)).trans hs
  have hLink : s.nakCounted.linkUp = true := (congrArg (· != 0) (hStat _ rfl)).trans hl
  unfold State.pairMode
  rw [hRole, hSolo, hLink]
  rfl

theorem State.tellTxn_sent (h : (s.pairMode && s.linkUp) = true) (ty : Nat) (d : List Nat) :
    (s.tellTxn ty d).pair.sent = s.pair.sent ++ [⟨s.tseq + 1, ty, d, forNobody, 0, s.tick⟩] := by
  unfold State.tellTxn
  rw [if_pos h]
  exact (s.sendTxn_sent ..).sent

/-! ## The rejoin -/

/-- The parts of a RESYNC sequence sent one after the other, with the plan and the mark of a rejoin as they were. -/
theorem State.sendResync_spec (l : List (List Nat)) (s : State) :
    (l.foldl (fun s d => s.sendTxn txResync d forNobody 0) s).plan = s.plan
      ∧ (l.foldl (fun s d => s.sendTxn txResync d forNobody 0) s).pair.rejoined = s.pair.rejoined
      ∧ (l ≠ [] ∨ (∃ y ∈ s.pair.sent, y.ty = txResync) →
        ∃ y ∈ (l.foldl (fun s d => s.sendTxn txResync d forNobody 0) s).pair.sent, y.ty = txResync) := by
  induction l generalizing s with
  | nil => exact ⟨rfl, rfl, fun h => h.resolve_left fun hne => hne rfl⟩
  | cons d l ih =>
    have kSent := s.sendTxn_sent txResync d forNobody 0
    obtain ⟨hPlan, hRejoined, hMem⟩ := ih (s.sendTxn txResync d forNobody 0)
    refine ⟨hPlan.trans kSent.plan, hRejoined.trans kSent.rejoined, fun _ => hMem (.inr ?_)⟩
    rw [kSent.sent]
    exact ⟨_, List.mem_append_right _ List.mem_cons_self, rfl⟩

theorem State.logPair_keeps (s : State) (p role kind : Nat) :
    (s.logPair p role kind).plan = s.plan ∧ (s.logPair p role kind).pair = s.pair := by
  unfold State.logPair
  split
  · have kLog := s.log_ledgerOnly 0x0052 p role (layout 52 [(0, le 1 kind), (8, s.partnerDigest)])
    exact ⟨kLog.plan, kLog.pair⟩
  · exact ⟨congrArg Ctl.plan s.ledgerRefused_hostOnly.ctl, s.ledgerRefused_hostOnly.pair⟩

theorem State.resyncParts_ne_nil (s : State) (sec ns : Nat) : s.resyncParts sec ns ≠ [] := by
  unfold State.resyncParts
  exact List.cons_ne_nil _ _

/-- The state as a rejoin begins: a number drawn, and the rejoin marked. -/
def State.rejoining (s : State) : State := s.draw.2.setPair { s.draw.2.pair with rejoined := true }

theorem State.startRejoin_eq (s : State) : ∃ l, l ≠ [] ∧
    s.startRejoin = (l.foldl (fun s d => s.sendTxn txResync d forNobody 0) s.rejoining).logPair 0xffff 0 4 :=
  ⟨_, State.resyncParts_ne_nil s.rejoining _ _, rfl⟩

theorem State.startRejoin_spec (s : State) :
    s.startRejoin.pair.rejoined = true ∧ s.startRejoin.plan = s.plan ∧ ∃ y ∈ s.startRejoin.pair.sent, y.ty = txResync := by
  obtain ⟨l, hl, hEq⟩ := s.startRejoin_eq
  obtain ⟨hPlan, hRejoined, hMem⟩ := State.sendResync_spec l s.rejoining
  obtain ⟨kPlan, kPair⟩ := (l.foldl (fun s d => s.sendTxn txResync d forNobody 0) s.rejoining).logPair_keeps 0xffff 0 4
  rw [hEq, kPair, kPlan]
  exact ⟨hRejoined, hPlan, hMem (.inl hl)⟩

/-! ## Silence -/

/-- What a transaction waits for in vain. -/
def State.overdue (s : State) (t : SentTxn) : Bool := t.who != forStrike && decide (t.tick + ackTicks < s.tick)

/-- The state with the overdue transactions no longer waiting. -/
def State.unwaited (s : State) : State := s.setPair { s.pair with sent := s.pair.sent.filter fun t => !s.overdue t }

theorem pairNoAck_of_on (hp : s.pairOn = true) (hg : s.gwqRuns = true) :
    pairNoAck s = (s.pair.sent.filter s.overdue).foldl (fun s t => s.ackMissed t) s.unwaited := by
  unfold pairNoAck
  rw [hp, hg]
  rfl

theorem pairNoAck_of_off (h : s.pairOn = false ∨ s.gwqRuns = false) : pairNoAck s = s := if_pos h

theorem State.overdue_not_strike (h : s.overdue t = true) : t.who ≠ forStrike := by
  unfold State.overdue at h
  rw [Bool.and_eq_true] at h
  exact bne_iff_ne.mp h.1

theorem pairNoAck_linkOnly (hp : s.pairOn = true) (hg : s.gwqRuns = true) (hDue : s.boot.warmDue = false) :
    LinkOnly s.unwaited (pairNoAck s) := by
  rw [pairNoAck_of_on hp hg]
  exact State.ackMisses_linkOnly _ (fun t ht => State.overdue_not_strike (List.of_mem_filter ht)) hDue

theorem pairNoAck_of_one (hp : s.pairOn = true) (hg : s.gwqRuns = true) (hs : s.pair.sent = [t]) (ht : s.overdue t = true) :
    pairNoAck s = s.unwaited.ackMissed t := by
  rw [pairNoAck_of_on hp hg, hs, List.filter_cons_of_pos ht]
  rfl

/-- Settles O49, answer by answer: an ACK unknown, in time or late, a NAK by its cause, and silence. -/
theorem activeTakesAnswers : Obligations.ActiveTakesAnswers := by
  intro s w
  refine ⟨fun x a m h hl hr => ⟨fun hn => ?_, fun t ht hin => ⟨fun hwho => ?_, fun hwho => ?_,
      fun y k hwho hy hk hp hop hid hslot hgood hDue => ?_⟩, fun t y k ht hlate hwho hy hk hp hDue => ?_⟩,
    fun x a m h ho => congrArg Host.Outcome.next (ack_of_apart h ho), fun x c h ho => congrArg Host.Outcome.next (nak_of_apart h ho),
    fun h x a m c => ⟨congrArg Host.Outcome.next (State.frameIn_of_deaf h ..), congrArg Host.Outcome.next (State.frameIn_of_deaf h ..)⟩,
    fun x c h hl hr => ⟨fun hn => congrArg Host.Outcome.next (nak_of_unknown h hl hr hn),
      fun t y k ht hwho hy hk hp h2 h4 hDue => ?_, fun t ht harm hwho hs hc => ?_, fun t ht hwho hc => ?_⟩,
    fun hp hg hDue => ⟨?_, fun t y k hs hwho hlate hy hk hphase => ?_⟩, fun h => congrArg Host.Outcome.next (pairNoAck_of_off h)⟩
  · exact ⟨ack x a m s, rfl, State.tookFrame_void w x (ack_of_unknown h hl hr hn)⟩
  · refine ⟨s.answered x, ?_, rfl, rfl, rfl⟩
    exact congrArg Host.Outcome.next ((ack_of_inTime h hl hr ht hin).trans (State.acked_of_nobody hwho a m))
  · refine ⟨_, congrArg Host.Outcome.next ((ack_of_inTime h hl hr ht hin).trans (State.acked_of_strike hwho a m)), rfl,
      fun c hc hseq => mem_released hc hseq, List.length_map ..⟩
  · have kAll := ((s.answered_attends (q := t.q) x).trans (State.setArmed_attends _ (some (k.p 24 2)))).trans (State.refreshGo_attends _)
    obtain ⟨hArmed, hPlan⟩ := State.armDone_spec (s := s.answered x) w hDue t.q (k.p 24 2)
    refine ⟨_, congrArg Host.Outcome.next ((ack_of_inTime h hl hr ht hin).trans
      (State.acked_of_arm (s := s.answered x) hwho hy hk hp hop hid hslot hgood a m)), hArmed, kAll.complete w hy hk 0 [], hPlan⟩
  · have hNotStrike : t.who ≠ forStrike := by rw [hwho]; decide
    have kLink := State.ackMissed_linkOnly (s := s.answered x) hNotStrike hDue
    exact ⟨_, congrArg Host.Outcome.next (ack_of_late h hl hr ht hlate),
      (s.answered_attends x).ackMissed_completed w hwho hy hk hp, State.ackMissed_ctlOut hNotStrike hDue, kLink.sent, kLink.plan,
      kLink.led, State.ackMissed_noAck (s := s.answered x) w hwho hy hk hp hDue⟩
  · have hNotStrike : t.who ≠ forStrike := by rw [hwho]; decide
    have kLink := State.nakked_linkOnly (s := s.answered x) h2 h4 hNotStrike hDue
    exact ⟨_, congrArg Host.Outcome.next (nak_of_sent h hl hr ht), (s.answered_attends x).nakked_completed w h2 h4 hwho hy hk hp, kLink.sent,
      State.nakked_count (s := s.answered x) w h2 h4 hwho hy hk hp hDue, kLink.plan, kLink.led⟩
  · subst hc
    obtain ⟨d, hTold⟩ := State.nakked_slot (s := s.answered x) harm hwho
    have hSent := State.tellTxn_sent (State.nakCounted_mirrors (s := s.answered x) w hl hr hs) txSlot (t.data.headD 0 :: d)
    exact ⟨_, _, congrArg Host.Outcome.next ((nak_of_sent h hl hr ht).trans hTold), hSent, rfl, rfl, rfl⟩
  · subst hc
    obtain ⟨hRejoined, hPlan, hMem⟩ := (s.answered x).nakCounted.startRejoin_spec
    exact ⟨_, congrArg Host.Outcome.next ((nak_of_sent h hl hr ht).trans (State.nakked_sequence hwho)), hRejoined, hPlan, hMem⟩
  · have kLink := pairNoAck_linkOnly hp hg hDue
    exact ⟨pairNoAck s, rfl, kLink.sent, kLink.plan⟩
  · have hNotStrike : t.who ≠ forStrike := by rw [hwho]; decide
    have hOverdue : s.overdue t = true := by
      unfold State.overdue
      rw [bne_iff_ne.mpr hNotStrike, decide_eq_true hlate]
      rfl
    have hOne := pairNoAck_of_one hp hg hs hOverdue
    exact ⟨_, congrArg Host.Outcome.next hOne, (s.setPair_attends _).ackMissed_completed w hwho hy hk hphase,
      State.ackMissed_ctlOut hNotStrike hDue, (State.ackMissed_linkOnly (s := s.unwaited) hNotStrike hDue).led⟩

end Sys2Proof.Machine
end

section
/-! SUPPORT. A routine of a free comb engine: what it leaves of the other combs, and what it does short of its COMMIT (R137, R138). -/

namespace Sys2Proof.Machine

variable {s t : State} {c d vec l n : Nat}

theorem State.comb_congr (h : t.ctl.combs = s.ctl.combs) (c : Nat) : t.comb c = s.comb c := by
  unfold State.comb
  rw [h]

theorem State.settleRun_comb_other {m : Engine} {r : Run} (hm : m.check = none) (hr : r.cut = false) (h : s.ctl.tablesWf = true)
    (hd : d ≠ c) : (s.settleRun c r m).comb d = s.comb d := by
  unfold State.settleRun
  simp only [hm, hr, Bool.false_and, Bool.false_eq_true, if_false]
  split
  · exact State.comb_onComb_other h _ _ _ hd
  · exact State.comb_onComb_other h _ _ _ hd

/-- Of the other combs a routine that reaches its COMMIT changes what its work changes. -/
theorem State.routine_comb_other (h : s.starts c vec l n) (work : IterIn → State → State)
    (hw : (work (s.iterIn (64 * c + l)) s).ctl.tablesWf = true) (hd : d ≠ c) :
    (s.routine c vec l n work).comb d = (work (s.iterIn (64 * c + l)) s).comb d := by
  rw [State.routine_of_starts h]
  obtain ⟨free, -, -, -, -, check, -⟩ := h
  have cut : (s.runAt c vec l).cut = false := by rw [State.runAt_of_free free]
  rw [State.settleRun_comb_other ((Engine.handedOver_check _).trans check) cut ((State.countSteps_kept .rfl ..).tables hw) hd]
  exact State.comb_congr (State.countSteps_combs ..) d

/-- Short of its COMMIT a routine does none of its work: its steps count, and it stays in progress. -/
theorem State.routine_of_onTheWay (h : s.onTheWay c vec l n) (work : IterIn → State → State) :
    ∃ r, s.routine c vec l n work
      = (s.countSteps c (s.toCommit c vec l n)).onComb c fun x => { x with run := some r } := by
  obtain ⟨free, -, hit, check, done⟩ := h
  have start := State.runAt_of_free free vec l
  have cut : (s.runAt c vec l).cut = false := by rw [start]
  have fresh : (s.runAt c vec l).eng.steps = 0 := by rw [start]
  have reached : Engine.run (s.menv c (s.runAt c vec l)) (Engine.pauses (s.runAt c vec l).cut) (n - (s.runAt c vec l).eng.steps)
      (s.runAt c vec l).eng = s.toCommit c vec l n := by
    rw [cut, fresh]
    rfl
  have turn : State.turns c (s.runAt c vec l) n work (n + 1) s (s.runAt c vec l).eng = (s, s.toCommit c vec l n) := by
    rw [State.turns]
    simp only [reached, hit, Bool.false_eq_true, if_false]
  unfold State.routine State.turn
  simp only [turn]
  unfold State.settleRun
  simp only [check, done, cut, Bool.false_and, Bool.false_eq_true, if_false]
  exact ⟨_, rfl⟩

theorem State.routine_sameLanes_of_onTheWay (h : s.onTheWay c vec l n) (work : IterIn → State → State) :
    SameLanes s (s.routine c vec l n work) := by
  obtain ⟨r, hr⟩ := State.routine_of_onTheWay h work
  rw [hr]
  exact (State.countSteps_sameLanes ..).trans (State.onComb_sameLanes ..)

/-- Its comb stays as it was but for the routine in progress. -/
theorem State.routine_comb_of_onTheWay (h : s.onTheWay c vec l n) (work : IterIn → State → State) (hw : s.ctl.tablesWf = true) :
    ∃ r, (s.routine c vec l n work).comb c = { s.comb c with run := some r } := by
  obtain ⟨r, hr⟩ := State.routine_of_onTheWay h work
  rw [hr, State.comb_onComb_same ((State.countSteps_kept .rfl ..).tables hw), State.comb_congr (State.countSteps_combs ..)]
  exact ⟨r, rfl⟩

end Sys2Proof.Machine
end

section
/-! SUPPORT. PROLOGUE, CMD and CAL_ACC of a free engine (R91, R137, R138). -/

namespace Sys2Proof.Machine

variable {s : State} {c l n : Nat}

/-! ## PROLOGUE and CMD -/

/-- The work of PROLOGUE: the owed prologue is cleared, and the comb words it wrote have good check bits. -/
def State.prologueWork (s : State) (c : Nat) : State :=
  (s.onComb c fun x => { x with prologue := false }).paramWrite c false [Adr.LOOP_STAT c, Adr.LOOP_OVR c]

/-- PROLOGUE runs where one is owed and the engine is free for it. -/
theorem exec_prologue_of_free (hc : c < numCombs s.variant) (howed : (s.comb c).prologue = true) (hfree : (s.comb c).run = none)
    (hmay : s.mayRun c 1 = true) (hgood : s.flt.badWords = []) :
    exec (.prologue ⟨c, n⟩) s = .next (s.routine c 1 0 n fun _ s => s.prologueWork c) := by
  refine congrArg Host.Outcome.next ?_
  unfold prologue
  rw [State.afterIdle_of_free hfree]
  simp only [hc, hmay, State.going_of_free hfree, howed, State.badRead_of_goodWords hgood]
  rfl

theorem State.paramWrite_combs (s : State) (c : Nat) (host : Bool) (ws : List Nat) :
    (s.paramWrite c host ws).ctl.combs = s.ctl.combs := by
  unfold State.paramWrite
  cases ws with
  | nil => simp only [ite_self]
  | cons a ws => simp only [apply_ite State.ctl, apply_ite Ctl.combs, State.setFlt_ctl_combs, ite_self]

theorem State.prologueWork_sameLanes (s : State) (c : Nat) : SameLanes s (s.prologueWork c) :=
  (s.onComb_sameLanes ..).trans (State.paramWrite_sameLanes ..)

theorem State.prologueWork_comb (h : s.ctl.tablesWf = true) (d : Nat) :
    (s.prologueWork c).comb d = if d = c then { s.comb c with prologue := false } else s.comb d := by
  refine (State.comb_congr (State.paramWrite_combs ..) d).trans ?_
  split
  · next hd =>
    rw [hd]
    exact State.comb_onComb_same h ..
  · next hd => exact State.comb_onComb_other h _ _ _ hd

theorem State.prologueWork_tablesWf (h : s.ctl.tablesWf = true) (c : Nat) : (s.prologueWork c).ctl.tablesWf = true :=
  (State.paramWrite_kept (State.onComb_kept .rfl ..) ..).tables h

/-- The work of CMD: the commanded item is taken. -/
def State.cmdWork (s : State) (c : Nat) : State := s.onComb c fun x => { x with cmd := false }

/-- CMD runs where an item waits, no prologue is owed and the engine is free for it. -/
theorem exec_cmdRoutine_of_free (hc : c < numCombs s.variant) (hnone : (s.comb c).prologue = false) (hcmd : (s.comb c).cmd = true)
    (hfree : (s.comb c).run = none) (hmay : s.mayRun c 2 = true) (hgood : s.flt.badWords = []) :
    exec (.cmdRoutine ⟨c, n⟩) s = .next (s.routine c 2 0 n fun _ s => s.cmdWork c) := by
  refine congrArg Host.Outcome.next ?_
  unfold cmdRoutine State.owesPrologue
  rw [State.afterIdle_of_free hfree]
  simp only [hc, hmay, State.going_of_free hfree, hnone, hcmd, State.badRead_of_goodWords hgood]
  rfl

/-! ## CAL_ACC -/

/-- CAL_ACC runs for the lanes that have not accumulated. -/
theorem exec_calAcc_of_starts (hserving : s.serving c = true) (hwaits : s.accWaits c ≠ [])
    (hstarts : s.starts c 3 ((s.accWaits c).headD 0) n) (hgood : s.flt.badWords = []) :
    exec (.calAcc ⟨c, n⟩) s
      = .next (s.routine c 3 ((s.accWaits c).headD 0) n fun _ s => s.accCommit c (s.accWaits c)) := by
  obtain ⟨free, may, -⟩ := hstarts
  refine congrArg Host.Outcome.next ?_
  unfold calAcc
  rw [State.afterIdle_of_free free]
  simp [State.going_of_free free, may, hserving, hwaits, State.badRead_of_goodWords hgood]

/-- Lanes `ls` of comb `c` changed one after the other. -/
def State.onLanes (s : State) (c : Nat) (ls : List Nat) (f : Nat → Lane → Lane) : State :=
  ls.foldl (fun s l => s.onLane (64 * c + l) (f (64 * c + l))) s

theorem State.onLanes_tablesWf (h : s.ctl.tablesWf = true) (c : Nat) (ls : List Nat) (f : Nat → Lane → Lane) :
    (s.onLanes c ls f).ctl.tablesWf = true :=
  (foldl_kept (s := s) .rfl fun _ _ k => State.onLane_kept k ..).tables h

/-- What leaves the mark of a lane that has accumulated leaves those marks. -/
theorem State.accDone_onLanes {f : Nat → Lane → Lane} (hf : ∀ e x, x.accDone = true → (f e x).accDone = true)
    (h : s.ctl.tablesWf = true) (ls : List Nat) {e : Nat} (he : (s.lane e).accDone = true) :
    ((s.onLanes c ls f).lane e).accDone = true := by
  unfold State.onLanes
  induction ls generalizing s with
  | nil => exact he
  | cons l ls ih =>
    refine ih ((State.onLane_kept .rfl ..).tables h) ?_
    by_cases hl : e = 64 * c + l
    · rw [hl, State.lane_onLane_same h]
      exact hf _ _ (hl ▸ he)
    · rw [State.lane_onLane_other h _ _ _ hl]
      exact he

/-- Every lane of the list has accumulated in this period. -/
structure Accumulated (c : Nat) (ls : List Nat) (s : State) : Prop where
  tables : s.ctl.tablesWf = true
  done : ∀ l ∈ ls, (s.lane (64 * c + l)).accDone = true

theorem Accumulated.of_marks {f : Nat → Lane → Lane} (hf : ∀ e x, (f e x).accDone = true) (h : s.ctl.tablesWf = true)
    (ls : List Nat) : Accumulated c ls (s.onLanes c ls f) := by
  refine ⟨State.onLanes_tablesWf h c ls f, ?_⟩
  induction ls generalizing s with
  | nil => exact fun _ hl => absurd hl List.not_mem_nil
  | cons l ls ih =>
    have hStep := (State.onLane_kept (Kept.rfl (s := s)) (64 * c + l) (f (64 * c + l))).tables h
    refine List.forall_mem_cons.mpr ⟨State.accDone_onLanes (fun e x _ => hf e x) hStep ls ?_, ih hStep⟩
    rw [State.lane_onLane_same h]
    exact hf ..

theorem Accumulated.onLanes {ls : List Nat} {f : Nat → Lane → Lane} (h : Accumulated c ls s)
    (hf : ∀ e x, x.accDone = true → (f e x).accDone = true) (ks : List Nat) : Accumulated c ls (s.onLanes c ks f) :=
  ⟨State.onLanes_tablesWf h.tables c ks f, fun l hl => State.accDone_onLanes hf h.tables ks (h.done l hl)⟩

theorem Accumulated.of_sameLanes {ls : List Nat} {t : State} (h : Accumulated c ls s) (k : SameLanes s t)
    (w : t.ctl.tablesWf = true) : Accumulated c ls t :=
  ⟨w, fun l hl => (congrArg Lane.accDone (State.lane_congr k.lanes _)).trans (h.done l hl)⟩

theorem Accumulated.of_ctl {ls : List Nat} {t : State} (h : Accumulated c ls s) (k : t.ctl = s.ctl) : Accumulated c ls t :=
  h.of_sameLanes (.of_ctl k) (by rw [k]; exact h.tables)

theorem Accumulated.onComb {ls : List Nat} (h : Accumulated c ls s) (d : Nat) (f : Comb → Comb) : Accumulated c ls (s.onComb d f) :=
  h.of_sameLanes (s.onComb_sameLanes d f) ((State.onComb_kept .rfl ..).tables h.tables)

theorem Accumulated.paramWrites {ls : List Nat} (h : Accumulated c ls s) (ks : List Nat) (w : Nat → List Nat) :
    Accumulated c ls (ks.foldl (fun s l => s.paramWrite c false (w l)) s) :=
  h.of_sameLanes (foldl_sameLanes (fun s l => s.paramWrite_sameLanes c false (w l)) ks s)
    ((foldl_kept (s := s) .rfl fun _ _ k => State.paramWrite_kept k ..).tables h.tables)

theorem ite_accumulated {p : Prop} [Decidable p] {ls : List Nat} {a b : State} (ha : Accumulated c ls a) (hb : Accumulated c ls b) :
    Accumulated c ls (if p then a else b) := by
  split
  · exact ha
  · exact hb

theorem State.accDone_accumulate (s : State) (e kind k : Nat) (settling blank : Bool) (x : Lane) :
    (s.accumulate e kind k settling blank x).accDone = true := by
  unfold State.accumulate
  split <;> rfl

theorem Lane.accDone_closePoint {x : Lane} (h : x.accDone = true) (blank : Bool) (avg : Nat) : (x.closePoint blank avg).accDone = true := by
  unfold Lane.closePoint
  split <;> exact h

/-- The COMMIT of an accumulation marks every lane it takes, whatever becomes of the point (R91, R92). -/
theorem State.accCommit_accumulated (h : s.ctl.tablesWf = true) (c : Nat) (ls : List Nat) : Accumulated c ls (s.accCommit c ls) := by
  unfold State.accCommit
  extract_lets x kind k past blank settling usable on u v w closed
  have hu : Accumulated c ls u := ite_accumulated
    (.of_marks (f := fun _ y => { y with accDone := true }) (fun _ _ => rfl) h ls)
    (.of_marks (f := fun e => s.accumulate e kind k settling blank) (fun _ _ => s.accDone_accumulate ..) h ls)
  have hw : Accumulated c ls w :=
    (hu.paramWrites ls fun l => [laneAdr (64 * c + l) (if settling then 0 else 8)]).of_ctl rfl
  have closes : ∀ zero, Accumulated c ls (on w fun _ y => y.closePoint zero x.avgOf) := fun zero =>
    hw.onLanes (f := fun _ y => y.closePoint zero x.avgOf) (fun _ _ hy => Lane.accDone_closePoint hy ..) ls
  have drops : Accumulated c ls (on w fun _ y => { y with acc := [] }) :=
    hw.onLanes (f := fun _ y => { y with acc := [] }) (fun _ _ hy => hy) ls
  have counts : Accumulated c ls closed := (closes false).onComb ..
  exact ite_accumulated hw (ite_accumulated (hw.onComb ..) (ite_accumulated (drops.onComb ..)
    (ite_accumulated (ite_accumulated ((closes true).onComb ..) (hw.onComb ..))
      (ite_accumulated (counts.of_ctl rfl) (hw.onComb ..)))))

/-- And so does CAL_ACC, with the lanes that wait as its COMMIT is reached. -/
theorem State.calAcc_accumulated (h : s.ctl.tablesWf = true) (hstarts : s.starts c 3 l n) {k : Nat} (hk : k ∈ s.accWaits c) :
    ((s.routine c 3 l n fun _ s => s.accCommit c (s.accWaits c)).lane (64 * c + k)).accDone = true := by
  rw [State.lane_congr (State.routine_sameLanes hstarts fun _ s => s.accCommit c (s.accWaits c)).lanes]
  exact (State.accCommit_accumulated h c (s.accWaits c)).done k hk

end Sys2Proof.Machine
end

section
/-! SUPPORT. The words MC_VERSION and MC_STAT of a comb (R146): events, faults, holds and completions leave them. -/

namespace Sys2Proof.Machine

variable {s t : State} {c : Nat}

/-- The words MC_VERSION and MC_STAT of the combs. -/
def mcWord (a : Nat) : Prop := 0x400000 ≤ a ∧ (a % 0x4000 = 0x180 ∨ a % 0x4000 = 0x184)

theorem mcWord_version (c : Nat) : mcWord (Adr.MC_VERSION c) := by
  unfold mcWord Adr.MC_VERSION
  omega

theorem mcWord_stat (c : Nat) : mcWord (Adr.MC_STAT c + Fl.MC_STAT_STATE.off) := by
  simp only [mcWord, Adr.MC_STAT, Fl.MC_STAT_STATE]
  omega

/-- From `s` to `t` every word MC_VERSION and MC_STAT stays that does not read as the STATE of an OPEN session. No hypothesis on a
state bounds the numbers of its sessions, so such a word may be that of a session, and a write of an OPEN session that fails
changes it (R220). -/
structure McKept (s t : State) : Prop where
  wf : s.regsWf = true → t.regsWf = true
  rd : s.regsWf = true → ∀ a, mcWord a → getBits (s.rd a) 0 3 ≠ 2 → t.rd a = s.rd a

theorem McKept.rfl : McKept s s := ⟨id, fun _ _ _ _ => Eq.refl _⟩

theorem McKept.trans {s₀ : State} (h : McKept s₀ s) (k : McKept s t) : McKept s₀ t :=
  ⟨k.wf ∘ h.wf, fun w a ha hb => (k.rd (h.wf w) a ha (by rwa [h.rd w a ha hb])).trans (h.rd w a ha hb)⟩

theorem ite_mcKept {p : Prop} [Decidable p] {a b : State} (ha : McKept s a) (hb : McKept s b) : McKept s (if p then a else b) := by
  split
  · exact ha
  · exact hb

theorem foldl_mcKept {β : Type} {f : State → β → State} {l : List β} (hf : ∀ s, ∀ x ∈ l, McKept s (f s x)) (s : State) :
    McKept s (l.foldl f s) :=
  List.foldlRecOn l f McKept.rfl fun _ h x hx => h.trans (hf _ x hx)

theorem McKept.of_writes {w : Nat → Prop} (h : WritesOnly w s t) (hw : ∀ a, mcWord a → ¬ w a) : McKept s t :=
  ⟨h.wf, fun k a ha _ => h.rd k a (hw a ha)⟩

theorem McKept.of_regs (hr : t.regs = s.regs) (hv : t.variant = s.variant) : McKept s t :=
  .of_writes (w := fun _ => False) (.of_regs hr hv) fun _ _ => id

theorem McKept.after {s₀ : State} (k : McKept s t) (hr : s.regs = s₀.regs) (hv : s.variant = s₀.variant) : McKept s₀ t :=
  McKept.trans (.of_regs hr hv) k

/-! ## Registers below those of the combs -/

theorem State.put_mcKept (s : State) (b : Nat) (f : Field) (n : Nat) (h : b + f.off < 0x400000) : McKept s (s.put b f n) :=
  ⟨State.put_regsWf _ _ _, fun w a ⟨hLow, _⟩ _ => State.rd_put_word _ _ _ _ (by omega) w⟩

theorem State.putFlag_mcKept (s : State) (b : Nat) (f : Field) (x : Bool) (h : b + f.off < 0x400000) : McKept s (s.putFlag b f x) :=
  s.put_mcKept b f _ h

theorem State.count_mcKept (s : State) (b : Nat) (f : Field) (n : Nat) (h : b + f.off < 0x400000) : McKept s (s.count b f n) :=
  s.put_mcKept b f _ h

theorem State.setFlt_mcKept (s : State) (x : FltUnit) : McKept s (s.setFlt x) := .of_regs rfl rfl
theorem State.setSess_mcKept (s : State) (q : Nat) (x : Sess) : McKept s (s.setSess q x) := .of_regs rfl rfl
theorem State.setOut_mcKept (s : State) (o : Nat) (x : Out) : McKept s (s.setOut o x) := .of_regs rfl rfl
theorem State.setBoot_mcKept (s : State) (x : BootUnit) : McKept s (s.setBoot x) := .of_regs rfl rfl
theorem State.notice_mcKept (s : State) (c : Nat) : McKept s (s.notice c) := .of_regs rfl rfl
theorem State.onComb_mcKept (s : State) (c : Nat) (f : Comb → Comb) : McKept s (s.onComb c f) := .of_regs rfl rfl

theorem State.refreshGo_mcKept (s : State) : McKept s s.refreshGo :=
  .of_writes ⟨State.refreshGo_regsWf, s.refreshGo_writesOnly.rd⟩ fun a ⟨hLow, _⟩ ha => by
    rw [ha, Adr.PLAN_STAT] at hLow
    omega

theorem State.hubEvent_mcKept (s : State) (ev n : Nat) : McKept s (s.hubEvent ev n) := by
  unfold State.hubEvent
  refine ite_mcKept .rfl (foldl_mcKept (fun s i hi => ?_) s)
  have low : ∀ k, k < 16 → Adr.PERF_HC i + k < 0x400000 := fun k hk => by
    have := List.mem_range.mp hi
    unfold Adr.PERF_HC
    omega
  have counted := fun m => (s.put_mcKept (Adr.PERF_HC i) Fl.PERF_HC_VAL_LO m (low _ (by decide))).trans
    (State.put_mcKept _ (Adr.PERF_HC i) Fl.PERF_HC_VAL_HI (m / 2 ^ 32) (low _ (by decide)))
  exact ite_mcKept (ite_mcKept ((counted _).trans (State.putFlag_mcKept _ _ _ _ (low _ (by decide)))) (counted _)) .rfl

/-! ## Events and completions -/

/-- The one write of a session's first word asks first whether the session is OPEN. -/
theorem State.dmaFault_mcKept (s : State) (q : Nat) : McKept s (s.dmaFault q) := by
  by_cases hOpen : s.sessState q = 2
  · refine ⟨(s.dmaFault_writesOnly q).wf, fun w a _ hb => (s.dmaFault_writesOnly q).rd w a ?_⟩
    rintro rfl
    exact hb hOpen
  · unfold State.dmaFault
    rw [if_neg hOpen]
    exact .rfl

theorem State.onSess_mcKept (s : State) (q : Nat) (f : Sess → Sess) : McKept s (s.onSess q f) := by
  unfold State.onSess
  split
  · exact .of_regs rfl rfl
  · exact .rfl

theorem State.signal_mcKept (s : State) (fn vec : Nat) : McKept s (s.signal fn vec) := by
  unfold State.signal State.sendMsi
  refine ite_mcKept .rfl (ite_mcKept (McKept.trans (.of_regs ?_ ?_) (State.hubEvent_mcKept ..)) (.of_regs ?_ ?_)) <;> rfl

theorem State.writeStat_mcKept (s : State) (q ring : Nat) : McKept s (s.writeStat q ring) := by
  unfold State.writeStat
  split
  · exact .rfl
  · have kSess := fun (x : Sess) => (s.hubEvent_mcKept 0x0C 1).trans ((s.hubEvent 0x0C 1).setSess_mcKept q x)
    exact ite_mcKept .rfl (ite_mcKept (s.dmaFault_mcKept q) (ite_mcKept (kSess _)
      (ite_mcKept (kSess _) ((kSess _).trans (State.signal_mcKept ..)))))

theorem State.sendEth_mcKept (s : State) (q ty count index : Nat) (body : List Byte) :
    McKept s (s.sendEth q ty count index body) := by
  unfold State.sendEth
  split
  · exact .rfl
  · next x hx =>
    split
    · exact .rfl
    · next e he =>
      have kSent := (s.setSess_mcKept q { x with eth := some { e with txSeq := e.txSeq + 1 } }).trans (State.hubEvent_mcKept _ 0x0D 1)
      refine ite_mcKept (kSent.trans (.of_regs ?_ ?_)) (kSent.trans (.of_regs ?_ ?_)) <;> rfl

theorem State.pushEvts_mcKept (s : State) (q : Nat) (es : List (List Byte)) : McKept s (s.pushEvts q es) := by
  unfold State.pushEvts
  split
  · exact .rfl
  · exact ite_mcKept (s.dmaFault_mcKept q) (ite_mcKept ((s.setSess_mcKept ..).trans (State.sendEth_mcKept ..))
      ((s.setSess_mcKept ..).trans ((State.hubEvent_mcKept ..).trans (State.writeStat_mcKept ..))))

/-- The count of lost events is the third word of a session's registers. -/
theorem State.countLost_mcKept (s : State) (q : Nat) : McKept s (s.count (Adr.SESS q) Fl.SESS_EV_LOST 1) :=
  ⟨State.count_regsWf _ _ _, fun w a ⟨_, hWord⟩ _ => State.rd_put_word _ _ _ _ (by simp only [Adr.SESS, Fl.SESS_EV_LOST]; omega) w⟩

theorem State.postAt_mcKept (s : State) (q code dom tq ns32 frac8 : Nat) (payload : List Byte) :
    McKept s (s.postAt q code dom tq ns32 frac8 payload) := by
  unfold State.postAt
  refine ite_mcKept .rfl ?_
  split
  · exact .rfl
  · exact ite_mcKept (State.pushEvts_mcKept ..) ((s.countLost_mcKept q).trans (State.onSess_mcKept ..))

theorem State.postOwners_mcKept (s : State) (code : Nat) (payload : List Byte) : McKept s (s.postOwners code payload) :=
  foldl_mcKept (fun s _ _ => ite_mcKept (s.postAt_mcKept ..) .rfl) s

theorem State.postOut_mcKept (s : State) (o : Nat) : McKept s (s.postOut o) := by
  refine foldl_mcKept (fun s q _ => ?_) s
  split
  · exact .rfl
  · exact ite_mcKept (State.postAt_mcKept ..) .rfl

theorem State.refreshOuts_mcKept (s : State) : McKept s s.refreshOuts :=
  foldl_mcKept (fun s o _ => ite_mcKept .rfl ((s.setOut_mcKept o _).trans (State.postOut_mcKept _ o))) s

theorem State.writeCpl_mcKept (s : State) (q : Nat) (e : List Byte) : McKept s (s.writeCpl q e) := by
  unfold State.writeCpl
  split
  · exact .rfl
  · exact ite_mcKept .rfl (ite_mcKept (s.setSess_mcKept ..) (ite_mcKept (s.dmaFault_mcKept q)
      (ite_mcKept ((s.setSess_mcKept ..).trans (State.sendEth_mcKept ..))
        ((s.setSess_mcKept ..).trans ((State.hubEvent_mcKept ..).trans (State.writeStat_mcKept ..))))))

theorem State.resetCores_mcKept (s : State) : McKept s s.resetCores := by
  unfold State.resetCores
  refine McKept.trans (ite_mcKept ((State.put_mcKept _ _ _ _ (by decide)).after ?_ ?_) (.of_regs ?_ ?_))
    (State.count_mcKept _ _ _ _ (by decide)) <;> rfl

theorem State.warmGoes_mcKept (s : State) : McKept s s.warmGoes := by
  unfold State.warmGoes
  exact ite_mcKept s.resetCores_mcKept .rfl

theorem State.complete_mcKept (s : State) (q status : Nat) (result : List Byte) : McKept s (s.complete q status result) := by
  unfold State.complete
  split
  · exact .rfl
  · split
    · exact .rfl
    · exact ((s.setSess_mcKept ..).trans (State.writeCpl_mcKept ..)).trans (State.warmGoes_mcKept _)

/-! ## The fault of a comb -/

theorem State.logInvol_mcKept (s : State) (k : Option Nat) (ty : Nat) (body : List Byte) : McKept s (s.logInvol k ty body) := by
  have written : WritesOnly ledgerReg s (s.logInvol k ty body) := by
    unfold State.logInvol State.logInvolAt
    refine ite_writesOnly (s.flushOverflow_ledgerReg.trans (State.pushEntry_ledgerReg ..)) ?_
    split
    · exact s.flushOverflow_ledgerReg
    · exact s.flushOverflow_ledgerReg.trans ((State.ledgerStat_ledgerReg _).after rfl rfl)
  exact .of_writes written fun a ⟨hLow, _⟩ ⟨_, hHigh⟩ => by omega

theorem State.reportFault_mcKept (s : State) (n count : Nat) : McKept s (s.reportFault n count) := by
  unfold State.reportFault
  exact ((s.postOwners_mcKept ..).trans (State.logInvol_mcKept ..)).trans (State.setFlt_mcKept ..)

theorem State.noteFault_mcKept (s : State) (n : Nat) : McKept s (s.noteFault n) := by
  unfold State.noteFault
  exact ite_mcKept (s.reportFault_mcKept ..) (s.setFlt_mcKept _)

theorem fltSrc_low {n : Nat} (hn : n < 256) {k : Nat} (hk : k < 32) : Adr.FLT_SRC n + k < 0x400000 := by
  unfold Adr.FLT_SRC
  omega

theorem McKept.putSrc (h : McKept s t) {n : Nat} (hn : n < 256) {f : Field} {v : Nat} (hf : f.off < 32 := by decide) :
    McKept s (t.put (Adr.FLT_SRC n) f v) := h.trans (t.put_mcKept _ _ _ (fltSrc_low hn hf))

theorem McKept.putFlagSrc (h : McKept s t) {n : Nat} (hn : n < 256) {f : Field} {x : Bool} (hf : f.off < 32 := by decide) :
    McKept s (t.putFlag (Adr.FLT_SRC n) f x) := h.putSrc hn hf

theorem State.capture_mcKept (s : State) {n : Nat} (hn : n < 256) (r : FaultRep) : McKept s (s.capture n r) := by
  unfold State.capture
  extract_lets b s1 s2 s3 s4 s5 s6 s7 s8 s9 s10 _ u first
  have k3 : McKept s s3 := ((McKept.rfl.putFlagSrc hn).putSrc hn).putSrc hn
  have k6 : McKept s s6 := ((k3.putSrc hn).putSrc hn).putSrc hn
  have k10 : McKept s s10 := (((k6.putSrc hn).putSrc hn).putSrc hn).putSrc hn
  have ku : McKept s u := k10.trans (State.setFlt_mcKept ..)
  have named := (ku.trans (u.put_mcKept Adr.FLT_GSTAT Fl.FLT_GSTAT_FIRST n (by decide))).trans
    (State.putFlag_mcKept _ Adr.FLT_GSTAT Fl.FLT_GSTAT_FIRST_VALID true (by decide))
  exact ite_mcKept (named.trans (State.setFlt_mcKept ..)) ku

/-- A source that is neither FATAL nor a supply. -/
theorem State.assertFault_mcKept {n : Nat} (hn : n < 0xC0) (hc : s.classFor n ≠ 2) (r : FaultRep) (active : Bool) :
    McKept s (s.assertFault n r active) := by
  have hSrc : n < 256 := by omega
  have hSupply : ¬(0xC0 ≤ n ∧ n ≤ 0xC5) := by omega
  unfold State.assertFault
  dsimp only
  rw [if_neg hc, if_neg hSupply]
  refine ite_mcKept .rfl ?_
  set u := (s.put (Adr.FLT_SRC n) Fl.FLT_SRC_CLASS (s.classFor n)).putFlag (Adr.FLT_SRC n) Fl.FLT_SRC_ACTIVE active
  have ku : McKept s u := (McKept.rfl.putSrc hSrc).putFlagSrc hSrc
  have counted : McKept s ((u.count (Adr.FLT_SRC n) Fl.FLT_SRC_COUNT 1)) := ku.putSrc hSrc
  by_cases hFresh : (!u.flag (Adr.FLT_SRC n) Fl.FLT_SRC_VALID) = true
  · simp only [if_pos hFresh]
    exact (ku.trans (u.capture_mcKept hSrc r)).trans (State.noteFault_mcKept ..)
  · simp only [if_neg hFresh]
    exact counted.trans (State.setFlt_mcKept ..)

theorem State.abandoned_mcKept (s : State) (c vec : Nat) (m : Engine) : McKept s (s.abandoned c vec m) :=
  (s.onComb_mcKept c _).trans ⟨State.count_regsWf _ _ _, fun w a ⟨_, hWord⟩ _ => State.rd_put_word _ _ _ _ (by
    simp only [Adr.MC_CNT, Fl.MC_CNT_ABANDONS]
    omega) w⟩

theorem State.interrupt_mcKept (s : State) (c : Nat) (l : List (Nat × Nat)) : McKept s (s.interrupt c l) := by
  unfold State.interrupt
  split
  · exact .rfl
  · exact ite_mcKept (s.onComb_mcKept ..) (s.abandoned_mcKept ..)

theorem State.beginHold_mcKept (s : State) (c : Nat) : McKept s (s.beginHold c) := by
  unfold State.beginHold
  extract_lets u v
  have kv : McKept s v := .of_regs rfl rfl
  split
  · exact kv.trans (v.interrupt_mcKept ..)
  · exact kv

theorem State.holdComb_mcKept (s : State) (c : Nat) (mc : Bool) : McKept s (s.holdComb c mc) :=
  ((s.onComb_mcKept c _).trans (State.beginHold_mcKept ..)).trans ((State.refreshOuts_mcKept _).trans (State.refreshGo_mcKept _))

/-- A comb's own fault, not FATAL. -/
theorem State.combFault_mcKept {c : Nat} (hc : c < 0xC0) (hcls : s.classFor c ≠ 2) (kind : Nat) (r : FaultRep) :
    McKept s (s.combFault c kind none r) := by
  unfold State.combFault
  have asserted := State.assertFault_mcKept hc hcls { r with kind := kind } false
  exact (ite_mcKept (asserted.trans (State.notice_mcKept _ c)) asserted).trans (State.holdComb_mcKept ..)

/-! ## A comb that fails its load -/

theorem State.showLoadFails_mcKept (s : State) : McKept s s.showLoadFails := s.put_mcKept _ _ _ (by decide)

theorem State.applyDone_mcKept (s : State) (a : ApplyItem) : McKept s (s.applyDone a) := by
  unfold State.applyDone
  extract_lets u b v
  have ku : McKept s u := s.count_mcKept _ _ _ (by decide)
  have kv : McKept s v := ite_mcKept (ku.trans (u.put_mcKept _ _ _ (by decide))) (ku.trans (u.setBoot_mcKept _))
  exact ite_mcKept kv (kv.trans (v.complete_mcKept ..))

theorem State.flushApplies_mcKept (s : State) : McKept s s.flushApplies := by
  unfold State.flushApplies
  refine ite_mcKept .rfl (McKept.trans ?_ (foldl_mcKept (fun s a _ => s.applyDone_mcKept a) _))
  exact (State.putFlag_mcKept _ _ _ _ (by decide)).after rfl rfl

theorem State.dropFromApplies_mcKept (s : State) (c : Nat) : McKept s (s.dropFromApplies c) := by
  unfold State.dropFromApplies
  exact (State.flushApplies_mcKept _).after rfl rfl

/-- A comb whose load failed, with the two words that say so. -/
def State.showLoadFail (s : State) (c : Nat) : State := (s.put (Adr.MC_STAT c) Fl.MC_STAT_STATE 4).wr (Adr.MC_VERSION c) 0

theorem State.showLoadFail_engine (h : s.regsWf = true) (c : Nat) : (s.showLoadFail c).engine c = 4 := by
  have apart : Adr.MC_STAT c + Fl.MC_STAT_STATE.off ≠ Adr.MC_VERSION c := by
    simp only [Adr.MC_STAT, Adr.MC_VERSION, Fl.MC_STAT_STATE]
    omega
  unfold State.showLoadFail State.engine State.get
  rw [State.rd_wr_other _ _ _ apart (State.put_regsWf _ _ _ h)]
  exact State.get_put_same _ _ _ (by decide) h

theorem State.showLoadFail_version (h : s.regsWf = true) (c : Nat) : (s.showLoadFail c).rd (Adr.MC_VERSION c) = 0 :=
  State.rd_wr_same _ _ (State.put_regsWf _ _ _ h)

/-- What follows the two words: the machine-check fault with its hold, the count of failed combs, and the applications that waited. -/
theorem State.loadFail_eq (s : State) (c : Nat) : s.loadFail c = (((s.showLoadFail c).combFault c 1 none
    { detail := 0, access := 1, master := 0x10, addr := 0 }).showLoadFails).dropFromApplies c := by
  unfold State.loadFail
  rfl

/-- What the failed load goes on to do leaves both words. -/
theorem State.loadFail_spec (h : s.regsWf = true) (hc : c < 0xC0) (hcls : (s.showLoadFail c).classFor c ≠ 2) :
    (s.loadFail c).engine c = 4 ∧ (s.loadFail c).rd (Adr.MC_VERSION c) = 0 := by
  have wf : (s.showLoadFail c).regsWf = true := State.wr_regsWf _ _ (State.put_regsWf _ _ _ h)
  have follows : McKept (s.showLoadFail c) (s.loadFail c) := by
    rw [s.loadFail_eq]
    exact ((State.combFault_mcKept hc hcls 1 _).trans (State.showLoadFails_mcKept _)).trans (State.dropFromApplies_mcKept ..)
  have shown := State.showLoadFail_engine h c
  have cleared := State.showLoadFail_version h c
  refine ⟨?_, (follows.rd wf _ (mcWord_version c) (by rw [cleared]; decide)).trans cleared⟩
  have stays := follows.rd wf _ (mcWord_stat c) (fun hOpen => absurd (shown.symm.trans hOpen) (by decide))
  unfold State.engine State.get at shown ⊢
  rw [stays]
  exact shown

end Sys2Proof.Machine
end

section
/-! SUPPORT. The recovery of a comb in MCHECK (R143, R146), and a lane held for HOLD_LIMIT (R83). -/

namespace Sys2Proof.Machine

variable {s : State} {c l : Nat}

theorem numElems_eq (v : Variant) : numElems v = 64 * numCombs v := by
  unfold numElems numCombs
  split <;> rfl

/-! ## MC_RECOVERY -/

theorem quiet_mcStat (c : Nat) : quiet (Adr.MC_STAT c + Fl.MC_STAT_STATE.off) = true := by
  simp [quiet, Adr.MC_STAT, Fl.MC_STAT_STATE]
  omega

/-- Gwynique has a comb in MCHECK to recover: no restart is owed, and it has not given up. -/
structure Recovers (s : State) (c : Nat) : Prop where
  comb : c < numCombs s.variant
  runs : s.gwqRuns = true
  mcheck : s.engine c = 2
  noRestart : (s.comb c).restart = false
  noGiveUp : (s.comb c).gaveUp = false

/-- Below three checks in 60 s the comb is recovered, from the third on given up. -/
theorem Recovers.mcRecovery (h : Recovers s c) (ok : Bool) : mcRecovery c ok s =
    if 3 ≤ s.recentChecks c then (s.onComb c fun x => { x with gaveUp := true }).postOwners 0x0031 (le 1 c)
    else s.recover c ok 0xffff 0 := by
  unfold Machine.mcRecovery
  simp [h.comb, h.runs, h.mcheck, h.noRestart, h.noGiveUp]

theorem Recovers.mcRecovery_of_few (h : Recovers s c) (few : s.recentChecks c < 3) (ok : Bool) :
    exec (.mcRecovery c ok) s = .next (s.recover c ok 0xffff 0) :=
  congrArg Host.Outcome.next ((h.mcRecovery ok).trans (if_neg (by omega)))

theorem Recovers.mcRecovery_of_many (h : Recovers s c) (many : 3 ≤ s.recentChecks c) (ok : Bool) :
    exec (.mcRecovery c ok) s = .next ((s.onComb c fun x => { x with gaveUp := true }).postOwners 0x0031 (le 1 c)) :=
  congrArg Host.Outcome.next ((h.mcRecovery ok).trans (if_pos many))

theorem State.giveUp_spec (hr : s.regsWf = true) (ht : s.ctl.tablesWf = true) (c : Nat) :
    let t := (s.onComb c fun x => { x with gaveUp := true }).postOwners 0x0031 (le 1 c)
    t.comb c = { s.comb c with gaveUp := true } ∧ t.engine c = s.engine c := by
  intro t
  have posted : t.ctl = (s.onComb c fun x => { x with gaveUp := true }).ctl := (State.postOwners_hostOnly ..).ctl
  have reported : Reports s t := State.postOwners_reports (State.onComb_reports .rfl ..) ..
  exact ⟨(State.comb_congr (congrArg Ctl.combs posted) c).trans (State.comb_onComb_same ht ..),
    reported.get hr _ _ (quiet_mcStat c)⟩

theorem State.loadStores_reports (s : State) (c : Nat) : Reports s (s.loadStores c) := by
  unfold State.loadStores
  exact ite_reports (State.onComb_reports .rfl ..) (State.setFlt_reports (State.onComb_reports .rfl ..) _)

/-- The stores written anew are no register. -/
theorem State.loadStores_writesOnly (w : Nat → Prop) (s : State) (c : Nat) : WritesOnly w s (s.loadStores c) := by
  unfold State.loadStores
  exact ite_writesOnly (.of_regs rfl rfl) (.of_regs rfl rfl)

/-- A recovery whose readback is good. -/
theorem State.recover_good (hr : s.regsWf = true) (ht : s.ctl.tablesWf = true) (c : Nat) :
    ((s.recover c true 0xffff 0).comb c).restart = true ∧ (s.recover c true 0xffff 0).engine c = s.engine c := by
  let u := (s.loadStores c).onComb c fun x => { x with restart := true }
  have logged : s.recover c true 0xffff 0 = u.logInvol (some 5) 0x0090 (bodyOf [(0, 1, c)]) := rfl
  have owed : (u.comb c).restart = true := by
    rw [State.comb_onComb_same ((State.loadStores_kept .rfl c).tables ht)]
  have combs : (u.logInvol (some 5) 0x0090 (bodyOf [(0, 1, c)])).ctl.combs = u.ctl.combs := by
    rw [(u.logInvol_ledgerOnly ..).eq]
  have reported : Reports s (u.logInvol (some 5) 0x0090 (bodyOf [(0, 1, c)])) :=
    State.logInvol_reports (State.onComb_reports (s.loadStores_reports c) ..) ..
  rw [logged]
  exact ⟨(congrArg Comb.restart (State.comb_congr combs c)).trans owed, reported.get hr _ _ (quiet_mcStat c)⟩

/-- LOAD_FAIL shows in the comb's own two words. -/
theorem State.showLoadFail_writesOnly (s : State) (c : Nat) : WritesOnly mcWord s (s.showLoadFail c) :=
  ⟨fun w => State.wr_regsWf _ _ (State.put_regsWf _ _ _ w), fun w a ha => by
    refine (State.rd_wr_other _ _ _ ?_ (State.put_regsWf _ _ _ w)).trans (State.rd_put_word _ _ _ _ ?_ w)
    · rintro rfl
      exact ha (mcWord_version c)
    · rintro rfl
      exact ha (mcWord_stat c)⟩

theorem not_mcWord_fltSrc {n : Nat} (hn : n < 256) (f : Field) (hf : f.off < 32) : ¬ mcWord (Adr.FLT_SRC n + f.off) := fun ⟨h, _⟩ => by
  have := fltSrc_low hn hf
  omega

/-- A recovery whose readback fails, of a comb whose source is not FATAL. -/
theorem State.recover_bad (hr : s.regsWf = true) (hc : c < numCombs s.variant) (hcls : s.classFor c ≠ 2) (q role : Nat) :
    (s.recover c false q role).engine c = 4 ∧ (s.recover c false q role).rd (Adr.MC_VERSION c) = 0 := by
  have hSrc := Nat.lt_of_lt_of_le hc (numCombs_le _)
  have loaded := State.loadStores_writesOnly mcWord s c
  have shown := loaded.trans (State.showLoadFail_writesOnly _ c)
  have cls : ((s.loadStores c).showLoadFail c).classFor c = s.classFor c := by
    unfold State.classFor
    rw [shown.get hr _ _ (not_mcWord_fltSrc (by omega) _ (by decide))]
  have fails : s.recover c false q role = (s.loadStores c).loadFail c := by
    unfold State.recover
    exact if_neg Bool.false_ne_true
  rw [fails]
  exact State.loadFail_spec (loaded.wf hr) (by omega) (by rwa [cls])

/-! ## HOLD_LIMIT -/

/-- A lane held since HOLD_LIMIT or longer is marked. -/
theorem exec_holdLimit_of_due (hc : c < numCombs s.variant) (hl : l < 64) (hst : (s.lane (64 * c + l)).st = 8)
    (hdue : (s.lane (64 * c + l)).holdSince + s.holdTicks ≤ s.tick) :
    exec (.holdLimit c l) s = .next (s.onLane (64 * c + l) fun x => { x with degraded := true }).refreshOuts := by
  have hLane : 64 * c + l < numElems s.variant := by
    rw [numElems_eq]
    omega
  refine congrArg Host.Outcome.next ?_
  unfold holdLimit
  exact if_pos (by simp [hLane, hl, hst, hdue])

end Sys2Proof.Machine
end

section
/-! O9: the prologue, commands and accumulation of a comb's engine; the recovery of a comb; HOLD_LIMIT. -/

namespace Sys2Proof.Machine

/-- Settles O9, clause by clause: a routine's COMMIT does its work, and short of it nothing; a recovery leaves both words that show the
comb's state to what it writes of them; the outputs formed behind HOLD_LIMIT leave every lane. -/
theorem engineRoutinesRecoveryAndHoldLimit : Obligations.EngineRoutinesRecoveryAndHoldLimit := by
  unfold Obligations.EngineRoutinesRecoveryAndHoldLimit
  intro s c n hregs htables hc
  refine ⟨?prologue, ?underWay, ?command, ?accumulation, ?recovery, ?holdLimit⟩
  case prologue =>
    intro howed hstarts hgood
    have ⟨free, may, _⟩ := hstarts
    have hwork := State.prologueWork_tablesWf htables c
    have lanes := (s.prologueWork_sameLanes c).trans (State.routine_sameLanes hstarts fun _ s => s.prologueWork c)
    obtain ⟨run, resume, pause, comb⟩ := State.routine_comb hstarts (fun _ s => s.prologueWork c) hwork
    rw [State.prologueWork_comb htables, if_pos rfl] at comb
    refine ⟨_, exec_prologue_of_free hc howed free may hgood, (congrArg Comb.prologue comb :), lanes.lanes, fun d hd => ?_⟩
    rw [State.routine_comb_other hstarts (fun _ s => s.prologueWork c) hwork hd, State.prologueWork_comb htables, if_neg hd]
  case underWay =>
    intro howed hway hgood
    have ⟨free, may, _⟩ := hway
    have lanes := State.routine_sameLanes_of_onTheWay hway fun _ s => s.prologueWork c
    obtain ⟨r, comb⟩ := State.routine_comb_of_onTheWay hway (fun _ s => s.prologueWork c) htables
    refine ⟨_, exec_prologue_of_free hc howed free may hgood, ?_, lanes.lanes, lanes.outs, ?_⟩
    · rw [comb]
      exact howed
    · rw [comb]
      rfl
  case command =>
    intro hnone hcmd hstarts hgood
    have ⟨free, may, _⟩ := hstarts
    have hwork : (s.cmdWork c).ctl.tablesWf = true := (State.onComb_kept .rfl ..).tables htables
    have lanes := State.routine_sameLanes hstarts fun _ s => s.cmdWork c
    obtain ⟨run, resume, pause, comb⟩ := State.routine_comb hstarts (fun _ s => s.cmdWork c) hwork
    refine ⟨_, exec_cmdRoutine_of_free hc hnone hcmd free may hgood, ?_, lanes.lanes, fun d hd => ?_⟩
    · rw [comb, State.cmdWork, State.comb_onComb_same htables]
      rfl
    · exact (State.routine_comb_other hstarts (fun _ s => s.cmdWork c) hwork hd).trans (State.comb_onComb_other htables _ _ _ hd)
  case accumulation =>
    intro hserving hwaits hstarts hgood
    exact ⟨_, exec_calAcc_of_starts hserving hwaits hstarts hgood, fun _ hl => State.calAcc_accumulated htables hstarts hl⟩
  case recovery =>
    intro hruns hmcheck hrestart hgiven
    have recovers : Recovers s c := ⟨hc, hruns, hmcheck, hrestart, hgiven⟩
    refine ⟨fun few => ?_, fun few hcls => ?_, fun ok many => ?_⟩
    · obtain ⟨owed, stays⟩ := State.recover_good hregs htables c
      exact ⟨_, recovers.mcRecovery_of_few few true, owed, stays.trans hmcheck⟩
    · obtain ⟨failed, cleared⟩ := State.recover_bad hregs hc hcls 0xffff 0
      exact ⟨_, recovers.mcRecovery_of_few few false, failed, cleared⟩
    · obtain ⟨comb, stays⟩ := State.giveUp_spec hregs htables c
      refine ⟨_, recovers.mcRecovery_of_many many ok, ?_, stays.trans hmcheck, ?_⟩
      · rw [comb]
      · rw [comb]
        exact hrestart
  case holdLimit =>
    intro l hl hst hdue
    have lanes := State.lane_congr (s.onLane (64 * c + l) fun x => { x with degraded := true }).refreshOuts_lanes
    refine ⟨_, exec_holdLimit_of_due hc hl hst hdue, ?_, ?_, fun e he => ?_⟩
    · rw [lanes, State.lane_onLane_same htables]
    · rw [lanes, State.lane_onLane_same htables]
      exact hst
    · rw [lanes, State.lane_onLane_other htables _ _ _ he]

end Sys2Proof.Machine
end

section
/-! SUPPORT. What an operation of the time unit writes: fields of one register block, and the time unit beside its registers. -/

namespace Sys2Proof.Machine

variable {s s₀ t : State} {b : Nat} {fs fs' : List Field}

/-- From `s` to `t` fields `fs` of the block at `b` were written, and the time unit beside its registers. -/
structure TimeWrites (b : Nat) (fs : List Field) (s t : State) : Prop where
  rest : t = { s with regs := t.regs, time := t.time }
  wf : s.regsWf = true → t.regsWf = true
  get : s.regsWf = true → ∀ g : Field, fs.all g.apart = true → t.get b g = s.get b g
  rd : s.regsWf = true → ∀ a, (∀ f ∈ fs, a ≠ b + f.off) → t.rd a = s.rd a

theorem TimeWrites.rfl : TimeWrites b fs s s := ⟨Eq.refl _, id, fun _ _ _ => Eq.refl _, fun _ _ _ => Eq.refl _⟩

theorem TimeWrites.trans (h : TimeWrites b fs s₀ s) (k : TimeWrites b fs' s t) : TimeWrites b (fs ++ fs') s₀ t where
  rest := k.rest.trans (congrArg (fun u : State => { u with regs := t.regs, time := t.time }) h.rest)
  wf := k.wf ∘ h.wf
  get := fun w g hg => by
    rw [List.all_append, Bool.and_eq_true] at hg
    exact (k.get (h.wf w) g hg.2).trans (h.get w g hg.1)
  rd := fun w _ ha => (k.rd (h.wf w) _ fun f m => ha f (List.mem_append_right _ m)).trans
    (h.rd w _ fun f m => ha f (List.mem_append_left _ m))

theorem TimeWrites.mono (h : TimeWrites b fs s t) (hf : fs ⊆ fs') : TimeWrites b fs' s t :=
  { h with
    get := fun w g hg => h.get w g (List.all_eq_true.mpr fun f m => List.all_eq_true.mp hg f (hf m))
    rd := fun w _ ha => h.rd w _ fun f m => ha f (hf m) }

theorem ite_timeWrites {c : Prop} [Decidable c] {u v : State} (hu : TimeWrites b fs s u) (hv : TimeWrites b fs s v) :
    TimeWrites b fs s (if c then u else v) := by
  split
  · exact hu
  · exact hv

theorem TimeWrites.tick (h : TimeWrites b fs s t) : t.tick = s.tick := by rw [h.rest]
theorem TimeWrites.variant (h : TimeWrites b fs s t) : t.variant = s.variant := by rw [h.rest]
theorem TimeWrites.ctl (h : TimeWrites b fs s t) : t.ctl = s.ctl := by rw [h.rest]
theorem TimeWrites.led (h : TimeWrites b fs s t) : t.led = s.led := by rw [h.rest]
theorem TimeWrites.readData (h : TimeWrites b fs s t) : t.readData = s.readData := by rw [h.rest]

theorem TimeWrites.flag (h : TimeWrites b fs s t) (w : s.regsWf = true) (g : Field) (hg : fs.all g.apart = true) :
    t.flag b g = s.flag b g := congrArg (· != 0) (h.get w g hg)

theorem TimeWrites.getPair (h : TimeWrites b fs s t) (w : s.regsWf = true) (lo hi : Field)
    (hf : (fs.all lo.apart && fs.all hi.apart) = true) : t.getPair b lo hi = s.getPair b lo hi := by
  rw [Bool.and_eq_true] at hf
  unfold State.getPair
  rw [h.get w lo hf.1, h.get w hi hf.2]

/-- A field of another word. -/
theorem TimeWrites.get_other (h : TimeWrites b fs s t) (w : s.regsWf = true) (c : Nat) (g : Field)
    (hc : ∀ f ∈ fs, c + g.off ≠ b + f.off) : t.get c g = s.get c g := by
  unfold State.get
  rw [h.rd w _ hc]

theorem State.put_timeWrites (s : State) (b : Nat) (f : Field) (n : Nat) : TimeWrites b [f] s (s.put b f n) where
  rest := Eq.refl _
  wf := State.put_regsWf _ _ _
  get := fun w g hg => State.get_put_apart w b f n g (List.all_eq_true.mp hg f (List.mem_singleton_self f))
  rd := fun w _ ha => State.rd_put_word _ _ _ _ (ha f (List.mem_singleton_self f)) w

theorem State.putFlag_timeWrites (s : State) (b : Nat) (f : Field) (x : Bool) : TimeWrites b [f] s (s.putFlag b f x) :=
  s.put_timeWrites ..

theorem State.count_timeWrites (s : State) (b : Nat) (f : Field) (n : Nat) : TimeWrites b [f] s (s.count b f n) :=
  s.put_timeWrites ..

theorem State.putPair_timeWrites (s : State) (b : Nat) (lo hi : Field) (n : Nat) :
    TimeWrites b [lo, hi] s (s.putPair b lo hi n) :=
  (s.put_timeWrites b lo n).trans (State.put_timeWrites ..)

/-- The time unit beside its registers. -/
theorem State.withTime_timeWrites (s : State) (x : TimeUnit) : TimeWrites b [] s (s.withTime x) :=
  ⟨Eq.refl _, id, fun _ _ _ => Eq.refl _, fun _ _ _ => Eq.refl _⟩

theorem State.onDom_timeWrites (s : State) (d : Dom) (f : Domain → Domain) : TimeWrites b [] s (s.onDom d f) :=
  State.withTime_timeWrites ..

/-! ## Values of fields -/

/-- A field written with a value that it holds. -/
theorem State.get_put_of_lt (h : s.regsWf = true) (b : Nat) (f : Field) (n : Nat) (hf : f.lo + f.width ≤ 32)
    (hn : n < 2 ^ f.width) : (s.put b f n).get b f = n := by
  rw [State.get_put_same b f n hf h, Nat.mod_eq_of_lt hn]

/-! ## Domains -/

@[simp] theorem State.onDom_dom_same (s : State) (d : Dom) (f : Domain → Domain) :
    (s.onDom d f).time.dom d = f (s.time.dom d) := by cases d <;> rfl

@[simp] theorem State.onDom_dom_other (s : State) (d : Dom) (f : Domain → Domain) :
    (s.onDom d f).time.dom (otherDom d) = s.time.dom (otherDom d) := by cases d <;> rfl

@[simp] theorem State.onDom_getPair (s : State) (d : Dom) (f : Domain → Domain) (b : Nat) (lo hi : Field) :
    (s.onDom d f).getPair b lo hi = s.getPair b lo hi := by
  unfold State.getPair
  rw [State.onDom_get, State.onDom_get]

/-- Who may write a domain's fields depends on the bridge, Gwynique and SRC. -/
theorem State.mayWrite_congr (hv : t.variant = s.variant) (hc : t.ctl = s.ctl)
    (hp : t.get Adr.PWR_STAT Fl.PWR_STAT_PG = s.get Adr.PWR_STAT Fl.PWR_STAT_PG) {d : Dom}
    (hs : t.get (tdAdr d) Fl.TD_SRC = s.get (tdAdr d) Fl.TD_SRC) (w : Writer) : t.mayWrite d w = s.mayWrite d w := by
  have boot : t.boot = s.boot := congrArg Ctl.boot hc
  have src : t.srcOf d = s.srcOf d := by
    unfold State.srcOf State.has
    rw [hs, hv]
  cases w with
  | host =>
    unfold State.mayWrite State.bridgeOn State.powered
    dsimp only
    rw [src, boot, hp]
  | gwynique =>
    unfold State.mayWrite State.gwqRuns
    dsimp only
    rw [src, boot]

/-- The registers of a domain lie apart from PWR_STAT. -/
theorem tdAdr_ne_pwrStat (d : Dom) (f : Field) (hf : f.off < 0x40) : Adr.PWR_STAT + Fl.PWR_STAT_PG.off ≠ tdAdr d + f.off := by
  cases d <;> simp only [tdAdr, domIx, Adr.TD, Adr.PWR_STAT, Fl.PWR_STAT_PG] <;> omega

theorem TimeWrites.mayWrite {d : Dom} (h : TimeWrites (tdAdr d) fs s t) (w : s.regsWf = true)
    (hf : fs.all (fun f => Fl.TD_SRC.apart f && decide (f.off < 0x40)) = true) (x : Writer) : t.mayWrite d x = s.mayWrite d x := by
  have each : ∀ f ∈ fs, Fl.TD_SRC.apart f = true ∧ f.off < 0x40 := by simpa using hf
  exact State.mayWrite_congr h.variant h.ctl (h.get_other w _ _ fun f m => tdAdr_ne_pwrStat d f (each f m).2)
    (h.get w _ (List.all_eq_true.mpr fun f m => (each f m).1)) x

/-- What the flags of a word written by the host through the bridge see: flag `f` clears where its bit `k` is 1 (R367). -/
def State.hostClears (s : State) (d : Dom) (w : Writer) (v : Word) (k : Nat) (f : Field) : State :=
  if w = .host ∧ s.bridgeOn ∧ bitSet v k then s.putFlag (tdAdr d) f false else s

theorem State.hostClears_timeWrites (s : State) (d : Dom) (w : Writer) (v : Word) (k : Nat) (f : Field) :
    TimeWrites (tdAdr d) [f] s (s.hostClears d w v k f) :=
  ite_timeWrites (s.putFlag_timeWrites ..) .rfl

@[simp] theorem State.hostClears_time (s : State) (d : Dom) (w : Writer) (v : Word) (k : Nat) (f : Field) :
    (s.hostClears d w v k f).time = s.time := by
  unfold State.hostClears
  split <;> rfl

end Sys2Proof.Machine
end

section
/-! O54: the source that SRC selects (R156). -/

namespace Sys2Proof.Machine

/-- Settles O54, by the value of SRC: above 4, PTP with and without MGMT, and the others. -/
theorem srcSelectsTheSource : Obligations.SrcSelectsTheSource := by
  unfold Obligations.SrcSelectsTheSource State.srcOf
  intro s d
  refine ⟨fun high => if_pos high, fun ptp => ?_, fun low notPtp => ?_, fun same => ?_⟩
  · cases hm : s.has .mgmtU <;> simp [ptp]
  · rw [if_neg (by omega), if_neg fun h => notPtp h.1]
  · rw [same]

end Sys2Proof.Machine
end

section
/-! O11: INC_HI and ADJ_TICKS of a domain (R148, R149, R155). -/

namespace Sys2Proof.Machine

variable {s t : State} {d : Dom} {w : Writer} {v : Word}

/-! ## INC -/

/-- The increment that INC_HI and the staged INC_LO name. -/
def State.rawInc (s : State) (d : Dom) (v : Word) : Nat := getBits v 0 8 * 2 ^ 32 + s.get (tdAdr d) Fl.TD_INC_LO

/-- The words of INC as held to the range of R148. -/
def State.putInc (s : State) (d : Dom) (n : Nat) : State :=
  (s.put (tdAdr d) Fl.TD_INC_HI (n / 2 ^ 32)).put (tdAdr d) Fl.TD_INC_LO n

/-- A value outside the range of R148 sets INC_CLAMP. -/
def State.flagInc (s : State) (d : Dom) (raw : Nat) : State :=
  if clampInc raw = raw then s.putInc d (clampInc raw)
  else (s.putInc d (clampInc raw)).putFlag (tdAdr d) Fl.TD_INC_CLAMP true

theorem State.flagInc_timeWrites (s : State) (d : Dom) (raw : Nat) :
    TimeWrites (tdAdr d) [Fl.TD_INC_HI, Fl.TD_INC_LO, Fl.TD_INC_CLAMP] s (s.flagInc d raw) := by
  have k : TimeWrites (tdAdr d) [Fl.TD_INC_HI, Fl.TD_INC_LO] s (s.putInc d (clampInc raw)) :=
    (s.put_timeWrites ..).trans (State.put_timeWrites ..)
  exact ite_timeWrites (k.mono (by decide)) (k.trans (State.putFlag_timeWrites ..))

theorem State.flagInc_time (s : State) (d : Dom) (raw : Nat) : (s.flagInc d raw).time = s.time := by
  unfold State.flagInc
  split <;> rfl

theorem clampInc_lt (n : Nat) : clampInc n < 2 ^ 40 := by
  unfold clampInc incMin incMax
  omega

/-- The two words read as the increment in force. -/
theorem State.flagInc_getPair (h : s.regsWf = true) (d : Dom) (raw : Nat) :
    (s.flagInc d raw).getPair (tdAdr d) Fl.TD_INC_LO Fl.TD_INC_HI = clampInc raw := by
  have hHi := State.put_regsWf (tdAdr d) Fl.TD_INC_HI (clampInc raw / 2 ^ 32) h
  have hInc : (s.putInc d (clampInc raw)).regsWf = true := State.put_regsWf _ _ _ hHi
  have lo : (s.putInc d (clampInc raw)).get (tdAdr d) Fl.TD_INC_LO = clampInc raw % 2 ^ 32 :=
    State.get_put_same _ _ _ (by decide) hHi
  have hi : (s.putInc d (clampInc raw)).get (tdAdr d) Fl.TD_INC_HI = clampInc raw / 2 ^ 32 % 2 ^ 8 :=
    (State.get_put_apart hHi _ _ _ _ (by decide)).trans (State.get_put_same _ _ _ (by decide) h)
  have pair : (s.putInc d (clampInc raw)).getPair (tdAdr d) Fl.TD_INC_LO Fl.TD_INC_HI = clampInc raw := by
    have := clampInc_lt raw
    unfold State.getPair
    omega
  unfold State.flagInc
  split
  · exact pair
  · exact ((State.putFlag_timeWrites ..).getPair hInc _ _ (by decide)).trans pair

theorem State.flagInc_clamp (h : s.regsWf = true) (d : Dom) {raw : Nat} (hr : clampInc raw ≠ raw) :
    (s.flagInc d raw).flag (tdAdr d) Fl.TD_INC_CLAMP = true := by
  unfold State.flagInc
  rw [if_neg hr]
  exact State.flag_putFlag_same _ _ _ (by decide) (by decide) (State.put_regsWf _ _ _ (State.put_regsWf _ _ _ h))

/-- INC_HI by the discipliner: INC_CLAMP where the word clears it, the words of INC, and INC for the next tick. -/
theorem incHi_of_mayWrite (h : s.regsWf = true) (hw : s.mayWrite d w = true) : incHi d w v s
    = ((s.hostClears d w v 8 Fl.TD_INC_CLAMP).flagInc d (s.rawInc d v)).onDom d
        fun x => { x with incPend := some (clampInc (s.rawInc d v)), servoTick := s.tick } := by
  have k := s.hostClears_timeWrites d w v 8 Fl.TD_INC_CLAMP
  have raw : (s.hostClears d w v 8 Fl.TD_INC_CLAMP).rawInc d v = s.rawInc d v := by
    unfold State.rawInc
    rw [k.get h _ (by decide)]
  rw [← raw, ← (k.trans (State.flagInc_timeWrites _ d _)).tick]
  exact if_pos ((k.mayWrite h (by decide) w).trans hw)

theorem incHi_of_not_mayWrite (h : s.regsWf = true) (hw : s.mayWrite d w = false) :
    incHi d w v s = s.hostClears d w v 8 Fl.TD_INC_CLAMP :=
  if_neg (by rw [← Bool.not_eq_true] at hw; exact fun may => hw (((State.hostClears_timeWrites ..).mayWrite h (by decide) w).symm.trans may))

/-! ## ADJ -/

theorem adjTicks_of_mayWrite (h : s.regsWf = true) (hw : s.mayWrite d w = true) : adjTicks d w v s
    = (s.put (tdAdr d) Fl.TD_ADJ_TICKS v.toNat).onDom d fun x => { x with
        adjPend := some (signed 48 (s.getPair (tdAdr d) Fl.TD_ADJ_LO Fl.TD_ADJ_HI), v.toNat), servoTick := s.tick } := by
  have k := s.put_timeWrites (tdAdr d) Fl.TD_ADJ_TICKS v.toNat
  rw [← (s.put_timeWrites (tdAdr d) Fl.TD_ADJ_TICKS v.toNat).getPair h _ _ (by decide)]
  exact if_pos hw

/-- Settles O11, by writer: the discipliner's INC_HI as the words of INC held to their range, its ADJ_TICKS as one word; of another
writer's INC_HI only the flag that the host clears is left. -/
theorem incrementAndAdjustmentAreStaged : Obligations.IncrementAndAdjustmentAreStaged := by
  unfold Obligations.IncrementAndAdjustmentAreStaged
  intro s d w v h raw c
  have hraw : raw = s.rawInc d v := rfl
  have hc : c = clampInc raw := by
    unfold clampInc incMin incMax
    rfl
  clear_value c raw
  subst hc hraw
  have kClears := s.hostClears_timeWrites d w v 8 Fl.TD_INC_CLAMP
  have hClears := kClears.wf h
  refine ⟨fun may => ⟨⟨_, congrArg Host.Outcome.next (incHi_of_mayWrite h may), ?incHi⟩,
      ⟨_, congrArg Host.Outcome.next (adjTicks_of_mayWrite h may), ?adjTicks⟩⟩,
    fun may => ⟨congrArg Host.Outcome.next (if_neg (by simp [may])), _,
      congrArg Host.Outcome.next (incHi_of_not_mayWrite h may), ?other⟩⟩
  case incHi =>
    have k := (kClears.trans (State.flagInc_timeWrites (s.hostClears d w v 8 Fl.TD_INC_CLAMP) d (s.rawInc d v))).trans
      (State.onDom_timeWrites _ d fun x => { x with incPend := some (clampInc (s.rawInc d v)), servoTick := s.tick })
    have kt : ((s.hostClears d w v 8 Fl.TD_INC_CLAMP).flagInc d (s.rawInc d v)).time = s.time := by
      rw [State.flagInc_time, State.hostClears_time]
    refine ⟨?_, ?_, ?_, ?_, ?_, fun ne => ?_, fun a lo hi => ?_, k.ctl, k.led⟩
    · rw [State.onDom_dom_same]
    · rw [State.onDom_dom_same]
    · rw [State.onDom_dom_same, kt]
    · rw [State.onDom_dom_other, kt]
    · rw [State.onDom_getPair, State.flagInc_getPair hClears]
    · rw [State.onDom_flag, State.flagInc_clamp hClears d ne]
    · exact k.rd h a (by simp [Fl.TD_INC_HI, Fl.TD_INC_LO, Fl.TD_INC_CLAMP, lo, hi])
  case adjTicks =>
    have k := s.put_timeWrites (tdAdr d) Fl.TD_ADJ_TICKS v.toNat
    refine ⟨?_, ?_, ?_, State.get_put_of_lt h _ _ _ (by decide) v.isLt, fun a ne => ?_, rfl, rfl⟩
    · rw [State.onDom_dom_same]
    · rw [State.onDom_dom_same]
    · rw [State.onDom_dom_other, State.put_time]
    · exact k.rd h a (by simpa [Fl.TD_ADJ_TICKS] using ne)
  case other =>
    exact ⟨State.hostClears_time .., kClears.get h _ (by decide),
      fun a ne => kClears.rd h a (by simpa [Fl.TD_INC_CLAMP] using ne)⟩

end Sys2Proof.Machine
end

section
/-! O12: SET_GO of a domain (R150, R155). -/

namespace Sys2Proof.Machine

variable {s : State} {d : Dom} {w : Writer} {v : Word}

/-- SET_SEC_HI as a word that holds SET_GO leaves it. -/
def State.putSecHi (s : State) (d : Dom) (w : Writer) (v : Word) : State :=
  (s.hostClears d w v 17 Fl.TD_SET_REFUSED).put (tdAdr d) Fl.TD_SET_SEC_HI (getBits v 0 16)

theorem State.putSecHi_timeWrites (s : State) (d : Dom) (w : Writer) (v : Word) :
    TimeWrites (tdAdr d) [Fl.TD_SET_REFUSED, Fl.TD_SET_SEC_HI] s (s.putSecHi d w v) :=
  (s.hostClears_timeWrites ..).trans (State.put_timeWrites ..)

@[simp] theorem State.putSecHi_time (s : State) (d : Dom) (w : Writer) (v : Word) : (s.putSecHi d w v).time = s.time :=
  s.hostClears_time ..

theorem State.putSecHi_secHi (h : s.regsWf = true) : (s.putSecHi d w v).get (tdAdr d) Fl.TD_SET_SEC_HI = getBits v 0 16 :=
  State.get_put_of_lt ((s.hostClears_timeWrites ..).wf h) _ _ _ (by decide) (getBits_lt ..)

/-- TIME_CTL lies apart from the registers of a domain. -/
theorem timeCtl_ne_tdAdr (d : Dom) (f : Field) : Adr.TIME_CTL + Fl.TIME_CTL_STAMP_DOM.off ≠ tdAdr d + f.off := by
  cases d <;> simp only [tdAdr, domIx, Adr.TD, Adr.TIME_CTL, Fl.TIME_CTL_STAMP_DOM] <;> omega

theorem TimeWrites.sdom {s t : State} {fs : List Field} (k : TimeWrites (tdAdr d) fs s t) (h : s.regsWf = true) : t.sdom = s.sdom := by
  unfold State.sdom
  rw [k.get_other h _ _ fun f _ => timeCtl_ne_tdAdr d f]

/-- Whether a SET is ignored does not depend on SET_SEC_HI and SET_REFUSED. -/
theorem State.putSecHi_setBarred (h : s.regsWf = true) : (s.putSecHi d w v).setBarred d = s.setBarred d := by
  have k := s.putSecHi_timeWrites d w v
  unfold State.setBarred
  rw [k.sdom h, k.get h _ (by decide), State.putSecHi_time, k.tick]

/-- R150: the reasons to ignore a SET. -/
theorem State.setBarred_iff : s.setBarred d = true ↔ d = s.sdom ∨ s.time.switchAt ≠ none
    ∨ 1000000000 ≤ s.get (tdAdr d) Fl.TD_SET_NS ∨ ∃ n, (s.time.dom d).stampEnd = some n ∧ s.tick < n + 1562500000 := by
  unfold State.setBarred
  cases hEnd : (s.time.dom d).stampEnd <;> simp [hEnd, Option.isSome_iff_ne_none, or_assoc]

/-- The three things a word with SET_GO of the discipliner can do. -/
theorem setGo_of_mayWrite (h : s.regsWf = true) (may : s.mayWrite d w = true) : setGo d w v s
    = if bitSet v 16 = false then s.putSecHi d w v
      else if s.setBarred d then (s.putSecHi d w v).putFlag (tdAdr d) Fl.TD_SET_REFUSED true
      else (s.putSecHi d w v).onDom d fun x => { x with
        setPend := some (s.get (tdAdr d) Fl.TD_SET_SEC_LO + 2 ^ 32 * getBits v 0 16, s.get (tdAdr d) Fl.TD_SET_NS) } := by
  have k := s.putSecHi_timeWrites d w v
  rw [← State.putSecHi_setBarred (w := w) (v := v) h, ← State.putSecHi_secHi (d := d) (w := w) (v := v) h,
    ← k.get h Fl.TD_SET_SEC_LO (by decide), ← k.get h Fl.TD_SET_NS (by decide)]
  exact if_pos (((s.hostClears_timeWrites ..).mayWrite h (by decide) w).trans may)

/-- Settles O12, by the reasons to ignore a SET, each judged as it stood before the word. -/
theorem setIsStagedOrRefused : Obligations.SetIsStagedOrRefused := by
  unfold Obligations.SetIsStagedOrRefused
  intro s d w v h may
  have k := s.putSecHi_timeWrites d w v
  have frame : ∀ a, a ≠ tdAdr d + 0x2C → (s.putSecHi d w v).rd a = s.rd a := fun a ne =>
    k.rd h a (by simp [Fl.TD_SET_REFUSED, Fl.TD_SET_SEC_HI, ne])
  have go := setGo_of_mayWrite (v := v) h may
  refine ⟨fun bit hd hsw hns hend => ?_, fun bit barred => ?_, fun bit => ?_⟩
  · have free : ¬ s.setBarred d = true := by
      rw [State.setBarred_iff]
      rintro (e | e | e | ⟨n, e, lt⟩)
      · exact hd e
      · exact e hsw
      · omega
      · have := hend n e
        omega
    rw [bitSet, bit, if_neg (by decide), if_neg free] at go
    refine ⟨_, congrArg Host.Outcome.next go, ?_, ?_, State.putSecHi_secHi h, frame, k.ctl, k.led⟩
    · rw [State.onDom_dom_same]
    · rw [State.onDom_dom_other, State.putSecHi_time]
  · rw [bitSet, bit, if_neg (by decide), if_pos (State.setBarred_iff.mpr barred)] at go
    refine ⟨_, congrArg Host.Outcome.next go, State.flag_putFlag_same _ _ _ (by decide) (by decide) (k.wf h),
      State.putSecHi_time .., fun a ne => ?_⟩
    exact ((State.putFlag_timeWrites ..).rd (k.wf h) a (by simpa [Fl.TD_SET_REFUSED] using ne)).trans (frame a ne)
  · rw [bitSet, bit, if_pos rfl] at go
    exact ⟨_, congrArg Host.Outcome.next go, State.putSecHi_time .., State.putSecHi_secHi h, frame⟩

end Sys2Proof.Machine
end

section
/-! SUPPORT. A domain takes a state of TQ: what that writes, and what the faults and the switch that follow leave alone (R154, R155). -/

namespace Sys2Proof.Machine

variable {s s₀ t : State}

/-! ## The time unit behind a fault -/

theorem ite_time {c : Prop} [Decidable c] {u v : State} (hu : u.time = s.time) (hv : v.time = s.time) :
    (if c then u else v).time = s.time := by
  split
  · exact hu
  · exact hv

theorem State.stopAlive_time (s : State) : s.stopAlive.time = s.time := rfl

theorem State.releaseOwn_time (s : State) : s.releaseOwn.time = s.time := rfl

/-- The pins and the wait that the FATAL reaction lets go of (R311). -/
def State.fatalRelease (s : State) : State :=
  let u := (s.putFlag Adr.FLT_GSTAT Fl.FLT_GSTAT_FATAL true).stopAlive.releaseOwn
  { u with pair := { u.pair with waitTick := none } }

theorem State.fatalRelease_time (s : State) : s.fatalRelease.time = s.time := by
  unfold State.fatalRelease
  dsimp only
  rw [State.releaseOwn_time, State.stopAlive_time, State.putFlag_time]

theorem State.fatalReaction_time (s : State) : s.fatalReaction.time = s.time := by
  unfold State.fatalReaction
  refine ite_time rfl ((State.refreshGo_time _).trans ((State.react_reports .rfl).time.trans (ite_time s.fatalRelease_time ?_)))
  rw [State.put_time, State.put_time]
  exact s.fatalRelease_time

/-- The assertion of a source that is no supply leaves the time unit, whatever its class. -/
theorem State.assertFault_time (s : State) (n : Nat) (hn : n < 256) (hs : ¬(0xC0 ≤ n ∧ n ≤ 0xC5)) (r : FaultRep) (active : Bool) :
    (s.assertFault n r active).time = s.time := by
  unfold State.assertFault
  refine ite_time rfl ?_
  extract_lets b cls u fresh flt v x y
  have kv : v.time = s.time := ite_time (State.capture_reports .rfl n hn r).time rfl
  have kx : x.time = s.time := ite_time (v.fatalReaction_time.trans kv) kv
  have ky : y.time = s.time := by rw [show y = x from if_neg hs, kx]
  exact ite_time ((State.noteFault_reports .rfl n).time.trans ky) ky

/-! ## What follows a change of state -/

/-- From `s` to `t` faults were raised or cleared and a domain switch requested: of the time unit only the pending switch changes, of its
registers only TIME_CTL. -/
structure TqFollows (s t : State) : Prop where
  time : t.time = { s.time with switchAt := t.time.switchAt }
  tick : t.tick = s.tick
  wf : s.regsWf = true → t.regsWf = true
  rd : s.regsWf = true → ∀ k, clockReg k = true → k ≠ Adr.TIME_CTL → t.rd k = s.rd k

theorem TqFollows.of_sameClock (h : SameClock s t) (ht : t.time = s.time) : TqFollows s t :=
  ⟨by rw [ht], h.tick, h.wf, fun w k hk _ => h.rd w k hk⟩

theorem TqFollows.rfl : TqFollows s s := .of_sameClock .rfl (Eq.refl _)

theorem TqFollows.trans (h : TqFollows s₀ s) (k : TqFollows s t) : TqFollows s₀ t where
  time := k.time.trans (congrArg (fun x : TimeUnit => { x with switchAt := t.time.switchAt }) h.time)
  tick := k.tick.trans h.tick
  wf := k.wf ∘ h.wf
  rd := fun w a ha hne => (k.rd (h.wf w) a ha hne).trans (h.rd w a ha hne)

theorem ite_tqFollows {c : Prop} [Decidable c] {a b : State} (ha : TqFollows s a) (hb : TqFollows s b) :
    TqFollows s (if c then a else b) := by
  split
  · exact ha
  · exact hb

theorem TqFollows.dom (h : TqFollows s t) (d : Dom) : t.time.dom d = s.time.dom d := by
  rw [h.time]
  cases d <;> rfl

theorem TqFollows.ptp (h : TqFollows s t) (d : Dom) : t.time.ptp d = s.time.ptp d := by
  rw [h.time]
  cases d <;> rfl

/-- The registers of a domain are the time unit's, and none is TIME_CTL. -/
theorem clockReg_tdAdr (d : Dom) {k : Nat} (hk : k < 0x40) : clockReg (tdAdr d + k) = true ∧ tdAdr d + k ≠ Adr.TIME_CTL := by
  unfold clockReg
  cases d <;> simp [tdAdr, domIx, Adr.TD, Adr.TIME_CTL] <;> omega

theorem TqFollows.get (h : TqFollows s t) (w : s.regsWf = true) (d : Dom) (f : Field) (hf : f.off < 0x40) :
    t.get (tdAdr d) f = s.get (tdAdr d) f := by
  obtain ⟨hClock, hNe⟩ := clockReg_tdAdr d hf
  unfold State.get
  rw [h.rd w _ hClock hNe]

theorem State.requestSwitch_follows (s : State) : TqFollows s s.requestSwitch := by
  unfold State.requestSwitch
  split
  · exact .rfl
  · exact ⟨Eq.refl _, Eq.refl _, State.putFlag_regsWf _ _ _, fun w k _ hk => State.rd_put_word _ _ _ _ hk w⟩

theorem State.faultGone_follows (s : State) (n : Nat) : TqFollows s (s.faultGone n) :=
  .of_sameClock (State.faultGone_sameClock .rfl n) (Eq.refl _)

theorem State.assertFault_follows (s : State) (n : Nat) (hn : n < 256) (hs : ¬(0xC0 ≤ n ∧ n ≤ 0xC5)) (r : FaultRep) (active : Bool) :
    TqFollows s (s.assertFault n r active) :=
  .of_sameClock (State.assertFault_sameClock .rfl n hn hs r active) (State.assertFault_time s n hn hs r active)

/-! ## A state taken -/

/-- The marks of a domain in state `st` from tick `t` on, where it was in `old`. -/
def Domain.entered (x : Domain) (old st t : Nat) : Domain :=
  { x with held := x.held ||| 2 ^ st, holdTick := if st = 3 ∧ old ≠ 3 then t else x.holdTick }

/-- STATE written, with the domain's marks. -/
def State.enterTq (s : State) (d : Dom) (st : Nat) : State :=
  (s.put (tdAdr d) Fl.TD_STATE st).onDom d fun x => x.entered (s.tqOf d) st s.tick

theorem State.enterTq_timeWrites (s : State) (d : Dom) (st : Nat) : TimeWrites (tdAdr d) [Fl.TD_STATE] s (s.enterTq d st) :=
  (s.put_timeWrites ..).trans (State.onDom_timeWrites ..)

/-- Beside the state taken, a change of the stamping domain's state asks for faults and a switch alone. -/
theorem State.setTq_follows (s : State) (d : Dom) (st : Nat) : TqFollows (s.enterTq d st) (s.setTq d st) := by
  unfold State.setTq
  extract_lets old u v w x
  have kw : TqFollows v w := (v.faultGone_follows 0xB1).trans (State.faultGone_follows _ 0xB2)
  have kx : TqFollows v x := kw.trans (ite_tqFollows (w.assertFault_follows 0xB1 (by decide) (by decide) {} true)
    (ite_tqFollows (w.assertFault_follows 0xB2 (by decide) (by decide) {} true) .rfl))
  exact ite_tqFollows (ite_tqFollows (kx.trans x.requestSwitch_follows) kx) .rfl

theorem State.setTq_regsWf (h : s.regsWf = true) (d : Dom) (st : Nat) : (s.setTq d st).regsWf = true :=
  (s.setTq_follows d st).wf ((s.enterTq_timeWrites d st).wf h)

/-- A field of the domain's registers beside STATE. -/
theorem State.setTq_get (h : s.regsWf = true) (d : Dom) (st : Nat) (g : Field) (hg : g.apart Fl.TD_STATE = true) (hlow : g.off < 0x40) :
    (s.setTq d st).get (tdAdr d) g = s.get (tdAdr d) g :=
  have k := s.enterTq_timeWrites d st
  ((s.setTq_follows d st).get (k.wf h) d g hlow).trans (k.get h g (by simpa using hg))

theorem State.setTq_tqOf (h : s.regsWf = true) (d : Dom) {st : Nat} (hst : st < 4) : (s.setTq d st).tqOf d = st :=
  ((s.setTq_follows d st).get ((s.enterTq_timeWrites d st).wf h) d Fl.TD_STATE (by decide)).trans
    (State.get_put_of_lt h _ _ _ (by decide) hst)

theorem State.setTq_dom (s : State) (d : Dom) (st : Nat) :
    (s.setTq d st).time.dom d = (s.time.dom d).entered (s.tqOf d) st s.tick := by
  rw [(s.setTq_follows d st).dom, State.enterTq, State.onDom_dom_same, State.put_time]

@[simp] theorem State.onDom_ptp (s : State) (d : Dom) (f : Domain → Domain) (e : Dom) : (s.onDom d f).time.ptp e = s.time.ptp e := by
  cases d <;> cases e <;> rfl

theorem State.setTq_ptp (s : State) (d : Dom) (st : Nat) (e : Dom) : (s.setTq d st).time.ptp e = s.time.ptp e := by
  rw [(s.setTq_follows d st).ptp, State.enterTq, State.onDom_ptp, State.put_time]

end Sys2Proof.Machine
end

section
/-! SUPPORT. A change of a domain's PTP client leaves registers, domains and the other client (R160). -/

namespace Sys2Proof.Machine

variable (s : State) (d : Dom) (f : PtpClient → PtpClient)

/-- The time unit with the client of domain `d` replaced. -/
def TimeUnit.setPtp (x : TimeUnit) (d : Dom) (p : PtpClient) : TimeUnit :=
  match d with
  | .A => { x with ptpA := p }
  | .B => { x with ptpB := p }

@[simp] theorem TimeUnit.setPtp_dom (x : TimeUnit) (d : Dom) (p : PtpClient) (e : Dom) : (x.setPtp d p).dom e = x.dom e := by
  cases d <;> cases e <;> rfl

@[simp] theorem TimeUnit.setPtp_ptp (x : TimeUnit) (d : Dom) (p : PtpClient) : (x.setPtp d p).ptp d = p := by cases d <;> rfl

theorem State.onPtp_eq : s.onPtp d f = s.withTime (s.time.setPtp d (f (s.time.ptp d))) := by cases d <;> rfl

@[simp] theorem State.onPtp_dom (e : Dom) : (s.onPtp d f).time.dom e = s.time.dom e := by
  rw [State.onPtp_eq, State.withTime_time, TimeUnit.setPtp_dom]

@[simp] theorem State.onPtp_ptp : (s.onPtp d f).time.ptp d = f (s.time.ptp d) := by
  rw [State.onPtp_eq, State.withTime_time, TimeUnit.setPtp_ptp]

@[simp] theorem State.onPtp_regsWf : (s.onPtp d f).regsWf = s.regsWf := by rw [State.onPtp_eq, State.withTime_regsWf]

@[simp] theorem State.onPtp_get (b : Nat) (g : Field) : (s.onPtp d f).get b g = s.get b g := by
  rw [State.onPtp_eq]
  unfold State.get
  rw [State.withTime_rd]

@[simp] theorem State.onPtp_tqOf (e : Dom) : (s.onPtp d f).tqOf e = s.tqOf e := s.onPtp_get ..

/-- The loss of a source takes a LOCKED domain to HOLDOVER, and its client has no valid master. -/
theorem State.lostSource_of_locked (h : s.tqOf d = 2) :
    s.lostSource d = (s.onPtp d fun p => { p with good := 0, bad := 0, valid := false }).setTq d 3 :=
  if_pos ((State.onPtp_tqOf ..).trans h)

end Sys2Proof.Machine
end

section
/-! O14: the state of time quality of a domain, and the marks of its minute (R155, R274). -/

namespace Sys2Proof.Machine

variable {s : State} {d : Dom} {w : Writer} {v : Word}

/-! ## STATE written -/

/-- What the host's word writes beside STATE: SRC, and the flags that it clears. -/
def State.hostTq (s : State) (d : Dom) (v : Word) : State :=
  let s := if bitSet v 2 then s.putFlag (tdAdr d) Fl.TD_WD_EXP false else s
  let s := if bitSet v 3 then s.putFlag (tdAdr d) Fl.TD_HOLD_EXP false else s
  s.put (tdAdr d) Fl.TD_SRC (getBits v 16 3)

theorem State.hostTq_timeWrites (s : State) (d : Dom) (v : Word) :
    TimeWrites (tdAdr d) [Fl.TD_WD_EXP, Fl.TD_HOLD_EXP, Fl.TD_SRC] s (s.hostTq d v) := by
  have kWd := ite_timeWrites (c := bitSet v 2 = true) (s.putFlag_timeWrites (tdAdr d) Fl.TD_WD_EXP false) .rfl
  exact (kWd.trans (ite_timeWrites (State.putFlag_timeWrites ..) .rfl)).trans (State.put_timeWrites ..)

theorem State.hostTq_time (s : State) (d : Dom) (v : Word) : (s.hostTq d v).time = s.time := by
  unfold State.hostTq
  dsimp only
  rw [State.put_time]
  split <;> split <;> rfl

theorem State.hostTq_src (h : s.regsWf = true) (d : Dom) (v : Word) : (s.hostTq d v).get (tdAdr d) Fl.TD_SRC = getBits v 16 3 := by
  have kWd := ite_timeWrites (c := bitSet v 2 = true) (s.putFlag_timeWrites (tdAdr d) Fl.TD_WD_EXP false) .rfl
  exact State.get_put_of_lt ((kWd.trans (ite_timeWrites (State.putFlag_timeWrites ..) .rfl)).wf h) _ _ _ (by decide) (getBits_lt ..)

/-- The word's SRC and flags where the host writes it, before STATE. -/
def State.tqWord (s : State) (d : Dom) (w : Writer) (v : Word) : State := if w = .host ∧ s.bridgeOn then s.hostTq d v else s

theorem State.tqWord_timeWrites (s : State) (d : Dom) (w : Writer) (v : Word) :
    TimeWrites (tdAdr d) [Fl.TD_WD_EXP, Fl.TD_HOLD_EXP, Fl.TD_SRC] s (s.tqWord d w v) :=
  ite_timeWrites (s.hostTq_timeWrites d v) .rfl

theorem State.tqWord_time (s : State) (d : Dom) (w : Writer) (v : Word) : (s.tqWord d w v).time = s.time := by
  unfold State.tqWord
  split
  · exact s.hostTq_time d v
  · rfl

theorem State.bridgeOn_of_mayWrite (may : s.mayWrite d .host = true) : s.bridgeOn = true := by
  unfold State.mayWrite at may
  exact (Bool.and_eq_true _ _ ▸ may).1

theorem tqState_of_mayWrite (may : s.mayWrite d w = true) : tqState d w v s
    = ((s.tqWord d w v).onDom d fun x => { x with servoTick := (s.tqWord d w v).tick }).setTq d (getBits v 0 2) := if_pos may

theorem tqState_of_not_mayWrite (may : s.mayWrite d w = false) : tqState d w v s = s.tqWord d w v := if_neg (by simp [may])

/-! ## The minute -/

/-- The marks with which a domain in state `tq` begins a minute. -/
def Domain.newMinute (x : Domain) (tq : Nat) : Domain := { x with held := 2 ^ tq, sets := 0, maxOfs := 0 }

/-- The minute's entry of a domain, and its marks begun anew. -/
def State.minuteOf (s : State) (d : Dom) : State :=
  let u := s.logInvol (some 3) 0x0070 (bodyOf [(0, 1, domIx d), (1, 1, (s.time.dom d).held), (2, 1, s.get (tdAdr d) Fl.TD_SRC),
    (3, 1, min 255 (s.time.dom d).sets), (4, 4, (s.time.dom d).maxOfs)])
  u.onDom d fun x => x.newMinute (u.tqOf d)

theorem State.minuteOf_spec (h : s.regsWf = true) (d : Dom) : (s.minuteOf d).regsWf = true ∧ (s.minuteOf d).tick = s.tick
    ∧ (∀ a, quiet a = true → (s.minuteOf d).rd a = s.rd a)
    ∧ (s.minuteOf d).time = s.time.setDom d ((s.time.dom d).newMinute (s.tqOf d)) := by
  unfold State.minuteOf
  extract_lets u
  have k : Reports s u := State.logInvol_reports .rfl ..
  have tq : u.tqOf d = s.tqOf d := k.get h _ _ (by cases d <;> decide)
  refine ⟨k.wf h, k.tick, k.rd h, ?_⟩
  rw [tq, State.onDom]
  dsimp only
  rw [k.time]

theorem timeMinute_of_due (hg : s.gwqRuns = true) (hdue : s.time.minuteTick + 37500000000 ≤ s.tick) : timeMinute s
    = ((s.minuteOf .A).minuteOf .B).withTime
        { ((s.minuteOf .A).minuteOf .B).time with minuteTick := ((s.minuteOf .A).minuteOf .B).tick } := if_pos ⟨hg, hdue⟩

/-- At the end of a minute both domains' marks begin anew, each by its own state (R274). -/
theorem timeMinute_spec (h : s.regsWf = true) (hg : s.gwqRuns = true) (hdue : s.time.minuteTick + 37500000000 ≤ s.tick) :
    (timeMinute s).time.minuteTick = s.tick ∧ (∀ a, quiet a = true → (timeMinute s).rd a = s.rd a)
    ∧ ∀ d, (timeMinute s).time.dom d = (s.time.dom d).newMinute (s.tqOf d) := by
  obtain ⟨wfA, tickA, rdA, timeA⟩ := s.minuteOf_spec h .A
  obtain ⟨-, tickB, rdB, timeB⟩ := (s.minuteOf .A).minuteOf_spec wfA .B
  have tqB : (s.minuteOf .A).tqOf .B = s.tqOf .B := by
    unfold State.tqOf State.get
    rw [rdA _ (by decide)]
  rw [tqB, timeA] at timeB
  rw [timeMinute_of_due hg hdue]
  refine ⟨?_, fun a ha => ?_, fun d => ?_⟩
  · rw [State.withTime_time, tickB, tickA]
  · rw [State.withTime_rd, rdB a ha, rdA a ha]
  · rw [State.withTime_time, timeB]
    cases d <;> rfl

/-- Settles O14, clause by clause: every change of state is a state taken, which leaves what the domain counts. -/
theorem timeQualityMovesByItsRules : Obligations.TimeQualityMovesByItsRules := by
  unfold Obligations.TimeQualityMovesByItsRules
  intro s d h
  refine ⟨fun w v may => ⟨_, congrArg Host.Outcome.next (tqState_of_mayWrite may), ?written⟩,
    fun v on may => ⟨_, congrArg Host.Outcome.next (tqState_of_not_mayWrite may), ?ignored⟩,
    fun locked on due => ⟨_, congrArg Host.Outcome.next (if_pos ⟨locked, on, due⟩), ?watchdog⟩,
    fun held on due => ⟨_, congrArg Host.Outcome.next (if_pos ⟨held, on, due⟩), ?holdMax⟩,
    fun may locked => ⟨_, congrArg Host.Outcome.next (if_pos may), ?lost⟩,
    fun runs due => ⟨timeMinute s, rfl, ?minute⟩⟩
  case written =>
    have k := s.tqWord_timeWrites d w v
    have hk : ((s.tqWord d w v).onDom d fun x => { x with servoTick := (s.tqWord d w v).tick }).regsWf = true := k.wf h
    refine ⟨State.setTq_tqOf hk d (getBits_lt ..), ?_, ?_, ?_, ?_⟩
    · rintro rfl
      rw [State.setTq_get hk d _ _ (by decide) (by decide), State.onDom_get, State.tqWord,
        if_pos ⟨rfl, State.bridgeOn_of_mayWrite may⟩, State.hostTq_src h]
    · rintro rfl
      rw [State.setTq_get hk d _ _ (by decide) (by decide), State.onDom_get, State.tqWord, if_neg (by simp)]
    · rw [State.setTq_dom, State.onDom_dom_same, ← k.tick]
      rfl
    · rw [State.setTq_dom, State.onDom_dom_same, State.tqWord_time]
      rfl
  case ignored =>
    have k := s.hostTq_timeWrites d v
    have word : s.tqWord d .host v = s.hostTq d v := if_pos ⟨rfl, on⟩
    rw [word]
    exact ⟨k.get h _ (by decide), State.hostTq_src h d v, s.hostTq_time d v,
      fun a ne => k.rd h a (by simpa [Fl.TD_WD_EXP, Fl.TD_HOLD_EXP, Fl.TD_SRC] using ne)⟩
  case watchdog =>
    have k := s.putFlag_timeWrites (tdAdr d) Fl.TD_WD_EXP true
    have tq : (s.putFlag (tdAdr d) Fl.TD_WD_EXP true).tqOf d = 2 := (k.get h _ (by decide)).trans locked
    refine ⟨State.setTq_tqOf (k.wf h) d (by decide), ?_, ?_, ?_⟩
    · unfold State.flag
      rw [State.setTq_get (k.wf h) d _ _ (by decide) (by decide)]
      exact State.flag_putFlag_same _ _ _ (by decide) (by decide) h
    · rw [State.setTq_dom]
      rfl
    · rw [State.setTq_dom, tq]
      rfl
  case holdMax =>
    have k := s.putFlag_timeWrites (tdAdr d) Fl.TD_HOLD_EXP true
    refine ⟨State.setTq_tqOf (k.wf h) d (by decide), ?_, ?_⟩
    · unfold State.flag
      rw [State.setTq_get (k.wf h) d _ _ (by decide) (by decide)]
      exact State.flag_putFlag_same _ _ _ (by decide) (by decide) h
    · rw [State.setTq_dom]
      rfl
  case lost =>
    have hk : (s.onPtp d fun p => { p with good := 0, bad := 0, valid := false }).regsWf = true := by rwa [State.onPtp_regsWf]
    have locked' : (s.onPtp d fun p => { p with good := 0, bad := 0, valid := false }).tqOf d = 2 := by rwa [State.onPtp_tqOf]
    rw [State.lostSource_of_locked _ _ locked]
    refine ⟨State.setTq_tqOf hk d (by decide), ?_, ?_⟩
    · rw [State.setTq_ptp, State.onPtp_ptp]
    · rw [State.setTq_dom, State.onPtp_dom]
      rfl
  case minute =>
    obtain ⟨tick, rd, dom⟩ := timeMinute_spec h runs due
    refine ⟨tick, ?_, ?_, ?_, rd, ?_⟩ <;> rw [dom] <;> rfl

end Sys2Proof.Machine
end

section
/-! SUPPORT. The FIFO of a capture unit and the registers that show it (R164). -/

namespace Sys2Proof.Machine

variable {s t : State} {n : Nat}

/-- The FIFO of unit `n` replaced. -/
def State.withCaps (s : State) (n : Nat) (es : List CapEntry) : State :=
  s.withTime { s.time with caps := SMap.insert s.time.caps n es }

theorem State.withCaps_caps_same (s : State) (n : Nat) (es : List CapEntry) : (s.withCaps n es).caps n = es :=
  SMap.find_insert_same _ _ _ _

theorem State.withCaps_caps_other (s : State) {n m : Nat} (hm : m ≠ n) (es : List CapEntry) : (s.withCaps n es).caps m = s.caps m :=
  SMap.find_insert_other _ _ _ _ _ hm

/-- The words of the head entry. -/
def State.showHead (s : State) (n : Nat) (x : CapEntry) : State :=
  let b := Adr.CAP n
  let s := (s.putPair b Fl.CAP_TICK_LO Fl.CAP_TICK_HI x.tick).put b Fl.CAP_NS32_A x.ns32A
  ((s.put b Fl.CAP_NS32_B x.ns32B).put b Fl.CAP_FRAC8_A x.frac8A).put b Fl.CAP_FRAC8_B x.frac8B

theorem State.showHead_timeWrites (s : State) (n : Nat) (x : CapEntry) : TimeWrites (Adr.CAP n)
    [Fl.CAP_TICK_LO, Fl.CAP_TICK_HI, Fl.CAP_NS32_A, Fl.CAP_NS32_B, Fl.CAP_FRAC8_A, Fl.CAP_FRAC8_B] s (s.showHead n x) :=
  ((((s.putPair_timeWrites ..).trans (State.put_timeWrites ..)).trans (State.put_timeWrites ..)).trans
    (State.put_timeWrites ..)).trans (State.put_timeWrites ..)

/-- The fields that show a FIFO. -/
def capShown : List Field :=
  [Fl.CAP_LEVEL, Fl.CAP_TICK_LO, Fl.CAP_TICK_HI, Fl.CAP_NS32_A, Fl.CAP_NS32_B, Fl.CAP_FRAC8_A, Fl.CAP_FRAC8_B, Fl.CAP_VALID]

/-- The fields that show a FIFO lie in the six words of its unit. -/
theorem capShown_off {f : Field} (hf : f ∈ capShown) : f.off < 0x18 :=
  of_decide_eq_true (List.all_eq_true.mp (show capShown.all (fun f => decide (f.off < 0x18)) = true by decide) f hf)

theorem State.showCap_timeWrites (s : State) (n : Nat) : TimeWrites (Adr.CAP n) capShown s (s.showCap n) :=
  ((s.put_timeWrites ..).trans (State.showHead_timeWrites ..)).trans (State.putFlag_timeWrites ..)

theorem State.showCap_time (s : State) (n : Nat) : (s.showCap n).time = s.time := by
  unfold State.showCap
  simp only [State.putFlag_time, State.put_time, State.putPair_time]

theorem State.showCap_level (h : s.regsWf = true) (n : Nat) : (s.showCap n).get (Adr.CAP n) Fl.CAP_LEVEL = (s.caps n).length % 8 := by
  have kLevel := s.put_timeWrites (Adr.CAP n) Fl.CAP_LEVEL (s.caps n).length
  have kRest := (State.showHead_timeWrites (s.put (Adr.CAP n) Fl.CAP_LEVEL (s.caps n).length) n
    ((s.caps n).headD ⟨0, 0, 0, 0, 0⟩)).trans (State.putFlag_timeWrites _ _ Fl.CAP_VALID (!(s.caps n).isEmpty))
  exact (kRest.get (kLevel.wf h) _ (by decide)).trans (State.get_put_same _ _ _ (by decide) h)

theorem State.showCap_valid (h : s.regsWf = true) (n : Nat) :
    (s.showCap n).flag (Adr.CAP n) Fl.CAP_VALID = !(s.caps n).isEmpty :=
  State.flag_putFlag_same _ _ _ (by decide) (by decide)
    (((s.put_timeWrites ..).trans (State.showHead_timeWrites ..)).wf h)

/-- The FIFO of unit `n` replaced, and shown. -/
def State.putCaps (s : State) (n : Nat) (es : List CapEntry) : State := (s.withCaps n es).showCap n

theorem State.putCaps_timeWrites (s : State) (n : Nat) (es : List CapEntry) : TimeWrites (Adr.CAP n) capShown s (s.putCaps n es) :=
  (State.withTime_timeWrites ..).trans (State.showCap_timeWrites ..)

theorem State.putCaps_time (s : State) (n : Nat) (es : List CapEntry) :
    (s.putCaps n es).time = { s.time with caps := SMap.insert s.time.caps n es } := (s.withCaps n es).showCap_time n

theorem State.putCaps_caps (s : State) (n m : Nat) (es : List CapEntry) : (s.putCaps n es).caps m = (s.withCaps n es).caps m := by
  unfold State.caps State.putCaps
  rw [State.showCap_time]

theorem State.putCaps_caps_same (s : State) (n : Nat) (es : List CapEntry) : (s.putCaps n es).caps n = es :=
  (s.putCaps_caps n n es).trans (s.withCaps_caps_same n es)

theorem State.putCaps_caps_other (s : State) {n m : Nat} (hm : m ≠ n) (es : List CapEntry) : (s.putCaps n es).caps m = s.caps m :=
  (s.putCaps_caps n m es).trans (s.withCaps_caps_other hm es)

theorem State.putCaps_level (h : s.regsWf = true) (n : Nat) (es : List CapEntry) :
    (s.putCaps n es).get (Adr.CAP n) Fl.CAP_LEVEL = es.length % 8 :=
  (State.showCap_level (s := s.withCaps n es) h n).trans (by rw [State.withCaps_caps_same])

theorem State.putCaps_valid (h : s.regsWf = true) (n : Nat) (es : List CapEntry) :
    (s.putCaps n es).flag (Adr.CAP n) Fl.CAP_VALID = !es.isEmpty :=
  (State.showCap_valid (s := s.withCaps n es) h n).trans (by rw [State.withCaps_caps_same])

/-- What shows a FIFO are words of its unit. -/
theorem State.putCaps_rd (h : s.regsWf = true) (n : Nat) (es : List CapEntry) (a : Nat) (ha : a < Adr.CAP n ∨ Adr.CAP n + 0x18 ≤ a) :
    (s.putCaps n es).rd a = s.rd a :=
  (s.putCaps_timeWrites n es).rd h a fun f hf => by have := capShown_off hf; omega

/-! ## An event captured -/

/-- The entry of an event `k` sixteenths into this tick. -/
def State.capEntry (s : State) (k : Nat) : CapEntry :=
  ⟨s.tick, (s.time.a.sub k).ns32, (s.time.b.sub k).ns32, (s.time.a.sub k).frac8, (s.time.b.sub k).frac8⟩

theorem State.pushCap_of_room (h : (s.caps n).length < 4) (k : Nat) : s.pushCap n k = s.putCaps n (s.caps n ++ [s.capEntry k]) :=
  if_neg (by omega)

theorem State.pushCap_of_full (h : 4 ≤ (s.caps n).length) (k : Nat) : s.pushCap n k = s.count (Adr.CAP n) Fl.CAP_OVF 1 := if_pos h

/-- An event writes fields of its unit, the first that of OVF. -/
theorem State.pushCap_timeWrites (s : State) (n k : Nat) : TimeWrites (Adr.CAP n) (Fl.CAP_OVF :: capShown) s (s.pushCap n k) := by
  rcases Nat.lt_or_ge (s.caps n).length 4 with room | full
  · rw [State.pushCap_of_room room]
    exact (s.putCaps_timeWrites ..).mono (List.subset_cons_self ..)
  · rw [State.pushCap_of_full full]
    exact (s.count_timeWrites ..).mono (by decide)

/-- Of the time unit an event changes the FIFOs alone. -/
theorem State.pushCap_time (s : State) (n k : Nat) : (s.pushCap n k).time = { s.time with caps := (s.pushCap n k).time.caps } := by
  rcases Nat.lt_or_ge (s.caps n).length 4 with room | full
  · rw [State.pushCap_of_room room, State.putCaps_time]
  · rw [State.pushCap_of_full full, State.count_time]

theorem State.pushCap_rd (h : s.regsWf = true) (n k : Nat) (a : Nat) (ha : a < Adr.CAP n ∨ Adr.CAP n + 0x18 ≤ a) :
    (s.pushCap n k).rd a = s.rd a := by
  refine (s.pushCap_timeWrites n k).rd h a fun f hf => ?_
  rcases List.mem_cons.mp hf with rfl | hf
  · simp only [Fl.CAP_OVF]
    omega
  · have := capShown_off hf
    omega

/-- The words of the capture units are none of the clock's. -/
theorem State.pushCap_sameClock (s : State) (n k : Nat) : SameClock s (s.pushCap n k) where
  tick := (s.pushCap_timeWrites n k).tick
  a := by rw [State.pushCap_time]
  b := by rw [State.pushCap_time]
  snap := by rw [State.pushCap_time]
  wf := (s.pushCap_timeWrites n k).wf
  rd := fun w a ha => State.pushCap_rd w n k a (by
    unfold clockReg at ha
    simp only [Bool.and_eq_true, decide_eq_true_eq] at ha
    unfold Adr.CAP
    omega)

/-- An event enters its unit's FIFO, or is counted where four entries wait. -/
theorem State.pushCap_captured (h : s.regsWf = true) (n k : Nat) : EdgeCaptured s (s.pushCap n k) n k := by
  unfold EdgeCaptured
  dsimp only
  split
  case isTrue room => rw [State.pushCap_of_room room, State.putCaps_caps_same]; rfl
  case isFalse full =>
    rw [State.pushCap_of_full (by omega)]
    exact ⟨rfl, State.get_count_same h _ _ _ (by decide)⟩

end Sys2Proof.Machine
end

section
/-! SUPPORT. The request of a domain switch, and the switch (R154). -/

namespace Sys2Proof.Machine

variable {s t : State} {n : Nat}

/-! ## The request -/

theorem strobeAt_spec (t : Nat) : strobeAt t % 5 = 0 ∧ t ≤ strobeAt t := by
  unfold strobeAt
  omega

/-- The tick from which on the strobe of a switch is looked for. -/
def State.switchFrom (s : State) : Nat :=
  let x := s.time.dom (otherDom s.sdom)
  let t := s.tick + 625
  let t := match x.lastSet with | some l => max t (l + 625000) | none => t
  if x.setPend.isSome then max t (s.tick + 625001) else t

theorem State.switchFrom_spec (s : State) : s.tick + 625 ≤ s.switchFrom
    ∧ ∀ l, (s.time.dom (otherDom s.sdom)).lastSet = some l → l + 625000 ≤ s.switchFrom := by
  unfold State.switchFrom
  cases hl : (s.time.dom (otherDom s.sdom)).lastSet with
  | none =>
    simp only [hl]
    refine ⟨?_, fun l e => nomatch e⟩
    split <;> omega
  | some l =>
    simp only [hl]
    refine ⟨?_, fun l' e => ?_⟩
    · split <;> omega
    · cases e
      split <;> omega

theorem State.requestSwitch_of_none (h : s.time.switchAt = none) : s.requestSwitch
    = (s.withTime { s.time with switchAt := some (strobeAt s.switchFrom) }).putFlag Adr.TIME_CTL Fl.TIME_CTL_SW_PEND true :=
  if_neg (by simp [h])

theorem State.requestSwitch_of_some (h : s.time.switchAt = some n) : s.requestSwitch = s := if_pos (by simp [h])

/-! ## The switch -/

/-- A pair of words reads as the low 64 bits of what is written. -/
theorem State.getPair_putPair_mod (h : s.regsWf = true) (b : Nat) (lo hi : Field) (n : Nat) (hl : lo.lo = 0 ∧ lo.width = 32)
    (hh : hi.lo = 0 ∧ hi.width = 32) (hne : lo.apart hi = true) : (s.putPair b lo hi n).getPair b lo hi = n % 2 ^ 64 := by
  have hLo := State.put_regsWf b lo n h
  unfold State.getPair State.putPair
  rw [State.get_put_apart hLo _ _ _ _ hne, State.get_put_same _ _ _ (by omega) h, State.get_put_same _ _ _ (by omega) hLo, hl.2, hh.2]
  omega

/-- The difference of the domains at the switch, in 1/256 ns, held to the 32 bits of OFS. -/
def State.switchOfs (s : State) : Nat :=
  let x := s.time.dom s.sdom
  let y := s.time.dom (otherDom s.sdom)
  wrap 32 (clampInt (-2147483648) 2147483647 ((256 * ((y.total : Int) - x.total)) + ((y.frac : Int) - x.frac) / (2 ^ 24 : Nat)))

/-- TIME_CTL once the other domain stamps. -/
def State.switchCtl (s : State) : State :=
  ((s.putFlag Adr.TIME_CTL Fl.TIME_CTL_STAMP_DOM (domIx (otherDom s.sdom) == 1)).putFlag Adr.TIME_CTL Fl.TIME_CTL_SW_PEND false).count
    Adr.TIME_CTL Fl.TIME_CTL_SW_COUNT 1

/-- TIME_DSW of a switch to `d` at this tick. -/
def State.switchDsw (s : State) (ofs : Nat) (d : Dom) : State :=
  ((s.putPair Adr.TIME_DSW Fl.TIME_DSW_TICK_LO Fl.TIME_DSW_TICK_HI s.tick).put Adr.TIME_DSW Fl.TIME_DSW_OFS ofs).put
    Adr.TIME_DSW Fl.TIME_DSW_TO (domIx d)

/-- The time unit once `old` no longer stamps. -/
def State.switchMarks (s : State) (old : Dom) : State :=
  (s.withTime { s.time with switchAt := none, anchorOwed := some s.tick }).onDom old fun x => { x with stampEnd := some s.tick }

/-- The sources of HOLDOVER and FREE follow domain `d`, and the switch is logged. -/
def State.switchReports (s : State) (ofs : Nat) (d : Dom) : State :=
  let u := s.putFlag (Adr.FLT_SRC 0xB1) Fl.FLT_SRC_ACTIVE (s.tqOf d == 3)
  let u := u.putFlag (Adr.FLT_SRC 0xB2) Fl.FLT_SRC_ACTIVE (u.tqOf d == 0)
  if u.boot.gwq then u.logInvol (some 4) 0x0071 (bodyOf [(0, 1, domIx d), (4, 4, ofs), (8, 8, u.tick)]) else u

/-- TIME_CTL and TIME_DSW once the other domain stamps. -/
def State.switchShown (s : State) : State := s.switchCtl.switchDsw s.switchOfs (otherDom s.sdom)

/-- What the switch to `d` is followed by, once TIME_CTL and TIME_DSW show it: its capture, the marks and the reports. -/
def State.switchRest (s : State) (ofs : Nat) (old d : Dom) : State := ((s.pushCap 8 0).switchMarks old).switchReports ofs d

theorem domainSwitch_of_early (h : s.time.switchAt = some n) (hn : s.tick < n) : domainSwitch s = s := by
  unfold domainSwitch
  rw [h]
  exact if_pos hn

theorem domainSwitch_of_due (h : s.time.switchAt = some n) (hn : n ≤ s.tick) : domainSwitch s
    = s.switchShown.switchRest s.switchOfs s.sdom (otherDom s.sdom) := by
  unfold domainSwitch
  rw [h]
  exact if_neg (by omega)

theorem State.switchCtl_timeWrites (s : State) : TimeWrites Adr.TIME_CTL
    [Fl.TIME_CTL_STAMP_DOM, Fl.TIME_CTL_SW_PEND, Fl.TIME_CTL_SW_COUNT] s s.switchCtl :=
  ((s.putFlag_timeWrites ..).trans (State.putFlag_timeWrites ..)).trans (State.count_timeWrites ..)

theorem State.switchDsw_timeWrites (s : State) (ofs : Nat) (d : Dom) : TimeWrites Adr.TIME_DSW
    [Fl.TIME_DSW_TICK_LO, Fl.TIME_DSW_TICK_HI, Fl.TIME_DSW_OFS, Fl.TIME_DSW_TO] s (s.switchDsw ofs d) :=
  ((s.putPair_timeWrites ..).trans (State.put_timeWrites ..)).trans (State.put_timeWrites ..)

theorem ixDom_domIx (d : Dom) : ixDom (domIx d) = d := by cases d <;> rfl

/-- The words of TIME_CTL behind a switch. -/
theorem State.switchCtl_spec (h : s.regsWf = true) : s.switchCtl.sdom = otherDom s.sdom
    ∧ s.switchCtl.flag Adr.TIME_CTL Fl.TIME_CTL_SW_PEND = false
    ∧ s.switchCtl.get Adr.TIME_CTL Fl.TIME_CTL_SW_COUNT = min 65535 (s.get Adr.TIME_CTL Fl.TIME_CTL_SW_COUNT + 1) := by
  have kDom := s.putFlag_timeWrites Adr.TIME_CTL Fl.TIME_CTL_STAMP_DOM (domIx (otherDom s.sdom) == 1)
  have hDom := kDom.wf h
  have kPend := State.putFlag_timeWrites (s.putFlag Adr.TIME_CTL Fl.TIME_CTL_STAMP_DOM (domIx (otherDom s.sdom) == 1))
    Adr.TIME_CTL Fl.TIME_CTL_SW_PEND false
  have hPend := kPend.wf hDom
  have kCount := State.count_timeWrites ((s.putFlag Adr.TIME_CTL Fl.TIME_CTL_STAMP_DOM (domIx (otherDom s.sdom) == 1)).putFlag
    Adr.TIME_CTL Fl.TIME_CTL_SW_PEND false) Adr.TIME_CTL Fl.TIME_CTL_SW_COUNT 1
  refine ⟨?_, ?_, ?_⟩
  · have written : s.switchCtl.get Adr.TIME_CTL Fl.TIME_CTL_STAMP_DOM = domIx (otherDom s.sdom) := by
      refine ((kPend.trans kCount).get hDom _ (by decide)).trans ((State.get_put_same _ _ _ (by decide) h).trans ?_)
      cases s.sdom <;> rfl
    rw [State.sdom, written, ixDom_domIx]
  · exact (kCount.flag hPend _ (by decide)).trans (State.flag_putFlag_same _ _ _ (by decide) (by decide) hDom)
  · refine (State.get_count_same hPend _ _ _ (by decide)).trans ?_
    rw [(kDom.trans kPend).get h _ (by decide)]
    rfl

theorem State.switchDsw_spec (h : s.regsWf = true) (ofs : Nat) (d : Dom) :
    (s.switchDsw ofs d).getPair Adr.TIME_DSW Fl.TIME_DSW_TICK_LO Fl.TIME_DSW_TICK_HI = s.tick % 2 ^ 64
    ∧ (s.switchDsw ofs d).get Adr.TIME_DSW Fl.TIME_DSW_TO = domIx d := by
  have kTick := s.putPair_timeWrites Adr.TIME_DSW Fl.TIME_DSW_TICK_LO Fl.TIME_DSW_TICK_HI s.tick
  have kOfs := State.put_timeWrites (s.putPair Adr.TIME_DSW Fl.TIME_DSW_TICK_LO Fl.TIME_DSW_TICK_HI s.tick) Adr.TIME_DSW Fl.TIME_DSW_OFS ofs
  refine ⟨?_, ?_⟩
  · exact ((kOfs.trans (State.put_timeWrites ..)).getPair (kTick.wf h) _ _ (by decide)).trans
      (State.getPair_putPair_mod h _ _ _ _ (by decide) (by decide) (by decide))
  · exact State.get_put_of_lt ((kTick.trans kOfs).wf h) _ _ _ (by decide) (by cases d <;> decide)

/-- In `v` TIME_CTL and TIME_DSW show the switch of `s`; what the domains count and their states are as in `s`. -/
structure SwitchShown (s v : State) : Prop where
  wf : v.regsWf = true
  tick : v.tick = s.tick
  time : v.time = s.time
  sdom : v.sdom = otherDom s.sdom
  pend : v.flag Adr.TIME_CTL Fl.TIME_CTL_SW_PEND = false
  count : v.get Adr.TIME_CTL Fl.TIME_CTL_SW_COUNT = min 65535 (s.get Adr.TIME_CTL Fl.TIME_CTL_SW_COUNT + 1)
  ticks : v.getPair Adr.TIME_DSW Fl.TIME_DSW_TICK_LO Fl.TIME_DSW_TICK_HI = s.tick % 2 ^ 64
  target : v.get Adr.TIME_DSW Fl.TIME_DSW_TO = domIx (otherDom s.sdom)
  tq : ∀ d, v.tqOf d = s.tqOf d

theorem State.switchShown_time (s : State) : s.switchShown.time = s.time := by
  unfold State.switchShown State.switchDsw State.switchCtl
  simp only [State.put_time, State.putPair_time, State.count_time, State.putFlag_time]

theorem State.switchShown_spec (h : s.regsWf = true) : SwitchShown s s.switchShown := by
  obtain ⟨sdom, pend, count⟩ := State.switchCtl_spec h
  have kCtl := s.switchCtl_timeWrites
  have kDsw := s.switchCtl.switchDsw_timeWrites s.switchOfs (otherDom s.sdom)
  obtain ⟨ticks, target⟩ := State.switchDsw_spec (kCtl.wf h) s.switchOfs (otherDom s.sdom)
  have get : ∀ (b : Nat) (f : Field), b + f.off < Adr.TIME_DSW ∨ Adr.TIME_DSW + 0x10 ≤ b + f.off →
      s.switchShown.get b f = s.switchCtl.get b f := fun b f hb =>
    kDsw.get_other (kCtl.wf h) b f (by simp [Fl.TIME_DSW_TICK_LO, Fl.TIME_DSW_TICK_HI, Fl.TIME_DSW_OFS, Fl.TIME_DSW_TO]; omega)
  refine ⟨kDsw.wf (kCtl.wf h), kDsw.tick.trans kCtl.tick, s.switchShown_time, ?_, ?_, ?_, ?_, target, fun d => ?_⟩
  · rw [State.sdom, get _ _ (by decide)]
    exact sdom
  · rw [State.flag, get _ _ (by decide)]
    exact pend
  · rw [get _ _ (by decide), count]
  · rw [kCtl.tick] at ticks
    exact ticks
  · rw [State.tqOf, get _ _ (by cases d <;> decide)]
    exact kCtl.get_other h _ _ (by cases d <;> decide)

theorem State.switchReports_sameClock (s : State) (ofs : Nat) (d : Dom) : SameClock s (s.switchReports ofs d) := by
  have k := State.putFlag_sameClock (State.putFlag_sameClock (.rfl (s := s)) (Adr.FLT_SRC 0xB1) Fl.FLT_SRC_ACTIVE (s.tqOf d == 3) (by decide))
    (Adr.FLT_SRC 0xB2) Fl.FLT_SRC_ACTIVE ((s.putFlag (Adr.FLT_SRC 0xB1) Fl.FLT_SRC_ACTIVE (s.tqOf d == 3)).tqOf d == 0) (by decide)
  exact ite_sameClock (k.reports (State.logInvol_reports .rfl ..)) k

theorem State.switchReports_time (s : State) (ofs : Nat) (d : Dom) : (s.switchReports ofs d).time = s.time :=
  ite_time (State.logInvol_reports .rfl ..).time rfl

theorem State.switchRest_rd (h : s.regsWf = true) (ofs : Nat) (old d : Dom) (k : Nat) (hk : clockReg k = true) :
    (s.switchRest ofs old d).rd k = s.rd k := by
  have kCap := s.pushCap_sameClock 8 0
  exact ((State.switchReports_sameClock ((s.pushCap 8 0).switchMarks old) ofs d).rd (kCap.wf h) k hk).trans (kCap.rd h k hk)

theorem State.switchRest_get (h : s.regsWf = true) (ofs : Nat) (old d : Dom) (b : Nat) (f : Field) (hb : clockReg (b + f.off) = true) :
    (s.switchRest ofs old d).get b f = s.get b f := by
  unfold State.get
  rw [State.switchRest_rd h ofs old d _ hb]

/-- The domain that no longer stamps, as the switch leaves it. -/
theorem State.switchRest_dom (s : State) (ofs : Nat) (old d e : Dom) : (s.switchRest ofs old d).time.dom e
    = if e = old then { s.time.dom e with stampEnd := some s.tick } else s.time.dom e := by
  have kCap := s.pushCap_sameClock 8 0
  rw [State.switchRest, State.switchReports_time, State.switchMarks]
  cases old <;> cases e <;> simp [State.onDom, TimeUnit.setDom, TimeUnit.dom, kCap.a, kCap.b, kCap.tick]

theorem State.switchRest_switchAt (s : State) (ofs : Nat) (old d : Dom) : (s.switchRest ofs old d).time.switchAt = none
    ∧ (s.switchRest ofs old d).time.anchorOwed = some s.tick := by
  rw [State.switchRest, State.switchReports_time, ← (s.pushCap_sameClock 8 0).tick]
  cases old <;> exact ⟨rfl, rfl⟩

end Sys2Proof.Machine
end

section
/-! O13: snapshots and reads of the time, and the switch of the stamping domain (R151, R154). -/

namespace Sys2Proof.Machine

variable {s : State} {n : Nat}

/-- The word that a read of TIME_RD latches is that of the tick, whatever the read answers. -/
theorem timeRdRead_of_viewOn {view : Nat} (on : s.viewOn view = true) : timeRdRead view s
    = ({ s with readData := s.now.ns32 } : State).latch view (Adr.TIME_RD + 4) (s.now.frac8 + 256 * domIx s.sdom + 512 * s.tq) := by
  have word : ∀ k, ({ s with readData := k } : State).frac8 + 256 * domIx ({ s with readData := k } : State).sdom
      + 512 * ({ s with readData := k } : State).tq = s.now.frac8 + 256 * domIx s.sdom + 512 * s.tq := fun _ => rfl
  unfold timeRdRead
  rw [if_pos on]
  dsimp only
  rw [word]
  rfl

/-- Settles O13: the request by the tick from which its strobe is looked for; the switch as the words of TIME_CTL and TIME_DSW, the
capture of its instant, and marks and reports that keep the clock. -/
theorem readingTimeAndSwitchingTheStampingDomain : Obligations.ReadingTimeAndSwitchingTheStampingDomain := by
  unfold Obligations.ReadingTimeAndSwitchingTheStampingDomain
  intro s h
  refine ⟨fun on => ⟨_, congrArg Host.Outcome.next (if_pos on), rfl, rfl, rfl, rfl, rfl⟩,
    fun view on => ⟨_, congrArg Host.Outcome.next (timeRdRead_of_viewOn on), rfl, rfl, rfl, rfl, rfl⟩,
    fun on idle => ?requested, fun n pends => congrArg Host.Outcome.next ?pending,
    fun n pends early => congrArg Host.Outcome.next (domainSwitch_of_early pends early),
    fun n pends due => ⟨_, congrArg Host.Outcome.next (domainSwitch_of_due pends due), ?switched⟩⟩
  case requested =>
    obtain ⟨strobe, reached⟩ := strobeAt_spec s.switchFrom
    obtain ⟨ahead, afterSet⟩ := s.switchFrom_spec
    have k := State.putFlag_timeWrites (s.withTime { s.time with switchAt := some (strobeAt s.switchFrom) })
      Adr.TIME_CTL Fl.TIME_CTL_SW_PEND true
    refine ⟨_, strobeAt s.switchFrom, congrArg Host.Outcome.next ((if_pos on).trans (State.requestSwitch_of_none idle)), rfl, strobe,
      ahead.trans reached, fun l e => (afterSet l e).trans reached, State.flag_putFlag_same _ _ _ (by decide) (by decide) h, ?_,
      fun a ne => k.rd h a (by simpa [Fl.TIME_CTL_SW_PEND] using ne)⟩
    exact congrArg ixDom (k.get h _ (by decide))
  case pending =>
    show (if s.bridgeOn then s.requestSwitch else s) = s
    rw [State.requestSwitch_of_some pends, ite_self]
  case switched =>
    have k := State.switchShown_spec h
    generalize s.switchShown = v at k
    have rest := State.switchRest_get k.wf s.switchOfs s.sdom (otherDom s.sdom)
    obtain ⟨switchAt, owed⟩ := v.switchRest_switchAt s.switchOfs s.sdom (otherDom s.sdom)
    have dom := v.switchRest_dom s.switchOfs s.sdom (otherDom s.sdom)
    rw [k.time, k.tick] at dom
    refine ⟨?_, ?_, ?_, ?_, ?_, switchAt, by rw [owed, k.tick], fun d => ⟨?_, ?_, ?_⟩, ?_⟩
    · rw [State.sdom, rest _ _ (by decide)]
      exact k.sdom
    · rw [State.flag, rest _ _ (by decide)]
      exact k.pend
    · rw [rest _ _ (by decide), k.count]
    · rw [State.getPair, rest _ _ (by decide), rest _ _ (by decide)]
      exact k.ticks
    · rw [rest _ _ (by decide), k.target]
    · rw [dom]
      split <;> rfl
    · rw [dom]
      split <;> rfl
    · rw [State.tqOf, rest _ _ (by cases d <;> decide)]
      exact k.tq d
    · rw [dom, if_pos rfl]

end Sys2Proof.Machine
end

section
/-! SUPPORT. The compare units: arming, firing and the next target of a periodic unit (R161 to R163). -/

namespace Sys2Proof.Machine

variable {s t : State} {n : Nat}

/-! ## Arming -/

/-- A write of the register at `a` writes no other. -/
theorem State.store_rd (h : s.regsWf = true) (a : Nat) (v : Word) {k : Nat} (hk : k ≠ a) : (s.store a v).rd k = s.rd k := by
  unfold State.store
  split
  · split
    · exact State.rd_wr_other _ _ _ hk h
    · rfl
  · rfl

theorem State.store_time (s : State) (a : Nat) (v : Word) : (s.store a v).time = s.time := by
  unfold State.store
  split
  · split <;> rfl
  · rfl

/-- A list of units with `n` in it just where `x` says so. -/
def withUnit (n : Nat) (x : Bool) (l : List Nat) : List Nat := (if x then [n] else []) ++ l.filter (· != n)

theorem mem_withUnit_same (n : Nat) (x : Bool) (l : List Nat) : n ∈ withUnit n x l ↔ x = true := by
  cases x <;> simp [withUnit]

theorem mem_withUnit_other {n m : Nat} (hm : m ≠ n) (x : Bool) (l : List Nat) : m ∈ withUnit n x l ↔ m ∈ l := by
  cases x <;> simp [withUnit, hm]

theorem cmpEn_of_owner (on : s.bridgeOn = true) (hlo : 24 ≤ n) (hhi : n < 32) (v : Word) : cmpEn n v s
    = (s.store (Adr.CMP n) v).withTime { (s.store (Adr.CMP n) v).time with
        armed := withUnit n (bitSet v 0) (s.store (Adr.CMP n) v).time.armed
        late := withUnit n (bitSet v 0 && (s.store (Adr.CMP n) v).cmpReached n) (s.store (Adr.CMP n) v).time.late } :=
  if_pos (by simp [on, hlo, hhi])

/-! ## Firing -/

/-- FIRED, and LATE where the firing is. -/
def State.showFired (s : State) (n : Nat) : State :=
  if s.time.late.contains n then (s.putFlag (Adr.CMP n) Fl.CMP_FIRED true).putFlag (Adr.CMP n) Fl.CMP_LATE true
  else s.putFlag (Adr.CMP n) Fl.CMP_FIRED true

/-- A unit fires again where it is periodic with a period (log 36). -/
def State.firesAgain (s : State) (n : Nat) : Bool := s.flag (Adr.CMP n) Fl.CMP_PERIODIC && s.get (Adr.CMP n) Fl.CMP_PERIOD != 0

/-- The time unit once unit `n` has fired. -/
def State.firedTime (s : State) (n : Nat) : TimeUnit :=
  { s.time with
    armed := if s.firesAgain n then s.time.armed else s.time.armed.filter (· != n)
    late := s.time.late.filter (· != n)
    pulses := if s.get (Adr.CMP n) Fl.CMP_OUT = 0 then s.time.pulses
              else s.time.pulses ++ [(n, s.get (Adr.CMP n) Fl.CMP_OUT, s.tick + max 1 (s.get (Adr.CMP n) Fl.CMP_WIDTH))] }

/-- EN of a unit that is not an owner's, and the next target. -/
def State.firedRegs (s : State) (n : Nat) (again : Bool) : State :=
  let s := if n < 24 then s.putFlag (Adr.CMP n) Fl.CMP_EN false else s
  if again then s.cmpNext n else s

/-- The events of a firing. -/
def State.firedEvents (s : State) (n : Nat) (late : Bool) : State :=
  let s := s.hubEvent 0x02 1
  if s.flag (Adr.CMP n) Fl.CMP_EVENT ∧ s.gwqRuns then s.postOwners 0x0020 (le 1 n ++ le 1 (b2n late)) else s

theorem cmpFired_of_reached (armed : n ∈ s.time.armed) (reached : s.cmpReached n = true) : cmpFired n s
    = ((((s.showFired n).withTime ((s.showFired n).firedTime n)).firedRegs n ((s.showFired n).firesAgain n)).firedEvents n
        (s.time.late.contains n)) := by
  unfold cmpFired
  rw [if_pos (by simp [armed, reached])]
  rfl

theorem State.showFired_timeWrites (s : State) (n : Nat) :
    TimeWrites (Adr.CMP n) [Fl.CMP_FIRED, Fl.CMP_LATE] s (s.showFired n) := by
  have k := s.putFlag_timeWrites (Adr.CMP n) Fl.CMP_FIRED true
  exact ite_timeWrites (k.trans (State.putFlag_timeWrites ..)) (k.mono (by decide))

theorem State.showFired_time (s : State) (n : Nat) : (s.showFired n).time = s.time := ite_time rfl rfl

theorem State.showFired_fired (h : s.regsWf = true) (n : Nat) : (s.showFired n).flag (Adr.CMP n) Fl.CMP_FIRED = true := by
  have fired : (s.putFlag (Adr.CMP n) Fl.CMP_FIRED true).flag (Adr.CMP n) Fl.CMP_FIRED = true :=
    State.flag_putFlag_same _ _ _ (by decide) (by decide) h
  unfold State.showFired
  split
  · exact ((State.putFlag_timeWrites ..).flag (State.putFlag_regsWf _ _ _ h) _ (by decide)).trans fired
  · exact fired

theorem State.showFired_late (h : s.regsWf = true) (late : n ∈ s.time.late) :
    (s.showFired n).flag (Adr.CMP n) Fl.CMP_LATE = true := by
  unfold State.showFired
  rw [if_pos (by simpa using late)]
  exact State.flag_putFlag_same _ _ _ (by decide) (by decide) (State.putFlag_regsWf _ _ _ h)

theorem State.showFired_firesAgain (h : s.regsWf = true) (n : Nat) : (s.showFired n).firesAgain n = s.firesAgain n := by
  have k := s.showFired_timeWrites n
  unfold State.firesAgain
  rw [k.flag h _ (by decide), k.get h _ (by decide)]

theorem State.showFired_firedTime (h : s.regsWf = true) (n : Nat) : (s.showFired n).firedTime n = s.firedTime n := by
  have k := s.showFired_timeWrites n
  unfold State.firedTime
  rw [State.showFired_firesAgain h, State.showFired_time, k.get h _ (by decide), k.get h _ (by decide), k.tick]

theorem State.cmpNext_timeWrites (s : State) (n : Nat) :
    TimeWrites (Adr.CMP n) [Fl.CMP_TGT_LO, Fl.CMP_TGT_HI, Fl.CMP_TGT_NS] s (s.cmpNext n) := by
  unfold State.cmpNext
  extract_lets b p now t t'
  cases s.cmpDom n with
  | none => exact (s.putPair_timeWrites ..).mono (by decide)
  | some d => exact (s.putPair_timeWrites ..).trans (State.put_timeWrites ..)

theorem State.cmpNext_time (s : State) (n : Nat) : (s.cmpNext n).time = s.time := by
  unfold State.cmpNext
  extract_lets b p now t t'
  cases s.cmpDom n with
  | none => exact State.putPair_time ..
  | some d => exact (State.put_time ..).trans (State.putPair_time ..)

theorem State.firedRegs_timeWrites (s : State) (n : Nat) (again : Bool) :
    TimeWrites (Adr.CMP n) [Fl.CMP_EN, Fl.CMP_TGT_LO, Fl.CMP_TGT_HI, Fl.CMP_TGT_NS] s (s.firedRegs n again) := by
  have kEn : TimeWrites (Adr.CMP n) [Fl.CMP_EN] s (if n < 24 then s.putFlag (Adr.CMP n) Fl.CMP_EN false else s) :=
    ite_timeWrites (s.putFlag_timeWrites ..) .rfl
  exact ite_timeWrites (kEn.trans (State.cmpNext_timeWrites ..)) (kEn.mono (by decide))

theorem State.firedRegs_time (s : State) (n : Nat) (again : Bool) : (s.firedRegs n again).time = s.time := by
  have kEn : (if n < 24 then s.putFlag (Adr.CMP n) Fl.CMP_EN false else s).time = s.time := ite_time (s.putFlag_time ..) rfl
  exact ite_time ((State.cmpNext_time ..).trans kEn) kEn

theorem State.firedEvents_reports (s : State) (n : Nat) (late : Bool) : Reports s (s.firedEvents n late) := by
  have k : Reports s (s.hubEvent 0x02 1) := State.hubEvent_reports .rfl ..
  exact ite_reports (State.postOwners_reports k ..) k

/-- The words of a compare unit are none that reports write. -/
theorem quiet_cmpUnit (hn : n < 32) {k : Nat} (hk : k < 0x20) : quiet (Adr.CMP n + k) = true := by
  unfold quiet Adr.CMP
  simp
  omega

/-- A firing, as the flags of its unit and the time unit show it. -/
theorem cmpFired_spec (h : s.regsWf = true) (hn : n < 32) (armed : n ∈ s.time.armed) (reached : s.cmpReached n = true) :
    (cmpFired n s).time = s.firedTime n ∧ (cmpFired n s).plan = s.plan
    ∧ (cmpFired n s).flag (Adr.CMP n) Fl.CMP_FIRED = true
    ∧ (n ∈ s.time.late → (cmpFired n s).flag (Adr.CMP n) Fl.CMP_LATE = true) := by
  have kShow := s.showFired_timeWrites n
  have fired := State.showFired_fired h n
  have late := State.showFired_late (n := n) h
  have hTime := State.showFired_firedTime h n
  rw [cmpFired_of_reached armed reached, hTime]
  generalize s.showFired n = u at *
  have kRegs := ((State.withTime_timeWrites u (s.firedTime n)).trans
    (State.firedRegs_timeWrites (u.withTime (s.firedTime n)) n (u.firesAgain n)))
  have hRegs : ((u.withTime (s.firedTime n)).firedRegs n (u.firesAgain n)).time = s.firedTime n := State.firedRegs_time ..
  generalize (u.withTime (s.firedTime n)).firedRegs n (u.firesAgain n) = v at *
  have kEvents := v.firedEvents_reports n (s.time.late.contains n)
  generalize v.firedEvents n (s.time.late.contains n) = w at *
  have flag : ∀ f : Field, f.off < 0x20 → [Fl.CMP_EN, Fl.CMP_TGT_LO, Fl.CMP_TGT_HI, Fl.CMP_TGT_NS].all f.apart = true →
      w.flag (Adr.CMP n) f = u.flag (Adr.CMP n) f := fun f hf hapart =>
    (congrArg (· != 0) (kEvents.get (kRegs.wf (kShow.wf h)) _ _ (quiet_cmpUnit hn hf))).trans (kRegs.flag (kShow.wf h) f hapart)
  refine ⟨kEvents.time.trans hRegs, ?_, ?_, fun hl => ?_⟩
  · exact kEvents.plan.trans (congrArg Ctl.plan (kRegs.ctl.trans kShow.ctl))
  · rw [flag _ (by decide) (by decide), fired]
  · rw [flag _ (by decide) (by decide), late hl]

theorem State.mem_firedTime_armed (armed : n ∈ s.time.armed) : n ∈ (s.firedTime n).armed ↔ s.firesAgain n = true := by
  unfold State.firedTime
  cases s.firesAgain n <;> simp [armed]

theorem State.not_mem_firedTime_late (s : State) (n : Nat) : n ∉ (s.firedTime n).late := by simp [State.firedTime]

theorem cmpFired_of_unarmed (h : n ∉ s.time.armed) : cmpFired n s = s := if_neg (by simp [h])

end Sys2Proof.Machine
end

section
/-! O16: the capture and the compare units (R161 to R164). -/

namespace Sys2Proof.Machine

variable {s : State} {n : Nat}

/-- The edges that EDGE selects: 0 rising, 1 falling, 2 both. -/
theorem tsInCapture_of_selected (hn : n < 4) (r : Bool) (sub : Nat)
    (he : s.get (Adr.CAP n) Fl.CAP_EDGE = (if r then 0 else 1) ∨ s.get (Adr.CAP n) Fl.CAP_EDGE = 2) :
    tsInCapture n r sub s = s.pushCap n (min sub 15) :=
  if_pos ⟨hn, by cases r <;> simp_all <;> omega⟩

theorem tsInCapture_of_other (r : Bool) (sub : Nat) (he : s.get (Adr.CAP n) Fl.CAP_EDGE = (if r then 1 else 0)) :
    tsInCapture n r sub s = s := if_neg (by cases r <;> simp_all)

/-- A read of word +0x14 answers the word and takes the head. -/
theorem capturePop_of_unit (on : s.bridgeOn = true) (hn : n < 9) : capturePop n s
    = ({ s with readData := (s.rd (Adr.CAP n + 0x14)).toNat } : State).putCaps n (s.caps n).tail :=
  if_pos (by simp [on, hn])

/-- Settles O16: edges and reads by what shows a FIFO; arming and firing by the lists of armed and late units. -/
theorem captureAndCompareUnits : Obligations.CaptureAndCompareUnits := by
  unfold Obligations.CaptureAndCompareUnits
  intro s n h
  refine ⟨fun r sub hn he room hsub => ⟨_, congrArg Host.Outcome.next (tsInCapture_of_selected hn r sub (.inl he)), ?taken⟩,
    fun r sub hn he full => ⟨_, congrArg Host.Outcome.next (tsInCapture_of_selected hn r sub (.inr he)), ?lost⟩,
    fun r sub he => congrArg Host.Outcome.next (tsInCapture_of_other r sub he),
    fun hn on => ⟨_, congrArg Host.Outcome.next (capturePop_of_unit on hn), ?read⟩,
    fun v hlo hhi on => ⟨_, congrArg Host.Outcome.next (cmpEn_of_owner on hlo hhi v), ?enabled⟩,
    fun hn armed reached => ⟨cmpFired n s, rfl, ?fired⟩,
    fun _ unarmed => congrArg Host.Outcome.next (cmpFired_of_unarmed unarmed),
    ⟨tsOutPulseEnd n s, rfl, rfl, rfl, fun p => ?_⟩⟩
  case taken =>
    have k := s.putCaps_timeWrites n (s.caps n ++ [s.capEntry sub])
    rw [Nat.min_eq_left (by omega), State.pushCap_of_room room]
    refine ⟨State.putCaps_caps_same .., ?_, ?_, k.get h _ (by decide), k.ctl, State.putCaps_rd h n _⟩
    · rw [State.putCaps_level h, List.length_append, List.length_singleton]
      omega
    · rw [State.putCaps_valid h]
      simp
  case lost =>
    rw [State.pushCap_of_full full]
    exact ⟨State.get_count_same h _ _ _ (by decide), rfl,
      fun a ne => (s.count_timeWrites ..).rd h a (by simpa [Fl.CAP_OVF] using ne)⟩
  case read =>
    generalize (s.rd (Adr.CAP n + 0x14)).toNat = x
    have k := State.putCaps_timeWrites ({ s with readData := x } : State) n (s.caps n).tail
    refine ⟨k.readData, State.putCaps_caps_same .., ?_, fun m hm => State.putCaps_caps_other _ hm _, k.ctl,
      State.putCaps_rd (s := { s with readData := x }) h n _⟩
    rw [State.putCaps_level (s := { s with readData := x }) h, List.length_tail]
  case enabled =>
    have time := s.store_time (Adr.CMP n) v
    refine ⟨mem_withUnit_same .., fun m hm => ?_, ?_, by rw [State.withTime_time, time], fun a ne => State.store_rd h _ v ne⟩
    · rw [State.withTime_time, mem_withUnit_other hm, time]
    · rw [State.withTime_time, mem_withUnit_same, Bool.and_eq_true]
      rfl
  case fired =>
    obtain ⟨time, plan, fired, late⟩ := cmpFired_spec h hn armed reached
    rw [time]
    refine ⟨fired, late, s.not_mem_firedTime_late n, ?_, rfl, rfl, rfl, plan⟩
    rw [State.mem_firedTime_armed armed, State.firesAgain, Bool.and_eq_true, bne_iff_ne]
  · simp only [tsOutPulseEnd, List.mem_filter]
    simp

end Sys2Proof.Machine
end

section
/-! SUPPORT. What a PTP client learns from a message (R160). -/

namespace Sys2Proof.Machine

variable {p : PtpClient} {m : PtpMsg} {t : Int} {tick : Nat}

/-- The message counted by its kind. -/
def PtpClient.counted (p : PtpClient) (m : PtpMsg) : PtpClient :=
  { p with counts := p.counts.set (ptpCount m.kind) (p.counts.getD (ptpCount m.kind) 0 + 1) }

/-- The best master heard is `clock`. -/
def PtpClient.hears (p : PtpClient) (clock : List Byte) : Bool := match p.best with | some b => b.1 == clock | none => false

theorem PtpClient.hears_of_best {clock : List Byte} {x : Announce} (h : p.best = some (clock, x)) : p.hears clock = true := by
  simp [PtpClient.hears, h]

theorem PtpClient.hears_of_sends (h : p.sends tick m = true) : p.hears m.clockId = true := by
  unfold PtpClient.sends at h
  exact (Bool.and_eq_true _ _ ▸ h).1

theorem PtpClient.follow_counts (p : PtpClient) : p.follow.counts = p.counts := by
  unfold PtpClient.follow
  dsimp only
  split <;> rfl

theorem PtpClient.follow_foreign (p : PtpClient) : p.follow.foreign = p.foreign := by
  unfold PtpClient.follow
  dsimp only
  split <;> rfl

theorem PtpClient.follow_valid (p : PtpClient) : p.follow.valid = !p.foreign.isEmpty := by
  unfold PtpClient.follow
  dsimp only
  split <;> rfl

/-! ## One equation per kind of message -/

theorem PtpClient.learn_announce (h : m.kind = 4) : p.learn t tick m
    = ({ p.counted m with foreign := (p.foreign.filter fun x => x.1 != m.clockId) ++ [(m.clockId, m.ann)] } : PtpClient).follow := by
  unfold PtpClient.learn
  rw [if_pos h]
  rfl

theorem PtpClient.learn_timeout (h : m.kind = 5) : p.learn t tick m
    = ({ p.counted m with foreign := p.foreign.filter fun x => x.1 != m.clockId } : PtpClient).follow := by
  unfold PtpClient.learn
  rw [if_neg (by omega), if_pos h]
  rfl

/-- A message of a master that is not the best one is counted alone. -/
theorem PtpClient.learn_unheard (h4 : m.kind ≠ 4) (h5 : m.kind ≠ 5) (hb : p.hears m.clockId = false) :
    p.learn t tick m = p.counted m := by
  unfold PtpClient.learn
  rw [if_neg h4, if_neg h5]
  exact if_pos hb

/-- What a message of the best master adds to a client that has counted it. -/
def PtpClient.heardFrom (p : PtpClient) (t : Int) (tick : Nat) (m : PtpMsg) : PtpClient :=
  if m.kind = 2 then { p with reqAt := some t, reqTick := some tick, reqTo := if p.unicast then m.addr else [] }
  else if m.kind = 3 then
    match p.reqAt with
    | some t3 => { p with toMaster := some (m.time - t3), reqAt := none }
    | none => p
  else if m.kind = 6 then { p with syncAt := some t }
  else
    match p.diff t m with
    | some x => { p with fromMaster := some x, syncAt := none }
    | none => p

theorem PtpClient.learn_heard (h4 : m.kind ≠ 4) (h5 : m.kind ≠ 5) (hb : p.hears m.clockId = true) :
    p.learn t tick m = (p.counted m).heardFrom t tick m := by
  have heard : ¬ p.hears m.clockId = false := by simp [hb]
  unfold PtpClient.learn
  rw [if_neg h4, if_neg h5]
  exact if_neg heard

theorem PtpClient.heardFrom_counts (p : PtpClient) (t : Int) (tick : Nat) (m : PtpMsg) : (p.heardFrom t tick m).counts = p.counts := by
  unfold PtpClient.heardFrom
  split
  · rfl
  · split
    · split <;> rfl
    · split
      · rfl
      · split <;> rfl

theorem PtpClient.heardFrom_foreign (p : PtpClient) (t : Int) (tick : Nat) (m : PtpMsg) : (p.heardFrom t tick m).foreign = p.foreign := by
  unfold PtpClient.heardFrom
  split
  · rfl
  · split
    · split <;> rfl
    · split
      · rfl
      · split <;> rfl

theorem PtpClient.heardFrom_delayReq (h : m.kind = 2) :
    p.heardFrom t tick m = { p with reqAt := some t, reqTick := some tick, reqTo := if p.unicast then m.addr else [] } := if_pos h

theorem PtpClient.heardFrom_delayResp (h : m.kind = 3) {t3 : Int} (hr : p.reqAt = some t3) :
    p.heardFrom t tick m = { p with toMaster := some (m.time - t3), reqAt := none } := by
  unfold PtpClient.heardFrom
  rw [if_neg (by omega), if_pos h, hr]

theorem PtpClient.heardFrom_twoStep (h : m.kind = 6) : p.heardFrom t tick m = { p with syncAt := some t } := by
  unfold PtpClient.heardFrom
  rw [if_neg (by omega), if_neg (by omega), if_pos h]

/-- A difference is completed by a Sync or a Follow_Up alone. -/
theorem PtpClient.kind_of_diff {x : Int} (h : p.diff t m = some x) : m.kind = 0 ∨ m.kind = 1 := by
  unfold PtpClient.diff at h
  by_contra other
  rw [not_or] at other
  rw [if_neg other.1, if_neg other.2] at h
  cases h

theorem PtpClient.heardFrom_diff {x : Int} (h : p.diff t m = some x) :
    p.heardFrom t tick m = { p with fromMaster := some x, syncAt := none } := by
  have := PtpClient.kind_of_diff h
  unfold PtpClient.heardFrom
  rw [if_neg (by omega), if_neg (by omega), if_neg (by omega), h]

/-! ## What every message does -/

/-- Each kind of message is counted. -/
theorem PtpClient.learn_counts (p : PtpClient) (t : Int) (tick : Nat) (m : PtpMsg) :
    (p.learn t tick m).counts = (p.counted m).counts := by
  by_cases h4 : m.kind = 4
  · rw [PtpClient.learn_announce h4, PtpClient.follow_counts]
  · by_cases h5 : m.kind = 5
    · rw [PtpClient.learn_timeout h5, PtpClient.follow_counts]
    · cases hb : p.hears m.clockId
      · rw [PtpClient.learn_unheard h4 h5 hb]
      · rw [PtpClient.learn_heard h4 h5 hb, PtpClient.heardFrom_counts]

/-- Announcements and their timeouts alone change the masters heard. -/
theorem PtpClient.learn_foreign (h4 : m.kind ≠ 4) (h5 : m.kind ≠ 5) : (p.learn t tick m).foreign = p.foreign := by
  cases hb : p.hears m.clockId
  · rw [PtpClient.learn_unheard h4 h5 hb]
    rfl
  · rw [PtpClient.learn_heard h4 h5 hb, PtpClient.heardFrom_foreign]
    rfl

/-- A Sync or Follow_Up of the best master, with the way back measured, gives mean path delay and offset. -/
theorem PtpClient.fresh_of_diff {x back : Int} (hb : p.hears m.clockId = true) (hd : p.diff t m = some x) (hm : p.toMaster = some back) :
    p.fresh (p.learn t tick m) t m = some ((x + back) / 2, x - (x + back) / 2 - p.asym) := by
  have kind := PtpClient.kind_of_diff hd
  have heard : ((p.diff t m).isSome && p.hears m.clockId) = true := by simp [hd, hb]
  rw [PtpClient.learn_heard (by omega) (by omega) hb, PtpClient.heardFrom_diff (p := p.counted m) hd]
  refine (if_pos heard).trans ?_
  unfold PtpClient.measured PtpClient.counted
  dsimp only
  rw [hm]

end Sys2Proof.Machine
end

section
/-! SUPPORT. A PTP message taken by a domain's client (R160). -/

namespace Sys2Proof.Machine

variable {s : State} {d : Dom} {m : PtpMsg}

/-- The source of a domain depends on its SRC alone. -/
theorem State.srcOf_congr {t : State} (hv : t.variant = s.variant) (hs : t.get (tdAdr d) Fl.TD_SRC = s.get (tdAdr d) Fl.TD_SRC) :
    t.srcOf d = s.srcOf d := by
  unfold State.srcOf State.has
  rw [hs, hv]

@[simp] theorem State.onPtp_variant (s : State) (d : Dom) (f : PtpClient → PtpClient) : (s.onPtp d f).variant = s.variant := by
  cases d <;> rfl

@[simp] theorem State.onPtp_srcOf (s : State) (d : Dom) (f : PtpClient → PtpClient) (e : Dom) : (s.onPtp d f).srcOf e = s.srcOf e :=
  State.srcOf_congr (s.onPtp_variant d f) (s.onPtp_get d f _ _)

/-- The client once it has learned from a message at this tick. -/
def State.learned (s : State) (d : Dom) (m : PtpMsg) : PtpClient :=
  (s.time.ptp d).learn (ethStamp (s.time.dom d) m.err) s.tick m

theorem ptpMessage_of_other (h : (s.time.ptp d).mine m = false) : ptpMessage d m s = s := if_neg (by simp [h])

/-- A Delay_Req that is not due goes to nobody. -/
theorem ptpMessage_of_unsent (req : m.kind = 2) (idle : (s.time.ptp d).sends s.tick m = false) : ptpMessage d m s = s :=
  if_neg (by simp [req, idle])

theorem ptpTaken {p : PtpClient} (runs : s.gwqRuns = true) (mgmt : s.has .mgmtU = true) (mine : p.mine m = true)
    (sends : m.kind = 2 → p.sends s.tick m = true) :
    (s.gwqRuns && s.has .mgmtU && p.mine m && (m.kind != 2 || p.sends s.tick m)) = true := by
  by_cases h : m.kind = 2
  · simp [runs, mgmt, mine, sends h]
  · simp [runs, mgmt, mine, h]

/-- Where PTP is not the domain's source, the client learns and nothing else changes. -/
theorem ptpMessage_of_otherSource (runs : s.gwqRuns = true) (mgmt : s.has .mgmtU = true) (mine : (s.time.ptp d).mine m = true)
    (sends : m.kind = 2 → (s.time.ptp d).sends s.tick m = true) (src : s.srcOf d ≠ 1) :
    ptpMessage d m s = s.onPtp d fun _ => s.learned d m := by
  unfold ptpMessage
  rw [if_pos (ptpTaken runs mgmt mine sends)]
  exact if_pos (by rwa [State.onPtp_srcOf])

/-- The client that has learned from a message shows the delay and offset that the message completes. -/
def State.ptpMeasured (s : State) (d : Dom) (m : PtpMsg) (delay ofs : Int) : State :=
  (s.onPtp d fun _ => s.learned d m).onPtp d fun p => { p with offset := ofs, delay := delay }

theorem State.ptpMeasured_regsWf (h : s.regsWf = true) (d : Dom) (m : PtpMsg) (delay ofs : Int) :
    (s.ptpMeasured d m delay ofs).regsWf = true := by
  rwa [State.ptpMeasured, State.onPtp_regsWf, State.onPtp_regsWf]

theorem State.ptpMeasured_ptp (s : State) (d : Dom) (m : PtpMsg) (delay ofs : Int) :
    (s.ptpMeasured d m delay ofs).time.ptp d = { s.learned d m with offset := ofs, delay := delay } := by
  rw [State.ptpMeasured, State.onPtp_ptp, State.onPtp_ptp]

theorem State.ptpMeasured_dom (s : State) (d : Dom) (m : PtpMsg) (delay ofs : Int) (e : Dom) :
    (s.ptpMeasured d m delay ofs).time.dom e = s.time.dom e := by
  rw [State.ptpMeasured, State.onPtp_dom, State.onPtp_dom]

theorem State.ptpMeasured_tqOf (s : State) (d : Dom) (m : PtpMsg) (delay ofs : Int) (e : Dom) :
    (s.ptpMeasured d m delay ofs).tqOf e = s.tqOf e := by
  rw [State.ptpMeasured, State.onPtp_tqOf, State.onPtp_tqOf]

/-- Where it is, and a measurement completes, the offset is judged. -/
theorem ptpMessage_of_fresh {delay ofs : Int} (runs : s.gwqRuns = true) (mgmt : s.has .mgmtU = true)
    (mine : (s.time.ptp d).mine m = true) (sends : m.kind = 2 → (s.time.ptp d).sends s.tick m = true) (src : s.srcOf d = 1)
    (valid : (s.learned d m).valid = true)
    (fresh : (s.time.ptp d).fresh (s.learned d m) (ethStamp (s.time.dom d) m.err) m = some (delay, ofs)) :
    ptpMessage d m s = (s.ptpMeasured d m delay ofs).offsetSeen d ofs := by
  unfold ptpMessage
  rw [if_pos (ptpTaken runs mgmt mine sends)]
  refine (if_neg (by simpa using src)).trans ((if_neg (by simpa [State.learned] using valid)).trans ?_)
  rw [← State.learned, fresh]
  rfl

end Sys2Proof.Machine
end

section
/-! SUPPORT. A measured offset of a domain: what it writes, the servo's update and the state that it leads to (R155, R160). -/

namespace Sys2Proof.Machine

variable {s t : State} {d : Dom} {ofs : Int}

/-! ## OFFSET -/

/-- A number within 32 bits reads back signed. -/
theorem signed_wrap32 {z : Int} (hlo : -2147483648 ≤ z) (hhi : z ≤ 2147483647) : signed 32 (wrap 32 z) = z := by
  unfold signed wrap
  norm_num
  split <;> omega

/-- What OFFSET holds of an offset. -/
def offsetWord (ofs : Int) : Nat := wrap 32 (clampInt (-2147483648) 2147483647 ofs)

theorem signed_offsetWord (ofs : Int) : signed 32 (offsetWord ofs) = max (-2147483648) (min 2147483647 ofs) :=
  signed_wrap32 (by unfold clampInt; omega) (by unfold clampInt; omega)

/-! ## The servo -/

/-- The state once the servo's free values are drawn. -/
def State.servoDrawn (s : State) : State := { s with free := s.free + 3 }

/-- The servo's increment, adjustment and ticks. -/
def State.servoInc (s : State) : Nat := clampInc s.draw.1
def State.servoAdj (s : State) : Int := signed 48 s.draw.2.draw.1
def State.servoTicks (s : State) : Nat := s.draw.2.draw.2.draw.1

/-- The words that the servo writes. -/
def State.servoWords (s : State) (d : Dom) : State :=
  let u := (s.servoDrawn.put (tdAdr d) Fl.TD_INC_LO s.servoInc).put (tdAdr d) Fl.TD_INC_HI (s.servoInc / 2 ^ 32)
  let u := (u.put (tdAdr d) Fl.TD_ADJ_LO (wrap 48 s.servoAdj)).put (tdAdr d) Fl.TD_ADJ_HI (wrap 48 s.servoAdj / 2 ^ 32)
  u.put (tdAdr d) Fl.TD_ADJ_TICKS s.servoTicks

theorem State.servo_eq (s : State) (d : Dom) : s.servo d = (s.servoWords d).onDom d fun x =>
    { x with incPend := some s.servoInc, adjPend := some (s.servoAdj, s.servoTicks % 2 ^ 32), servoTick := (s.servoWords d).tick } := rfl

theorem State.servoWords_timeWrites (s : State) (d : Dom) : TimeWrites (tdAdr d)
    [Fl.TD_INC_LO, Fl.TD_INC_HI, Fl.TD_ADJ_LO, Fl.TD_ADJ_HI, Fl.TD_ADJ_TICKS] s.servoDrawn (s.servoWords d) :=
  ((((State.put_timeWrites ..).trans (State.put_timeWrites ..)).trans (State.put_timeWrites ..)).trans
    (State.put_timeWrites ..)).trans (State.put_timeWrites ..)

theorem State.servoWords_time (s : State) (d : Dom) : (s.servoWords d).time = s.time := by
  unfold State.servoWords
  simp only [State.put_time]
  rfl

theorem State.servo_regsWf (h : s.regsWf = true) (d : Dom) : (s.servo d).regsWf = true := by
  rw [State.servo_eq]
  exact (State.onDom_timeWrites (b := tdAdr d) ..).wf ((s.servoWords_timeWrites d).wf h)

/-- A field of the domain's registers beside INC and ADJ. -/
theorem State.servo_get (h : s.regsWf = true) (d : Dom) (g : Field)
    (hg : [Fl.TD_INC_LO, Fl.TD_INC_HI, Fl.TD_ADJ_LO, Fl.TD_ADJ_HI, Fl.TD_ADJ_TICKS].all g.apart = true) :
    (s.servo d).get (tdAdr d) g = s.get (tdAdr d) g := by
  rw [State.servo_eq, State.onDom_get]
  exact (s.servoWords_timeWrites d).get h g hg

theorem State.servo_total (s : State) (d : Dom) : ((s.servo d).time.dom d).total = (s.time.dom d).total := by
  rw [State.servo_eq, State.onDom_dom_same, State.servoWords_time]
  rfl

theorem State.servo_ptp (s : State) (d : Dom) : (s.servo d).time.ptp d = s.time.ptp d := by
  rw [State.servo_eq, State.onDom_ptp, State.servoWords_time]

/-! ## The offset seen -/

/-- The domain's largest offset and OFFSET, before the servo. -/
def State.offsetShown (s : State) (d : Dom) (ofs : Int) : State :=
  (s.put (tdAdr d) Fl.TD_OFFSET (offsetWord ofs)).onDom d fun x => { x with maxOfs := max x.maxOfs (min ofs.natAbs 0xffffffff) }

/-- Offsets in a row within the threshold, and beyond four times it. -/
def PtpClient.goodWith (p : PtpClient) (ofs : Int) : Nat := if ofs.natAbs ≤ p.lockThr * 256 then p.good + 1 else 0
def PtpClient.badWith (p : PtpClient) (ofs : Int) : Nat := if 4 * (p.lockThr * 256) < ofs.natAbs then p.bad + 1 else 0

/-- The offset shown and counted, and the servo updated. -/
def State.offsetTaken (s : State) (d : Dom) (ofs : Int) : State :=
  ((s.offsetShown d ofs).onPtp d fun p => { p with
    good := ((s.offsetShown d ofs).time.ptp d).goodWith ofs, bad := ((s.offsetShown d ofs).time.ptp d).badWith ofs }).servo d

/-- The counts of offsets begin anew. -/
def State.clearMarks (s : State) (d : Dom) : State := s.onPtp d fun p => { p with good := 0, bad := 0 }

theorem State.offsetSeen_eq (s : State) (d : Dom) (ofs : Int) : s.offsetSeen d ofs =
    (if (s.offsetTaken d ofs).tqOf d = 0 ∨ (s.offsetTaken d ofs).tqOf d = 3 then ((s.offsetTaken d ofs).setTq d 1).clearMarks d
    else if (s.offsetTaken d ofs).tqOf d = 1 ∧ 16 ≤ ((s.offsetShown d ofs).time.ptp d).goodWith ofs then
      ((s.offsetTaken d ofs).setTq d 2).clearMarks d
    else if (s.offsetTaken d ofs).tqOf d = 2 ∧ 4 ≤ ((s.offsetShown d ofs).time.ptp d).badWith ofs then
      ((s.offsetTaken d ofs).setTq d 3).clearMarks d
    else s.offsetTaken d ofs) := rfl

/-- In `t` domain `d` shows offset `ofs`, and counts what it counted in `s`; its client shows what it showed. -/
structure OffsetSeen (d : Dom) (ofs : Int) (s t : State) : Prop where
  wf : t.regsWf = true
  shown : t.get (tdAdr d) Fl.TD_OFFSET = offsetWord ofs
  total : (t.time.dom d).total = (s.time.dom d).total
  offset : (t.time.ptp d).offset = (s.time.ptp d).offset
  delay : (t.time.ptp d).delay = (s.time.ptp d).delay

theorem State.offsetShown_ptp (s : State) (d : Dom) (ofs : Int) : (s.offsetShown d ofs).time.ptp d = s.time.ptp d := by
  rw [State.offsetShown, State.onDom_ptp, State.put_time]

/-- Before a state is taken the offset is seen, and the state is as it was. -/
theorem State.offsetTaken_spec (h : s.regsWf = true) (d : Dom) (ofs : Int) :
    OffsetSeen d ofs s (s.offsetTaken d ofs) ∧ (s.offsetTaken d ofs).tqOf d = s.tqOf d := by
  have kShow : TimeWrites (tdAdr d) [Fl.TD_OFFSET] s (s.offsetShown d ofs) := (s.put_timeWrites ..).trans (State.onDom_timeWrites ..)
  have hShow := kShow.wf h
  have word : (s.offsetShown d ofs).get (tdAdr d) Fl.TD_OFFSET = offsetWord ofs :=
    State.get_put_of_lt h _ _ _ (by decide) (wrap_lt ..)
  have total : ((s.offsetShown d ofs).time.dom d).total = (s.time.dom d).total := by
    rw [State.offsetShown, State.onDom_dom_same, State.put_time]
    rfl
  have ptp := s.offsetShown_ptp d ofs
  have tq : (s.offsetShown d ofs).tqOf d = s.tqOf d := kShow.get h _ (by decide)
  unfold State.offsetTaken
  generalize s.offsetShown d ofs = u at *
  have hMarked : (u.onPtp d fun p => { p with good := (u.time.ptp d).goodWith ofs, bad := (u.time.ptp d).badWith ofs }).regsWf = true := by
    rwa [State.onPtp_regsWf]
  refine ⟨⟨State.servo_regsWf hMarked d, ?_, ?_, ?_, ?_⟩, ?_⟩
  · rw [State.servo_get hMarked d _ (by decide), State.onPtp_get, word]
  · rw [State.servo_total, State.onPtp_dom, total]
  · rw [State.servo_ptp, State.onPtp_ptp, ← ptp]
  · rw [State.servo_ptp, State.onPtp_ptp, ← ptp]
  · rw [State.tqOf, State.servo_get hMarked d _ (by decide), State.onPtp_get]
    exact tq

/-- A state taken behind it leaves the offset seen. -/
theorem OffsetSeen.setTq (h : OffsetSeen d ofs s t) (st : Nat) : OffsetSeen d ofs s ((t.setTq d st).clearMarks d) where
  wf := by
    rw [State.clearMarks, State.onPtp_regsWf]
    exact State.setTq_regsWf h.wf d st
  shown := by rw [State.clearMarks, State.onPtp_get, State.setTq_get h.wf d st _ (by decide) (by decide), h.shown]
  total := by
    rw [State.clearMarks, State.onPtp_dom, State.setTq_dom, ← h.total]
    rfl
  offset := by rw [State.clearMarks, State.onPtp_ptp, State.setTq_ptp, ← h.offset]
  delay := by rw [State.clearMarks, State.onPtp_ptp, State.setTq_ptp, ← h.delay]

theorem State.offsetSeen_spec (h : s.regsWf = true) (d : Dom) (ofs : Int) : OffsetSeen d ofs s (s.offsetSeen d ofs) := by
  have k := (State.offsetTaken_spec h d ofs).1
  rw [State.offsetSeen_eq]
  split
  · exact k.setTq 1
  · split
    · exact k.setTq 2
    · split
      · exact k.setTq 3
      · exact k

theorem State.clearMarks_tqOf (h : s.regsWf = true) (d : Dom) {st : Nat} (hst : st < 4) : ((s.setTq d st).clearMarks d).tqOf d = st :=
  (State.onPtp_tqOf ..).trans (State.setTq_tqOf h d hst)

/-- A valid source takes FREE and HOLDOVER to ACQUIRING. -/
theorem State.offsetSeen_acquires (h : s.regsWf = true) (tq : s.tqOf d = 0 ∨ s.tqOf d = 3) : (s.offsetSeen d ofs).tqOf d = 1 := by
  obtain ⟨k, same⟩ := State.offsetTaken_spec h d ofs
  rw [State.offsetSeen_eq, same, if_pos tq]
  exact State.clearMarks_tqOf k.wf d (by decide)

/-- The sixteenth good offset in a row locks. -/
theorem State.offsetSeen_locks (h : s.regsWf = true) (tq : s.tqOf d = 1) (small : ofs.natAbs ≤ (s.time.ptp d).lockThr * 256)
    (good : 15 ≤ (s.time.ptp d).good) : (s.offsetSeen d ofs).tqOf d = 2 := by
  obtain ⟨k, same⟩ := State.offsetTaken_spec h d ofs
  have many : 16 ≤ (s.time.ptp d).goodWith ofs := by
    rw [PtpClient.goodWith, if_pos small]
    omega
  rw [State.offsetSeen_eq, same, State.offsetShown_ptp, if_neg (by omega), if_pos ⟨tq, many⟩]
  exact State.clearMarks_tqOf k.wf d (by decide)

/-- The fourth bad one in a row loses the lock. -/
theorem State.offsetSeen_holds (h : s.regsWf = true) (tq : s.tqOf d = 2) (large : 4 * ((s.time.ptp d).lockThr * 256) < ofs.natAbs)
    (bad : 3 ≤ (s.time.ptp d).bad) : (s.offsetSeen d ofs).tqOf d = 3 := by
  obtain ⟨k, same⟩ := State.offsetTaken_spec h d ofs
  have many : 4 ≤ (s.time.ptp d).badWith ofs := by
    rw [PtpClient.badWith, if_pos large]
    omega
  rw [State.offsetSeen_eq, same, State.offsetShown_ptp, if_neg (by omega), if_neg (by omega), if_pos ⟨tq, many⟩]
  exact State.clearMarks_tqOf k.wf d (by decide)

end Sys2Proof.Machine
end

section
/-! SUPPORT. The edges of PPS and the lines of TOD (R157 to R159). -/

namespace Sys2Proof.Machine

variable {s t : State} {b : Bool} {sub : Nat}

/-! ## The input of a letter -/

theorem State.onPps_eq (s : State) (b : Bool) (f : PpsIn → PpsIn) : s.onPps b f
    = s.withTime (if b then { s.time with ppsB := f s.time.ppsB } else { s.time with ppsA := f s.time.ppsA }) := by cases b <;> rfl

@[simp] theorem State.onPps_pps (s : State) (b : Bool) (f : PpsIn → PpsIn) : (s.onPps b f).time.pps b = f (s.time.pps b) := by
  cases b <;> rfl

@[simp] theorem State.onPps_pps_other (s : State) (b : Bool) (f : PpsIn → PpsIn) : (s.onPps b f).time.pps (!b) = s.time.pps (!b) := by
  cases b <;> rfl

@[simp] theorem State.onPps_dom (s : State) (b : Bool) (f : PpsIn → PpsIn) (d : Dom) : (s.onPps b f).time.dom d = s.time.dom d := by
  cases b <;> cases d <;> rfl

@[simp] theorem State.onPps_caps (s : State) (b : Bool) (f : PpsIn → PpsIn) (n : Nat) : (s.onPps b f).caps n = s.caps n := by
  cases b <;> rfl

theorem State.onPps_timeWrites {a : Nat} (s : State) (b : Bool) (f : PpsIn → PpsIn) : TimeWrites a [] s (s.onPps b f) := by
  rw [State.onPps_eq]
  exact s.withTime_timeWrites _

theorem State.onPps_id (s : State) (b : Bool) (f : PpsIn → PpsIn) (h : f (s.time.pps b) = s.time.pps b) : s.onPps b f = s := by
  rw [State.onPps_eq]
  cases b
  · rw [show f s.time.ppsA = s.time.ppsA from h]; rfl
  · rw [show f s.time.ppsB = s.time.ppsB from h]; rfl

/-! ## Lines that expire -/

theorem State.badLines_zero (s : State) (b : Bool) : s.badLines b 0 = s := by
  unfold State.badLines
  exact if_pos rfl

/-- Lines none of which has waited longer than 1.1 s stay. -/
theorem State.expireLines_of_young (h : ∀ l ∈ (s.time.pps b).lines, s.tick ≤ l.2.1 + lineTo) : s.expireLines b = s := by
  have keep : (s.time.pps b).lines.filter (fun l => decide (s.tick ≤ l.2.1 + lineTo)) = (s.time.pps b).lines :=
    List.filter_eq_self.mpr fun l hl => decide_eq_true (h l hl)
  unfold State.expireLines
  dsimp only
  rw [keep, Nat.sub_self]
  split
  · rfl
  · exact (State.badLines_zero ..).trans (s.onPps_id b (fun x => { x with lines := (s.time.pps b).lines }) rfl)

/-! ## An edge -/

/-- The capture unit of an input. -/
def ppsUnit (b : Bool) : Nat := if b then 5 else 4

/-- The registers of an input. -/
def todAdr (b : Bool) : Nat := Adr.TOD (if b then 1 else 0)

/-- An edge captured. -/
def State.edgePushed (s : State) (b : Bool) (sub : Nat) : State := s.pushCap (ppsUnit b) (min sub 15)

theorem State.edgePushed_tick (s : State) (b : Bool) (sub : Nat) : (s.edgePushed b sub).tick = s.tick :=
  (s.pushCap_sameClock ..).tick

theorem State.edgePushed_dom (s : State) (b : Bool) (sub : Nat) (d : Dom) : (s.edgePushed b sub).time.dom d = s.time.dom d :=
  (s.pushCap_sameClock ..).dom d

theorem State.edgePushed_pps (s : State) (b : Bool) (sub : Nat) (c : Bool) : (s.edgePushed b sub).time.pps c = s.time.pps c := by
  rw [State.edgePushed, State.pushCap_time]
  rfl

/-- The registers of an input lie below the capture units. -/
theorem todAdr_low (b : Bool) {k : Nat} (hk : k < 0x10) : todAdr b + k < Adr.CAP (ppsUnit b) := by
  cases b <;> simp [todAdr, ppsUnit, Adr.TOD, Adr.CAP] <;> omega

theorem State.edgePushed_rd (h : s.regsWf = true) (b : Bool) (sub : Nat) {k : Nat} (hk : k < 0x10) :
    (s.edgePushed b sub).rd (todAdr b + k) = s.rd (todAdr b + k) :=
  State.pushCap_rd h _ _ _ (.inl (todAdr_low b hk))

/-- What writes registers of the input beside, and no FIFO, leaves the edge captured. -/
theorem EdgeCaptured.of_pushed (h : s.regsWf = true) {fs : List Field} (k : TimeWrites (todAdr b) fs (s.edgePushed b sub) t)
    (hf : fs.all (fun f => decide (f.off < 0x10)) = true) (hc : ∀ n, t.caps n = (s.edgePushed b sub).caps n) :
    EdgeCaptured s t (ppsUnit b) (min sub 15) := by
  have captured := State.pushCap_captured h (ppsUnit b) (min sub 15)
  have ovf : t.get (Adr.CAP (ppsUnit b)) Fl.CAP_OVF = (s.pushCap (ppsUnit b) (min sub 15)).get (Adr.CAP (ppsUnit b)) Fl.CAP_OVF :=
    k.get_other ((s.pushCap_timeWrites ..).wf h) _ _ fun f m => by
      have := todAdr_low b (of_decide_eq_true (List.all_eq_true.mp hf f m))
      simp only [Fl.CAP_OVF]
      omega
  unfold EdgeCaptured at captured ⊢
  dsimp only at captured ⊢
  rw [hc, ovf]
  exact captured

/-- An edge within 0.5 s of the one before it. -/
def State.edgeEarly (s : State) (b : Bool) : Bool :=
  match (s.time.pps b).lastEdge with | some t => decide (s.tick < t + 312500000) | none => false

theorem State.edgeEarly_of_some {n : Nat} (h : (s.time.pps b).lastEdge = some n) : s.edgeEarly b = decide (s.tick < n + 312500000) := by
  unfold State.edgeEarly
  rw [h]

theorem State.edgeEarly_of_late (h : ∀ n, (s.time.pps b).lastEdge = some n → n + 312500000 ≤ s.tick) : s.edgeEarly b = false := by
  cases hl : (s.time.pps b).lastEdge with
  | none =>
    unfold State.edgeEarly
    rw [hl]
  | some n => simp [State.edgeEarly_of_some hl, h n hl]

/-- Lines old enough to name the edge of this tick, and those that go on waiting. -/
def State.linesNamed (s : State) (b : Bool) : List (Nat × Nat × Int × Nat) :=
  (s.time.pps b).lines.filter fun l => decide (l.2.1 + lineFrom ≤ s.tick)
def State.linesLeft (s : State) (b : Bool) : List (Nat × Nat × Int × Nat) :=
  (s.time.pps b).lines.filter fun l => !decide (l.2.1 + lineFrom ≤ s.tick)

/-- The input once an edge is used. -/
def State.edgeUsed (s : State) (b : Bool) : State :=
  s.onPps b fun x => { x with lastEdge := some s.tick, edges := x.edges + 1, lines := s.linesLeft b }

theorem ppsEdge_eq (s : State) (b : Bool) (sub : Nat) : ppsEdge b sub s
    = if ((s.edgePushed b sub).expireLines b).edgeEarly b
      then ((s.edgePushed b sub).expireLines b).count (todAdr b) Fl.TOD_EXTRA 1
      else (((s.edgePushed b sub).expireLines b).linesNamed b).foldl (fun s l => s.nameEdge b (min sub 15) l)
        (((s.edgePushed b sub).expireLines b).edgeUsed b) := by
  cases b <;> rfl

/-- With no line of more than 1.1 s an edge expires none. -/
theorem State.edgePushed_expireLines (h : ∀ l ∈ (s.time.pps b).lines, s.tick ≤ l.2.1 + lineTo) :
    (s.edgePushed b sub).expireLines b = s.edgePushed b sub :=
  State.expireLines_of_young (by rwa [State.edgePushed_pps, State.edgePushed_tick])

theorem State.edgePushed_edgeEarly (s : State) (b : Bool) (sub : Nat) : (s.edgePushed b sub).edgeEarly b = s.edgeEarly b := by
  unfold State.edgeEarly
  rw [State.edgePushed_pps, State.edgePushed_tick]

/-! ## A line that names an edge -/

/-- The words of the line used. -/
def State.showLine (s : State) (b : Bool) (l : Nat × Nat × Int × Nat) : State :=
  let u := (s.putFlag (todAdr b) Fl.TOD_LINE_OK true).putPair (todAdr b) Fl.TOD_SEC_LO Fl.TOD_SEC_HI l.1
  (u.put (todAdr b) Fl.TOD_UTC (wrap 8 l.2.2.1)).put (todAdr b) Fl.TOD_LEAP l.2.2.2

theorem State.showLine_timeWrites (s : State) (b : Bool) (l : Nat × Nat × Int × Nat) : TimeWrites (todAdr b)
    [Fl.TOD_LINE_OK, Fl.TOD_SEC_LO, Fl.TOD_SEC_HI, Fl.TOD_UTC, Fl.TOD_LEAP] s (s.showLine b l) :=
  (((s.putFlag_timeWrites ..).trans (State.putPair_timeWrites ..)).trans (State.put_timeWrites ..)).trans (State.put_timeWrites ..)

theorem State.showLine_time (s : State) (b : Bool) (l : Nat × Nat × Int × Nat) : (s.showLine b l).time = s.time := by
  unfold State.showLine
  simp only [State.put_time, State.putPair_time, State.putFlag_time]

theorem State.showLine_ok (h : s.regsWf = true) (b : Bool) (l : Nat × Nat × Int × Nat) :
    (s.showLine b l).flag (todAdr b) Fl.TOD_LINE_OK = true := by
  have kOk := s.putFlag_timeWrites (todAdr b) Fl.TOD_LINE_OK true
  have kRest := ((State.putPair_timeWrites (s.putFlag (todAdr b) Fl.TOD_LINE_OK true) (todAdr b) Fl.TOD_SEC_LO Fl.TOD_SEC_HI l.1).trans
    (State.put_timeWrites _ _ Fl.TOD_UTC (wrap 8 l.2.2.1))).trans (State.put_timeWrites _ _ Fl.TOD_LEAP l.2.2.2)
  exact (kRest.flag (kOk.wf h) _ (by decide)).trans (State.flag_putFlag_same _ _ _ (by decide) (by decide) h)

/-- The second of the line, in the 48 bits that show it. -/
theorem State.showLine_sec (h : s.regsWf = true) (b : Bool) (l : Nat × Nat × Int × Nat) :
    (s.showLine b l).getPair (todAdr b) Fl.TOD_SEC_LO Fl.TOD_SEC_HI = l.1 % 2 ^ 48 := by
  have hOk : (s.putFlag (todAdr b) Fl.TOD_LINE_OK true).regsWf = true := State.putFlag_regsWf _ _ _ h
  have pair : ((s.putFlag (todAdr b) Fl.TOD_LINE_OK true).putPair (todAdr b) Fl.TOD_SEC_LO Fl.TOD_SEC_HI l.1).getPair (todAdr b)
      Fl.TOD_SEC_LO Fl.TOD_SEC_HI = l.1 % 2 ^ 48 := by
    have hLo := State.put_regsWf (todAdr b) Fl.TOD_SEC_LO l.1 hOk
    unfold State.getPair State.putPair
    rw [State.get_put_apart hLo _ _ _ _ (by decide), State.get_put_same _ _ _ (by decide) hOk,
      State.get_put_same _ _ _ (by decide) hLo]
    simp only [Fl.TOD_SEC_LO, Fl.TOD_SEC_HI]
    omega
  have kPair := State.putPair_timeWrites (s.putFlag (todAdr b) Fl.TOD_LINE_OK true) (todAdr b) Fl.TOD_SEC_LO Fl.TOD_SEC_HI l.1
  exact (((State.put_timeWrites _ _ Fl.TOD_UTC (wrap 8 l.2.2.1)).trans (State.put_timeWrites _ _ Fl.TOD_LEAP l.2.2.2)).getPair
    (kPair.wf hOk) _ _ (by decide)).trans pair

/-- The input once its first line is used. -/
def PpsIn.firstUse (x : PpsIn) (sec : Nat) : PpsIn := { x with lastSec := some sec, edges := 0, resync := none }

theorem PpsIn.judge_first {x : PpsIn} (h : x.lastSec = none) (sec : Nat) : x.judge sec = (true, x.firstUse sec) := by
  unfold PpsIn.judge
  rw [h]
  rfl

/-- The offset of a domain whose source is this input. -/
def State.edgeSeen (s : State) (b : Bool) (sub : Nat) (sec : Nat) (dly : Int) (d : Dom) : State :=
  if s.gwqRuns ∧ s.srcOf d = 2 + (if b then 1 else 0) then s.offsetSeen d (edgeOffset ((s.time.dom d).sub sub) dly sec) else s

/-- A domain of another source sees no offset. -/
theorem State.edgeSeen_of_other {sec : Nat} {dly : Int} {d : Dom} (h : s.srcOf d < 2) : s.edgeSeen b sub sec dly d = s :=
  if_neg fun e => by have := e.2; omega

theorem State.nameEdge_of_first (h : (s.time.pps b).lastSec = none) (sub : Nat) (l : Nat × Nat × Int × Nat) : s.nameEdge b sub l
    = ((((s.onPps b fun _ => (s.time.pps b).firstUse l.1).showLine b l).edgeSeen b sub l.1
        (signed 32 (((s.onPps b fun _ => (s.time.pps b).firstUse l.1).showLine b l).get (todAdr b) Fl.TOD_DLY)) .A).edgeSeen b sub l.1
        (signed 32 (((s.onPps b fun _ => (s.time.pps b).firstUse l.1).showLine b l).get (todAdr b) Fl.TOD_DLY)) .B) := by
  unfold State.nameEdge
  dsimp only
  rw [PpsIn.judge_first h]
  exact if_neg Bool.noConfusion

/-- SRC of a domain lies outside the registers of an input. -/
theorem TimeWrites.srcOf {fs : List Field} (k : TimeWrites (todAdr b) fs s t) (h : s.regsWf = true) (d : Dom) :
    t.srcOf d = s.srcOf d :=
  State.srcOf_congr k.variant (k.get_other h _ _ fun f _ => by
    cases b <;> cases d <;> simp only [todAdr, tdAdr, domIx, Adr.TOD, Adr.TD, Fl.TD_SRC] <;> simp <;> omega)

theorem State.edgePushed_srcOf (h : s.regsWf = true) (b : Bool) (sub : Nat) (d : Dom) : (s.edgePushed b sub).srcOf d = s.srcOf d :=
  State.srcOf_congr (s.pushCap_timeWrites ..).variant
    ((s.pushCap_sameClock ..).get h _ _ (clockReg_tdAdr d (by decide)).1)

/-- The first line that names an edge is shown, where no domain follows the input. -/
theorem State.nameEdge_of_free (h : s.regsWf = true) (first : (s.time.pps b).lastSec = none) (ha : s.srcOf .A < 2) (hb : s.srcOf .B < 2)
    (sub : Nat) (l : Nat × Nat × Int × Nat) :
    s.nameEdge b sub l = (s.onPps b fun _ => (s.time.pps b).firstUse l.1).showLine b l := by
  have k := (s.onPps_timeWrites (a := todAdr b) b fun _ => (s.time.pps b).firstUse l.1).trans (State.showLine_timeWrites _ b l)
  rw [State.nameEdge_of_first first, State.edgeSeen_of_other, State.edgeSeen_of_other]
  · rwa [k.srcOf h]
  · rwa [State.edgeSeen_of_other (by rwa [k.srcOf h]), k.srcOf h]

end Sys2Proof.Machine
end

section
/-! SUPPORT. Anchors leave what the domains count (R152). -/

namespace Sys2Proof.Machine

variable {s : State}

theorem foldl_time {β : Type} {f : State → β → State} (hf : ∀ s x, (f s x).time = s.time) (l : List β) (s : State) :
    (l.foldl f s).time = s.time := by
  induction l generalizing s with
  | nil => rfl
  | cons x l ih => rw [List.foldl_cons, ih, hf]

theorem State.regMark_time (s : State) (q depth delay : Nat) : (s.regMark q depth delay).time = s.time := ite_time rfl rfl

theorem State.accept_time (s : State) (q slot : Nat) (r : Rec) : (s.accept q slot r).time = s.time := by
  unfold State.accept
  split
  · rfl
  · exact State.regMark_time ..

theorem State.queueLoss_time (s : State) (q : Nat) : (s.queueLoss q).time = s.time := by
  unfold State.queueLoss
  split
  · rfl
  · exact ite_time rfl (ite_time rfl (State.accept_time ..))

theorem State.anchorQueue_time (s : State) (q : Nat) : (s.anchorQueue q).time = s.time := by
  unfold State.anchorQueue
  split
  · rfl
  · have kPair : ∀ slot r r', (((s.queueLoss q).accept q slot r).accept q slot r').time = s.time := fun slot r r' => by
      rw [State.accept_time, State.accept_time, State.queueLoss_time]
    exact ite_time (kPair ..) (ite_time rfl (kPair ..))

/-- The anchors of the next number in every stream. -/
def State.anchorsPlaced (s : State) : State :=
  let s := s.withTime { s.time with anum := (s.time.anum + 1) % 65536 }
  let s := s.queueIds.foldl (fun s q => s.anchorQueue q) s
  s.sessIds.foldl (fun s q => s.postAnchor q) s

theorem State.anchorsPlaced_time (s : State) : s.anchorsPlaced.time = { s.time with anum := (s.time.anum + 1) % 65536 } := by
  unfold State.anchorsPlaced
  dsimp only
  rw [foldl_time fun s q => (State.postAnchor_reports .rfl q).time, foldl_time State.anchorQueue_time, State.withTime_time]

theorem State.anchorAll_time (s : State) : s.anchorAll.time = { s.anchorsPlaced.time with
    a := { s.anchorsPlaced.time.a with setf := false }, b := { s.anchorsPlaced.time.b with setf := false }
    lastAnchor := s.anchorsPlaced.now.total, anchorOwed := none } := rfl

end Sys2Proof.Machine
end

section
/-! O15: PTP messages, PPS edges, TOD lines and anchors (R157 to R160). -/

namespace Sys2Proof.Machine

variable {s : State} {b : Bool} {sub : Nat}

/-! ## Edges, by the lines that wait -/

/-- An edge within 0.5 s of the one before it is counted in EXTRA. -/
theorem ppsEdge_of_early {n : Nat} (hl : (s.time.pps b).lastEdge = some n) (early : s.tick < n + 312500000)
    (noLine : (s.time.pps b).lines = []) : ppsEdge b sub s = (s.edgePushed b sub).count (todAdr b) Fl.TOD_EXTRA 1 := by
  rw [ppsEdge_eq, State.edgePushed_expireLines (by simp [noLine]), State.edgePushed_edgeEarly, State.edgeEarly_of_some hl]
  exact if_pos (decide_eq_true early)

/-- A later one is used; with no line waiting nothing names it. -/
theorem ppsEdge_of_unnamed (late : ∀ n, (s.time.pps b).lastEdge = some n → n + 312500000 ≤ s.tick)
    (noLine : (s.time.pps b).lines = []) : ppsEdge b sub s = (s.edgePushed b sub).edgeUsed b := by
  have named : (s.edgePushed b sub).linesNamed b = [] := by
    unfold State.linesNamed
    rw [State.edgePushed_pps, noLine]
    rfl
  rw [ppsEdge_eq, State.edgePushed_expireLines (by simp [noLine]), State.edgePushed_edgeEarly, State.edgeEarly_of_late late, named]
  rfl

/-- With one line whose LF came 100 ms to 1.1 s before, that line names it. -/
theorem ppsEdge_of_named {l : Nat × Nat × Int × Nat} (late : ∀ n, (s.time.pps b).lastEdge = some n → n + 312500000 ≤ s.tick)
    (one : (s.time.pps b).lines = [l]) (since : l.2.1 + lineFrom ≤ s.tick) (upTo : s.tick ≤ l.2.1 + lineTo) :
    ppsEdge b sub s = ((s.edgePushed b sub).edgeUsed b).nameEdge b (min sub 15) l ∧ (s.edgePushed b sub).linesLeft b = [] := by
  have named : (s.edgePushed b sub).linesNamed b = [l] := by
    unfold State.linesNamed
    rw [State.edgePushed_pps, one, State.edgePushed_tick]
    simp [since]
  have left : (s.edgePushed b sub).linesLeft b = [] := by
    unfold State.linesLeft
    rw [State.edgePushed_pps, one, State.edgePushed_tick]
    simp [since]
  rw [ppsEdge_eq, State.edgePushed_expireLines (by simpa [one] using upTo), State.edgePushed_edgeEarly,
    State.edgeEarly_of_late late, named]
  exact ⟨rfl, left⟩

theorem State.edgeUsed_pps (s : State) (b : Bool) : (s.edgeUsed b).time.pps b
    = { s.time.pps b with lastEdge := some s.tick, edges := (s.time.pps b).edges + 1, lines := s.linesLeft b } :=
  s.onPps_pps b _

theorem State.edgeUsed_timeWrites {a : Nat} (s : State) (b : Bool) : TimeWrites a [] s (s.edgeUsed b) := s.onPps_timeWrites b _

/-! ## Lines -/

theorem State.badLines_one (s : State) (b : Bool) :
    s.badLines b 1 = (s.count (todAdr b) Fl.TOD_BAD 1).putFlag (todAdr b) Fl.TOD_LINE_OK false := by
  unfold State.badLines
  exact if_neg (by decide)

theorem todLine_of_bad {l : List Byte} (h : todParse l = none) : todLine b l s = s.badLines b 1 := by
  unfold todLine
  rw [h]

theorem todLine_of_good {l : List Byte} {x : Nat × Int × Nat} (h : todParse l = some x) : todLine b l s
    = s.onPps b fun y => { y with lines := y.lines ++ [(x.1, s.tick, x.2.1, x.2.2)] } := by
  unfold todLine
  rw [h]

/-- Settles O15: messages by what a client learns of their kind, edges by the lines that wait, lines by their syntax and check, an
anchor by what it leaves of the domains. -/
theorem sourcesOfTimeAreJudged : Obligations.SourcesOfTimeAreJudged := by
  unfold Obligations.SourcesOfTimeAreJudged
  intro s h
  refine ⟨fun d m runs mgmt src _ mine sends => ⟨_, congrArg Host.Outcome.next (ptpMessage_of_otherSource runs mgmt mine sends src), ?learned⟩,
    fun d m mine => congrArg Host.Outcome.next (ptpMessage_of_other mine),
    fun d m req idle => congrArg Host.Outcome.next (ptpMessage_of_unsent req idle),
    fun d m x back diff runs mgmt src mine valid best way hdiff => ?offset,
    fun b sub n hl early noLine => ⟨_, congrArg Host.Outcome.next (ppsEdge_of_early hl early noLine), ?early⟩,
    fun b sub late noLine => ⟨_, congrArg Host.Outcome.next (ppsEdge_of_unnamed late noLine), ?unnamed⟩,
    fun b sub sec lf utc leap late one since upTo first ha hb => ?named,
    fun b l bad => ⟨_, congrArg Host.Outcome.next ((todLine_of_bad bad).trans (s.badLines_one b)), ?bad⟩,
    fun b l x good => ⟨_, congrArg Host.Outcome.next (todLine_of_good good), ?good⟩,
    fun runs => ⟨_, congrArg Host.Outcome.next (if_pos runs), ?anchored⟩⟩
  case learned =>
    rw [State.onPtp_ptp]
    refine ⟨PtpClient.learn_counts .., fun kind => PtpClient.learn_foreign (by omega) (by omega), fun kind x => ?_, fun kind => ?_,
      fun kind => ?_, fun x t3 kind best req => ?_, fun x kind best => ?_, by rw [State.onPtp_eq]; rfl, s.onPtp_dom d _ .A, s.onPtp_dom d _ .B⟩
    · rw [State.learned, PtpClient.learn_timeout kind, PtpClient.follow_foreign]
      simp
    · rw [State.learned, PtpClient.learn_announce kind, PtpClient.follow_valid, PtpClient.follow_foreign]
      simp
    · rw [State.learned, PtpClient.learn_heard (by omega) (by omega) (PtpClient.hears_of_sends (sends kind)),
        PtpClient.heardFrom_delayReq kind]
      exact ⟨rfl, rfl⟩
    · rw [State.learned, PtpClient.learn_heard (by omega) (by omega) (PtpClient.hears_of_best best),
        PtpClient.heardFrom_delayResp (p := (s.time.ptp d).counted m) kind req]
      exact ⟨rfl, rfl⟩
    · rw [State.learned, PtpClient.learn_heard (by omega) (by omega) (PtpClient.hears_of_best best), PtpClient.heardFrom_twoStep kind]
  case offset =>
    have heard := PtpClient.hears_of_best best
    have kind := PtpClient.kind_of_diff hdiff
    have taken : s.learned d m = { (s.time.ptp d).counted m with fromMaster := some diff, syncAt := none } :=
      (PtpClient.learn_heard (by omega) (by omega) heard).trans (PtpClient.heardFrom_diff (p := (s.time.ptp d).counted m) hdiff)
    have message := ptpMessage_of_fresh runs mgmt mine (fun h2 => by omega) src (by rw [taken]; exact valid)
      (PtpClient.fresh_of_diff heard hdiff way)
    intro delay ofs
    have hk := State.ptpMeasured_regsWf h d m delay ofs
    have k := State.offsetSeen_spec hk d ofs
    have client := s.ptpMeasured_ptp d m delay ofs
    have tq := s.ptpMeasured_tqOf d m delay ofs d
    refine ⟨_, congrArg Host.Outcome.next message, by rw [k.shown, signed_offsetWord], by rw [k.offset, client], by rw [k.delay, client],
      by rw [k.total, State.ptpMeasured_dom], fun free => State.offsetSeen_acquires hk (by rwa [tq]), fun acq small good => ?_,
      fun locked large bad => ?_⟩
    · exact State.offsetSeen_locks hk (tq.trans acq) (by rw [client, taken]; exact small) (by rw [client, taken]; exact good)
    · exact State.offsetSeen_holds hk (tq.trans locked) (by rw [client, taken]; exact large) (by rw [client, taken]; exact bad)
  case early =>
    have k := (s.edgePushed b sub).count_timeWrites (todAdr b) Fl.TOD_EXTRA 1
    have hk : (s.edgePushed b sub).regsWf = true := (s.pushCap_timeWrites ..).wf h
    refine ⟨(State.get_count_same hk _ _ _ (by decide)).trans ?_, s.edgePushed_pps b sub b, EdgeCaptured.of_pushed h k (by decide) fun _ => rfl⟩
    rw [State.get, State.edgePushed_rd h b sub (by decide)]
    rfl
  case unnamed =>
    have k := (s.edgePushed b sub).edgeUsed_timeWrites (a := todAdr b) b
    refine ⟨?_, ?_, ?_, EdgeCaptured.of_pushed h k (by decide) fun _ => State.onPps_caps ..⟩
    · rw [State.edgeUsed_pps, State.edgePushed_tick]
    · rw [State.edgeUsed_pps, State.edgePushed_pps]
    · exact (k.rd ((s.pushCap_timeWrites ..).wf h) _ (by simp)).trans (State.edgePushed_rd h b sub (k := 0) (by decide))
  case named =>
    obtain ⟨edge, left⟩ := ppsEdge_of_named (sub := sub) late one since upTo
    have hPush : (s.edgePushed b sub).regsWf = true := (s.pushCap_timeWrites ..).wf h
    have kUsed := (s.edgePushed b sub).edgeUsed_timeWrites (a := todAdr b) b
    have src : ∀ d, ((s.edgePushed b sub).edgeUsed b).srcOf d = s.srcOf d := fun d =>
      (kUsed.srcOf hPush d).trans (State.edgePushed_srcOf h b sub d)
    have pps := (s.edgePushed b sub).edgeUsed_pps b
    rw [left, State.edgePushed_tick, State.edgePushed_pps] at pps
    have dom : ∀ d, ((s.edgePushed b sub).edgeUsed b).time.dom d = s.time.dom d := fun d =>
      (State.onPps_dom ..).trans (s.edgePushed_dom b sub d)
    have caps : ∀ n, ((s.edgePushed b sub).edgeUsed b).caps n = (s.edgePushed b sub).caps n := fun n => State.onPps_caps ..
    rw [State.nameEdge_of_free (kUsed.wf hPush) (by rw [pps]; exact first) (by rwa [src]) (by rwa [src])] at edge
    have hUsed := kUsed.wf hPush
    generalize (s.edgePushed b sub).edgeUsed b = u at *
    have kFirst := u.onPps_timeWrites (a := todAdr b) b fun _ => (u.time.pps b).firstUse sec
    have kLine := State.showLine_timeWrites (u.onPps b fun _ => (u.time.pps b).firstUse sec) b (sec, lf, utc, leap)
    have time := State.showLine_time (u.onPps b fun _ => (u.time.pps b).firstUse sec) b (sec, lf, utc, leap)
    refine ⟨_, congrArg Host.Outcome.next edge, State.showLine_ok (kFirst.wf hUsed) .., State.showLine_sec (kFirst.wf hUsed) ..,
      ?_, ?_, ?_, ?_, ?_, EdgeCaptured.of_pushed h ((kUsed.trans kFirst).trans kLine) (by decide) fun n => ?_⟩
    · rw [time, State.onPps_pps, pps]
      rfl
    · rw [time, State.onPps_pps]
      rfl
    · rw [time, State.onPps_pps, pps]
      rfl
    · rw [time]
      exact (u.onPps_dom b _ .A).trans (dom .A)
    · rw [time]
      exact (u.onPps_dom b _ .B).trans (dom .B)
    · rw [State.caps, time]
      exact (u.onPps_caps b _ n).trans (caps n)
  case bad =>
    have kBad := s.count_timeWrites (todAdr b) Fl.TOD_BAD 1
    have kOk := (s.count (todAdr b) Fl.TOD_BAD 1).putFlag_timeWrites (todAdr b) Fl.TOD_LINE_OK false
    exact ⟨(kOk.get (kBad.wf h) _ (by decide)).trans (State.get_count_same h _ _ _ (by decide)),
      State.flag_putFlag_same _ _ _ (by decide) (by decide) (kBad.wf h), rfl,
      fun a ne => (kBad.trans kOk).rd h a (by simpa [Fl.TOD_BAD, Fl.TOD_LINE_OK, todAdr] using ne)⟩
  case good =>
    exact ⟨by rw [State.onPps_pps], by rw [State.onPps_eq]; rfl, s.onPps_pps_other b _⟩
  case anchored =>
    have time := s.anchorAll_time
    rw [State.anchorsPlaced_time] at time
    rw [time]
    exact ⟨rfl, rfl, rfl, rfl, rfl, rfl⟩

end Sys2Proof.Machine
end

section
/-! SUPPORT. The tables of stamp receivers and tiles, the counters of the hub, and what the path of the records leaves alone
(spec/09_arrival_stamping.md R183, R184). -/

namespace Sys2Proof.Machine

variable {s s₀ t : State}

/-! ## Receivers and tiles -/

theorem ExportEng.srxWf {x : ExportEng} (h : x.tablesWf = true) : SMap.wf (fun _ => ({} : Srx)) x.srx = true := by
  unfold ExportEng.tablesWf at h
  simp only [Bool.and_eq_true] at h
  obtain ⟨⟨hSrx, -⟩, -⟩ := h
  exact hSrx

theorem ExportEng.tilesWf {x : ExportEng} (h : x.tablesWf = true) : SMap.wf (fun _ => ({} : TilePath)) x.tiles = true := by
  unfold ExportEng.tablesWf at h
  simp only [Bool.and_eq_true] at h
  obtain ⟨⟨-, hTiles⟩, -⟩ := h
  exact hTiles

theorem State.setSrx_tablesWf (h : s.exp.tablesWf = true) (p : Nat) (x : Srx) : (s.setSrx p x).exp.tablesWf = true :=
  (State.setSrx_kept .rfl p x).exps h

theorem State.setTile_tablesWf (h : s.exp.tablesWf = true) (n : Nat) (x : TilePath) : (s.setTile n x).exp.tablesWf = true :=
  (State.setTile_kept .rfl n x).exps h

theorem State.srx_setSrx_same (h : s.exp.tablesWf = true) (p : Nat) (x : Srx) : (s.setSrx p x).srx p = x :=
  SMap.find_put_same (d := fun _ => ({} : Srx)) s.exp.srx p x (ExportEng.srxWf h)

theorem State.srx_setSrx_other (h : s.exp.tablesWf = true) {p n : Nat} (x : Srx) (hne : n ≠ p) : (s.setSrx p x).srx n = s.srx n :=
  SMap.find_put_other (d := fun _ => ({} : Srx)) _ s.exp.srx p n x hne (ExportEng.srxWf h)

theorem State.tile_setTile_same (h : s.exp.tablesWf = true) (n : Nat) (x : TilePath) : (s.setTile n x).tile n = x :=
  SMap.find_put_same (d := fun _ => ({} : TilePath)) s.exp.tiles n x (ExportEng.tilesWf h)

theorem State.tile_setTile_other (h : s.exp.tablesWf = true) {n m : Nat} (x : TilePath) (hne : m ≠ n) :
    (s.setTile n x).tile m = s.tile m :=
  SMap.find_put_other (d := fun _ => ({} : TilePath)) _ s.exp.tiles n m x hne (ExportEng.tilesWf h)

@[simp] theorem State.srx_setTile (n : Nat) (x : TilePath) (p : Nat) : (s.setTile n x).srx p = s.srx p := rfl
@[simp] theorem State.tile_setSrx (p : Nat) (x : Srx) (n : Nat) : (s.setSrx p x).tile n = s.tile n := rfl

theorem State.srx_congr (h : t.exp = s.exp) (p : Nat) : t.srx p = s.srx p := by unfold State.srx; rw [h]
theorem State.tile_congr (h : t.exp = s.exp) (n : Nat) : t.tile n = s.tile n := by unfold State.tile; rw [h]

/-! ## Counters of the hub -/

/-- The registers of the hub's counters. -/
def perfReg (a : Nat) : Prop := 0x121100 ≤ a ∧ a < 0x121180

theorem not_perfReg_of_quiet {a : Nat} (h : quiet a = true) : ¬ perfReg a := by
  unfold quiet at h
  unfold perfReg
  simp at h
  omega

theorem WritesOnly.mono {w w' : Nat → Prop} (k : WritesOnly w s t) (h : ∀ a, w a → w' a) : WritesOnly w' s t :=
  ⟨k.wf, fun hw a ha => k.rd hw a fun hc => ha (h a hc)⟩

/-- A field put into a word that may be written. -/
theorem State.put_writes (s : State) {w : Nat → Prop} {b : Nat} {f : Field} (n : Nat) (h : w (b + f.off)) : WritesOnly w s (s.put b f n) :=
  ⟨State.put_regsWf _ _ _, fun hw a ha => State.rd_put_word _ _ _ _ (by rintro rfl; exact ha h) hw⟩

theorem State.hubEvent_perfReg (s : State) (ev n : Nat) : WritesOnly perfReg s (s.hubEvent ev n) := by
  unfold State.hubEvent
  refine ite_writesOnly .rfl (List.foldlRecOn (motive := fun t => WritesOnly perfReg s t) _ _ .rfl fun u hu i hi => hu.trans ?_)
  have kPut := fun (v : State) (f : Field) (m : Nat) (hf : f.off < 16) => v.put_writes (w := perfReg) (b := Adr.PERF_HC i) (f := f) m (by
    have := List.mem_range.mp hi
    unfold perfReg Adr.PERF_HC
    omega)
  have kCount := fun m => (kPut u Fl.PERF_HC_VAL_LO m (by decide)).trans
    (kPut _ Fl.PERF_HC_VAL_HI (m / 2 ^ 32) (by decide))
  exact ite_writesOnly (ite_writesOnly ((kCount _).trans (kPut _ Fl.PERF_HC_SAT _ (by decide))) (kCount _)) .rfl

@[simp] theorem State.hubEvent_exp (s : State) (ev n : Nat) : (s.hubEvent ev n).exp = s.exp := (State.hubEvent_reports .rfl ev n).exp
@[simp] theorem State.hubEvent_tick (s : State) (ev n : Nat) : (s.hubEvent ev n).tick = s.tick := (State.hubEvent_reports .rfl ev n).tick

theorem State.hubEvent_rest (s : State) (ev n : Nat) : s.hubEvent ev n = { s with regs := (s.hubEvent ev n).regs } :=
  (s.hubEvent_hostOnly ev n).eq.trans (by rw [s.hubEvent_host])

end Sys2Proof.Machine
end

section
/-! SUPPORT. Records in a tile's stores: where a record that always stays is placed, and the account of those dropped (R179, R183, R184). -/

namespace Sys2Proof.Machine

variable {s s₀ t : State} {p point : Nat}

/-! ## Records that always stay -/

theorem Rec.word_zero (r : Rec) : r.word 0 = r.w.headD 0 := by
  cases r with
  | mk w _ _ _ => cases w <;> rfl

theorem Rec.kind_eq (r : Rec) : r.kind = r.word 0 % 16 := by
  rw [r.word_zero]
  rfl

theorem Rec.isStamp_iff {r : Rec} : r.isStamp = true ↔ r.kind = 0 := beq_iff_eq

/-- A LINK record as it stands where LINK events met. -/
def Rec.merged (r : Rec) : Rec := { r with w := (r.word 0 ||| 2 ^ 18) :: r.w.drop 1 }

theorem Rec.merged_kind (r : Rec) : r.merged.kind = r.kind := by
  rw [r.kind_eq]
  change (r.word 0 ||| 2 ^ 18) % 2 ^ 4 = r.word 0 % 2 ^ 4
  rw [Nat.or_mod_two_pow]
  simp

theorem Rec.merged_testBit (r : Rec) {i : Nat} (hi : i ≠ 18) : (r.merged.word 0).testBit i = (r.word 0).testBit i := by
  change (r.word 0 ||| 2 ^ 18).testBit i = _
  rw [Nat.testBit_or, Nat.testBit_two_pow_of_ne hi.symm, Bool.or_false]

theorem Rec.merged_word (r : Rec) (i : Nat) : r.merged.word (i + 1) = r.word (i + 1) := by
  unfold Rec.word Rec.merged
  rw [List.getD_cons_succ, List.getD_eq_getElem?_getD, List.getD_eq_getElem?_getD, List.getElem?_drop, Nat.add_comm]

/-- A LINK record placed waits, as it is or merged. -/
theorem mem_placeCtl_link {r : Rec} (h : r.kind = 6) (l : List Rec) : r ∈ placeCtl r l ∨ r.merged ∈ placeCtl r l := by
  unfold placeCtl
  by_cases hAny : (l.any fun x => x.kind == 6 && x.port == r.port) = true
  · rw [if_pos ⟨h, hAny⟩]
    obtain ⟨x, hMem, hx⟩ := List.any_eq_true.mp hAny
    rw [Bool.and_eq_true, beq_iff_eq, beq_iff_eq] at hx
    exact .inr (List.mem_map.mpr ⟨x, hMem, if_pos hx⟩)
  · rw [if_neg (fun k => hAny k.2), if_neg (fun k => by rw [h] at k; omega)]
    exact .inl (List.mem_append_right _ (List.mem_singleton_self r))

/-- The record that a LOSS record becomes when a count is added. -/
def Rec.lossAdded (x : Rec) (last count : Nat) : Rec :=
  { x with w := [x.word 0, x.word 1, x.word 2, x.word 3, last, min 0xffffffff (x.word 5 + count), 0] }

theorem Rec.lossAdded_kind (x : Rec) (last count : Nat) : (x.lossAdded last count).kind = x.kind := x.kind_eq.symm

/-- Whatever is placed, a record of its kind and port waits. -/
theorem exists_mem_placeCtl (r : Rec) (l : List Rec) : ∃ k ∈ placeCtl r l, k.kind = r.kind ∧ k.port = r.port := by
  by_cases hLink : r.kind = 6
  · rcases mem_placeCtl_link hLink l with h | h
    · exact ⟨r, h, rfl, rfl⟩
    · exact ⟨r.merged, h, r.merged_kind, rfl⟩
  · unfold placeCtl
    rw [if_neg fun k => hLink k.1]
    by_cases hLoss : r.kind = 2 ∧ l.any (fun x => x.lossOf r.point r.port) = true
    · rw [if_pos hLoss]
      obtain ⟨x, hMem, hx⟩ := List.any_eq_true.mp hLoss.2
      have hMatch := hx
      simp only [Rec.lossOf, Bool.and_eq_true, beq_iff_eq] at hMatch
      refine ⟨x.lossAdded (r.word 4) (r.word 5), List.mem_map.mpr ⟨x, hMem, if_pos hx⟩, ?_, hMatch.1.2⟩
      rw [x.lossAdded_kind, hMatch.1.1, hLoss.1]
    · rw [if_neg hLoss]
      exact ⟨r, List.mem_append_right _ (List.mem_singleton_self r), rfl, rfl⟩

/-- A record neither LINK nor LOSS stands behind the others. -/
theorem placeCtl_of_other {r : Rec} (hLink : r.kind ≠ 6) (hLoss : r.kind ≠ 2) (l : List Rec) : placeCtl r l = l ++ [r] := by
  unfold placeCtl
  rw [if_neg fun k => hLink k.1, if_neg fun k => hLoss k.1]

/-! ## The LOSS record that waits at a point -/

theorem mergeLoss_eq (point p last count : Nat) (l : List Rec) :
    mergeLoss point p last count l = l.map fun x => if x.lossOf point p then x.lossAdded last count else x := rfl

theorem mergeLoss_kind (point p last count : Nat) (l : List Rec) : (mergeLoss point p last count l).map Rec.kind = l.map Rec.kind := by
  rw [mergeLoss_eq, List.map_map]
  refine List.map_congr_left fun x _ => ?_
  dsimp only [Function.comp]
  split
  · exact x.lossAdded_kind ..
  · rfl

theorem Rec.not_isStamp_of_lossOf {x : Rec} (h : x.lossOf point p = true) : x.isStamp = false := by
  simp only [Rec.lossOf, Bool.and_eq_true, beq_iff_eq] at h
  simp [Rec.isStamp, h.1.1]

theorem mergeLoss_filter_isStamp (point p last count : Nat) (l : List Rec) :
    (mergeLoss point p last count l).filter Rec.isStamp = l.filter Rec.isStamp := by
  rw [mergeLoss_eq]
  induction l with
  | nil => rfl
  | cons x l ih =>
    rw [List.map_cons, List.filter_cons, List.filter_cons, ih]
    split
    · next h =>
      have hKind : (x.lossAdded last count).isStamp = x.isStamp := by
        unfold Rec.isStamp
        rw [x.lossAdded_kind]
      rw [hKind, x.not_isStamp_of_lossOf h]
      rfl
    · rfl

/-- The records that wait at a point with a drop added to the LOSS record of its port that waits among them. -/
def lossNoted (point : Nat) (r : Rec) (l : List Rec) : List Rec :=
  match l.find? fun y => y.lossOf point r.port with
  | some y => mergeLoss point r.port (if seqBefore (y.word 4) r.seq then r.seq else y.word 4) 1 l
  | none => l

theorem lossNoted_of_some {r y : Rec} {l : List Rec} (h : l.find? (fun y => y.lossOf point r.port) = some y) :
    lossNoted point r l = mergeLoss point r.port (if seqBefore (y.word 4) r.seq then r.seq else y.word 4) 1 l := by
  unfold lossNoted
  rw [h]

theorem lossNoted_of_none {r : Rec} {l : List Rec} (h : ∀ y ∈ l, y.lossOf point r.port = false) : lossNoted point r l = l := by
  unfold lossNoted
  rw [List.find?_eq_none.mpr fun y m => by rw [h y m]; decide]

theorem lossNoted_kind (point : Nat) (r : Rec) (l : List Rec) : (lossNoted point r l).map Rec.kind = l.map Rec.kind := by
  unfold lossNoted
  split
  · exact mergeLoss_kind ..
  · rfl

theorem lossNoted_filter_isStamp (point : Nat) (r : Rec) (l : List Rec) :
    (lossNoted point r l).filter Rec.isStamp = l.filter Rec.isStamp := by
  unfold lossNoted
  split
  · exact mergeLoss_filter_isStamp ..
  · rfl

/-! ## A drop -/

/-- The counters of a drop at a point. -/
def State.dropCounted (s : State) (point : Nat) (r : Rec) : State :=
  let u := (s.count (Adr.SRX_DROP r.port) Fl.SRX_DROP_DROPPED 1).hubEvent 0x0B 1
  if point = 0 then u.count (Adr.BR_DROP (r.port / 128)) Fl.BR_DROP_COUNT 1 else u.count Adr.AGG_DROP Fl.AGG_DROP_COUNT 1

/-- The account of a receiver with a drop at a point added. -/
def Srx.dropNoted (x : Srx) (point seq tick : Nat) : Srx :=
  if point = 0 then { x with drop0 := x.drop0.add seq tick } else { x with drop1 := x.drop1.add seq tick }

@[simp] theorem State.dropCounted_exp (s : State) (point : Nat) (r : Rec) : (s.dropCounted point r).exp = s.exp := by
  unfold State.dropCounted
  rw [apply_ite State.exp, State.count_exp, State.count_exp, State.hubEvent_exp, State.count_exp, ite_self]

@[simp] theorem State.dropCounted_tick (s : State) (point : Nat) (r : Rec) : (s.dropCounted point r).tick = s.tick := by
  unfold State.dropCounted
  rw [apply_ite State.tick, State.count_tick, State.count_tick, State.hubEvent_tick, State.count_tick, ite_self]

theorem TilePath.put_at (x : TilePath) (point : Nat) : x.put point (x.at point) = x := by
  unfold TilePath.put TilePath.at
  split <;> rfl

/-- A drop adds to the LOSS record that waits in the tile of its port. -/
theorem State.dropRec_of_some {r y : Rec}
    (hSome : ((s.tile (r.port / 128)).at point).find? (fun y => y.lossOf point r.port) = some y) :
    s.dropRec point r = (s.dropCounted point r).setTile (r.port / 128)
      ((s.tile (r.port / 128)).put point (lossNoted point r ((s.tile (r.port / 128)).at point))) := by
  rw [lossNoted_of_some hSome, ← State.tile_congr (s.dropCounted_exp point r)] at *
  unfold State.dropRec
  extract_lets u v x
  rw [show (x.at point).find? (fun y => y.lossOf point r.port) = some y from hSome]
  rfl

/-- Without one, the account of the port takes the drop. -/
theorem State.dropRec_of_none {r : Rec} (hNone : ∀ y ∈ (s.tile (r.port / 128)).at point, y.lossOf point r.port = false) :
    s.dropRec point r = (s.dropCounted point r).setSrx r.port ((s.srx r.port).dropNoted point r.seq s.tick) := by
  rw [← State.tile_congr (s.dropCounted_exp point r)] at hNone
  rw [← State.srx_congr (s.dropCounted_exp point r), ← s.dropCounted_tick point r]
  unfold State.dropRec
  extract_lets u v x y
  rw [show (x.at point).find? (fun y => y.lossOf point r.port) = none from
    List.find?_eq_none.mpr fun y m => by rw [hNone y m]; decide]
  unfold Srx.dropNoted
  exact (apply_ite (v.setSrx r.port) _ _ _).symm

/-- One of the two stands at any drop. -/
theorem State.lossWaits_or (s : State) (point : Nat) (r : Rec) :
    (∃ y, ((s.tile (r.port / 128)).at point).find? (fun y => y.lossOf point r.port) = some y)
      ∨ ∀ y ∈ (s.tile (r.port / 128)).at point, y.lossOf point r.port = false := by
  cases h : ((s.tile (r.port / 128)).at point).find? (fun y => y.lossOf point r.port) with
  | some y => exact .inl ⟨y, rfl⟩
  | none => exact .inr fun y m => by simpa using List.find?_eq_none.mp h y m

theorem State.dropCounted_tablesWf (h : s.exp.tablesWf = true) (point : Nat) (r : Rec) :
    (s.dropCounted point r).exp.tablesWf = true := by rwa [State.dropCounted_exp]

theorem State.dropRec_tile_same (h : s.exp.tablesWf = true) (point : Nat) (r : Rec) :
    (s.dropRec point r).tile (r.port / 128)
      = (s.tile (r.port / 128)).put point (lossNoted point r ((s.tile (r.port / 128)).at point)) := by
  rcases s.lossWaits_or point r with ⟨y, hSome⟩ | hNone
  · rw [State.dropRec_of_some hSome, State.tile_setTile_same (State.dropCounted_tablesWf h ..)]
  · rw [State.dropRec_of_none hNone, State.tile_setSrx, State.tile_congr (s.dropCounted_exp point r), lossNoted_of_none hNone,
      TilePath.put_at]

theorem State.dropRec_tile_other (h : s.exp.tablesWf = true) (point : Nat) (r : Rec) {n : Nat} (hn : n ≠ r.port / 128) :
    (s.dropRec point r).tile n = s.tile n := by
  refine Eq.trans ?_ (State.tile_congr (s.dropCounted_exp point r) n)
  rcases s.lossWaits_or point r with ⟨y, hSome⟩ | hNone
  · rw [State.dropRec_of_some hSome, State.tile_setTile_other (State.dropCounted_tablesWf h ..) _ hn]
  · rw [State.dropRec_of_none hNone, State.tile_setSrx]

/-- Of any tile a drop changes the records that wait at its point alone. -/
theorem State.dropRec_tile (h : s.exp.tablesWf = true) (point : Nat) (r : Rec) (n : Nat) :
    ∃ l, (s.dropRec point r).tile n = (s.tile n).put point l ∧ l.filter Rec.isStamp = ((s.tile n).at point).filter Rec.isStamp
      ∧ ((∀ y ∈ (s.tile n).at point, y.lossOf point r.port = false) → l = (s.tile n).at point) := by
  by_cases hn : n = r.port / 128
  · subst hn
    exact ⟨_, State.dropRec_tile_same h point r, lossNoted_filter_isStamp .., lossNoted_of_none⟩
  · exact ⟨_, (State.dropRec_tile_other h point r hn).trans ((s.tile n).put_at point).symm, rfl, fun _ => rfl⟩

theorem State.dropRec_srx_of_none (h : s.exp.tablesWf = true) {r : Rec}
    (hNone : ∀ y ∈ (s.tile (r.port / 128)).at point, y.lossOf point r.port = false) :
    (s.dropRec point r).srx r.port = (s.srx r.port).dropNoted point r.seq s.tick := by
  rw [State.dropRec_of_none hNone, State.srx_setSrx_same (State.dropCounted_tablesWf h ..)]

theorem State.dropRec_srx_of_some {r y : Rec}
    (hSome : ((s.tile (r.port / 128)).at point).find? (fun y => y.lossOf point r.port) = some y) (n : Nat) :
    (s.dropRec point r).srx n = s.srx n := by
  rw [State.dropRec_of_some hSome]
  exact State.srx_congr (s.dropCounted_exp point r) n

end Sys2Proof.Machine
end

section
/-! SUPPORT. What forming, storing and dropping the records of a port leaves alone (R167, R171, R183, R184). -/

namespace Sys2Proof.Machine

variable {s s₀ t : State} {p point : Nat}

/-! ## The relation -/

/-- The counter of drops at a point, for port `p`. -/
def pointDrop (point p : Nat) : Nat := if point = 0 then Adr.BR_DROP (p / 128) else Adr.AGG_DROP

/-- The counters that a frame of port `p`, or a record of it at a point, may step. -/
def recordReg (point p a : Nat) : Prop := a = Adr.SRX_UNM p ∨ a = Adr.SRX_DROP p ∨ a = pointDrop point p ∨ perfReg a

/-- From `s` to `t` records of port `p` were formed, stored or dropped at a point, and its open frame may have ended or one begun. -/
structure PortRecords (point p : Nat) (s t : State) : Prop where
  rest : t = { s with regs := t.regs, exp := t.exp, ctl := t.ctl }
  writes : WritesOnly (recordReg point p) s t
  tables : s.exp.tablesWf = true → t.exp.tablesWf = true
  queues : t.exp.queues = s.exp.queues
  turn : t.exp.turn = s.exp.turn
  srx : s.exp.tablesWf = true → t.srx p = { s.srx p with
    frame := (t.srx p).frame, drop0 := (t.srx p).drop0, drop1 := (t.srx p).drop1 }
  others : s.exp.tablesWf = true → ∀ n, n ≠ p → t.srx n = s.srx n

theorem PortRecords.rfl : PortRecords point p s s :=
  ⟨Eq.refl _, .rfl, id, Eq.refl _, Eq.refl _, fun _ => Eq.refl _, fun _ _ _ => Eq.refl _⟩

theorem PortRecords.trans (h : PortRecords point p s₀ s) (k : PortRecords point p s t) : PortRecords point p s₀ t where
  rest := k.rest.trans (congrArg (fun u : State => { u with regs := t.regs, exp := t.exp, ctl := t.ctl }) h.rest)
  writes := h.writes.trans k.writes
  tables := k.tables ∘ h.tables
  queues := k.queues.trans h.queues
  turn := k.turn.trans h.turn
  srx w := (k.srx (h.tables w)).trans (congrArg (fun x : Srx => { x with
    frame := (t.srx p).frame, drop0 := (t.srx p).drop0, drop1 := (t.srx p).drop1 }) (h.srx w))
  others w n hn := (k.others (h.tables w) n hn).trans (h.others w n hn)

theorem PortRecords.tick (h : PortRecords point p s t) : t.tick = s.tick := by rw [h.rest]
theorem PortRecords.time (h : PortRecords point p s t) : t.time = s.time := by rw [h.rest]
theorem PortRecords.variant (h : PortRecords point p s t) : t.variant = s.variant := by rw [h.rest]

theorem PortRecords.disablePend (h : PortRecords point p s t) (w : s.exp.tablesWf = true) : (t.srx p).disablePend = (s.srx p).disablePend := by
  rw [h.srx w]
theorem PortRecords.wrapPend (h : PortRecords point p s t) (w : s.exp.tablesWf = true) : (t.srx p).wrapPend = (s.srx p).wrapPend := by
  rw [h.srx w]
theorem PortRecords.lastRate (h : PortRecords point p s t) (w : s.exp.tablesWf = true) : (t.srx p).lastRate = (s.srx p).lastRate := by
  rw [h.srx w]
theorem PortRecords.rules (h : PortRecords point p s t) (w : s.exp.tablesWf = true) : (t.srx p).rules = (s.srx p).rules := by rw [h.srx w]
theorem PortRecords.key (h : PortRecords point p s t) (w : s.exp.tablesWf = true) : (t.srx p).key = (s.srx p).key := by rw [h.srx w]

theorem PortRecords.get (h : PortRecords point p s t) (w : s.regsWf = true) (b : Nat) (f : Field) (hb : ¬ recordReg point p (b + f.off)) :
    t.get b f = s.get b f := h.writes.get w b f hb

/-! ## Writes -/

theorem State.count_portRecords (s : State) {b : Nat} {f : Field} (n : Nat) (h : recordReg point p (b + f.off)) :
    PortRecords point p s (s.count b f n) where
  rest := Eq.refl _
  writes := s.put_writes _ h
  tables := id
  queues := Eq.refl _
  turn := Eq.refl _
  srx _ := Eq.refl _
  others _ _ _ := Eq.refl _

theorem State.hubEvent_portRecords (s : State) (ev n : Nat) : PortRecords point p s (s.hubEvent ev n) where
  rest := (s.hubEvent_rest ev n).trans (by rw [State.hubEvent_exp, State.hubEvent_ctl])
  writes := (s.hubEvent_perfReg ev n).mono fun _ hc => .inr (.inr (.inr hc))
  tables w := by rwa [State.hubEvent_exp]
  queues := by rw [State.hubEvent_exp]
  turn := by rw [State.hubEvent_exp]
  srx _ := by rw [State.srx_congr (s.hubEvent_exp ev n)]
  others _ n _ := State.srx_congr (s.hubEvent_exp ..) n

theorem State.setTile_portRecords (s : State) (n : Nat) (x : TilePath) : PortRecords point p s (s.setTile n x) :=
  ⟨rfl, .of_regs rfl rfl, fun w => State.setTile_tablesWf w n x, rfl, rfl, fun _ => rfl, fun _ _ _ => rfl⟩

/-- A receiver written with another open frame or other accounts of drops. -/
theorem State.setSrx_portRecords (s : State) {x : Srx} (hx : x = { s.srx p with frame := x.frame, drop0 := x.drop0, drop1 := x.drop1 }) :
    PortRecords point p s (s.setSrx p x) where
  rest := Eq.refl _
  writes := .of_regs rfl rfl
  tables w := State.setSrx_tablesWf w p x
  queues := Eq.refl _
  turn := Eq.refl _
  srx w := by rw [State.srx_setSrx_same w]; exact hx
  others w _ hn := State.srx_setSrx_other w x hn

theorem State.setFlt_portRecords (s : State) (x : FltUnit) : PortRecords point p s (s.setFlt x) :=
  ⟨rfl, .of_regs rfl rfl, id, rfl, rfl, fun _ => rfl, fun _ _ _ => rfl⟩

theorem State.checkRec_portRecords (s : State) (n : Nat) (r : Rec) : PortRecords point p s (s.checkRec n r).2 := by
  unfold State.checkRec
  split
  · exact s.setFlt_portRecords _
  · exact .rfl

/-! ## Drops -/

theorem State.dropCounted_portRecords (s : State) (point : Nat) (r : Rec) : PortRecords point r.port s (s.dropCounted point r) := by
  unfold State.dropCounted
  have kHub := (s.count_portRecords (f := Fl.SRX_DROP_DROPPED) 1 (.inr (.inl rfl))).trans
    (State.hubEvent_portRecords (point := point) (p := r.port) _ 0x0B 1)
  by_cases h0 : point = 0
  · rw [if_pos h0]
    exact kHub.trans (State.count_portRecords _ 1 (.inr (.inr (.inl (if_pos h0).symm))))
  · rw [if_neg h0]
    exact kHub.trans (State.count_portRecords _ 1 (.inr (.inr (.inl (if_neg h0).symm))))

theorem Srx.dropNoted_eq (x : Srx) (point seq tick : Nat) :
    x.dropNoted point seq tick = { x with drop0 := (x.dropNoted point seq tick).drop0, drop1 := (x.dropNoted point seq tick).drop1 } := by
  unfold Srx.dropNoted
  split <;> rfl

theorem Srx.dropNoted_frame (x : Srx) (point seq tick : Nat) : (x.dropNoted point seq tick).frame = x.frame := by
  rw [x.dropNoted_eq]

theorem State.dropRec_portRecords (s : State) (point : Nat) (r : Rec) : PortRecords point r.port s (s.dropRec point r) := by
  refine (s.dropCounted_portRecords point r).trans ?_
  rcases s.lossWaits_or point r with ⟨y, hSome⟩ | hNone
  · rw [State.dropRec_of_some hSome]
    exact State.setTile_portRecords ..
  · rw [State.dropRec_of_none hNone]
    refine State.setSrx_portRecords _ ?_
    rw [State.srx_congr (s.dropCounted_exp point r), Srx.dropNoted_frame]
    exact Srx.dropNoted_eq ..

theorem State.dropRec_frame (h : s.exp.tablesWf = true) (point : Nat) (r : Rec) (n : Nat) :
    ((s.dropRec point r).srx n).frame = (s.srx n).frame := by
  by_cases hn : n = r.port
  · subst hn
    rcases s.lossWaits_or point r with ⟨y, hSome⟩ | hNone
    · rw [State.dropRec_srx_of_some hSome]
    · rw [State.dropRec_srx_of_none h hNone, Srx.dropNoted_frame]
  · rw [(s.dropRec_portRecords point r).others h n hn]

/-- After its counters a drop writes no register. -/
theorem State.dropRec_regs (s : State) (point : Nat) (r : Rec) : (s.dropRec point r).regs = (s.dropCounted point r).regs
    ∧ (s.dropRec point r).variant = (s.dropCounted point r).variant := by
  rcases s.lossWaits_or point r with ⟨y, hSome⟩ | hNone
  · rw [State.dropRec_of_some hSome]
    exact ⟨rfl, rfl⟩
  · rw [State.dropRec_of_none hNone]
    exact ⟨rfl, rfl⟩

theorem State.get_congr (hr : t.regs = s.regs) (hv : t.variant = s.variant) (b : Nat) (f : Field) : t.get b f = s.get b f := by
  unfold State.get State.rd
  rw [hr, hv]

/-- The counts of a drop, of its port and of its point. -/
theorem State.dropRec_counts (h : s.regsWf = true) (point : Nat) (r : Rec) :
    (s.dropRec point r).get (Adr.SRX_DROP r.port) Fl.SRX_DROP_DROPPED
        = min 0xffffffff (s.get (Adr.SRX_DROP r.port) Fl.SRX_DROP_DROPPED + 1)
      ∧ (point = 0 → r.port < 512 → (s.dropRec point r).get (Adr.BR_DROP (r.port / 128)) Fl.BR_DROP_COUNT
          = min 0xffffffff (s.get (Adr.BR_DROP (r.port / 128)) Fl.BR_DROP_COUNT + 1))
      ∧ (point ≠ 0 → (s.dropRec point r).get Adr.AGG_DROP Fl.AGG_DROP_COUNT = min 0xffffffff (s.get Adr.AGG_DROP Fl.AGG_DROP_COUNT + 1)) := by
  obtain ⟨hRegs, hVar⟩ := s.dropRec_regs point r
  simp only [State.get_congr hRegs hVar]
  set v := s.count (Adr.SRX_DROP r.port) Fl.SRX_DROP_DROPPED 1 with hv
  have wfv : v.regsWf = true := State.count_regsWf _ _ _ h
  have kHub := v.hubEvent_perfReg 0x0B 1
  have wfu := kHub.wf wfv
  have hPort : (v.hubEvent 0x0B 1).get (Adr.SRX_DROP r.port) Fl.SRX_DROP_DROPPED
      = min 0xffffffff (s.get (Adr.SRX_DROP r.port) Fl.SRX_DROP_DROPPED + 1) :=
    (kHub.get wfv _ _ (by simp only [perfReg, Adr.SRX_DROP, Fl.SRX_DROP_DROPPED]; omega)).trans (State.get_count_same h _ _ _ (by decide))
  have hBefore : ∀ (b : Nat) (f : Field), b + f.off ≠ Adr.SRX_DROP r.port → ¬ perfReg (b + f.off) →
      (v.hubEvent 0x0B 1).get b f = s.get b f :=
    fun b f hb hh => (kHub.get wfv b f hh).trans (State.get_put_word _ _ _ _ _ hb h)
  unfold State.dropCounted
  refine ⟨?_, fun hp hLow => ?_, fun hp => ?_⟩
  · rw [← hv, apply_ite (fun u : State => u.get (Adr.SRX_DROP r.port) Fl.SRX_DROP_DROPPED)]
    refine (ite_congr rfl (fun _ => (State.get_put_word _ _ _ _ _ ?_ wfu).trans hPort) fun _ =>
      (State.get_put_word _ _ _ _ _ ?_ wfu).trans hPort).trans (ite_self _)
    · simp only [Adr.SRX_DROP, Adr.BR_DROP, Fl.SRX_DROP_DROPPED, Fl.BR_DROP_COUNT]
      omega
    · simp only [Adr.SRX_DROP, Adr.AGG_DROP, Fl.SRX_DROP_DROPPED, Fl.AGG_DROP_COUNT]
      omega
  · rw [if_pos hp]
    refine (State.get_count_same wfu _ _ _ (by decide)).trans ?_
    rw [hBefore (Adr.BR_DROP (r.port / 128)) Fl.BR_DROP_COUNT]
    · rfl
    · simp only [Adr.SRX_DROP, Adr.BR_DROP, Fl.BR_DROP_COUNT]
      omega
    · simp only [perfReg, Adr.BR_DROP, Fl.BR_DROP_COUNT]
      omega
  · rw [if_neg hp]
    refine (State.get_count_same wfu _ _ _ (by decide)).trans ?_
    rw [hBefore Adr.AGG_DROP Fl.AGG_DROP_COUNT]
    · rfl
    · simp only [Adr.SRX_DROP, Adr.AGG_DROP, Fl.AGG_DROP_COUNT]
      omega
    · simp only [perfReg, Adr.AGG_DROP, Fl.AGG_DROP_COUNT]
      omega

end Sys2Proof.Machine
end

section
/-! SUPPORT. A record enters its tile's FIFO or intake; LINK and LOSS records; the end of a frame and of a lock (R167, R171, R176,
R178, R183, R184). -/

namespace Sys2Proof.Machine

variable {s s₀ t : State} {p point : Nat}

/-! ## The LOSS record of a port -/

/-- Drops of port `p` not yet reported at a point. -/
def Srx.account (x : Srx) (point : Nat) : DropAcc := if point = 0 then x.drop0 else x.drop1

/-- The account of a point empty again. -/
def Srx.reported (x : Srx) (point : Nat) : Srx := if point = 0 then { x with drop0 := {} } else { x with drop1 := {} }

theorem Srx.reported_eq (x : Srx) (point : Nat) :
    x.reported point = { x with drop0 := (x.reported point).drop0, drop1 := (x.reported point).drop1 } := by
  unfold Srx.reported
  split <;> rfl

theorem Srx.reported_frame (x : Srx) (point : Nat) : (x.reported point).frame = x.frame := by
  rw [x.reported_eq]

/-- The LOSS record of what port `p` has not reported at a point. -/
def State.lossOwed (s : State) (point p : Nat) : Rec :=
  lossRec s point p ((s.srx p).account point).first ((s.srx p).account point).last ((s.srx p).account point).count 0

theorem State.formLoss_of_none (h : ((s.srx p).account point).count = 0) : s.formLoss point p = s := if_pos h

theorem State.formLoss_of_some (h : ((s.srx p).account point).count ≠ 0) :
    s.formLoss point p = (s.setTile (p / 128) ((s.tile (p / 128)).put point
      (placeCtl (s.lossOwed point p) ((s.tile (p / 128)).at point)))).setSrx p ((s.srx p).reported point) := by
  refine (if_neg h).trans ?_
  unfold State.lossOwed Srx.account Srx.reported TilePath.put TilePath.at
  by_cases h0 : point = 0
  · simp only [if_pos h0]
  · simp only [if_neg h0]

theorem State.formLoss_portRecords (s : State) (point p : Nat) : PortRecords point p s (s.formLoss point p) := by
  by_cases h : ((s.srx p).account point).count = 0
  · rw [State.formLoss_of_none h]
    exact .rfl
  · rw [State.formLoss_of_some h]
    refine (State.setTile_portRecords ..).trans (State.setSrx_portRecords _ ?_)
    rw [State.srx_setTile, Srx.reported_frame]
    exact Srx.reported_eq ..

theorem State.formLoss_regs (s : State) (point p : Nat) : (s.formLoss point p).regs = s.regs := by
  by_cases h : ((s.srx p).account point).count = 0
  · rw [State.formLoss_of_none h]
  · rw [State.formLoss_of_some h, State.setSrx_regs, State.setTile_regs]

/-- Of any tile the records that wait at the point alone change. -/
theorem State.formLoss_tile (h : s.exp.tablesWf = true) (point p n : Nat) :
    ∃ l, (s.formLoss point p).tile n = (s.tile n).put point l := by
  by_cases hCount : ((s.srx p).account point).count = 0
  · rw [State.formLoss_of_none hCount]
    exact ⟨_, ((s.tile n).put_at point).symm⟩
  · rw [State.formLoss_of_some hCount, State.tile_setSrx]
    by_cases hn : n = p / 128
    · subst hn
      exact ⟨_, State.tile_setTile_same h _ _⟩
    · exact ⟨_, (State.tile_setTile_other h _ hn).trans ((s.tile n).put_at point).symm⟩

theorem State.formLoss_frame (h : s.exp.tablesWf = true) (point p : Nat) : ((s.formLoss point p).srx p).frame = (s.srx p).frame := by
  by_cases hCount : ((s.srx p).account point).count = 0
  · rw [State.formLoss_of_none hCount]
  · rw [State.formLoss_of_some hCount, State.srx_setSrx_same (State.setTile_tablesWf h ..), Srx.reported_frame]

/-! ## Into the tile FIFO -/

theorem checkRec_eq (s : State) (n : Nat) (r : Rec) : ∃ b, (s.checkRec n r).1 = { r with bad := b } := by
  unfold State.checkRec
  split
  · exact ⟨_, rfl⟩
  · exact ⟨_, rfl⟩

theorem State.checkRec_exp (s : State) (n : Nat) (r : Rec) : (s.checkRec n r).2.exp = s.exp := by
  unfold State.checkRec
  split <;> rfl

theorem State.checkRec_regs (s : State) (n : Nat) (r : Rec) : (s.checkRec n r).2.regs = s.regs := by
  unfold State.checkRec
  split <;> rfl

/-- A record that always stays. -/
theorem State.toFifo_of_ctl {r : Rec} (hr : r.isStamp = false) : s.toFifo r = s.setTile (r.port / 128)
    { s.tile (r.port / 128) with fifo := placeCtl r (s.tile (r.port / 128)).fifo } := by
  unfold State.toFifo
  rw [hr]
  rfl

theorem State.toFifo_of_full {r : Rec} (hr : r.isStamp = true) (hFull : 4096 ≤ stampCount (s.tile (r.port / 128)).fifo) :
    s.toFifo r = s.dropRec 0 r := by
  unfold State.toFifo
  rw [if_pos hr, if_pos hFull]

/-- The state in which a STAMP record that finds room has been written through its checker. -/
def State.fifoChecked (s : State) (r : Rec) : Rec × State := (s.formLoss 0 r.port).checkRec (0x98 + r.port / 128) r

theorem State.toFifo_of_room {r : Rec} (hr : r.isStamp = true) (hRoom : stampCount (s.tile (r.port / 128)).fifo < 4096) :
    s.toFifo r = (s.fifoChecked r).2.setTile (r.port / 128) { (s.fifoChecked r).2.tile (r.port / 128) with
      fifo := ((s.fifoChecked r).2.tile (r.port / 128)).fifo ++ [(s.fifoChecked r).1] } := by
  unfold State.toFifo
  rw [if_pos hr, if_neg (by omega)]
  rfl

theorem State.fifoChecked_portRecords (s : State) (r : Rec) : PortRecords 0 r.port s (s.fifoChecked r).2 :=
  (s.formLoss_portRecords 0 r.port).trans (State.checkRec_portRecords ..)

theorem State.toFifo_portRecords (s : State) (r : Rec) : PortRecords 0 r.port s (s.toFifo r) := by
  by_cases hr : r.isStamp = true
  · by_cases hFull : 4096 ≤ stampCount (s.tile (r.port / 128)).fifo
    · rw [State.toFifo_of_full hr hFull]
      exact s.dropRec_portRecords 0 r
    · rw [State.toFifo_of_room hr (by omega)]
      exact (s.fifoChecked_portRecords r).trans (State.setTile_portRecords ..)
  · rw [State.toFifo_of_ctl (by simpa using hr)]
    exact State.setTile_portRecords ..

theorem State.toFifo_frame (h : s.exp.tablesWf = true) (r : Rec) : ((s.toFifo r).srx r.port).frame = (s.srx r.port).frame := by
  by_cases hr : r.isStamp = true
  · by_cases hFull : 4096 ≤ stampCount (s.tile (r.port / 128)).fifo
    · rw [State.toFifo_of_full hr hFull]
      exact State.dropRec_frame h ..
    · rw [State.toFifo_of_room hr (by omega), State.srx_setTile, State.fifoChecked, State.srx_congr (State.checkRec_exp ..)]
      exact State.formLoss_frame h ..
  · rw [State.toFifo_of_ctl (by simpa using hr), State.srx_setTile]

/-- A STAMP record that finds room is the newest, and no register changes. -/
theorem State.toFifo_newest (h : s.exp.tablesWf = true) {r : Rec} (hr : r.isStamp = true)
    (hRoom : stampCount (s.tile (r.port / 128)).fifo < 4096) : (s.toFifo r).regs = s.regs
      ∧ ∃ b, ((s.toFifo r).tile (r.port / 128)).fifo.getLast? = some { r with bad := b } := by
  obtain ⟨b, hb⟩ := checkRec_eq (s.formLoss 0 r.port) (0x98 + r.port / 128) r
  have wf := (s.fifoChecked_portRecords r).tables h
  rw [State.toFifo_of_room hr hRoom, State.setTile_regs, State.tile_setTile_same wf]
  refine ⟨(State.checkRec_regs ..).trans (s.formLoss_regs ..), b, ?_⟩
  rw [List.getLast?_concat]
  exact congrArg some hb

/-! ## Into the intake -/

theorem State.toIntake_of_ctl {n : Nat} {r : Rec} (hr : r.isStamp = false) :
    s.toIntake n r = s.setTile n { s.tile n with intake := placeCtl r (s.tile n).intake } := by
  unfold State.toIntake
  rw [hr]
  rfl

theorem State.toIntake_of_full {n : Nat} {r : Rec} (hr : r.isStamp = true) (hFull : 1024 ≤ stampCount (s.tile n).intake) :
    s.toIntake n r = s.dropRec 1 r := by
  unfold State.toIntake
  rw [if_pos hr, if_pos hFull]

theorem State.toIntake_of_room {n : Nat} {r : Rec} (hr : r.isStamp = true) (hRoom : stampCount (s.tile n).intake < 1024) :
    s.toIntake n r = (s.formLoss 1 r.port).setTile n { (s.formLoss 1 r.port).tile n with
      intake := ((s.formLoss 1 r.port).tile n).intake ++ [r] } := by
  unfold State.toIntake
  rw [if_pos hr, if_neg (by omega)]

theorem State.toIntake_portRecords (s : State) (n : Nat) (r : Rec) : PortRecords 1 r.port s (s.toIntake n r) := by
  by_cases hr : r.isStamp = true
  · by_cases hFull : 1024 ≤ stampCount (s.tile n).intake
    · rw [State.toIntake_of_full hr hFull]
      exact s.dropRec_portRecords 1 r
    · rw [State.toIntake_of_room hr (by omega)]
      exact (s.formLoss_portRecords ..).trans (State.setTile_portRecords ..)
  · rw [State.toIntake_of_ctl (by simpa using hr)]
    exact State.setTile_portRecords ..

/-- What enters the intake leaves the FIFO. -/
theorem State.toIntake_fifo (h : s.exp.tablesWf = true) (n : Nat) (r : Rec) : ((s.toIntake n r).tile n).fifo = (s.tile n).fifo := by
  by_cases hr : r.isStamp = true
  · by_cases hFull : 1024 ≤ stampCount (s.tile n).intake
    · rw [State.toIntake_of_full hr hFull]
      obtain ⟨l, hl, -, -⟩ := State.dropRec_tile h 1 r n
      rw [hl]
      rfl
    · obtain ⟨l, hl⟩ := State.formLoss_tile h 1 r.port n
      rw [State.toIntake_of_room hr (by omega), State.tile_setTile_same ((s.formLoss_portRecords ..).tables h), hl]
      rfl
  · rw [State.toIntake_of_ctl (by simpa using hr), State.tile_setTile_same h]

/-! ## LINK records -/

theorem headWord_mod (kind dom tq port hi : Nat) : headWord kind dom tq port hi % 16 = kind % 16 := by
  unfold headWord
  omega

theorem headWord_testBit_sixteen {kind dom tq port hi : Nat} (hk : kind < 16) (hd : dom < 2) (ht : tq < 2) (hp : port < 1024) :
    (headWord kind dom tq port hi).testBit 16 = hi.testBit 0 := by
  have hHigh : headWord kind dom tq port hi / 2 ^ 16 = hi := by
    unfold headWord
    omega
  calc (headWord kind dom tq port hi).testBit 16
    _ = (headWord kind dom tq port hi / 2 ^ 16).testBit 0 := by rw [Nat.testBit_div_two_pow]
    _ = hi.testBit 0 := by rw [hHigh]

theorem domIx_lt (d : Dom) : domIx d < 2 := by cases d <;> decide

theorem State.tq_lt (s : State) : s.tq < 2 := by
  unfold State.tq
  split <;> decide

/-- A LINK record that enters the FIFO waits there, as it is or merged: its lock, its time and its epoch are those of the event. -/
theorem State.toFifo_link (h : s.exp.tablesWf = true) (hp : p < 512) (lock rate ns32 frac8 : Nat) :
    ∃ r ∈ ((s.toFifo (linkRec s p lock rate 0 ns32 frac8)).tile (p / 128)).fifo, r.kind = 6 ∧ r.port = p
      ∧ (r.word 0).testBit 16 = lock.testBit 0 ∧ r.word 2 = ns32 ∧ r.word 4 = s.get (Adr.SRX_STAT p) Fl.SRX_STAT_LOCKSEQ := by
  set r := linkRec s p lock rate 0 ns32 frac8 with hr
  have hKind : r.kind = 6 := headWord_mod ..
  have hBit : (r.word 0).testBit 16 = lock.testBit 0 := by
    refine (headWord_testBit_sixteen (by decide) (domIx_lt _) s.tq_lt (by omega)).trans ?_
    rw [Nat.testBit_zero, Nat.testBit_zero, show (lock + 2 * rate + 4 * 0) % 2 = lock % 2 by omega]
  have hFifo : ((s.toFifo r).tile (p / 128)).fifo = placeCtl r (s.tile (p / 128)).fifo := by
    rw [State.toFifo_of_ctl (by simp [Rec.isStamp, hKind])]
    exact congrArg TilePath.fifo (State.tile_setTile_same h (p / 128) _)
  rw [hFifo]
  rcases mem_placeCtl_link hKind (s.tile (p / 128)).fifo with hMem | hMem
  · exact ⟨r, hMem, hKind, rfl, hBit, rfl, rfl⟩
  · exact ⟨r.merged, hMem, r.merged_kind.trans hKind, rfl, (r.merged_testBit (by decide)).trans hBit, r.merged_word 1, r.merged_word 3⟩

/-! ## A frame ends -/

theorem State.endFrame_of_none (h : (s.srx p).frame = none) (bs : List Byte) (len : Nat) (how : FrameEnd) :
    s.endFrame p bs len how = s := by
  unfold State.endFrame
  dsimp only
  rw [h]

/-- The receiver without its open frame. -/
def State.frameGone (s : State) (p : Nat) : State := s.setSrx p { s.srx p with frame := none }

theorem State.endFrame_of_unmatched {f : Frame} (hf : (s.srx p).frame = some f) {bs : List Byte} {len : Nat}
    (hRule : firstRule f.rules bs (min len 65535) = none) (how : FrameEnd) :
    s.endFrame p bs len how = (s.frameGone p).count (Adr.SRX_UNM p) Fl.SRX_UNM_UNMATCHED 1 := by
  unfold State.endFrame
  dsimp only
  rw [hf]
  dsimp only
  rw [hRule]
  rfl

theorem State.endFrame_of_matched {f : Frame} (hf : (s.srx p).frame = some f) {bs : List Byte} {len n : Nat} {rule : Rule}
    (hRule : firstRule f.rules bs (min len 65535) = some (rule, n)) (how : FrameEnd) :
    s.endFrame p bs len how = (s.frameGone p).toFifo (stampRec p f bs (min len 65535) how rule n) := by
  unfold State.endFrame
  dsimp only
  rw [hf]
  dsimp only
  rw [hRule]
  rfl

theorem State.frameGone_portRecords (s : State) (p : Nat) : PortRecords point p s (s.frameGone p) := State.setSrx_portRecords s rfl

theorem State.endFrame_portRecords (s : State) (p : Nat) (bs : List Byte) (len : Nat) (how : FrameEnd) :
    PortRecords 0 p s (s.endFrame p bs len how) := by
  cases hf : (s.srx p).frame with
  | none =>
    rw [State.endFrame_of_none hf]
    exact .rfl
  | some f =>
    cases hRule : firstRule f.rules bs (min len 65535) with
    | none =>
      rw [State.endFrame_of_unmatched hf hRule]
      exact (s.frameGone_portRecords p).trans (State.count_portRecords _ 1 (.inl rfl))
    | some m =>
      rw [State.endFrame_of_matched hf hRule]
      exact (s.frameGone_portRecords p).trans (State.toFifo_portRecords _ (stampRec p f bs (min len 65535) how m.1 m.2))

theorem State.frameGone_frame (h : s.exp.tablesWf = true) (p : Nat) : ((s.frameGone p).srx p).frame = none := by
  unfold State.frameGone
  rw [State.srx_setSrx_same h]

theorem State.endFrame_frame (h : s.exp.tablesWf = true) (p : Nat) (bs : List Byte) (len : Nat) (how : FrameEnd) :
    ((s.endFrame p bs len how).srx p).frame = none := by
  cases hf : (s.srx p).frame with
  | none => rw [State.endFrame_of_none hf, hf]
  | some f =>
    cases hRule : firstRule f.rules bs (min len 65535) with
    | none =>
      rw [State.endFrame_of_unmatched hf hRule]
      exact State.frameGone_frame h p
    | some m =>
      rw [State.endFrame_of_matched hf hRule]
      exact (State.toFifo_frame ((s.frameGone_portRecords (point := 0) p).tables h) (stampRec p f bs (min len 65535) how m.1 m.2)).trans
        (State.frameGone_frame h p)

end Sys2Proof.Machine
end

section
/-! SUPPORT. The end of a lock, the start of an acquisition, and the word SRX_STAT of a receiver (R166, R167, R178, R182). -/

namespace Sys2Proof.Machine

variable {s s₀ t : State} {p : Nat}

/-! ## Registers of a receiver -/

/-- The registers of a receiver that no record of it writes. -/
theorem not_recordReg {a : Nat} (h : a ∈ [Adr.SRX_STAT p, Adr.SRX_SEQ p, Adr.SRX_EPOCH p, Adr.SRX_ERR p]) : ¬ recordReg 0 p a := by
  simp only [List.mem_cons, List.not_mem_nil, or_false, Adr.SRX_STAT, Adr.SRX_SEQ, Adr.SRX_EPOCH, Adr.SRX_ERR] at h
  simp only [recordReg, pointDrop, perfReg, Adr.SRX_UNM, Adr.SRX_DROP, Adr.BR_DROP, if_pos]
  omega

theorem PortRecords.stat (h : PortRecords 0 p s t) (w : s.regsWf = true) : t.rd (Adr.SRX_STAT p) = s.rd (Adr.SRX_STAT p) :=
  h.writes.rd w _ (not_recordReg (by simp))

theorem PortRecords.err (h : PortRecords 0 p s t) (w : s.regsWf = true) : t.rd (Adr.SRX_ERR p) = s.rd (Adr.SRX_ERR p) :=
  h.writes.rd w _ (not_recordReg (by simp))

/-- A field in the first word of a block. -/
theorem State.get_of_rd {b : Nat} (h : t.rd b = s.rd b) {f : Field} (hf : f.off = 0) : t.get b f = s.get b f := by
  unfold State.get
  rw [hf, Nat.add_zero, h]

theorem State.flag_of_rd {b : Nat} (h : t.rd b = s.rd b) {f : Field} (hf : f.off = 0) : t.flag b f = s.flag b f :=
  congrArg (· != 0) (State.get_of_rd h hf)

/-! ## A lock ends -/

/-- LOCK clear, and LOCK_LOSS stepped where the lock was lost. -/
def State.lockEnded (s : State) (p : Nat) (counted : Bool) : State :=
  if counted then (s.putFlag (Adr.SRX_STAT p) Fl.SRX_STAT_LOCK false).count (Adr.SRX_ERR p) Fl.SRX_ERR_LOCK_LOSS 1
  else s.putFlag (Adr.SRX_STAT p) Fl.SRX_STAT_LOCK false

/-- The lock ended, behind the end of the open frame. -/
def State.frameEnded (s : State) (p : Nat) (bs : List Byte) (len : Nat) (counted : Bool) : State :=
  (s.endFrame p bs len .errored).lockEnded p counted

theorem State.unlock_eq (s : State) (p ns32 frac8 : Nat) (bs : List Byte) (len : Nat) (counted : Bool) :
    ∃ rate, s.unlock p ns32 frac8 bs len counted
      = (s.frameEnded p bs len counted).toFifo (linkRec (s.frameEnded p bs len counted) p 0 rate 0 ns32 frac8) := ⟨_, rfl⟩

theorem State.lockEnded_exp (s : State) (p : Nat) (counted : Bool) : (s.lockEnded p counted).exp = s.exp := by cases counted <;> rfl
theorem State.lockEnded_tick (s : State) (p : Nat) (counted : Bool) : (s.lockEnded p counted).tick = s.tick := by cases counted <;> rfl

theorem State.lockEnded_regsWf (h : s.regsWf = true) (p : Nat) (counted : Bool) : (s.lockEnded p counted).regsWf = true := by
  cases counted
  · exact State.putFlag_regsWf _ _ _ h
  · exact State.count_regsWf _ _ _ (State.putFlag_regsWf _ _ _ h)

theorem srxStat_ne_err (p : Nat) : Adr.SRX_STAT p ≠ Adr.SRX_ERR p := by
  unfold Adr.SRX_STAT Adr.SRX_ERR
  omega

/-- Of SRX_STAT the end of a lock writes LOCK alone. -/
theorem State.lockEnded_stat (h : s.regsWf = true) (p : Nat) (counted : Bool) :
    (s.lockEnded p counted).rd (Adr.SRX_STAT p) = (s.putFlag (Adr.SRX_STAT p) Fl.SRX_STAT_LOCK false).rd (Adr.SRX_STAT p) := by
  cases counted
  · rfl
  · exact State.rd_put_word _ _ _ _ (srxStat_ne_err p) (State.putFlag_regsWf _ _ _ h)

theorem State.lockEnded_rd (h : s.regsWf = true) (p : Nat) (counted : Bool) {a : Nat} (hs : a ≠ Adr.SRX_STAT p)
    (he : counted = true → a ≠ Adr.SRX_ERR p) : (s.lockEnded p counted).rd a = s.rd a := by
  cases counted
  · exact State.rd_put_word _ _ _ _ hs h
  · exact (State.rd_put_word _ _ _ _ (he rfl) (State.putFlag_regsWf _ _ _ h)).trans (State.rd_put_word _ _ _ _ hs h)

theorem linkRec_not_isStamp (s : State) (p lock rate merged ns32 frac8 : Nat) :
    (linkRec s p lock rate merged ns32 frac8).isStamp = false := by
  have hKind : (linkRec s p lock rate merged ns32 frac8).kind = 6 := headWord_mod ..
  unfold Rec.isStamp
  rw [hKind]
  rfl

/-- A LINK record writes no register, and of the receivers nothing. -/
theorem State.toFifo_linkRec (s v : State) (p lock rate merged ns32 frac8 : Nat) :
    (s.toFifo (linkRec v p lock rate merged ns32 frac8)).regs = s.regs
      ∧ (∀ n, (s.toFifo (linkRec v p lock rate merged ns32 frac8)).srx n = s.srx n)
      ∧ (∀ a, (s.toFifo (linkRec v p lock rate merged ns32 frac8)).rd a = s.rd a)
      ∧ (s.toFifo (linkRec v p lock rate merged ns32 frac8)).exp.queues = s.exp.queues := by
  rw [State.toFifo_of_ctl (linkRec_not_isStamp ..)]
  exact ⟨rfl, fun _ => rfl, fun _ => rfl, rfl⟩

/-- From `s` to `t` the lock of port `p` ended, at the instant of `ns32`. -/
structure Unlocked (p ns32 : Nat) (counted : Bool) (s t : State) : Prop where
  tick : t.tick = s.tick
  wf : t.regsWf = true
  tables : t.exp.tablesWf = true
  stat : t.rd (Adr.SRX_STAT p) = (s.putFlag (Adr.SRX_STAT p) Fl.SRX_STAT_LOCK false).rd (Adr.SRX_STAT p)
  loss : counted = true → t.rd (Adr.SRX_ERR p) = (s.count (Adr.SRX_ERR p) Fl.SRX_ERR_LOCK_LOSS 1).rd (Adr.SRX_ERR p)
  rd : ∀ a, ¬ recordReg 0 p a → a ≠ Adr.SRX_STAT p → a ≠ Adr.SRX_ERR p → t.rd a = s.rd a
  frame : (t.srx p).frame = none
  disablePend : (t.srx p).disablePend = (s.srx p).disablePend
  lastRate : (t.srx p).lastRate = (s.srx p).lastRate
  link : p < 512 → ∃ r ∈ (t.tile (p / 128)).fifo, r.kind = 6 ∧ r.port = p ∧ (r.word 0).testBit 16 = false ∧ r.word 2 = ns32

/-- A field put into words that read alike. -/
theorem State.rd_put_congr (hs : s.regsWf = true) (ht : t.regsWf = true) {b : Nat} {f : Field} (h : t.rd (b + f.off) = s.rd (b + f.off))
    (n : Nat) : (t.put b f n).rd (b + f.off) = (s.put b f n).rd (b + f.off) := by
  unfold State.put
  rw [State.rd_wr_same _ _ ht, State.rd_wr_same _ _ hs, h]

theorem State.unlock_unlocked (h : s.regsWf = true) (hT : s.exp.tablesWf = true) (p ns32 frac8 : Nat) (bs : List Byte) (len : Nat)
    (counted : Bool) : Unlocked p ns32 counted s (s.unlock p ns32 frac8 bs len counted) := by
  obtain ⟨rate, hEq⟩ := s.unlock_eq p ns32 frac8 bs len counted
  have kEnd := s.endFrame_portRecords p bs len .errored
  have wfEnd := kEnd.writes.wf h
  set v := s.endFrame p bs len .errored with hv
  set w := s.frameEnded p bs len counted with hw
  have wExp : w.exp = v.exp := State.lockEnded_exp ..
  have wT : w.exp.tablesWf = true := wExp ▸ kEnd.tables hT
  have wWf : w.regsWf = true := State.lockEnded_regsWf wfEnd p counted
  have kLink := w.toFifo_portRecords (linkRec w p 0 rate 0 ns32 frac8)
  obtain ⟨-, hSrx, hRd, -⟩ := w.toFifo_linkRec w p 0 rate 0 ns32 frac8
  rw [hEq]
  refine ⟨kLink.tick.trans ((State.lockEnded_tick ..).trans kEnd.tick), kLink.writes.wf wWf, kLink.tables wT, ?_, ?_, ?_, ?_, ?_, ?_, ?_⟩
  · rw [hRd]
    exact (State.lockEnded_stat wfEnd p counted).trans (State.rd_put_congr h wfEnd (kEnd.stat h) _)
  · rintro rfl
    have wfLock : (v.putFlag (Adr.SRX_STAT p) Fl.SRX_STAT_LOCK false).regsWf = true := State.putFlag_regsWf _ _ _ wfEnd
    have err : (v.putFlag (Adr.SRX_STAT p) Fl.SRX_STAT_LOCK false).rd (Adr.SRX_ERR p) = s.rd (Adr.SRX_ERR p) :=
      (State.rd_put_word _ _ _ _ (srxStat_ne_err p).symm wfEnd).trans (kEnd.err h)
    rw [hRd]
    refine (State.rd_put_congr h wfLock err _).trans ?_
    rw [State.get_of_rd err rfl]
    rfl
  · intro a hRec hStat hErr
    rw [hRd]
    exact (State.lockEnded_rd wfEnd p counted hStat fun _ => hErr).trans (kEnd.writes.rd h a hRec)
  · rw [hSrx, State.srx_congr wExp]
    exact State.endFrame_frame hT ..
  · rw [hSrx, State.srx_congr wExp]
    exact kEnd.disablePend hT
  · rw [hSrx, State.srx_congr wExp]
    exact kEnd.lastRate hT
  · intro hp
    obtain ⟨r, hMem, hKind, hPort, hBit, hNs, -⟩ := State.toFifo_link wT hp 0 rate ns32 frac8
    exact ⟨r, hMem, hKind, hPort, hBit, hNs⟩

theorem Unlocked.lock {ns32 : Nat} {counted : Bool} (h : Unlocked p ns32 counted s t) (w : s.regsWf = true) :
    t.flag (Adr.SRX_STAT p) Fl.SRX_STAT_LOCK = false :=
  (State.flag_of_rd h.stat rfl).trans (State.flag_putFlag_same _ _ _ (by decide) (by decide) w)

/-- A lost lock steps LOCK_LOSS and leaves BLK_ERR. -/
theorem Unlocked.lockLoss {ns32 : Nat} (h : Unlocked p ns32 true s t) (w : s.regsWf = true) :
    t.get (Adr.SRX_ERR p) Fl.SRX_ERR_LOCK_LOSS = min 0xffff (s.get (Adr.SRX_ERR p) Fl.SRX_ERR_LOCK_LOSS + 1)
      ∧ t.get (Adr.SRX_ERR p) Fl.SRX_ERR_BLK_ERR = s.get (Adr.SRX_ERR p) Fl.SRX_ERR_BLK_ERR :=
  ⟨(State.get_of_rd (h.loss rfl) rfl).trans (State.get_count_same w _ _ _ (by decide)),
    (State.get_of_rd (h.loss rfl) rfl).trans (State.get_put_apart w _ _ _ _ (by decide))⟩

/-! ## A receiver disabled -/

/-- ACQ clear where LOCK is, behind writes of SRX_STAT alone. -/
theorem State.acqEnded {u : State} (h : s.regsWf = true) (hLock : u.flag (Adr.SRX_STAT p) Fl.SRX_STAT_LOCK = false)
    (k : WritesOnly (· = Adr.SRX_STAT p) s u) (x : Srx) :
    ((u.putFlag (Adr.SRX_STAT p) Fl.SRX_STAT_ACQ false).setSrx p x).flag (Adr.SRX_STAT p) Fl.SRX_STAT_LOCK = false
      ∧ ((u.putFlag (Adr.SRX_STAT p) Fl.SRX_STAT_ACQ false).setSrx p x).flag (Adr.SRX_STAT p) Fl.SRX_STAT_ACQ = false
      ∧ WritesOnly (· = Adr.SRX_STAT p) s ((u.putFlag (Adr.SRX_STAT p) Fl.SRX_STAT_ACQ false).setSrx p x) := by
  rw [State.setSrx_flag, State.setSrx_flag]
  refine ⟨(State.flag_put_apart (k.wf h) _ _ _ _ (by decide)).trans hLock,
    State.flag_putFlag_same _ _ _ (by decide) (by decide) (k.wf h), ?_⟩
  exact k.trans ((State.putFlag_writesOnly _ _ _ rfl).trans (.of_regs rfl rfl))

/-- Without an open frame the disabling of a receiver writes its word SRX_STAT alone, and ends lock and acquisition. -/
theorem State.disableSrx_of_noFrame (h : s.regsWf = true) (hf : (s.srx p).frame = none) (ns32 frac8 : Nat) :
    (s.disableSrx p ns32 frac8).flag (Adr.SRX_STAT p) Fl.SRX_STAT_LOCK = false
      ∧ (s.disableSrx p ns32 frac8).flag (Adr.SRX_STAT p) Fl.SRX_STAT_ACQ = false
      ∧ WritesOnly (· = Adr.SRX_STAT p) s (s.disableSrx p ns32 frac8) := by
  unfold State.disableSrx
  by_cases hLock : s.flag (Adr.SRX_STAT p) Fl.SRX_STAT_LOCK = true
  · rw [if_pos hLock]
    obtain ⟨rate, hEq⟩ := s.unlock_eq p ns32 frac8 [] 0 false
    rw [hEq]
    have hEnded : s.frameEnded p [] 0 false = s.putFlag (Adr.SRX_STAT p) Fl.SRX_STAT_LOCK false := by
      unfold State.frameEnded
      rw [State.endFrame_of_none hf]
      rfl
    rw [hEnded]
    set v := s.putFlag (Adr.SRX_STAT p) Fl.SRX_STAT_LOCK false with hv
    obtain ⟨hRegs, -, hRd, -⟩ := v.toFifo_linkRec v p 0 rate 0 ns32 frac8
    have kLink := v.toFifo_portRecords (linkRec v p 0 rate 0 ns32 frac8)
    exact State.acqEnded h ((State.flag_of_rd (hRd _) rfl).trans (State.flag_putFlag_same _ _ _ (by decide) (by decide) h))
      ((State.putFlag_writesOnly _ _ _ rfl).trans (.of_regs hRegs kLink.variant)) _
  · rw [if_neg hLock]
    exact State.acqEnded h (by simpa using hLock) .rfl _

/-! ## An acquisition starts -/

theorem State.acquire_eq (s : State) (p : Nat) : s.acquire p = (s.putFlag (Adr.SRX_STAT p) Fl.SRX_STAT_ACQ true).setSrx p { s.srx p with
    tryRate := (rateSetting (s.get (Adr.SRX_CFG p) Fl.SRX_CFG_RATE)).getD ((s.srx p).lastRate.getD 1), tryTick := s.tick } := rfl

theorem State.acquire_acq (h : s.regsWf = true) (p : Nat) : (s.acquire p).flag (Adr.SRX_STAT p) Fl.SRX_STAT_ACQ = true := by
  rw [State.acquire_eq, State.setSrx_flag]
  exact State.flag_putFlag_same _ _ _ (by decide) (by decide) h

theorem State.acquire_lock (h : s.regsWf = true) (p : Nat) :
    (s.acquire p).flag (Adr.SRX_STAT p) Fl.SRX_STAT_LOCK = s.flag (Adr.SRX_STAT p) Fl.SRX_STAT_LOCK := by
  rw [State.acquire_eq, State.setSrx_flag]
  exact State.flag_put_apart h _ _ _ _ (by decide)

theorem State.acquire_writesOnly (s : State) (p : Nat) : WritesOnly (· = Adr.SRX_STAT p) s (s.acquire p) := by
  rw [State.acquire_eq]
  exact (State.putFlag_writesOnly _ _ _ rfl).trans (.of_regs rfl rfl)

/-- The acquisition runs at the set rate, else at the one last locked, from this tick on. -/
theorem State.acquire_srx (h : s.exp.tablesWf = true) (p : Nat) : (s.acquire p).srx p = { s.srx p with
    tryRate := (rateSetting (s.get (Adr.SRX_CFG p) Fl.SRX_CFG_RATE)).getD ((s.srx p).lastRate.getD 1), tryTick := s.tick } := by
  rw [State.acquire_eq]
  exact State.srx_setSrx_same h p _

end Sys2Proof.Machine
end

section
/-! O33: a receiver locks, loses its lock, tries the other rate, and takes EN, RATE and its rules (R166, R167, R172, R178, R182). -/

namespace Sys2Proof.Machine

variable {s t : State} {p : Nat}

/-! ## Lock gained -/

/-- The receiver with the rate being tried as the one last locked, and its word SRX_STAT in a new lock epoch. -/
def State.locked (s : State) (p : Nat) : State :=
  ((((s.setSrx p { s.srx p with lastRate := some (s.srx p).tryRate }).putFlag (Adr.SRX_STAT p) Fl.SRX_STAT_LOCK true).put
    (Adr.SRX_STAT p) Fl.SRX_STAT_RATE_ACT (s.srx p).tryRate).putFlag (Adr.SRX_STAT p) Fl.SRX_STAT_ACQ false).countWrap
    (Adr.SRX_STAT p) Fl.SRX_STAT_LOCKSEQ 1

theorem blockLockGained_of_acq {delta : Nat} (hOn : s.srxOn p = true) (hAcq : s.flag (Adr.SRX_STAT p) Fl.SRX_STAT_ACQ = true) :
    blockLockGained p delta s = (s.locked p).toFifo
      (linkRec (s.locked p) p 1 (s.srx p).tryRate 0 (s.stampOf p delta).1 (s.stampOf p delta).2.1) := by
  unfold blockLockGained
  rw [hOn, hAcq]
  rfl

theorem blockLockGained_of_not_acq {delta : Nat} (h : s.srxOn p = false ∨ s.flag (Adr.SRX_STAT p) Fl.SRX_STAT_ACQ = false) :
    blockLockGained p delta s = s := if_pos (by rcases h with h | h <;> simp [h])

theorem State.locked_writesOnly (s : State) (p : Nat) : WritesOnly (· = Adr.SRX_STAT p) s (s.locked p) := by
  have kSrx : WritesOnly (· = Adr.SRX_STAT p) s (s.setSrx p { s.srx p with lastRate := some (s.srx p).tryRate }) := .of_regs rfl rfl
  exact (((kSrx.trans (State.putFlag_writesOnly _ _ _ rfl)).trans (State.put_writesOnly _ _ _ rfl)).trans
    (State.putFlag_writesOnly _ _ _ rfl)).trans (State.put_writesOnly _ _ _ rfl)

theorem State.locked_stat (h : s.regsWf = true) (p : Nat) :
    (s.locked p).flag (Adr.SRX_STAT p) Fl.SRX_STAT_LOCK = true ∧ (s.locked p).flag (Adr.SRX_STAT p) Fl.SRX_STAT_ACQ = false
      ∧ (s.locked p).get (Adr.SRX_STAT p) Fl.SRX_STAT_RATE_ACT = (s.srx p).tryRate % 2
      ∧ (s.locked p).get (Adr.SRX_STAT p) Fl.SRX_STAT_LOCKSEQ = (s.get (Adr.SRX_STAT p) Fl.SRX_STAT_LOCKSEQ + 1) % 65536 := by
  unfold State.locked
  set a := s.setSrx p { s.srx p with lastRate := some (s.srx p).tryRate } with ha
  have wfa : a.regsWf = true := h
  set b := a.putFlag (Adr.SRX_STAT p) Fl.SRX_STAT_LOCK true with hb
  have kb : TimeWrites (Adr.SRX_STAT p) [Fl.SRX_STAT_LOCK] a b := a.putFlag_timeWrites ..
  set c := b.put (Adr.SRX_STAT p) Fl.SRX_STAT_RATE_ACT (s.srx p).tryRate with hc
  have kc : TimeWrites (Adr.SRX_STAT p) [Fl.SRX_STAT_RATE_ACT] b c := b.put_timeWrites ..
  set d := c.putFlag (Adr.SRX_STAT p) Fl.SRX_STAT_ACQ false with hd
  have kd : TimeWrites (Adr.SRX_STAT p) [Fl.SRX_STAT_ACQ] c d := c.putFlag_timeWrites ..
  have ke : TimeWrites (Adr.SRX_STAT p) [Fl.SRX_STAT_LOCKSEQ] d (d.countWrap (Adr.SRX_STAT p) Fl.SRX_STAT_LOCKSEQ 1) :=
    d.put_timeWrites ..
  have wfb := kb.wf wfa
  have wfc := kc.wf wfb
  refine ⟨?_, ?_, ?_, ?_⟩
  · exact (((kc.trans kd).trans ke).flag wfb _ (by decide)).trans (State.flag_putFlag_same _ _ _ (by decide) (by decide) wfa)
  · exact (ke.flag (kd.wf wfc) _ (by decide)).trans (State.flag_putFlag_same _ _ _ (by decide) (by decide) wfc)
  · exact ((kd.trans ke).get wfc _ (by decide)).trans (State.get_put_same _ _ _ (by decide) wfb)
  · refine (State.get_put_same _ _ _ (by decide) (kd.wf wfc)).trans ?_
    rw [((kb.trans kc).trans kd).get wfa Fl.SRX_STAT_LOCKSEQ (by decide)]
    rfl

theorem State.locked_exp (s : State) (p : Nat) :
    (s.locked p).exp = (s.setSrx p { s.srx p with lastRate := some (s.srx p).tryRate }).exp := rfl

/-! ## Lock lost -/

/-- The state in which the lock has been lost: BLK_ERR counted, frame and lock ended, the LINK record formed. -/
def State.lockLost (s : State) (p delta : Nat) (bytes : List Byte) (len : Nat) : State :=
  (s.count (Adr.SRX_ERR p) Fl.SRX_ERR_BLK_ERR 16).unlock p (s.stampOf p delta).1 (s.stampOf p delta).2.1 bytes len true

theorem State.lockLost_unlocked (h : s.regsWf = true) (hT : s.exp.tablesWf = true) (p delta : Nat) (bytes : List Byte) (len : Nat) :
    Unlocked p (s.stampOf p delta).1 true (s.count (Adr.SRX_ERR p) Fl.SRX_ERR_BLK_ERR 16) (s.lockLost p delta bytes len) :=
  State.unlock_unlocked (State.count_regsWf _ _ _ h) hT ..

theorem blockLockLost_of_lock {delta len : Nat} {bytes : List Byte} (h : s.regsWf = true) (hT : s.exp.tablesWf = true)
    (hOn : s.srxOn p = true) (hLock : s.flag (Adr.SRX_STAT p) Fl.SRX_STAT_LOCK = true) (hPend : (s.srx p).disablePend = false) :
    blockLockLost p delta bytes len s = ((s.lockLost p delta bytes len).putFlag (Adr.SRX_STAT p) Fl.SRX_STAT_ACQ true).setSrx p
      { (s.lockLost p delta bytes len).srx p with
        tryRate := ((s.lockLost p delta bytes len).srx p).lastRate.getD 1, tryTick := (s.lockLost p delta bytes len).tick } := by
  have hStays : ((s.lockLost p delta bytes len).srx p).disablePend = false := (State.lockLost_unlocked h hT ..).disablePend.trans hPend
  unfold blockLockLost
  rw [hOn, hLock]
  exact (if_neg (by decide)).trans (if_neg (Bool.eq_false_iff.mp hStays))

theorem blockLockLost_of_not_lock {delta len : Nat} {bytes : List Byte}
    (h : s.srxOn p = false ∨ s.flag (Adr.SRX_STAT p) Fl.SRX_STAT_LOCK = false) : blockLockLost p delta bytes len s = s :=
  if_pos (by rcases h with h | h <;> simp [h])

/-- The words of the receiver and of its point once the lock is lost. -/
theorem State.lockLost_words (h : s.regsWf = true) (hT : s.exp.tablesWf = true) (p delta : Nat) (bytes : List Byte) (len : Nat) :
    (s.lockLost p delta bytes len).flag (Adr.SRX_STAT p) Fl.SRX_STAT_LOCK = false
      ∧ (s.lockLost p delta bytes len).get (Adr.SRX_ERR p) Fl.SRX_ERR_LOCK_LOSS
        = min 0xffff (s.get (Adr.SRX_ERR p) Fl.SRX_ERR_LOCK_LOSS + 1)
      ∧ (s.lockLost p delta bytes len).get (Adr.SRX_ERR p) Fl.SRX_ERR_BLK_ERR
        = min 0xffff (s.get (Adr.SRX_ERR p) Fl.SRX_ERR_BLK_ERR + 16)
      ∧ ∀ a, ¬ recordReg 0 p a → a ≠ Adr.SRX_STAT p → a ≠ Adr.SRX_ERR p → (s.lockLost p delta bytes len).rd a = s.rd a := by
  have wf : (s.count (Adr.SRX_ERR p) Fl.SRX_ERR_BLK_ERR 16).regsWf = true := State.count_regsWf _ _ _ h
  have k := State.lockLost_unlocked h hT p delta bytes len
  obtain ⟨hLoss, hErr⟩ := k.lockLoss wf
  refine ⟨k.lock wf, hLoss.trans ?_, hErr.trans (State.get_count_same h _ _ _ (by decide)), fun a hRec hStat hNe => ?_⟩
  · rw [State.count, State.get_put_apart h _ _ _ _ (by decide)]
  · exact (k.rd a hRec hStat hNe).trans (State.rd_put_word _ _ _ _ hNe h)

/-! ## AUTO -/

theorem rateSetting_isNone {n : Nat} (h : 2 ≤ n) : (rateSetting n).isNone = true := by
  unfold rateSetting
  rw [if_neg (by omega)]
  rfl

theorem autoRateTry_of_due (hOn : s.srxOn p = true) (hAcq : s.flag (Adr.SRX_STAT p) Fl.SRX_STAT_ACQ = true)
    (hAuto : 2 ≤ s.get (Adr.SRX_CFG p) Fl.SRX_CFG_RATE) (hDue : (s.srx p).tryTick + msTicks 4 ≤ s.tick) :
    autoRateTry p s = s.setSrx p { s.srx p with tryRate := 1 - (s.srx p).tryRate, tryTick := s.tick } :=
  if_pos (by simp [hOn, hAcq, rateSetting_isNone hAuto, hDue])

theorem autoRateTry_of_not_due (h : s.srxOn p = false ∨ s.tick < (s.srx p).tryTick + msTicks 4) : autoRateTry p s = s :=
  if_neg (by rcases h with h | h <;> simp [h])

/-! ## EN -/

theorem srxEn_of_off (h : s.srxOn p = false) (v : Word) : srxEn p v s = s := if_pos (by simp [h])

theorem State.noteWindow_srx (h : s.exp.tablesWf = true) (p : Nat) :
    (s.noteWindow p).srx p = { s.srx p with pol := (s.srx p).pol.setWindow ((s.srx p).pol.window s.tick) } :=
  State.srx_setSrx_same h p _

/-- EN written, with the window of the receiver noted where EN is or was 1. -/
def State.enWritten (s : State) (p : Nat) (now : Bool) : State :=
  (if s.flag (Adr.SRX_CFG p) Fl.SRX_CFG_EN || now then s.noteWindow p else s).putFlag (Adr.SRX_CFG p) Fl.SRX_CFG_EN now

theorem State.enWritten_tablesWf (h : s.exp.tablesWf = true) (p : Nat) (now : Bool) : (s.enWritten p now).exp.tablesWf = true := by
  unfold State.enWritten
  split
  · exact (State.noteWindow_kept .rfl p).exps h
  · exact h

theorem State.enWritten_tick (s : State) (p : Nat) (now : Bool) : (s.enWritten p now).tick = s.tick := by
  unfold State.enWritten
  split <;> rfl

theorem State.enWritten_writesOnly (s : State) (p : Nat) (now : Bool) : WritesOnly (· = Adr.SRX_CFG p) s (s.enWritten p now) := by
  unfold State.enWritten
  split
  · exact WritesOnly.trans (t := (s.noteWindow p).putFlag ..) (s := s.noteWindow p) (.of_regs rfl rfl) (State.putFlag_writesOnly _ _ _ rfl)
  · exact State.putFlag_writesOnly _ _ _ rfl

theorem State.enWritten_en (h : s.regsWf = true) (p : Nat) (now : Bool) :
    (s.enWritten p now).flag (Adr.SRX_CFG p) Fl.SRX_CFG_EN = now := by
  unfold State.enWritten
  split
  · exact State.flag_putFlag_same (s := s.noteWindow p) _ _ _ (by decide) (by decide) h
  · exact State.flag_putFlag_same _ _ _ (by decide) (by decide) h

theorem State.enWritten_frame (h : s.exp.tablesWf = true) (p : Nat) (now : Bool) : ((s.enWritten p now).srx p).frame = (s.srx p).frame := by
  unfold State.enWritten
  split
  · rw [show (((s.noteWindow p).putFlag (Adr.SRX_CFG p) Fl.SRX_CFG_EN now).srx p) = _ from State.noteWindow_srx h p]
  · rfl

theorem srxStat_ne_cfg (p : Nat) : Adr.SRX_STAT p ≠ Adr.SRX_CFG p := by
  unfold Adr.SRX_STAT Adr.SRX_CFG
  omega

theorem srxErr_ne_cfg (p : Nat) : Adr.SRX_ERR p ≠ Adr.SRX_CFG p := by
  unfold Adr.SRX_ERR Adr.SRX_CFG
  omega

theorem srxCfg_not_recordReg (p : Nat) : ¬ recordReg 0 p (Adr.SRX_CFG p) := by
  simp only [recordReg, pointDrop, perfReg, Adr.SRX_CFG, Adr.SRX_UNM, Adr.SRX_DROP, Adr.BR_DROP, if_pos]
  omega

theorem State.enWritten_stat (h : s.regsWf = true) (p : Nat) (now : Bool) :
    (s.enWritten p now).rd (Adr.SRX_STAT p) = s.rd (Adr.SRX_STAT p) := (s.enWritten_writesOnly p now).rd h _ (srxStat_ne_cfg p)

/-- The receiver with EN written and no disabling that waits. -/
def State.enabled (s : State) (p : Nat) : State :=
  (s.enWritten p true).setSrx p { (s.enWritten p true).srx p with disablePend := false }

theorem srxEn_of_rise {v : Word} (h : s.regsWf = true) (hOn : s.srxOn p = true) (hv : v.getLsbD 0 = true)
    (hWas : s.flag (Adr.SRX_CFG p) Fl.SRX_CFG_EN = false) (hLock : s.flag (Adr.SRX_STAT p) Fl.SRX_STAT_LOCK = false) :
    srxEn p v s = (s.enabled p).acquire p := by
  have stat : (s.enabled p).flag (Adr.SRX_STAT p) Fl.SRX_STAT_LOCK = false := by
    rw [State.enabled, State.setSrx_flag, State.flag_of_rd (State.enWritten_stat h p true) rfl, hLock]
  rw [State.enabled, State.enWritten] at stat ⊢
  rw [hWas] at stat ⊢
  unfold srxEn
  rw [hOn, hv, hWas]
  exact (if_neg (by decide)).trans ((if_pos rfl).trans ((if_neg (by decide)).trans (if_neg (Bool.eq_false_iff.mp stat))))

theorem srxEn_of_fall {v : Word} (hOn : s.srxOn p = true) (hv : v.getLsbD 0 = false) : srxEn p v s =
    if ((s.enWritten p false).srx p).frame.isSome then
      (s.enWritten p false).setSrx p { (s.enWritten p false).srx p with disablePend := true }
    else (s.enWritten p false).disableSrx p ((s.enWritten p false).stampOf p 0).1 ((s.enWritten p false).stampOf p 0).2.1 := by
  unfold srxEn
  simp only [hOn, hv]
  rfl

/-! ## RATE -/

theorem srxRate_of_off (h : s.srxOn p = false) (v : Word) (bytes : List Byte) (len : Nat) : srxRate p v bytes len s = s :=
  if_pos (by simp [h])

/-- RATE written. -/
def State.rateWritten (s : State) (p : Nat) (v : Word) : State := s.put (Adr.SRX_CFG p) Fl.SRX_CFG_RATE (getBits v 1 2)

theorem State.rateWritten_rate (h : s.regsWf = true) (p : Nat) (v : Word) :
    (s.rateWritten p v).get (Adr.SRX_CFG p) Fl.SRX_CFG_RATE = getBits v 1 2 :=
  State.get_put_of_lt h _ _ _ (by decide) (Nat.mod_lt _ (by decide))

theorem State.rateWritten_rd (h : s.regsWf = true) (v : Word) {a : Nat} (ha : a ≠ Adr.SRX_CFG p) : (s.rateWritten p v).rd a = s.rd a :=
  State.rd_put_word _ _ _ _ ha h

/-- The lock lost by a rate that excludes it. -/
def State.rateLost (s : State) (p : Nat) (v : Word) (bytes : List Byte) (len : Nat) : State :=
  (s.rateWritten p v).unlock p ((s.rateWritten p v).stampOf p 0).1 ((s.rateWritten p v).stampOf p 0).2.1 bytes len true

theorem State.rateLost_unlocked (h : s.regsWf = true) (hT : s.exp.tablesWf = true) (p : Nat) (v : Word) (bytes : List Byte) (len : Nat) :
    Unlocked p ((s.rateWritten p v).stampOf p 0).1 true (s.rateWritten p v) (s.rateLost p v bytes len) :=
  State.unlock_unlocked (State.put_regsWf _ _ _ h) hT ..

theorem srxRate_of_excluded {v : Word} {bytes : List Byte} {len : Nat} (h : s.regsWf = true) (hT : s.exp.tablesWf = true)
    (hOn : s.srxOn p = true) (hLock : s.flag (Adr.SRX_STAT p) Fl.SRX_STAT_LOCK = true) (hPend : (s.srx p).disablePend = false)
    (hLow : getBits v 1 2 < 2) (hNe : getBits v 1 2 ≠ s.get (Adr.SRX_STAT p) Fl.SRX_STAT_RATE_ACT) :
    srxRate p v bytes len s = (s.rateLost p v bytes len).acquire p := by
  have stat := State.rateWritten_rd (p := p) h v (srxStat_ne_cfg p)
  have hLocked : (s.rateWritten p v).flag (Adr.SRX_STAT p) Fl.SRX_STAT_LOCK = true := (State.flag_of_rd stat rfl).trans hLock
  have hAct : (s.rateWritten p v).get (Adr.SRX_STAT p) Fl.SRX_STAT_RATE_ACT = s.get (Adr.SRX_STAT p) Fl.SRX_STAT_RATE_ACT :=
    State.get_of_rd stat rfl
  have hStays : ((s.rateLost p v bytes len).srx p).disablePend = false :=
    (State.rateLost_unlocked h hT p v bytes len).disablePend.trans hPend
  unfold srxRate
  simp only [hOn, rateSetting, if_pos hLow]
  refine (if_neg (by simp)).trans ((if_pos hLocked).trans ((if_neg ?_).trans (if_neg ?_)))
  · rw [← State.rateWritten, hAct]
    exact hNe
  · rw [← State.rateWritten, ← State.rateLost, hStays]
    decide

theorem srxRate_of_idle {v : Word} {bytes : List Byte} {len : Nat} (h : s.regsWf = true) (hOn : s.srxOn p = true)
    (hLock : s.flag (Adr.SRX_STAT p) Fl.SRX_STAT_LOCK = false) (hAcq : s.flag (Adr.SRX_STAT p) Fl.SRX_STAT_ACQ = false) :
    srxRate p v bytes len s = s.rateWritten p v := by
  have stat := State.rateWritten_rd (p := p) h v (srxStat_ne_cfg p)
  have hUnlocked : (s.rateWritten p v).flag (Adr.SRX_STAT p) Fl.SRX_STAT_LOCK = false := (State.flag_of_rd stat rfl).trans hLock
  have hIdle : (s.rateWritten p v).flag (Adr.SRX_STAT p) Fl.SRX_STAT_ACQ = false := (State.flag_of_rd stat rfl).trans hAcq
  unfold srxRate
  simp only [hOn]
  exact (if_neg (by simp)).trans ((if_neg (by rw [← State.rateWritten, hUnlocked]; decide)).trans
    (if_neg (by rw [← State.rateWritten, hIdle]; decide)))

/-! ## APPLY -/

/-- An APPLY on its way. -/
def State.applySent (s : State) (p : Nat) : State := s.draw.2.putFlag (Adr.SRX_STAT p) Fl.SRX_STAT_APPLY_PEND true

theorem srxApply_of_none (hOn : s.srxOn p = true) (hNone : (s.srx p).applyAt = none) :
    srxApply p s = (s.applySent p).setSrx p { s.srx p with applyAt := some ((s.applySent p).crossTick p s.draw.1) } :=
  if_neg (by simp [hOn, hNone])

theorem srxApply_of_some (h : s.srxOn p = false ∨ (s.srx p).applyAt ≠ none) : srxApply p s = s := by
  refine if_pos ?_
  rcases h with h | h
  · simp [h]
  · simp [Option.isSome_iff_ne_none.mpr h]

theorem State.crossTick_range (s : State) (p pick : Nat) : s.tick < s.crossTick p pick ∧ s.crossTick p pick ≤ s.tick + 13 := by
  unfold State.crossTick
  split <;> omega

theorem State.takeStaged_eq (h : s.regsWf = true) (p : Nat) :
    s.takeStaged p = (s.putFlag (Adr.SRX_STAT p) Fl.SRX_STAT_APPLY_PEND false).setSrx p { s.srx p with
      applyAt := none, rules := (List.range 8).map (s.stagedRule p), digOff := s.get (Adr.SRX_CFG p) Fl.SRX_CFG_DIG_OFF
      digLen := min 64 (s.get (Adr.SRX_CFG p) Fl.SRX_CFG_DIG_LEN) } := by
  set u := s.putFlag (Adr.SRX_STAT p) Fl.SRX_STAT_APPLY_PEND false with hu
  have other : ∀ (b : Nat) (f : Field), b + f.off ≠ Adr.SRX_STAT p → u.get b f = s.get b f := fun b f hb =>
    State.get_put_word _ _ _ _ _ hb h
  have rules : u.stagedRule p = s.stagedRule p := by
    funext r
    have each : ∀ f : Field, u.get (Adr.SRX_RULE p r) f = s.get (Adr.SRX_RULE p r) f := fun f => other _ f (by
      simp only [Adr.SRX_RULE, Adr.SRX_STAT]
      omega)
    unfold State.stagedRule State.flag
    simp only [each]
  have cfg : ∀ f : Field, f.off = 0 → u.get (Adr.SRX_CFG p) f = s.get (Adr.SRX_CFG p) f := fun f hf => other _ f (by
    rw [hf]
    exact (srxStat_ne_cfg p).symm)
  unfold State.takeStaged
  rw [← hu]
  dsimp only
  rw [rules, cfg _ rfl, cfg _ rfl]
  rfl

end Sys2Proof.Machine
end

section
/-! O33: what each row of a receiver leaves, and the obligation. -/

namespace Sys2Proof.Machine

variable {s : State} {p : Nat}

theorem State.lt_numPorts_of_srxOn (h : s.srxOn p = true) : p < 512 := by
  have hp : p < numPorts s.variant := by
    unfold State.srxOn at h
    simp only [Bool.and_eq_true, decide_eq_true_eq] at h
    exact h.1.2
  unfold numPorts at hp
  split at hp <;> omega

/-- A receiver that locked: its word, its state, and the LINK record of the new epoch. -/
theorem blockLockGained_locks {delta : Nat} (h : s.regsWf = true) (hT : s.exp.tablesWf = true) (hOn : s.srxOn p = true)
    (hAcq : s.flag (Adr.SRX_STAT p) Fl.SRX_STAT_ACQ = true) {u : State} (hu : blockLockGained p delta s = u) :
    u.flag (Adr.SRX_STAT p) Fl.SRX_STAT_LOCK = true ∧ u.flag (Adr.SRX_STAT p) Fl.SRX_STAT_ACQ = false
      ∧ u.get (Adr.SRX_STAT p) Fl.SRX_STAT_RATE_ACT = (s.srx p).tryRate % 2 ∧ (u.srx p).lastRate = some (s.srx p).tryRate
      ∧ u.get (Adr.SRX_STAT p) Fl.SRX_STAT_LOCKSEQ = (s.get (Adr.SRX_STAT p) Fl.SRX_STAT_LOCKSEQ + 1) % 65536
      ∧ (∃ r ∈ (u.tile (p / 128)).fifo, r.kind = 6 ∧ r.port = p ∧ (r.word 0).testBit 16 = true ∧ r.word 2 = (s.stampOf p delta).1
          ∧ r.word 4 = u.get (Adr.SRX_STAT p) Fl.SRX_STAT_LOCKSEQ)
      ∧ (∀ a, a ≠ Adr.SRX_STAT p → u.rd a = s.rd a) ∧ (∀ n, n ≠ p → u.srx n = s.srx n) ∧ u.exp.queues = s.exp.queues := by
  rw [blockLockGained_of_acq hOn hAcq] at hu
  have wT : (s.locked p).exp.tablesWf = true := State.setSrx_tablesWf hT p _
  obtain ⟨-, hSrx, hRd, hQueues⟩ := (s.locked p).toFifo_linkRec (s.locked p) p 1 (s.srx p).tryRate 0 (s.stampOf p delta).1 (s.stampOf p delta).2.1
  obtain ⟨r, hMem, hKind, hPort, hBit, hNs, hSeq⟩ :=
    State.toFifo_link wT (State.lt_numPorts_of_srxOn hOn) 1 (s.srx p).tryRate (s.stampOf p delta).1 (s.stampOf p delta).2.1
  obtain ⟨hLock, hAcqEnd, hRate, hCount⟩ := State.locked_stat h p
  rw [hu] at hSrx hRd hQueues hMem
  have hGet : ∀ f : Field, f.off = 0 → u.get (Adr.SRX_STAT p) f = (s.locked p).get (Adr.SRX_STAT p) f := fun _ hf =>
    State.get_of_rd (hRd _) hf
  refine ⟨?_, ?_, (hGet _ rfl).trans hRate, ?_, (hGet _ rfl).trans hCount, ?_, ?_, ?_, hQueues⟩
  · exact (State.flag_of_rd (hRd _) rfl).trans hLock
  · exact (State.flag_of_rd (hRd _) rfl).trans hAcqEnd
  · rw [hSrx, State.srx_congr (s.locked_exp p), State.srx_setSrx_same hT]
  · exact ⟨r, hMem, hKind, hPort, hBit, hNs, hSeq.trans (hGet _ rfl).symm⟩
  · exact fun a ha => (hRd a).trans ((s.locked_writesOnly p).rd h a ha)
  · intro n hn
    rw [hSrx, State.srx_congr (s.locked_exp p), State.srx_setSrx_other hT _ hn]

/-- A receiver that lost its lock acquires at the rate that was lost, its frame ended and the loss counted and recorded. -/
theorem blockLockLost_reacquires {delta len : Nat} {bytes : List Byte} (h : s.regsWf = true) (hT : s.exp.tablesWf = true)
    (hOn : s.srxOn p = true) (hLock : s.flag (Adr.SRX_STAT p) Fl.SRX_STAT_LOCK = true) (hPend : (s.srx p).disablePend = false)
    {u : State} (hu : blockLockLost p delta bytes len s = u) :
    u.flag (Adr.SRX_STAT p) Fl.SRX_STAT_LOCK = false ∧ u.flag (Adr.SRX_STAT p) Fl.SRX_STAT_ACQ = true ∧ (u.srx p).frame = none
      ∧ u.get (Adr.SRX_ERR p) Fl.SRX_ERR_LOCK_LOSS = min 0xffff (s.get (Adr.SRX_ERR p) Fl.SRX_ERR_LOCK_LOSS + 1)
      ∧ u.get (Adr.SRX_ERR p) Fl.SRX_ERR_BLK_ERR = min 0xffff (s.get (Adr.SRX_ERR p) Fl.SRX_ERR_BLK_ERR + 16)
      ∧ (u.srx p).tryRate = (s.srx p).lastRate.getD 1 ∧ (u.srx p).tryTick = s.tick
      ∧ (∃ r ∈ (u.tile (p / 128)).fifo, r.kind = 6 ∧ r.port = p ∧ (r.word 0).testBit 16 = false ∧ r.word 2 = (s.stampOf p delta).1)
      ∧ (∀ a, quiet a = true → a ∉ [Adr.SRX_STAT p, Adr.SRX_ERR p, Adr.SRX_UNM p, Adr.SRX_DROP p, Adr.BR_DROP (p / 128)] → u.rd a = s.rd a) := by
  rw [blockLockLost_of_lock h hT hOn hLock hPend] at hu
  have k := State.lockLost_unlocked h hT p delta bytes len
  obtain ⟨hNoLock, hLoss, hErr, hRd⟩ := State.lockLost_words h hT p delta bytes len
  set v := s.lockLost p delta bytes len
  clear_value v
  have other : ∀ a, a ≠ Adr.SRX_STAT p → u.rd a = v.rd a := by
    subst hu
    exact fun a ha => (State.setSrx_rd ..).trans (State.rd_put_word _ _ _ _ ha k.wf)
  have hSrx : u.srx p = { v.srx p with tryRate := (v.srx p).lastRate.getD 1, tryTick := v.tick } := by
    subst hu
    exact State.srx_setSrx_same (s := v.putFlag ..) k.tables p _
  have hErrWord := other _ (srxStat_ne_err p).symm
  refine ⟨?_, ?_, ?_, (State.get_of_rd hErrWord rfl).trans hLoss, (State.get_of_rd hErrWord rfl).trans hErr, ?_, ?_, ?_, ?_⟩
  · subst hu
    exact (State.setSrx_flag ..).trans ((State.flag_put_apart k.wf _ _ _ _ (by decide)).trans hNoLock)
  · subst hu
    exact (State.setSrx_flag ..).trans (State.flag_putFlag_same _ _ _ (by decide) (by decide) k.wf)
  · rw [hSrx]
    exact k.frame
  · rw [hSrx]
    exact congrArg (·.getD 1) k.lastRate
  · rw [hSrx]
    exact k.tick
  · subst hu
    exact k.link (State.lt_numPorts_of_srxOn hOn)
  · intro a hQuiet hNot
    simp only [List.mem_cons, List.not_mem_nil, or_false, not_or] at hNot
    obtain ⟨hStat, hNe, hUnm, hDrop, hBr⟩ := hNot
    refine (other a hStat).trans (hRd a ?_ hStat hNe)
    rintro (e | e | e | e)
    exacts [hUnm e, hDrop e, hBr e, not_perfReg_of_quiet hQuiet e]

/-- EN set on a receiver that is not locked: it acquires from this tick on. -/
theorem srxEn_acquires {v : Word} (h : s.regsWf = true) (hT : s.exp.tablesWf = true) (hOn : s.srxOn p = true) (hv : v.getLsbD 0 = true)
    (hWas : s.flag (Adr.SRX_CFG p) Fl.SRX_CFG_EN = false) (hLock : s.flag (Adr.SRX_STAT p) Fl.SRX_STAT_LOCK = false) {u : State}
    (hu : srxEn p v s = u) : u.flag (Adr.SRX_CFG p) Fl.SRX_CFG_EN = true ∧ u.flag (Adr.SRX_STAT p) Fl.SRX_STAT_ACQ = true
      ∧ (u.srx p).tryTick = s.tick ∧ (∀ a, a ≠ Adr.SRX_CFG p → a ≠ Adr.SRX_STAT p → u.rd a = s.rd a) := by
  rw [srxEn_of_rise h hOn hv hWas hLock] at hu
  subst hu
  have kEn := s.enWritten_writesOnly p true
  have wf : (s.enabled p).regsWf = true := kEn.wf h
  have kAcq := (s.enabled p).acquire_writesOnly p
  have hCfg := kAcq.rd wf _ (srxStat_ne_cfg p).symm
  refine ⟨(State.flag_of_rd hCfg rfl).trans (State.enWritten_en h p true), State.acquire_acq wf p, ?_, fun a hc hs => ?_⟩
  · rw [State.acquire_srx (s := s.enabled p) (State.setSrx_tablesWf (State.enWritten_tablesWf hT p true) p _)]
    exact s.enWritten_tick p true
  · exact (kAcq.rd wf a hs).trans (kEn.rd h a hc)

/-- EN cleared without an open frame: lock and acquisition end at once. -/
theorem srxEn_disables {v : Word} (h : s.regsWf = true) (hT : s.exp.tablesWf = true) (hOn : s.srxOn p = true) (hv : v.getLsbD 0 = false)
    (hFrame : (s.srx p).frame = none) {u : State} (hu : srxEn p v s = u) :
    u.flag (Adr.SRX_CFG p) Fl.SRX_CFG_EN = false ∧ u.flag (Adr.SRX_STAT p) Fl.SRX_STAT_LOCK = false
      ∧ u.flag (Adr.SRX_STAT p) Fl.SRX_STAT_ACQ = false ∧ (∀ a, a ≠ Adr.SRX_CFG p → a ≠ Adr.SRX_STAT p → u.rd a = s.rd a) := by
  have hNone := (State.enWritten_frame hT p false).trans hFrame
  rw [srxEn_of_fall hOn hv, hNone, if_neg (by decide)] at hu
  subst hu
  have kEn := s.enWritten_writesOnly p false
  obtain ⟨hLock, hAcq, kEnd⟩ := State.disableSrx_of_noFrame (kEn.wf h) hNone ((s.enWritten p false).stampOf p 0).1
    ((s.enWritten p false).stampOf p 0).2.1
  have hCfg := kEnd.rd (kEn.wf h) _ (srxStat_ne_cfg p).symm
  exact ⟨(State.flag_of_rd hCfg rfl).trans (State.enWritten_en h p false), hLock, hAcq,
    fun a hc hs => (kEnd.rd (kEn.wf h) a hs).trans (kEn.rd h a hc)⟩

/-- EN cleared while a frame is open: the disabling waits for its end. -/
theorem srxEn_waits {v : Word} {f : Frame} (h : s.regsWf = true) (hT : s.exp.tablesWf = true) (hOn : s.srxOn p = true)
    (hv : v.getLsbD 0 = false) (hFrame : (s.srx p).frame = some f) {u : State} (hu : srxEn p v s = u) :
    u.flag (Adr.SRX_CFG p) Fl.SRX_CFG_EN = false ∧ (u.srx p).disablePend = true ∧ (u.srx p).frame = some f
      ∧ (∀ a, a ≠ Adr.SRX_CFG p → u.rd a = s.rd a) := by
  have hSome := (State.enWritten_frame hT p false).trans hFrame
  rw [srxEn_of_fall hOn hv, if_pos (by rw [hSome]; rfl)] at hu
  subst hu
  refine ⟨State.enWritten_en h p false, ?_, ?_, fun a hc => (s.enWritten_writesOnly p false).rd h a hc⟩
  · rw [State.srx_setSrx_same (State.enWritten_tablesWf hT p false)]
  · rw [State.srx_setSrx_same (State.enWritten_tablesWf hT p false)]
    exact hSome

/-- A rate that excludes the locked one: the lock is lost, and the receiver acquires at the rate written. -/
theorem srxRate_relocks {v : Word} {bytes : List Byte} {len : Nat} (h : s.regsWf = true) (hT : s.exp.tablesWf = true) (hOn : s.srxOn p = true)
    (hLock : s.flag (Adr.SRX_STAT p) Fl.SRX_STAT_LOCK = true) (hPend : (s.srx p).disablePend = false)
    (hLow : getBits v 1 2 < 2) (hNe : getBits v 1 2 ≠ s.get (Adr.SRX_STAT p) Fl.SRX_STAT_RATE_ACT) {u : State}
    (hu : srxRate p v bytes len s = u) :
    u.get (Adr.SRX_CFG p) Fl.SRX_CFG_RATE = getBits v 1 2 ∧ u.flag (Adr.SRX_STAT p) Fl.SRX_STAT_LOCK = false
      ∧ u.flag (Adr.SRX_STAT p) Fl.SRX_STAT_ACQ = true ∧ (u.srx p).tryRate = getBits v 1 2
      ∧ u.get (Adr.SRX_ERR p) Fl.SRX_ERR_LOCK_LOSS = min 0xffff (s.get (Adr.SRX_ERR p) Fl.SRX_ERR_LOCK_LOSS + 1) := by
  rw [srxRate_of_excluded h hT hOn hLock hPend hLow hNe] at hu
  subst hu
  have wf : (s.rateWritten p v).regsWf = true := State.put_regsWf _ _ _ h
  have k := State.rateLost_unlocked h hT p v bytes len
  have kAcq := (s.rateLost p v bytes len).acquire_writesOnly p
  have hRate : (s.rateLost p v bytes len).get (Adr.SRX_CFG p) Fl.SRX_CFG_RATE = getBits v 1 2 :=
    (State.get_of_rd (k.rd _ (srxCfg_not_recordReg p) (srxStat_ne_cfg p).symm (srxErr_ne_cfg p).symm) rfl).trans (State.rateWritten_rate h p v)
  refine ⟨?_, (State.acquire_lock k.wf p).trans (k.lock wf), State.acquire_acq k.wf p, ?_, ?_⟩
  · exact (State.get_of_rd (kAcq.rd k.wf _ (srxStat_ne_cfg p).symm) rfl).trans hRate
  · rw [State.acquire_srx k.tables]
    simp only [hRate, rateSetting, if_pos hLow, Option.getD_some]
  · refine (State.get_of_rd (kAcq.rd k.wf _ (srxStat_ne_err p).symm) rfl).trans ((k.lockLoss wf).1.trans ?_)
    rw [State.get_of_rd (State.rateWritten_rd h v (srxErr_ne_cfg p)) rfl]

/-- An APPLY leaves for the receiver and arrives within 13 ticks; the rules in force stay until then. -/
theorem srxApply_sends (h : s.regsWf = true) (hT : s.exp.tablesWf = true) (hOn : s.srxOn p = true) (hNone : (s.srx p).applyAt = none)
    {u : State} (hu : srxApply p s = u) : ∃ due, (u.srx p).applyAt = some due ∧ s.tick < due ∧ due ≤ s.tick + 13
      ∧ u.flag (Adr.SRX_STAT p) Fl.SRX_STAT_APPLY_PEND = true ∧ (u.srx p).rules = (s.srx p).rules
      ∧ (u.srx p).digOff = (s.srx p).digOff ∧ (u.srx p).digLen = (s.srx p).digLen ∧ (u.srx p).frame = (s.srx p).frame
      ∧ (∀ a, a ≠ Adr.SRX_STAT p → u.rd a = s.rd a) ∧ (∀ n, n ≠ p → u.srx n = s.srx n) := by
  rw [srxApply_of_none hOn hNone] at hu
  subst hu
  have hT' : (s.applySent p).exp.tablesWf = true := hT
  obtain ⟨hLate, hSoon⟩ := (s.applySent p).crossTick_range p s.draw.1
  rw [State.srx_setSrx_same hT']
  exact ⟨_, rfl, hLate, hSoon, State.flag_putFlag_same (s := s.draw.2) _ _ _ (by decide) (by decide) h, rfl, rfl, rfl, rfl,
    fun a ha => State.rd_put_word (s := s.draw.2) _ _ _ _ ha h, fun n hn => State.srx_setSrx_other hT' _ hn⟩

/-- An APPLY arrived: the staged rules and digest range are in force. -/
theorem State.takeStaged_inForce (h : s.regsWf = true) (hT : s.exp.tablesWf = true) {u : State} (hu : u = s.takeStaged p) :
    (u.srx p).rules = (List.range 8).map (s.stagedRule p) ∧ (u.srx p).digOff = s.get (Adr.SRX_CFG p) Fl.SRX_CFG_DIG_OFF
      ∧ (u.srx p).digLen = min 64 (s.get (Adr.SRX_CFG p) Fl.SRX_CFG_DIG_LEN) ∧ (u.srx p).applyAt = none
      ∧ u.flag (Adr.SRX_STAT p) Fl.SRX_STAT_APPLY_PEND = false ∧ (u.srx p).frame = (s.srx p).frame
      ∧ (∀ a, a ≠ Adr.SRX_STAT p → u.rd a = s.rd a) ∧ (∀ n, n ≠ p → u.srx n = s.srx n) := by
  rw [State.takeStaged_eq h] at hu
  have hT' : (s.putFlag (Adr.SRX_STAT p) Fl.SRX_STAT_APPLY_PEND false).exp.tablesWf = true := hT
  subst hu
  rw [State.srx_setSrx_same hT']
  exact ⟨rfl, rfl, rfl, rfl, (State.setSrx_flag ..).trans (State.flag_putFlag_same _ _ _ (by decide) (by decide) h), rfl,
    fun a ha => (State.setSrx_rd ..).trans (State.rd_put_word _ _ _ _ ha h), fun n hn => State.srx_setSrx_other hT' _ hn⟩

/-- Settles O33: the word SRX_STAT carries lock and acquisition, the LINK record of each change waits in the tile FIFO, and the
receiver's own state carries what a rate try, a disabling and an APPLY wait for. -/
theorem receiversLockLoseAndAcquire : Obligations.ReceiversLockLoseAndAcquire := by
  intro s p h hT
  refine ⟨fun hOn => ⟨?_, ?_, ?_, ?_, ?_, ?_, ?_, ?_, ?_, ?_, ?_, ?_, ?_⟩, fun hOff delta v bytes len => ?_⟩
  · exact fun delta hAcq => ⟨_, rfl, blockLockGained_locks h hT hOn hAcq rfl⟩
  · exact fun delta hAcq => congrArg Host.Outcome.next (blockLockGained_of_not_acq (.inr hAcq))
  · exact fun delta bytes len hLock hPend => ⟨_, rfl, blockLockLost_reacquires h hT hOn hLock hPend rfl⟩
  · exact fun delta bytes len hLock => congrArg Host.Outcome.next (blockLockLost_of_not_lock (.inr hLock))
  · refine fun hAcq hAuto => ⟨fun hDue => ⟨_, congrArg Host.Outcome.next (autoRateTry_of_due hOn hAcq hAuto hDue), rfl, ?_, ?_⟩,
      fun hEarly => ?_⟩
    · exact State.srx_setSrx_same hT p _
    · exact fun n hn => State.srx_setSrx_other hT _ hn
    · exact congrArg Host.Outcome.next (autoRateTry_of_not_due (.inr hEarly))
  · exact fun v hv hWas hLock => ⟨_, rfl, srxEn_acquires h hT hOn hv hWas hLock rfl⟩
  · exact fun v hv hFrame => ⟨_, rfl, srxEn_disables h hT hOn hv hFrame rfl⟩
  · exact fun v f hv hFrame => ⟨_, rfl, srxEn_waits h hT hOn hv hFrame rfl⟩
  · exact fun v bytes len hLock hPend hLow hNe => ⟨_, rfl, srxRate_relocks h hT hOn hLock hPend hLow hNe rfl⟩
  · exact fun v bytes len hLock hAcq => ⟨_, congrArg Host.Outcome.next (srxRate_of_idle h hOn hLock hAcq), State.rateWritten_rate h p v,
      fun a ha => State.rateWritten_rd h v ha, rfl⟩
  · intro hNone
    obtain ⟨due, hSent⟩ := srxApply_sends h hT hOn hNone rfl
    exact ⟨_, due, rfl, hSent⟩
  · exact fun hSome => congrArg Host.Outcome.next (srxApply_of_some (.inr hSome))
  · exact fun u hu => State.takeStaged_inForce h hT hu
  · exact ⟨congrArg Host.Outcome.next (blockLockGained_of_not_acq (.inl hOff)), congrArg Host.Outcome.next (blockLockLost_of_not_lock (.inl hOff)),
      congrArg Host.Outcome.next (autoRateTry_of_not_due (.inl hOff)), congrArg Host.Outcome.next (srxEn_of_off hOff v),
      congrArg Host.Outcome.next (srxRate_of_off hOff v bytes len), congrArg Host.Outcome.next (srxApply_of_some (.inl hOff))⟩

end Sys2Proof.Machine
end

section
/-! O34: a frame start takes stamp and SEQ32, a frame end makes its record (R167, R168, R171, R176, R177, R181, R183, R184). -/

namespace Sys2Proof.Machine

variable {s t : State} {p : Nat}

/-! ## A frame starts -/

theorem recordReg_high {point p a : Nat} (h : recordReg point p a) : 0x80000 ≤ a := by
  unfold recordReg pointDrop perfReg Adr.SRX_UNM Adr.SRX_DROP Adr.BR_DROP Adr.AGG_DROP at h
  split at h <;> omega

theorem PortRecords.sdom {point : Nat} (h : PortRecords point p s t) (w : s.regsWf = true) : t.sdom = s.sdom :=
  congrArg ixDom (h.get w _ _ fun hc => absurd (recordReg_high hc) (by decide))

theorem PortRecords.tq {point : Nat} (h : PortRecords point p s t) (w : s.regsWf = true) : t.tq = s.tq := by
  have hState : ∀ d, t.tqOf d = s.tqOf d := fun d => h.get w _ _ fun hc => absurd (recordReg_high hc) (by cases d <;> decide)
  unfold State.tq
  rw [h.sdom w, hState]

/-- The frame that starts on port `p` at this tick, with its stamp. -/
def State.newFrame (s : State) (p : Nat) (l4 : Bool) (ns32 frac8 : Nat) (tempDefault : Bool) : Frame where
  seq := s.get (Adr.SRX_SEQ p) Fl.SRX_SEQ_NEXT
  tick := s.tick
  ns32 := ns32
  frac8 := frac8
  dom := domIx s.sdom
  tq := s.tq
  l4 := l4
  rate := s.get (Adr.SRX_STAT p) Fl.SRX_STAT_RATE_ACT
  lockseq := s.get (Adr.SRX_STAT p) Fl.SRX_STAT_LOCKSEQ
  keyseq := s.get (Adr.SRX_STAT p) Fl.SRX_STAT_KEYSEQ
  key := (s.srx p).key
  frDefault := s.flag (Adr.SRX_STAT p) Fl.SRX_STAT_FR_DEFAULT
  tempDefault := tempDefault
  rules := (s.srx p).rules
  digOff := (s.srx p).digOff
  digLen := (s.srx p).digLen

/-- Frame `f` open, and SEQ32 stepped. -/
def State.framed (s : State) (p : Nat) (f : Frame) : State :=
  (s.countWrap (Adr.SRX_SEQ p) Fl.SRX_SEQ_NEXT 1).setSrx p { s.srx p with frame := some f, wrapPend := f.seq == 0xffffffff }

/-- A new sequence epoch, and its WRAP record. -/
def State.wrapped (s : State) (p : Nat) (f : Frame) : State :=
  (s.countWrap (Adr.SRX_EPOCH p) Fl.SRX_EPOCH_EPOCH 1).toFifo (wrapRec (s.countWrap (Adr.SRX_EPOCH p) Fl.SRX_EPOCH_EPOCH 1) p f)

/-- The state behind the end of an open frame, and the frame that starts there. -/
def State.begun (s : State) (p : Nat) (l4 : Bool) (delta : Nat) (bytes : List Byte) (len : Nat) : State × Frame :=
  (s.endFrame p bytes len .errored,
    (s.endFrame p bytes len .errored).newFrame p l4 (s.stampOf p delta).1 (s.stampOf p delta).2.1 (s.stampOf p delta).2.2)

theorem frameStart_of_lock {l4 : Bool} {delta len : Nat} {bytes : List Byte} (hT : s.exp.tablesWf = true) (hOn : s.srxOn p = true)
    (hLock : s.flag (Adr.SRX_STAT p) Fl.SRX_STAT_LOCK = true) (hPend : (s.srx p).disablePend = false) {e : State} {f : Frame}
    (hb : s.begun p l4 delta bytes len = (e, f)) :
    frameStart p l4 delta bytes len s = if (e.srx p).wrapPend && f.seq == 0 then (e.framed p f).wrapped p f else e.framed p f := by
  have hStays : ((s.endFrame p bytes len .errored).srx p).disablePend = false :=
    ((s.endFrame_portRecords p bytes len .errored).disablePend hT).trans hPend
  obtain ⟨rfl, rfl⟩ := Prod.mk.inj hb
  unfold frameStart
  rw [hOn, hLock]
  exact (if_neg (by decide)).trans (if_neg (Bool.eq_false_iff.mp hStays))

theorem frameStart_of_not_lock {l4 : Bool} {delta len : Nat} {bytes : List Byte}
    (h : s.srxOn p = false ∨ s.flag (Adr.SRX_STAT p) Fl.SRX_STAT_LOCK = false) : frameStart p l4 delta bytes len s = s :=
  if_pos (by rcases h with h | h <;> simp [h])

theorem srxSeq_ne_epoch (p : Nat) : Adr.SRX_SEQ p ≠ Adr.SRX_EPOCH p := by
  unfold Adr.SRX_SEQ Adr.SRX_EPOCH
  omega

theorem State.framed_srx (h : s.exp.tablesWf = true) (p : Nat) (f : Frame) :
    (s.framed p f).srx p = { s.srx p with frame := some f, wrapPend := f.seq == 0xffffffff } :=
  State.srx_setSrx_same (s := s.countWrap ..) h p _

theorem State.framed_writesOnly (s : State) (p : Nat) (f : Frame) : WritesOnly (· = Adr.SRX_SEQ p) s (s.framed p f) :=
  (State.put_writesOnly _ _ _ rfl).trans (.of_regs rfl rfl)

theorem State.framed_seq (h : s.regsWf = true) (p : Nat) (f : Frame) :
    (s.framed p f).get (Adr.SRX_SEQ p) Fl.SRX_SEQ_NEXT = (s.get (Adr.SRX_SEQ p) Fl.SRX_SEQ_NEXT + 1) % 2 ^ 32 :=
  (State.setSrx_get ..).trans (State.get_put_same _ _ _ (by decide) h)

theorem wrapRec_kind (s : State) (p : Nat) (f : Frame) : (wrapRec s p f).kind = 1 := headWord_mod ..

/-- A new epoch writes EPOCH alone, and its record is the newest of the tile FIFO. -/
theorem State.wrapped_wraps (h : s.regsWf = true) (hT : s.exp.tablesWf = true) (p : Nat) (f : Frame) :
    (∀ n, (s.wrapped p f).srx n = s.srx n) ∧ WritesOnly (· = Adr.SRX_EPOCH p) s (s.wrapped p f)
      ∧ (s.wrapped p f).get (Adr.SRX_EPOCH p) Fl.SRX_EPOCH_EPOCH = (s.get (Adr.SRX_EPOCH p) Fl.SRX_EPOCH_EPOCH + 1) % 2 ^ 32
      ∧ ∃ r ∈ ((s.wrapped p f).tile (p / 128)).fifo, r.kind = 1 ∧ r.port = p
          ∧ r.word 4 = (s.wrapped p f).get (Adr.SRX_EPOCH p) Fl.SRX_EPOCH_EPOCH := by
  set v := s.countWrap (Adr.SRX_EPOCH p) Fl.SRX_EPOCH_EPOCH 1 with hv
  set r := wrapRec v p f with hr
  have hKind : r.kind = 1 := wrapRec_kind ..
  have hEq : s.wrapped p f = v.setTile (p / 128) { v.tile (p / 128) with fifo := placeCtl r (v.tile (p / 128)).fifo } :=
    State.toFifo_of_ctl (Bool.eq_false_iff.mpr fun hc => by rw [Rec.isStamp_iff, ← hv, ← hr, hKind] at hc; omega)
  rw [hEq]
  refine ⟨fun _ => rfl, (State.put_writesOnly _ _ _ rfl).trans (.of_regs rfl rfl), ?_, r, ?_, hKind, rfl, rfl⟩
  · exact (State.setTile_get ..).trans (State.get_put_same _ _ _ (by decide) h)
  · rw [State.tile_setTile_same (s := v) hT, placeCtl_of_other (by omega) (by omega)]
    exact List.mem_append_right _ (List.mem_singleton_self r)

/-- A frame that starts takes stamp, SEQ32 and settings; SEQ32 steps, and with its 0 after 0xFFFF_FFFF the epoch does. -/
theorem frameStart_takes {l4 : Bool} {delta len : Nat} {bytes : List Byte} (h : s.regsWf = true) (hT : s.exp.tablesWf = true)
    (hOn : s.srxOn p = true) (hLock : s.flag (Adr.SRX_STAT p) Fl.SRX_STAT_LOCK = true) (hPend : (s.srx p).disablePend = false)
    {e u : State} {f : Frame} (hb : s.begun p l4 delta bytes len = (e, f)) (hu : frameStart p l4 delta bytes len s = u) :
    (u.srx p).frame = some f ∧ (u.srx p).wrapPend = (f.seq == 0xffffffff)
      ∧ u.get (Adr.SRX_SEQ p) Fl.SRX_SEQ_NEXT = (e.get (Adr.SRX_SEQ p) Fl.SRX_SEQ_NEXT + 1) % 2 ^ 32
      ∧ ((e.srx p).wrapPend = true → f.seq = 0 →
          u.get (Adr.SRX_EPOCH p) Fl.SRX_EPOCH_EPOCH = (e.get (Adr.SRX_EPOCH p) Fl.SRX_EPOCH_EPOCH + 1) % 2 ^ 32
            ∧ ∃ r ∈ (u.tile (p / 128)).fifo, r.kind = 1 ∧ r.port = p ∧ r.word 4 = u.get (Adr.SRX_EPOCH p) Fl.SRX_EPOCH_EPOCH)
      ∧ ((e.srx p).wrapPend = false → WritesOnly (· = Adr.SRX_SEQ p) e u)
      ∧ WritesOnly (· ∈ [Adr.SRX_SEQ p, Adr.SRX_EPOCH p]) e u := by
  have kEnd := s.endFrame_portRecords p bytes len .errored
  rw [frameStart_of_lock hT hOn hLock hPend hb] at hu
  obtain ⟨rfl, -⟩ := Prod.mk.inj hb
  set e := s.endFrame p bytes len .errored
  have wf : e.regsWf = true := kEnd.writes.wf h
  have wT : e.exp.tablesWf = true := kEnd.tables hT
  have hSrx := State.framed_srx wT p f
  have kSeq := e.framed_writesOnly p f
  have hSeq := State.framed_seq wf p f
  by_cases hWraps : ((e.srx p).wrapPend && f.seq == 0) = true
  · rw [if_pos hWraps] at hu
    obtain ⟨hPendWrap, -⟩ := Bool.and_eq_true_iff.mp hWraps
    obtain ⟨hSame, kEpoch, hEpoch, hRec⟩ := State.wrapped_wraps (kSeq.wf wf) (State.setSrx_tablesWf (s := e.countWrap ..) wT p _) p f
    rw [hu] at hSame kEpoch hEpoch hRec
    rw [hSame, hSrx]
    refine ⟨rfl, rfl, ?_, fun _ _ => ⟨?_, hRec⟩, fun hc => absurd hPendWrap (by rw [hc]; decide), ?_⟩
    · exact (State.get_of_rd (kEpoch.rd (kSeq.wf wf) _ (srxSeq_ne_epoch p)) rfl).trans hSeq
    · rw [hEpoch, State.get_of_rd (kSeq.rd wf _ (srxSeq_ne_epoch p).symm) rfl]
    · exact (kSeq.mono fun a ha => by simp [ha]).trans (kEpoch.mono fun a ha => by simp [ha])
  · rw [if_neg hWraps] at hu
    rw [← hu, hSrx]
    refine ⟨rfl, rfl, hSeq, fun hWrap hZero => absurd ?_ hWraps, fun _ => kSeq, kSeq.mono fun a ha => by simp [ha]⟩
    rw [hWrap, hZero]
    rfl

/-! ## A frame ends -/

theorem frameEnd_of_noFrame {bytes : List Byte} {len delta : Nat} {how : FrameEnd} (h : s.srxOn p = false ∨ (s.srx p).frame = none) :
    frameEnd p bytes len how delta s = s := if_pos (by rcases h with h | h <;> simp [h])

theorem frameEnd_of_frame {bytes : List Byte} {len delta : Nat} {how : FrameEnd} {f : Frame} (hT : s.exp.tablesWf = true)
    (hOn : s.srxOn p = true) (hf : (s.srx p).frame = some f) (hPend : (s.srx p).disablePend = false) :
    frameEnd p bytes len how delta s = s.endFrame p bytes len (if 65535 ≤ len then .tooLong else how) := by
  have hStays := ((s.endFrame_portRecords p bytes len (if 65535 ≤ len then .tooLong else how)).disablePend hT).trans hPend
  unfold frameEnd
  rw [hOn, hf]
  exact (if_neg (by simp)).trans (if_neg (Bool.eq_false_iff.mp hStays))

/-- A frame that no rule matches counts UNMATCHED. -/
theorem State.endFrame_unmatched {bytes : List Byte} {len : Nat} {how : FrameEnd} {f : Frame} (h : s.regsWf = true)
    (hf : (s.srx p).frame = some f) (hRule : firstRule f.rules bytes (min len 65535) = none) {u : State}
    (hu : s.endFrame p bytes len how = u) :
    u.get (Adr.SRX_UNM p) Fl.SRX_UNM_UNMATCHED = min 0xffffffff (s.get (Adr.SRX_UNM p) Fl.SRX_UNM_UNMATCHED + 1)
      ∧ u.exp.tiles = s.exp.tiles ∧ (∀ a, a ≠ Adr.SRX_UNM p → u.rd a = s.rd a) := by
  rw [State.endFrame_of_unmatched hf hRule] at hu
  subst hu
  exact ⟨State.get_count_same (s := s.frameGone p) h _ _ _ (by decide), rfl,
    fun a ha => State.rd_put_word (s := s.frameGone p) _ _ _ _ ha h⟩

theorem stampRec_kind (p : Nat) (f : Frame) (bs : List Byte) (len : Nat) (how : FrameEnd) (r : Rule) (n : Nat) :
    (stampRec p f bs len how r n).kind = 0 := headWord_mod ..

theorem headWord_port {kind dom tq port hi : Nat} (hk : kind < 16) (hd : dom < 2) (ht : tq < 2) :
    headWord kind dom tq port hi / 64 % 512 = port % 512 := by
  unfold headWord
  omega

/-- A matched frame that finds room: its STAMP record is the newest of the tile FIFO. -/
theorem State.endFrame_newest {bytes : List Byte} {len n : Nat} {how : FrameEnd} {f : Frame} {rule : Rule} (hT : s.exp.tablesWf = true)
    (hf : (s.srx p).frame = some f) (hRule : firstRule f.rules bytes (min len 65535) = some (rule, n)) (hDom : f.dom < 2) (hTq : f.tq < 2)
    (hRoom : stampCount (s.tile (p / 128)).fifo < 4096) {u : State} (hu : s.endFrame p bytes len how = u) :
    u.regs = s.regs ∧ ∃ r, (u.tile (p / 128)).fifo.getLast? = some r ∧ r.kind = 0
      ∧ r.port = p ∧ r.word 0 / 64 % 512 = p % 512 ∧ r.seq = f.seq ∧ r.word 2 = f.ns32 ∧ r.tick = f.tick := by
  rw [State.endFrame_of_matched hf hRule] at hu
  subst hu
  set r := stampRec p f bytes (min len 65535) how rule n with hr
  have hKind : r.kind = 0 := stampRec_kind ..
  obtain ⟨hRegs, b, hLast⟩ := State.toFifo_newest (s := s.frameGone p) (r := r) (State.setSrx_tablesWf hT p _) (Rec.isStamp_iff.mpr hKind)
    (by rwa [State.frameGone, State.tile_setSrx])
  exact ⟨hRegs, _, hLast, hKind, rfl, headWord_port (by decide) hDom hTq, rfl, rfl, rfl⟩

/-- A matched frame that finds the FIFO full: its record is dropped and counted, in the LOSS record that waits or for the next one. -/
theorem State.endFrame_drops {bytes : List Byte} {len n : Nat} {how : FrameEnd} {f : Frame} {rule : Rule} (h : s.regsWf = true)
    (hT : s.exp.tablesWf = true) (hp : p < 512) (hf : (s.srx p).frame = some f)
    (hRule : firstRule f.rules bytes (min len 65535) = some (rule, n)) (hFull : 4096 ≤ stampCount (s.tile (p / 128)).fifo) {u : State}
    (hu : s.endFrame p bytes len how = u) :
    ((s.tile (p / 128)).fifo.map Rec.kind = (u.tile (p / 128)).fifo.map Rec.kind)
      ∧ u.get (Adr.SRX_DROP p) Fl.SRX_DROP_DROPPED = min 0xffffffff (s.get (Adr.SRX_DROP p) Fl.SRX_DROP_DROPPED + 1)
      ∧ u.get (Adr.BR_DROP (p / 128)) Fl.BR_DROP_COUNT = min 0xffffffff (s.get (Adr.BR_DROP (p / 128)) Fl.BR_DROP_COUNT + 1)
      ∧ ((∀ y ∈ (s.tile (p / 128)).fifo, y.lossOf 0 p = false) → (u.tile (p / 128)).fifo = (s.tile (p / 128)).fifo
          ∧ (u.srx p).drop0 = (s.srx p).drop0.add f.seq s.tick)
      ∧ (∀ y, (s.tile (p / 128)).fifo.find? (fun y => y.lossOf 0 p) = some y → (u.srx p).drop0 = (s.srx p).drop0
          ∧ (u.tile (p / 128)).fifo = mergeLoss 0 p (if seqBefore (y.word 4) f.seq then f.seq else y.word 4) 1 (s.tile (p / 128)).fifo) := by
  rw [State.endFrame_of_matched hf hRule] at hu
  set r := stampRec p f bytes (min len 65535) how rule n with hr
  have wT : (s.frameGone p).exp.tablesWf = true := State.setSrx_tablesWf hT p _
  have hTile : (s.frameGone p).tile (p / 128) = s.tile (p / 128) := State.tile_setSrx ..
  have hDrops : ((s.frameGone p).srx p).drop0 = (s.srx p).drop0 := by
    rw [State.frameGone, State.srx_setSrx_same hT]
  rw [State.toFifo_of_full (Rec.isStamp_iff.mpr (stampRec_kind ..)) (by rw [show r.port = p from rfl, hTile]; exact hFull)] at hu
  obtain ⟨hPort, hPoint, -⟩ := State.dropRec_counts (s := s.frameGone p) h 0 r
  have hFifo : (u.tile (p / 128)).fifo = lossNoted 0 r (s.tile (p / 128)).fifo := by
    rw [← hu, ← hTile]
    exact congrArg TilePath.fifo (State.dropRec_tile_same wT 0 r)
  rw [hu] at hPort hPoint
  refine ⟨?_, hPort, hPoint rfl hp, fun hNone => ⟨hFifo.trans (lossNoted_of_none hNone), ?_⟩,
    fun y hSome => ⟨?_, hFifo.trans (lossNoted_of_some hSome)⟩⟩
  · rw [hFifo, lossNoted_kind]
  · rw [← hTile] at hNone
    rw [← hu, ← hDrops]
    exact congrArg Srx.drop0 (State.dropRec_srx_of_none wT (point := 0) (r := r) hNone)
  · rw [← hTile] at hSome
    rw [← hu, ← hDrops]
    exact congrArg Srx.drop0 (State.dropRec_srx_of_some (point := 0) (r := r) hSome p)

/-- Settles O34: a frame that starts reads its stamp and SEQ32 behind the end of the frame before it, which leaves both alone; a frame
that ends is counted, recorded, or dropped at the point of its tile. -/
theorem framesAreStampedAndRecorded : Obligations.FramesAreStampedAndRecorded := by
  intro s p h hT
  refine ⟨fun hOn => ⟨?_, ?_, ?_, ?_⟩, fun hOff l4 delta bytes len how => ?_⟩
  · intro l4 delta bytes len hLock hPend
    have kEnd := s.endFrame_portRecords p bytes len .errored
    obtain ⟨hFrame, hWrapPend, hSeq, hWraps, hNoWrap, kStart⟩ := frameStart_takes h hT hOn hLock hPend
      (rfl : s.begun p l4 delta bytes len = (_, _)) rfl
    set e := s.endFrame p bytes len .errored with he
    have wf : e.regsWf = true := kEnd.writes.wf h
    have hNext : e.get (Adr.SRX_SEQ p) Fl.SRX_SEQ_NEXT = s.get (Adr.SRX_SEQ p) Fl.SRX_SEQ_NEXT :=
      kEnd.get h _ _ (not_recordReg (by simp [Fl.SRX_SEQ_NEXT]))
    have hEpochRd : e.rd (Adr.SRX_EPOCH p) = s.rd (Adr.SRX_EPOCH p) := kEnd.writes.rd h _ (not_recordReg (by simp))
    refine ⟨_, _, rfl, hFrame, hNext, kEnd.tick, rfl, rfl, congrArg domIx (kEnd.sdom h), kEnd.tq h, rfl, kEnd.rules hT, kEnd.key hT,
      State.get_of_rd (kEnd.stat h) rfl, hNext ▸ hSeq, hNext ▸ hWrapPend, fun hPendWrap hZero => ?_, fun hNo => ?_, fun hNone a ha => ?_⟩
    · obtain ⟨hEpoch, hRec⟩ := hWraps ((kEnd.wrapPend hT).trans hPendWrap) (hNext.trans hZero)
      exact ⟨hEpoch.trans (by rw [State.get_of_rd hEpochRd rfl]), hRec⟩
    · exact ((hNoWrap ((kEnd.wrapPend hT).trans hNo)).rd wf _ (srxSeq_ne_epoch p).symm).trans hEpochRd
    · exact (kStart.rd wf a ha).trans (by rw [he, State.endFrame_of_none hNone])
  · exact fun l4 delta bytes len hLock => congrArg Host.Outcome.next (frameStart_of_not_lock (.inr hLock))
  · intro f bytes len how delta hf hPend
    refine ⟨_, congrArg Host.Outcome.next (frameEnd_of_frame hT hOn hf hPend), State.endFrame_frame hT .., fun hRule => ?_,
      fun rule n hRule _ hDom hTq => ⟨fun hRoom => ?_, fun hFull => ?_⟩⟩
    · exact State.endFrame_unmatched h hf hRule rfl
    · exact State.endFrame_newest hT hf hRule hDom hTq hRoom rfl
    · exact State.endFrame_drops h hT (State.lt_numPorts_of_srxOn hOn) hf hRule hFull rfl
  · exact fun bytes len how delta hNone => congrArg Host.Outcome.next (frameEnd_of_noFrame (.inr hNone))
  · exact ⟨congrArg Host.Outcome.next (frameStart_of_not_lock (.inl hOff)), congrArg Host.Outcome.next (frameEnd_of_noFrame (.inl hOff))⟩

end Sys2Proof.Machine
end

section
/-! SUPPORT. What the assertion of a fault source leaves alone, whatever its class, and VALID of the source that asserted (R310, R311,
R316). -/

namespace Sys2Proof.Machine

variable {s s₀ t : State} {n : Nat}

/-! ## The EXPORT engine and its registers -/

/-- The registers outside those of the aggregators, the record queues and the intake points. -/
def offRecords (a : Nat) : Prop := a < 0x80000 ∨ 0xd0000 ≤ a

theorem quiet_of_not_offRecords {a : Nat} (h : ¬ offRecords a) : quiet a = true := by
  unfold offRecords at h
  simp [quiet]
  omega

theorem Reports.offRecords (h : Reports s t) : WritesOnly offRecords s t := ⟨h.wf, fun w a ha => h.rd w a (quiet_of_not_offRecords ha)⟩

/-- From `s` to `t` the EXPORT engine stays, and so do its registers. -/
structure ExportKept (s t : State) : Prop where
  exp : t.exp = s.exp
  writes : WritesOnly offRecords s t

theorem ExportKept.rfl : ExportKept s s := ⟨Eq.refl _, .rfl⟩

theorem ExportKept.trans (h : ExportKept s₀ s) (k : ExportKept s t) : ExportKept s₀ t := ⟨k.exp.trans h.exp, h.writes.trans k.writes⟩

theorem ite_exportKept {c : Prop} [Decidable c] {a b : State} (ha : ExportKept s a) (hb : ExportKept s b) :
    ExportKept s (if c then a else b) := by
  split
  · exact ha
  · exact hb

theorem Reports.exportKept (h : Reports s t) : ExportKept s t := ⟨h.exp, h.offRecords⟩

theorem State.put_exportKept (s : State) (b : Nat) (f : Field) (v : Nat) (h : offRecords (b + f.off)) : ExportKept s (s.put b f v) :=
  ⟨rfl, s.put_writes v h⟩

theorem State.refreshGo_exportKept (s : State) : ExportKept s s.refreshGo where
  exp := by rw [s.refreshGo_goOnly.eq]
  writes := s.refreshGo_writesOnly.mono fun a ha => .inl (by rw [ha]; decide)

theorem State.putFlag_exportKept (s : State) (b : Nat) (f : Field) (x : Bool) (h : offRecords (b + f.off)) :
    ExportKept s (s.putFlag b f x) := s.put_exportKept b f _ h

theorem State.stopAlive_exportKept (s : State) : ExportKept s s.stopAlive := by
  have kBoot : ExportKept s (s.setBoot { s.boot with aliveAt := none }) := ⟨rfl, .of_regs rfl rfl⟩
  exact (kBoot.trans (State.putFlag_exportKept _ _ _ _ (.inr (by decide)))).trans (State.putFlag_exportKept _ _ _ _ (.inr (by decide)))

theorem State.releaseOwn_exportKept (s : State) : ExportKept s s.releaseOwn :=
  (s.putFlag_exportKept _ _ _ (.inr (by decide))).trans (State.putFlag_exportKept _ _ _ _ (.inr (by decide)))

theorem State.fatalRelease_exportKept (s : State) : ExportKept s s.fatalRelease := by
  have kFatal := s.putFlag_exportKept Adr.FLT_GSTAT Fl.FLT_GSTAT_FATAL true (.inr (by decide))
  unfold State.fatalRelease
  exact (kFatal.trans ((State.stopAlive_exportKept _).trans (State.releaseOwn_exportKept _))).trans ⟨rfl, .of_regs rfl rfl⟩

theorem State.fatalReaction_exportKept (s : State) : ExportKept s s.fatalReaction := by
  have kPair := fun u : State => (u.put_exportKept Adr.PAIR_STAT Fl.PAIR_STAT_ROLE 2 (.inr (by decide))).trans
    (State.put_exportKept _ Adr.PAIR_STAT Fl.PAIR_STAT_HEALTH 2 (.inr (by decide)))
  unfold State.fatalReaction
  exact ite_exportKept .rfl ((ite_exportKept s.fatalRelease_exportKept (s.fatalRelease_exportKept.trans (kPair s.fatalRelease))).trans
    ((State.react_reports .rfl).exportKept.trans (State.refreshGo_exportKept _)))

/-- The assertion of a source that is no supply leaves the EXPORT engine, whatever its class. -/
theorem State.assertFault_exportKept (s : State) (hn : n < 256) (hs : ¬(0xC0 ≤ n ∧ n ≤ 0xC5)) (r : FaultRep) (active : Bool) :
    ExportKept s (s.assertFault n r active) := by
  have kSrc := fun (u : State) (f : Field) (v : Nat) => u.put_exportKept (Adr.FLT_SRC n) f v (.inr (by unfold Adr.FLT_SRC; omega))
  unfold State.assertFault
  refine ite_exportKept .rfl ?_
  extract_lets b cls u fresh flt v x y
  have ku : ExportKept s u := (kSrc ..).trans (kSrc ..)
  have kv : ExportKept s v := ite_exportKept (ku.trans (State.capture_reports .rfl n hn r).exportKept)
    ((ku.trans (kSrc ..)).trans (State.setFlt_reports .rfl _).exportKept)
  have kx : ExportKept s x := ite_exportKept (kv.trans v.fatalReaction_exportKept) kv
  have ky : ExportKept s y := by rw [show y = x from if_neg hs]; exact kx
  exact ite_exportKept (ky.trans (State.noteFault_reports .rfl n).exportKept) ky

/-! ## VALID of a source -/

/-- The registers that are no first word of a source. -/
def offSrc (a : Nat) : Prop := a < 0x101000 ∨ 0x103000 ≤ a ∨ a % 16 ≠ 0

/-- From `s` to `t` VALID of a source stays set. No hypothesis on a state bounds the numbers of its sessions, so the word of a source may
be that of a session; a write that fails changes it where it reads as OPEN, and set VALID is no OPEN. -/
structure ValidKept (n : Nat) (s t : State) : Prop where
  wf : s.regsWf = true → t.regsWf = true
  valid : s.regsWf = true → n < 256 → s.flag (Adr.FLT_SRC n) Fl.FLT_SRC_VALID = true → t.flag (Adr.FLT_SRC n) Fl.FLT_SRC_VALID = true

theorem ValidKept.rfl : ValidKept n s s := ⟨id, fun _ _ => id⟩

theorem ValidKept.trans (h : ValidKept n s₀ s) (k : ValidKept n s t) : ValidKept n s₀ t :=
  ⟨k.wf ∘ h.wf, fun w hn hv => k.valid (h.wf w) hn (h.valid w hn hv)⟩

theorem ite_validKept {c : Prop} [Decidable c] {a b : State} (ha : ValidKept n s a) (hb : ValidKept n s b) :
    ValidKept n s (if c then a else b) := by
  split
  · exact ha
  · exact hb

theorem foldl_validKept {β : Type} {f : State → β → State} (hf : ∀ s x, ValidKept n s (f s x)) (l : List β) (s : State) :
    ValidKept n s (l.foldl f s) :=
  List.foldlRecOn (motive := fun t => ValidKept n s t) l f .rfl fun _ h x _ => h.trans (hf _ x)

theorem ValidKept.of_writes {w : Nat → Prop} (h : WritesOnly w s t) (hw : ∀ a, w a → offSrc a) : ValidKept n s t where
  wf := h.wf
  valid k hn hv := (State.flag_of_rd (h.rd k _ fun hc => by
    have := hw _ hc
    unfold offSrc Adr.FLT_SRC at this
    omega) (by decide)).trans hv

theorem ValidKept.of_regs (hr : t.regs = s.regs) (hv : t.variant = s.variant) : ValidKept n s t :=
  .of_writes (w := fun _ => False) (.of_regs hr hv) fun _ => False.elim

theorem ValidKept.after (k : ValidKept n s t) (hr : s.regs = s₀.regs) (hv : s.variant = s₀.variant) : ValidKept n s₀ t :=
  ValidKept.trans (.of_regs hr hv) k

theorem State.put_validKept (s : State) (b : Nat) (f : Field) (v : Nat) (h : offSrc (b + f.off)) : ValidKept n s (s.put b f v) :=
  .of_writes (s.put_writes v h) fun _ => id

/-- Another field of the source. -/
theorem State.putSrc_validKept (s : State) (f : Field) (v : Nat) (h : Fl.FLT_SRC_VALID.apart f = true) :
    ValidKept n s (s.put (Adr.FLT_SRC n) f v) :=
  ⟨State.put_regsWf _ _ _, fun w _ hv => (State.flag_put_apart w _ _ _ _ h).trans hv⟩

theorem State.hubEvent_validKept (s : State) (ev k : Nat) : ValidKept n s (s.hubEvent ev k) :=
  .of_writes (s.hubEvent_perfReg ev k) fun a ha => by
    unfold perfReg at ha
    exact .inr (.inl (by omega))

/-- The word of an OPEN session has VALID clear. -/
theorem State.sessState_ne_open (q : Nat) (hq : Adr.SESS q = Adr.FLT_SRC n) (h : s.flag (Adr.FLT_SRC n) Fl.FLT_SRC_VALID = true) :
    s.sessState q ≠ 2 := by
  unfold State.flag State.get at h
  unfold State.sessState State.get
  rw [← hq] at h
  intro hOpen
  unfold getBits at h hOpen
  simp only [Fl.FLT_SRC_VALID, Fl.SESS_STATE, Nat.add_zero] at h hOpen
  simp at h hOpen
  omega

theorem State.dmaFault_validKept (s : State) (q : Nat) : ValidKept n s (s.dmaFault q) where
  wf := (s.dmaFault_writesOnly q).wf
  valid w _ hv := by
    by_cases hq : Adr.SESS q = Adr.FLT_SRC n
    · unfold State.dmaFault
      rwa [if_neg (State.sessState_ne_open q hq hv)]
    · exact (State.flag_of_rd ((s.dmaFault_writesOnly q).rd w _ (Ne.symm hq)) rfl).trans hv

end Sys2Proof.Machine
end

section
/-! SUPPORT. VALID of a source behind events, ledger entries, settled lanes and the FATAL reaction (R310, R311, R316). -/

namespace Sys2Proof.Machine

variable {s s₀ t : State} {n : Nat}

/-! ## Events -/

theorem State.setSess_validKept (s : State) (q : Nat) (x : Sess) : ValidKept n s (s.setSess q x) := .of_regs rfl rfl

theorem State.setFlt_validKept (s : State) (x : FltUnit) : ValidKept n s (s.setFlt x) := .of_regs rfl rfl

theorem State.onSess_validKept (s : State) (q : Nat) (f : Sess → Sess) : ValidKept n s (s.onSess q f) := by
  unfold State.onSess
  split
  · exact s.setSess_validKept ..
  · exact .rfl

theorem State.signal_validKept (s : State) (fn vec : Nat) : ValidKept n s (s.signal fn vec) := by
  unfold State.signal State.sendMsi
  refine ite_validKept .rfl (ite_validKept (ValidKept.trans (.of_regs ?_ ?_) (State.hubEvent_validKept ..)) (.of_regs ?_ ?_)) <;> rfl

theorem State.writeStat_validKept (s : State) (q ring : Nat) : ValidKept n s (s.writeStat q ring) := by
  unfold State.writeStat
  split
  · exact .rfl
  · have kSess := fun x => (s.hubEvent_validKept (n := n) 0x0C 1).trans (State.setSess_validKept _ q x)
    exact ite_validKept .rfl (ite_validKept (s.dmaFault_validKept q) (ite_validKept (kSess _)
      (ite_validKept (kSess _) ((kSess _).trans (State.signal_validKept ..)))))

theorem State.sendEth_validKept (s : State) (q ty count index : Nat) (body : List Byte) :
    ValidKept n s (s.sendEth q ty count index body) := by
  unfold State.sendEth
  split
  · exact .rfl
  · next x hx =>
    split
    · exact .rfl
    · next e he =>
      have kSent := (s.setSess_validKept (n := n) q { x with eth := some { e with txSeq := e.txSeq + 1 } }).trans
        (State.hubEvent_validKept _ 0x0D 1)
      refine ite_validKept (kSent.trans (.of_regs ?_ ?_)) (kSent.trans (.of_regs ?_ ?_)) <;> rfl

theorem State.pushEvts_validKept (s : State) (q : Nat) (es : List (List Byte)) : ValidKept n s (s.pushEvts q es) := by
  unfold State.pushEvts
  split
  · exact .rfl
  · exact ite_validKept (s.dmaFault_validKept q) (ite_validKept ((s.setSess_validKept ..).trans (State.sendEth_validKept ..))
      ((s.setSess_validKept ..).trans ((State.hubEvent_validKept ..).trans (State.writeStat_validKept ..))))

theorem State.postAt_validKept (s : State) (q code dom tq ns32 frac8 : Nat) (payload : List Byte) :
    ValidKept n s (s.postAt q code dom tq ns32 frac8 payload) := by
  have kLost : ValidKept n s (s.count (Adr.SESS q) Fl.SESS_EV_LOST 1) := s.put_validKept _ _ _ (.inr (.inr (by
    simp only [Adr.SESS, Fl.SESS_EV_LOST]
    omega)))
  unfold State.postAt
  refine ite_validKept .rfl ?_
  split
  · exact .rfl
  · exact ite_validKept (State.pushEvts_validKept ..) (kLost.trans (State.onSess_validKept ..))

theorem State.postOwners_validKept (s : State) (code : Nat) (payload : List Byte) : ValidKept n s (s.postOwners code payload) :=
  foldl_validKept (fun s _ => ite_validKept (s.postAt_validKept ..) .rfl) _ s

theorem State.postOut_validKept (s : State) (o : Nat) : ValidKept n s (s.postOut o) := by
  refine foldl_validKept (fun s q => ?_) _ s
  split
  · exact .rfl
  · exact ite_validKept (State.postAt_validKept ..) .rfl

/-! ## Lanes, outputs and routines -/

theorem State.setOut_validKept (s : State) (o : Nat) (x : Out) : ValidKept n s (s.setOut o x) := .of_regs rfl rfl

theorem State.refreshOuts_validKept (s : State) : ValidKept n s s.refreshOuts :=
  foldl_validKept (fun s o => ite_validKept .rfl ((s.setOut_validKept o _).trans (State.postOut_validKept _ o))) _ s

theorem State.interrupt_validKept (s : State) (c : Nat) (l : List (Nat × Nat)) : ValidKept n s (s.interrupt c l) := by
  have kCount : ∀ u : State, ValidKept n u (u.count (Adr.MC_CNT c) Fl.MC_CNT_ABANDONS 1) := fun u =>
    u.put_validKept _ _ _ (.inr (.inl (by simp only [Adr.MC_CNT]; omega)))
  unfold State.interrupt
  split
  · exact .rfl
  · exact ite_validKept (.of_regs rfl rfl) ((kCount _).after rfl rfl)

theorem State.interrupts_validKept (r s : State) : ValidKept n s (State.interrupts r s) := by
  refine foldl_validKept (fun s e => ?_) _ s
  split
  · exact ite_validKept (State.interrupt_validKept ..) (ite_validKept .rfl (.of_regs rfl rfl))
  · exact .rfl

theorem State.react_validKept (s : State) : ValidKept n s s.react := by
  have kSettled : ValidKept n s (State.interrupts s s.settleAll) := (State.interrupts_validKept s s.settleAll).after rfl rfl
  exact kSettled.trans (State.refreshOuts_validKept _)

theorem State.refreshGo_validKept (s : State) : ValidKept n s s.refreshGo :=
  .of_writes s.refreshGo_writesOnly fun a ha => .inl (by rw [ha]; decide)

/-! ## The ledger -/

theorem State.logInvol_ledgerReg (s : State) (k : Option Nat) (ty : Nat) (body : List Byte) :
    WritesOnly ledgerReg s (s.logInvol k ty body) := by
  unfold State.logInvol State.logInvolAt
  refine ite_writesOnly (s.flushOverflow_ledgerReg.trans (State.pushEntry_ledgerReg ..)) ?_
  split
  · exact s.flushOverflow_ledgerReg
  · exact s.flushOverflow_ledgerReg.trans ((State.ledgerStat_ledgerReg _).after rfl rfl)

theorem State.noteFault_validKept (s : State) (m : Nat) : ValidKept n s (s.noteFault m) := by
  have kLog := fun (u : State) k ty body => ValidKept.of_writes (n := n) (u.logInvol_ledgerReg k ty body) fun a ha => by
    unfold ledgerReg at ha
    exact .inl (by omega)
  unfold State.noteFault State.reportFault
  exact ite_validKept (((s.postOwners_validKept ..).trans (kLog ..)).trans (.of_regs rfl rfl)) (.of_regs rfl rfl)

/-! ## The assertion -/

theorem State.fatalReaction_validKept (s : State) : ValidKept n s s.fatalReaction := by
  have kPut := fun (u : State) (b : Nat) (f : Field) (v : Nat) (h : b + f.off < 0x101000) => u.put_validKept (n := n) b f v (.inl h)
  have kRelease : ValidKept n s s.fatalRelease := by
    have kStop := fun u : State => ((kPut (u.setBoot { u.boot with aliveAt := none }) Adr.FLT_GSTAT Fl.FLT_GSTAT_ALIVE_STOP 1
      (by decide)).trans (kPut _ Adr.PAIR_WIRE Fl.PAIR_WIRE_ALIVE_RUN 0 (by decide))).after (s₀ := u) rfl rfl
    have kOwn := fun u : State => (kPut u Adr.PAIR_WIRE Fl.PAIR_WIRE_OWN_OUT 0 (by decide)).trans
      (kPut _ Adr.PAIR_WIRE Fl.PAIR_WIRE_SEL_OUT 0 (by decide))
    unfold State.fatalRelease
    exact ((kPut s Adr.FLT_GSTAT Fl.FLT_GSTAT_FATAL 1 (by decide)).trans ((kStop _).trans (kOwn _))).trans (.of_regs rfl rfl)
  have kPair := fun u : State => (kPut u Adr.PAIR_STAT Fl.PAIR_STAT_ROLE 2 (by decide)).trans
    (kPut _ Adr.PAIR_STAT Fl.PAIR_STAT_HEALTH 2 (by decide))
  unfold State.fatalReaction
  exact ite_validKept .rfl ((ite_validKept kRelease (kRelease.trans (kPair s.fatalRelease))).trans
    ((State.react_validKept _).trans (State.refreshGo_validKept _)))

theorem ValidKept.putSrc (h : ValidKept n s t) {f : Field} {v : Nat} (hf : Fl.FLT_SRC_VALID.apart f = true := by decide) :
    ValidKept n s (t.put (Adr.FLT_SRC n) f v) := h.trans (t.putSrc_validKept f v hf)

/-- The capture sets VALID, and nothing that it writes after it clears it. -/
theorem State.capture_valid (h : s.regsWf = true) (hn : n < 256) (r : FaultRep) :
    (s.capture n r).flag (Adr.FLT_SRC n) Fl.FLT_SRC_VALID = true := by
  unfold State.capture
  extract_lets b u0 u1 u2 u3 u4 u5 u6 u7 u8 u9 _ v first
  have k3 : ValidKept n u0 u3 := ValidKept.rfl.putSrc.putSrc.putSrc
  have k6 : ValidKept n u0 u6 := k3.putSrc.putSrc.putSrc
  have k9 : ValidKept n u0 u9 := k6.putSrc.putSrc.putSrc
  have kv : ValidKept n u0 v := k9.trans (State.setFlt_validKept ..)
  have named := (kv.trans (v.put_validKept Adr.FLT_GSTAT Fl.FLT_GSTAT_FIRST n (.inl (by decide)))).trans
    (State.put_validKept _ Adr.FLT_GSTAT Fl.FLT_GSTAT_FIRST_VALID 1 (.inl (by decide)))
  exact (ite_validKept (named.trans (State.setFlt_validKept ..)) kv).valid (State.putFlag_regsWf _ _ _ h) hn
    (State.flag_putFlag_same _ _ _ (by decide) (by decide) h)

/-- A source that is no supply holds a capture once it has asserted, whatever its class. -/
theorem State.assertFault_valid (h : s.regsWf = true) (hn : n < 256) (hs : ¬(0xC0 ≤ n ∧ n ≤ 0xC5)) (hEx : faultExists s.variant n = true)
    (r : FaultRep) (active : Bool) : (s.assertFault n r active).flag (Adr.FLT_SRC n) Fl.FLT_SRC_VALID = true := by
  unfold State.assertFault
  rw [if_neg (by rw [hEx]; decide)]
  extract_lets b cls u fresh flt v x y
  have wfu : u.regsWf = true := State.putFlag_regsWf _ _ _ (State.put_regsWf _ _ _ h)
  have kCount := fun z => (u.putSrc_validKept (n := n) Fl.FLT_SRC_COUNT _ (by decide)).trans (State.setFlt_validKept (u.count b Fl.FLT_SRC_COUNT 1) z)
  have hCaptured : (u.capture n r).regsWf = true ∧ (u.capture n r).flag (Adr.FLT_SRC n) Fl.FLT_SRC_VALID = true :=
    ⟨(State.capture_reports .rfl n hn r).wf wfu, State.capture_valid wfu hn r⟩
  have hv : v.regsWf = true ∧ v.flag (Adr.FLT_SRC n) Fl.FLT_SRC_VALID = true :=
    iteInduction (motive := fun w : State => w.regsWf = true ∧ w.flag (Adr.FLT_SRC n) Fl.FLT_SRC_VALID = true) (fun _ => hCaptured)
      fun hHeld => ⟨(kCount _).wf wfu, (kCount _).valid wfu hn (by simpa [fresh] using hHeld)⟩
  have kx : ValidKept n v x := ite_validKept v.fatalReaction_validKept .rfl
  have ky : ValidKept n v y := by rw [show y = x from if_neg hs]; exact kx
  exact (ite_validKept (ky.trans (y.noteFault_validKept n)) ky).valid hv.1 hn hv.2

end Sys2Proof.Machine
end

section
/-! O35: a record passes from the tile FIFO to the intake (R183, R313). -/

namespace Sys2Proof.Machine

variable {s t : State} {n : Nat} {r : Rec} {rest : List Rec}

/-! ## What a transfer does -/

theorem tileLinkTransfer_of_nil (h : (s.tile n).fifo = []) : tileLinkTransfer n s = s := by
  unfold tileLinkTransfer
  dsimp only
  rw [h]

theorem State.checkPass_of_armed (h : s.flt.armed n 0 false = true) : s.checkPass n = (true, s.setFlt (s.ctl.flt.consume n 0)) := if_pos h

theorem State.checkPass_of_not_armed (h : s.flt.armed n 0 false = false) : s.checkPass n = (false, s) :=
  if_neg (by rw [show s.ctl.flt.armed n 0 false = false from h]; decide)

/-- The oldest record of the FIFO taken from it. -/
def State.fifoTaken (s : State) (n : Nat) (rest : List Rec) : State := s.setTile n { s.tile n with fifo := rest }

theorem tileLinkTransfer_of_failed (hf : (s.tile n).fifo = r :: rest) (hFail : s.flt.armed (0x94 + n) 0 false = true) :
    tileLinkTransfer n s = (s.setFlt (s.ctl.flt.consume (0x94 + n) 0)).assertFault (0x94 + n) { access := 1, master := 0x0A + n } false := by
  unfold tileLinkTransfer
  dsimp only
  rw [hf]
  dsimp only
  rw [State.checkPass_of_armed hFail]
  exact if_pos rfl

theorem tileLinkTransfer_of_passed (hf : (s.tile n).fifo = r :: rest) (hPass : s.flt.armed (0x94 + n) 0 false = false) :
    ∃ u, u = (if (s.checkPass (0x90 + n)).1 then (s.checkPass (0x90 + n)).2.assertFault (0x90 + n) { access := 1, master := 0x0A + n } false
        else (s.checkPass (0x90 + n)).2)
      ∧ tileLinkTransfer n s = if r.bad then ((u.setTile n { s.tile n with fifo := rest }).dropRec 0 r).assertFault (0x98 + n)
          { access := 0, master := 0x0A + n } false else (u.setTile n { s.tile n with fifo := rest }).toIntake n r := by
  refine ⟨_, rfl, ?_⟩
  unfold tileLinkTransfer
  dsimp only
  rw [hf]
  dsimp only
  rw [State.checkPass_of_not_armed hPass]
  exact if_neg Bool.false_ne_true

/-- The state behind a code error that the link repaired. -/
def State.linkRepaired (s : State) (n : Nat) : State :=
  (s.setFlt (s.ctl.flt.consume (0x90 + n) 0)).assertFault (0x90 + n) { access := 1, master := 0x0A + n } false

theorem tileLinkTransfer_of_repaired (hf : (s.tile n).fifo = r :: rest) (hPass : s.flt.armed (0x94 + n) 0 false = false)
    (hCode : s.flt.armed (0x90 + n) 0 false = true) (hBad : r.bad = false) :
    tileLinkTransfer n s = ((s.linkRepaired n).setTile n { s.tile n with fifo := rest }).toIntake n r := by
  obtain ⟨u, hu, hEq⟩ := tileLinkTransfer_of_passed hf hPass
  rw [State.checkPass_of_armed hCode] at hu
  rw [hEq, hBad, show u = s.linkRepaired n from hu.trans (if_pos rfl)]
  exact if_neg (by decide)

theorem tileLinkTransfer_of_clean (hf : (s.tile n).fifo = r :: rest) (hPass : s.flt.armed (0x94 + n) 0 false = false)
    (hCode : s.flt.armed (0x90 + n) 0 false = false) :
    tileLinkTransfer n s = if r.bad then ((s.fifoTaken n rest).dropRec 0 r).assertFault (0x98 + n) { access := 0, master := 0x0A + n } false
      else (s.fifoTaken n rest).toIntake n r := by
  obtain ⟨u, hu, hEq⟩ := tileLinkTransfer_of_passed hf hPass
  rw [State.checkPass_of_not_armed hCode] at hu
  rw [hEq, show u = s from hu.trans (if_neg Bool.false_ne_true)]
  rfl

/-! ## A failed retry, and a repaired code error -/

theorem State.setFlt_exportKept (s : State) (x : FltUnit) : ExportKept s (s.setFlt x) := ⟨rfl, .of_regs rfl rfl⟩

theorem fltSrc_not_recordReg (hn : n < 256) (p : Nat) : ¬ recordReg 1 p (Adr.FLT_SRC n) := by
  simp only [recordReg, pointDrop, perfReg, Adr.FLT_SRC, Adr.SRX_UNM, Adr.SRX_DROP, Adr.AGG_DROP, if_neg (by decide : ¬ (1 = 0))]
  omega

/-- A retry that failed leaves the record, and asserts its source. -/
theorem tileLinkTransfer_stays (h : s.regsWf = true) (hn : n < 4) (hf : (s.tile n).fifo = r :: rest)
    (hFail : s.flt.armed (0x94 + n) 0 false = true) (hEx : faultExists s.variant (0x94 + n) = true) {u : State}
    (hu : tileLinkTransfer n s = u) :
    u.exp.tiles = s.exp.tiles ∧ u.flag (Adr.FLT_SRC (0x94 + n)) Fl.FLT_SRC_VALID = true := by
  rw [tileLinkTransfer_of_failed hf hFail] at hu
  set v := s.setFlt (s.ctl.flt.consume (0x94 + n) 0) with hv
  subst hu
  exact ⟨congrArg ExportEng.tiles (v.assertFault_exportKept (by omega) (by omega) _ _).exp,
    State.assertFault_valid (s := v) h (by omega) (by omega) hEx _ _⟩

/-- A repaired code error asserts its source, and the record leaves the FIFO. -/
theorem tileLinkTransfer_repairs (h : s.regsWf = true) (hT : s.exp.tablesWf = true) (hn : n < 4) (hf : (s.tile n).fifo = r :: rest)
    (hPass : s.flt.armed (0x94 + n) 0 false = false) (hBad : r.bad = false) (hCode : s.flt.armed (0x90 + n) 0 false = true)
    (hEx : faultExists s.variant (0x90 + n) = true) {u : State} (hu : tileLinkTransfer n s = u) :
    (u.tile n).fifo = rest ∧ u.flag (Adr.FLT_SRC (0x90 + n)) Fl.FLT_SRC_VALID = true := by
  rw [tileLinkTransfer_of_repaired hf hPass hCode hBad] at hu
  subst hu
  have kExp : ExportKept s (s.linkRepaired n) :=
    (s.setFlt_exportKept _).trans (State.assertFault_exportKept _ (by omega) (by omega) _ _)
  have hValid : (s.linkRepaired n).flag (Adr.FLT_SRC (0x90 + n)) Fl.FLT_SRC_VALID = true :=
    State.assertFault_valid (s := s.setFlt (s.ctl.flt.consume (0x90 + n) 0)) h (by omega) (by omega) hEx _ _
  have wf := kExp.writes.wf h
  have wT : (s.linkRepaired n).exp.tablesWf = true := kExp.exp ▸ hT
  generalize s.linkRepaired n = v at wf wT hValid ⊢
  refine ⟨?_, ?_⟩
  · rw [State.toIntake_fifo (State.setTile_tablesWf wT ..), State.tile_setTile_same wT]
  · exact (State.flag_of_rd ((State.toIntake_portRecords (v.setTile ..) n r).writes.rd wf _ (fltSrc_not_recordReg (by omega) _)) rfl).trans hValid

/-! ## A transfer without error of the link -/

theorem State.fifoTaken_tile (h : s.exp.tablesWf = true) (n : Nat) (rest : List Rec) :
    (s.fifoTaken n rest).tile n = { s.tile n with fifo := rest } := State.tile_setTile_same h ..

theorem TilePath.put_zero (x : TilePath) (l : List Rec) : x.put 0 l = { x with fifo := l } := if_pos rfl
theorem TilePath.put_one (x : TilePath) (l : List Rec) : x.put 1 l = { x with intake := l } := if_neg (by decide)

/-- A record with bad parity is dropped at point 0x0. -/
theorem tileLinkTransfer_discards (h : s.regsWf = true) (hT : s.exp.tablesWf = true) (hn : n < 4) (hf : (s.tile n).fifo = r :: rest)
    (hPass : s.flt.armed (0x94 + n) 0 false = false) (hCode : s.flt.armed (0x90 + n) 0 false = false) (hBad : r.bad = true) {u : State}
    (hu : tileLinkTransfer n s = u) :
    u.exp.queues = s.exp.queues ∧ ((∀ y ∈ rest, y.lossOf 0 r.port = false) → (u.tile n).fifo = rest) ∧ (u.tile n).intake = (s.tile n).intake
      ∧ (r.port < 512 → u.get (Adr.BR_DROP (r.port / 128)) Fl.BR_DROP_COUNT
          = min 0xffffffff (s.get (Adr.BR_DROP (r.port / 128)) Fl.BR_DROP_COUNT + 1)) := by
  rw [tileLinkTransfer_of_clean hf hPass hCode, if_pos hBad] at hu
  have wT : (s.fifoTaken n rest).exp.tablesWf = true := State.setTile_tablesWf hT ..
  have kDrop := (s.fifoTaken n rest).dropRec_portRecords 0 r
  have kFault := ((s.fifoTaken n rest).dropRec 0 r).assertFault_exportKept (n := 0x98 + n) (by omega) (by omega)
    { access := 0, master := 0x0A + n } false
  obtain ⟨l, hTile, -, hSame⟩ := State.dropRec_tile wT 0 r n
  rw [← State.tile_congr kFault.exp, State.fifoTaken_tile hT, TilePath.put_zero, hu] at hTile
  rw [State.fifoTaken_tile hT] at hSame
  have hCount := (State.dropRec_counts (s := s.fifoTaken n rest) h 0 r).2.1 rfl
  rw [hu] at kFault
  refine ⟨(congrArg ExportEng.queues kFault.exp).trans kDrop.queues, fun hNone => ?_, ?_, fun hp => ?_⟩
  · rw [hTile]
    exact hSame hNone
  · rw [hTile]
  · refine (kFault.writes.get (kDrop.writes.wf h) _ _ ?_).trans (hCount hp)
    simp only [offRecords, Adr.BR_DROP, Fl.BR_DROP_COUNT]
    omega

/-- Every other record becomes the newest of the intake, but a STAMP record that finds it full is dropped at point 0x1. -/
theorem tileLinkTransfer_carries (h : s.regsWf = true) (hT : s.exp.tablesWf = true) (hf : (s.tile n).fifo = r :: rest)
    (hPass : s.flt.armed (0x94 + n) 0 false = false) (hCode : s.flt.armed (0x90 + n) 0 false = false) (hBad : r.bad = false) {u : State}
    (hu : tileLinkTransfer n s = u) :
    u.exp.queues = s.exp.queues ∧ (u.tile n).fifo = rest
      ∧ (r.isStamp = true → stampCount (s.tile n).intake < 1024 → (u.tile n).intake.getLast? = some r ∧ u.regs = s.regs)
      ∧ (r.isStamp = true → 1024 ≤ stampCount (s.tile n).intake →
          ((∀ y ∈ (s.tile n).intake, y.lossOf 1 r.port = false) → (u.tile n).intake = (s.tile n).intake)
          ∧ u.get (Adr.SRX_DROP r.port) Fl.SRX_DROP_DROPPED = min 0xffffffff (s.get (Adr.SRX_DROP r.port) Fl.SRX_DROP_DROPPED + 1)
          ∧ u.get Adr.AGG_DROP Fl.AGG_DROP_COUNT = min 0xffffffff (s.get Adr.AGG_DROP Fl.AGG_DROP_COUNT + 1))
      ∧ (r.isStamp = false → (∃ k ∈ (u.tile n).intake, k.kind = r.kind ∧ k.port = r.port) ∧ u.regs = s.regs) := by
  rw [tileLinkTransfer_of_clean hf hPass hCode, hBad, if_neg (by decide)] at hu
  set v := s.fifoTaken n rest with hv
  have wT : v.exp.tablesWf = true := State.setTile_tablesWf hT ..
  have hTile : v.tile n = { s.tile n with fifo := rest } := State.fifoTaken_tile hT ..
  have hIntake : (v.tile n).intake = (s.tile n).intake := by rw [hTile]
  have hFifo := State.toIntake_fifo wT n r
  rw [hu, hTile] at hFifo
  refine ⟨?_, hFifo, fun hr hRoom => ?_, fun hr hFull => ?_, fun hr => ?_⟩
  · rw [← hu]
    exact (v.toIntake_portRecords n r).queues
  · rw [← hIntake] at hRoom
    rw [State.toIntake_of_room hr hRoom] at hu
    subst hu
    refine ⟨?_, v.formLoss_regs 1 r.port⟩
    rw [State.tile_setTile_same ((v.formLoss_portRecords 1 r.port).tables wT)]
    exact List.getLast?_concat
  · rw [← hIntake] at hFull
    rw [State.toIntake_of_full hr hFull] at hu
    subst hu
    obtain ⟨hPort, -, hPoint⟩ := State.dropRec_counts (s := v) h 1 r
    obtain ⟨l, hAt, -, hSame⟩ := State.dropRec_tile wT 1 r n
    rw [TilePath.put_one] at hAt
    refine ⟨fun hNone => ?_, hPort, hPoint (by decide)⟩
    rw [hAt]
    exact (hSame (by rw [← hIntake] at hNone; exact hNone)).trans hIntake
  · rw [State.toIntake_of_ctl hr] at hu
    subst hu
    rw [State.tile_setTile_same wT]
    exact ⟨exists_mem_placeCtl r (v.tile n).intake, rfl⟩

end Sys2Proof.Machine
end

section
/-! O35: the tiles' turn, records too old, and the LOSS record of a port (R183, R184). -/

namespace Sys2Proof.Machine

variable {s s₀ t : State} {n p : Nat}

/-! ## The turn -/

/-- The tile after the last one served comes first. -/
theorem State.nextTile_of_next (hn : n = (s.exp.turn + 1) % 4) (h : (s.tile n).intake ≠ []) : s.nextTile = some n := by
  unfold State.nextTile
  rw [show List.range 4 = 0 :: [1, 2, 3] from rfl, List.map_cons, List.find?_cons_of_pos]
  · rw [Nat.add_zero, hn]
  · rw [Nat.add_zero, ← hn]
    simpa using h

/-- The one tile whose intake holds a record is served, whatever the turn. -/
theorem State.nextTile_of_only (hn : n < 4) (h : (s.tile n).intake ≠ []) (hOnly : ∀ m, m < 4 → m ≠ n → (s.tile m).intake = []) :
    s.nextTile = some n := by
  unfold State.nextTile
  cases hFind : ((List.range 4).map fun k => (s.exp.turn + 1 + k) % 4).find? fun m => !(s.tile m).intake.isEmpty with
  | none =>
    refine absurd (by simpa using h) (List.find?_eq_none.mp hFind n (List.mem_map.mpr
      ⟨(n + 4 - (s.exp.turn + 1) % 4) % 4, List.mem_range.mpr (Nat.mod_lt _ (by decide)), by omega⟩))
  | some m =>
    obtain ⟨k, -, rfl⟩ := List.mem_map.mp (List.mem_of_find?_eq_some hFind)
    have hHolds := List.find?_some hFind
    by_cases hm : (s.exp.turn + 1 + k) % 4 = n
    · rw [hm]
    · rw [hOnly _ (Nat.mod_lt _ (by decide)) hm] at hHolds
      exact absurd hHolds (by decide)

/-! ## Records too old -/

/-- From `s` to `t` records were dropped at point 0x1: queues and FIFOs stay, and of the intakes the STAMP records, and all where no LOSS
record of that point waits. -/
structure AggDrops (s t : State) : Prop where
  tables : s.exp.tablesWf = true → t.exp.tablesWf = true
  queues : t.exp.queues = s.exp.queues
  fifo : s.exp.tablesWf = true → ∀ n, (t.tile n).fifo = (s.tile n).fifo
  stamps : s.exp.tablesWf = true → ∀ n, (t.tile n).intake.filter Rec.isStamp = (s.tile n).intake.filter Rec.isStamp
  noLoss : s.exp.tablesWf = true → ∀ n, (∀ y ∈ (s.tile n).intake, ∀ p, y.lossOf 1 p = false) → t.tile n = s.tile n

theorem AggDrops.rfl : AggDrops s s := ⟨id, Eq.refl _, fun _ _ => Eq.refl _, fun _ _ => Eq.refl _, fun _ _ _ => Eq.refl _⟩

theorem AggDrops.trans (h : AggDrops s₀ s) (k : AggDrops s t) : AggDrops s₀ t where
  tables := k.tables ∘ h.tables
  queues := k.queues.trans h.queues
  fifo w n := (k.fifo (h.tables w) n).trans (h.fifo w n)
  stamps w n := (k.stamps (h.tables w) n).trans (h.stamps w n)
  noLoss w n hNone := (k.noLoss (h.tables w) n (by rwa [h.noLoss w n hNone])).trans (h.noLoss w n hNone)

theorem State.dropRec_aggDrops (s : State) (r : Rec) : AggDrops s (s.dropRec 1 r) where
  tables := (s.dropRec_portRecords 1 r).tables
  queues := (s.dropRec_portRecords 1 r).queues
  fifo w n := by
    obtain ⟨l, hTile, -, -⟩ := State.dropRec_tile w 1 r n
    rw [hTile, TilePath.put_one]
  stamps w n := by
    obtain ⟨l, hTile, hStamps, -⟩ := State.dropRec_tile w 1 r n
    rw [hTile, TilePath.put_one]
    exact hStamps
  noLoss w n hNone := by
    obtain ⟨l, hTile, -, hSame⟩ := State.dropRec_tile w 1 r n
    rw [hTile, hSame fun y hy => hNone y hy r.port, TilePath.put_at]

/-- The aged records taken from a tile. -/
def State.agedTaken (s : State) (n : Nat) : State :=
  s.setTile n { fifo := (s.tile n).fifo.filter fun r => !agedOut s r, intake := (s.tile n).intake.filter fun r => !agedOut s r }

theorem recordAgeDrop_aggDrops (s : State) (n : Nat) : AggDrops (s.agedTaken n) (recordAgeDrop n s) :=
  List.foldlRecOn (motive := fun t => AggDrops (s.agedTaken n) t) _ _ .rfl fun _ h r _ => h.trans (State.dropRec_aggDrops _ r)

theorem Rec.lossOf_one_eq_false {y : Rec} (h : y.kind = 2 → y.point ≠ 1) (p : Nat) : y.lossOf 1 p = false := by
  unfold Rec.lossOf
  by_cases hKind : y.kind = 2
  · simp [h hKind]
  · simp [hKind]

theorem recordAgeDrop_drops (hT : s.exp.tablesWf = true) {u : State} (hu : recordAgeDrop n s = u) :
    (u.tile n).fifo = (s.tile n).fifo.filter (fun r => !agedOut s r)
      ∧ (u.tile n).intake.filter Rec.isStamp = (s.tile n).intake.filter (fun r => r.isStamp && !agedOut s r)
      ∧ u.exp.queues = s.exp.queues
      ∧ ((∀ m, ∀ y ∈ (s.tile m).intake, y.kind = 2 → y.point ≠ 1) → ∀ m, m ≠ n → u.tile m = s.tile m) := by
  have k := recordAgeDrop_aggDrops s n
  have wT : (s.agedTaken n).exp.tablesWf = true := State.setTile_tablesWf hT ..
  have hTile : (s.agedTaken n).tile n = ⟨(s.tile n).fifo.filter fun r => !agedOut s r, (s.tile n).intake.filter fun r => !agedOut s r⟩ :=
    State.tile_setTile_same hT ..
  have hOther : ∀ m, m ≠ n → (s.agedTaken n).tile m = s.tile m := fun m hm => State.tile_setTile_other hT _ hm
  rw [hu] at k
  refine ⟨?_, ?_, k.queues, fun hNone m hm => (k.noLoss wT m fun y hy => ?_).trans (hOther m hm)⟩
  · rw [k.fifo wT, hTile]
  · rw [k.stamps wT, hTile, List.filter_filter]
  · rw [hOther m hm] at hy
    exact Rec.lossOf_one_eq_false (hNone m y hy)

/-! ## The LOSS record of a port -/

theorem lossRecord_of_due {point : Nat} (hp : point < 2) (hCount : 0 < ((s.srx p).account point).count)
    (hDue : ((s.srx p).account point).tick + usTicks 100 ≤ s.tick) : lossRecord point p s = s.formLoss point p := if_pos ⟨hp, hCount, hDue⟩

theorem lossRecord_of_not_due {point : Nat}
    (h : ((s.srx p).account point).count = 0 ∨ s.tick < ((s.srx p).account point).tick + usTicks 100) : lossRecord point p s = s := by
  refine if_neg fun hc => ?_
  obtain ⟨-, hCount, hDue⟩ : _ ∧ 0 < ((s.srx p).account point).count ∧ ((s.srx p).account point).tick + usTicks 100 ≤ s.tick := hc
  omega

theorem TilePath.at_put (x : TilePath) (point : Nat) (l : List Rec) : (x.put point l).at point = l := by
  unfold TilePath.put TilePath.at
  split <;> rfl

theorem lossOwed_kind (s : State) (point p : Nat) : (s.lossOwed point p).kind = 2 := headWord_mod ..

/-- The LOSS record of a port waits at its point, and the account is empty again. -/
theorem State.formLoss_reports (hT : s.exp.tablesWf = true) {point : Nat} (hCount : 0 < ((s.srx p).account point).count) {u : State}
    (hu : s.formLoss point p = u) :
    u.srx p = (s.srx p).reported point ∧ (∃ r ∈ (u.tile (p / 128)).at point, r.kind = 2 ∧ r.port = p) ∧ u.regs = s.regs
      ∧ (∀ n, n ≠ p → u.srx n = s.srx n) := by
  have hRegs := s.formLoss_regs point p
  have hOthers := (s.formLoss_portRecords point p).others hT
  rw [hu] at hRegs hOthers
  rw [State.formLoss_of_some (by omega)] at hu
  subst hu
  refine ⟨State.srx_setSrx_same (State.setTile_tablesWf hT ..) p _, ?_, hRegs, hOthers⟩
  obtain ⟨k, hMem, hKind, hPort⟩ := exists_mem_placeCtl (s.lossOwed point p) ((s.tile (p / 128)).at point)
  rw [State.tile_setSrx, State.tile_setTile_same hT]
  refine ⟨k, ?_, hKind.trans (lossOwed_kind ..), hPort⟩
  rwa [TilePath.at_put]

end Sys2Proof.Machine
end

section
/-! SUPPORT. Record queues: what their operations leave of the tiles, and what a queue and its QPOS hold behind an accepted record and a
dropped one (R187, R192, R193). -/

namespace Sys2Proof.Machine

variable {s s₀ t : State} {q p : Nat}

/-! ## The tiles -/

/-- From `s` to `t` the tiles and their turn stay. -/
structure TilesKept (s t : State) : Prop where
  tiles : t.exp.tiles = s.exp.tiles
  turn : t.exp.turn = s.exp.turn

theorem TilesKept.rfl : TilesKept s s := ⟨Eq.refl _, Eq.refl _⟩

theorem TilesKept.trans (h : TilesKept s₀ s) (k : TilesKept s t) : TilesKept s₀ t := ⟨k.tiles.trans h.tiles, k.turn.trans h.turn⟩

theorem TilesKept.of_exp (h : t.exp = s.exp) : TilesKept s t := ⟨congrArg ExportEng.tiles h, congrArg ExportEng.turn h⟩

theorem TilesKept.tile (h : TilesKept s t) (n : Nat) : t.tile n = s.tile n := by
  unfold State.tile
  rw [h.tiles]

theorem ite_tilesKept {c : Prop} [Decidable c] {a b : State} (ha : TilesKept s a) (hb : TilesKept s b) :
    TilesKept s (if c then a else b) := by
  split
  · exact ha
  · exact hb

theorem foldl_tilesKept {β : Type} {f : State → β → State} (hf : ∀ s x, TilesKept s (f s x)) (l : List β) (s : State) :
    TilesKept s (l.foldl f s) :=
  List.foldlRecOn (motive := fun t => TilesKept s t) l f .rfl fun _ h x _ => h.trans (hf _ x)

theorem State.setQueue_tilesKept (s : State) (q : Nat) (x : Queue) : TilesKept s (s.setQueue q x) := ⟨rfl, rfl⟩
theorem State.setSrx_tilesKept (s : State) (p : Nat) (x : Srx) : TilesKept s (s.setSrx p x) := ⟨rfl, rfl⟩

theorem State.regMark_exp (s : State) (q depth delay : Nat) : (s.regMark q depth delay).exp = s.exp := by
  unfold State.regMark
  split <;> rfl

/-- QPOS of a queue: the position of the next record that it accepts. -/
def State.qpos (s : State) (q : Nat) : Nat := s.getPair (Adr.QW q) Fl.QW_QPOS_LO Fl.QW_QPOS_HI

/-- QPOS stepped. -/
def State.qposTaken (s : State) (q : Nat) : State := s.putPair (Adr.QW q) Fl.QW_QPOS_LO Fl.QW_QPOS_HI (s.qpos q + 1)

/-- The record as it stands at the next QPOS. -/
def State.itemOf (s : State) (q slot : Nat) (r : Rec) : QItem := ⟨r, s.tick, slot, s.qpos q % 2 ^ 64⟩

/-- Queue `q` with a record appended in a slot. -/
def State.appended (s : State) (q slot : Nat) (r : Rec) (x : Queue) : Queue :=
  Queue.markDepth { x with f := if x.items.isEmpty then some ((s.qposTaken q).finish q x) else x.f
                           items := x.items ++ [s.itemOf q slot r] } (x.items ++ [s.itemOf q slot r]).length

theorem State.appended_items (s : State) (q slot : Nat) (r : Rec) (x : Queue) :
    (s.appended q slot r x).items = x.items ++ [s.itemOf q slot r] := rfl

theorem State.appended_lost (s : State) (q slot : Nat) (r : Rec) (x : Queue) : (s.appended q slot r x).lost = x.lost := rfl

theorem State.qposTaken_regsWf (h : s.regsWf = true) (q : Nat) : (s.qposTaken q).regsWf = true :=
  State.put_regsWf _ _ _ (State.put_regsWf _ _ _ h)

theorem State.qposTaken_qpos (h : s.regsWf = true) (q : Nat) : (s.qposTaken q).qpos q = (s.qpos q + 1) % 2 ^ 64 := by
  unfold State.qposTaken State.qpos
  exact State.getPair_putPair_mod h _ _ _ _ (by decide) (by decide) (by decide)

theorem State.accept_of_none (h : s.queue? q = none) (slot : Nat) (r : Rec) : s.accept q slot r = s := by
  unfold State.accept
  rw [h]

theorem State.accept_of_some {x : Queue} (h : s.queue? q = some x) (slot : Nat) (r : Rec) :
    s.accept q slot r = ((s.qposTaken q).setQueue q (s.appended q slot r x)).regMark q (s.appended q slot r x).items.length 0 := by
  unfold State.accept
  rw [h]
  rfl

theorem State.accept_tilesKept (s : State) (q slot : Nat) (r : Rec) : TilesKept s (s.accept q slot r) := by
  cases h : s.queue? q with
  | none =>
    rw [State.accept_of_none h]
    exact .rfl
  | some x =>
    rw [State.accept_of_some h]
    have kSet : TilesKept s ((s.qposTaken q).setQueue q (s.appended q slot r x)) := ⟨rfl, rfl⟩
    exact kSet.trans (.of_exp (State.regMark_exp ..))

theorem State.queueLoss_tilesKept (s : State) (q : Nat) : TilesKept s (s.queueLoss q) := by
  unfold State.queueLoss
  split
  · exact .rfl
  · exact ite_tilesKept .rfl (ite_tilesKept (s.setQueue_tilesKept ..) ((s.setQueue_tilesKept ..).trans (State.accept_tilesKept ..)))

theorem State.onQueue_tilesKept (s : State) (q : Nat) (f : Queue → Queue) : TilesKept s (s.onQueue q f) := by
  unfold State.onQueue
  split
  · exact s.setQueue_tilesKept ..
  · exact .rfl

theorem State.dropAtQueue_tilesKept (s : State) (q : Nat) (r : Rec) : TilesKept s (s.dropAtQueue q r) :=
  TilesKept.trans (.of_exp ((State.hubEvent_exp ..).trans (State.count_exp ..))) (State.onQueue_tilesKept ..)

theorem State.enqueue_tilesKept (s : State) (q : Nat) (r : Rec) : TilesKept s (s.enqueue q r) := by
  unfold State.enqueue
  split
  · exact .rfl
  · exact ite_tilesKept (s.dropAtQueue_tilesKept ..) ((s.queueLoss_tilesKept q).trans (State.accept_tilesKept ..))

/-! ## The record buffer -/

theorem State.busIssue_exp (s : State) (r : BusReq) : (s.busIssue r).exp = s.exp := by
  unfold State.busIssue
  split
  · rw [(s.busError_hostOnly r).eq]
  · rfl

theorem State.busIssue_tick (s : State) (r : BusReq) : (s.busIssue r).tick = s.tick := by
  unfold State.busIssue
  split
  · rw [(s.busError_hostOnly r).eq]
  · rfl

theorem State.storeRecord_exp (s : State) : s.storeRecord.exp = s.exp := s.busIssue_exp _

theorem State.deliver_tilesKept (s : State) (p : Nat) (r : Rec) : TilesKept s (s.deliver p r) := by
  unfold State.deliver
  split
  · exact .of_exp rfl
  · exact TilesKept.trans (.of_exp ((State.storeRecord_exp _).trans (State.checkRec_exp ..)))
      (foldl_tilesKept (fun s q => s.enqueue_tilesKept ..) _ _)

theorem State.summaries_tilesKept (s : State) (p : Nat) (due : PolWin → Bool) : TilesKept s (s.summaries p due) :=
  (s.setSrx_tilesKept ..).trans (foldl_tilesKept (fun s _ => s.deliver_tilesKept ..) _ _)

theorem State.policeStamp_tilesKept (s : State) (r : Rec) : TilesKept s (s.policeStamp r) := by
  have kSrx := fun x => (s.summaries_tilesKept r.port fun w => decide (w.wnum < r.tick / windowTicks)).trans
    (State.setSrx_tilesKept _ r.port x)
  unfold State.policeStamp
  exact ite_tilesKept (kSrx _) ((kSrx _).trans (State.deliver_tilesKept ..))

theorem State.takeSample_tilesKept (s : State) (r : Rec) : TilesKept s (s.takeSample r) := by
  unfold State.takeSample
  exact ite_tilesKept .rfl (ite_tilesKept (ite_tilesKept ⟨rfl, rfl⟩ ⟨rfl, rfl⟩) (ite_tilesKept ⟨rfl, rfl⟩ .rfl))

/-! ## Registers behind a stored record -/

/-- The registers from the interconnect's on. -/
def busReg (a : Nat) : Prop := 0x120000 ≤ a

theorem State.hubEvent_busReg (s : State) (ev n : Nat) : WritesOnly busReg s (s.hubEvent ev n) :=
  (s.hubEvent_perfReg ev n).mono fun a ha => by
    unfold perfReg at ha
    unfold busReg
    omega

theorem State.busError_busReg (s : State) (r : BusReq) : WritesOnly busReg s (s.busError r) := by
  have kErr := fun (u : State) (f : Field) (v : Nat) => u.put_writes (w := busReg) (b := Adr.BUS_ERR) (f := f) v (by
    unfold busReg Adr.BUS_ERR
    omega)
  unfold State.busError
  exact ite_writesOnly ((s.hubEvent_busReg ..).trans (kErr ..)) (((((((s.hubEvent_busReg ..).trans (kErr ..)).trans (kErr ..)).trans
    (kErr ..)).trans (kErr ..)).trans (kErr ..)).trans (kErr ..))

theorem State.storeRecord_busReg (s : State) : WritesOnly busReg s s.storeRecord := by
  unfold State.storeRecord State.busIssue
  split
  · exact s.busError_busReg _
  · exact .of_regs rfl rfl

theorem qw_not_busReg (hq : q < 4096) {f : Field} (hf : f.off < 0x40) : ¬ busReg (Adr.QW q + f.off) := by
  unfold busReg Adr.QW
  omega

/-! ## A record accepted -/

theorem State.queue?_setQueue_same (s : State) (q : Nat) (x : Queue) : (s.setQueue q x).queue? q = some x :=
  congrArg (Option.map Prod.snd) (SMap.find?_insert_same s.exp.queues q x)

theorem State.queue?_congr (h : t.exp.queues = s.exp.queues) (q : Nat) : t.queue? q = s.queue? q := by
  unfold State.queue?
  rw [h]

/-- Q_DEPTH and Q_DELAY of a queue. -/
def markReg (q a : Nat) : Prop := a = Adr.QW q + 0x10 ∨ a = Adr.QW q + 0x14

theorem State.regMark_markReg (s : State) (q depth delay : Nat) : WritesOnly (markReg q) s (s.regMark q depth delay) := by
  unfold State.regMark
  exact ite_writesOnly .rfl ((s.put_writes _ (.inl rfl)).trans (State.put_writes _ _ (.inr rfl)))

theorem WritesOnly.qpos {w : Nat → Prop} (k : WritesOnly w s t) (h : s.regsWf = true)
    (hLo : ¬ w (Adr.QW q + 0x20)) (hHi : ¬ w (Adr.QW q + 0x24)) : t.qpos q = s.qpos q := by
  unfold State.qpos State.getPair
  rw [k.get h _ Fl.QW_QPOS_LO hLo, k.get h _ Fl.QW_QPOS_HI hHi]

theorem State.regMark_tick (s : State) (q depth delay : Nat) : (s.regMark q depth delay).tick = s.tick := by
  unfold State.regMark
  split <;> rfl

theorem State.setQueue_wf (h : s.regsWf = true) (m : Nat) (x : Queue) : (s.setQueue m x).regsWf = true := h

theorem State.setQueue_qpos (s : State) (m : Nat) (x : Queue) (q : Nat) : (s.setQueue m x).qpos q = s.qpos q := by
  unfold State.qpos State.getPair
  rw [State.setQueue_get, State.setQueue_get]

/-- An accepted record is the newest of its queue, at the next QPOS. -/
theorem State.accept_appends (h : s.regsWf = true) {x : Queue} (hx : s.queue? q = some x) (slot : Nat) (r : Rec) :
    (∃ y, (s.accept q slot r).queue? q = some y ∧ y.items = x.items ++ [s.itemOf q slot r] ∧ y.lost = x.lost)
      ∧ (s.accept q slot r).qpos q = (s.qpos q + 1) % 2 ^ 64 ∧ (s.accept q slot r).tick = s.tick
      ∧ (s.accept q slot r).regsWf = true := by
  rw [State.accept_of_some hx]
  have hPos := State.qposTaken_qpos h q
  set v := (s.qposTaken q).setQueue q (s.appended q slot r x) with hv
  have wfv : v.regsWf = true := State.setQueue_wf (State.qposTaken_regsWf h q) ..
  have kMark := v.regMark_markReg q (s.appended q slot r x).items.length 0
  refine ⟨⟨_, (State.queue?_congr (congrArg ExportEng.queues (v.regMark_exp ..)) q).trans (State.queue?_setQueue_same ..),
    s.appended_items .., s.appended_lost ..⟩, ?_,
    v.regMark_tick .., kMark.wf wfv⟩
  exact (kMark.qpos wfv (by simp [markReg]) (by simp [markReg])).trans ((State.setQueue_qpos ..).trans hPos)

end Sys2Proof.Machine
end

section
/-! O35: a record handed to the EXPORT engine, and the obligation (R187, R192). -/

namespace Sys2Proof.Machine

variable {s s₀ t : State} {q n p : Nat} {r : Rec} {rest : List Rec}

/-! ## Into a queue -/

theorem State.queueLoss_of_none {x : Queue} (h : s.queue? q = some x) (hLost : x.lost = 0) : s.queueLoss q = s := by
  unfold State.queueLoss
  rw [h]
  exact if_pos hLost

/-- Queue `q` as its LOSS record is formed. -/
def Queue.lossTaken (x : Queue) : Queue := { x with lost := 0, ctlLost := false, lossDue := false }

theorem State.queueLoss_of_wait {x : Queue} (h : s.queue? q = some x) (hLost : x.lost ≠ 0) (hSlot : x.hasSlot 1 = true) :
    s.queueLoss q = s.setQueue q { x with lossDue := true } := by
  unfold State.queueLoss
  rw [h]
  exact (if_neg hLost).trans (if_pos hSlot)

theorem State.queueLoss_of_some {x : Queue} (h : s.queue? q = some x) (hLost : x.lost ≠ 0) (hSlot : x.hasSlot 1 = false) :
    s.queueLoss q = (s.setQueue q x.lossTaken).accept q 1 (lossRec s 2 0 0 0 x.lost (4 * b2n x.ctlLost)) := by
  unfold State.queueLoss
  rw [h]
  exact (if_neg hLost).trans (if_neg (by rw [hSlot]; decide))

/-- The LOSS record of a queue, where drops wait, is one record more in it. -/
theorem State.queueLoss_appends (h : s.regsWf = true) {x : Queue} (hx : s.queue? q = some x) :
    ∃ y pre, (s.queueLoss q).queue? q = some y ∧ y.items = x.items ++ pre ∧ pre.length ≤ 1
      ∧ (x.lost = 0 → pre = [] ∧ (s.queueLoss q).qpos q = s.qpos q)
      ∧ ((s.queueLoss q).qpos q) % 2 ^ 64 = (s.qpos q + pre.length) % 2 ^ 64
      ∧ (s.queueLoss q).tick = s.tick ∧ (s.queueLoss q).regsWf = true := by
  by_cases hLost : x.lost = 0
  · rw [State.queueLoss_of_none hx hLost]
    exact ⟨x, [], hx, (List.append_nil _).symm, Nat.zero_le _, fun _ => ⟨rfl, rfl⟩, rfl, rfl, h⟩
  · by_cases hSlot : x.hasSlot 1 = true
    · rw [State.queueLoss_of_wait hx hLost hSlot]
      refine ⟨_, [], State.queue?_setQueue_same .., (List.append_nil _).symm, Nat.zero_le _, fun hc => absurd hc hLost, ?_, rfl,
        State.setQueue_wf h ..⟩
      rw [State.setQueue_qpos]
      rfl
    · rw [State.queueLoss_of_some hx hLost (by simpa using hSlot)]
      obtain ⟨⟨y, hy, hItems, -⟩, hPos, hTick, wf⟩ := State.accept_appends (State.setQueue_wf h q x.lossTaken)
        (s.queue?_setQueue_same q x.lossTaken) 1 (lossRec s 2 0 0 0 x.lost (4 * b2n x.ctlLost))
      refine ⟨y, _, hy, hItems, Nat.le_refl _, fun hc => absurd hc hLost, ?_, hTick, wf⟩
      rw [hPos, State.setQueue_qpos, Nat.mod_mod]
      rfl

theorem State.enqueue_of_full {x : Queue} (h : s.queue? q = some x) (hFull : s.share q * 32768 ≤ x.normal) (r : Rec) :
    s.enqueue q r = s.dropAtQueue q r := by
  unfold State.enqueue
  rw [h]
  exact if_pos hFull

theorem State.enqueue_of_room {x : Queue} (h : s.queue? q = some x) (hRoom : x.normal < s.share q * 32768) (r : Rec) :
    s.enqueue q r = (s.queueLoss q).accept q 0 r := by
  unfold State.enqueue
  rw [h]
  exact if_neg (by omega)

/-- A record that finds room is the newest of its queue, behind the LOSS record of the drops before it. -/
theorem State.enqueue_appends (h : s.regsWf = true) {x : Queue} (hx : s.queue? q = some x) (hRoom : x.normal < s.share q * 32768) (r : Rec) :
    ∃ y pre k, (s.enqueue q r).queue? q = some y ∧ y.items = x.items ++ pre ++ [k] ∧ pre.length ≤ 1 ∧ (x.lost = 0 → pre = []) ∧ k.r = r
      ∧ k.enter = s.tick ∧ k.slot = 0 ∧ (x.lost = 0 → k.qpos = s.qpos q % 2 ^ 64)
      ∧ (s.enqueue q r).qpos q = (s.qpos q + pre.length + 1) % 2 ^ 64 := by
  rw [State.enqueue_of_room hx hRoom]
  obtain ⟨y, pre, hy, hItems, hLen, hNone, hPos, hTick, wf⟩ := State.queueLoss_appends h hx
  obtain ⟨⟨z, hz, hItemsZ, -⟩, hPosZ, -, -⟩ := State.accept_appends wf hy 0 r
  refine ⟨z, pre, (s.queueLoss q).itemOf q 0 r, hz, by rw [hItemsZ, hItems], hLen, fun hLost => (hNone hLost).1, rfl, hTick, rfl,
    fun hLost => congrArg (· % 2 ^ 64) (hNone hLost).2, ?_⟩
  rw [hPosZ]
  omega

theorem State.onQueue_of_some {x : Queue} (h : s.queue? q = some x) (f : Queue → Queue) : s.onQueue q f = s.setQueue q (f x) := by
  unfold State.onQueue
  rw [h]

/-- A record that finds none is lost, and counted in Q_DROP. -/
theorem State.dropAtQueue_counts (h : s.regsWf = true) (hq : q < 4096) {x : Queue} (hx : s.queue? q = some x) (r : Rec) :
    (∃ y, (s.dropAtQueue q r).queue? q = some y ∧ y.items = x.items ∧ y.lost = x.lost + 1 ∧ y.ctlLost = (x.ctlLost || !r.isStamp))
      ∧ (s.dropAtQueue q r).get (Adr.QW q) Fl.QW_Q_DROP = min 0xffffffff (s.get (Adr.QW q) Fl.QW_Q_DROP + 1) := by
  set u := (s.count (Adr.QW q) Fl.QW_Q_DROP 1).hubEvent 0x0B 1 with hu
  have hQueue : u.queue? q = some x :=
    (State.queue?_congr (congrArg ExportEng.queues ((State.hubEvent_exp ..).trans (State.count_exp ..))) q).trans hx
  have hCount : u.get (Adr.QW q) Fl.QW_Q_DROP = min 0xffffffff (s.get (Adr.QW q) Fl.QW_Q_DROP + 1) :=
    ((State.hubEvent_busReg ..).get (State.count_regsWf _ _ _ h) _ _ (qw_not_busReg hq (by decide))).trans
      (State.get_count_same h _ _ _ (by decide))
  unfold State.dropAtQueue
  rw [← hu]
  dsimp only
  rw [State.onQueue_of_some hQueue]
  exact ⟨⟨_, State.queue?_setQueue_same .., rfl, rfl, rfl⟩, (State.setQueue_get ..).trans hCount⟩

/-! ## Destinations -/

theorem State.destInfo_congr (h : s.regsWf = true) (k : WritesOnly perfReg s t) (hHost : t.host = s.host) (hPair : t.pair = s.pair)
    (hq : q < 4096) : t.destInfo q = s.destInfo q := by
  have hWord : t.rd (Adr.SESS q) = s.rd (Adr.SESS q) := k.rd h _ (by
    unfold perfReg Adr.SESS
    omega)
  unfold State.destInfo State.sess? State.sessState State.sessRole
  rw [hHost, hPair, State.get_of_rd hWord rfl, State.get_of_rd hWord rfl]

/-- The performance counters have no part in where a record goes. -/
theorem State.dests_congr (h : s.regsWf = true) (k : WritesOnly perfReg s t) (hHost : t.host = s.host) (hPair : t.pair = s.pair)
    (hQueues : t.exp.queues = s.exp.queues) (p : Nat) : t.dests p = s.dests p := by
  have hPol : ∀ f : Field, f.off = 0x14 → t.get (Adr.POL p) f = s.get (Adr.POL p) f := fun f hf => k.get h _ f (by
    rw [hf]
    unfold perfReg Adr.POL
    omega)
  have hExp : ∀ f : Field, f.off = 0 → t.get Adr.EXP f = s.get Adr.EXP f := fun f hf => k.get h _ f (by
    rw [hf]
    unfold perfReg Adr.EXP
    omega)
  have hTen := State.destInfo_congr (q := s.get (Adr.POL p) Fl.POL_SESSION) h k hHost hPair (getBits_lt ..)
  have hOwner := State.destInfo_congr (q := s.get Adr.EXP Fl.EXP_OWNER_Q) h k hHost hPair (getBits_lt ..)
  unfold State.dests State.flag
  dsimp only
  rw [hPol _ rfl, hPol _ rfl, hPol _ rfl, hExp _ rfl, hExp _ rfl, hTen, hOwner, funext (State.queue?_congr hQueues)]

theorem State.deliver_of_none (h : s.dests p = []) (r : Rec) : s.deliver p r = s.count Adr.EXP Fl.EXP_NODEST 1 := by
  unfold State.deliver
  rw [h]

/-- A record written through its checker into the record buffer. -/
def State.buffered (s : State) (r : Rec) : State := (s.checkRec 0xA4 r).2.storeRecord

theorem State.deliver_of_one (h : s.dests p = [q]) (r : Rec) : ∃ b, s.deliver p r = (s.buffered r).enqueue q { r with bad := b } := by
  obtain ⟨b, hb⟩ := checkRec_eq s 0xA4 r
  refine ⟨b, ?_⟩
  unfold State.deliver
  rw [h, ← hb]
  rfl

theorem State.buffered_exp (s : State) (r : Rec) : (s.buffered r).exp = s.exp := (State.storeRecord_exp _).trans (State.checkRec_exp ..)

theorem State.buffered_tick (s : State) (r : Rec) : (s.buffered r).tick = s.tick :=
  (State.busIssue_tick ..).trans (s.checkRec_portRecords (point := 0) (p := 0) 0xA4 r).tick

theorem State.buffered_busReg (s : State) (r : Rec) : WritesOnly busReg s (s.buffered r) :=
  WritesOnly.trans (.of_regs (s.checkRec_regs 0xA4 r) (s.checkRec_portRecords (point := 0) (p := 0) 0xA4 r).variant) (State.storeRecord_busReg _)

/-! ## A record handed over -/

theorem recordHandoff_of_not_next (h : s.nextTile ≠ some n) : recordHandoff n s = s := if_pos h

/-- Tile `n` has had its turn, and its oldest record is taken. -/
def State.served (s : State) (n : Nat) (rest : List Rec) : State :=
  { s with exp := { s.exp with turn := n } }.setTile n { s.tile n with intake := rest }

/-- The record counted as handed over. -/
def State.handed (s : State) (n : Nat) (rest : List Rec) : State := (s.served n rest).hubEvent 0x0A 1

theorem recordHandoff_of_next (hNext : s.nextTile = some n) (hi : (s.tile n).intake = r :: rest) :
    recordHandoff n s = if agedOut s r then (s.served n rest).dropRec 1 r
      else if r.isStamp then ((s.handed n rest).takeSample r).policeStamp r else (s.handed n rest).deliver r.port r := by
  unfold recordHandoff
  rw [if_neg (by rw [hNext]; exact fun hc => hc rfl)]
  dsimp only
  rw [hi]
  rfl

theorem recordHandoff_of_ctl (hNext : s.nextTile = some n) (hi : (s.tile n).intake = r :: rest) (hr : r.isStamp = false) :
    recordHandoff n s = (s.handed n rest).deliver r.port r := by
  have hYoung : agedOut s r = false := by
    unfold agedOut
    rw [hr]
    rfl
  rw [recordHandoff_of_next hNext hi, hYoung, hr]
  rfl

theorem State.served_tablesWf (h : s.exp.tablesWf = true) (n : Nat) (rest : List Rec) : (s.served n rest).exp.tablesWf = true :=
  State.setTile_tablesWf (s := { s with exp := { s.exp with turn := n } }) h ..

theorem State.served_tile (h : s.exp.tablesWf = true) (n : Nat) (rest : List Rec) :
    (s.served n rest).tile n = { s.tile n with intake := rest } :=
  State.tile_setTile_same (s := { s with exp := { s.exp with turn := n } }) h ..

/-- A record not dropped leaves the tiles as they are without it. -/
theorem recordHandoff_tilesKept (hNext : s.nextTile = some n) (hi : (s.tile n).intake = r :: rest) (hYoung : agedOut s r = false) :
    TilesKept (s.served n rest) (recordHandoff n s) := by
  have kHub : TilesKept (s.served n rest) (s.handed n rest) := .of_exp (State.hubEvent_exp ..)
  rw [recordHandoff_of_next hNext hi, hYoung, if_neg (by decide)]
  exact ite_tilesKept (kHub.trans ((State.takeSample_tilesKept ..).trans (State.policeStamp_tilesKept ..)))
    (kHub.trans (State.deliver_tilesKept ..))

/-- The record leaves its intake in the tile's turn. -/
theorem recordHandoff_serves (hT : s.exp.tablesWf = true) (hNext : s.nextTile = some n) (hi : (s.tile n).intake = r :: rest) {u : State}
    (hu : recordHandoff n s = u) : u.exp.turn = n ∧ (u.tile n).fifo = (s.tile n).fifo
      ∧ ((agedOut s r = false ∨ ∀ y ∈ rest, y.lossOf 1 r.port = false) → (u.tile n).intake = rest) := by
  have hTile := State.served_tile hT n rest
  by_cases hAged : agedOut s r = true
  · rw [recordHandoff_of_next hNext hi, if_pos hAged] at hu
    subst hu
    obtain ⟨l, hAt, -, hSame⟩ := State.dropRec_tile (State.served_tablesWf hT n rest) 1 r n
    rw [TilePath.put_one, hTile] at hAt
    rw [hTile] at hSame
    refine ⟨((s.served n rest).dropRec_portRecords 1 r).turn, by rw [hAt], ?_⟩
    rintro (hc | hNone)
    · rw [hAged] at hc
      cases hc
    · rw [hAt]
      exact hSame hNone
  · have k := recordHandoff_tilesKept hNext hi (by simpa using hAged)
    rw [hu] at k
    have hAt := (k.tile n).trans hTile
    rw [hAt]
    exact ⟨k.turn, rfl, fun _ => rfl⟩

/-- A record too old is dropped at point 0x1. -/
theorem recordHandoff_drops (h : s.regsWf = true) (hNext : s.nextTile = some n) (hi : (s.tile n).intake = r :: rest)
    (hAged : agedOut s r = true) {u : State} (hu : recordHandoff n s = u) : u.exp.queues = s.exp.queues
      ∧ u.get Adr.AGG_DROP Fl.AGG_DROP_COUNT = min 0xffffffff (s.get Adr.AGG_DROP Fl.AGG_DROP_COUNT + 1) := by
  rw [recordHandoff_of_next hNext hi, if_pos hAged] at hu
  subst hu
  exact ⟨((s.served n rest).dropRec_portRecords 1 r).queues, (State.dropRec_counts (s := s.served n rest) h 1 r).2.2 (by decide)⟩

theorem State.handed_perfReg (s : State) (n : Nat) (rest : List Rec) : WritesOnly perfReg s (s.handed n rest) :=
  ((s.served n rest).hubEvent_perfReg 0x0A 1).after rfl rfl

theorem State.handed_exp (s : State) (n : Nat) (rest : List Rec) : (s.handed n rest).exp = (s.served n rest).exp := State.hubEvent_exp ..

theorem State.handed_queues (s : State) (n : Nat) (rest : List Rec) : (s.handed n rest).exp.queues = s.exp.queues :=
  (congrArg ExportEng.queues (s.handed_exp n rest)).trans rfl

theorem State.handed_dests (h : s.regsWf = true) (n : Nat) (rest : List Rec) (p : Nat) : (s.handed n rest).dests p = s.dests p :=
  State.dests_congr h (s.handed_perfReg n rest) (State.hubEvent_host (s.served n rest) ..)
    ((State.hubEvent_reports .rfl 0x0A 1 : Reports (s.served n rest) _).pair) (s.handed_queues n rest) p

/-- A record without destination counts NODEST. -/
theorem recordHandoff_counts (h : s.regsWf = true) (hNext : s.nextTile = some n) (hi : (s.tile n).intake = r :: rest)
    (hr : r.isStamp = false) (hNone : s.dests r.port = []) {u : State} (hu : recordHandoff n s = u) :
    u.exp.queues = s.exp.queues ∧ u.get Adr.EXP Fl.EXP_NODEST = min 0xffffffff (s.get Adr.EXP Fl.EXP_NODEST + 1) := by
  rw [recordHandoff_of_ctl hNext hi hr, State.deliver_of_none ((State.handed_dests h n rest _).trans hNone)] at hu
  subst hu
  have kHanded := s.handed_perfReg n rest
  refine ⟨s.handed_queues n rest, (State.get_count_same (kHanded.wf h) _ _ _ (by decide)).trans ?_⟩
  rw [kHanded.get h Adr.EXP Fl.EXP_NODEST (by simp only [perfReg, Adr.EXP, Fl.EXP_NODEST]; omega)]
  rfl

/-- The state in which a record handed over enters its queue. -/
def State.landed (s : State) (n : Nat) (rest : List Rec) (r : Rec) : State := (s.handed n rest).buffered r

theorem State.landed_busReg (s : State) (n : Nat) (rest : List Rec) (r : Rec) : WritesOnly busReg s (s.landed n rest r) :=
  ((s.handed_perfReg n rest).mono fun a ha => by
    unfold perfReg at ha
    unfold busReg
    omega).trans (State.buffered_busReg ..)

theorem State.landed_queue? (s : State) (n : Nat) (rest : List Rec) (r : Rec) (q : Nat) : (s.landed n rest r).queue? q = s.queue? q :=
  State.queue?_congr ((congrArg ExportEng.queues (State.buffered_exp ..)).trans (s.handed_queues n rest)) q

theorem State.landed_tick (s : State) (n : Nat) (rest : List Rec) (r : Rec) : (s.landed n rest r).tick = s.tick :=
  (State.buffered_tick ..).trans (State.hubEvent_tick ..)

/-- A record with one destination is the newest of its queue, or is dropped and counted there. -/
theorem recordHandoff_queues (h : s.regsWf = true) (hNext : s.nextTile = some n) (hi : (s.tile n).intake = r :: rest)
    (hr : r.isStamp = false) (hOne : s.dests r.port = [q]) (hq : q < 4096) {x : Queue} (hx : s.queue? q = some x) {u : State}
    (hu : recordHandoff n s = u) :
    (x.normal < s.share q * 32768 → ∃ y pre k, u.queue? q = some y ∧ y.items = x.items ++ pre ++ [k] ∧ pre.length ≤ 1
        ∧ (x.lost = 0 → pre = []) ∧ k.r.w = r.w ∧ k.r.port = r.port ∧ k.enter = s.tick ∧ k.slot = 0
        ∧ (x.lost = 0 → k.qpos = s.qpos q % 2 ^ 64) ∧ u.qpos q = (s.qpos q + pre.length + 1) % 2 ^ 64)
      ∧ (s.share q * 32768 ≤ x.normal → ∃ y, u.queue? q = some y ∧ y.items = x.items ∧ y.lost = x.lost + 1 ∧ y.ctlLost = true
        ∧ u.get (Adr.QW q) Fl.QW_Q_DROP = min 0xffffffff (s.get (Adr.QW q) Fl.QW_Q_DROP + 1)) := by
  obtain ⟨b, hEq⟩ := State.deliver_of_one ((State.handed_dests h n rest _).trans hOne) r
  rw [recordHandoff_of_ctl hNext hi hr, hEq] at hu
  have kLanded := s.landed_busReg n rest r
  have hQueue := (s.landed_queue? n rest r q).trans hx
  have hTick := s.landed_tick n rest r
  change (s.landed n rest r).enqueue q { r with bad := b } = u at hu
  generalize s.landed n rest r = v at hu kLanded hQueue hTick
  have wf := kLanded.wf h
  have hGet : ∀ f : Field, f.off < 0x40 → v.get (Adr.QW q) f = s.get (Adr.QW q) f := fun f hf =>
    kLanded.get h _ f (qw_not_busReg hq hf)
  have hShare : v.share q = s.share q := hGet _ (by decide)
  have hPos : v.qpos q = s.qpos q := by
    unfold State.qpos State.getPair
    rw [hGet _ (by decide), hGet _ (by decide)]
  rw [← hShare]
  refine ⟨fun hRoom => ?_, fun hFull => ?_⟩
  · obtain ⟨y, pre, k, hy, hItems, hLen, hNone, hRec, hEnter, hSlot, hAt, hNext⟩ := State.enqueue_appends wf hQueue hRoom { r with bad := b }
    rw [hu] at hy hNext
    rw [hPos] at hAt hNext
    exact ⟨y, pre, k, hy, hItems, hLen, hNone, by rw [hRec], by rw [hRec], hEnter.trans hTick, hSlot, hAt, hNext⟩
  · rw [State.enqueue_of_full hQueue hFull] at hu
    obtain ⟨⟨y, hy, hItems, hLost, hCtl⟩, hDrop⟩ := State.dropAtQueue_counts wf hq hQueue { r with bad := b }
    rw [hu] at hy hDrop
    rw [hGet _ (by decide)] at hDrop
    refine ⟨y, hy, hItems, hLost, hCtl.trans ?_, hDrop⟩
    rw [show Rec.isStamp { r with bad := b } = r.isStamp from rfl, hr]
    exact Bool.or_true _

/-- Settles O35: a record passes by transfer to the intake, by handoff to its queue; each store drops what finds it full, the tiles and the
handoff what is too old, and the accounts of the drops become LOSS records. -/
theorem recordsTravelInOrder : Obligations.RecordsTravelInOrder := by
  intro s h hT
  refine ⟨?_, ?_, ?_, ?_, ?_, ?_, ?_, ?_, ?_, ?_, ?_, ?_, ?_⟩
  · exact fun t r rest hn hf hFail hEx => ⟨_, rfl, tileLinkTransfer_stays h hn hf hFail hEx rfl⟩
  · exact fun t r rest hn hf hPass hBad hCode hEx => ⟨_, rfl, tileLinkTransfer_repairs h hT hn hf hPass hBad hCode hEx rfl⟩
  · intro t r rest hn hf hPass hCode
    cases hBad : r.bad with
    | true =>
      obtain ⟨hQueues, hFifo, hIntake, hCount⟩ := tileLinkTransfer_discards h hT hn hf hPass hCode hBad rfl
      exact ⟨_, rfl, hQueues, fun hc => hFifo (hc.resolve_left (by decide)), nofun, nofun, nofun, fun _ hp => ⟨hIntake, hCount hp⟩⟩
    | false =>
      obtain ⟨hQueues, hFifo, hRoom, hFull, hCtl⟩ := tileLinkTransfer_carries h hT hf hPass hCode hBad rfl
      exact ⟨_, rfl, hQueues, fun _ => hFifo, fun _ => hRoom, fun _ => hFull, fun _ => hCtl, nofun⟩
  · exact fun t hNil => congrArg Host.Outcome.next (tileLinkTransfer_of_nil hNil)
  · exact fun t hNot => congrArg Host.Outcome.next (recordHandoff_of_not_next hNot)
  · intro t r rest hNext hi
    obtain ⟨hTurn, hFifo, hIntake⟩ := recordHandoff_serves hT hNext hi rfl
    exact ⟨_, rfl, hTurn, hFifo, hIntake, fun hAged => recordHandoff_drops h hNext hi hAged rfl,
      fun hr hNone => recordHandoff_counts h hNext hi hr hNone rfl, fun q x hr hOne hq hx => recordHandoff_queues h hNext hi hr hOne hq hx rfl⟩
  · exact fun t _ hTurn hSome => State.nextTile_of_next hTurn hSome
  · exact fun t hn hSome hOnly => State.nextTile_of_only hn hSome hOnly
  · exact fun t => ⟨_, rfl, recordAgeDrop_drops hT rfl⟩
  · intro p hCount hDue
    obtain ⟨hSrx, hRec, hRest⟩ := State.formLoss_reports (point := 0) hT hCount rfl
    exact ⟨_, congrArg Host.Outcome.next (lossRecord_of_due (by decide) hCount hDue), by rw [hSrx]; rfl, hRec, hRest⟩
  · intro p hCount hDue
    obtain ⟨hSrx, hRec, hRest⟩ := State.formLoss_reports (point := 1) hT hCount rfl
    exact ⟨_, congrArg Host.Outcome.next (lossRecord_of_due (by decide) hCount hDue), by rw [hSrx]; rfl, hRec, hRest⟩
  · exact fun p hNot => congrArg Host.Outcome.next (lossRecord_of_not_due (point := 0) hNot)
  · exact fun p hNot => congrArg Host.Outcome.next (lossRecord_of_not_due (point := 1) hNot)

end Sys2Proof.Machine
end
